-- ==== Sys2Proof/Word.lean ====
section
/-! DEFINITION. The words of the part (R19), reading their fields, and the sorted tables State is built from. -/

namespace Sys2Proof

/-- A byte. -/
abbrev Byte := BitVec 8
/-- A register or a packet dword (R46). -/
abbrev Word := BitVec 32
/-- Domain time (R19) and the other 64-bit words. -/
abbrev DWord := BitVec 64

/-- Bits [hi:lo] of a number. -/
def bits (v hi lo : Nat) : Nat := (v >>> lo) % 2 ^ (hi + 1 - lo)

/-- Bit i of a number. -/
def bit (v i : Nat) : Bool := v.testBit i

/-- A flag as a number. -/
def flag (b : Bool) : Nat := if b then 1 else 0

/-- v held at the largest value of a counter that saturates at m. -/
def sat (m v : Nat) : Nat := if m ≤ v then m else v

/-- Rounded-up division. -/
def ceilDiv (a b : Nat) : Nat := (a + b - 1) / b

/-- The little-endian bytes of v (00_scope, Numbers and units: multi-byte fields are little-endian). -/
def leBytes : Nat → Nat → List Byte
  | 0, _ => []
  | n + 1, v => BitVec.ofNat 8 v :: leBytes n (v / 256)

/-- The number little-endian bytes spell. -/
def ofLe : List Byte → Nat
  | [] => 0
  | b :: r => b.toNat + 256 * ofLe r

/-- The number big-endian bytes spell. -/
def ofBe (l : List Byte) : Nat := ofLe l.reverse

/-- A two's complement reading of an n-bit field. -/
def signed (n v : Nat) : Int := if v < 2 ^ (n - 1) then (v : Int) else (v : Int) - (2 ^ n : Nat)

/-- The n-bit field a signed number is written as. -/
def ofSigned (n : Nat) (v : Int) : Nat := (v % ((2 ^ n : Nat) : Int)).toNat

/-- A table by number: pairs in rising order of key, each key once. -/
abbrev Tbl (α : Type) := List (Nat × α)

/-- The entry under a key. -/
def Tbl.get {α : Type} : Tbl α → Nat → Option α
  | [], _ => none
  | (k, v) :: r, i => if k = i then some v else Tbl.get r i

/-- The entry under a key, or a default for a key that is not listed. -/
def Tbl.getD {α : Type} (t : Tbl α) (i : Nat) (d : α) : α := (Tbl.get t i).getD d

/-- Whether a key is listed. -/
def Tbl.has {α : Type} (t : Tbl α) (i : Nat) : Bool := (Tbl.get t i).isSome

/-- The table with an entry put under a key, kept in rising order. -/
def Tbl.set {α : Type} : Tbl α → Nat → α → Tbl α
  | [], i, x => [(i, x)]
  | (k, v) :: r, i, x =>
    if i < k then (i, x) :: (k, v) :: r
    else if i = k then (i, x) :: r
    else (k, v) :: Tbl.set r i x

/-- The table without a key. -/
def Tbl.erase {α : Type} : Tbl α → Nat → Tbl α
  | [], _ => []
  | (k, v) :: r, i => if k = i then Tbl.erase r i else (k, v) :: Tbl.erase r i

/-- The entry under a key changed; a key not listed stays so. -/
def Tbl.modify {α : Type} : Tbl α → Nat → (α → α) → Tbl α
  | [], _, _ => []
  | (k, v) :: r, i, f => if k = i then (k, f v) :: Tbl.modify r i f else (k, v) :: Tbl.modify r i f

/-- The entry under a key changed, a key not listed taken to hold d. -/
def Tbl.alter {α : Type} (t : Tbl α) (i : Nat) (d : α) (f : α → α) : Tbl α := Tbl.set t i (f (Tbl.getD t i d))

/-- Every entry changed. -/
def Tbl.mapVal {α : Type} (t : Tbl α) (f : Nat → α → α) : Tbl α := t.map fun p => (p.1, f p.1 p.2)

/-- The lowest number from lo on, of n tried, that is not listed. -/
def Tbl.firstFree {α : Type} (t : Tbl α) : Nat → Nat → Option Nat
  | _, 0 => none
  | lo, n + 1 => if Tbl.has t lo then Tbl.firstFree t (lo + 1) n else some lo

/-- The keys rise strictly. -/
def Tbl.wf {α : Type} : Tbl α → Bool
  | [] => true
  | [_] => true
  | (k, _) :: (j, w) :: r => decide (k < j) && Tbl.wf ((j, w) :: r)

/-- l with x put at the end and the oldest entries dropped past n. -/
def pushLast {α : Type} (n : Nat) (l : List α) (x : α) : List α := (l ++ [x]).drop (l.length + 1 - n)

/-- The numbers of [0, n) that satisfy p, in rising order. -/
def numsWhere (n : Nat) (p : Nat → Bool) : List Nat := (List.range n).filter p

/-- The set bits of a mask of n bits. -/
def maskBits (n m : Nat) : List Nat := numsWhere n (bit m)

/-- f applied once for each number of a list, in order. -/
def forEach {σ : Type} (l : List Nat) (f : Nat → σ → σ) (s : σ) : σ := l.foldl (fun s i => f i s) s

end Sys2Proof
end

