-- ==== Sys2Proof/Config.lean ====
section
/-! DEFINITION. What an implementation of the part fixes and the free values: constants without a body. -/

namespace Sys2Proof

/-- A free value (log entry 9): nothing constrains it. The argument is the step's counter `freeCtr`. -/
opaque Config.freeValue : Nat → Nat

/-- SHA-384 of a byte string, as a 384-bit number (FIPS 180-4, which the manual names and does not restate; log entry 8). -/
opaque Config.sha384 : List Byte → Nat

/-- ECDSA P-384: key, digest, r, s; whether the signature verifies (named and not restated; log entry 8). -/
opaque Config.ecdsaVerify : Nat → Nat → Nat → Nat → Bool

/-- The SHA-384 digest of the firmware signing key that the boot ROM holds (R420; the manual gives no value; log entry 10). -/
opaque Config.fwKeyDigest : Nat

/-- Control-plane firmware version: major, minor, patch (R77; the manual gives no value; log entry 10). -/
opaque Config.ctlFwVersion : Nat

/-- The PRT_MAC base address of a part (R266; a value of each part; log entry 10). -/
opaque Config.macBase : Nat

/-- The block code of an error record that no event code names, by what went wrong (R489; the manual gives no codes; log
entry 71): 1 a tag reused over a retained record, 2 a VF's write of HIF_PLANE_RESET, 3 a Wheelhouse table beyond reach, 4 a data-plane
block without progress, 5 a firmware update that failed, 6 a budget slot that failed, 7 a journal interrupted, 8 an image
check, 9 an item a granary refused. -/
opaque Config.blockCode : Nat → Nat

/-- The bytes of a record whose fields the manual names without their places, by the GET_LOG page or log it stands in: 3 a
reset cause (R44, R78), 4 a budget attempt (R17). The manual gives no layout (log entry 72). -/
opaque Config.recordBytes : Nat → List Nat → List Byte

/-- What 4 bits hold of a count of slots above 15 (R428 states none; log entry 73). -/
opaque Config.slotsNibble : Nat → Nat

/-- The 16-byte count header of a stone's part of a SPUR section, as a number, read as the count of its entries (R170; the manual
gives no layout; log entry 106). -/
opaque Config.spurCount : Nat → Nat

/-- The receive entries in a stone's part of a SPUR section: site, first arrival cycle, beats, source and destination scratch
offset of each (R158, R170; the manual gives no layout; log entry 106). -/
opaque Config.recvEntries : List Byte → List (Nat × Nat × Nat × Nat × Nat)

/-- Bytes a stone's stores take in from the image store in the nanosecond that ends at an instant (R157; the manual gives no
rate; log entry 107). -/
opaque Config.streamBytes : Nat → Nat

/-- Where the table of an address space at a level (4 to 0) that spans a VA lies, as a count of tables from the page table
store's base (R195, R196; the manual places no table; log entry 109). -/
opaque Config.tableAt : Nat → Nat → Nat → Nat

/-- The UDP source port of a connection: a hash of its two QP numbers (R241; the manual gives no hash; log entry 111). -/
opaque Config.udpHash : Nat → Nat → Nat

/-- The IEEE 802.1Q priority that frames of a traffic class travel at (R240; the manual maps none; log entry 111). -/
opaque Config.priorityOf : Nat → Nat

/-- The line of the hot cache that holds a line of pool memory, as a count of lines (R294; the manual gives no sets; log entry 112). -/
opaque Config.hotAt : Nat → Nat

/-- The body of a message whose fields the manual names without widths, by its TYPE and its fields (R304, R361; log entry 114). -/
opaque Config.messageBody : Nat → List Nat → List Byte

/-- The payload of a mailbox message whose fields the manual names without places, by its TYPE and its fields (R429; log entry 116). -/
opaque Config.mailPayload : Nat → List Nat → List Byte

end Sys2Proof
end

