-- ==== Sys2Proof/Syntax.lean ====
section
/-! DEFINITION. The commands: one constructor of Instr per row of spec/opcode_table.json, and the operands they carry. -/

namespace Sys2Proof

/-- Who submitted a command packet (R45): a PCIe function, the USB port, or a function of another member. -/
inductive Origin where
  /-- The queues of a PCIe function, 0 the PF and 1 to 15 a VF. -/
  | pcie (fn : Nat)
  /-- The USB service port. -/
  | usb
  /-- A function of another member, over the domain management channel (R363). -/
  | domain (member fn : Nat)
  deriving DecidableEq, Repr

/-- A command in the device, by who submitted it and its tag (R66). -/
structure CmdId where
  /-- The function or carrier. -/
  origin : Origin
  /-- TAG (R46). -/
  tag : Nat
  deriving DecidableEq, Repr

/-- What a row reads beside State: bus memory, and the errors that have come into the device's own memory by then
(log entries 4 and 108). -/
structure Bus where
  /-- Bus memory as (address, byte) pairs; an address not listed holds 0. -/
  host : List Host.Cell := []
  /-- Errors of HBM and DDR5 cells that no read has met yet, by cell address: true for one the memory ECC cannot correct
  (R191). -/
  errs : List (Nat × Bool) := []
  deriving DecidableEq, Repr

/-- The DOMAIN_ADMIN envelope of R51. -/
structure Envelope where
  /-- Sequence number. -/
  seq : Nat
  /-- Signature r. -/
  r : Nat
  /-- Signature s. -/
  s : Nat
  deriving DecidableEq, Repr

/-- What the bus answers to the fetch of an SQ entry (R60, R61; log entry 16). -/
structure Fetched where
  /-- The 16 dwords of the entry, or none when its memory cannot be read. -/
  packet : Option (List Word)
  /-- The entry of the envelope array, or none when it cannot be read. -/
  envelope : Option Envelope
  /-- Whether the memory of the SQ's completion queue can be written. -/
  cqReachable : Bool
  deriving DecidableEq, Repr

/-- Where a domain message came from or goes (R361, R362, R370): the peer of a Flume link, or a UDP address and port. -/
inductive Source where
  /-- The peer of a Flume link on a port. -/
  | flume (port : Nat)
  /-- A UDP source on an Ethernet port. -/
  | udp (port addr udpPort : Nat)
  deriving DecidableEq, Repr

/-- The body of a HEARTBEAT (R365). -/
structure HbBody where
  /-- Config digest. -/
  digest : Nat
  /-- Firmware version: major, minor, patch. -/
  major : Nat
  minor : Nat
  patch : Nat
  /-- Role. -/
  role : Nat
  /-- TIME_SUSPECT. -/
  timeSuspect : Bool
  /-- ASLEEP. -/
  asleep : Bool
  /-- LEAVING. -/
  leaving : Bool
  /-- t3. -/
  t3 : Nat
  /-- t1. -/
  t1 : Nat
  /-- t2. -/
  t2 : Nat
  deriving DecidableEq, Repr

/-- The header of a domain message and whether its CRC holds (R361). -/
structure MsgHead where
  /-- Source. -/
  src : Source
  /-- SENDER. -/
  sender : Nat
  /-- DOMAIN_ID. -/
  domain : Nat
  /-- Sender's incarnation. -/
  inc : Nat
  /-- The CRC-32C holds. -/
  crcOk : Bool
  deriving DecidableEq, Repr


/-- A HANDLE- or WINDOW-mode request at its first packet (R279, R305), and which directory copies of its entry cannot be
read (R295). -/
structure GReq where
  /-- The port it arrives on. -/
  port : Nat
  /-- The granary's QP. -/
  qpn : Nat
  /-- First PSN. -/
  psn : Nat
  /-- It writes. -/
  write : Bool
  /-- RETH VA: the handle, or the VA in the window. -/
  va : Nat
  /-- RETH R_Key: the offset in the bin, or the window key. -/
  key : Nat
  /-- Length. -/
  len : Nat
  /-- Bit 0 of BTH byte 8: STALL. -/
  stall : Bool
  /-- Bit 1 of BTH byte 8: the line is poisoned (R306). -/
  poison : Bool
  /-- On a Flume port, its end-to-end check value holds (R287). -/
  check : Bool
  /-- Data of a write. -/
  data : List Byte
  /-- Directory copy A is bad. -/
  dirA : Bool
  /-- Directory copy B is bad. -/
  dirB : Bool
  deriving DecidableEq, Repr

/-- What a requester is answered (R286, and the RoCEv2 RC rules the manual names). -/
inductive Ack where
  /-- An acknowledgement of every request up to a PSN. -/
  | ok
  /-- Responses of a READ: the payload that follows what has come before, up to the PSN. -/
  | response (data : List Byte)
  /-- RNR NAK with its timer code. -/
  | rnr (timer : Nat)
  /-- A standard NAK: 0 PSN sequence error, 1 invalid request, 2 remote access error, 3 remote operational error. -/
  | nak (code : Nat)
  deriving DecidableEq, Repr

/-- A RoCEv2 packet or message that arrives (R241, R276). -/
structure RoceIn where
  /-- Port. -/
  port : Nat
  /-- The transport is RC. -/
  rc : Bool
  /-- Its ICRC holds, or on a Flume port its end-to-end check value (R287). -/
  icrc : Bool
  /-- Its opcode is supported. -/
  known : Bool
  /-- It carries a CE mark. -/
  ce : Bool
  /-- Destination QP. -/
  qpn : Nat
  /-- PSN of its last packet and packets. -/
  psn : Nat
  npsn : Nat
  /-- The data of a SEND message; none for any other packet. -/
  send : Option (List Byte)
  /-- Immediate data. -/
  imm : Option Nat
  /-- SOLICITED. -/
  solicited : Bool
  deriving DecidableEq, Repr

/-- A record of the Wheelhouse's memory (R220). -/
inductive WheelRec where
  /-- Race record of the wheel table. -/
  | race (r : Nat)
  /-- Cog record: race × 16 + slot. -/
  | cog (key : Nat)
  /-- Histogram of an image. -/
  | histogram (image : Nat)
  /-- A held translation. -/
  | held
  /-- Storage of a monitor. -/
  | monitor (m : Nat)
  /-- Any other record. -/
  | other
  /-- An entry of the leaf cache, by its place (instance 257). -/
  | leaf (n : Nat)
  /-- An entry of the walk cache, by its place (instance 257). -/
  | walk (n : Nat)
  /-- An entry of the granary directory cache (instance 258). -/
  | directory
  /-- Millwright SRAM (instance 259). -/
  | sram
  deriving DecidableEq, Repr

/-- What a write narrower than a word brings (R223): the bytes that it enables, and the data. -/
structure Lanes where
  /-- Byte enables. -/
  en : Nat
  /-- The 64 bits of data, of which the enabled bytes count. -/
  data : Nat
  deriving DecidableEq, Repr

/-- Where a packet of a queue pair came in (R285, R287). -/
structure Via where
  /-- The fabric port. -/
  port : Nat
  /-- The queue pair that the packet names. -/
  q : Nat
  /-- The end-to-end check value that the packet carries on a Flume port matches. -/
  check : Bool
  deriving DecidableEq, Repr

/-- A correction of the time servo (R43, R372). -/
structure ServoStep where
  /-- The step of the counter, in ns. -/
  delta : Int
  /-- The rate from now on, in ns of domain time per 10^9 ns beside the nominal one (log entry 99). -/
  rate : Int
  deriving DecidableEq, Repr

/-- The write that lands a report in the report slot (R102, R375). -/
structure RseqWrite where
  /-- The RSEQ written. -/
  rseq : Nat
  /-- The queue pair over which it came, where it came over one. -/
  qp : Option Nat
  deriving DecidableEq, Repr

/-- An uncorrectable word that a reader outside the stones meets by a Wheelhouse tick (R220): its record, word address, class code
and syndrome. -/
structure WheelUe where
  /-- Record. -/
  record : WheelRec
  /-- Word. -/
  word : Nat
  /-- Class (R217, R218). -/
  cls : Nat
  /-- Syndrome. -/
  syn : Nat
  deriving DecidableEq, Repr

/-- The effects of one operation of a bundle: what it reads and what it computes (R154; log entry 32). -/
structure OpFx where
  /-- Scalar registers read for results. -/
  sreads : List Nat
  /-- Vector registers read. -/
  vreads : List Nat
  /-- Scratch ranges read: offset and bytes. -/
  loads : List (Nat × Nat)
  /-- Scalar registers written, with their values. -/
  scalars : List (Nat × Nat)
  /-- Vector registers written, with their lanes. -/
  vectors : List (Nat × List Nat)
  /-- Scratch written: offset and bytes. -/
  stores : List (Nat × List Byte)
  deriving DecidableEq, Repr

/-- The effects of a bundle: its scalar and its vector operation are separate (R154; log entry 32). -/
structure BundleFx where
  /-- The scalar operation. -/
  scalar : OpFx
  /-- The vector operation. -/
  vector : OpFx
  /-- Scalar registers used as an address, a branch condition or a loop count. -/
  control : List Nat
  /-- It depends on runner instructions issued before it (R160). -/
  afterRun : Bool
  deriving DecidableEq, Repr

/-- Where a runner instruction's operands and result lie, which the operand-address entry it names says (R155; log entry 32). -/
structure RunnerFx where
  /-- Index of the entry in the microcode store. -/
  oper : Nat
  /-- Scratch ranges read: offset and bytes. -/
  srcs : List (Nat × Nat)
  /-- First result word and how many. -/
  dst : Nat
  words : Nat
  deriving DecidableEq, Repr

/-- What a granary answers to a bin transfer of a mill (R319). -/
inductive BinReply where
  /-- It is done, with the bytes of a read. -/
  | ok (data : List Byte)
  /-- It is refused with a status code. -/
  | refused (status : Nat)
  deriving DecidableEq, Repr

/-- A send entry (R158). -/
structure Spur where
  /-- Site of the boundary that begins its segment. -/
  site : Nat
  /-- Schedule cycle. -/
  cycle : Nat
  /-- Destination, relative. -/
  dest : Nat
  /-- YX order. -/
  yx : Bool
  /-- Beats. -/
  beats : Nat
  /-- Source scratch offset in 64-byte units. -/
  src : Nat
  deriving DecidableEq, Repr

/-- A packet the transaction layer gives a Flume port to send (R250): its KIND, which gives its VC with what it carries (R251), and
its body (log entry 61). -/
structure FlumeOut where
  /-- KIND. -/
  kind : Nat
  /-- Mirror resilvering or other bulk traffic (R251). -/
  bulk : Bool
  /-- Bytes after the packet header, without the check value. -/
  body : List Byte
  deriving DecidableEq, Repr

/-- What the parameter exchange of a Flume port brings from the peer (R263). -/
structure FlumeParams where
  /-- Member ID. -/
  member : Nat
  /-- Role: 1 mill, 2 granary. -/
  role : Nat
  /-- Flume version. -/
  version : Nat
  /-- Credit allocation of each VC, in units of 4 flits. -/
  alloc : List Nat
  /-- The peer's loop marker, to be sent back. -/
  marker : Nat
  /-- The retry loop measured, in ns. -/
  loop : Nat
  /-- The peer's own refusal, by its reason (R265). -/
  refused : Option Nat
  deriving DecidableEq, Repr

/-- What the MAC sees of a received Ethernet frame (R240, R242). -/
structure EthFrame where
  /-- Bytes, with the FCS. -/
  len : Nat
  /-- IEEE 802.1Q tags. -/
  tags : Nat
  /-- It is a global PAUSE frame. -/
  pause : Bool
  /-- The priorities a priority flow control frame names, each with its pause in quanta of 512 bit times; none for any other
  frame. -/
  pfc : List (Nat × Nat)
  /-- Codewords the FEC corrected. -/
  corrected : Nat
  /-- Uncorrectable codewords it holds. -/
  uncorrectable : Nat
  /-- Its FCS holds. -/
  fcs : Bool
  deriving DecidableEq, Repr

/-- The DIMMs of a DDR5 channel pair as training finds them (R189; log entry 56). -/
structure PairPop where
  /-- Capacity code (0 16 GiB to 4 256 GiB) and rank count of each DIMM of the even channel, slot 0 first. -/
  even : List (Nat × Nat)
  /-- The same for the odd channel. -/
  odd : List (Nat × Nat)
  /-- Every one is a JEDEC DDR5 RDIMM with ECC and two 40-bit sub-channels, the first in slot 0. -/
  std : Bool
  /-- The pair trains. -/
  trains : Bool
  deriving DecidableEq, Repr

/-- Who asks for a plane reset (R35, R36): a host write of HIF_PLANE_RESET by a function, or another source of the plane. -/
inductive ResetBy where
  /-- A value written by a function. -/
  | host (fn val : Nat)
  /-- A request of the Millwright through the sequencer. -/
  | millwright
  /-- A fatal error of the plane (R491). -/
  | fatal
  deriving DecidableEq, Repr

/-- A firmware image in a flash slot, as the judgement of R421 sees it (log entry 13). -/
structure FwImage where
  /-- MAGIC is there. -/
  magic : Bool := true
  /-- HDR_VERSION, the reserved fields and BODY_BYTES are right. -/
  header : Bool := true
  /-- The key's digest is the ROM's. -/
  key : Bool := true
  /-- The signature verifies. -/
  sig : Bool := true
  /-- BODY_HASH is the body's. -/
  hash : Bool := true
  /-- SVN. -/
  svn : Nat := 1
  /-- The flash reads. -/
  readable : Bool := true
  /-- FW_VERSION major. -/
  major : Nat := 1
  /-- FW_VERSION minor. -/
  minor : Nat := 0
  /-- FW_VERSION patch. -/
  patch : Nat := 0
  deriving DecidableEq, Repr

/-- What the steward reads of a position's two flashes: the primary's active slot, golden slot 0, and whether the primary
has a valid pointer record (R421, R437). -/
structure Flashes where
  /-- The primary's active slot. -/
  primary : FwImage
  /-- Golden slot 0. -/
  golden : FwImage
  /-- A pointer record is valid. -/
  ptr : Bool
  deriving DecidableEq, Repr


/-- The commands. -/
inductive Instr where
  /-- COLD_RESET, R35: A rise of VDD_AO_IN restarts the whole device, reads the budget, brings up rails, checks the cleared-role record and sets the brake with power-up inhibit. -/
  | coldReset (pop : List PairPop)
  /-- ROLE_FILL_END, R6: The role-change zero fill of HBM and DDR5 ends; the cleared-role record is written and ROLE_STAT shows the role in force. -/
  | roleFillEnd
  /-- WARM_RESET, R37: Assertion of PERST_N resets the control and data planes and clears the state the reset matrix gives, restarting any role-change fill. -/
  | warmReset
  /-- PERST_N_DEASSERT, R508: Deassertion of PERST_N lets the endpoint train and answer configuration requests within 100 ms of the later of it and PLL lock. -/
  | perstNDeassert
  /-- CTL_PLANE_RESET, R39: A write of HIF_PLANE_RESET with CTL and the right key, or a Millwright request, begins a control-plane reset. -/
  | ctlPlaneReset (by_ : ResetBy)
  /-- DAT_PLANE_RESET, R41: A write of HIF_PLANE_RESET with DAT, a Millwright request or a data-plane fatal error resets the data plane, furling all sails, ending turns, aborting requests and moving QPs to ERROR. -/
  | datPlaneReset (by_ : ResetBy)
  /-- MGT_PLANE_RESET, R38: A write of HIF_PLANE_RESET with MGT resets only the management plane, leaving every other plane and the board outputs unchanged. -/
  | mgtPlaneReset (by_ : ResetBy)
  /-- CTL_RESET_END, R40: When the Wheelhouse runs again after a control-plane reset, fetched commands complete ABORTED and every cog is evaluated against the current wheel table. -/
  | ctlResetEnd
  /-- DAT_RESET_END, R290: When the data plane accepts dispatch again, TCHECK engines are re-claimed and DEVICE_FATAL is written after a fatal-error reset. -/
  | datResetEnd
  /-- MW_RESTART, R418: Millwright firmware runs again after a management-plane reset, reads the brake, settles the journal, drains its queues and resumes its servo and grants. -/
  | mwRestart
  /-- RECOVERY_SPI_RELEASE, R422: One second after both images fail, the ROM places SPI_MW_* at high impedance in recovery mode. -/
  | recoverySpiRelease
  /-- LOCKSTEP_MISMATCH, R416: A differing output of the two cores is suppressed and the management plane is reset with cause 0x0A. -/
  | lockstepMismatch (cls : Nat)
  /-- WATCHDOG_EXPIRY, R417: The management watchdog runs out its period and resets the management plane with cause 0x0B. -/
  | watchdogExpiry
  /-- WATCHDOG_KICK, R417: A write of 0xC0DE_0001 to MWR_WDT_KICK restarts the watchdog. -/
  | watchdogKick (val : Nat)
  /-- DAT_NO_PROGRESS_TIMEOUT, R491: A data-plane block that makes no progress for 100 ms while holding work is a plane-fatal error and resets the data plane. -/
  | datNoProgressTimeout (source : Nat)
  /-- MW_FORWARDED_COMMAND, R431: The Millwright takes a forwarded command from CTL_TO_MW, verifies any envelope, journals durable changes and executes it. -/
  | mwForwardedCommand
  /-- FORWARDED_COMPLETION, R431: A completion message on MW_TO_CTL is written to the submitter's CQ, or kept as a retained record. -/
  | forwardedCompletion
  /-- POWER_NOTICE, R400: The Millwright receives the power notice for entry to DEEP_SLEEP or OFF and prepares to enter WFI under mode 2. -/
  | powerNotice
  /-- WHL_HEARTBEAT_SEND, R432: Every 10 ms the Wheelhouse sends its heartbeat on CTL_TO_MW. -/
  | whlHeartbeatSend
  /-- WHL_HEARTBEAT_RECEIVE, R432: The Millwright receives a Wheelhouse heartbeat and restarts its loss timer. -/
  | whlHeartbeatReceive
  /-- CTL_HEARTBEAT_LOST, R432: No Wheelhouse heartbeat for 100 ms raises CTL_HEARTBEAT_LOST and, if configured, requests a control-plane reset. -/
  | ctlHeartbeatLost
  /-- HEADROOM_GRANT, R408: A grant on MW_TO_CTL switches the stone clock to 2.00 GHz for 100 ms unless the thermal sensor forces nominal. -/
  | headroomGrant
  /-- GRANT_LAPSE, R408: A headroom grant not renewed within 100 ms lapses and the stone clock returns to 1.80 GHz. -/
  | grantLapse
  /-- DOMAIN_TIME_ADJUSTMENT, R43: A time servo adjustment reaches the domain time counter and clears the time-holdover flag. -/
  | domainTimeAdjustment (servo : Option ServoStep) (offset : Int) (synced : Bool)
  /-- DOMAIN_AGENT_SLEEP_VOTE, R411: A domain-agent sleep vote message reaches the control plane to place or withdraw the granary's DDR vote. -/
  | domainAgentSleepVote (post : Bool)
  /-- ERROR_RECORD_MESSAGE, R487: The Millwright takes an error record from DAT_TO_MW as its copy of a data-plane error or event. -/
  | errorRecordMessage
  /-- PLANE_FATAL_NOTICE, R31: The Millwright takes a plane-fatal notice from DAT_TO_MW. -/
  | planeFatalNotice
  /-- SENSOR_REQUEST, R31: The Millwright takes a sensor request from check or port logic on DAT_TO_MW. -/
  | sensorRequest (post : Bool)
  /-- STONE_FENCE_REQUEST, R181: A Millwright fence request on MW_TO_DAT fences named stones as STONE_FENCE does. -/
  | stoneFenceRequest (stone : Option Nat) (floor : Bool)
  /-- PORT_MODE_REQUEST, R237: A Millwright port mode or retrain request on MW_TO_DAT is applied to its port. -/
  | portModeRequest (p : Option Nat) (mode : Nat) (retrain : Bool)
  /-- DIMM_BIST_REQUEST, R192: A Millwright request on MW_TO_DAT starts the BIST fill of a DDR5 pair. -/
  | dimmBistRequest (pair : Option Nat)
  /-- SQ_TAIL_DOORBELL, R60: A write of an SQ tail doorbell makes entries fetchable, or places the queue in ERROR for a bad index. -/
  | sqTailDoorbell (fn idx val : Nat)
  /-- CQ_HEAD_DOORBELL, R55: A write of a CQ head doorbell releases entries, lets waiting completions be written and resumes fetch from bound SQs. -/
  | cqHeadDoorbell (fn idx val : Nat)
  /-- COMMAND_FETCH, R61: The device fetches an SQ entry by class priority and weighted round robin and passes it to execution. -/
  | commandFetch (sq : Nat) (f : Fetched) (attachment : List Byte)
  /-- FENCED_COMMAND_START, R62: A command with FENCE starts once every earlier command of its SQ has completed and been written. -/
  | fencedCommandStart (id : CmdId)
  /-- STALL_RESUME, R64: A command waiting under STALL proceeds when its stallable condition clears. -/
  | stallResume (id : CmdId)
  /-- STALL_TIMEOUT, R64: A command stalled for 10 ms completes with TIMEOUT. -/
  | stallTimeout (id : CmdId)
  /-- CQ_COALESCE_TIMEOUT, R63: The oldest unsignalled CQ entry reaches the coalescing time and the CQ's MSI-X vector is signalled. -/
  | cqCoalesceTimeout (cq : Nat)
  /-- QUEUE_CREATE, R57: HIF_QCMD OP 1 creates the selected SQ or CQ from the queue registers, or flags the refusal. -/
  | queueCreate (fn : Nat)
  /-- QUEUE_DELETE, R83: HIF_QCMD OP 2 deletes the selected queue, an SQ once its fetched commands complete. -/
  | queueDelete (fn : Nat)
  /-- SQ_DELETE_DONE, R83: An SQ in deletion becomes free once every fetched command has completed. -/
  | sqDeleteDone (sq : Nat)
  /-- VF_QRANGE_WRITE, R56: The PF assigns a VF its range of global queue IDs, or the write is discarded and QCFG flagged. -/
  | vfQrangeWrite (fn n val : Nat)
  /-- REGISTER_WRITE, R20: A write to a register without a row of its own updates its fields according to their access codes; without
  a value, a read of any register (log entry 117). -/
  | registerWrite (by_ : Option Nat) (off : Nat) (val : Option Nat)
  /-- FLR_VF, R71: A function level reset of a VF resets its host interface and treats its objects by its FLR scope. -/
  | flrVf (n : Nat)
  /-- FLR_PF, R71: A function level reset of the PF resets the host interface of the PF and every VF. -/
  | flrPf
  /-- PCIE_HOT_RESET, R73: A PCIe hot reset or link loss acts as an FLR of the PF followed by link retraining. -/
  | pcieHotReset
  /-- NOP, R75: NOP completes with SUCCESS and has no effect. -/
  | nop (id : CmdId)
  /-- IDENTIFY, R77: IDENTIFY writes the 4 KiB identity page of part, role, member ID and versions. -/
  | identify (id : CmdId)
  /-- GET_LOG, R78: GET_LOG writes the requested log page, optionally releasing records or waiting for an event. -/
  | getLog (id : CmdId)
  /-- EVENT_WAIT_TIMEOUT, R488: A WAIT read of the event ring whose time limit passes with no event completes with 0 bytes. -/
  | eventWaitTimeout (id : CmdId)
  /-- SET_FEATURE, R80: SET_FEATURE sets a feature value for its target. -/
  | setFeature (id : CmdId)
  /-- GET_FEATURE, R80: GET_FEATURE returns a feature value for its target. -/
  | getFeature (id : CmdId)
  /-- ABORT, R76: ABORT completes a target command not yet accepted with ABORTED, and reports whether it was accepted or unknown. -/
  | abort (id : CmdId)
  /-- RACE_OPEN, R86: RACE_OPEN creates a race with rates, rings and start positions, anchored at the domain time of acceptance. -/
  | raceOpen (id : CmdId)
  /-- RACE_CLOSE, R88: RACE_CLOSE ends the race's turn, clears its cogs, stops its rings and frees its ID. -/
  | raceClose (id : CmdId)
  /-- RACE_ANCHOR, R101: RACE_ANCHOR sets the race anchor and recomputes position-defined DOMAIN_TIME_AT thresholds. -/
  | raceAnchor (id : CmdId)
  /-- PLAYOUT_REPORT, R103: A host playout report is validated and, if accepted, becomes the real base of the prediction. -/
  | playoutReport (id : CmdId)
  /-- COG_SET, R113: COG_SET replaces a cog slot atomically with type, mode, threshold and action, holding a hopper translation when needed. -/
  | cogSet (id : CmdId)
  /-- COG_CLEAR, R114: COG_CLEAR disarms the masked slots and reports those that had tripped. -/
  | cogClear (id : CmdId)
  /-- RACE_QUERY, R118: RACE_QUERY writes the race's 128-byte status record. -/
  | raceQuery (id : CmdId)
  /-- INGRESS_SEQ_WRITE, R93: A write of a descriptor's SEQ lands a frame when it equals NEXT_SEQ, which is then accepted or rejected and NEXT_SEQ advanced. -/
  | ingressSeqWrite (race slot seq : Nat)
  /-- REPORT_SLOT_WRITE, R102: A gateway's RSEQ write in the ingress report slot lands a playout report that is then validated. -/
  | reportSlotWrite (race : Nat) (w : RseqWrite)
  /-- TAIL_READ_SEQ_WRITE, R97: The consumer's READ_SEQ write frees tailrace slots and lets a stalled release continue. -/
  | tailReadSeqWrite (race seq : Nat)
  /-- WHEELHOUSE_TICK, R115: Every 53⅓ ns the Wheelhouse applies arrived writes and commands, evaluates changed cogs, issues tripped actions and places ready items. -/
  | wheelhouseTick (ue : Option WheelUe)
  /-- COG_DUE_EXPIRY, R115: The due time of a time-driven cog passes and the cog is evaluated and may trip. -/
  | cogDueExpiry (race slot : Nat)
  /-- DRY_DUE_EXPIRY, R107: The predicted playout reaches W and the tailrace goes DRY, or IDLE when FINAL is set. -/
  | dryDueExpiry (race : Nat)
  /-- TURN_BEGIN, R122: TURN_BEGIN binds a free turn slot to a race in LISTENING. -/
  | turnBegin (id : CmdId)
  /-- SAIL_RAISE, R127: SAIL_RAISE allocates an arena, records the hypothesis and makes the sail's first stage ready. -/
  | sailRaise (id : CmdId)
  /-- SAIL_SET, R131: SAIL_SET sets a raised sail through one gate batch that opens it and discards its siblings. -/
  | sailSet (id : CmdId)
  /-- SAIL_FURL, R132: SAIL_FURL discards a raised or set sail at the gate and stops its work. -/
  | sailFurl (id : CmdId)
  /-- TURN_END, R124: TURN_END moves a turn to RETIRING, furling raised sails or, with ABANDON, the set sail. -/
  | turnEnd (id : CmdId)
  /-- FURL_STONES_IDLE, R133: Every stone of a furling sail is idle and the sail reaches DRAINING, completing SAIL_FURL. -/
  | furlStonesIdle (turn : Nat) (sail : Option Nat)
  /-- SAIL_DRAIN_END, R126: Every started transfer of a draining sail ends; the slot becomes FREE and its arena is released. -/
  | sailDrainEnd (turn sail : Nat)
  /-- ARENA_ZERO_FILL_END, R207: A released arena finishes its zero fill and returns to the arena pool. -/
  | arenaZeroFillEnd (offset : Nat)
  /-- TAIL_FRAME_RELEASE, R138: The gate releases a tailrace frame into the ring, filling its descriptor and advancing W. -/
  | tailFrameRelease (turn sail : Nat)
  /-- HELD_WRITE_RELEASE, R140: A held write of a set sail is released over the path its descriptor names, in write order. -/
  | heldWriteRelease (turn sail : Nat) (failure : Option Nat)
  /-- IMAGE_LOAD, R175: IMAGE_LOAD checks, copies and binds an .amg image into the image store. -/
  | imageLoad (id : CmdId) (bus : Bus)
  /-- IMAGE_UNLOAD, R178: IMAGE_UNLOAD frees an image not bound in a chain and releases its held translations. -/
  | imageUnload (id : CmdId)
  /-- IMAGE_QUERY, R179: IMAGE_QUERY writes the image's 256-byte status and histogram record. -/
  | imageQuery (id : CmdId)
  /-- CHAIN_BIND, R177: CHAIN_BIND binds up to eight loaded images into a chain and resolves its CHAIN bindings. -/
  | chainBind (id : CmdId) (bus : Bus)
  /-- CHAIN_UNBIND, R177: CHAIN_BIND with stage count 0 unbinds an idle chain and releases its translations. -/
  | chainUnbind (id : CmdId)
  /-- STONE_FENCE, R181: STONE_FENCE takes a stone or floor out of service, yielding any gang running on it. -/
  | stoneFence (id : CmdId)
  /-- STONE_REINSTATE, R183: STONE_REINSTATE wakes a fenced stone or floor and starts BIST and scratch initialisation. -/
  | stoneReinstate (id : CmdId)
  /-- REINSTATE_BIST_END, R183: BIST ends; a passing stone is IN_SERVICE, a failing one stays FENCED with BIST_FAILED. -/
  | reinstateBistEnd (stone : Nat) (pass : Bool)
  /-- MATMUL, R156: A runner MATMUL is decoded, its cycle count bounded, and issued in order. -/
  | matmul (item stone : Nat) (fx : RunnerFx)
  /-- MATMUL_ACC, R156: A runner MATMUL_ACC accumulates a product under the same bound and order. -/
  | matmulAcc (item stone : Nat) (fx : RunnerFx)
  /-- GANG_FAULT_DRAIN_END, R167: A faulted gang's stones are free with scratch released and its save area returned. -/
  | gangFaultDrainEnd (item : Nat)
  /-- DMA_READ, R173: A READ template transfers from its binding into scratch. -/
  | dmaRead (item stone : Nat) (bus : Bus) (bin : BinReply)
  /-- DMA_WRITE, R173: A WRITE template writes scratch data to its binding, through the gate where required. -/
  | dmaWrite (item stone : Nat) (bin : BinReply)
  /-- DMA_TAIL_FRAME, R173: A TAIL_FRAME template writes one tailrace frame of the turn's race through the gate. -/
  | dmaTailFrame (item stone : Nat) (last : Bool)
  /-- DMA_VOICED, R99: A VOICED template writes the voiced flag and V, resetting the quiet gap count. -/
  | dmaVoiced (item stone : Nat)
  /-- DMA_DESCRIPTOR_DONE, R160: A DMA descriptor completes and releases a bed waiting on WAIT_DMA. -/
  | dmaDescriptorDone (item stone : Nat)
  /-- SPUR_SEND, R158: A spur send entry moves beats along its fixed route, checked for collision, bounds and matching receives. -/
  | spurSend (item stone : Nat) (send : Spur)
  /-- GRIST_BOUNDARY, R161: Every stone reaches the grist bundle; the gang passes it together, resets its schedule and yields if requested. -/
  | gristBoundary (item site : Nat)
  /-- YIELD_SAVE_DONE, R163: Every stone's save has been written; the block is free and the item returns to the ready set. -/
  | yieldSaveDone (item : Nat)
  /-- GRIST_OVERDUE, R162: A gang's advancing-cycle count reaches 16,384 without a boundary and the gang faults. -/
  | gristOverdue (item : Nat)
  /-- STAGE_HALT, R165: Every stone issues HALT; the completion position is written and the next stage or the sail's done state follows. -/
  | stageHalt (item : Nat)
  /-- MAP, R198: MAP writes page table entries for a range, optionally creating the ASID or replacing mappings. -/
  | map (id : CmdId)
  /-- UNMAP, R199: UNMAP invalidates a range's leaves, waits or cancels as XLATE_INVALIDATE does, and frees table space. -/
  | unmap (id : CmdId)
  /-- UNMAP_DESTROY, R199: UNMAP with DESTROY removes the whole address space and frees its ASID. -/
  | unmapDestroy (id : CmdId)
  /-- XLATE_INVALIDATE, R200: XLATE_INVALIDATE drops cached translations of a range and waits for, or cancels, descriptors using them. -/
  | xlateInvalidate (id : CmdId)
  /-- INVALIDATE_DRAIN_END, R200: The last descriptor holding an old translation ends and the invalidate completes. -/
  | invalidateDrainEnd (id : CmdId)
  /-- COPY, R203: COPY translates its ranges and queues an ascending copy or zero fill. -/
  | copy (id : CmdId)
  /-- COPY_DONE, R203: The last byte of a COPY is written and the command completes, with POISONED if a line was bad. -/
  | copyDone (id : CmdId) (bus : Bus)
  /-- BAR4_WRITE, R206: A BAR4 write is translated on arrival and written, or discarded with BAR4_FAULT. -/
  | bar4Write (fn off : Nat) (data : List Byte)
  /-- BAR4_READ, R206: A BAR4 read is translated on arrival and returns data, or all ones with BAR4_FAULT. -/
  | bar4Read (fn off n : Nat) (bus : Bus)
  /-- HOPPER_READ_COMPLETE, R209: A hopper fill read completes and the next read is posted, or the fill ends. -/
  | hopperReadComplete (race slot off : Nat) (r : BinReply)
  /-- DDR_PAIR_FAULT, R192: A DDR5 pair faults and goes down, poisoning mill accesses or losing granary bins. -/
  | ddrPairFault (pair reason : Nat)
  /-- DDR_BIST_FILL_END, R192: A pair's BIST fill ends; a passing pair returns to service, a failing one stays down. -/
  | ddrBistFillEnd (pair : Nat) (pass : Bool)
  /-- PATROL_SCRUB, R191: DDR5 patrol scrubbing of each populated channel falls due within its 24-hour cycle. -/
  | patrolScrub (ch : Nat) (errs : List (Nat × Bool))
  /-- MEM_PROBE, R212: A GO write to MEM_PROBE_CTL walks the probe VA without caching and records each level read. -/
  | memProbe (val : Nat)
  /-- PARTIAL_WRITE, R223: A write narrower than 64 bits enters the group's merge buffer entry for its word. -/
  | partialWrite (inst word : Nat) (lanes : Lanes) (who : Option CmdId)
  /-- MERGE_AGE_FLUSH, R224: A merge entry that has aged 32 cycles is flushed. -/
  | mergeAgeFlush (inst group : Nat)
  /-- MERGE_IDLE_FLUSH, R224: An idle cycle of a group flushes its oldest merge entry. -/
  | mergeIdleFlush (inst group : Nat)
  /-- FULL_WORD_WRITE, R226: A full-word write stores fresh check bits and heals a poisoned or erroneous word. -/
  | fullWordWrite (inst word data : Nat)
  /-- SPARE_REMAP, R228: A hard-failing word moves to a spare in the group's next cycle and REMAPPED is raised. -/
  | spareRemap (inst group : Nat)
  /-- SCRUB_VISIT, R230: In an idle cycle the scrubber checks its next word, correcting, poisoning or passing over it. -/
  | scrubVisit (inst group : Nat) (dflips cflips : List (Nat × Nat)) (copies : List Nat)
  /-- SCRUB_LAP_LIMIT_EXPIRY, R232: A lap runs past its class limit and SCRUB_SLOW is raised and the alarm bit set. -/
  | scrubLapLimitExpiry (inst : Nat)
  /-- OCP_INJECT_ARM, R233: A write of MEM_OCP_INJECT with ARM arms one error injection for the next write to a word. -/
  | ocpInjectArm (fn val : Nat)
  /-- OCP_REMAP_LOAD, R229: A Millwright GO write to MEM_OCP_REMAP_LOAD retires a word to a spare. -/
  | ocpRemapLoad (val : Nat)
  /-- PORT_MODE, R238: PORT_MODE changes a port's mode, taking the link down and training in the new mode. -/
  | portMode (id : CmdId)
  /-- PORT_RETRAIN, R238: PORT_MODE with RETRAIN takes the link down and trains it again in the same mode. -/
  | portRetrain (id : CmdId)
  /-- FLIT_SEND, R249: A Flume port sends a DATA or IDLE flit in each slot, carrying control word, ACK, NAK and credits. -/
  | flitSend (p : Nat) (packets : List FlumeOut)
  /-- FLIT_RECEIVE, R254: A received flit is checked and accepted, held, discarded or ends the link under the receiver rules. -/
  | flitReceive (p : Nat) (lanes : List (List Byte))
  /-- NAK_RESEND_TIMEOUT, R255: A number still missing 320 ns after its last NAK is NAK'd again. -/
  | nakResendTimeout (p seq : Nat)
  /-- RETRY_WINDOW_EXPIRY, R257: A retry episode lasting 4 µs ends the link with cause RETRY_WINDOW. -/
  | retryWindowExpiry (p : Nat)
  /-- LOSS_OF_SIGNAL, R260: A lane without signal or lock for 1 µs ends the link. -/
  | lossOfSignal (p : Nat)
  /-- ETH_LINK_FAULT, R261: A PCS remote or local fault ends an Ethernet link with cause LINK_FAULT. -/
  | ethLinkFault (p : Nat)
  /-- TRAINING_PRBS_PASS, R262: Every lane receives PRBS31 error-free for 100 ms and the port moves to parameter exchange. -/
  | trainingPrbsPass (p : Nat)
  /-- TRAINING_TIMEOUT, R262: Training without success for 150 ms fails the attempt and the port goes to HOLD. -/
  | trainingTimeout (p : Nat)
  /-- PARAM_EXCHANGE, R263: Link parameters from the peer are accepted, bringing the link UP, or refused for role, version, loop or quarantine. -/
  | paramExchange (p : Nat) (x : FlumeParams)
  /-- HOLD_EXPIRY, R262: A port's 1 ms HOLD ends and it trains again, or goes FAILED after a third failure in 1 s. -/
  | holdExpiry (p : Nat)
  /-- ETH_LINK_UP, R264: An Ethernet port completes auto-negotiation and training and raises PORT_UP. -/
  | ethLinkUp (p : Nat)
  /-- ETH_FRAME_RECEIVE, R240: An Ethernet frame is received and passed on, or dropped and counted for length, tagging, PAUSE or FCS. -/
  | ethFrameReceive (p : Nat) (x : EthFrame)
  /-- ROCE_PACKET_RECEIVE, R241: A RoCEv2 packet is received, ICRC-checked and served by its QP or dropped. -/
  | rocePacketReceive (r : RoceIn)
  /-- CNP_RECEIVE, R243: A received CNP reduces the QP's send rate. -/
  | cnpReceive (q : Nat)
  /-- CC_PERIOD_EXPIRY, R243: A CC_PERIOD without a CNP raises the QP's send rate. -/
  | ccPeriodExpiry (q : Nat)
  /-- PTP_MESSAGE, R372: A PTP message is timestamped and fed to the boundary clock and servo. -/
  | ptpMessage (p rawStamp : Nat) (fromMaster : Bool)
  /-- QP_CREATE, R282: QP_CREATE creates an RC QP in RESET with its rings, CQs and address mode. -/
  | qpCreate (id : CmdId)
  /-- QP_MODIFY_RESET, R284: QP_MODIFY to RESET empties an ERROR QP's rings and clears its PSN state. -/
  | qpModifyReset (id : CmdId)
  /-- QP_MODIFY_INIT, R284: QP_MODIFY to INIT lets the receive queue accept posts. -/
  | qpModifyInit (id : CmdId)
  /-- QP_MODIFY_RTR, R284: QP_MODIFY to RTR sets the remote end and lets the QP receive and answer. -/
  | qpModifyRtr (id : CmdId)
  /-- QP_MODIFY_RTS, R284: QP_MODIFY to RTS sets timers and PSNs and lets the QP send. -/
  | qpModifyRts (id : CmdId)
  /-- QP_MODIFY_MOVE, R285: QP_MODIFY RTS with MOVE drains the QP and rebinds it to a new port. -/
  | qpModifyMove (id : CmdId)
  /-- QP_MODIFY_DRAIN, R284: QP_MODIFY to DRAIN holds new send entries until sent requests are acknowledged. -/
  | qpModifyDrain (id : CmdId)
  /-- QP_MODIFY_ERROR, R284: QP_MODIFY to ERROR completes outstanding and posted entries ABORTED. -/
  | qpModifyError (id : CmdId)
  /-- QP_DRAIN_END, R285: Every sent request of a draining QP is acknowledged and it resumes or shows DRAINED. -/
  | qpDrainEnd (q : Nat)
  /-- QP_DESTROY, R282: QP_DESTROY ends a QP in any state without completions. -/
  | qpDestroy (id : CmdId)
  /-- SRQ_CREATE, R276: SRQ_CREATE creates a shared receive queue with its CQ and limit. -/
  | srqCreate (id : CmdId)
  /-- SRQ_SET_LIMIT, R276: SRQ_CREATE with k 0 on an existing SRQ sets a new limit. -/
  | srqSetLimit (id : CmdId)
  /-- CQ_CREATE, R274: CQ_CREATE creates an RDMA CQ, or the function's event queue with EVENTQ. -/
  | cqCreate (id : CmdId)
  /-- CQ_DESTROY, R274: CQ_CREATE with k 0 destroys an unbound CQ. -/
  | cqDestroy (id : CmdId)
  /-- MR_REGISTER, R277: MR_REGISTER registers a region and returns its key value. -/
  | mrRegister (id : CmdId)
  /-- MR_DEREGISTER, R277: MR_REGISTER with length 0 deregisters a key once checked packets have ended. -/
  | mrDeregister (id : CmdId)
  /-- WINDOW_BIND, R281: WINDOW_BIND copies a window's entry table into the directory and returns its key. -/
  | windowBind (id : CmdId) (bus : Bus)
  /-- WINDOW_UNBIND, R281: WINDOW_BIND with ENTRIES 0 releases a window's entries. -/
  | windowUnbind (id : CmdId)
  /-- RDMA_SQ_DOORBELL, R270: An RDMA doorbell of kind send queue posts send work. -/
  | rdmaSqDoorbell (fn val : Nat) (bus : Bus)
  /-- RDMA_RQ_DOORBELL, R270: An RDMA doorbell of kind receive queue posts receive entries. -/
  | rdmaRqDoorbell (fn val : Nat) (bus : Bus)
  /-- RDMA_SRQ_DOORBELL, R270: An RDMA doorbell of kind SRQ posts shared receive entries. -/
  | rdmaSrqDoorbell (fn val : Nat) (bus : Bus)
  /-- RDMA_CQ_DOORBELL, R270: An RDMA doorbell of kind CQ releases entries and optionally arms the CQ. -/
  | rdmaCqDoorbell (fn val : Nat)
  /-- WR_SEND, R271: A SEND work request is fetched, translated and sent. -/
  | wrSend (q : Nat) (bus : Bus)
  /-- WR_SEND_IMM, R271: A SEND with immediate work request is fetched, translated and sent. -/
  | wrSendImm (q : Nat) (bus : Bus)
  /-- WR_WRITE, R271: An RDMA WRITE work request is fetched, translated and sent with its remote address. -/
  | wrWrite (q : Nat) (bus : Bus)
  /-- WR_WRITE_IMM, R271: An RDMA WRITE with immediate work request is fetched, translated and sent. -/
  | wrWriteImm (q : Nat) (bus : Bus)
  /-- WR_READ, R271: An RDMA READ work request is fetched, translated and sent within MAX_RD. -/
  | wrRead (q : Nat) (bus : Bus)
  /-- WR_RECV, R272: A RECV entry is fetched into the receive queue and its buffer translated. -/
  | wrRecv (srq : Bool) (n : Nat)
  /-- INBOUND_KEY_REQUEST, R278: An inbound key-mode request is checked against its key and translated per packet. -/
  | inboundKeyRequest (via : Via) (psn : Nat) (write : Bool) (va key len : Nat) (data : List Byte) (imm : Option Nat) (bus : Bus)
  /-- ACK_RECEIVE, R286: An ACK or response completes acknowledged work requests and writes their completions. -/
  | ackReceive (via : Via) (psn : Nat) (a : Ack)
  /-- STATUS_NAK_RECEIVE, R280: A status NAK from a granary completes one entry with its status and leaves the QP in RTS. -/
  | statusNakReceive (via : Via) (psn code detail : Nat)
  /-- LOCAL_ACK_TIMEOUT, R242: A QP's local ACK timer expires and the request is retried, or completes TIMEOUT after the retry count. -/
  | localAckTimeout (q : Nat)
  /-- RNR_TIMER_EXPIRY, R286: An RNR timer expires and the send is retried, or completes TIMEOUT after the RNR count. -/
  | rnrTimerExpiry (q : Nat)
  /-- CARVE_CREATE, R296: CARVE_CREATE creates a carve with quota, maximum lease and members. -/
  | carveCreate (id : CmdId)
  /-- CARVE_UPDATE, R296: CARVE_CREATE with UPDATE changes an existing carve's quota, lease and members. -/
  | carveUpdate (id : CmdId)
  /-- CARVE_DELETE, R296: CARVE_CREATE with quota 0 deletes a carve that holds no bins. -/
  | carveDelete (id : CmdId)
  /-- BIN_ALLOC, R298: BIN_ALLOC allocates a zeroed bin in a pair and returns its handle with a new generation. -/
  | binAlloc (id : CmdId)
  /-- BIN_FREE, R300: BIN_FREE makes a CLEAR bin FREEING for zero fill, or refuses it by tally state. -/
  | binFree (id : CmdId)
  /-- BIN_ZERO_FILL_END, R300: A FREEING bin's zero fill ends and its entry becomes FREE. -/
  | binZeroFillEnd (bin : Nat)
  /-- BIN_MAP, R301: BIN_MAP grants a member a leased map of a bin and counts a map in. -/
  | binMap (id : CmdId)
  /-- BIN_UNMAP, R303: BIN_UNMAP ends a member's live map, completing after its admitted operations drain. -/
  | binUnmap (id : CmdId)
  /-- LEASE_RENEW, R303: LEASE_RENEW extends a live map's expiry. -/
  | leaseRenew (id : CmdId)
  /-- LEASE_EXPIRY, R302: The granary's counter reaches a map's expiry E and the map admits nothing more. -/
  | leaseExpiry (bin member : Nat)
  /-- MAP_DRAIN_END, R302: Every operation a closing map admitted has passed the exit head and the map ends. -/
  | mapDrainEnd (bin member : Nat)
  /-- MIRROR_ENABLE, R308: MIRROR_SET with ENABLE allocates a partner copy and starts its resilver. -/
  | mirrorEnable (id : CmdId) (index : Option Nat)
  /-- MIRROR_DISABLE, R308: MIRROR_SET without ENABLE ends mirroring and frees the partner copy. -/
  | mirrorDisable (id : CmdId)
  /-- INBOUND_GRANARY_REQUEST, R305: A handle- or window-mode operation is judged at its first packet and admitted or refused with a status NAK. -/
  | inboundGranaryRequest (r : GReq)
  /-- MIRROR_WRITE_ARRIVAL, R310: A forwarded mirror write arrives at the standby and is written in forward order. -/
  | mirrorWriteArrival (handle off : Nat) (data : List Byte) (poison chunk last : Bool)
  /-- MIRROR_ACK, R310: The standby's acknowledgement lets the serving granary acknowledge the requester. -/
  | mirrorAck (token : Nat)
  /-- RESILVER_CHUNK, R311: The next 1 MiB resilver chunk is read and sent over VC3 within RESILVER_RATE. -/
  | resilverChunk (bin : Nat)
  /-- RESILVER_CHUNK_ACK, R311: A resilver chunk is acknowledged, releasing waiting writes, or the last one makes the copy IN_SYNC. -/
  | resilverChunkAck (bin : Nat)
  /-- PROMOTE_COPIES, R313: A partner promotes its IN_SYNC copies of a lost or reset home to SERVING and announces the home. -/
  | promoteCopies (home : Nat)
  /-- ANNOUNCE_RECEIVE, R368: An ANNOUNCE sets or clears failover entries and silences a granary for its own home. -/
  | announceReceive (h : MsgHead) (role : Nat) (homes : List Nat)
  /-- NOTICE_RECEIVE, R304: A granary NOTICE updates a mill's map record or copies map changes to the standby. -/
  | noticeReceive (h : MsgHead) (code a b c d : Nat)
  /-- MAP_RECORD_EXPIRY, R304: A mill's map record passes its local expiry and is removed. -/
  | mapRecordExpiry (handle fn : Nat)
  /-- HOME_CLAIM_WAIT_EXPIRY, R316: A cold-booted granary UP with every other granary for 10 ms may announce and serve its home when no promoted copy remains. -/
  | homeClaimWaitExpiry
  /-- HOME_HANDBACK, R316: When every promoted copy is IN_SYNC or freed the partner holds new operations for the home. -/
  | homeHandback (home : Nat)
  /-- HANDBACK_DRAIN_END, R316: Admitted operations for the home drain; roles swap, ANNOUNCE is sent and HOME_RETURNED is raised. -/
  | handbackDrainEnd
  /-- NMW_TAIL_WRITE, R317: A write of GRN_NMW_TAIL makes near-memory ring entries available for placement. -/
  | nmwTailWrite (val : Nat) (bus : Bus)
  /-- TALLY_QUERY, R337: TALLY_QUERY returns a bin record's state, epoch and open counts. -/
  | tallyQuery (id : CmdId)
  /-- TALLY_PREP_RESET, R334: TALLY_PREP_RESET on a quiet DISTURBED record advances the epoch, zeroes counts, ends maps and queues a sweep. -/
  | tallyPrepReset (id : CmdId)
  /-- TALLY_CONFIRM, R336: TALLY_CONFIRM within the window from a different authority makes a swept record CLEAR. -/
  | tallyConfirm (id : CmdId)
  /-- OPERATION_EXIT, R326: An operation leaves the exit head, returns its token and is counted, or is found a reversed passage. -/
  | operationExit (bin : Nat) (token : Option Nat) (code : Nat) (relay : Option (List Byte))
  /-- TOKEN_FREE_ADMIT, R325: A token returns to a full table and an operation held at its port is admitted. -/
  | tokenFreeAdmit
  /-- TALLY_BACKGROUND_SCAN, R327: The background scan compares both channels of a record and disturbs it on disagreement or parity error. -/
  | tallyBackgroundScan (bin : Nat) (parityA parityB disagree : Bool) (lap : Option Nat)
  /-- SWEEP_QUEUE, R334: The sweep item of a prepared record is queued for placement within 1 ms. -/
  | sweepQueue (bin : Nat)
  /-- SWEEP_TOKEN_PASS, R335: After the fill the sweep token passes both heads; a clean pass sets SWEPT and opens the 60 s window. -/
  | sweepTokenPass (bin : Nat)
  /-- CONFIRM_WINDOW_EXPIRY, R336: The confirmation window ends without an accepted confirmation and the record is DISTURBED with CAUSE 8. -/
  | confirmWindowExpiry (bin : Nat)
  /-- CHK_CLAIM, R342: CHK_CLAIM claims a named or the lowest free check engine for the function. -/
  | chkClaim (id : CmdId)
  /-- CHK_CONFIG, R345: CHK_CONFIG sets an engine's mode, fold and alive counter for later runs. -/
  | chkConfig (id : CmdId)
  /-- CHK_RUN, R350: CHK_RUN translates a payload and queues a check job on the engine. -/
  | chkRun (id : CmdId)
  /-- CHK_RELEASE, R343: CHK_RELEASE frees an engine after its running job, aborting queued host jobs. -/
  | chkRelease (id : CmdId)
  /-- CHK_JOB_END, R351: A check job ends, its result is compared and completed, and the engine takes its next job. -/
  | chkJobEnd (engine : Nat) (bus : Bus)
  /-- DOMAIN_JOIN, R358: DOMAIN_JOIN verifies a signed member table and makes it the membership record and admin key. -/
  | domainJoin (id : CmdId) (bus : Bus)
  /-- DOMAIN_LEAVE, R360: DOMAIN_LEAVE sends LEAVE, stops heartbeats and errors QPs to members, optionally forgetting the join. -/
  | domainLeave (id : CmdId)
  /-- DOMAIN_STATUS, R384: DOMAIN_STATUS returns the domain status and writes the per-member record. -/
  | domainStatus (id : CmdId)
  /-- SLEEP_VOTE_OBJECT, R381: SLEEP_VOTE OBJECT places the function's standing objection to a granary's sleep. -/
  | sleepVoteObject (id : CmdId)
  /-- SLEEP_VOTE_WITHDRAW, R381: SLEEP_VOTE WITHDRAW removes the function's objection. -/
  | sleepVoteWithdraw (id : CmdId)
  /-- SLEEP_VOTE_WAKE, R381: SLEEP_VOTE WAKE sends a wake to a granary or wakes the local granary. -/
  | sleepVoteWake (id : CmdId)
  /-- HEARTBEAT_SEND, R365: Every 1 ms a joined member sends a HEARTBEAT to every member over every path. -/
  | heartbeatSend
  /-- HEARTBEAT_RECEIVE, R366: A received heartbeat updates the sender's liveness state, time offset and disagreement judgement. -/
  | heartbeatReceive (h : MsgHead) (b : HbBody)
  /-- PEER_SUSPECT_TIMEOUT, R366: 25 ms without a heartbeat makes a member SUSPECT and sends SUSPECT to members UP. -/
  | peerSuspectTimeout (m : Nat)
  /-- PEER_LOST_TIMEOUT, R367: 50 ms without a heartbeat with a witness declares a member LOST. -/
  | peerLostTimeout (m : Nat)
  /-- SUSPECT_RECEIVE, R366: A SUSPECT message is recorded as a witness against the named member. -/
  | suspectReceive (h : MsgHead) (member : Nat)
  /-- LEAVE_RECEIVE, R366: A LEAVE message moves the sender to LEFT, or LOST for a forced granary. -/
  | leaveReceive (h : MsgHead) (force : Bool)
  /-- COMMAND_RECEIVE, R363: A COMMAND message is executed at the target under every check, answered from its retained set if repeated. -/
  | commandReceive (h : MsgHead) (fn : Nat) (pkt : List Word) (env : Option Envelope) (data : List Byte) (part : Option (Nat × Nat × Nat))
  /-- REPLY_RECEIVE, R363: A REPLY message's completion is written to the forward SQ's CQ. -/
  | replyReceive (h : MsgHead) (fn tag status result result2 : Nat) (retained : Bool)
  /-- FORWARD_TIMEOUT, R363: A forwarded command without a REPLY in 100 ms completes with TIMEOUT. -/
  | forwardTimeout (id : CmdId)
  /-- REASSEMBLY_TIMEOUT, R362: A message reassembly not complete 10 ms after its first fragment is discarded and counted. -/
  | reassemblyTimeout (src : Source) (seq : Nat)
  /-- DUPLICATE_CLEAR_TIMEOUT, R370: 50 ms without a heartbeat bearing its own ID ends a device's self-quarantine. -/
  | duplicateClearTimeout
  /-- NO_MASTER_TIMEOUT, R374: 1 s without a PTP master makes the device time-suspect. -/
  | noMasterTimeout
  /-- HOLDOVER_SUSPECT_TIMEOUT, R374: 10 s in time holdover makes the device time-suspect. -/
  | holdoverSuspectTimeout
  /-- SLEEP_QUIET_EXPIRY, R377: A granary quiet for SLEEP_QUIET sends SLEEP_PROPOSE to its voters. -/
  | sleepQuietExpiry
  /-- SLEEP_PROPOSE_RECEIVE, R378: A voter's Millwright answers a proposal YES or NO within 10 ms. -/
  | sleepProposeReceive (h : MsgHead) (n : Nat)
  /-- SLEEP_VOTE_MESSAGE, R378: A vote reaches the granary; a NO ends the proposal, the last YES makes it AGREED. -/
  | sleepVoteMessage (h : MsgHead) (n value : Nat)
  /-- SLEEP_VOTE_TIMEOUT, R378: A voter silent for 10 ms ends the proposal. -/
  | sleepVoteTimeout
  /-- SLEEP_AGREED_RECEIVE, R378: A voter records the agreed sleep and its COMMIT time. -/
  | sleepAgreedReceive (h : MsgHead) (n commit : Nat)
  /-- SLEEP_ABORT_RECEIVE, R379: A voter records that the agreed sleep was aborted. -/
  | sleepAbortReceive (h : MsgHead) (n : Nat)
  /-- SLEEP_AWAKE_RECEIVE, R380: A voter records that the granary has left sleep. -/
  | sleepAwakeReceive (h : MsgHead)
  /-- SLEEP_COMMIT, R379: The COMMIT time arrives; the domain agent withdraws its DDR vote and sleep entry begins. -/
  | sleepCommit
  /-- SLEEP_ENTRY_END, R380: The DDR complex is in RETAIN and unvoted floors OFF; entry ends and exit begins if woken. -/
  | sleepEntryEnd
  /-- SLEEP_EXIT_END, R380: The DDR complex is ACTIVE again; held accesses are admitted and SLEEP_AWAKE is sent. -/
  | sleepExitEnd
  /-- POWER_VOTE_PLACE, R392: POWER_VOTE PLACE holds a floor or the DDR complex up and completes when it is ACTIVE. -/
  | powerVotePlace (id : CmdId)
  /-- POWER_VOTE_WITHDRAW, R392: POWER_VOTE WITHDRAW clears the function's vote bit. -/
  | powerVoteWithdraw (id : CmdId)
  /-- POWER_QUERY, R412: POWER_QUERY returns a domain's level and votes or the device state and wake source. -/
  | powerQuery (id : CmdId)
  /-- POWER_STATE_RUN, R397: POWER_STATE RUN makes RUN the target, waking the device from SLEEP. -/
  | powerStateRun (id : CmdId)
  /-- POWER_STATE_SLEEP, R400: POWER_STATE SLEEP begins entry to SLEEP when no refusing condition holds. -/
  | powerStateSleep (id : CmdId)
  /-- POWER_STATE_DEEP_SLEEP, R400: POWER_STATE DEEP_SLEEP begins entry to DEEP_SLEEP, arming the wake timer. -/
  | powerStateDeepSleep (id : CmdId)
  /-- POWER_STATE_OFF, R400: POWER_STATE OFF begins entry to OFF, arming the wake timer. -/
  | powerStateOff (id : CmdId)
  /-- POWER_ENTRY_FETCH_STOP, R400: 1 ms after acceptance the control plane stops fetching and sends the power notice. -/
  | powerEntryFetchStop
  /-- MW_WFI, R399: Both Millwright cores execute WFI and enter the low-power mode in MWR_PWRMODE. -/
  | mwWfi
  /-- POWER_ENTRY_MW_TIMEOUT, R400: The Millwright not in mode-2 WFI 100 ms after the notice abandons entry. -/
  | powerEntryMwTimeout
  /-- POWER_ENTRY_END, R400: Memories enter self-refresh, ports go off, the Wheelhouse retains and rails are removed as the target requires. -/
  | powerEntryEnd
  /-- IDLE_ENTER, R388: With no running, ready or executing work the device enters IDLE. -/
  | idleEnter
  /-- VOTE_IDLE_HOLD_EXPIRY, R391: A domain's last vote stays clear for its idle hold and the floor drops to OFF or the DDR complex to RETAIN. -/
  | voteIdleHoldExpiry (d : Nat)
  /-- PREWAKE_HOLD_EXPIRY, R390: PREWAKE_HOLD passes and the prewake vote clears. -/
  | prewakeHoldExpiry (d : Nat)
  /-- DOMAIN_WAKE_DONE, R393: An on-demand wake completes and the stalled first use proceeds. -/
  | domainWakeDone (d : Nat)
  /-- WAKE_N_EDGE, R402: A filtered WAKE_N falling edge wakes the device or restarts a failed wake. -/
  | wakeNEdge
  /-- AO_WAKE_TIMER_EXPIRY, R402: The AO wake timer expires and wakes the device. -/
  | aoWakeTimerExpiry
  /-- USB_ATTACH, R402: A USB attach or resume wakes the device. -/
  | usbAttach
  /-- I3C_IBI_WAKE, R402: An I3C in-band interrupt wakes the device. -/
  | i3cIbiWake
  /-- PGOOD_TIMEOUT, R404: No PGOOD 2 ms after a rail enable fails the attempt, retrying once before WAKE_FAILED. -/
  | pgoodTimeout
  /-- XTAL_MW_TIMEOUT, R404: XTAL_MW not ready 5 ms after start fails the wake attempt. -/
  | xtalMwTimeout
  /-- PLL_LOCK_TIMEOUT, R404: No PLL lock 200 µs after PGOOD fails the wake attempt. -/
  | pllLockTimeout
  /-- WAKE_RETRY_DELAY_END, R404: The 10 ms pause after a first failure ends and the attempt is repeated. -/
  | wakeRetryDelayEnd
  /-- RAIL_PG_RISE, R498: A RAIL_PG rises and the sequencer asserts the next enable 100 µs later or starts XTAL_MW. -/
  | railPgRise (n : Nat) (steward : Bool)
  /-- RAIL_PG_FALL, R499: A RAIL_PG low for 1 ms with its enable asserted removes every rail and enters WAKE_FAILED. -/
  | railPgFall (n : Nat)
  /-- AO_BROWNOUT, R406: The AO regulator output falls and the brown-out detector starts a cold reset with cause 0x02. -/
  | aoBrownout
  /-- VDD_AO_IN_LOW, R500: VDD_AO_IN below 1.55 V resets the AO domain and drops every rail enable. -/
  | vddAoInLow
  /-- XTAL_AO_SWITCH, R504: The AO domain switches from its RC oscillator to the stable XTAL_AO without a glitch. -/
  | xtalAoSwitch
  /-- THERMAL_THROTTLE, R408: The sensor reaches the throttle threshold and the stone clock is forced to 1.80 GHz. -/
  | thermalThrottle
  /-- THERMAL_THROTTLE_CLEAR, R408: The sensor reads 5 °C below threshold and the forced nominal clock ends. -/
  | thermalThrottleClear
  /-- THERMAL_ALERT, R506: The sensor reaches the alert threshold and THERM_ALERT_N falls. -/
  | thermalAlert
  /-- THERMAL_ALERT_CLEAR, R506: The sensor reads 10 °C below the alert threshold and THERM_ALERT_N returns high. -/
  | thermalAlertClear
  /-- FW_STAGE, R423: FW_UPDATE STAGE programs and reads back the next chunk of the staging session. -/
  | fwStage (id : CmdId)
  /-- FW_COMMIT, R424: FW_UPDATE COMMIT judges the staged image and writes a pointer record naming it, restarting with ACTIVATE. -/
  | fwCommit (id : CmdId)
  /-- FW_COMMIT_GOLDEN, R424: FW_UPDATE COMMIT with GOLDEN starts copying the staged image into golden slot 0. -/
  | fwCommitGolden (id : CmdId)
  /-- GOLDEN_COPY_END, R424: The golden copy ends, is judged and the golden flash is write-protected again. -/
  | goldenCopyEnd (ok : Bool)
  /-- FW_ABANDON, R423: FW_UPDATE ABANDON ends the staging session. -/
  | fwAbandon (id : CmdId)
  /-- BUDGET_WRITE, R425: BUDGET_WRITE authorises and programs one slot of a budgeted setting. -/
  | budgetWrite (id : CmdId) (verified : Bool)
  /-- BUDGET_QUERY, R428: BUDGET_QUERY returns values and slots left and optionally writes the attempt log. -/
  | budgetQuery (id : CmdId)
  /-- SENSOR_READ, R433: MW_MAILBOX SENSOR_READ returns one sensor's value and unit. -/
  | sensorRead (id : CmdId) (reading : Int)
  /-- TRAY_STATUS, R433: MW_MAILBOX TRAY_STATUS returns a tray position's state. -/
  | trayStatus (id : CmdId)
  /-- TRAY_VERIFY, R433: MW_MAILBOX TRAY_VERIFY verifies a tray position at once. -/
  | trayVerify (id : CmdId)
  /-- GRANT_POLICY, R433: MW_MAILBOX GRANT_POLICY allows or stops headroom grants. -/
  | grantPolicy (id : CmdId)
  /-- BRAKE_STATUS, R471: MW_MAILBOX BRAKE_STATUS returns BRK_STATUS and the last trip. -/
  | brakeStatus (id : CmdId)
  /-- BRAKE_PENDING, R449: MW_MAILBOX BRAKE_PENDING writes a pending brake configuration register. -/
  | brakePending (id : CmdId)
  /-- VALVE_SET, R467: MW_MAILBOX VALVE_SET requests a valve on or off under the pull-in arbitration. -/
  | valveSet (id : CmdId)
  /-- VALVE_QUERY, R471: MW_MAILBOX VALVE_QUERY returns BRK_VALVE. -/
  | valveQuery (id : CmdId)
  /-- VALVE_CONFIG, R466: MW_MAILBOX VALVE_CONFIG writes valve groups, hold duty and pull-in limit. -/
  | valveConfig (id : CmdId)
  /-- SLOT_SET_ENABLE, R470: SLOT_SET with ENABLE powers a healthy position's slot, completing when it is ON. -/
  | slotSetEnable (id : CmdId)
  /-- SLOT_SET_DISABLE, R470: SLOT_SET without ENABLE drives SLOT_EN low and waits for PG to fall. -/
  | slotSetDisable (id : CmdId)
  /-- SLOT_QUERY, R471: MW_MAILBOX SLOT_QUERY returns BRK_SLOT. -/
  | slotQuery (id : CmdId)
  /-- SLOT_SELF, R471: MW_MAILBOX SLOT_SELF records the steward's own position. -/
  | slotSelf (id : CmdId)
  /-- POSITION_PRESENT_CONFIRM, R438: SLOT_PRSNT_N low for 100 ms makes an absent position UNVERIFIED. -/
  | positionPresentConfirm (n : Nat)
  /-- POSITION_VERIFY, R437: The steward takes an unverified position's flashes and judges both images. -/
  | positionVerify (n : Nat) (released recovery : Bool) (svn : Option Nat)
  /-- VERIFY_END, R437: Verification ends; the position becomes HEALTHY or a re-flash starts, or it gives up. -/
  | verifyEnd (n : Nat) (f : Option Flashes)
  /-- REFLASH_END, R437: A re-flash ends and the position is verified again. -/
  | reflashEnd (n : Nat) (okP okG : Option Bool)
  /-- REFLASH_WINDOW_EXPIRY, R439: The oldest logged re-flash attempt ages past 3,600 s and a GIVEN_UP position becomes UNVERIFIED. -/
  | reflashWindowExpiry (n : Nat)
  /-- SIDEBAND_RELEASE, R440: A sideband RELEASE write makes the device float SPI_MW_* and hold flash writes. -/
  | sidebandRelease
  /-- SIDEBAND_RESUME, R440: A sideband RESUME write returns the device's own flash access. -/
  | sidebandResume
  /-- RELEASE_TIMEOUT, R436: 60 s after RELEASE without RESUME the device takes its flashes back. -/
  | releaseTimeout
  /-- SIDEBAND_STATUS_READ, R440: A sideband 16-byte read returns the device's status block. -/
  | sidebandStatusRead
  /-- USB_SUBMIT, R442: A SUBMIT control transfer's data stage completes and its command is checked and run. -/
  | usbSubmit (tag : Nat) (pkt : List Word) (input : List Byte)
  /-- USB_FETCH, R441: A FETCH control transfer returns a command's state, completion and output. -/
  | usbFetch (tag m : Nat)
  /-- USB_BUS_RESET, R442: A USB bus reset discards incomplete submits and keeps unreleased completions as retained records. -/
  | usbBusReset
  /-- USB_ENABLE_WRITE, R443: A write of MWR_USB_CFG ENABLE turns the USB port on or off. -/
  | usbEnableWrite (val : Nat)
  /-- LEAK_SAMPLE, R451: A leak channel completes a sample period, classes it and updates its wet and dry counts and state. -/
  | leakSample (ch pos neg : Nat) (rb : Bool)
  /-- SETTLE_WINDOW_END, R453: The 100 ms settle window ends, undecided channels count WET and class 0 may release the brake. -/
  | settleWindowEnd
  /-- BLANK_IN_RISE, R454: BLANK_IN rising opens a blanking interval over its channels unless a guard is running. -/
  | blankInRise
  /-- BLANK_IN_FALL, R454: BLANK_IN falling ends the interval when no other source is active and starts the guard. -/
  | blankInFall
  /-- BLANK_CAP_EXPIRY, R454: A blanking interval reaches 49.99 ms, is cut off and raises BLANK_CAPPED. -/
  | blankCapExpiry
  /-- BLANK_GUARD_END, R455: The 10 ms guard ends and a still-active source opens a new interval. -/
  | blankGuardEnd
  /-- INTERLOCK_CONTACT_CHANGE, R457: A filtered interlock contact change moves the interlock's state. -/
  | interlockContactChange (ilk : Nat) (second closed : Bool)
  /-- DISCREPANCY_TIMEOUT, R457: DISC_MS passes with contacts disagreeing and the interlock enters FAULT. -/
  | discrepancyTimeout (ilk : Nat)
  /-- OUTPUT_CHECK_FAULT, R460: A brake output differing from its drive for 33 ticks trips with OUTPUT_FAULT. -/
  | outputCheckFault (pins : Nat)
  /-- CONFIG_PARITY_ERROR, R449: A parity error in the active brake set trips with CONFIG and restores the defaults. -/
  | configParityError
  /-- HOLD_SUPPLY_LOSS, R458: VDD_IO below threshold for 1 ms trips the brake with HOLD_SUPPLY. -/
  | holdSupplyLoss (lost : Bool)
  /-- BRAKE_RST_FALL, R462: A filtered fall of BRAKE_RST_N begins a hold. -/
  | brakeRstFall
  /-- BRAKE_RST_RISE, R463: An accepted hold's rise installs the pending set, clears lock-out and inhibit and releases the brake. -/
  | brakeRstRise
  /-- BRAKE_RST_STUCK, R462: A hold lasting past 2 s sets RST_STUCK. -/
  | brakeRstStuck
  /-- VALVE_PULLIN_END, R467: A valve's 80.02 ms pull-in ends, it moves to HOLD PWM and deferred valves may start. -/
  | valvePullinEnd (n : Nat)
  /-- VALVE_DEFER_TIMEOUT, R467: A valve deferred for 200 ms returns to OFF and its request fails with BUSY_RETRY. -/
  | valveDeferTimeout (n : Nat)
  /-- HS_FAULT, R468: HS_FAULT_N low for 33 ticks puts every valve of its group in FAULT. -/
  | hsFault (g : Nat)
  /-- SLOT_PG_RISE, R469: SLOT_PG rises in POWERING and the slot is ON. -/
  | slotPgRise (n : Nat)
  /-- SLOT_PG_FALL, R470: SLOT_PG falls after disable and the disabling SLOT_SET completes. -/
  | slotPgFall (n : Nat)
  /-- SLOT_POWERING_TIMEOUT, R469: No SLOT_PG within 100 ms in POWERING drives SLOT_EN low and the slot is FAULT. -/
  | slotPoweringTimeout (n : Nat)
  /-- SLOT_DISABLE_TIMEOUT, R470: SLOT_PG still high 100 ms after disable completes SLOT_SET with TIMEOUT. -/
  | slotDisableTimeout (n : Nat)
  /-- SLOT_PG_LOSS, R469: SLOT_PG low for 33 ticks in ON drives SLOT_EN low and the slot is FAULT. -/
  | slotPgLoss (n : Nat)
  /-- SLOT_PRSNT_LOSS, R469: SLOT_PRSNT_N high for 33 ticks drives SLOT_EN low and the position is ABSENT. -/
  | slotPrsntLoss (n : Nat)
  /-- MON_CONFIG, R482: MON_CONFIG enables or frees a monitor with source, scale, bounds and filters. -/
  | monConfig (id : CmdId) (bus : Bus)
  /-- MON_SNAPSHOT, R483: MON_SNAPSHOT captures named monitors at one instant and optionally clears them. -/
  | monSnapshot (id : CmdId)
  /-- MON_CLEAR, R484: MON_CLEAR returns named monitors to first-use values at one instant. -/
  | monClear (id : CmdId)
  /-- MONITOR_PERIOD_EXPIRY, R476: A SUPPLY monitor's PERIOD passes and one sensor reading is taken as a sample. -/
  | monitorPeriodExpiry (m reading : Nat)
  /-- XTAL_MW_READY, R498: The management oscillator started at RAIL_PG_7 becomes ready and the sequencer goes on to wait for PLL lock. -/
  | xtalMwReady
  /-- PLL_LOCK, R404: The PLLs lock after PGOOD, letting the wake or cold bring-up continue and starting the 100 ms PCIe configuration bound. -/
  | pllLock
  /-- INTERLOCK_FAULT_CLEAR, R457: An interlock in FAULT whose contacts have both been in the healthy position for DISC_MS returns to HEALTHY. -/
  | interlockFaultClear (ilk : Nat)
  /-- HS_FAULT_CLEAR, R467: A group's HS_FAULT_N returning high makes a valve start allowed again, so a deferred valve of the group may pull in. -/
  | hsFaultClear (g : Nat)
  /-- SIDEBAND_IN_BAND_INTERRUPT, R438: The steward receives a position's I3C in-band interrupt reporting BOOT_FALLBACK or recovery and moves a HEALTHY position to UNVERIFIED. -/
  | sidebandInBandInterrupt (n : Nat) (recovery : Bool)
  /-- BUNDLE_ISSUE, R154: A bed decodes and issues a bundle, executing its scalar and vector operations, propagating poison and faulting the gang on an illegal bundle. -/
  | bundleIssue (item stone index : Nat) (fx : BundleFx)
  deriving DecidableEq, Repr

end Sys2Proof
end

