-- ==== Sys2Proof/Decode.lean ====
section
/-! DEFINITION. The command a word spells. The table gives no row any bits: every command reaches the block as an
event of its surroundings, so no word spells one. -/

namespace Sys2Proof

/-- The command an instruction word spells: none, since no row of the table has bits. -/
def decodeTableWord (_nbits _w : Nat) : Option Instr := none

end Sys2Proof
end

