-- ==== Sys2Proof/Machine/Types/Core.lean ====
section
/-! DEFINITION. State of the reset and role logic, the mailbox, the host command processor (00, 01, 02). -/

namespace Sys2Proof.Machine

/-- The roles, coded as ROLE_STAT[1:0] (R7). -/
inductive Role where
  /-- 0b00: budget read or role-change fill in progress. -/
  | none
  /-- 0b01. -/
  | mill
  /-- 0b10. -/
  | granary
  /-- 0b11: no valid role slot. -/
  | invalid
  deriving DecidableEq, Repr

/-- One entry of the reset-cause record (R44). -/
structure CauseRec where
  /-- Cause code. -/
  code : Nat
  /-- Domain time, or the AO tick count. -/
  time : Nat
  /-- Set when time is an AO tick count. -/
  ticks : Bool
  deriving DecidableEq, Repr

/-- The reset sequencer, the clocks and the role (R7, R19, R35, R43, R44). -/
structure Core where
  /-- The model clock: ns since VDD_AO_IN rose (log entry 1). -/
  t : Nat := 0
  /-- Domain time counter, 64 bits (R19). -/
  time : Nat := 0
  /-- The domain time counter has been set by the servo (R44). -/
  timeValid : Bool := false
  /-- Time-holdover flag (R43). -/
  holdover : Bool := false
  /-- The rate last set by the time servo, in ns of domain time per 10^9 ns beside the nominal rate (R43; log entry 99). -/
  rate : Int := 0
  /-- What the counter's rate has gathered of its next ns, in 10^-9 ns. -/
  frac : Int := 0
  /-- The role read from the budget at cold reset (R1). -/
  role : Role := .none
  /-- ROLE_STAT[1:0] latch (R34). -/
  roleStat : Role := .none
  /-- The role-change fill of R6 runs. -/
  fill : Bool := false
  /-- Member ID in force, read at cold reset (R427). -/
  member : Option Nat := Option.none
  /-- The control plane is held in reset. -/
  ctlReset : Bool := false
  /-- The data plane is held in reset. -/
  datReset : Bool := false
  /-- That reset follows a data-plane fatal error. -/
  datFatal : Bool := false
  /-- Reset-cause record, oldest first, at most 16 (R44). -/
  causes : List CauseRec := []
  deriving DecidableEq, Repr

/-- The opcodes of the catalogue (R81). -/
inductive Opc where
  | nop | identify | getLog | setFeature | getFeature | abort
  | raceOpen | raceClose | raceAnchor | playoutReport | cogSet | cogClear | raceQuery
  | imageLoad | imageUnload | imageQuery | chainBind
  | turnBegin | sailRaise | sailSet | sailFurl | turnEnd
  | map | unmap | xlateInvalidate | copy | stoneFence | stoneReinstate
  | qpCreate | qpModify | qpDestroy | srqCreate | cqCreate | mrRegister | windowBind | portMode
  | carveCreate | binAlloc | binFree | binMap | binUnmap | leaseRenew
  | tallyQuery | tallyPrepReset | tallyConfirm | mirrorSet
  | chkClaim | chkConfig | chkRun | chkRelease
  | domainJoin | domainLeave | domainStatus | sleepVote
  | powerVote | powerQuery | powerState
  | mwMailbox | fwUpdate | budgetWrite | budgetQuery
  | monConfig | monSnapshot | monClear
  deriving DecidableEq, Repr

/-- The status codes (R82). -/
inductive Status where
  | success | invalidOpcode | invalidField | noResource | notPermitted | busyRetry | aborted | furled
  | poisoned | linkDown | peerQuarantined | binDisturbed | leaseExpired | budgetExhausted | versionMismatch
  | timeout | sleepInProgress | integrity | staleHandle | xlateFault | internal
  deriving DecidableEq, Repr

/-- Where a fetched command is (R62, R64, R67, R74). -/
inductive Phase where
  /-- It has passed checks 1 to 5 of R48 and its own row may run it. -/
  | ready
  /-- It waits for its FENCE (R62). -/
  | fenced
  /-- It waits under STALL, since an instant (R64). -/
  | stalled
  /-- It is in CTL_TO_MW (R74). -/
  | mailbox
  /-- The Millwright has posted its completion on MW_TO_CTL. -/
  | mwDone
  /-- It was sent to another member at an instant (R363). -/
  | forwarded (at_ : Nat)
  /-- It is accepted and runs to its end (R67). -/
  | waiting
  /-- A WAIT read of the event ring, with the instant its time limit passes (R488). -/
  | waitRead (limit : Option Nat)
  deriving DecidableEq, Repr

/-- A command in the device. -/
structure Cmd where
  /-- Submitter and tag. -/
  id : CmdId
  /-- The opcode, once check 1 of R48 has passed. -/
  op : Opc
  /-- The 16 dwords (R46). -/
  pkt : List Word
  /-- Global SQ of a PCIe command. -/
  sq : Nat := 0
  /-- The envelope of a DOMAIN_ADMIN command (R51). -/
  env : Option Envelope := none
  /-- Where it is. -/
  phase : Phase := .ready
  /-- The instant it first waited under STALL (R64). -/
  stallAt : Option Nat := none
  /-- Executed through CTL_TO_MW; its completion goes by MW_TO_CTL (R431). -/
  viaMw : Bool := false
  /-- The queues it came by no longer exist (R67). -/
  orphan : Bool := false
  /-- Its submitter has been answered; what it still completes with goes nowhere (R39, R37). -/
  detached : Bool := false
  /-- Input data of a USB SUBMIT, or data that came with a domain message (R441, R361). -/
  input : List Byte := []
  deriving DecidableEq, Repr

/-- A completion without its PHASE, SQ_HEAD and SQ_ID (R53). -/
structure Completion where
  /-- TAG. -/
  tag : Nat
  /-- STATUS. -/
  status : Status
  /-- RESULT. -/
  result : Nat := 0
  /-- RESULT2. -/
  result2 : Nat := 0
  /-- RETAINED. -/
  retained : Bool := false
  deriving DecidableEq, Repr

/-- A retained record (R67, R79). -/
structure RetRec where
  /-- The completion. -/
  k : Completion
  /-- SQ_HEAD as it would have been written. -/
  sqHead : Nat
  /-- SQ_ID. -/
  sqId : Nat
  /-- Opcode byte. -/
  opcode : Nat
  /-- Carrier: 0 PCIe, 1 USB. -/
  carrier : Nat
  /-- CONTEXT. -/
  context : Nat
  /-- Domain time or AO ticks. -/
  time : Nat
  /-- The sending function, for a domain member's set (R364). -/
  fn : Nat := 0
  deriving DecidableEq, Repr

/-- A retained set (R68). -/
structure RetSet where
  /-- The records, oldest first, at most 64. -/
  recs : List RetRec := []
  /-- Records dropped, saturating at 16 bits. -/
  dropped : Nat := 0
  deriving DecidableEq, Repr

/-- The state of a queue, as HIF_QSTAT STATE (R83). -/
inductive QState where
  | free | active | error | deleting
  deriving DecidableEq, Repr

/-- A submission queue (R57, R58, R60, R61). -/
structure Sq where
  /-- STATE. -/
  state : QState := .free
  /-- ERR. -/
  err : Nat := 0
  /-- Entries. -/
  depth : Nat := 0
  /-- Bus address of the entries. -/
  base : Nat := 0
  /-- Bus address of the envelope array, 0 for none. -/
  env : Nat := 0
  /-- Fast class. -/
  fast : Bool := false
  /-- Weight, 1 to 16. -/
  weight : Nat := 1
  /-- Global index of its completion queue. -/
  cq : Nat := 0
  /-- Next slot to fetch. -/
  head : Nat := 0
  /-- Tail given by the doorbell. -/
  tail : Nat := 0
  /-- Owning function. -/
  fn : Nat := 0
  /-- FORWARD_MEMBER: the member its commands go to (R363). -/
  forward : Option Nat := none
  deriving DecidableEq, Repr

/-- A completion for a CQ, with what its entry needs. -/
structure CqItem where
  /-- The completion. -/
  k : Completion
  /-- SQ it is for. -/
  sq : Nat
  /-- EVENT_ON_DONE of its command. -/
  event : Bool
  /-- Opcode byte, for a retained record. -/
  opcode : Nat
  /-- CONTEXT, for a retained record. -/
  context : Nat
  /-- Its command was accepted (R67). -/
  accepted : Bool := true
  deriving DecidableEq, Repr

/-- A completion queue (R54, R55, R57, R63). -/
structure Cq where
  /-- STATE. -/
  state : QState := .free
  /-- ERR. -/
  err : Nat := 0
  /-- Entries. -/
  depth : Nat := 0
  /-- Bus address of the entries. -/
  base : Nat := 0
  /-- MSI-X vector. -/
  vector : Nat := 0
  /-- Coalescing count. -/
  coalCnt : Nat := 1
  /-- Coalescing time, µs. -/
  coalUs : Nat := 0
  /-- Next entry to write. -/
  wr : Nat := 0
  /-- Entries written and not released. -/
  used : Nat := 0
  /-- The head doorbell's last value. -/
  head : Nat := 0
  /-- PHASE of the next entry. -/
  phase : Bool := true
  /-- Completions waiting for room, oldest first, at most 64 hold up fetch (R55). -/
  waiting : List CqItem := []
  /-- Entries not signalled. -/
  unsig : Nat := 0
  /-- When the oldest of them was written. -/
  oldest : Nat := 0
  /-- Its memory can be written (log entry 16). -/
  reach : Bool := true
  /-- Owning function. -/
  fn : Nat := 0
  deriving DecidableEq, Repr

/-- The queue registers and error flags of a function window (R83). -/
structure Win where
  /-- HIF_QSEL [8:0]. -/
  qsel : Nat := 0
  /-- HIF_QCFG0. -/
  qcfg0 : Nat := 0
  /-- HIF_QCFG1. -/
  qcfg1 : Nat := 1
  /-- HIF_QBASE_LO and HI. -/
  qbase : Nat := 0
  /-- HIF_QENV_LO and HI. -/
  qenv : Nat := 0
  /-- HIF_ERR_STATUS [4:0]. -/
  err : Nat := 0
  /-- HIF_ERR_QID [8:0]. -/
  errQid : Nat := 0
  deriving DecidableEq, Repr

/-- HIF_VF_QRANGE_n (R56). -/
structure QRange where
  /-- BASE. -/
  base : Nat := 0
  /-- COUNT. -/
  count : Nat := 0
  deriving DecidableEq, Repr

/-- The host command processor. -/
structure Hif where
  /-- Submission queues by global ID. -/
  sqs : Tbl Sq := []
  /-- Completion queues by global ID. -/
  cqs : Tbl Cq := []
  /-- Commands in the device, in the order they were fetched. -/
  cmds : List Cmd := []
  /-- Retained sets: 0 to 15 a function, 16 USB, 32 + m member m (R68, R364). -/
  retained : Tbl RetSet := []
  /-- Round-robin pointer of the fast class (R61). -/
  rrFast : Nat := 0
  /-- SQ whose turn it is in the normal class. -/
  rrNorm : Nat := 0
  /-- Entries fetched in that turn. -/
  rrCount : Nat := 0
  /-- Features that were set, by ID × 2^32 + target (R80). -/
  feats : Tbl Nat := []
  /-- Function windows. -/
  wins : Tbl Win := []
  /-- VF queue ranges. -/
  ranges : Tbl QRange := []
  /-- Functions whose objects are released once their accepted commands have ended (R72). -/
  freeing : List Nat := []
  /-- HIF_READY ACCEPT: commands are accepted. -/
  accept : Bool := false
  /-- Values that reads of _LO registers latched: offset of the register and its value (R120). -/
  latch : Tbl Nat := []
  deriving DecidableEq, Repr

/-- A USB command's completion not yet released by a FETCH (R441, R442). -/
structure UsbDone where
  /-- The completion. -/
  k : Completion
  /-- Output data. -/
  output : List Byte
  /-- Opcode byte. -/
  opcode : Nat
  /-- CONTEXT. -/
  context : Nat
  deriving DecidableEq, Repr

/-- The USB service port (R441 to R443). -/
structure Usb where
  /-- MWR_USB_CFG ENABLE. -/
  enable : Bool := true
  /-- Attached. -/
  attached : Bool := false
  /-- Device state: 0 detached, 1 default, 2 addressed, 3 configured, 4 suspended (R445; log entry 116). -/
  dev : Nat := 0
  /-- Completions held, oldest first, at most 16. -/
  done : List UsbDone := []
  /-- Output written so far by commands that still run, by tag. -/
  output : Tbl (List Byte) := []
  deriving DecidableEq, Repr

/-- A message of the mailbox (R31). -/
inductive Msg where
  /-- A command forwarded to the Millwright. -/
  | command (id : CmdId)
  /-- Wheelhouse heartbeat: its sequence number and the counts of open races, turns and commands (R429, R432). -/
  | heartbeat (seq races turns cmds : Nat)
  /-- Power notice (R400). -/
  | powerNotice
  /-- Completion of a forwarded command (R431). -/
  | completion (id : CmdId) (k : Completion)
  /-- Error record, by its log index (R487). -/
  | errorRecord (index : Nat)
  /-- Plane-fatal notice. -/
  | planeFatal (cause : Nat)
  /-- Sensor request. -/
  | sensorRequest
  /-- Overflow marker with the drop count (R32). -/
  | overflow (n : Nat)
  /-- A host vote on a power domain, placed or withdrawn by a function (R31, R390). -/
  | powerVote (domain fn : Nat) (place : Bool)
  /-- Clock headroom grant (R408). -/
  | headroomGrant
  /-- Domain time adjustment: step, servo rate, estimated offset, locked to a master (R43, R372). -/
  | timeAdjust (delta rate offset : Int) (synced : Bool)
  /-- Domain-agent sleep vote (R411). -/
  | agentVote (place : Bool)
  /-- Stone fence request (R181). -/
  | stoneFence (stone : Nat) (floor : Bool)
  /-- Port mode or retrain request (R237). -/
  | portMode (port mode : Nat) (retrain : Bool)
  /-- DIMM BIST request (R192). -/
  | dimmBist (pair : Nat)
  deriving DecidableEq, Repr

/-- A queue of the mailbox: 64 entries and what it dropped (R31, R32, R430). -/
structure MailQ where
  /-- Messages, oldest first. -/
  items : List Msg := []
  /-- Producer index. -/
  prod : Nat := 0
  /-- Overflow count. -/
  dropped : Nat := 0
  /-- Drops not yet told by an overflow marker. -/
  due : Nat := 0
  deriving DecidableEq, Repr

/-- The mailbox in the hold domain (R31, R430). -/
structure Mail where
  /-- CTL_TO_MW. -/
  ctlToMw : MailQ := {}
  /-- MW_TO_CTL. -/
  mwToCtl : MailQ := {}
  /-- DAT_TO_MW. -/
  datToMw : MailQ := {}
  /-- MW_TO_DAT. -/
  mwToDat : MailQ := {}
  /-- The commands whose input fills an attachment slot, by slot 0 to 15 (R430). -/
  attach : Tbl CmdId := []
  deriving DecidableEq, Repr

end Sys2Proof.Machine
end

