-- ==== Sys2Proof/Machine/Flags.lean ====
section
/-! DEFINITION. The codes of the manual: opcodes (R81), statuses (R82), the severity of an event (R490). -/

namespace Sys2Proof.Machine

/-- The classes of the catalogue (R47). -/
inductive OpClass where
  | device | race | image | turn | memory | rdma | granary | check | domain | power | management | monitors
  deriving DecidableEq, Repr

/-- A row of the catalogue (R81). -/
structure OpRow where
  /-- Opcode byte. -/
  code : Nat
  /-- Class. -/
  cls : OpClass
  /-- Authorities: HOST, STEWARD, DOMAIN_ADMIN. -/
  host : Bool
  steward : Bool
  admin : Bool
  /-- Roles: mill, granary. -/
  mill : Bool
  granary : Bool
  /-- Carriers: PCIe, USB, domain channel. -/
  pcie : Bool
  usb : Bool
  dom : Bool
  /-- Reserved to the PF. -/
  pf : Bool
  deriving DecidableEq, Repr

/-- The catalogue (R81). -/
def Opc.row : Opc → OpRow
  | .nop => ⟨0x00, .device, true, true, true, true, true, true, true, true, false⟩
  | .identify => ⟨0x01, .device, true, true, true, true, true, true, true, true, false⟩
  | .getLog => ⟨0x02, .device, true, true, true, true, true, true, true, false, false⟩
  | .setFeature => ⟨0x03, .device, true, false, false, true, true, true, false, false, false⟩
  | .getFeature => ⟨0x04, .device, true, true, false, true, true, true, true, false, false⟩
  | .abort => ⟨0x05, .device, true, false, false, true, true, true, true, false, false⟩
  | .raceOpen => ⟨0x10, .race, true, false, false, true, false, true, false, false, false⟩
  | .raceClose => ⟨0x11, .race, true, false, false, true, false, true, false, false, false⟩
  | .raceAnchor => ⟨0x12, .race, true, false, false, true, false, true, false, false, false⟩
  | .playoutReport => ⟨0x13, .race, true, false, false, true, false, true, false, false, false⟩
  | .cogSet => ⟨0x14, .race, true, false, false, true, false, true, false, false, false⟩
  | .cogClear => ⟨0x15, .race, true, false, false, true, false, true, false, false, false⟩
  | .raceQuery => ⟨0x16, .race, true, false, false, true, false, true, false, false, false⟩
  | .imageLoad => ⟨0x20, .image, true, false, false, true, true, true, false, false, false⟩
  | .imageUnload => ⟨0x21, .image, true, false, false, true, true, true, false, false, false⟩
  | .imageQuery => ⟨0x22, .image, true, false, false, true, true, true, false, false, false⟩
  | .chainBind => ⟨0x23, .image, true, false, false, true, true, true, false, false, false⟩
  | .turnBegin => ⟨0x30, .turn, true, false, false, true, false, true, false, false, false⟩
  | .sailRaise => ⟨0x31, .turn, true, false, false, true, false, true, false, false, false⟩
  | .sailSet => ⟨0x32, .turn, true, false, false, true, false, true, false, false, false⟩
  | .sailFurl => ⟨0x33, .turn, true, false, false, true, false, true, false, false, false⟩
  | .turnEnd => ⟨0x34, .turn, true, false, false, true, false, true, false, false, false⟩
  | .map => ⟨0x40, .memory, true, false, false, true, true, true, false, false, false⟩
  | .unmap => ⟨0x41, .memory, true, false, false, true, true, true, false, false, false⟩
  | .xlateInvalidate => ⟨0x42, .memory, true, false, false, true, true, true, false, false, false⟩
  | .copy => ⟨0x43, .memory, true, false, false, true, true, true, false, false, false⟩
  | .stoneFence => ⟨0x44, .memory, true, false, false, true, true, true, false, false, true⟩
  | .stoneReinstate => ⟨0x45, .memory, true, false, false, true, true, true, false, false, true⟩
  | .qpCreate => ⟨0x50, .rdma, true, false, false, true, true, true, false, false, false⟩
  | .qpModify => ⟨0x51, .rdma, true, false, false, true, true, true, false, false, false⟩
  | .qpDestroy => ⟨0x52, .rdma, true, false, false, true, true, true, false, false, false⟩
  | .srqCreate => ⟨0x53, .rdma, true, false, false, true, true, true, false, false, false⟩
  | .cqCreate => ⟨0x54, .rdma, true, false, false, true, true, true, false, false, false⟩
  | .mrRegister => ⟨0x55, .rdma, true, false, false, true, true, true, false, false, false⟩
  | .windowBind => ⟨0x56, .rdma, true, false, false, true, true, true, false, false, false⟩
  | .portMode => ⟨0x57, .rdma, true, false, false, true, true, true, false, false, true⟩
  | .carveCreate => ⟨0x60, .granary, false, false, true, false, true, true, false, true, true⟩
  | .binAlloc => ⟨0x61, .granary, true, false, false, false, true, true, false, true, false⟩
  | .binFree => ⟨0x62, .granary, true, false, false, false, true, true, false, true, false⟩
  | .binMap => ⟨0x63, .granary, true, false, false, false, true, true, false, true, false⟩
  | .binUnmap => ⟨0x64, .granary, true, false, false, false, true, true, false, true, false⟩
  | .leaseRenew => ⟨0x65, .granary, true, false, false, false, true, true, false, true, false⟩
  | .tallyQuery => ⟨0x66, .granary, true, false, true, false, true, true, false, true, false⟩
  | .tallyPrepReset => ⟨0x67, .granary, true, false, false, false, true, true, false, true, false⟩
  | .tallyConfirm => ⟨0x68, .granary, false, false, true, false, true, true, false, true, false⟩
  | .mirrorSet => ⟨0x69, .granary, true, false, false, false, true, true, false, true, true⟩
  | .chkClaim => ⟨0x70, .check, true, false, false, true, true, true, false, false, false⟩
  | .chkConfig => ⟨0x71, .check, true, false, false, true, true, true, false, false, false⟩
  | .chkRun => ⟨0x72, .check, true, false, false, true, true, true, false, false, false⟩
  | .chkRelease => ⟨0x73, .check, true, false, false, true, true, true, false, false, false⟩
  | .domainJoin => ⟨0x80, .domain, false, false, true, true, true, true, false, true, true⟩
  | .domainLeave => ⟨0x81, .domain, false, false, true, true, true, true, false, true, true⟩
  | .domainStatus => ⟨0x82, .domain, true, true, true, true, true, true, true, true, false⟩
  | .sleepVote => ⟨0x83, .domain, true, false, false, true, true, true, false, true, false⟩
  | .powerVote => ⟨0x90, .power, true, false, false, true, true, true, false, false, false⟩
  | .powerQuery => ⟨0x91, .power, true, true, false, true, true, true, true, false, false⟩
  | .powerState => ⟨0x92, .power, true, false, false, true, true, true, false, false, true⟩
  | .mwMailbox => ⟨0xA0, .management, true, true, false, true, true, true, true, false, true⟩
  | .fwUpdate => ⟨0xA1, .management, false, true, false, true, true, true, true, false, true⟩
  | .budgetWrite => ⟨0xA2, .management, false, true, false, true, true, true, true, false, true⟩
  | .budgetQuery => ⟨0xA3, .management, true, true, false, true, true, true, true, false, false⟩
  | .monConfig => ⟨0xB0, .monitors, true, false, false, true, true, true, true, false, false⟩
  | .monSnapshot => ⟨0xB1, .monitors, true, false, false, true, true, true, true, false, false⟩
  | .monClear => ⟨0xB2, .monitors, true, false, false, true, true, true, true, false, false⟩

/-- Every opcode of the catalogue. -/
def allOpc : List Opc :=
  [.nop, .identify, .getLog, .setFeature, .getFeature, .abort, .raceOpen, .raceClose, .raceAnchor, .playoutReport,
    .cogSet, .cogClear, .raceQuery, .imageLoad, .imageUnload, .imageQuery, .chainBind, .turnBegin, .sailRaise,
    .sailSet, .sailFurl, .turnEnd, .map, .unmap, .xlateInvalidate, .copy, .stoneFence, .stoneReinstate] ++
  [.qpCreate, .qpModify, .qpDestroy, .srqCreate, .cqCreate, .mrRegister, .windowBind, .portMode, .carveCreate,
    .binAlloc, .binFree, .binMap, .binUnmap, .leaseRenew, .tallyQuery, .tallyPrepReset, .tallyConfirm, .mirrorSet,
    .chkClaim, .chkConfig, .chkRun, .chkRelease, .domainJoin, .domainLeave, .domainStatus, .sleepVote] ++
  [.powerVote, .powerQuery, .powerState, .mwMailbox, .fwUpdate, .budgetWrite, .budgetQuery, .monConfig, .monSnapshot,
    .monClear]

/-- The opcode a byte names (check 1 of R48). -/
def Opc.ofCode (n : Nat) : Option Opc := allOpc.find? fun o => o.row.code = n

/-- The bits of CONTEXT that R47 names for an opcode; the others are reserved. -/
def Opc.ctxMask : Opc → Nat
  | .nop | .identify | .getLog | .setFeature | .getFeature | .abort => 0
  | .raceOpen | .raceClose | .raceAnchor | .playoutReport | .cogSet | .cogClear | .raceQuery => 0x7FF
  | .imageLoad | .imageUnload | .imageQuery | .chainBind => 0xFFFF
  | .turnBegin | .turnEnd => 0x3F
  | .sailRaise | .sailSet | .sailFurl => 0x3003F
  | .map | .unmap | .xlateInvalidate | .copy => 0xFFFF
  | .stoneFence | .stoneReinstate => 0xFF
  | .qpCreate | .qpModify | .qpDestroy => 0x3FFF
  | .srqCreate => 0x1FF
  | .cqCreate => 0x1FFF
  | .mrRegister => 0xFFFF
  | .windowBind => 0xFFF
  | .portMode => 0x7
  | .carveCreate => 0x3F
  | .binAlloc | .binFree | .binMap | .binUnmap | .leaseRenew | .tallyQuery | .tallyPrepReset | .tallyConfirm
  | .mirrorSet => 0xFFFFFFFF
  | .chkClaim | .chkConfig | .chkRun | .chkRelease => 0xF
  | .domainJoin | .domainLeave | .domainStatus | .sleepVote => 0x1FF
  | .powerVote | .powerQuery | .powerState => 0xFF
  | .mwMailbox | .fwUpdate | .budgetWrite | .budgetQuery => 0
  | .monConfig | .monSnapshot | .monClear => 0xFF

/-- The code of a status (R82). -/
def Status.code : Status → Nat
  | .success => 0x00
  | .invalidOpcode => 0x01
  | .invalidField => 0x02
  | .noResource => 0x03
  | .notPermitted => 0x04
  | .busyRetry => 0x05
  | .aborted => 0x06
  | .furled => 0x07
  | .poisoned => 0x08
  | .linkDown => 0x09
  | .peerQuarantined => 0x0A
  | .binDisturbed => 0x0B
  | .leaseExpired => 0x0C
  | .budgetExhausted => 0x0D
  | .versionMismatch => 0x0E
  | .timeout => 0x0F
  | .sleepInProgress => 0x10
  | .integrity => 0x11
  | .staleHandle => 0x12
  | .xlateFault => 0x13
  | .internal => 0x1F

/-- The status of a code of R82. -/
def Status.ofCode (n : Nat) : Status :=
  match n with
  | 0x00 => .success | 0x01 => .invalidOpcode | 0x02 => .invalidField | 0x03 => .noResource | 0x04 => .notPermitted
  | 0x05 => .busyRetry | 0x06 => .aborted | 0x07 => .furled | 0x08 => .poisoned | 0x09 => .linkDown
  | 0x0A => .peerQuarantined | 0x0B => .binDisturbed | 0x0C => .leaseExpired | 0x0D => .budgetExhausted
  | 0x0E => .versionMismatch | 0x0F => .timeout | 0x10 => .sleepInProgress | 0x11 => .integrity | 0x12 => .staleHandle
  | 0x13 => .xlateFault | _ => .internal

/-- The statuses R82 marks stallable. -/
def Status.stallable : Status → Bool
  | .busyRetry | .sleepInProgress => true
  | _ => false

/-- Codes of the events that repair or report a repaired fault: severity 1 (R490; log entry 11). -/
def correctedEvents : List Nat := [0x7001, 0x7006, 0x8003]

/-- Codes of the events of a contained fault: severity 2 (R490; log entry 11). -/
def containedEvents : List Nat :=
  [0x3001, 0x3003, 0x3004, 0x3005, 0x3007, 0x3008, 0x4006, 0x4008, 0x5001, 0x5002, 0x5005, 0x6002, 0x6003, 0x6005,
    0x6006, 0x7002, 0x7003, 0x7004, 0x7005, 0x7007, 0x7008] ++
  [0x8002, 0x8004, 0x8005, 0x9003, 0x9004, 0x9005, 0xA001, 0xB001, 0xC003, 0xE002, 0xE005, 0xE006, 0xE008,
    0xF001, 0xF008, 0x1102, 0x1103]

/-- The severity class of an event (R490; log entry 11). -/
def severityOf (code : Nat) : Nat :=
  if containedEvents.contains code then 2 else if correctedEvents.contains code then 1 else 0

/-- The code ROLE_STAT[1:0] shows for a role (R7). -/
def Role.code : Role → Nat
  | .none => 0
  | .mill => 1
  | .granary => 2
  | .invalid => 3

/-- The STATE code of a queue (R83). -/
def QState.code : QState → Nat
  | .free => 0
  | .active => 1
  | .error => 2
  | .deleting => 3

end Sys2Proof.Machine
end

