-- ==== Sys2Proof/Machine/Operands.lean ====
section
/-! DEFINITION. Reading the fields of a command packet and of bus memory (R46, R47). -/

namespace Sys2Proof.Machine

/-- Dword n of a packet. -/
def dw (p : List Word) (n : Nat) : Nat := (p.getD n 0).toNat

/-- Dwords n and n + 1 as one 64-bit value. -/
def qw (p : List Word) (n : Nat) : Nat := dw p n + 2 ^ 32 * dw p (n + 1)

/-- Bits [hi:lo] of dword n. -/
def fld (p : List Word) (n hi lo : Nat) : Nat := bits (dw p n) hi lo

/-- Bit i of dword n. -/
def fbit (p : List Word) (n i : Nat) : Bool := bit (dw p n) i

/-- OPCODE. -/
def pktOpcode (p : List Word) : Nat := fld p 0 7 0
/-- STALL. -/
def pktStall (p : List Word) : Bool := fbit p 0 8
/-- FENCE. -/
def pktFence (p : List Word) : Bool := fbit p 0 9
/-- EVENT_ON_DONE. -/
def pktEvent (p : List Word) : Bool := fbit p 0 10
/-- TAG. -/
def pktTag (p : List Word) : Nat := fld p 0 31 16
/-- CONTEXT. -/
def pktContext (p : List Word) : Nat := dw p 1
/-- AUTH. -/
def pktAuth (p : List Word) : Nat := fld p 14 7 0

/-- The bytes of a packet as they lie in memory. -/
def pktBytes (p : List Word) : List Byte := p.flatMap fun w => leBytes 4 w.toNat

/-- The handle of a Granary-class command (R47). -/
def pktHandle (p : List Word) : Nat := qw p 1

/-- Granary ID of a handle (R19). -/
def handleGranary (h : Nat) : Nat := bits h 63 56
/-- Carve of a handle. -/
def handleCarve (h : Nat) : Nat := bits h 55 50
/-- Generation of a handle. -/
def handleGen (h : Nat) : Nat := bits h 49 34
/-- Bin index of a handle. -/
def handleBin (h : Nat) : Nat := bits h 33 0
/-- A handle put together (R19). -/
def mkHandle (granary carve gen bin : Nat) : Nat := granary * 2 ^ 56 + carve * 2 ^ 50 + gen * 2 ^ 34 + bin

/-- The issuing function of a command for checks 5 and 6 of R48; USB counts as the PF (R441). -/
def Cmd.fn (c : Cmd) : Nat :=
  match c.id.origin with
  | .pcie f => f
  | .usb => 0
  | .domain _ f => f

/-- TAG of a command. -/
def Cmd.tag (c : Cmd) : Nat := c.id.tag

/-- CONTEXT of a command. -/
def Cmd.context (c : Cmd) : Nat := pktContext c.pkt

/-- The byte listed at an address, 0 where none is. -/
def cellByte (a : Nat) : List Host.Cell → Byte
  | [] => 0
  | (k, v) :: r => if k = a then v else cellByte a r

/-- A byte of bus memory. -/
def Bus.byte (b : Bus) (a : Nat) : Byte := cellByte a b.host

/-- n bytes of bus memory from an address. -/
def Bus.bytes (b : Bus) (a n : Nat) : List Byte := (List.range n).map fun i => Bus.byte b (a + i)

/-- An n-byte little-endian number of bus memory. -/
def Bus.num (b : Bus) (a n : Nat) : Nat := ofLe (Bus.bytes b a n)

/-- Slice of a byte string. -/
def slice (l : List Byte) (off n : Nat) : List Byte := (l.drop off).take n

/-- The little-endian number at an offset of a byte string. -/
def num (l : List Byte) (off n : Nat) : Nat := ofLe (slice l off n)

end Sys2Proof.Machine
end

