-- ==== Sys2Proof/Machine/Types/Evt.lean ====
section
/-! DEFINITION. State of the monitors, the event rings and the error log (17). -/

namespace Sys2Proof.Machine

/-- An event record (R485). -/
structure EventRec where
  /-- CODE. -/
  code : Nat
  /-- FN. -/
  fn : Nat
  /-- SEVERITY. -/
  sev : Nat
  /-- TIME_IS_TICKS. -/
  ticks : Bool
  /-- OVERFLOW_BEFORE. -/
  overflowBefore : Bool
  /-- TIME. -/
  time : Nat
  /-- OBJ0. -/
  obj0 : Nat
  /-- OBJ1. -/
  obj1 : Nat
  /-- POS. -/
  pos : Nat
  /-- ARG. -/
  arg : Nat
  /-- ARG2. -/
  arg2 : Nat
  /-- SEQ. -/
  seq : Nat
  deriving DecidableEq, Repr

/-- A function's event ring (R487). -/
structure EvRing where
  /-- Records, oldest first, at most 1,024. -/
  recs : List EventRec := []
  /-- SEQ of the next record. -/
  seq : Nat := 0
  /-- Events not stored and not yet told by EVENT_OVERFLOW. -/
  dropped : Nat := 0
  deriving DecidableEq, Repr

/-- An error record (R489). -/
structure ErrRec where
  /-- INDEX. -/
  index : Nat
  /-- SEVERITY. -/
  sev : Nat
  /-- SOURCE block. -/
  source : Nat
  /-- Plane of detection. -/
  plane : Nat
  /-- ERROR code. -/
  code : Nat
  /-- TIME. -/
  time : Nat
  /-- TIME is an AO tick count. -/
  ticks : Bool
  /-- ADDRESS. -/
  addr : Nat
  /-- FN. -/
  fn : Nat
  /-- OBJECT. -/
  obj : Nat
  /-- Block detail. -/
  detail : Nat
  deriving DecidableEq, Repr

/-- A monitor (R475, R478, R482). -/
structure Mon where
  /-- Owner function. -/
  fn : Nat
  /-- SOURCE. -/
  source : Nat
  /-- SCALE. -/
  scale : Nat
  /-- CLEAR_ON_SNAP. -/
  clearOnSnap : Bool
  /-- LO. -/
  lo : Nat
  /-- W. -/
  w : Nat
  /-- E1 to E31 of EDGES. -/
  edges : List Nat
  /-- FILTER_A. -/
  filtA : Nat
  /-- FILTER_B. -/
  filtB : Nat
  /-- COUNT. -/
  count : Nat := 0
  /-- SUM. -/
  sum : Nat := 0
  /-- MIN. -/
  min : Nat := 0xFFFFFFFFFFFFFFFF
  /-- MAX. -/
  max : Nat := 0
  /-- BIN 0 to 31, those not 0. -/
  bins : Tbl Nat := []
  /-- DROPPED. -/
  dropped : Nat := 0
  /-- CLEARED_AT. -/
  clearedAt : Nat := 0
  /-- UE_RESET. -/
  ueReset : Bool := false
  /-- The Wheelhouse cycle from which it can absorb a sample (R480). -/
  busyUntil : Nat := 0
  /-- Samples that wait, each with the cycle it is absorbed in, at most 16 (R480). -/
  queued : List (Nat × Nat) := []
  /-- When the next SUPPLY sample is due. -/
  dueAt : Nat := 0
  deriving DecidableEq, Repr

/-- Event rings, the error log and the monitors. -/
structure Evt where
  /-- Rings by function. -/
  rings : Tbl EvRing := []
  /-- Error log, oldest first, at most 512. -/
  elog : List ErrRec := []
  /-- Index of the next error record, 24 bits. -/
  elogNext : Nat := 0
  /-- MON_SEV_c. -/
  sevCnt : Tbl Nat := []
  /-- MON_EVT_DROPS. -/
  evtDrops : Nat := 0
  /-- MON_FATAL_LAST. -/
  fatalLast : Nat := 0
  /-- MON_SEL. -/
  monSel : Nat := 0
  /-- MON_ELOG_SEL. -/
  elogSel : Nat := 0
  /-- Enabled monitors. -/
  mons : Tbl Mon := []
  deriving DecidableEq, Repr

end Sys2Proof.Machine
end

