-- ==== Sys2Proof/Machine/Types/Brk.lean ====
section
/-! DEFINITION. State of the brake path, the valves and the slots (16). -/

namespace Sys2Proof.Machine

/-- A brake configuration set (R449). -/
structure BrkCfg where
  /-- BRK_ACT_CFG0. -/
  cfg0 : Nat := 0x0F00FFFF
  /-- BRK_ACT_CFG1. -/
  cfg1 : Nat := 0x03E800C8
  /-- BRK_ACT_CFG2. -/
  cfg2 : Nat := 0x00FF0032
  deriving DecidableEq, Repr

/-- The states of a leak channel (R452), coded as BRK_LEAK. -/
inductive LeakState where
  | undetermined | dry | wet | fault | disabled
  deriving DecidableEq, Repr

/-- A leak channel (R450 to R453). -/
structure Leak where
  /-- State. -/
  state : LeakState := .undetermined
  /-- Consecutive wet samples. -/
  wet : Nat := 0
  /-- Consecutive dry samples. -/
  dry : Nat := 0
  /-- Dry samples since the last one of another class. -/
  dryRun : Nat := 0
  /-- Consecutive asymmetric samples. -/
  asym : Nat := 0
  /-- Consecutive samples with a wrong readback. -/
  badRb : Nat := 0
  /-- Consecutive symmetric samples with correct readback. -/
  good : Nat := 0
  /-- BRK_LEAK_LEVEL. -/
  level : Nat := 0xFFFF
  deriving DecidableEq, Repr

/-- The states of an interlock (R457), coded as BRK_ILK. -/
inductive IlkState where
  | healthy | discrepant | open_ | returning | fault | disabled
  deriving DecidableEq, Repr

/-- An interlock (R456, R457). -/
structure Ilk where
  /-- State. -/
  state : IlkState := .healthy
  /-- Contact A closed. -/
  a : Bool := true
  /-- Contact B closed. -/
  b : Bool := true
  /-- When it entered DISCREPANT or RETURNING, or in FAULT when both contacts were last found healthy. -/
  since : Nat := 0
  deriving DecidableEq, Repr

/-- The states of a valve (R467), coded as BRK_VALVE. -/
inductive ValveState where
  | off | deferred | pullIn | hold | fault
  deriving DecidableEq, Repr

/-- A valve. -/
structure Valve where
  /-- State. -/
  state : ValveState := .off
  /-- When it entered that state. -/
  since : Nat := 0
  /-- Requests that wait for HOLD. -/
  waiters : List CmdId := []
  deriving DecidableEq, Repr

/-- The states of a slot (R469). -/
inductive SlotState where
  | off | powering | on | fault
  deriving DecidableEq, Repr

/-- A slot. -/
structure Slot where
  /-- State. -/
  state : SlotState := .off
  /-- When it entered that state. -/
  since : Nat := 0
  /-- SLOT_PG. -/
  pg : Bool := false
  /-- The SLOT_SETs that wait: whether each enables, and since when. -/
  waiters : List (CmdId × Bool × Nat) := []
  deriving DecidableEq, Repr

/-- A BRAKE_RST_N hold in progress (R462). -/
structure RstHold where
  /-- When it began. -/
  since : Nat
  /-- An unhealthy sample was seen. -/
  bad : Bool
  /-- The pending set was written. -/
  written : Bool := false
  deriving DecidableEq, Repr

/-- The brake path and the tray outputs. -/
structure Brk where
  /-- Active set. -/
  act : BrkCfg := {}
  /-- Pending set. -/
  pend : BrkCfg := {}
  /-- Brake set. -/
  set : Bool := true
  /-- Lock-out. -/
  lockout : Bool := false
  /-- Power-up inhibit. -/
  inhibit : Bool := true
  /-- Brake response class in force. -/
  cls : Nat := 0
  /-- When the settle window began; none once it has ended. -/
  settle : Option Nat := some 0
  /-- A trip cause arose in the settle window (R464). -/
  settleTrip : Bool := false
  /-- Leak channels. -/
  leaks : Tbl Leak := []
  /-- The same channels as the pending set has them (R462). -/
  leaksP : Tbl Leak := []
  /-- Interlocks. -/
  ilks : Tbl Ilk := []
  /-- BLANK_IN is high. -/
  blankIn : Bool := false
  /-- Blanking interval: when it began and the channels blanked. -/
  blank : Option (Nat × Nat) := none
  /-- When the guard began. -/
  guard : Option Nat := none
  /-- The mask of the last interval. -/
  lastMask : Nat := 0
  /-- The output pins that differ from their drive: bit 0 A, bit 1 B. -/
  outPins : Nat := 0
  /-- VDD_IO is missing. -/
  ioLost : Bool := false
  /-- BRAKE_RST_N has been seen high since the last cold reset. -/
  rstHigh : Bool := false
  /-- Hold in progress. -/
  hold : Option RstHold := none
  /-- RST_STUCK. -/
  stuck : Bool := false
  /-- BRK_TRIP_LAST. -/
  tripLast : Nat := 0
  /-- AO ticks of the last trip. -/
  tripTime : Nat := 0
  /-- Trips. -/
  trips : Nat := 0
  /-- Holds accepted. -/
  holds : Nat := 0
  /-- BRK_CFG_REFUSED. -/
  refused : Nat := 0
  /-- Valves. -/
  valves : Tbl Valve := []
  /-- BRK_VALVE_CFG. -/
  valveCfg : Nat := 0x0026FA50
  /-- Groups with HS_FAULT_N low. -/
  hsFault : Nat := 0
  /-- Slots. -/
  slots : Tbl Slot := []
  /-- Positions that a SLOT_SET without ENABLE or a removal keeps off until a SLOT_SET with ENABLE (log entry 116). -/
  keptOff : Nat := 0
  /-- Positions with SLOT_PRSNT_N low. -/
  present : Nat := 0
  /-- The last 16 events of the chapter (R472), oldest first: code, AO ticks, argument. -/
  log : List (Nat × Nat × Nat) := []
  /-- Deferred valves, longest first. -/
  deferOrder : List Nat := []
  deriving DecidableEq, Repr

end Sys2Proof.Machine
end

