-- ==== Sys2Proof/Machine/Types/Mem.lean ====
section
/-! DEFINITION. State of HBM, DDR5, the address spaces and the descriptors that use them (06). -/

namespace Sys2Proof.Machine

/-- Page sizes (R194, R198). -/
inductive PageSize where
  | p64K | p2M | p1G
  deriving DecidableEq, Repr

/-- The target of a page (R194). -/
inductive Target3 where
  | hbm | ddr | host
  deriving DecidableEq, Repr

/-- A run of pages of one size mapped to consecutive target addresses: the leaves a MAP wrote, less what was unmapped or
replaced since (R195, R198). -/
structure Extent where
  /-- VA of the first page. -/
  va : Nat
  /-- Page size. -/
  page : PageSize
  /-- Pages. -/
  count : Nat
  /-- TARGET. -/
  target : Target3
  /-- ADDR of the first page. -/
  addr : Nat
  /-- W. -/
  w : Bool
  deriving DecidableEq, Repr

/-- An address space (R193). -/
structure Space where
  /-- Owning function. -/
  fn : Nat
  /-- Its leaves, in rising VA. -/
  extents : List Extent := []
  deriving DecidableEq, Repr

/-- A run of translated bytes: where they lie and how many. -/
structure Seg where
  /-- Target. -/
  target : Target3
  /-- Address in the target. -/
  addr : Nat
  /-- Bytes. -/
  len : Nat
  /-- The function whose PCIe requester ID an access to host memory carries: the owner of the address space (R194). -/
  fn : Nat := 0
  deriving DecidableEq, Repr

/-- A translated range kept by its user (R201, R204): the virtual range and where it lies. -/
structure Held where
  /-- Address space. -/
  asid : Nat
  /-- First VA. -/
  va : Nat
  /-- Bytes. -/
  len : Nat
  /-- Where they lie. -/
  segs : List Seg
  deriving DecidableEq, Repr

/-- A COPY descriptor (R203, R204). -/
structure CopyDesc where
  /-- Its command. -/
  id : CmdId
  /-- Queue it was submitted on. -/
  sq : Nat
  /-- Source; none for ZERO. -/
  src : Option Held
  /-- Destination. -/
  dst : Held
  deriving DecidableEq, Repr

/-- An UNMAP or XLATE_INVALIDATE that waits (R199, R200). -/
structure Drain where
  /-- Its command. -/
  id : CmdId
  /-- Address space. -/
  asid : Nat
  /-- COPY descriptors waited for. -/
  copies : List CmdId
  /-- RDMA work requests waited for: QP and request number. -/
  wrs : List (Nat × Nat)
  /-- Check jobs waited for: engine and job number. -/
  jobs : List (Nat × Nat)
  /-- Hopper fills waited for: race × 16 + slot. -/
  fills : List Nat
  /-- Descriptors waited for in all. -/
  waited : Nat
  /-- Descriptors cancelled. -/
  cancelled : Nat
  /-- Receive buffers waited for: of an SRQ or of a QP, its number, the number of the entry. -/
  recvs : List (Bool × Nat × Nat) := []
  /-- Table bytes that are freed when it ends (R199). -/
  tables : Nat := 0
  /-- The ASID goes when it ends (DESTROY). -/
  destroy : Bool
  deriving DecidableEq, Repr

/-- States of a DDR5 pair (R212). -/
inductive PairState where
  | absent | up | down | fill
  deriving DecidableEq, Repr

/-- A DDR5 channel pair (R189, R212). -/
structure Pair where
  /-- STATE. -/
  state : PairState := .absent
  /-- DIMMs per channel. -/
  dpc : Nat := 0
  /-- DIMM_GIB code. -/
  gib : Nat := 0
  /-- REASON. -/
  reason : Nat := 0
  /-- CE. -/
  ce : Nat := 0
  /-- It was refused at training and takes no part in the layout (R189). -/
  refused : Bool := false
  deriving DecidableEq, Repr

/-- An arena extent in use (R207). -/
structure Arena where
  /-- Bytes. -/
  len : Nat
  /-- Released and being zero-filled. -/
  filling : Bool
  deriving DecidableEq, Repr

/-- A hopper fill that runs (R209). -/
structure Fill where
  /-- Function of the race. -/
  fn : Nat
  /-- QP the reads go by. -/
  qpn : Nat
  /-- Bin handle. -/
  handle : Nat
  /-- OFFSET in the bin. -/
  offset : Nat
  /-- LENGTH. -/
  len : Nat
  /-- Hopper. -/
  hopper : Held
  /-- Bytes whose reads have been posted. -/
  posted : Nat := 0
  /-- Reads outstanding: offset and length. -/
  out : List (Nat × Nat) := []
  /-- Bytes landed. -/
  landed : Nat := 0
  /-- Status of the first failed read. -/
  failed : Option Status := none
  deriving DecidableEq, Repr

/-- Region sizes in force, in MiB (R188, R197). -/
structure Sizes where
  /-- PT_STORE. -/
  pt : Nat := 256
  /-- STONE_SAVE_POOL. -/
  save : Nat := 16384
  /-- IMAGE_STORE. -/
  image : Nat := 32768
  /-- ARENA_POOL. -/
  arena : Nat := 16384
  /-- HOT_CACHE and bin directory of a granary. -/
  hot : Nat := 0
  deriving DecidableEq, Repr

/-- The memories and the address spaces. -/
structure Mem where
  /-- HBM and DDR5 bytes that are not 0: HBM at its physical address, DDR5 from 2^60 (log entry 6). -/
  cells : List Host.Cell := []
  /-- Poisoned 64-byte lines, by address / 64, rising. -/
  bad : Tbl Bool := []
  /-- Lines with an error that no read has met yet, by address / 64, rising: true for one that cannot be corrected (R191). -/
  weak : Tbl Bool := []
  /-- DDR5 pairs. -/
  pairs : Tbl Pair := []
  /-- DDR5 channels run at DDR5-5600. -/
  slow : Bool := false
  /-- HBM channel CE counts. -/
  hbmCe : Tbl Nat := []
  /-- Address spaces. -/
  spaces : Tbl Space := []
  /-- Leaf cache, oldest first: ASID and first VA of the page, at most 4,096. -/
  leafCache : List (Nat × Nat) := []
  /-- Walk cache, oldest first: ASID, level of the table pointer (4 to 1) and first VA it spans, at most 512 (log entry 97). -/
  walkCache : List (Nat × Nat × Nat) := []
  /-- Region sizes in force. -/
  sizes : Sizes := {}
  /-- COPY descriptors, in the order they were queued. -/
  copies : List CopyDesc := []
  /-- UNMAPs and XLATE_INVALIDATEs that wait. -/
  drains : List Drain := []
  /-- Arena extents in use, by offset in the pool. -/
  arenas : Tbl Arena := []
  /-- Hopper fills, by race × 16 + slot. -/
  fills : Tbl Fill := []
  /-- MEM_WALKS. -/
  walks : Nat := 0
  /-- MEM_XFAULTS. -/
  xfaults : Nat := 0
  /-- MEM_PROBE_CTL ASID. -/
  probeAsid : Nat := 0
  /-- MEM_PROBE_VA. -/
  probeVa : Nat := 0
  /-- MEM_PROBE_STATUS. -/
  probeStatus : Nat := 0
  /-- MEM_PROBE_E of L4 to L0. -/
  probeE : List Nat := [0, 0, 0, 0, 0]
  /-- MEM_ERR_LAST. -/
  errLast : Nat := 0
  /-- MEM_ERR_ADDR. -/
  errAddr : Nat := 0
  deriving DecidableEq, Repr

end Sys2Proof.Machine
end

