-- ==== Sys2Proof/Machine/Types/Ocp.lean ====
section
/-! DEFINITION. State of the protected on-chip memories (07). Scratch of stone n is instance n. -/

namespace Sys2Proof.Machine

/-- A stored word that has been written (R218): data, stored check byte, POISONED. -/
structure OWord where
  /-- Data. -/
  data : Nat
  /-- Stored check byte. -/
  check : Nat
  /-- POISONED rather than VALID. -/
  bad : Bool := false
  deriving DecidableEq, Repr

/-- An entry of a merge buffer (R223). -/
structure Merge where
  /-- Word address. -/
  word : Nat
  /-- Bytes covered. -/
  mask : Nat
  /-- Data. -/
  data : Nat
  /-- When it was made. -/
  since : Nat
  /-- Commands whose bytes it holds: their completions wait for its flush (R225). -/
  writers : List CmdId := []
  deriving DecidableEq, Repr

/-- A macro group (R223 to R230). -/
structure OGroup where
  /-- Merge buffer, oldest first, at most 8. -/
  merge : List Merge := []
  /-- Candidate list, oldest first, at most 16: word and bit, 255 for a UE_MULTI. -/
  cand : List (Nat × Nat) := []
  /-- Spares in use. -/
  spares : Nat := 0
  /-- Words moved to spares. -/
  moved : List Nat := []
  /-- Hard-failing words to be moved, one in each cycle of the group, oldest first. -/
  hard : List Nat := []
  /-- DEGRADED. -/
  degraded : Bool := false
  /-- REASON. -/
  reason : Nat := 0
  /-- REMAP_FULL has been raised. -/
  full : Bool := false
  /-- Next word of the scrubber, within the group. -/
  pos : Nat := 0
  /-- A pass begun in this lap runs. -/
  begun : Bool := false
  /-- It has completed a pass of this lap. -/
  passed : Bool := false
  deriving DecidableEq, Repr

/-- A protected instance. -/
structure OInst where
  /-- Words written, by word address; one not listed is NEVER_WRITTEN. -/
  words : Tbl OWord := []
  /-- Words of which one of the three state copies differs from the other two (R218). -/
  odd : List Nat := []
  /-- Groups. -/
  groups : Tbl OGroup := []
  /-- CE. -/
  ce : Nat := 0
  /-- UE. -/
  ue : Nat := 0
  /-- MEM_OCP_LAP. -/
  lap : Nat := 0xFFFFFFFF
  /-- When the lap in progress began, in clocked time of the instance. -/
  lapAt : Nat := 0
  /-- SCRUB_SLOW was raised for it. -/
  slow : Bool := false
  /-- CEs since the last OCP_CE event. -/
  ceNew : Nat := 0
  /-- When OCP_CE was last raised. -/
  ceAt : Option Nat := none
  deriving DecidableEq, Repr

/-- The protected memories. -/
structure Ocp where
  /-- Instances that are not at their reset value. -/
  insts : Tbl OInst := []
  /-- ns for which each scrubber clock has been gated: 0 to 15 a floor's, 16 the Wheelhouse's, 17 the tally's, 18 the
  Millwright's (R230). -/
  gated : Tbl Nat := []
  /-- MEM_OCP_SEL. -/
  sel : Nat := 0
  /-- MEM_OCP_LAST. -/
  last : Nat := 0
  /-- MEM_OCP_LAST_WORD. -/
  lastWord : Nat := 0
  /-- MEM_OCP_ALARM. -/
  alarm : Nat := 0
  /-- MEM_OCP_INJECT. -/
  inject : Nat := 0
  /-- MEM_OCP_INJECT_ADDR word. -/
  injWord : Nat := 0
  /-- Its data mask. -/
  injMask : Nat := 0
  /-- MEM_OCP_REMAP_LOAD. -/
  remapLoad : Nat := 0
  /-- MEM_OCP_REMAP_INST. -/
  remapInst : Nat := 0
  deriving DecidableEq, Repr

end Sys2Proof.Machine
end

