-- ==== Sys2Proof/Machine/Types/Turn.lean ====
section
/-! DEFINITION. State of the turns, the sails, the commit gate and the items of work (04, 05). -/

namespace Sys2Proof.Machine

/-- The states of a turn (R123), coded as WHL_TSTATE STATE. -/
inductive TurnState where
  | free | listening | speculating | committed | retiring
  deriving DecidableEq, Repr

/-- The states of a sail slot (R126), coded as WHL_TSTATE SAILS. -/
inductive SailState where
  | free | raised | set | furling | draining
  deriving DecidableEq, Repr

/-- A tailrace frame held by the gate (R136). -/
structure HeldFrame where
  /-- NSMP. -/
  nsmp : Nat
  /-- Payload. -/
  data : List Byte
  /-- TURN_LAST. -/
  last : Bool
  deriving DecidableEq, Repr

/-- Where a write outside the private arena goes (R136). -/
inductive Dest where
  /-- A range of HBM, DDR5 or host memory. -/
  | mem (segs : List Seg)
  /-- A bin: handle and offset. -/
  | bin (handle offset : Nat)
  deriving DecidableEq, Repr

/-- A write held by the gate (R135, R136): at most 4 KiB, its bytes and the poison of each. -/
structure HeldWrite where
  /-- Target. -/
  dest : Dest
  /-- Bytes. -/
  data : List (Byte × Bool)
  deriving DecidableEq, Repr

/-- A sail slot and its part of the gate (R126, R135). -/
structure Sail where
  /-- State. -/
  state : SailState := .free
  /-- CHAIN. -/
  chain : Nat := 0
  /-- Stage running, ready or next. -/
  stage : Nat := 0
  /-- GANG byte. -/
  gang : Nat := 0
  /-- HYP. -/
  hyp : Nat := 0
  /-- Model instant of the raise, in ns. -/
  raisedAt : Nat := 0
  /-- The SAIL_RAISE that waits for it. -/
  raiseCmd : Option CmdId := none
  /-- Its last stage has completed. -/
  done : Bool := false
  /-- Its last released frame carried TURN_LAST. -/
  lastOut : Bool := false
  /-- Held audio, oldest first; a set sail's frames still to be released. -/
  audio : List HeldFrame := []
  /-- Held writes, oldest first; a set sail's writes still to be released. -/
  writes : List HeldWrite := []
  /-- Held audio at the set, in smp. -/
  heldAtSet : Nat := 0
  /-- Domain time of the set. -/
  setAt : Nat := 0
  /-- time_of(V) at the set (R477). -/
  vAt : Nat := 0
  /-- Its gang stalls on a hold: 0 audio, 1 write, with the room its next write needs in smp or bytes and in records (R137). -/
  stall : Option (Nat × Nat × Nat) := none
  /-- Offset of its private arena in the arena pool, when its chain declares one. -/
  arena : Option Nat := none
  /-- SAIL_FURL commands that wait for DRAINING. -/
  furlCmds : List CmdId := []
  /-- Cause of its furl (R134). -/
  cause : Nat := 0
  /-- The furl point. -/
  furlAt : Nat := 0
  /-- Runner instructions that were in progress at the furl point. -/
  runners : Nat := 0
  /-- Held smp discarded. -/
  discarded : Nat := 0
  /-- DMA descriptors cancelled. -/
  cancelled : Nat := 0
  deriving DecidableEq, Repr

/-- A turn slot (R121 to R124). -/
structure Turn where
  /-- State. -/
  state : TurnState := .free
  /-- Owning function. -/
  fn : Nat := 0
  /-- Race. -/
  race : Nat := 0
  /-- Target, µs. -/
  target : Nat := 0
  /-- MAX_SAILS. -/
  maxSails : Nat := 4
  /-- Its first frame has been released. -/
  first : Bool := false
  /-- TURN_END commands that wait. -/
  endCmds : List CmdId := []
  /-- Sails 0 to 3. -/
  sails : Tbl Sail := []
  deriving DecidableEq, Repr

/-- What the gate still releases of a set sail whose slot is FREE (R126, R138). -/
structure Leaving where
  /-- Turn slot. -/
  turn : Nat
  /-- Sail index. -/
  idx : Nat
  /-- Owning function. -/
  fn : Nat
  /-- Race. -/
  race : Nat
  /-- Its turn has released a frame. -/
  first : Bool
  /-- The sail as it left its slot. -/
  v : Sail
  deriving DecidableEq, Repr

/-- Whom an item belongs to. -/
inductive Owner where
  /-- A sail. -/
  | sail (turn idx : Nat)
  /-- A turn, dispatched by a cog (R125). -/
  | turn (turn : Nat)
  /-- An entry of the near-memory ring, by its ring index (R317). -/
  | nearMem (entry : Nat)
  /-- The sweep of a bin of a carve (R334). -/
  | sweep (carve bin : Nat)
  deriving DecidableEq, Repr

/-- Where an item of work stands. -/
inductive ItemState where
  /-- In the ready set. -/
  | ready
  /-- On its block. -/
  | running
  /-- Its gang writes its save area (R163). -/
  | yielding
  /-- Its gang has faulted and drains (R167). -/
  | faulted
  /-- Its sail or turn was furled and its stones drain (R133). -/
  | furled
  deriving DecidableEq, Repr

/-- A scalar register: 64 bits and its poison. -/
structure Scalar where
  /-- Value. -/
  val : Nat := 0
  /-- Poisoned. -/
  bad : Bool := false
  deriving DecidableEq, Repr

/-- A vector register: eight 64-bit lanes, each with its poison. -/
structure Vec where
  /-- Lanes. -/
  lanes : List (Nat × Bool) := []
  deriving DecidableEq, Repr

/-- A runner instruction issued: the model instants at which it starts and ends, in ns. -/
structure RunnerOp where
  /-- Start. -/
  start : Nat
  /-- End. -/
  end_ : Nat
  deriving DecidableEq, Repr

/-- A runner slot issued: its 64 bits, and for a DMA_ISSUE the value of its OFFREG then (R155). -/
structure RunSlot where
  /-- The slot. -/
  word : Nat
  /-- OFFREG at the issue. -/
  reg : Nat := 0
  deriving DecidableEq, Repr

/-- What a stone waits for while its gang stands (R157, R160). -/
inductive Need where
  /-- Nothing. -/
  | none
  /-- A bundle of its stream that has not arrived. -/
  | bundle (index : Nat)
  /-- Its microcode. -/
  | microcode
  /-- Its spur schedule. -/
  | schedule
  /-- Its runner instructions, on which the next bundle depends. -/
  | runner
  deriving DecidableEq, Repr

/-- The bed of a stone of a gang with its runner's and its bundle stores (R152, R154, R157). -/
structure Bed where
  /-- Scalar registers that are not 0. -/
  scalar : Tbl Scalar := []
  /-- Vector registers that are not 0. -/
  vector : Tbl Vec := []
  /-- Runner slots issued and not begun, in issue order. -/
  slots : List RunSlot := []
  /-- Runner instructions. -/
  runner : List RunnerOp := []
  /-- It holds at a grist bundle with this site (R161). -/
  atSite : Option Nat := none
  /-- When that bundle issued. -/
  atSince : Nat := 0
  /-- It has issued HALT. -/
  halted : Bool := false
  /-- It waits on WAIT_DMA. -/
  waitDma : Bool := false
  /-- Microcode store, at most 64 KiB: what has arrived of the MICROCODE section. -/
  micro : List Byte := []
  /-- Bytes of its part of the SPUR section that have arrived. -/
  spur : Nat := 0
  /-- Bundle buffer, at most 8,192 bundles of its stream from index lo on, and the bytes of the next one. -/
  buf : List Nat := []
  lo : Nat := 0
  part : Nat := 0
  /-- The bundle it last issued or waits for: the buffer keeps this one and those after it. -/
  pc : Nat := 0
  /-- What it waits for. -/
  need : Need := .none
  deriving DecidableEq, Repr

/-- A started DMA descriptor (R160, R173). -/
structure Dma where
  /-- Relative stone. -/
  stone : Nat
  /-- Template OP. -/
  op : Nat
  deriving DecidableEq, Repr

/-- A spur send in flight (R158): the links it holds in order with the first cycle of each, its beats, where they go and when
the first arrives, what they carry and how many have arrived. -/
structure Flight where
  /-- Link and the cycle its first beat crosses. -/
  links : List (Nat × Nat)
  /-- Beats. -/
  beats : Nat
  /-- Source and destination, relative. -/
  src : Nat
  dest : Nat
  /-- First arrival cycle. -/
  first : Nat
  /-- Data, 512 bytes a beat. -/
  data : List (Byte × Bool)
  /-- Beats that have arrived. -/
  landed : Nat := 0
  deriving DecidableEq, Repr

/-- A receive entry of a stone's spur schedule (R158). -/
structure Recv where
  /-- Stone, relative. -/
  stone : Nat
  /-- Site. -/
  site : Nat
  /-- First arrival cycle. -/
  cycle : Nat
  /-- Beats. -/
  beats : Nat
  /-- Source, relative. -/
  src : Nat
  /-- Destination scratch offset in 64-byte units. -/
  dst : Nat
  deriving DecidableEq, Repr

/-- What a yielded item saved: bed state and live scratch by relative stone (R163). -/
structure Saved where
  /-- Beds. -/
  beds : Tbl Bed
  /-- Scratch words below LIVE_BYTES, by relative stone. -/
  words : Tbl (Tbl OWord)
  deriving DecidableEq, Repr

/-- An item of work (R125, R128, R143, R157 to R167). -/
structure Item where
  /-- Function. -/
  fn : Nat
  /-- Owner. -/
  owner : Owner
  /-- Chain, when it has one. -/
  chain : Option Nat := none
  /-- Stage index. -/
  stage : Nat := 0
  /-- Image. -/
  image : Nat
  /-- GANG byte in force. -/
  gang : Nat
  /-- D of R143, a model instant in ns. -/
  due : Nat
  /-- State. -/
  state : ItemState := .ready
  /-- First floor and floors of its block. -/
  base : Nat := 0
  floors : Nat := 0
  /-- Cycles run, without those yielded (R146). -/
  cycles : Nat := 0
  /-- Advancing cycles since the last boundary; the schedule cycle (R159, R162). -/
  adv : Nat := 0
  /-- Site of the segment. -/
  site : Nat := 0
  /-- Save area, bytes; 0 before the first placement (R164). -/
  saveBytes : Nat := 0
  /-- Saved state to resume from. -/
  saved : Option Saved := none
  /-- When a yield was requested. -/
  yieldAt : Option Nat := none
  /-- The yield was asked by PREEMPT, and counts as one. -/
  preempt : Bool := false
  /-- The item whose preemption asked it (R145). -/
  yieldFor : Option Nat := none
  /-- It has resumed and not yet completed a grist segment (R145). -/
  resumed : Bool := false
  /-- UNPLACEABLE has been raised for it. -/
  told : Bool := false
  /-- Beds by relative stone; a stone not listed has its reset state. -/
  beds : Tbl Bed := []
  /-- Started DMA descriptors. -/
  dmas : List Dma := []
  /-- Sends of the segment, in flight or arrived. -/
  flights : List Flight := []
  /-- Receive entries of the image's spur schedule. -/
  recvs : List Recv := []
  /-- Frames and writes of a bed wait for room in the gate (R137). -/
  stalled : Bool := false
  /-- It waits for its floors to wake (R393). -/
  waking : Bool := false
  /-- A cog placed it and its first bundle has not issued: when the cog's condition became true, whether by DISPATCH, and
  the race (R476). -/
  cogAt : Option (Nat × Bool × Nat) := none
  /-- USER of its near-memory entry (R318). -/
  user : Nat := 0
  /-- When its first stage was placed, for RUNTIME_US (R318). -/
  startedAt : Option Nat := none
  /-- The refusal of a descriptor that ends its near-memory entry (R319). -/
  ending : Option Status := none
  /-- Stages its near-memory entry has completed. -/
  stagesDone : Nat := 0
  deriving DecidableEq, Repr

/-- Turns, sails, gate, items. -/
structure Trn where
  /-- Turn slots that are not FREE, and FREE ones of which a furled sail still drains. -/
  turns : Tbl Turn := []
  /-- What the gate still releases of set sails whose slots are FREE, in the order of their ends. -/
  leaving : List Leaving := []
  /-- Items, by number. -/
  items : Tbl Item := []
  /-- Number of the next item. -/
  nextItem : Nat := 0
  /-- The item a block is reserved for, with first floor and floors (R144). -/
  reserved : Option (Nat × Nat × Nat) := none
  /-- WHL_PREEMPTS COUNT. -/
  preempts : Nat := 0
  /-- WHL_TSEL. -/
  tsel : Nat := 0
  /-- Bytes of the save pool in use. -/
  saveUsed : Nat := 0
  deriving DecidableEq, Repr

end Sys2Proof.Machine
end

