-- ==== Sys2Proof/Machine/Types/Chk.lean ====
section
/-! DEFINITION. State of the check engines (12). -/

namespace Sys2Proof.Machine

/-- The parameters of a computation (R346, R347). -/
structure CrcCfg where
  /-- Width. -/
  width : Nat
  /-- Poly. -/
  poly : Nat
  /-- Init. -/
  init : Nat
  /-- RefIn. -/
  refin : Bool
  /-- RefOut. -/
  refout : Bool
  /-- XorOut. -/
  xorout : Nat
  deriving DecidableEq, Repr

/-- The configuration of an engine (R345). -/
structure ChkCfg where
  /-- MODE. -/
  mode : Nat := 2
  /-- Parameters of FREE. -/
  free : CrcCfg := ⟨0, 0, 0, false, false, 0⟩
  /-- FOLD. -/
  fold : Nat := 0
  /-- ALIVE. -/
  alive : Nat := 0
  /-- ALIVE_OFS. -/
  ofs : Nat := 0
  deriving DecidableEq, Repr

/-- A released tailrace frame whose check is a job (R138, R352). -/
structure FrameJob where
  /-- Its race, while that is open. -/
  race : Option Nat
  /-- Turn and sail. -/
  turn : Nat
  sail : Nat
  /-- TURN_FIRST. -/
  first : Bool
  /-- Domain time of the set, time_of(V) at the set and domain time of the release. -/
  setAt : Nat
  vAt : Nat
  time : Nat
  /-- The frame. -/
  frame : HeldFrame
  deriving DecidableEq, Repr

/-- A job (R341, R350, R352, R353). -/
structure Job where
  /-- The command it is for; a tailrace frame's job has none. -/
  id : Option CmdId
  /-- An internal job of a tailrace frame. -/
  frame : Option FrameJob := none
  /-- An internal job of an IMAGE_LOAD: 0 the header, n the n-th section. -/
  image : Option Nat := none
  /-- Configuration. -/
  cfg : ChkCfg := {}
  /-- Payload. -/
  held : Held
  /-- LENGTH. -/
  len : Nat
  /-- EXPECTED. -/
  expected : Nat := 0
  /-- COMPARE. -/
  compare : Bool := false
  /-- FOLD_VALUE. -/
  foldValue : Nat := 0
  /-- Job number. -/
  num : Nat
  deriving DecidableEq, Repr

/-- An engine (R340 to R351). -/
structure Engine where
  /-- Owner. -/
  owner : Option Nat := none
  /-- Configuration. -/
  cfg : ChkCfg := {}
  /-- Sequence counter. -/
  seq : Nat := 0
  /-- L. -/
  seen : Option Nat := none
  /-- The job it computes. -/
  run : Option Job := none
  /-- Host queue. -/
  hostQ : List Job := []
  /-- Internal queue. -/
  intQ : List Job := []
  /-- CHK_RELEASE that waits. -/
  release : Option CmdId := none
  /-- Cause of the last failure. -/
  cause : Nat := 0
  /-- CHK_RESULT. -/
  result : Nat := 0
  /-- CHK_ALIVE. -/
  alive : Nat := 0
  /-- CHK_RUNS. -/
  runs : Nat := 0
  /-- CHK_FAILS. -/
  fails : Nat := 0
  deriving DecidableEq, Repr

/-- The engines. -/
structure Chk where
  /-- Engines by number. -/
  engines : Tbl Engine := []
  /-- CHK_IRQ. -/
  irq : Nat := 0
  /-- CHK_SEL. -/
  sel : Nat := 0
  /-- Number of the next job. -/
  next : Nat := 0
  deriving DecidableEq, Repr

end Sys2Proof.Machine
end

