-- ==== Sys2Proof/Machine/Types/Dom.lean ====
section
/-! DEFINITION. State of the mill domain: membership, liveness, time and granary sleep (13). -/

namespace Sys2Proof.Machine

/-- The states of a member (R366), coded as DOM_PEER. -/
inductive PeerState where
  | unknown | up | suspect | lost | quarantined | left
  deriving DecidableEq, Repr

/-- A member table entry (R357). -/
structure Member where
  /-- Role: 1 mill, 2 granary. -/
  role : Nat
  /-- Management address. -/
  addr : Nat
  deriving DecidableEq, Repr

/-- What the device keeps of another member (R366, R370, R375). -/
structure Peer where
  /-- State. -/
  state : PeerState := .unknown
  /-- Reason of its quarantine. -/
  reason : Nat := 0
  /-- Marked time-suspect. -/
  timeSuspect : Bool := false
  /-- Flags of its last heartbeat. -/
  flags : Nat := 0
  /-- Role of its last heartbeat. -/
  role : Nat := 0
  /-- Its incarnation. -/
  inc : Nat := 0
  /-- Where its last heartbeat came from. -/
  src : Option Source := none
  /-- When its last heartbeat arrived. -/
  hbAt : Option Nat := none
  /-- Firmware version: major, minor, patch. -/
  major : Nat := 0
  minor : Nat := 0
  patch : Nat := 0
  /-- Offset in ns. -/
  offset : Int := 0
  /-- t3 of its last heartbeat. -/
  t3 : Nat := 0
  /-- Domain time of its receipt. -/
  t2 : Nat := 0
  /-- Consecutive valid offsets beyond 50 µs. -/
  far : Nat := 0
  /-- Consecutive offsets within 25 µs. -/
  near : Nat := 0
  /-- Consecutive heartbeats with no disagreement. -/
  agree : Nat := 0
  /-- When a SUSPECT naming it last arrived from another member. -/
  witness : Option Nat := none
  deriving DecidableEq, Repr

/-- JOIN of DOM_STATUS. -/
inductive Join where
  | none | joining | member | leaving
  deriving DecidableEq, Repr

/-- A message being put together (R362). -/
structure Reasm where
  /-- Source. -/
  src : Source
  /-- Message sequence number. -/
  seq : Nat
  /-- Fragments it takes. -/
  count : Nat
  /-- Indexes of the fragments held. -/
  got : List Nat
  /-- When its first fragment arrived. -/
  since : Nat
  deriving DecidableEq, Repr

/-- The states of a granary's sleep, coded as DOM_SLEEP. -/
inductive SleepState where
  | awake | proposed | agreed | entering | asleep | exiting
  deriving DecidableEq, Repr

/-- A granary's own sleep (R377 to R380). -/
structure Sleep where
  /-- State. -/
  state : SleepState := .awake
  /-- Proposal number. -/
  proposal : Nat := 0
  /-- Voters. -/
  voters : List Nat := []
  /-- Voters whose vote is awaited. -/
  awaited : List Nat := []
  /-- When the quiet period began. -/
  quietAt : Nat := 0
  /-- When the proposal was sent. -/
  sentAt : Nat := 0
  /-- COMMIT, as a model instant. -/
  commitAt : Nat := 0
  /-- When exit began. -/
  exitAt : Nat := 0
  /-- Exit begins when entry ends. -/
  exitPending : Bool := false
  deriving DecidableEq, Repr

/-- The stored join in the boot flash (R359). -/
structure Stored where
  /-- The member table. -/
  table : List Byte
  /-- Its envelope. -/
  env : Envelope
  /-- Member ID and role it was accepted under. -/
  member : Nat
  role : Role
  deriving DecidableEq, Repr

/-- The domain agent's state. -/
structure Dom where
  /-- JOIN. -/
  join : Join := .none
  /-- Domain ID. -/
  id : Nat := 0
  /-- Member table. -/
  members : Tbl Member := []
  /-- First 32 bytes of the SHA-384 of the table. -/
  tableDigest : Nat := 0
  /-- Config digest (R369). -/
  digest : Nat := 0
  /-- Admin key x and y, kept in the boot flash (R359). -/
  key : Option (Nat × Nat) := Option.none
  /-- Last accepted envelope sequence, kept in the boot flash. -/
  seq : Nat := 0
  /-- Stored join, kept in the boot flash. -/
  stored : Option Stored := Option.none
  /-- Incarnation count, kept in the boot flash. -/
  inc : Nat := 0
  /-- Message sequence number, 32 bits. -/
  msgSeq : Nat := 0
  /-- Messages being put together. -/
  reasm : List Reasm := []
  /-- Members. -/
  peers : Tbl Peer := []
  /-- When heartbeats were last sent. -/
  hbSentAt : Nat := 0
  /-- DUPLICATE: when a heartbeat bearing its own ID last arrived. -/
  dupAt : Option Nat := Option.none
  /-- TIME_SUSPECT. -/
  timeSuspect : Bool := true
  /-- SYNCED: the servo is locked to a master. -/
  synced : Bool := false
  /-- It has been synchronised since the last cold reset. -/
  everSynced : Bool := false
  /-- Servo offset in ns. -/
  offset : Int := 0
  /-- When the last master was heard. -/
  masterAt : Nat := 0
  /-- It has had no master for 1 s. -/
  noMaster : Bool := false
  /-- When the time-holdover flag was set. -/
  holdAt : Option Nat := Option.none
  /-- The flag has been set for 10 s. -/
  holdLong : Bool := false
  /-- Own sleep. -/
  sleep : Sleep := {}
  /-- Sleep states seen of other granaries. -/
  seen : Tbl SleepState := []
  /-- COMMIT domain times of agreed sleeps of other granaries. -/
  commits : Tbl Nat := []
  /-- Objections: function, granary (256 for LOCAL). -/
  objections : List (Nat × Nat) := []
  /-- DOM_PSEL. -/
  psel : Nat := 0
  /-- DOM_DROPS. -/
  drops : Nat := 0
  /-- DOM_FWD_TIMEOUTS. -/
  fwdTimeouts : Nat := 0
  /-- DOM_SLEEP_ABORTS. -/
  sleepAborts : Nat := 0
  deriving DecidableEq, Repr

end Sys2Proof.Machine
end

