-- ==== Sys2Proof/Machine/Types/Grn.lean ====
section
/-! DEFINITION. State of the granary role: directory, carves, maps, mirrors, failover, near-memory ring (10). -/

namespace Sys2Proof.Machine

/-- STATE of a directory entry (R295). -/
inductive BinState where
  | free | allocated | freeing | lost
  deriving DecidableEq, Repr

/-- ROLE of a directory entry. -/
inductive BinRole where
  | serving | standby | proxy
  deriving DecidableEq, Repr

/-- MSTATE of a directory entry. -/
inductive MState where
  | none | syncing | inSync | broken
  deriving DecidableEq, Repr

/-- A map slot (R295, R301, R302). -/
structure BinMap where
  /-- Member. -/
  member : Nat
  /-- WRITE. -/
  write : Bool
  /-- Expiry E in domain ns. -/
  expiry : Nat
  /-- It admits nothing more: its lease ended, or BIN_UNMAP closed it. -/
  closing : Bool := false
  /-- The BIN_UNMAP that waits for its drain. -/
  unmap : Option CmdId := .none
  /-- Its number, which the operations it admits carry (R302). -/
  num : Nat := 0
  deriving DecidableEq, Repr

/-- A directory entry (R295). -/
structure Bin where
  /-- STATE. -/
  state : BinState := .free
  /-- SIZE_LOG2. -/
  size : Nat := 0
  /-- CARVE. -/
  carve : Nat := 0
  /-- PAIR. -/
  pair : Nat := 0
  /-- GEN. -/
  gen : Nat := 0
  /-- OWNER. -/
  owner : Nat := 0
  /-- ROLE. -/
  role : BinRole := .serving
  /-- MSTATE. -/
  mstate : MState := .none
  /-- PARTNER. -/
  partner : Option Nat := Option.none
  /-- BASE. -/
  base : Nat := 0
  /-- HOME. -/
  home : Nat := 0
  /-- PARTNER_INDEX. -/
  pindex : Nat := 0
  /-- MAPS in use, at most 8. -/
  maps : List BinMap := []
  deriving DecidableEq, Repr

/-- A carve (R296). -/
structure Carve where
  /-- QUOTA, 2 MiB units. -/
  quota : Nat
  /-- MAX_LEASE. -/
  maxLease : Nat
  /-- MEMBERS. -/
  members : Nat
  deriving DecidableEq, Repr

/-- A resilver in progress or awaited (R311). -/
structure Resilver where
  /-- Bin index of the source copy. -/
  bin : Nat
  /-- Next chunk to send. -/
  next : Nat := 0
  /-- Chunk sent and not acknowledged, with its tally token. -/
  flight : Option Nat := Option.none
  /-- When the next chunk may be sent within RESILVER_RATE. -/
  due : Nat := 0
  /-- Why it runs, for RESILVER_DONE: a pair, 0xFF a reset, none MIRROR_SET. -/
  cause : Option Nat := Option.none
  deriving DecidableEq, Repr

/-- A map record of a mill (R304). -/
structure MapRec where
  /-- Handle. -/
  handle : Nat
  /-- Function that issued BIN_MAP. -/
  fn : Nat
  /-- WRITE. -/
  write : Bool
  /-- Mirrored. -/
  mirrored : Bool
  /-- Partner. -/
  partner : Nat
  /-- Local expiry, domain ns. -/
  expiry : Nat
  deriving DecidableEq, Repr

/-- A hand-back that runs at the member that serves another's home (R316). -/
structure Handback where
  /-- Home. -/
  home : Nat
  /-- Copies handed back. -/
  copies : Nat
  /-- Operations held at the entry head. -/
  held : List GReq := []
  deriving DecidableEq, Repr

/-- A command whose map change waits to be applied at the standby (R309), with what it answers. -/
structure MapWait where
  /-- The command. -/
  id : CmdId
  /-- Bin index. -/
  bin : Nat
  /-- Member of the map. -/
  member : Nat
  /-- RESULT and RESULT2. -/
  result : Nat
  result2 : Nat
  deriving DecidableEq, Repr

/-- The granary. -/
structure Grn where
  /-- Directory entries that are not at their reset value, by bin index. -/
  dir : Tbl Bin := []
  /-- READY: directory valid; admitting requests. -/
  ready : Bool := false
  /-- Carves. -/
  carves : Tbl Carve := []
  /-- Resilvers. -/
  resilvers : List Resilver := []
  /-- The mirror index: the local bin of a home bin index (R295, R309). -/
  mindex : Tbl Nat := []
  /-- Map changes on their way to the standby, oldest first (R309). -/
  mapWaits : List MapWait := []
  /-- The number of the next map. -/
  mapNum : Nat := 0
  /-- Homes served other than its own, by promotion. -/
  homes : List Nat := []
  /-- It may announce and serve its own home (R316). -/
  ownHome : Bool := false
  /-- Since when it has been UP with every other granary. -/
  upSince : Option Nat := Option.none
  /-- Another member's ANNOUNCE says that it serves this home. -/
  servedBy : Option Nat := Option.none
  /-- Hand-back in progress. -/
  handback : Option Handback := Option.none
  /-- GRN_FAILOVER_n, those valid. -/
  failover : Tbl Nat := []
  /-- Map records, oldest first, at most 16,384. -/
  recs : List MapRec := []
  /-- BIN_MAPs forwarded: submitter, domain time of submission, LEASE s, handle, function, WRITE. -/
  asked : List (CmdId × Nat) := []
  /-- Lines of the hot cache, least recently used first. -/
  hot : List Nat := []
  /-- GRN_HOT_HIT. -/
  hotHit : Nat := 0
  /-- GRN_HOT_MISS. -/
  hotMiss : Nat := 0
  /-- GRN_LEASE_LAPSES. -/
  lapses : Nat := 0
  /-- GRN_CSEL. -/
  csel : Nat := 0
  /-- GRN_DSEL. -/
  dsel : Nat := 0
  /-- GRN_NMW_BASE. -/
  nmwBase : Nat := 0
  /-- GRN_NMW_CFG. -/
  nmwCfg : Nat := 0
  /-- GRN_NMW_CBASE. -/
  nmwCbase : Nat := 0
  /-- GRN_NMW_TAIL. -/
  nmwTail : Nat := 0
  /-- GRN_NMW_HEAD. -/
  nmwHead : Nat := 0
  /-- GRN_NMW_CHEAD. -/
  nmwChead : Nat := 0
  /-- Completion entries written. -/
  nmwDone : Nat := 0
  /-- The partner has still to be asked to promote the copies of this home (R313). -/
  askPromote : Bool := false
  /-- Requests held at the port until the granary's sleep ends (R379). -/
  asleep : List GReq := []
  deriving DecidableEq, Repr

end Sys2Proof.Machine
end

