-- ==== Sys2Proof/Machine/Types/Img.lean ====
section
/-! DEFINITION. State of the stones, the loaded images and the chains (05). -/

namespace Sys2Proof.Machine

/-- The states of a stone (R180), coded as STN_STATE STATE. -/
inductive StoneState where
  | inService | fencing | fenced | testing
  deriving DecidableEq, Repr

/-- A stone that is not in service with its last BIST passed. -/
structure Stone where
  /-- State. -/
  state : StoneState := .inService
  /-- BIST_FAIL. -/
  bistFail : Bool := false
  deriving DecidableEq, Repr

/-- A STONE_FENCE that waits (R181). -/
structure FenceWait where
  /-- Its command; none for a request of the Millwright. -/
  id : Option CmdId
  /-- Stones named. -/
  stones : List Nat
  /-- Items whose yield it asked. -/
  yields : Nat
  deriving DecidableEq, Repr

/-- A STONE_REINSTATE that runs (R183). -/
structure TestRun where
  /-- Its command. -/
  id : CmdId
  /-- Stones under test. -/
  stones : List Nat
  /-- The floor, when FLOOR was set. -/
  floor : Option Nat
  /-- A stone of it failed. -/
  failed : Bool := false
  deriving DecidableEq, Repr

/-- A segment table entry (R171). -/
structure SegEntry where
  /-- SITE. -/
  site : Nat
  /-- COST. -/
  cost : Nat
  /-- REPEAT. -/
  rep : Nat
  /-- LIVE_BYTES. -/
  live : Nat
  deriving DecidableEq, Repr

/-- A binding table entry (R172). -/
structure Binding where
  /-- INDEX. -/
  index : Nat
  /-- KIND. -/
  kind : Nat
  /-- BYTES. -/
  bytes : Nat
  deriving DecidableEq, Repr

/-- A DMA template (R173). -/
structure Template where
  /-- OP. -/
  op : Nat
  /-- BINDING. -/
  binding : Nat
  /-- OFFSET. -/
  offset : Nat
  /-- LENGTH. -/
  len : Nat
  /-- SCRATCH. -/
  scratch : Nat
  /-- ROWS. -/
  rows : Nat
  /-- STRIDE. -/
  stride : Nat
  deriving DecidableEq, Repr

/-- A loaded image (R168 to R179). -/
structure Image where
  /-- Owning function. -/
  fn : Nat
  /-- The bytes in the image store. -/
  bytes : List Byte
  /-- Image store space, KiB. -/
  kib : Nat
  /-- TARGET_GANG. -/
  gang : Nat
  /-- FLAGS. -/
  flags : Nat
  /-- USE_MASK. -/
  useMask : Nat
  /-- IMAGE_VERSION, 6 bytes. -/
  version : Nat
  /-- SAVE_BYTES. -/
  saveBytes : Nat
  /-- WC. -/
  wc : Nat
  /-- ARENA_BYTES. -/
  arenaBytes : Nat
  /-- Segment table. -/
  segs : List SegEntry
  /-- Binding table. -/
  binds : List Binding
  /-- DMA templates. -/
  descs : List Template
  /-- STATIC bindings by INDEX. -/
  static : Tbl Held
  /-- Histogram bins that are not 0 (R146). -/
  hist : Tbl Nat := []
  /-- Overrun count. -/
  overruns : Nat := 0
  /-- Fault count. -/
  faults : Nat := 0
  /-- Last fault code. -/
  lastFault : Nat := 0
  /-- Unplaceable count. -/
  unplaceable : Nat := 0
  deriving DecidableEq, Repr

/-- A bound chain (R177). -/
structure Chain where
  /-- Owning function. -/
  fn : Nat
  /-- Images of its stages. -/
  images : List Nat
  /-- CHAIN bindings by INDEX. -/
  held : Tbl Held
  /-- Bin handles of BIN bindings by INDEX. -/
  bins : Tbl Nat
  /-- Arena bytes. -/
  arena : Nat
  deriving DecidableEq, Repr

/-- An IMAGE_LOAD whose checks wait for their turn on a check engine (R175, R353). -/
structure Loading where
  /-- Its command. -/
  id : CmdId
  /-- Engine. -/
  engine : Nat
  /-- The image. -/
  bytes : List Byte
  /-- The load binding block. -/
  block : List Nat
  deriving DecidableEq, Repr

/-- Stones, images, chains. -/
structure Stn where
  /-- Stones that are not in service with their BIST passed. -/
  stones : Tbl Stone := []
  /-- Floors fenced with FLOOR. -/
  floorFence : Nat := 0
  /-- Fences that wait. -/
  fences : List FenceWait := []
  /-- Reinstatements that run. -/
  tests : List TestRun := []
  /-- Loaded images. -/
  images : Tbl Image := []
  /-- Bound chains. -/
  chains : Tbl Chain := []
  /-- IMAGE_LOADs that wait on their check engine. -/
  loading : List Loading := []
  /-- STN_SEL. -/
  sel : Nat := 0
  /-- STN_FAULT_LAST. -/
  faultLast : Nat := 0
  /-- STN_FAULT_COUNT. -/
  faultCount : Nat := 0
  /-- STN_FAULT_CTX. -/
  faultCtx : Nat := 0
  deriving DecidableEq, Repr

end Sys2Proof.Machine
end

