-- ==== Sys2Proof/Machine/Types/Mwr.lean ====
section
/-! DEFINITION. State of the budget, the boot flashes, the Millwright and the tray steward (00, 15). -/

namespace Sys2Proof.Machine

/-- One programmed slot of a budgeted setting (R16): its value and whether its programming verified. -/
structure BudSlot where
  /-- Value. -/
  value : Nat
  /-- Programming verified. -/
  ok : Bool
  deriving DecidableEq, Repr

/-- A record of the budget attempt log (R17). -/
structure Attempt where
  /-- Setting code (R425). -/
  setting : Nat
  /-- Requested value. -/
  value : Nat
  /-- Authority class. -/
  auth : Nat
  /-- Outcome. -/
  outcome : Status
  /-- Time. -/
  time : Nat
  /-- Time is an AO tick count. -/
  ticks : Bool
  deriving DecidableEq, Repr

/-- The cleared-role record of R6: the role memory was last cleared for, and whether its check value holds. -/
structure ClearedRole where
  /-- Role. -/
  role : Role
  /-- Check value holds. -/
  ok : Bool
  deriving DecidableEq, Repr

/-- A boot pointer record (R419). -/
structure Pointer where
  /-- Sequence number, 32 bits. -/
  seq : Nat
  /-- Active slot. -/
  slot : Nat
  deriving DecidableEq, Repr

/-- The budget and the two boot flashes (R4, R6, R419). -/
structure Store where
  /-- Role slots. -/
  role : List BudSlot := [⟨1, true⟩]
  /-- Member ID slots. -/
  member : List BudSlot := []
  /-- Steward enable slots. -/
  steward : List BudSlot := []
  /-- Anti-rollback security version slots. -/
  svn : List BudSlot := [⟨1, true⟩]
  /-- Brake response class slots. -/
  brake : List BudSlot := []
  /-- Budget attempt log, oldest first (R17). -/
  attempts : List Attempt := []
  /-- Cleared-role record. -/
  cleared : Option ClearedRole := some ⟨.mill, true⟩
  /-- Pointer record A, when valid. -/
  ptrA : Option Pointer := some ⟨0, 0⟩
  /-- Pointer record B, when valid. -/
  ptrB : Option Pointer := none
  /-- Primary slot 0. -/
  slot0 : FwImage := {}
  /-- Primary slot 1. -/
  slot1 : FwImage := { magic := false }
  /-- Golden slot 0. -/
  golden : FwImage := {}
  /-- The golden flash is write-protected. -/
  goldenWp : Bool := true
  deriving DecidableEq, Repr

/-- What the Millwright runs: MWR_STATUS STATE (R445). -/
inductive MwState where
  | reset | rom | primary | golden | recovery
  deriving DecidableEq, Repr

/-- The command journal (R431). -/
structure Journal where
  /-- ORIGIN and TAG. -/
  id : CmdId
  /-- The stored outcome once DONE. -/
  done : Option Completion
  /-- Attempts logged when the entry was STARTED, and the sequence number of the pointer record then in force. -/
  attempts : Nat := 0
  ptr : Option Nat := none
  deriving DecidableEq, Repr

/-- The staging session (R423). -/
structure Staging where
  /-- Its owner. -/
  owner : Origin
  /-- The image so far. -/
  image : List Byte
  deriving DecidableEq, Repr

/-- A golden copy that runs (R424). -/
structure GoldenCopy where
  /-- Its command. -/
  id : CmdId
  /-- When it began. -/
  since : Nat
  /-- The image copied. -/
  image : FwImage
  deriving DecidableEq, Repr

/-- States of a tray position (R438). -/
inductive PosState where
  | absent | unverified | verifying | healthy | reflashing | givenUp | failed
  deriving DecidableEq, Repr

/-- A tray position (R436 to R440). -/
structure Position where
  /-- State. -/
  state : PosState := .absent
  /-- Primary code. -/
  primary : Nat := 0
  /-- Golden code. -/
  golden : Nat := 0
  /-- Logged attempt times in AO ticks, newest first, at most 3 (R439). -/
  attempts : List Nat := []
  /-- When SLOT_PRSNT_N last went low. -/
  presentAt : Option Nat := none
  /-- When its last verification ended. -/
  verifiedAt : Option Nat := none
  /-- Its Millwright has acknowledged RELEASE. -/
  released : Bool := false
  /-- Its Millwright is in recovery mode. -/
  recovery : Bool := false
  /-- Security version in force it reported. -/
  svn : Option Nat := none
  /-- The image a re-flash of the primary's active slot writes. -/
  flashPrimary : Option FwImage := none
  /-- The image a re-flash of golden slot 0 writes. -/
  flashGolden : Option FwImage := none
  /-- TRAY_VERIFY commands that wait for its end. -/
  waiters : List CmdId := []
  deriving DecidableEq, Repr

/-- The Millwright, its hold-domain log and the steward (15). -/
structure Mwr where
  /-- What runs. -/
  st : MwState := .reset
  /-- In WFI (R399). -/
  wfi : Bool := false
  /-- The mode that WFI acts under (R399). -/
  wfiMode : Nat := 0
  /-- An uncorrectable SRAM word has stopped both cores; the watchdog runs on (R220). -/
  halted : Bool := false
  /-- HEARTBEAT. -/
  heartbeat : Nat := 0
  /-- When the firmware began to run. -/
  bootAt : Nat := 0
  /-- When the last management reset began, and its cause. -/
  resetAt : Nat := 0
  /-- The cause of that reset (R44). -/
  cause : Nat := 1
  /-- PRIMARY result code. -/
  primary : Nat := 0
  /-- GOLDEN result code. -/
  golden : Nat := 0
  /-- SLOT. -/
  slot : Nat := 0
  /-- SVN of the image that runs. -/
  svn : Nat := 0
  /-- Version of the image that runs: patch [15:0], minor [31:16], major [47:32]. -/
  fwVer : Nat := 0
  /-- SPI_MW_* is at high impedance (R422, R440). -/
  spiFloat : Bool := false
  /-- MWR_LOCKSTEP COUNT. -/
  lockCount : Nat := 0
  /-- MWR_LOCKSTEP CLASS. -/
  lockClass : Nat := 0
  /-- Watchdog period, ms. -/
  wdtMs : Nat := 250
  /-- Watchdog expiries. -/
  wdtExpiries : Nat := 0
  /-- When the watchdog was last restarted. -/
  kickAt : Nat := 0
  /-- MWR_PWRMODE MODE. -/
  pwrmode : Nat := 0
  /-- CTL_RESET_ON_LOSS. -/
  resetOnLoss : Bool := false
  /-- Command journal. -/
  journal : Option Journal := none
  /-- Staging session. -/
  staging : Option Staging := none
  /-- Golden copy in progress. -/
  copying : Option GoldenCopy := none
  /-- Own flashes released over the sideband, since when (R436). -/
  releasedAt : Option Nat := none
  /-- When the Wheelhouse heartbeat was last seen. -/
  hbSeen : Nat := 0
  /-- Sequence of that heartbeat. -/
  hbSeq : Nat := 0
  /-- CTL_HEARTBEAT_LOST has been raised for this loss. -/
  hbLost : Bool := false
  /-- Sequence of the next Wheelhouse heartbeat, and when the last was sent. -/
  whlSeq : Nat := 0
  /-- When the Wheelhouse last sent its heartbeat. -/
  whlAt : Nat := 0
  /-- The firmware has not run since the last cold reset. -/
  coldBoot : Bool := true
  /-- Restarted firmware has yet to drain DAT_TO_MW before it goes on with CTL_TO_MW (R418). -/
  draining : Bool := false
  /-- Headroom grants are allowed (GRANT_POLICY). -/
  grants : Bool := true
  /-- Acting as tray steward (R434). -/
  steward : Bool := false
  /-- The steward's own position (SLOT_SELF). -/
  self : Option Nat := none
  /-- Tray positions. -/
  pos : Tbl Position := []
  deriving DecidableEq, Repr

/-- The firmware has been started: not in reset, ROM or recovery, and not in the WFI of mode 2 (R399, R418). -/
def Mwr.booted (m : Mwr) : Bool :=
  (decide (m.st = .primary) || decide (m.st = .golden)) && !(m.wfi && decide (m.wfiMode = 2))

/-- The firmware runs and takes messages. -/
def Mwr.running (m : Mwr) : Bool := m.booted && !m.halted

/-- Forwarded commands are executed, by the firmware or by the ROM's recovery mode (R422). -/
def Mwr.serves (m : Mwr) : Bool := m.running || (decide (m.st = .recovery) && !m.halted)

end Sys2Proof.Machine
end

