-- ==== Sys2Proof/Machine/Types/Out.lean ====
section
/-! DEFINITION. What the block sends out: the model's own record of it (log entry 4). -/

namespace Sys2Proof.Machine

/-- The body of a message the device sends (R361). -/
inductive DomBody where
  /-- HEARTBEAT. -/
  | heartbeat (b : HbBody)
  /-- SUSPECT: member, ms since its last heartbeat. -/
  | suspect (member msSince : Nat)
  /-- ANNOUNCE: role and the homes served. -/
  | announce (role : Nat) (homes : List Nat)
  /-- LEAVE. -/
  | leave (force : Bool)
  /-- COMMAND: sender function, packet, envelope, and the member table of a DOMAIN_JOIN. -/
  | command (fn : Nat) (pkt : List Word) (env : Option Envelope) (table : List Byte)
  /-- REPLY: sender function and completion. -/
  | reply (fn : Nat) (k : Completion)
  /-- NOTICE, by its code and four values. -/
  | notice (code a b c d : Nat)
  /-- SLEEP_PROPOSE. -/
  | sleepPropose (n : Nat)
  /-- SLEEP_VOTE: proposal number, and 1 YES, 0 NO; 2 carries the wake of SLEEP_VOTE WAKE (log entry 52). -/
  | sleepVote (n value : Nat)
  /-- SLEEP_AGREED. -/
  | sleepAgreed (n commit : Nat)
  /-- SLEEP_ABORT. -/
  | sleepAbort (n : Nat)
  /-- SLEEP_AWAKE. -/
  | sleepAwake
  deriving DecidableEq, Repr

/-- A transport packet or message the RDMA engine sends (R271, R280, R286). -/
inductive Packet where
  /-- A request: OP, first PSN, REMOTE_ADDR, REMOTE_KEY, LENGTH, immediate, STALL, poison bit (R306) and data. -/
  | request (op psn addr key len : Nat) (imm : Option Nat) (stall poison : Bool) (data : List Byte)
  /-- The response to a READ. -/
  | response (psn : Nat) (data : List Byte)
  /-- ACK. -/
  | ack (psn : Nat)
  /-- A standard NAK. -/
  | nak (psn code : Nat)
  /-- A status NAK (R280): code and DETAIL. -/
  | statusNak (psn code detail : Nat)
  /-- RNR NAK with its timer code. -/
  | rnr (psn timer : Nat)
  /-- CNP. -/
  | cnp
  deriving DecidableEq, Repr

/-- What a packet of a QP travels in (R240, R241, R251, R266). -/
inductive PktHdr where
  /-- A Flume port and the virtual channel of its traffic; the packet goes from its base transport header on (R250). -/
  | flume (port vc : Nat)
  /-- An Ethernet frame of RoCEv2, its ICRC generated: port, source MAC address, the VID of its one 802.1Q tag, IPv6 or IPv4 to a
  GID with a traffic class, the UDP ports, the ECN field, and the instant from which its priority is not paused. -/
  | roce (port mac : Nat) (vlan : Option Nat) (ip6 : Bool) (gid tclass udpSrc udpDst ecn from_ : Nat)
  deriving DecidableEq, Repr

/-- One thing the block sent out. -/
inductive Output where
  /-- A write of bytes to bus memory with the PCIe requester ID of a function (R194). -/
  | hostWrite (fn addr : Nat) (data : List Byte)
  /-- A CQ entry written for a function: address and the 16 bytes (R53, R54). -/
  | completion (fn addr : Nat) (entry : List Byte)
  /-- An MSI-X message: function and vector (R63). -/
  | msix (fn vector : Nat)
  /-- The data answered to a read over the bus, the sideband or a FETCH, and whether it is marked poisoned (R191). -/
  | answer (data : List Byte) (poisoned : Bool)
  /-- A domain message to a member: its sequence number, the link or the UDP port, address and destination port it goes by, and its
  fragments as they are sent (R361, R362). -/
  | message (to_ seq : Nat) (via : Source) (b : DomBody) (frags : List (List Byte))
  /-- An operation on a bin posted on the HOPPER_QP of its granary (R319, R209): QP, handle, offset, length, and the data of a
  write with the poison of each byte. -/
  | binOp (qpn : Option Nat) (handle offset len : Nat) (data : Option (List (Byte × Bool)))
  /-- A transport packet of a QP, with what it travels in. -/
  | packet (qpn : Nat) (h : PktHdr) (p : Packet)
  /-- The parameters a Flume port sends its peer: member ID, role, Flume version, the credits of each VC in units of 4 flits,
  and its loop marker (R252, R263). -/
  | params (port member role version : Nat) (alloc : List Nat) (marker : Nat)
  /-- The peer's loop marker sent back (R263). -/
  | loopEcho (port marker : Nat)
  /-- Traffic of mirrored bins on MIRROR_QP (R310 to R312): what it is (0 forwarded write, 1 acknowledgement, 2 resilver
  chunk, 3 its acknowledgement, 4 a PROXY request), handle, offset, and data. -/
  | mirror (kind handle offset len : Nat) (data : List (Byte × Bool))
  /-- A flit sent on a Flume port: the four lane chunks of 64 bytes (R246, R247). -/
  | flit (port : Nat) (lanes : List (List Byte))
  /-- A packet a Flume port hands up whole: its KIND and body (R250). -/
  | handed (port kind : Nat) (body : List Byte)
  /-- A PTP message with its corrected receive timestamp, in 1/16 ns, given to the servo (R251, R372). -/
  | ptp (port : Nat) (stamp : Int)
  /-- The device's in-band interrupt on the sideband (R440). -/
  | ibi
  /-- The steward's ENTDAA: position and the dynamic address it gets (R440). -/
  | entdaa (position address : Nat)
  /-- A STALL handshake on USB (R441). -/
  | usbStall
  deriving DecidableEq, Repr

end Sys2Proof.Machine
end

