-- ==== Sys2Proof/Machine/Types/Prt.lean ====
section
/-! DEFINITION. State of the fabric ports and the Flume links (08). -/

namespace Sys2Proof.Machine

/-- Port modes (R236). -/
inductive PortMode where
  | disabled | ethernet | flume
  deriving DecidableEq, Repr

/-- Port states (R262, R266); RETRY is UP with an episode of retry. -/
inductive PortState where
  | down | training | param | up | hold | failed
  deriving DecidableEq, Repr

/-- A DATA flit: its virtual channel, START and 240 payload bytes (R247, R248). -/
structure FlitBody where
  /-- VC. -/
  vc : Nat
  /-- START. -/
  start : Nat
  /-- Payload. -/
  data : List Byte
  deriving DecidableEq, Repr

/-- A flit of the replay buffer (R253, R256). -/
structure Sent where
  /-- The flit. -/
  body : FlitBody
  /-- When it was last replayed. -/
  replayedAt : Option Nat := none
  deriving DecidableEq, Repr

/-- A missing sequence number of the receiver's set M (R254, R255). -/
structure Missing where
  /-- Sequence number. -/
  seq : Nat
  /-- Failure count. -/
  fails : Nat
  /-- When it was last NAK'd, or none when a NAK is due. -/
  nakAt : Option Nat
  deriving DecidableEq, Repr

/-- The byte stream of a virtual channel at the receiver (R250): the packet being collected. -/
structure RxStream where
  /-- Bytes collected of the packet in progress. -/
  part : List Byte := []
  /-- Flits in the receive buffer. -/
  used : Nat := 0
  /-- Flits freed since link-up. -/
  freed : Nat := 0
  deriving DecidableEq, Repr

/-- The sender's side of a virtual channel (R251, R252). -/
structure TxStream where
  /-- Packets waiting, each whole with its header; the first may be partly sent (log entry 61). -/
  queue : List (List Byte) := []
  /-- Bytes of the first packet already sent. -/
  sent : Nat := 0
  /-- Credits held. -/
  avail : Nat := 0
  /-- Credits advertised by the peer. -/
  advert : Nat := 0
  /-- Last CR_TOTAL. -/
  total : Nat := 0
  deriving DecidableEq, Repr

/-- A Flume link's state (R246 to R259, R266). -/
structure Flm where
  /-- FLM_VC_ALLOC, in units of 4 flits. -/
  alloc : List Nat := [32, 48, 8, 8]
  /-- The allocation in force since training. -/
  allocNow : List Nat := [32, 48, 8, 8]
  /-- FLM_PEER MEMBER. -/
  peer : Nat := 0
  /-- FLM_PEER ROLE. -/
  peerRole : Nat := 0
  /-- FLM_PEER VERSION. -/
  peerVer : Nat := 0
  /-- FLM_PEER VALID. -/
  valid : Bool := false
  /-- FLM_LOOP. -/
  loop : Nat := 0
  /-- FLM_BAD_FLITS. -/
  bad : Nat := 0
  /-- FLM_REPLAYS. -/
  replays : Nat := 0
  /-- FLM_RETRY_MAX. -/
  retryMax : Nat := 0
  /-- FLM_HELD_MAX. -/
  heldMax : Nat := 0
  /-- FLM_ERR. -/
  err : Nat := 0
  /-- Next sequence number to send. -/
  txSeq : Nat := 0
  /-- Replay buffer, oldest first, with sequence numbers. -/
  buffer : List (Nat × Sent) := []
  /-- Sequence numbers to be replayed next. -/
  toReplay : List Nat := []
  /-- CR_VC of the next flit. -/
  crVc : Nat := 0
  /-- Slots, replays among them, since VC3 was last served while it waits (log entry 111). -/
  vc3Wait : Nat := 0
  /-- Sending side of each VC. -/
  tx : Tbl TxStream := []
  /-- N (R254). -/
  n : Nat := 0
  /-- M, lowest first (R254). -/
  m : List Missing := []
  /-- The number rule 2 added at the last arrival, which rule 3 may withdraw. -/
  lastBad : Option Nat := none
  /-- Reorder window. -/
  held : Tbl FlitBody := []
  /-- Receiving side of each VC. -/
  rx : Tbl RxStream := []
  /-- When the episode of retry began (R257). -/
  retryAt : Option Nat := none
  /-- When the first NAK of the episode was sent or received (R265). -/
  nakFirst : Option Nat := none
  /-- The replayed numbers that ACK_SEQ has not yet passed. -/
  replayed : List Nat := []
  /-- When the last 1,001 bad flits arrived, oldest first (R259). -/
  badAt : List Nat := []
  /-- When FLUME_DEGRADED was last raised and not yet re-armed. -/
  degraded : Option Nat := none
  deriving DecidableEq, Repr

/-- A fabric port (R236, R262, R266). -/
structure Port where
  /-- Mode. -/
  mode : PortMode := .disabled
  /-- State. -/
  state : PortState := .down
  /-- When it entered that state. -/
  since : Nat := 0
  /-- When training attempts failed, newest first. -/
  failedAt : List Nat := []
  /-- Reason of the last failed attempt (R265). -/
  failReason : Nat := 0
  /-- PRT_LANE_CFG. -/
  laneCfg : Nat := 0x100
  /-- PRT_ETH_CFG. -/
  ethCfg : Nat := 0
  /-- PRT_FEC_CORR. -/
  fecCorr : Nat := 0
  /-- PRT_FEC_UNC. -/
  fecUnc : Nat := 0
  /-- PRT_DROPS. -/
  drops : Nat := 0
  /-- PRT_TS_ASYM. -/
  tsAsym : Nat := 0
  /-- When the pause of each priority ends (R240). -/
  paused : Tbl Nat := []
  /-- PRT_DOWN_LAST CAUSE. -/
  downCause : Nat := 0
  /-- PRT_DOWN_LAST SEQ. -/
  downSeq : Nat := 0
  /-- PRT_DOWN_LAST COUNT. -/
  downCount : Nat := 0
  /-- The Flume link. -/
  flm : Flm := {}
  deriving DecidableEq, Repr

/-- The eight ports. -/
structure Prt where
  /-- Ports by number; a port not listed is at its reset value. -/
  ports : Tbl Port := []
  deriving DecidableEq, Repr

end Sys2Proof.Machine
end

