-- ==== Sys2Proof/Machine/Types/Pwr.lean ====
section
/-! DEFINITION. State of the power domains, device states, wake, rails and status pins (14, 18). -/

namespace Sys2Proof.Machine

/-- Level of a power domain (R386). -/
inductive Level where
  | off | retain | gated | active
  deriving DecidableEq, Repr

/-- The device states of PWR_STATE (R414), and WAKE_FAILED (R404). -/
inductive DevState where
  | run | idle | sleep | deepSleep | off | entering | exiting | wakeFailed
  deriving DecidableEq, Repr

/-- A target of POWER_STATE (R397). -/
inductive Target where
  | run | sleep | deepSleep | off
  deriving DecidableEq, Repr

/-- A power domain (R386, R390); of one that takes no votes only the time of its last change is kept here. -/
structure PDom where
  /-- Level. -/
  level : Level := .off
  /-- When it last changed level. -/
  since : Nat := 0
  /-- Host votes by function. -/
  host : List Nat := []
  /-- When the prewake vote ends (R390). -/
  prewake : Option Nat := none
  /-- Millwright vote. -/
  mw : Bool := false
  /-- Domain-agent vote. -/
  agent : Bool := false
  /-- When the access vote ends. -/
  access : Option Nat := none
  /-- When its last vote cleared (R391). -/
  clearAt : Option Nat := none
  /-- When a wake of it began (R393). -/
  wakeAt : Option Nat := none
  /-- POWER_VOTE commands that wait for it. -/
  waiters : List CmdId := []
  deriving DecidableEq, Repr

/-- Entry to a sleep state in progress (R400). -/
structure Entry where
  /-- Target. -/
  target : Target
  /-- When POWER_STATE was accepted. -/
  since : Nat
  /-- Fetch has stopped. -/
  stopped : Bool := false
  /-- When the power notice was sent. -/
  noticeAt : Option Nat := none
  /-- The sequencer has begun step 4: the Millwright is in WFI, or SLEEP needs no wait. -/
  committed : Bool := false
  /-- A wake that arrived after rails began to go. -/
  wake : Option Nat := none
  /-- Entry began in SLEEP. -/
  fromSleep : Bool := false
  deriving DecidableEq, Repr

/-- What the sequencer waits for (R404, R498). -/
inductive SeqWait where
  /-- Nothing: rails are as the state has them. -/
  | idle
  /-- The RAIL_PG of the enable asserted last. -/
  | pg (rail : Nat)
  /-- The 100 µs between a RAIL_PG and the enable of the rail named. -/
  | gap (rail : Nat)
  /-- XTAL_MW to be ready. -/
  | xtal
  /-- PLL lock. -/
  | pll
  /-- The 10 ms pause before the second attempt. -/
  | pause
  deriving DecidableEq, Repr

/-- Power, rails, clocks and status pins. -/
structure Pwr where
  /-- Device state. -/
  state : DevState := .off
  /-- Target (R397). -/
  target : Target := .run
  /-- Domains by index; one not listed is at its reset value. -/
  doms : Tbl PDom := []
  /-- Entry in progress. -/
  entry : Option Entry := none
  /-- Instant the AO wake timer expires. -/
  wakeTimer : Option Nat := none
  /-- PWR_AO_RET. -/
  aoRet : Nat := 0x0F
  /-- Last wake source: code. -/
  wakeSrc : Nat := 0
  /-- Its time is domain time. -/
  wakeValid : Bool := false
  /-- FROM_OFF. -/
  wakeFromOff : Bool := false
  /-- Its time. -/
  wakeTime : Nat := 0
  /-- PWR_WAKE_FAIL cause. -/
  failCause : Nat := 0
  /-- WAKE_FAILED entered. -/
  failEntered : Bool := false
  /-- Failed attempts since VDD_AO_IN rose, saturating at 15. -/
  failCount : Nat := 0
  /-- Failed attempts of the present wake. -/
  tries : Nat := 0
  /-- What the sequencer waits for, and since when. -/
  wait : SeqWait := .idle
  /-- Since when. -/
  waitAt : Nat := 0
  /-- The lowest rail of this attempt: 0 at a cold reset or from OFF, 2 from DEEP_SLEEP. -/
  firstRail : Nat := 0
  /-- RAIL_EN_0..7. -/
  railEn : List Bool := [false, false, false, false, false, false, false, false]
  /-- RAIL_PG_0..7. -/
  railPg : List Bool := [false, false, false, false, false, false, false, false]
  /-- Rails being removed: the rail whose enable fell last, the lowest to go, and since when (R499). -/
  falling : Option (Nat × Nat × Nat) := none
  /-- The bring-up or exit in progress is a cold reset. -/
  cold : Bool := false
  /-- VDD_AO_IN is present. -/
  aoIn : Bool := true
  /-- The bring-up in progress is a wake. -/
  waking : Bool := false
  /-- A PERST_N wake: the warm reset follows once the device is in RUN. -/
  warmAfter : Bool := false
  /-- WAKE_FAIL_N is low. -/
  wakeFailN : Bool := false
  /-- XTAL_MW is ready. -/
  xtal : Bool := false
  /-- The PLLs are locked. -/
  pll : Bool := false
  /-- The AO domain runs from XTAL_AO (R504). -/
  xtalAo : Bool := false
  /-- The AO regulator is in low-power mode. -/
  aoLow : Bool := false
  /-- PERST_N is asserted. -/
  perst : Bool := true
  /-- The PCIe endpoint may train. -/
  endpoint : Bool := false
  /-- STEWARD as sampled (R505). -/
  strap : Bool := false
  /-- When the headroom grant lapses. -/
  grant : Option Nat := none
  /-- The stone clock runs at 2.00 GHz. -/
  boost : Bool := false
  /-- The thermal sensor forces the nominal clock. -/
  thermal : Bool := false
  /-- THERM_ALERT_N is low. -/
  alert : Bool := false
  /-- VDD_CORE set point in mV (R497). -/
  vcore : Nat := 750
  /-- PWR_VSEL. -/
  vsel : Nat := 0
  /-- PWR_RCAUSE_SEL. -/
  rcauseSel : Nat := 0
  /-- PWR_FLOOR_WAKES. -/
  floorWakes : Nat := 0
  /-- PWR_STALL_MAX: ns and domain. -/
  stallMax : Nat := 0
  stallDom : Nat := 0
  deriving DecidableEq, Repr

/-- Whether the Wheelhouse executes commands and evaluates cogs in this state (R387). -/
def Pwr.awake (p : Pwr) : Bool := decide (p.state = .run ∨ p.state = .idle ∨ p.state = .entering)

end Sys2Proof.Machine
end

