-- ==== Sys2Proof/Machine/Types/Rdm.lean ====
section
/-! DEFINITION. State of the RDMA engine: queue pairs, completion queues, keys and windows (09, and R242, R243 of 08). -/

namespace Sys2Proof.Machine

/-- The states of a QP (R284), coded as RDM_QSTATE STATE; DRAINED is DRAIN entered by command with nothing sent left. -/
inductive QpState where
  | reset | init | rtr | rts | drain | error
  deriving DecidableEq, Repr

/-- A send work request fetched and not yet completed (R271, R286). -/
structure Wr where
  /-- OP. -/
  op : Nat
  /-- FLAGS. -/
  flags : Nat
  /-- IMM. -/
  imm : Nat
  /-- WR_ID. -/
  wrId : Nat
  /-- LENGTH. -/
  len : Nat
  /-- REMOTE_ADDR. -/
  remote : Nat
  /-- REMOTE_KEY. -/
  key : Nat
  /-- Local buffer (R272). -/
  held : Held
  /-- Request number of the QP, counted from 0. -/
  num : Nat
  /-- First PSN and PSNs it takes. -/
  psn : Nat
  npsn : Nat
  /-- Bytes of a READ that have landed. -/
  landed : Nat := 0
  /-- End-to-end check failures (R288). -/
  e2e : Nat := 0
  /-- Model instant of its doorbell (R476). -/
  rung : Nat
  /-- Data of a SEND or WRITE, kept for a retransmission. -/
  data : List (Byte × Bool) := []
  deriving DecidableEq, Repr

/-- A receive entry fetched (R271, R272). -/
structure RecvWr where
  /-- WR_ID. -/
  wrId : Nat
  /-- LENGTH. -/
  len : Nat
  /-- Buffer. -/
  held : Held
  /-- Its number in its ring, counted from 0. -/
  num : Nat
  deriving DecidableEq, Repr

/-- A port move that drains (R285). -/
structure Move where
  /-- Its command. -/
  id : CmdId
  /-- New port. -/
  port : Nat
  /-- New GID. -/
  gid : Nat
  /-- When it began. -/
  since : Nat
  deriving DecidableEq, Repr

/-- A queue pair (R279, R282 to R286). -/
structure Qp where
  /-- Owning function. -/
  fn : Nat
  /-- ADDR_MODE. -/
  mode : Nat
  /-- Bound port. -/
  port : Nat
  /-- ASID. -/
  asid : Nat
  /-- SEND_CQ and RECV_CQ. -/
  sendCq : Nat
  recvCq : Nat
  /-- SRQ, with USE_SRQ. -/
  srq : Option Nat
  /-- k of the send and receive queues. -/
  sk : Nat
  rk : Nat
  /-- Rings. -/
  sring : Held
  rring : Option Held
  /-- State. -/
  state : QpState := .reset
  /-- REMOTE_MEMBER. -/
  member : Nat := 0
  /-- REMOTE_QPN. -/
  rqpn : Nat := 0
  /-- Next PSN expected. -/
  rqPsn : Nat := 0
  /-- Next PSN to send. -/
  sqPsn : Nat := 0
  /-- TIMEOUT n. -/
  timeout : Nat := 0
  /-- RETRY_CNT and RNR_RETRY. -/
  retryCnt : Nat := 0
  rnrRetry : Nat := 0
  /-- MIN_RNR_TIMER. -/
  minRnr : Nat := 0
  /-- MAX_RD and MAX_RD_DEST. -/
  maxRd : Nat := 1
  maxRdDest : Nat := 1
  /-- Remote GID and traffic class. -/
  gid : Nat := 0
  tclass : Nat := 0
  /-- Producer and consumer indexes of the send and receive rings. -/
  sprod : Nat := 0
  scons : Nat := 0
  rprod : Nat := 0
  rcons : Nat := 0
  /-- Requests sent and not acknowledged, oldest first. -/
  sent : List Wr := []
  /-- Send entries posted and not yet begun, oldest first: the instant of the doorbell and the 64 bytes. -/
  posted : List (Nat × List Byte) := []
  /-- Receive entries posted and not yet fetched. -/
  rposted : List (List Byte) := []
  /-- Receive entries fetched, oldest first. -/
  recvs : List RecvWr := []
  /-- Next request number. -/
  num : Nat := 0
  /-- ACK retries and RNR retries of the oldest request. -/
  retries : Nat := 0
  rnrs : Nat := 0
  /-- When the local ACK timer was last started. -/
  ackAt : Option Nat := none
  /-- When a running RNR timer ends, and when it was started. -/
  rnrAt : Option Nat := none
  rnrSet : Nat := 0
  /-- LAST_STATUS. -/
  last : Nat := 0
  /-- A port move. -/
  move : Option Move := none
  /-- Bytes of an inbound SEND that have landed. -/
  inBytes : Nat := 0
  /-- Check failures since the last E2E_MISMATCH, and when it was raised. -/
  e2eNew : Nat := 0
  e2eAt : Option Nat := none
  /-- Messages received, for the MSN of its acknowledgements. -/
  msn : Nat := 0
  /-- Send rate in bit/s (R243). -/
  rate : Nat := 400000000000
  /-- When its CC_PERIOD began: the last cut or rise of the rate. -/
  ccAt : Nat := 0
  /-- The remote address of the next payload byte of a WRITE that arrives over a Flume port (R287). -/
  inAddr : Nat := 0
  /-- The remote address of the next payload byte of a WRITE it sends over a Flume port (R287). -/
  outAddr : Nat := 0
  /-- The READs it answered last, newest first: first PSN, PSNs, fold address of the first response (R287). -/
  served : List (Nat × Nat × Nat) := []
  /-- When a CNP was last sent for it. -/
  cnpAt : Option Nat := none
  deriving DecidableEq, Repr

/-- An RDMA completion queue (R274, R275). -/
structure RCq where
  /-- Owning function. -/
  fn : Nat
  /-- k. -/
  k : Nat
  /-- Ring. -/
  ring : Held
  /-- MSI-X vector. -/
  vector : Nat
  /-- EVENTQ. -/
  eventq : Bool
  /-- Entries written. -/
  prod : Nat := 0
  /-- Entries released. -/
  cons : Nat := 0
  /-- Armed. -/
  armed : Bool := false
  /-- In ERROR. -/
  error : Bool := false
  /-- Events dropped and not yet told. -/
  dropped : Nat := 0
  deriving DecidableEq, Repr

/-- A shared receive queue (R276). -/
structure Srq where
  /-- Owning function. -/
  fn : Nat
  /-- k. -/
  k : Nat
  /-- Ring. -/
  ring : Held
  /-- ASID. -/
  asid : Nat
  /-- CQ. -/
  cq : Nat
  /-- Limit. -/
  limit : Nat
  /-- Producer and consumer indexes. -/
  prod : Nat := 0
  cons : Nat := 0
  /-- Entries posted and not yet fetched. -/
  posted : List (List Byte) := []
  /-- Entries fetched. -/
  recvs : List RecvWr := []
  deriving DecidableEq, Repr

/-- A memory key (R277). -/
structure MemKey where
  /-- Owning function. -/
  fn : Nat
  /-- VA. -/
  va : Nat
  /-- LENGTH. -/
  len : Nat
  /-- REMOTE_READ. -/
  rd : Bool
  /-- REMOTE_WRITE. -/
  wr : Bool
  /-- TAG. -/
  tag : Nat
  /-- ASID. -/
  asid : Nat
  deriving DecidableEq, Repr

/-- A window of a granary (R281). -/
structure Window where
  /-- Owning function. -/
  fn : Nat
  /-- TAG. -/
  tag : Nat
  /-- MEMBER; none for ANY_MEMBER. -/
  member : Option Nat
  /-- Handle and offset of each 2 MiB. -/
  entries : List (Nat × Nat)
  deriving DecidableEq, Repr

/-- The RDMA engine. -/
structure Rdm where
  /-- QPs by number. -/
  qps : Tbl Qp := []
  /-- CQs. -/
  cqs : Tbl RCq := []
  /-- SRQs. -/
  srqs : Tbl Srq := []
  /-- Keys by index. -/
  keys : Tbl MemKey := []
  /-- Windows. -/
  windows : Tbl Window := []
  /-- RDM_QSEL. -/
  qsel : Nat := 0
  /-- RDM_E2E_ERR. -/
  e2eErr : Nat := 0
  /-- RDM_E2E_LAST. -/
  e2eLast : Nat := 0
  /-- RDM_ICRC_ERR. -/
  icrcErr : Nat := 0
  /-- NAKs sent. -/
  naksSent : Nat := 0
  /-- Status NAKs received. -/
  naksRecv : Nat := 0
  /-- RDM_EQ_DROPS. -/
  eqDrops : Nat := 0
  /-- RDM_DB_REFUSED. -/
  dbRefused : Nat := 0
  deriving DecidableEq, Repr

end Sys2Proof.Machine
end

