-- ==== Sys2Proof/Machine/Types/Tly.lean ====
section
/-! DEFINITION. State of the bin tally (11). -/

namespace Sys2Proof.Machine

/-- The states of a record (R330), coded as TLY_STATE STATE. -/
inductive TallyState where
  | clear | occupied | disturbed | sweepPending | sweeping
  deriving DecidableEq, Repr

/-- The counts of one channel (R323), in true form. -/
structure Counts where
  /-- OPS_IN. -/
  opsIn : Nat := 0
  /-- OPS_OUT. -/
  opsOut : Nat := 0
  /-- MAPS_IN. -/
  mapsIn : Nat := 0
  /-- MAPS_OUT. -/
  mapsOut : Nat := 0
  deriving DecidableEq, Repr

/-- A tally record. -/
structure TRec where
  /-- Channel A. -/
  a : Counts := {}
  /-- Channel B. -/
  b : Counts := {}
  /-- State. -/
  state : TallyState := .clear
  /-- SWEPT. -/
  swept : Bool := false
  /-- CAUSE. -/
  cause : Nat := 0
  /-- Epoch. -/
  epoch : Nat := 0
  /-- A preparatory reset has been accepted: there is a preparing class (R336). -/
  prepared : Bool := false
  /-- PREP_AUTH. -/
  prepAuth : Nat := 0
  /-- PREP_MEMBER. -/
  prepMember : Nat := 0
  /-- SUSPECT_A. -/
  suspA : Bool := false
  /-- SUSPECT_B. -/
  suspB : Bool := false
  /-- End of the confirmation window, domain time. -/
  window : Nat := 0
  /-- When its sweep is to be queued. -/
  sweepAt : Option Nat := none
  deriving DecidableEq, Repr

/-- What an admitted operation is (R324). -/
inductive OpKind where
  /-- A HANDLE- or WINDOW-mode READ. -/
  | read
  /-- A HANDLE- or WINDOW-mode WRITE, with what it still waits for: its own write is done, the standby's
  acknowledgement is awaited. -/
  | write (standby : Bool)
  /-- A forwarded mirror write at the standby. -/
  | mirror
  /-- A resilver chunk. -/
  | resilver
  /-- A request served as PROXY. -/
  | proxy
  /-- A near-memory descriptor or a sweep fill. -/
  | nearMem
  /-- A sweep token. -/
  | sweep
  deriving DecidableEq, Repr

/-- A token (R325): bin index, epoch, what it is for, whose map admitted it, and the request to answer. -/
structure Token where
  /-- Bin index. -/
  bin : Nat
  /-- Epoch. -/
  epoch : Nat
  /-- Kind. -/
  kind : OpKind
  /-- Member whose map admitted it. -/
  member : Nat := 0
  /-- The number of that map. -/
  map : Nat := 0
  /-- QP of the request, its first and its last PSN. -/
  qpn : Nat := 0
  first : Nat := 0
  psn : Nat := 0
  /-- It reads. -/
  reads : Bool := false
  /-- Where this part begins in its message. -/
  at_ : Nat := 0
  /-- The parts of the message that have left before it: place in the message, offset in the bin, bytes with their poison; and the
  first status that one of them met. -/
  got : List (Nat × Nat × List (Byte × Bool)) := []
  code : Nat := 0
  /-- The near-memory item and stone whose descriptor it is. -/
  who : Option (Nat × Nat) := none
  /-- Range. -/
  offset : Nat := 0
  len : Nat := 0
  /-- The handle, for traffic on MIRROR_QP. -/
  handle : Nat := 0
  /-- A write that waits for the chunk being resilvered, with the poison of each byte (R311). -/
  waits : Option (List (Byte × Bool)) := none
  deriving DecidableEq, Repr

/-- The tally. -/
structure Tly where
  /-- Records not at their reset value, by bin index. -/
  recs : Tbl TRec := []
  /-- Open tokens. -/
  tokens : Tbl Token := []
  /-- Operations held at their port for a token (R325). -/
  waiting : List GReq := []
  /-- TLY_HELD. -/
  held : Nat := 0
  /-- TLY_SCAN. -/
  scan : Nat := 0
  /-- TLY_SEL. -/
  sel : Nat := 0
  /-- TLY_LAST. -/
  last : Nat := 0
  /-- TLY_LAST_TIME. -/
  lastTime : Nat := 0
  /-- TALLY_CONFIRMs that have arrived: their command and the domain time of arrival (R336). -/
  arrived : List (CmdId × Nat) := []
  deriving DecidableEq, Repr

end Sys2Proof.Machine
end

