-- ==== Sys2Proof/Machine/Types/Whl.lean ====
section
/-! DEFINITION. State of the races and cogs: the wheel table (03). -/

namespace Sys2Proof.Machine

/-- The states of a tailrace (R107), coded as WHL_RSTATE TSTATE. -/
inductive TailState where
  | idle | live | dry
  deriving DecidableEq, Repr

/-- A trip record (R112). -/
structure TripRec where
  /-- Domain time. -/
  time : Nat := 0
  /-- H. -/
  h : Nat := 0
  /-- V. -/
  v : Nat := 0
  /-- W. -/
  w : Nat := 0
  /-- P. -/
  p : Nat := 0
  deriving DecidableEq, Repr

/-- A cog slot (R109 to R113). -/
structure Cog where
  /-- Bits [19:0] of dword 2 of COG_SET. -/
  cfg : Nat
  /-- Threshold in force; domain time for DOMAIN_TIME_AT. -/
  thr : Nat
  /-- The position a BASE 1 or 2 threshold was defined by. -/
  pos : Nat := 0
  /-- Step value. -/
  step : Nat
  /-- Action arguments: dwords 7 to 13. -/
  args : List Nat
  /-- Armed. -/
  armed : Bool := true
  /-- Tripped at least once since it was set. -/
  tripped : Bool := false
  /-- EDGE: it has tripped and its condition has not become false since. -/
  lit : Bool := false
  /-- INVERT: V at arming. -/
  vref : Nat := 0
  /-- Trips since set, 32 bits saturating. -/
  trips : Nat := 0
  /-- Last trip record. -/
  rec_ : TripRec := {}
  /-- Hopper translation (R208). -/
  hopper : Option Held := none
  deriving DecidableEq, Repr

/-- A gap marker that waits for a ring slot (R108). -/
structure Marker where
  /-- FLAGS of its descriptor. -/
  flags : Nat
  /-- Domain time of the dry or the furl. -/
  time : Nat
  /-- Turn and sail its descriptor names. -/
  turn : Nat
  sail : Nat
  deriving DecidableEq, Repr

/-- A race (R84 to R108). -/
structure Race where
  /-- Owning function. -/
  fn : Nat
  /-- HRATE. -/
  hrate : Nat
  /-- TRATE. -/
  trate : Nat
  /-- TFRAME in units of 2.5 ms, 1 to 8. -/
  tframe : Nat
  /-- TCHECK, by the engine named. -/
  tcheck : Bool
  /-- CHK_ENGINE. -/
  engine : Nat
  /-- The engine's fixed mode still serves TCHECK; false from a data-plane reset until it is claimed again (R344). -/
  engineOk : Bool := true
  /-- TAIL_START. -/
  tailStart : Nat
  /-- J. -/
  jitter : Nat
  /-- Ingress ring. -/
  inRing : Held
  /-- IN_LOG2. -/
  inLog : Nat
  /-- Tailrace ring. -/
  outRing : Held
  /-- OUT_LOG2. -/
  outLog : Nat
  /-- A. -/
  anchor : Nat
  /-- H. -/
  h : Nat
  /-- V. -/
  v : Nat := 0
  /-- Voiced flag. -/
  voiced : Bool := false
  /-- G, the quiet gap count. -/
  gap : Nat := 0
  /-- W. -/
  w : Nat
  /-- Real base: Pr and Tr (R104). -/
  real : Option (Nat × Nat) := none
  /-- Refill base: W before the release and its time (R106). -/
  refill : Option (Nat × Nat) := none
  /-- Tailrace state. -/
  tstate : TailState := .idle
  /-- FINAL. -/
  final : Bool := false
  /-- PLAYOUT_LOCAL. -/
  playoutLocal : Bool := false
  /-- Ingress NEXT_SEQ. -/
  inSeq : Nat := 0
  /-- End position of the accepted frame last landed in each ingress slot (R95). -/
  ends : Tbl Nat := []
  /-- REJECTS. -/
  rejects : Nat := 0
  /-- Last landed RSEQ. -/
  rseq : Nat := 0
  /-- Reports rejected, 16 bits, and the last reason. -/
  repRej : Nat := 0
  repReason : Nat := 0
  /-- Tailrace NEXT_SEQ. -/
  outSeq : Nat := 0
  /-- READ_SEQ as the consumer last wrote it. -/
  readSeq : Nat := 0
  /-- TAIL_RING_FULL has been raised for this stall. -/
  fullTold : Bool := false
  /-- Gap markers that wait for a slot, oldest first. -/
  markers : List Marker := []
  /-- Released frames whose check jobs have not ended (R352). -/
  checking : Nat := 0
  /-- TURN and SAIL of the last frame released (R90). -/
  lastTurn : Nat := 0
  lastSail : Nat := 0
  /-- Highest completion position written by a gang of the race (R95). -/
  done : Nat := 0
  /-- Index of the last stage whose completion position was written, for a rebuild (R147). -/
  doneStage : Nat := 0
  deriving DecidableEq, Repr

/-- The races and cogs. -/
structure Whl where
  /-- Open races. -/
  races : Tbl Race := []
  /-- Cogs set, by race × 16 + slot. -/
  cogs : Tbl Cog := []
  /-- Races whose positions, voiced flag, base or cogs changed since the last tick (R115). -/
  dirty : List Nat := []
  /-- Cogs carried to the next tick (R117). -/
  late : List Nat := []
  /-- LATE_EVALS. -/
  lateEvals : Nat := 0
  /-- WHL_RSEL. -/
  rsel : Nat := 0
  /-- WHL_CSEL. -/
  csel : Nat := 0
  deriving DecidableEq, Repr

end Sys2Proof.Machine
end

