-- ==== Sys2Proof/Machine/State.lean ====
section
/-! DEFINITION. The state of the block: every register, queue, table, mode and pin the spec gives it, as plain data,
and the queue of waiting commands. -/

namespace Sys2Proof.Machine

/-- Why the block stops. No meaning of this model faults: every failure the spec describes is a next state. -/
inductive Fault where
  /-- Raised by no command. Safe: the model never stops where the hardware goes on. -/
  | never
  deriving DecidableEq, Repr

/-- Why a command has no meaning here. -/
inductive Refusal where
  /-- Raised by the arm of a command that is not modelled yet, with its mnemonic. Safe: it stops. -/
  | notModelled (mnemonic : String)
  deriving DecidableEq, Repr

/-- The block. -/
structure State where
  /-- The reset sequencer, clocks and role. -/
  core : Core
  /-- The mailbox of the hold domain. -/
  mail : Mail
  /-- The host command processor. -/
  hif : Hif
  /-- The USB service port. -/
  usb : Usb
  /-- The monitors, event rings and error log. -/
  evt : Evt
  /-- The budget and boot flashes. -/
  store : Store
  /-- The Millwright and tray steward. -/
  mwr : Mwr
  /-- The fabric ports and Flume links. -/
  prt : Prt
  /-- The mill domain. -/
  dom : Dom
  /-- The power domains, device states, rails and status pins. -/
  pwr : Pwr
  /-- The HBM, DDR5, address spaces and descriptors. -/
  mem : Mem
  /-- The races and cogs. -/
  whl : Whl
  /-- The turns, sails, commit gate and items of work. -/
  trn : Trn
  /-- The stones, images and chains. -/
  stn : Stn
  /-- The protected on-chip memories. -/
  ocp : Ocp
  /-- The RDMA engine. -/
  rdm : Rdm
  /-- The granary. -/
  grn : Grn
  /-- The bin tally. -/
  tly : Tly
  /-- The check engines. -/
  chk : Chk
  /-- The brake path, valves and slots. -/
  brk : Brk
  /-- What the block sent out, oldest first (log entry 4). -/
  out : List Output
  /-- The model's own counter of free values used (log entry 9). -/
  freeCtr : Nat
  /-- Commands waiting, first in first out (log entry 1). -/
  pending : List Instr
  deriving DecidableEq, Repr

/-- The machine right after VDD_AO_IN rose and before any command (R35, R37, R44); every value the manual gives none for
is the default its field names (log entry 5). -/
def State.reset : State where
  core := { role := .mill, causes := [⟨0x01, 0, true⟩] }
  mail := {}
  hif := {}
  usb := {}
  evt := {}
  store := {}
  mwr := {}
  prt := {}
  dom := {}
  pwr := { state := .exiting, cold := true, wait := .pg 0,
           railEn := [true, false, false, false, false, false, false, false] }
  mem := {}
  whl := {}
  trn := {}
  stn := {}
  ocp := {}
  rdm := {}
  grn := {}
  tly := {}
  chk := {}
  brk := {}
  out := []
  freeCtr := 0
  pending := []

/-- What a meaning answers. -/
abbrev Out := Host.Outcome State Fault Refusal

/-- The state with `core` changed. -/
def State.modCore (s : State) (f : Core → Core) : State := { s with core := f s.core }
/-- The state with `mail` changed. -/
def State.modMail (s : State) (f : Mail → Mail) : State := { s with mail := f s.mail }
/-- The state with `hif` changed. -/
def State.modHif (s : State) (f : Hif → Hif) : State := { s with hif := f s.hif }
/-- The state with `usb` changed. -/
def State.modUsb (s : State) (f : Usb → Usb) : State := { s with usb := f s.usb }
/-- The state with `evt` changed. -/
def State.modEvt (s : State) (f : Evt → Evt) : State := { s with evt := f s.evt }
/-- The state with `store` changed. -/
def State.modStore (s : State) (f : Store → Store) : State := { s with store := f s.store }
/-- The state with `mwr` changed. -/
def State.modMwr (s : State) (f : Mwr → Mwr) : State := { s with mwr := f s.mwr }
/-- The state with `prt` changed. -/
def State.modPrt (s : State) (f : Prt → Prt) : State := { s with prt := f s.prt }
/-- The state with `dom` changed. -/
def State.modDom (s : State) (f : Dom → Dom) : State := { s with dom := f s.dom }
/-- The state with `pwr` changed. -/
def State.modPwr (s : State) (f : Pwr → Pwr) : State := { s with pwr := f s.pwr }
/-- The state with `mem` changed. -/
def State.modMem (s : State) (f : Mem → Mem) : State := { s with mem := f s.mem }
/-- The state with `whl` changed. -/
def State.modWhl (s : State) (f : Whl → Whl) : State := { s with whl := f s.whl }
/-- The state with `trn` changed. -/
def State.modTrn (s : State) (f : Trn → Trn) : State := { s with trn := f s.trn }
/-- The state with `stn` changed. -/
def State.modStn (s : State) (f : Stn → Stn) : State := { s with stn := f s.stn }
/-- The state with `ocp` changed. -/
def State.modOcp (s : State) (f : Ocp → Ocp) : State := { s with ocp := f s.ocp }
/-- The state with `rdm` changed. -/
def State.modRdm (s : State) (f : Rdm → Rdm) : State := { s with rdm := f s.rdm }
/-- The state with `grn` changed. -/
def State.modGrn (s : State) (f : Grn → Grn) : State := { s with grn := f s.grn }
/-- The state with `tly` changed. -/
def State.modTly (s : State) (f : Tly → Tly) : State := { s with tly := f s.tly }
/-- The state with `chk` changed. -/
def State.modChk (s : State) (f : Chk → Chk) : State := { s with chk := f s.chk }
/-- The state with `brk` changed. -/
def State.modBrk (s : State) (f : Brk → Brk) : State := { s with brk := f s.brk }
/-- The state with `out` changed. -/
def State.modOut (s : State) (f : (List Output) → (List Output)) : State := { s with out := f s.out }
/-- The state with `freeCtr` changed. -/
def State.modFreeCtr (s : State) (f : Nat → Nat) : State := { s with freeCtr := f s.freeCtr }
/-- The state with `pending` changed. -/
def State.modPending (s : State) (f : (List Instr) → (List Instr)) : State := { s with pending := f s.pending }

end Sys2Proof.Machine
end

