-- ==== Sys2Proof/Machine/CrcOps.lean ====
section
/-! DEFINITION. The computation of a check engine (12 R346, R347). -/

namespace Sys2Proof.Machine

/-- reflect(x, n): the order of the low n bits reversed. -/
def reflect (x n : Nat) : Nat := (List.range n).foldl (fun a i => a + if bit x i then 2 ^ (n - 1 - i) else 0) 0

/-- The parameters of a fixed mode (R346). -/
def fixedCrc : Nat → CrcCfg
  | 0 => ⟨16, 0x1021, 0xFFFF, false, false, 0⟩
  | 1 => ⟨32, 0x04C11DB7, 0xFFFFFFFF, true, true, 0xFFFFFFFF⟩
  | 2 => ⟨32, 0x1EDC6F41, 0xFFFFFFFF, true, true, 0xFFFFFFFF⟩
  | _ => ⟨64, 0x42F0E1EBA9EA3693, 0xFFFFFFFFFFFFFFFF, true, true, 0xFFFFFFFFFFFFFFFF⟩

/-- One bit of the stream taken into the register. -/
def crcBit (c : CrcCfg) (reg : Nat) (b : Bool) : Nat :=
  let top := bit reg (c.width - 1) ^^ b
  let r := reg * 2 % 2 ^ c.width
  if top then r ^^^ c.poly else r

/-- One byte of the stream taken into the register. -/
def crcByte (c : CrcCfg) (reg : Nat) (b : Byte) : Nat :=
  let v := if c.refin then reflect b.toNat 8 else b.toNat
  [7, 6, 5, 4, 3, 2, 1, 0].foldl (fun r i => crcBit c r (bit v i)) reg

/-- The result over a stream (R347). -/
def crc (c : CrcCfg) (l : List Byte) : Nat :=
  let r := l.foldl (crcByte c) (c.init % 2 ^ c.width)
  (if c.refout then reflect r c.width else r) ^^^ c.xorout

/-- Fixed-mode CRC-32C. -/
def crc32c (l : List Byte) : Nat := crc (fixedCrc 2) l

/-- Fixed-mode CRC-64. -/
def crc64 (l : List Byte) : Nat := crc (fixedCrc 3) l

end Sys2Proof.Machine
end

