-- ==== Sys2Proof/Machine/Ops.lean ====
section
/-! DEFINITION. The shared operations: time stamps, output, completions and retained records (02), events and the error
log (17), the mailbox (01), features (02), and finding the command a row runs. -/

namespace Sys2Proof.Machine

/-! ### Time -/

/-- AO ticks since VDD_AO_IN rose: the 32.768 kHz clock at the model clock's instant (R22; log entry 1). -/
def aoTicks (s : State) : Nat := s.core.t * 32768 / 1000000000

/-- Wheelhouse cycles at the model clock's instant: 1.20 GHz (R22). -/
def whlCycles (s : State) : Nat := s.core.t * 6 / 5

/-- The time a record takes: domain time, or the AO tick count when domain time is not valid (R44). -/
def stamp (s : State) : Nat := if s.core.timeValid then s.core.time else aoTicks s

/-- Whether a record's time is an AO tick count. -/
def stampTicks (s : State) : Bool := !s.core.timeValid

/-- µs as ns. -/
def us (n : Nat) : Nat := n * 1000
/-- ms as ns. -/
def ms (n : Nat) : Nat := n * 1000000
/-- s as ns. -/
def sec (n : Nat) : Nat := n * 1000000000

/-- Whether a time limit that began at a model instant has passed. -/
def passed (s : State) (since limit : Nat) : Bool := decide (since + limit ≤ s.core.t)

/-- The free value of this step, and the state with the counter moved on (log entry 9). -/
def takeFree (s : State) : Nat × State := (Config.freeValue s.freeCtr, s.modFreeCtr (· + 1))

/-! ### Output -/

/-- The state with one thing sent out. -/
def emit (o : Output) (s : State) : State := s.modOut (· ++ [o])

/-- Output data of a command: written to bus memory, kept for the FETCH of a USB command (R441); the output of a
command that came over the domain channel goes nowhere (log entry 17). -/
def emitData (c : Cmd) (addr : Nat) (data : List Byte) (s : State) : State :=
  match c.id.origin with
  | .pcie _ => emit (.hostWrite c.fn addr data) s
  | .usb => s.modUsb fun u => { u with output := u.output.alter c.tag [] (· ++ data) }
  | .domain _ _ => s

/-! ### Retained records -/

/-- The key of the retained set of a function or carrier (R68, R364). -/
def retKey : Origin → Nat
  | .pcie f => f
  | .usb => 16
  | .domain m _ => 32 + m

/-- The function a retained record names, in a domain member's set (R364). -/
def originFn : Origin → Nat
  | .domain _ f => f
  | .pcie f => f
  | .usb => 0

/-- The state with a record put into a retained set; the oldest of 64 goes and is counted (R68). -/
def retain (o : Origin) (r : RetRec) (s : State) : State :=
  s.modHif fun h =>
    { h with
      retained := h.retained.alter (retKey o) {} fun t =>
        if t.recs.length < 64 then { t with recs := t.recs ++ [r] }
        else { recs := t.recs.drop 1 ++ [r], dropped := sat 0xFFFF (t.dropped + 1) } }

/-- The retained record of a completion (R79). -/
def retRecOf (o : Origin) (k : Completion) (sqHead sqId opcode context : Nat) (s : State) : RetRec :=
  { k := { k with retained := true }, sqHead, sqId, opcode,
    carrier := (match o with | .usb => 1 | _ => 0), context, time := stamp s, fn := originFn o }

/-! ### Completion queues -/

/-- HIF_ERR_STATUS bit and HIF_ERR_QID of a function window flagged (R83). -/
def flagErr (fn b qid : Nat) (s : State) : State :=
  s.modHif fun h => { h with wins := h.wins.alter fn {} fun w => { w with err := w.err ||| 2 ^ b, errQid := qid } }

/-- The local index of a function's queue (R56, R83). -/
def localQ (s : State) (fn q : Nat) : Nat := if fn = 0 then q else q - (s.hif.ranges.getD fn {}).base

/-- The four dwords of a completion with its PHASE, SQ_HEAD and SQ_ID (R53). -/
def Completion.entry (k : Completion) (phase : Bool) (sqHead sqId : Nat) : List Byte :=
  leBytes 4 (k.tag % 2 ^ 16 + k.status.code * 2 ^ 16 + flag k.retained * 2 ^ 24 + flag phase * 2 ^ 31) ++ leBytes 4 k.result ++
    leBytes 4 k.result2 ++ leBytes 4 (sqHead % 2 ^ 16 + sqId * 2 ^ 16)

/-- The state with one entry of a CQ written and its vector signalled if R63 says so. -/
def cqWrite (q : Nat) (i : CqItem) (s : State) : State :=
  match s.hif.cqs.get q with
  | none => s
  | some cq =>
    let head := (s.hif.sqs.getD i.sq {}).head
    let s := emit (.completion cq.fn (cq.base + 16 * cq.wr) (i.k.entry cq.phase head i.sq)) s
    let wrap := decide (cq.depth ≤ cq.wr + 1)
    let unsig := cq.unsig + 1
    let oldest := if cq.unsig = 0 then s.core.t else cq.oldest
    let signal := i.event || decide (cq.coalCnt ≤ unsig) || decide (cq.coalUs = 0)
    let cq' : Cq :=
      { cq with
        wr := if wrap then 0 else cq.wr + 1
        phase := if wrap then !cq.phase else cq.phase
        used := cq.used + 1
        unsig := if signal then 0 else unsig
        oldest := oldest }
    let s := s.modHif fun h => { h with cqs := h.cqs.set q cq' }
    if signal then emit (.msix cq.fn cq.vector) s else s

/-- Completions that waited for a CQ kept as retained records (R67). -/
def retainAll (fn : Nat) (l : List CqItem) (s : State) : State :=
  l.foldl (fun s i => retain (.pcie fn) (retRecOf (.pcie fn) i.k (s.hif.sqs.getD i.sq {}).head i.sq i.opcode i.context s) s) s

/-- The state with a completion given to a CQ: written, made to wait for room (R55), or kept as a retained record when
the CQ is in ERROR, gone or not writable (R67). -/
def cqPut (fn q : Nat) (i : CqItem) (s : State) : State :=
  match s.hif.cqs.get q with
  | none => retain (.pcie fn) (retRecOf (.pcie fn) i.k (s.hif.sqs.getD i.sq {}).head i.sq i.opcode i.context s) s
  | some cq =>
    if cq.state = .active ∧ cq.reach then
      if cq.used < cq.depth ∧ cq.waiting = [] then cqWrite q i s
      else s.modHif fun h => { h with cqs := h.cqs.set q { cq with waiting := cq.waiting ++ [i] } }
    else
      let s := if cq.state = .active then
          retainAll cq.fn cq.waiting (flagErr cq.fn 4 (localQ s cq.fn q + 256)
            (s.modHif fun h => { h with cqs := h.cqs.set q { cq with state := .error, err := 3, waiting := [] } }))
        else s
      retain (.pcie fn) (retRecOf (.pcie fn) i.k (s.hif.sqs.getD i.sq {}).head i.sq i.opcode i.context s) s

/-! ### Completing a command -/

/-- The command of a submitter and tag. -/
def findCmd (s : State) (id : CmdId) : Option Cmd := s.hif.cmds.find? fun c => c.id = id

/-- The state without a command. -/
def dropCmd (id : CmdId) (s : State) : State :=
  s.modHif fun h => { h with cmds := h.cmds.filter fun c => c.id ≠ id }

/-- The state with a command changed. -/
def updCmd (id : CmdId) (f : Cmd → Cmd) (s : State) : State :=
  s.modHif fun h => { h with cmds := h.cmds.map fun c => if c.id = id then f c else c }

/-- A command has been accepted (R67, R74). -/
def Cmd.accepted (c : Cmd) : Bool :=
  c.viaMw || (match c.phase with | .waiting | .mailbox | .mwDone | .forwarded _ => true | _ => false)

/-! ### Ports, members and messages (R361, R362) -/

/-- A feature's value for a target, with its default. -/
def feature (s : State) (id target default : Nat) : Nat := s.hif.feats.getD (id * 2 ^ 32 + target) default

/-- A port. -/
def port (s : State) (p : Nat) : Port := s.prt.ports.getD p {}

/-- The state with a port changed. -/
def modPort (p : Nat) (f : Port → Port) (s : State) : State :=
  s.modPrt fun t => { t with ports := t.ports.alter p {} f }

/-- What the device keeps of a member. -/
def peer (s : State) (m : Nat) : Peer := s.dom.peers.getD m {}

/-- The state with what it keeps of a member changed. -/
def modPeer (m : Nat) (f : Peer → Peer) (s : State) : State :=
  s.modDom fun d => { d with peers := d.peers.alter m {} f }

/-- The device is a member of a domain. -/
def joined (s : State) : Bool := decide (s.dom.join = .member)

/-- The device's own member ID, 0 while unset. -/
def ownMember (s : State) : Nat := s.core.member.getD 0

/-- The ports in state UP over which a member can be reached: the Flume link to it, and every Ethernet port when the
member table names it (R361). -/
def paths (s : State) (m : Nat) : List Nat :=
  numsWhere 8 fun p =>
    let q := port s p
    decide (q.state = .up) &&
      (if q.mode = .flume then q.flm.valid && decide (q.flm.peer = m)
       else decide (q.mode = .ethernet) && s.dom.members.has m)

/-- TYPE of a message (R361). -/
def DomBody.type : DomBody → Nat
  | .heartbeat _ => 0x01
  | .suspect _ _ => 0x02
  | .announce _ _ => 0x03
  | .leave _ => 0x04
  | .command _ _ _ _ => 0x05
  | .reply _ _ => 0x06
  | .notice _ _ _ _ _ => 0x07
  | .sleepPropose _ => 0x10
  | .sleepVote _ _ => 0x11
  | .sleepAgreed _ _ => 0x12
  | .sleepAbort _ => 0x13
  | .sleepAwake => 0x14

/-- The 40 bytes of a HEARTBEAT's body (R365). -/
def hbBytes (b : HbBody) : List Byte :=
  leBytes 8 b.digest ++ leBytes 2 b.major ++ leBytes 2 b.minor ++ leBytes 2 b.patch ++ leBytes 1 b.role ++
    leBytes 1 (flag b.timeSuspect + 2 * flag b.asleep + 4 * flag b.leaving) ++ leBytes 8 b.t3 ++ leBytes 8 b.t1 ++ leBytes 8 b.t2

/-- The n big-endian bytes of a number. -/
def beBytes (n v : Nat) : List Byte := (leBytes n v).reverse

/-- The 128 bytes of an envelope (R51). -/
def envelopeBytes (e : Envelope) : List Byte := leBytes 8 e.seq ++ beBytes 48 e.r ++ beBytes 48 e.s ++ leBytes 24 0

/-- The body of a message (R361); one whose fields the manual gives no widths is Config.messageBody (log entry 114). -/
def DomBody.bytes : DomBody → List Byte
  | .heartbeat b => hbBytes b
  | .suspect m t => leBytes 1 m ++ leBytes 2 t
  | .announce r hs => leBytes 1 r ++ leBytes 32 (hs.eraseDups.foldl (fun a h => a + 2 ^ h) 0)
  | .leave f => Config.messageBody 0x04 [flag f]
  | .command fn p env table => leBytes 1 fn ++ pktBytes p ++ (match env with | some e => envelopeBytes e | none => []) ++ table
  | .reply fn k => leBytes 1 fn ++ k.entry false 0 0xFFFE
  | .notice c a b x y => Config.messageBody 0x07 [c, a, b, x, y]
  | .sleepPropose n => Config.messageBody 0x10 [n]
  | .sleepVote n v => Config.messageBody 0x11 [n, v]
  | .sleepAgreed n c => Config.messageBody 0x12 [n, c]
  | .sleepAbort n => Config.messageBody 0x13 [n]
  | .sleepAwake => Config.messageBody 0x14 [0]

/-- A message to a member: its header, its body and the CRC-32C of all before it (R361). -/
def messageBytes (s : State) (to_ : Nat) (b : DomBody) : List Byte :=
  let l := b.bytes
  let m := leBytes 1 1 ++ leBytes 1 b.type ++ leBytes 1 (ownMember s) ++ leBytes 1 to_ ++ leBytes 4 s.dom.id ++ leBytes 4 s.dom.inc ++
    leBytes 4 s.dom.msgSeq ++ leBytes 2 (l.length + 36) ++ leBytes 14 0 ++ l
  m ++ leBytes 4 (crc32c m)

/-- A message in fragments of up to 4,096 bytes, each behind its header (R362). -/
def fragments (seq : Nat) (l : List Byte) : List (List Byte) :=
  let n := ceilDiv l.length 4096
  (List.range n).map fun i => leBytes 4 seq ++ leBytes 1 i ++ leBytes 1 n ++ leBytes 2 0 ++ (l.drop (4096 * i)).take 4096

/-- How a message leaves by a port: to its link peer, or by UDP to the member's management address (R361). -/
def wayOut (s : State) (to_ p : Nat) : Source :=
  if (port s p).mode = .flume then .flume p
  else .udp p ((s.dom.members.getD to_ ⟨0, 0⟩).addr) (feature s 0x82 0 53456)

/-- A message sent to a member by a port, with the next message sequence number (R361, R362). -/
def sendBy (to_ : Nat) (b : DomBody) (p : Nat) (s : State) : State :=
  (emit (.message to_ s.dom.msgSeq (wayOut s to_ p) b (fragments s.dom.msgSeq (messageBytes s to_ b))) s).modDom fun d =>
    { d with msgSeq := (d.msgSeq + 1) % 2 ^ 32 }

/-- A message sent to a member by its lowest port that reaches it (log entry 114); nothing leaves when no path is UP. -/
def sendMsg (to_ : Nat) (b : DomBody) (s : State) : State :=
  match (paths s to_).head? with
  | none => s
  | some p => sendBy to_ b p s

/-! ### Delivering a completion -/

/-- A completion reaching the submitter of a command by its carrier (R53, R67, R441, R363); out is the output data of
a USB command. -/
def deliverK (c : Cmd) (k : Completion) (out : List Byte) (s : State) : State :=
  let opcode := pktOpcode c.pkt
  match c.id.origin with
  | .pcie fn =>
    if c.orphan then
      retain c.id.origin (retRecOf c.id.origin k (s.hif.sqs.getD c.sq {}).head c.sq opcode c.context s) s
    else
      cqPut fn (s.hif.sqs.getD c.sq {}).cq { k, sq := c.sq, event := pktEvent c.pkt, opcode, context := c.context, accepted := c.accepted || decide (k.status = .success) } s
  | .usb =>
    if c.orphan then retain .usb (retRecOf .usb k 0 0xFFFF opcode c.context s) s
    else s.modUsb fun u => { u with done := u.done ++ [{ k, output := out, opcode, context := c.context }] }
  | .domain m fn =>
    let s := retain c.id.origin (retRecOf c.id.origin k 0 0xFFFE opcode c.context s) s
    sendMsg m (.reply fn k) s

/-- A command in the device completed: it leaves the device and its completion is delivered, unless its submitter has
been answered already. -/
def deliver (c : Cmd) (k : Completion) (s : State) : State :=
  if c.detached then dropCmd c.id s
  else match c.id.origin with
  | .usb =>
    let out := s.usb.output.getD c.tag []
    deliverK c k out ((dropCmd c.id s).modUsb fun u => { u with output := u.output.erase c.tag })
  | _ => deliverK c k [] (dropCmd c.id s)

/-! ### The mailbox -/

/-- Entries a message takes: two for a forwarded command (R429). -/
def Msg.size : Msg → Nat
  | .command _ => 2
  | _ => 1

/-- Entries in use. -/
def MailQ.used (q : MailQ) : Nat := (q.items.map Msg.size).foldl (· + ·) 0

/-- Whether the queue has room for a message, with the overflow marker that goes first when one is due (R32, R430). -/
def MailQ.room (q : MailQ) (m : Msg) : Bool := decide (q.used + m.size + (if q.due = 0 then 0 else 1) ≤ 64)

/-- A message put into a queue under the drop rule of R32: dropped and counted when there is no room; the first entry
accepted after a drop is the overflow marker. -/
def MailQ.push (q : MailQ) (m : Msg) : MailQ :=
  if q.due = 0 then
    if q.used + m.size ≤ 64 then { q with items := q.items ++ [m], prod := (q.prod + m.size) % 64 }
    else { q with dropped := sat 0xFFFF (q.dropped + 1), due := q.due + 1 }
  else if q.used + m.size + 1 ≤ 64 then
    { q with items := q.items ++ [.overflow q.due, m], prod := (q.prod + m.size + 1) % 64, due := 0 }
  else if q.used + 1 ≤ 64 then
    { q with items := q.items ++ [.overflow q.due], prod := (q.prod + 1) % 64, dropped := sat 0xFFFF (q.dropped + 1), due := 1 }
  else { q with dropped := sat 0xFFFF (q.dropped + 1), due := q.due + 1 }

/-- TYPE of a message (R429). -/
def Msg.type : Msg → Nat
  | .command _ => 0x01
  | .powerVote _ _ _ | .powerNotice => 0x02
  | .heartbeat _ _ _ _ => 0x03
  | .completion _ _ => 0x11
  | .headroomGrant => 0x12
  | .timeAdjust _ _ _ _ => 0x13
  | .agentVote _ => 0x14
  | .errorRecord _ => 0x21
  | .planeFatal _ => 0x22
  | .sensorRequest => 0x23
  | .stoneFence _ _ => 0x31
  | .portMode _ _ _ => 0x32
  | .dimmBist _ => 0x33
  | .overflow _ => 0xFF

/-- The command a message is for. -/
def Msg.cmd : Msg → Option CmdId
  | .command id => some id
  | .completion id _ => some id
  | _ => none

/-- ORIGIN of a message (R429). -/
def originCode : Origin → Nat
  | .pcie f => f
  | .usb => 0xFFFF
  | .domain _ _ => 0xFFFE

/-- The payload of a message: the command bytes, the completion, the overflow count, and for the rest Config.mailPayload (R429;
log entry 116). -/
def Msg.payload (s : State) : Msg → List Byte
  | .command id => match findCmd s id with | some c => pktBytes c.pkt | none => []
  | .completion _ k => k.entry false 0 0
  | .overflow n => leBytes 4 n
  | .heartbeat n r t c => Config.mailPayload 0x03 [n, r, t, c]
  | .powerVote d f p => Config.mailPayload 0x02 [d, f, flag p]
  | .timeAdjust d r o b => Config.mailPayload 0x13 [ofSigned 64 d, ofSigned 64 r, ofSigned 64 o, flag b]
  | .agentVote b => Config.mailPayload 0x14 [flag b]
  | .errorRecord n => Config.mailPayload 0x21 [n]
  | .planeFatal n => Config.mailPayload 0x22 [n]
  | .stoneFence n f => Config.mailPayload 0x31 [n, flag f]
  | .portMode p m r => Config.mailPayload 0x32 [p, m, flag r]
  | .dimmBist p => Config.mailPayload 0x33 [p]
  | m => Config.mailPayload m.type []

/-- The 64-byte entries of a message as its queue holds them (R429). -/
def Msg.entries (s : State) (m : Msg) : List (List Byte) :=
  let l := m.payload s
  let slot := m.cmd.bind fun id => (s.mail.attach.find? fun e => decide (e.2 = id)).map (·.1)
  (List.range m.size).map fun i =>
    leBytes 1 m.type ++ leBytes 1 (flag (decide (i + 1 < m.size)) + 2 * flag slot.isSome) ++ leBytes 1 (slot.getD 0) ++ leBytes 1 0 ++
      leBytes 2 ((m.cmd.map (·.tag)).getD 0) ++ leBytes 2 ((m.cmd.map fun id => originCode id.origin).getD 0) ++
      (List.range 56).map fun k => l.getD (56 * i + k) 0

/-- A message asks its receiver to act: an overflow marker and a power vote only tell it something. -/
def Msg.asks : Msg → Bool
  | .overflow _ => false
  | .powerVote _ _ _ => false
  | _ => true

/-- The queue without what its receiver reads and passes at its front. -/
def MailQ.skipMarkers (l : List Msg) : List Msg := l.dropWhile fun m => !m.asks

/-- The front message of a queue. -/
def MailQ.front (q : MailQ) : Option Msg := (MailQ.skipMarkers q.items).head?

/-- The queue without its front message. -/
def MailQ.pop (q : MailQ) : MailQ := { q with items := (MailQ.skipMarkers q.items).drop 1 }

/-- A message of the Wheelhouse on CTL_TO_MW (R31, R32). -/
def tellMw (m : Msg) (s : State) : State := s.modMail fun q => { q with ctlToMw := q.ctlToMw.push m }

/-- A message of the data plane on DAT_TO_MW (R31, R32). -/
def tellMwDat (m : Msg) (s : State) : State := s.modMail fun q => { q with datToMw := q.datToMw.push m }

/-- A message of the Millwright on MW_TO_CTL (R31, R32). -/
def postCtl (m : Msg) (s : State) : State := s.modMail fun q => { q with mwToCtl := q.mwToCtl.push m }

/-- A message of the Millwright on MW_TO_DAT (R31, R32). -/
def postDat (m : Msg) (s : State) : State := s.modMail fun q => { q with mwToDat := q.mwToDat.push m }

/-- The front message of MW_TO_CTL taken by the control plane. -/
def popCtl (s : State) : State := s.modMail fun q => { q with mwToCtl := q.mwToCtl.pop }

/-- The front message of MW_TO_DAT taken by the data plane. -/
def popDat (s : State) : State := s.modMail fun q => { q with mwToDat := q.mwToDat.pop }

/-- A command's completion decided: posted on MW_TO_CTL for one the Millwright runs (its CTL_TO_MW entry is then passed,
R431), otherwise delivered. -/
def completeK (c : Cmd) (k : Completion) (s : State) : State :=
  if c.viaMw then
    let s := updCmd c.id (fun c => { c with phase := .mwDone }) s
    let s := s.modMwr fun m => { m with journal := m.journal.filter fun j => j.id ≠ c.id }
    s.modMail fun m =>
      { m with
        ctlToMw := { m.ctlToMw with items := m.ctlToMw.items.filter fun x => x ≠ .command c.id }
        mwToCtl := m.mwToCtl.push (.completion c.id k)
        attach := m.attach.filter fun i => i.2 ≠ c.id }
  else deliver c k s

/-- A command completed with a status, RESULT and RESULT2. -/
def complete (c : Cmd) (st : Status) (result result2 : Nat) (s : State) : State :=
  completeK c { tag := c.tag, status := st, result := result % 2 ^ 32, result2 := result2 % 2 ^ 32 } s

/-- SUCCESS with RESULT 0. -/
def succeed (c : Cmd) (s : State) : State := complete c .success 0 0 s

/-- INVALID_FIELD at a byte offset (R49). -/
def invalid (c : Cmd) (off : Nat) (s : State) : State := complete c .invalidField off 0 s

/-- NOT_PERMITTED with a reason, and the condition of the owning chapter for reason 10 (R49). -/
def refuse (c : Cmd) (reason cond : Nat) (s : State) : State := complete c .notPermitted reason cond s

/-- A command completed wherever it is, by its submitter and tag. -/
def completeId (id : CmdId) (st : Status) (result result2 : Nat) (s : State) : State :=
  match findCmd s id with
  | some c => complete c st result result2 s
  | none => s

/-- A command accepted, to run to its end later (R67). -/
def accept (c : Cmd) (s : State) : State := updCmd c.id (fun c => { c with phase := .waiting }) s

/-- A stallable condition met: the command waits under STALL, or completes (R64). -/
def stallOr (c : Cmd) (st : Status) (retryUs : Nat) (s : State) : State :=
  if pktStall c.pkt then
    updCmd c.id (fun d => { d with phase := .stalled, stallAt := some (d.stallAt.getD s.core.t) }) s
  else complete c st 0 retryUs s

/-! ### The command a row runs -/

/-- Whether an earlier command of the same SQ, class and CONTEXT has still to take effect (R62), or an earlier COPY of the same
SQ has still to be translated (R197), or bytes it wrote wait in a merge buffer (R225). -/
def heldBack (s : State) (c : Cmd) : Bool :=
  (s.ocp.insts.any fun i => i.2.groups.any fun g => g.2.merge.any fun m => m.writers.contains c.id) ||
  match c.id.origin with
  | .pcie _ =>
    (s.hif.cmds.takeWhile fun d => d.id ≠ c.id).any fun d =>
      decide (d.sq = c.sq) && decide (d.op.row.cls = c.op.row.cls) &&
        (decide (d.context = c.context) || (decide (d.op = .copy) && decide (c.op = .copy))) &&
        decide (d.phase = .ready ∨ d.phase = .fenced ∨ d.phase = .mailbox)
  | _ => false

/-- The command a row of an opcode may run now: fetched, past its checks, neither fenced nor stalled nor held back by
R62, and its plane not in reset (R39). -/
def runnable (s : State) (op : Opc) (id : CmdId) : Option Cmd :=
  match findCmd s id with
  | none => none
  | some c =>
    if c.op = op ∧ c.phase = .ready ∧ s.core.ctlReset = false ∧ heldBack s c = false ∧
        (c.viaMw → s.mwr.serves) then some c
    else none

/-- A meaning of an opcode row: f on the command it names, and nothing when no such command may run (log entry 2). -/
def onCmd (op : Opc) (id : CmdId) (s : State) (f : Cmd → State → State) : Out :=
  match runnable s op id with
  | some c => .next (f c s)
  | none => .next s

/-- The first failing check decides the completion, and k runs when none fails (R48). -/
def checks (l : List (Bool × (State → State))) (k : State → State) (s : State) : State :=
  match l with
  | [] => k s
  | (bad, f) :: r => if bad then f s else checks r k s

/-! ### Features (R80) -/

/-- A feature set. -/
def setFeature (id target v : Nat) (s : State) : State :=
  s.modHif fun h => { h with feats := h.feats.set (id * 2 ^ 32 + target) v }

/-! ### Events (R485 to R488) -/

/-- The 64 bytes of an event record (R485). -/
def EventRec.bytes (e : EventRec) : List Byte :=
  leBytes 2 e.code ++ leBytes 1 e.fn ++ leBytes 1 e.sev ++ leBytes 1 (flag e.ticks + 2 * flag e.overflowBefore) ++
    leBytes 3 0 ++ leBytes 8 e.time ++ leBytes 4 e.obj0 ++ leBytes 4 e.obj1 ++ leBytes 8 e.pos ++ leBytes 8 e.arg ++
    leBytes 8 e.arg2 ++ leBytes 8 e.seq ++ leBytes 8 0

/-- A record put into a ring (R487): counted when 1,024 are held; after a drop EVENT_OVERFLOW goes first. -/
def EvRing.put (g : EvRing) (e : EventRec) : EvRing × Bool :=
  let n := g.recs.length
  if 1024 ≤ n then ({ g with dropped := g.dropped + 1 }, false)
  else if g.dropped = 0 then ({ g with recs := g.recs ++ [{ e with seq := g.seq }], seq := g.seq + 1 }, true)
  else
    let o : EventRec :=
      { code := 0x0001, fn := e.fn, sev := 0, ticks := e.ticks, overflowBefore := false, time := e.time, obj0 := 0,
        obj1 := 0, pos := 0, arg := g.dropped, arg2 := 0, seq := g.seq }
    if 1023 ≤ n then ({ recs := g.recs ++ [o], seq := g.seq + 1, dropped := 1 }, false)
    else
      ({ recs := g.recs ++ [o, { e with overflowBefore := true, seq := g.seq + 1 }], seq := g.seq + 2, dropped := 0 }, true)

/-- The records a read of a ring returns: whole records within a length (R488). -/
def ringRead (g : EvRing) (len : Nat) : List EventRec := g.recs.take (len / 64)

/-- A GET_LOG of the event ring answered: the records written, released when the flag asks, SUCCESS (R488). -/
def answerRing (c : Cmd) (s : State) : State :=
  let fn := c.fn
  let g := s.evt.rings.getD fn {}
  let l := ringRead g (dw c.pkt 5)
  let s := emitData c (qw c.pkt 3) (l.flatMap EventRec.bytes) s
  let s := if fbit c.pkt 6 0 then
      s.modEvt fun e => { e with rings := e.rings.set fn { g with recs := g.recs.drop l.length } }
    else s
  complete c .success (64 * l.length) 0 s

/-- The outstanding WAIT reads of a function's ring, oldest first (R488). -/
def waitReaders (s : State) (fn : Nat) : List Cmd :=
  s.hif.cmds.filter fun c => (match c.phase with | .waitRead _ => true | _ => false) && decide (c.fn = fn)

/-- An outstanding WAIT read completes with what its ring holds; it stays where a read before it released every record
(R488; log entry 98). -/
def answerWait (s : State) (c : Cmd) : State := if (s.evt.rings.getD c.fn {}).recs = [] then s else answerRing c s

/-- An event placed in a function's ring (R485, R486); the first one answers the waiting reads (R488). -/
def raiseSev (code fn sev obj0 obj1 pos arg arg2 : Nat) (s : State) : State :=
  let e : EventRec :=
    { code, fn, sev, ticks := stampTicks s, overflowBefore := false, time := stamp s, obj0 := obj0 % 2 ^ 32,
      obj1 := obj1 % 2 ^ 32, pos := pos % 2 ^ 64, arg := arg % 2 ^ 64, arg2 := arg2 % 2 ^ 64, seq := 0 }
  let r := (s.evt.rings.getD fn {}).put e
  let s := s.modEvt fun v =>
    { v with rings := v.rings.set fn r.1, evtDrops := if r.2 then v.evtDrops else sat 0xFFFFFFFF (v.evtDrops + 1) }
  (waitReaders s fn).foldl answerWait s

/-- An event of a code raised for a function, with the severity its code has. -/
def raise (code fn obj0 obj1 pos arg arg2 : Nat) (s : State) : State :=
  raiseSev code fn (severityOf code) obj0 obj1 pos arg arg2 s

/-- An event for the PF with one object and one argument. -/
def raisePf (code obj0 arg : Nat) (s : State) : State := raise code 0 obj0 0 0 arg 0 s

/-! ### The error log (R489) -/

/-- An error record to be written. -/
structure Err where
  /-- SEVERITY. -/
  sev : Nat
  /-- SOURCE block. -/
  source : Nat
  /-- Plane of detection. -/
  plane : Nat
  /-- ERROR. -/
  code : Nat
  /-- ADDRESS. -/
  addr : Nat := 0
  /-- FN. -/
  fn : Nat := 0xFF
  /-- OBJECT. -/
  obj : Nat := 0
  /-- Block detail. -/
  detail : Nat := 0
  deriving DecidableEq, Repr

/-- An error record written: the log keeps the last 512, ERROR_LOGGED is raised, and a data-plane record goes to the
Millwright on DAT_TO_MW (R31, R487, R489). -/
def logError (e : Err) (s : State) : State :=
  let i := s.evt.elogNext
  let r : ErrRec :=
    { index := i, sev := e.sev, source := e.source, plane := e.plane, code := e.code, time := stamp s,
      ticks := stampTicks s, addr := e.addr, fn := e.fn, obj := e.obj, detail := e.detail }
  let s := s.modEvt fun v =>
    { v with
      elog := pushLast 512 v.elog r
      elogNext := (i + 1) % 2 ^ 24
      sevCnt := v.sevCnt.alter e.sev 0 fun n => sat 0xFFFFFFFF (n + 1) }
  let s := if e.plane = 1 then s.modMail fun m => { m with datToMw := m.datToMw.push (.errorRecord i) } else s
  raiseSev 0x0002 0 e.sev 0 0 0 (i + e.source * 2 ^ 24) 0 s

/-- The index the last error record took. -/
def lastErrIndex (s : State) : Nat := (s.evt.elogNext + 2 ^ 24 - 1) % 2 ^ 24

/-- INTERNAL, with the record that names the cause (R82, R489). -/
def failInternal (id : CmdId) (e : Err) (s : State) : State :=
  let s := logError e s
  completeId id .internal 0 (lastErrIndex s) s

/-- A plane-fatal error recorded: its class 3 record, and MON_FATAL_LAST with the reset cause (R491, R492). -/
def noteFatal (cause : Nat) (s : State) : State :=
  s.modEvt fun v => { v with fatalLast := cause + lastErrIndex s * 2 ^ 8 }

/-! ### Leaving IDLE (R388) -/

/-- A landing, trip, doorbell, packet or wake returns the device from IDLE to RUN: voted floors are clocked again, and
POWER_STATE_CHANGED tells the new state (R413). -/
def idleExit (s : State) : State :=
  if s.pwr.state = .idle then
    raisePf 0xD001 0 0 (s.modPwr fun p =>
      { p with
        state := .run
        doms := p.doms.mapVal fun _ d => if d.level = .gated then { d with level := .active, since := s.core.t } else d })
  else s

/-! ### Roles -/

/-- Mill role in force (R1, R7). -/
def isMill (s : State) : Bool := decide (s.core.role = .mill)
/-- Granary role in force. -/
def isGranary (s : State) : Bool := decide (s.core.role = .granary)
/-- A role is in force; without one the device brings up no fabric port (R7). -/
def hasRole (s : State) : Bool := isMill s || isGranary s

/-- A meaning that changes the state when a condition holds, and otherwise nothing (log entry 2). -/
def onEvent (p : Bool) (s : State) (f : State → State) : Out := if p then .next (f s) else .next s

/-- The device's flashes are released to the steward: what would write the persistent store waits (R436). -/
def flashReleased (s : State) : Bool := s.mwr.releasedAt.isSome

end Sys2Proof.Machine
end

