-- ==== Sys2Proof/Machine/DomOps.lean ====
section
/-! DEFINITION. Domain operations the command path needs: members, paths, messages (13). -/

namespace Sys2Proof.Machine

/-- A member is quarantined here, or this device has quarantined itself toward every member (R370, R371). -/
def quarantined (s : State) (m : Nat) : Bool := decide ((peer s m).state = .quarantined) || s.dom.dupAt.isSome

/-- The other members of the table. -/
def otherMembers (s : State) : List Nat := (s.dom.members.map (·.1)).filter fun m => m ≠ ownMember s

/-- A message sent to each of a list of members. -/
def sendAll (l : List Nat) (b : DomBody) (s : State) : State := forEach l (fun m => sendMsg m b) s

/-- The members in state UP. -/
def upMembers (s : State) : List Nat := (otherMembers s).filter fun m => (peer s m).state = .up

/-- A message fails the checks of R361 and is dropped and counted. -/
def msgBad (s : State) (h : MsgHead) : Bool :=
  !h.crcOk || decide (h.domain ≠ s.dom.id) || !s.dom.members.has h.sender || !joined s

/-- The drop counted. -/
def dropMsg (s : State) : State := s.modDom fun d => { d with drops := sat 0xFFFFFFFF (d.drops + 1) }

end Sys2Proof.Machine
end

