-- ==== Sys2Proof/Machine/MemOps.lean ====
section
/-! DEFINITION. Memory: bytes and poison, page tables, translation (06 R187 to R206). -/

namespace Sys2Proof.Machine

/-! ### Bytes (R191; log entry 6) -/

/-- What an address that is not listed reads as. -/
def unlistedByte : Byte := 0

/-- A byte of a memory. -/
def readCell (m : List Host.Cell) (a : Nat) : Byte := (Tbl.get m a).getD unlistedByte

/-- A byte written; writing what an unlisted address reads as takes the entry away. -/
def writeCell (m : List Host.Cell) (a : Nat) (b : Byte) : List Host.Cell :=
  if b = unlistedByte then Tbl.erase m a else Tbl.set m a b

/-- The canonical form: addresses strictly rising and no entry equal to what an unlisted address reads as. -/
abbrev Memory.wf (m : List Host.Cell) : Bool := Tbl.wf m && m.all fun p => decide (p.2 ≠ unlistedByte)

/-- Bytes written from an address on. -/
def writeCells (m : List Host.Cell) (a : Nat) : List Byte → List Host.Cell
  | [] => m
  | b :: r => writeCells (writeCell m a b) (a + 1) r

/-- Where DDR5 begins in the model's one list of cells. -/
def ddrBase : Nat := 2 ^ 60

/-- A byte with its poison. -/
abbrev PByte := Byte × Bool

/-- n bytes of memory with the poison of their lines. -/
def readP (m : Mem) (a n : Nat) : List PByte :=
  (List.range n).map fun i => (readCell m.cells (a + i), m.bad.has ((a + i) / 64))

/-- The lines a range of n bytes covers whole. -/
def wholeLines (a n : Nat) : List Nat :=
  let lo := (a + 63) / 64
  (List.range ((a + n) / 64 - lo)).map (lo + ·)

/-- Bytes written with poison: a line written whole is healed, and one that takes a poisoned byte is poisoned (R191). -/
def writeP (m : Mem) (a : Nat) (l : List PByte) : Mem :=
  let heal (t : Tbl Bool) : Tbl Bool := forEach (wholeLines a l.length) (fun i t => t.erase i) t
  let bad := l.zipIdx.foldl (fun t p => if p.1.2 then t.set ((a + p.2) / 64) true else t) (heal m.bad)
  { m with cells := writeCells m.cells a (l.map (·.1)), bad, weak := heal m.weak }

/-- n zero bytes written. -/
def zeroRange (m : Mem) (a n : Nat) : Mem :=
  let heal (t : Tbl Bool) : Tbl Bool := t.filter fun p => decide (p.1 < (a + 63) / 64) || decide ((a + n) / 64 ≤ p.1)
  { m with
    cells := m.cells.filter fun p => decide (p.1 < a) || decide (a + n ≤ p.1)
    bad := heal m.bad
    weak := heal m.weak }

/-! ### HBM regions (R187, R188) -/

/-- HBM bytes: 288 GB, decimal (00_scope, Headline figures and Numbers and units). -/
def hbmBytes : Nat := 288000000000

/-- MiB as bytes. -/
def mib (n : Nat) : Nat := n * 2 ^ 20

/-- Page table store base (R188): the first region from the top. -/
def ptsBase (s : State) : Nat := hbmBytes - mib s.mem.sizes.pt
/-- Gate store base. -/
def gateBase (s : State) : Nat := ptsBase s - (if isMill s then mib 128 else 0)
/-- Save pool base. -/
def saveBase (s : State) : Nat := gateBase s - mib s.mem.sizes.save
/-- Image store base. -/
def imgBase (s : State) : Nat := saveBase s - mib s.mem.sizes.image
/-- Arena pool base. -/
def arenaBase (s : State) : Nat := imgBase s - (if isMill s then mib s.mem.sizes.arena else 0)
/-- MEM_HBM_LIMIT: the lowest reserved byte. A granary's region 6 holds two directory copies, the mirror index, the window table
store and the hot cache, from its top (R292, R295). -/
def hbmLimit (s : State) : Nat := arenaBase s - (if isGranary s then mib (512 + 512 + 16 + 512 + s.mem.sizes.hot) else 0)

/-- Lines of the hot cache (R294). -/
def hotLines (s : State) : Nat := mib s.mem.sizes.hot / 4096

/-- Where in HBM a line of pool memory is cached (R294, R295). -/
def hotPlace (s : State) (l : Nat) : Nat := hbmLimit s + 4096 * (Config.hotAt l % max 1 (hotLines s))

/-- The entry of a bin in directory copy A (0) or B (1) (R295). -/
def dirAt (s : State) (copy i : Nat) : Nat := arenaBase s - mib (512 * (copy + 1)) + 128 * i

/-! ### DDR5 layout (R189, R190) -/

/-- A pair. -/
def pairOf (s : State) (p : Nat) : Pair := s.mem.pairs.getD p {}

/-- GiB of a DIMM by its code. -/
def dimmGib (code : Nat) : Nat := 16 * 2 ^ code

/-- Bytes of a pair: two channels of its DIMMs. -/
def pairBytes (q : Pair) : Nat := 2 * q.dpc * dimmGib q.gib * 2 ^ 30

/-- The pairs that take part in the layout: those populated and accepted at training. -/
def layoutPairs (s : State) : List Nat := numsWhere 8 fun p => decide ((pairOf s p).state ≠ .absent) && !(pairOf s p).refused

/-- Bytes of DDR5 populated. -/
def ddrBytes (s : State) : Nat := ((layoutPairs s).map fun p => pairBytes (pairOf s p)).foldl (· + ·) 0

/-- The pair a mill's DDR5 address lies on: granules go round the channels in service (R190). -/
def millPair (s : State) (a : Nat) : Nat :=
  let l := layoutPairs s
  if l = [] then 0 else l.getD ((a / 4096) % (2 * l.length) / 2) 0

/-- The first DDR5 byte of a pair: pairs in pair order (R190). -/
def pairBase (s : State) (p : Nat) : Nat :=
  (((layoutPairs s).filter fun q => q < p).map fun q => pairBytes (pairOf s q)).foldl (· + ·) 0

/-- The pair a granary's DDR5 address lies on (R190). -/
def granaryPair (s : State) (a : Nat) : Nat :=
  ((layoutPairs s).filter fun p => decide (pairBase s p ≤ a)).getLastD 0

/-- The pair a DDR5 address lies on, by role. -/
def ddrPair (s : State) (a : Nat) : Nat := if isGranary s then granaryPair s a else millPair s a

/-- The channel a DDR5 address lies on (R190): granules alternate, within a pair or over the channels in service. -/
def ddrChannel (s : State) (a : Nat) : Nat :=
  if isGranary s then 2 * granaryPair s a + (a - pairBase s (granaryPair s a)) / 4096 % 2
  else 2 * millPair s a + a / 4096 % 2

/-! ### Address spaces (R194 to R196) -/

/-- Bytes of a page. -/
def PageSize.bytes : PageSize → Nat
  | .p64K => 2 ^ 16
  | .p2M => 2 ^ 21
  | .p1G => 2 ^ 30

/-- The page size a PAGE code names. -/
def PageSize.ofCode : Nat → Option PageSize
  | 0 => some .p64K
  | 1 => some .p2M
  | 2 => some .p1G
  | _ => none

/-- The target a TARGET code names. -/
def Target3.ofCode : Nat → Option Target3
  | 0 => some .hbm
  | 1 => some .ddr
  | 2 => some .host
  | _ => none

/-- TARGET code. -/
def Target3.code : Target3 → Nat
  | .hbm => 0
  | .ddr => 1
  | .host => 2

/-- Bytes of an extent. -/
def Extent.len (e : Extent) : Nat := e.count * e.page.bytes
/-- One past the last VA of an extent. -/
def Extent.end_ (e : Extent) : Nat := e.va + e.len

/-- The part of an extent below lo and the part from hi on. -/
def Extent.cut (e : Extent) (lo hi : Nat) : List Extent :=
  let b := e.page.bytes
  if hi ≤ e.va ∨ e.end_ ≤ lo then [e]
  else
    (if e.va < lo then [{ e with count := (lo - e.va) / b }] else []) ++
      (if hi < e.end_ then [{ e with va := hi, addr := e.addr + (hi - e.va), count := (e.end_ - hi) / b }] else [])

/-- The leaves without those of a range. -/
def unmapRange (l : List Extent) (lo hi : Nat) : List Extent := l.flatMap fun e => e.cut lo hi

/-- An extent put in VA order. -/
def insertExtent (e : Extent) : List Extent → List Extent
  | [] => [e]
  | x :: r => if e.va < x.va then e :: x :: r else x :: insertExtent e r

/-- Whether a range cuts through a page. -/
def splitsPage (l : List Extent) (lo hi : Nat) : Bool :=
  l.any fun e =>
    let cutAt (x : Nat) : Bool := decide (e.va < x) && decide (x < e.end_) && decide ((x - e.va) % e.page.bytes ≠ 0)
    cutAt lo || cutAt hi

/-- Whether any page of a range is mapped. -/
def rangeMapped (l : List Extent) (lo hi : Nat) : Bool := l.any fun e => decide (e.va < hi) && decide (lo < e.end_)

/-- How many tables cover extents at a granularity of 2^k bytes of VA: extents in VA order, the last number counted. -/
def countTables (k : Nat) : List Extent → Option Nat → Nat
  | [], _ => 0
  | e :: r, last =>
    let a := e.va / 2 ^ k
    let b := (e.end_ - 1) / 2 ^ k
    (b + 1 - a) - (if last = some a then 1 else 0) + countTables k r (some b)

/-- Bytes of page tables an address space takes (R195). -/
def tableBytes (l : List Extent) : Nat :=
  let small := l.filter fun e => e.page ≠ .p1G
  let tiny := l.filter fun e => e.page = .p64K
  4096 + 4096 * countTables 48 l none + 4096 * countTables 39 l none + 4096 * countTables 30 small none +
    256 * countTables 21 tiny none

/-- Bytes of the page table store in use: the tables of every space, and those an UNMAP frees only when it ends (R199). -/
def ptsUsed (s : State) : Nat :=
  (s.mem.spaces.map fun p => tableBytes p.2.extents).foldl (· + ·) 0 + (s.mem.drains.map (·.tables)).foldl (· + ·) 0

/-- A translation fault: VA, level reached, cause (R205), and for a poisoned table read its line. -/
structure XFault where
  /-- VA of the faulting page. -/
  va : Nat
  /-- Level reached. -/
  level : Nat
  /-- Cause. -/
  cause : Nat
  /-- The poisoned line of a table, by address / 64. -/
  line : Nat := 0
  deriving DecidableEq, Repr

/-- The level at which the walk of an unmapped VA finds no entry (R195, R196). -/
def missLevel (l : List Extent) (va : Nat) : Nat :=
  let near (k : Nat) : Bool := l.any fun e => decide (e.va / 2 ^ k ≤ va / 2 ^ k) && decide (va / 2 ^ k ≤ (e.end_ - 1) / 2 ^ k)
  if !near 48 then 4 else if !near 39 then 3 else if !near 30 then 2 else if !near 21 then 1 else 0

/-- The level of a leaf of a page size. -/
def PageSize.level : PageSize → Nat
  | .p64K => 0
  | .p2M => 1
  | .p1G => 2

/-- The leaf a VA is mapped by. -/
def leafOf (l : List Extent) (va : Nat) : Option Extent := l.find? fun e => decide (e.va ≤ va) && decide (va < e.end_)

/-- Uses that translate a range differ in the targets they allow. -/
structure Use where
  /-- It writes. -/
  write : Bool := false
  /-- DDR5 is allowed. -/
  ddr : Bool := true
  /-- Host memory is allowed. -/
  host : Bool := true
  deriving DecidableEq, Repr

/-- Whether a use allows a target. -/
def Use.allows (u : Use) : Target3 → Bool
  | .hbm => true
  | .ddr => u.ddr
  | .host => u.host

/-- The translation of n bytes from va through the leaves of a space, extent by extent (R196): the runs of bytes, or the
first fault. The fuel is the number of extents it may cross. -/
def walkRange (u : Use) (l : List Extent) : Nat → Nat → Nat → Except XFault (List Seg)
  | _, _, 0 => .ok []
  | 0, va, _ + 1 => .error { va, level := missLevel l va, cause := 1 }
  | fuel + 1, va, n + 1 =>
    match leafOf l va with
    | none => .error { va, level := missLevel l va, cause := 1 }
    | some e =>
      if u.write && !e.w then .error { va, level := e.page.level, cause := 2 }
      else if !u.allows e.target then .error { va, level := e.page.level, cause := 3 }
      else
        let k := min (n + 1) (e.end_ - va)
        match walkRange u l fuel (va + k) (n + 1 - k) with
        | .error f => .error f
        | .ok r => .ok ({ target := e.target, addr := e.addr + (va - e.va), len := k } :: r)

/-- The bytes that an entry of a table of a level spans (R195). -/
def pointerSpan (level : Nat) : Nat := if level = 0 then 2 ^ 16 else 2 ^ (12 + 9 * level)

/-- The physical address of the table of a level that a walk of a VA reads, in the page table store (R188, R195). -/
def tableAddr (s : State) (asid level va : Nat) : Nat :=
  let unit := if level = 0 then 256 else 4096
  ptsBase s + Config.tableAt asid level (if level = 4 then 0 else va / pointerSpan (level + 1)) % (mib s.mem.sizes.pt / unit) * unit

/-- The line of the entry that a walk of a VA reads at a level (R195). -/
def tableLine (s : State) (asid level va : Nat) : Nat :=
  (tableAddr s asid level va + 8 * (va / pointerSpan level % (if level = 0 then 32 else 512))) / 64

/-- The first entry of a walk down to a level that lies on a line with an uncorrectable error (R196): its level and line. -/
def badTable (s : State) (asid va last : Nat) : Option (Nat × Nat) :=
  if s.mem.bad.isEmpty && s.mem.weak.isEmpty then none
  else
    ([4, 3, 2, 1, 0].filter fun l => decide (last ≤ l)).findSome? fun l =>
      let k := tableLine s asid l va
      if s.mem.bad.has k || s.mem.weak.getD k false then some (l, k) else none

/-- The pages of a space that a range touches: first VA and level of the leaf. -/
def pagesOf (l : List Extent) (va n : Nat) : List (Nat × Nat) :=
  l.flatMap fun e =>
    if e.va < va + n ∧ va < e.end_ then
      let b := e.page.bytes
      let lo := max e.va (va / b * b)
      (List.range (ceilDiv (min e.end_ (va + n) - lo) b)).map fun i => (lo + i * b, e.page.level)
    else []

/-- The first page of a range whose walk reads a poisoned table line and that no cached leaf spares (R196, R205). -/
def badPage (s : State) (asid : Nat) (l : List Extent) (va n : Nat) : Option XFault :=
  if s.mem.bad.isEmpty && s.mem.weak.isEmpty then none
  else
    (pagesOf l va n).findSome? fun p =>
      if s.mem.leafCache.contains (asid, p.1) then none
      else (badTable s asid p.1 p.2).map fun b => { va := max va p.1, level := b.1, cause := 5, line := b.2 }

/-- The translation of a range of an address space for a function (R193, R196, R205). -/
def translate (s : State) (u : Use) (asid va n : Nat) : Except XFault Held :=
  match s.mem.spaces.get asid with
  | none => .error { va, level := 4, cause := 6 }
  | some sp =>
    match walkRange u sp.extents (sp.extents.length + 1) va n with
    | .error f =>
      match badPage s asid sp.extents va (f.va - va), badTable s asid f.va f.level with
      | some b, _ => .error b
      | none, some b => .error { va := f.va, level := b.1, cause := 5, line := b.2 }
      | none, none => .error f
    | .ok segs =>
      match badPage s asid sp.extents va n with
      | some b => .error b
      | none => .ok { asid, va, len := n, segs := segs.map fun g => { g with fn := sp.fn } }

/-! ### Errors of the memories (R191, R212) -/

/-- The channel of a cell: stack × 16 + channel of HBM, or the DDR5 channel (R187, R190). -/
def cellChannel (s : State) (a : Nat) : Nat :=
  if ddrBase ≤ a then ddrChannel s (a - ddrBase)
  else (a / 4096) % 8 * 16 + (((a / 4096) >>> 3) ^^^ ((a / 4096) >>> 7)) % 16

/-- MEM_ERR_LAST and MEM_ERR_ADDR take an error of a kind at a cell (R212). -/
def noteErr (kind a : Nat) (s : State) : State :=
  let isDdr := decide (ddrBase ≤ a)
  s.modMem fun m =>
    { m with errLast := kind + 4 * flag isDdr + 8 * cellChannel s a, errAddr := if isDdr then a - ddrBase else a }

/-- A pair changed. -/
def modPair (p : Nat) (f : Pair → Pair) (s : State) : State := s.modMem fun m => { m with pairs := m.pairs.alter p {} f }

/-- A correctable error: counted in the CE count of its channel, of a DDR5 pair in MEM_DDR_PAIR (R191, R212). -/
def dramCe (a : Nat) (s : State) : State :=
  let s := noteErr 1 a s
  if ddrBase ≤ a then modPair (ddrPair s (a - ddrBase)) (fun q => { q with ce := sat 0xFFFF (q.ce + 1) }) s
  else s.modMem fun m => { m with hbmCe := m.hbmCe.alter (cellChannel s a) 0 (· + 1) }

/-- A translation fault counted; a poisoned table read is recorded in MEM_ERR_LAST as kind 3 (R196, R212). -/
def noteFault (f : XFault) (s : State) : State :=
  let s := s.modMem fun m => { m with xfaults := sat 0xFFFFFFFF (m.xfaults + 1) }
  if f.cause = 5 then noteErr 3 (64 * f.line) s else s

/-- DETAIL and RESULT2 of a translation fault, without the item index (R205, R272). -/
def XFault.result2 (f : XFault) : Nat := bits f.va 56 48 + f.level * 2 ^ 9 + f.cause * 2 ^ 12

/-- RESULT and RESULT2 of an XLATE_FAULT (R205). -/
def xlateFault (c : Cmd) (f : XFault) (item : Nat) (s : State) : State :=
  complete c .xlateFault (bits f.va 47 16) (f.result2 + item * 2 ^ 16) (noteFault f s)

/-- The walk cache after a walk from the root to a leaf of a level (R196, log entry 97): the pointers read on the way. -/
def walked (asid va leaf : Nat) (w : List (Nat × Nat × Nat)) : List (Nat × Nat × Nat) :=
  ([4, 3, 2, 1].filter fun l => decide (leaf < l)).foldl
    (fun w l =>
      let p := (asid, l, va / pointerSpan l * pointerSpan l)
      if w.contains p then w else pushLast 512 w p) w

/-- The pages a translation touched, in the leaf cache; those not there were walked and counted (R196, R212). -/
def noteWalks (h : Held) (s : State) : State :=
  match s.mem.spaces.get h.asid with
  | none => s
  | some sp =>
    s.modMem fun m =>
      (pagesOf sp.extents h.va h.len).foldl
        (fun m p =>
          if m.leafCache.contains (h.asid, p.1) then m
          else
            { m with
              leafCache := pushLast 4096 m.leafCache (h.asid, p.1)
              walkCache := walked h.asid p.1 p.2 m.walkCache
              walks := sat 0xFFFFFFFF (m.walks + 1) }) m

/-- The ASID is the function's (R193). -/
def ownsAsid (s : State) (fn asid : Nat) : Bool :=
  match s.mem.spaces.get asid with
  | some sp => decide (sp.fn = fn)
  | none => false

/-- An ASID field that names another function's address space (R193). -/
def asidBad (s : State) (fn asid : Nat) : Bool := s.mem.spaces.has asid && !ownsAsid s fn asid

/-! ### Moving data through translated runs -/

/-- The model's cell address of a byte of a local run. -/
def Seg.cell (g : Seg) : Nat := if g.target = .ddr then ddrBase + g.addr else g.addr

/-- Whether a run lies on a DDR5 pair that serves no access, in mill role (R192). -/
def segDown (s : State) (g : Seg) : Bool :=
  decide (g.target = .ddr) && decide ((pairOf s (millPair s g.addr)).state ≠ .up)

/-- The bytes of a run; host bytes come from the bus operand, read with the requester ID that the run carries. -/
def readSeg (s : State) (bus : Bus) (g : Seg) : List PByte :=
  match g.target with
  | .host => (Bus.bytes bus g.addr g.len).map fun b => (b, false)
  | _ => if segDown s g then List.replicate g.len (0, true) else readP s.mem g.cell g.len

/-- The bytes of a translated range. -/
def readHeld (s : State) (bus : Bus) (h : Held) : List PByte := h.segs.flatMap (readSeg s bus)

/-- Bytes written to a run. -/
def writeSeg (g : Seg) (l : List PByte) (s : State) : State :=
  match g.target with
  | .host => emit (.hostWrite g.fn g.addr (l.map (·.1))) s
  | _ => if segDown s g then s else s.modMem fun m => writeP m g.cell l

/-- Bytes written along runs, in order. -/
def writeSegs : List Seg → List PByte → State → State
  | [], _, s => s
  | g :: r, l, s => writeSegs r (l.drop g.len) (writeSeg g (l.take g.len) s)

/-- The part of some runs from an offset on, n bytes. -/
def subSegs : List Seg → Nat → Nat → List Seg
  | [], _, _ => []
  | g :: r, off, n =>
    if n = 0 then []
    else if g.len ≤ off then subSegs r (off - g.len) n
    else
      let k := min n (g.len - off)
      { g with addr := g.addr + off, len := k } :: subSegs r 0 (n - k)

/-- Whether two lists of runs share a physical byte. -/
def segsOverlap (a b : List Seg) : Bool :=
  a.any fun x => b.any fun y =>
    decide (x.target = y.target) && decide (x.addr < y.addr + y.len) && decide (y.addr < x.addr + x.len)

/-- Whether a held translation covers part of a range of an address space. -/
def Held.covers (h : Held) (asid lo hi : Nat) : Bool :=
  decide (h.asid = asid) && decide (h.va < hi) && decide (lo < h.va + h.len)

/-- An uncorrectable HBM or DDR5 read: its line is poisoned, and DRAM_UE is raised and logged (R191). A line of the hot cache that
it lies in is dropped (R294). -/
def dramUe (a : Nat) (s : State) : State :=
  let s := noteErr 2 a (s.modMem fun m => { m with bad := m.bad.set (a / 64) true, weak := m.weak.erase (a / 64) })
  let s := s.modGrn fun g =>
    { g with hot := g.hot.filter fun l => decide (ddrBase ≤ a) || decide (a < hotPlace s l) || decide (hotPlace s l + 4096 ≤ a) }
  raisePf 0x6005 0 s.mem.errAddr (logError { sev := 2, source := 0x04, plane := 1, code := 0x6005, addr := s.mem.errAddr } s)

/-- The errors that have come into memory by a row (log entry 108). -/
def weaken (bus : Bus) (s : State) : State :=
  if bus.errs.isEmpty then s
  else s.modMem fun m => { m with weak := bus.errs.foldl (fun t e => t.set (e.1 / 64) e.2) m.weak }

/-- A read meets a line with an error: a correctable one is corrected and counted, any other leaves the line poisoned (R191). -/
def meetLine (s : State) (e : Nat × Bool) : State :=
  let s := s.modMem fun m => { m with weak := m.weak.erase e.1, bad := if e.2 then m.bad.set e.1 true else m.bad }
  if e.2 then s else dramCe (64 * e.1) s

/-- A read of n cells meets the errors on their lines. -/
def meetCells (a n : Nat) (s : State) : State :=
  (s.mem.weak.filter fun e => decide (a < 64 * e.1 + 64) && decide (64 * e.1 < a + n)).foldl meetLine s

/-- The first cell of a range that lies on a poisoned line. -/
def badCell (s : State) (a n : Nat) : Option Nat :=
  (s.mem.bad.find? fun e => decide (a < 64 * e.1 + 64) && decide (64 * e.1 < a + n)).map fun e => max a (64 * e.1)

/-- A range of cells read: errors met, and a poisoned line reported (R191). -/
def meetRange (a n : Nat) (s : State) : State :=
  let s := meetCells a n s
  match badCell s a n with
  | some k => dramUe k s
  | none => s

/-- A range of lines written whole without a byte of its data changing: what was wrong with them is healed (R191). -/
def healLines (a n : Nat) (s : State) : State :=
  let heal (t : Tbl Bool) : Tbl Bool := t.filter fun p => decide (p.1 < a / 64) || decide ((a + n) / 64 ≤ p.1)
  s.modMem fun m => { m with bad := heal m.bad, weak := heal m.weak }

/-- A read of some runs meets the errors on their lines; a pair that serves no access is not read. -/
def meetWeak (l : List Seg) (s : State) : State :=
  l.foldl (fun s g => if g.target = .host ∨ segDown s g then s else meetCells g.cell g.len s) s

/-- The cell address of the first poisoned line of some runs, or of a run on a pair that serves no access (R191, R192). -/
def badLine (s : State) : List Seg → Option Nat
  | [] => none
  | g :: r =>
    let here :=
      if g.target = .host ∨ g.len = 0 then none
      else if segDown s g then some g.cell
      else badCell s g.cell g.len
    match here with
    | some a => some a
    | none => badLine s r

/-- A read of some runs meets poison: its first line is reported, so that the completion can name the record (R191, R222). -/
def meetPoison (l : List Seg) (s : State) : State :=
  match badLine s l with
  | some a => dramUe a s
  | none => s

/-- Some runs read by a requester: their bytes, with the errors met on the way (R191). -/
def readMem (bus : Bus) (l : List Seg) (s : State) : List PByte × State :=
  let s := meetWeak l (weaken bus s)
  let d := l.flatMap (readSeg s bus)
  (d, if d.any fun b => b.2 then meetPoison l s else s)

end Sys2Proof.Machine
end

