-- ==== Sys2Proof/Machine/MirrorOps.lean ====
section
/-! DEFINITION. The copies of a granary and their mirrors, as a queue pair or a partner that goes breaks them (10 R304,
R310). -/

namespace Sys2Proof.Machine

/-- A directory entry. -/
def binEntry (s : State) (i : Nat) : Bin := s.grn.dir.getD i {}

/-- Both copies of an entry written whole (R295). -/
def dirHeal (i : Nat) (s : State) : State := healLines (dirAt s 0 i) 128 (healLines (dirAt s 1 i) 128 s)

/-- A directory entry changed, in both copies (R295). -/
def modBin (i : Nat) (f : Bin → Bin) (s : State) : State := dirHeal i (s.modGrn fun g => { g with dir := g.dir.alter i {} f })

/-- Bytes of a bin. -/
def Bin.bytes (b : Bin) : Nat := 2 ^ b.size

/-! ### Data of a bin (R294, R306) -/

/-- A read of one line of pool memory through the hot cache: a hit, or a miss that allocates it. A cached line with an
uncorrectable error is dropped and read again from DDR5 (R294). -/
def hotLine (l : Nat) (s : State) : State :=
  let s := if s.grn.hot.contains l then meetRange (hotPlace s l) 4096 s else s
  if s.grn.hot.contains l then
    s.modGrn fun g => { g with hot := g.hot.filter (· ≠ l) ++ [l], hotHit := sat 0xFFFFFFFF (g.hotHit + 1) }
  else
    healLines (hotPlace s l) 4096
      (s.modGrn fun g => { g with hot := pushLast (hotLines s) g.hot l, hotMiss := sat 0xFFFFFFFF (g.hotMiss + 1) })

/-- A read of a range through the hot cache. -/
def hotRead (a n : Nat) (s : State) : State := forEach ((List.range ((a + n + 4095) / 4096 - a / 4096)).map (a / 4096 + ·)) hotLine s

/-- Lines of a range dropped from the hot cache. -/
def hotDrop (a n : Nat) (s : State) : State :=
  s.modGrn fun g => { g with hot := g.hot.filter fun l => decide (l < a / 4096) || decide ((a + n + 4095) / 4096 ≤ l) }

/-- The cell address of a byte of a bin. -/
def binCell (b : Bin) (off : Nat) : Nat := ddrBase + b.base + off

/-- Bytes of a bin. -/
def readBin (s : State) (b : Bin) (off n : Nat) : List PByte := readP s.mem (binCell b off) n

/-- Bytes written into a bin; a poisoned line leaves the hot cache (R306). -/
def writeBin (b : Bin) (off : Nat) (l : List PByte) (s : State) : State :=
  let s := s.modMem fun m => writeP m (binCell b off) l
  if l.any fun p => p.2 then hotDrop (b.base + off) l.length s else s

/-- Zeros written over a bin. -/
def zeroBin (b : Bin) (s : State) : State :=
  hotDrop b.base b.bytes (s.modMem fun m => zeroRange m (binCell b 0) b.bytes)

/-- The handle a copy is reached by: its home's (R309). -/
def Bin.handle (b : Bin) (own i : Nat) : Nat := mkHandle b.home b.carve b.gen (if b.home = own then i else b.pindex)

/-- NOTICE codes of the model: 1 an MSTATE change, 2 BIN_LOST, 3 a map copied to the standby, 4 its end, 5 a copy freed,
6 a copy to be resilvered, 7 a request to promote, 8 a copy wanted, 9 the answer to 8, 10 a map change applied, 11 a copy lost. -/
def notice (m code a b c d : Nat) (s : State) : State := sendMsg m (.notice code a b c d) s

/-- Members holding a live map of a bin. -/
def mapMembers (s : State) (b : Bin) : List Nat := (b.maps.filter fun m => decide (s.core.time < m.expiry)).map (·.member)

/-- MSTATE changed, with the notice to each member that maps the bin (R304). -/
def setMState (i : Nat) (st : MState) (s : State) : State :=
  let s := modBin i (fun b => { b with mstate := st }) s
  let b := binEntry s i
  forEach (mapMembers s b) (fun m => notice m 1 (b.handle (ownMember s) i) (flag (decide (st = .inSync))) (b.partner.getD 0) (flag b.partner.isSome)) s

/-- This copy sends its writes and map changes on to the other one (R309, R310). -/
def Bin.mirrored (b : Bin) : Bool := decide (b.role ≠ .standby) && decide (b.mstate = .syncing ∨ b.mstate = .inSync) && b.partner.isSome

/-- Commands whose map change waited for a bin's standby, those of some, completed. -/
def finishMaps (i : Nat) (mine : MapWait → Bool) (s : State) : State :=
  let l := s.grn.mapWaits.filter fun w => decide (w.bin = i) && mine w
  let s := s.modGrn fun g => { g with mapWaits := g.mapWaits.filter fun w => !(decide (w.bin = i) && mine w) }
  l.foldl (fun s w => completeId w.id .success w.result w.result2 s) s

/-- Writes admitted and held back for a chunk done on this copy alone (R310). -/
def landWaiting (i : Nat) (s : State) : State :=
  (s.tly.tokens.filter fun t => decide (t.2.bin = i) && t.2.waits.isSome).foldl
    (fun s t =>
      (writeBin (binEntry s i) t.2.offset (t.2.waits.getD []) s).modTly fun y =>
        { y with tokens := y.tokens.modify t.1 fun x => { x with waits := none } }) s

/-- A mirror broken (R310): writes that wait for the standby are done here and need it no longer, and map changes are not waited
for. -/
def breakMirror (i reason : Nat) (s : State) : State :=
  match (binEntry s i).mstate with
  | .syncing | .inSync =>
    let s := setMState i .broken s
    let s := s.modGrn fun g => { g with resilvers := g.resilvers.filter fun r => r.bin ≠ i }
    let s := landWaiting i s
    let s := s.modTly fun y =>
      { y with tokens := y.tokens.mapVal fun _ t => if t.bin = i then (match t.kind with | .write _ => { t with kind := .write false } | _ => t) else t }
    raisePf 0x9003 i (i + reason * 2 ^ 22) (finishMaps i (fun _ => true) s)
  | _ => s

/-- Every mirror of this granary broken. -/
def breakMirrors (reason : Nat) (s : State) : State :=
  forEach ((s.grn.dir.filter fun e => decide (e.2.role ≠ .standby)).map (·.1)) (fun i => breakMirror i reason) s

/-- MIRROR_QP, when it is set (R320). -/
def mirrorQp (s : State) : Option Nat := s.hif.feats.get (0x62 * 2 ^ 32)

/-- MIRROR_QP is a HANDLE-mode QP in RTS (R307, R322). -/
def mirrorUp (s : State) : Bool := (mirrorQp s).any fun q => (s.rdm.qps.get q).any fun p => decide (p.mode = 1) && decide (p.state = .rts)

/-- A queue pair leaves RTS: when it is MIRROR_QP, the mirrors break (R310). -/
def qpLeft (q : Nat) (s : State) : State := if isGranary s && decide (mirrorQp s = some q) then breakMirrors 1 s else s

end Sys2Proof.Machine
end

