-- ==== Sys2Proof/Machine/MonOps.lean ====
section
/-! DEFINITION. Samples of the monitors (17 R476 to R481), and the short forms of a refused check. -/

namespace Sys2Proof.Machine

/-! ### Checks of the owning chapters (R48 check 7, R49, R82) -/

/-- INVALID_FIELD at an offset when a condition holds. -/
def bad (b : Bool) (off : Nat) (c : Cmd) : Bool × (State → State) := (b, invalid c off)

/-- INVALID_FIELD at the first of the offending fields: each is a test and the byte offset of its lowest byte (R49). -/
def fields (c : Cmd) (l : List (Bool × Nat)) : Bool × (State → State) :=
  let o := (l.filter fun e => e.1).map (·.2)
  (!o.isEmpty, invalid c (o.foldl min 63))

/-- A reserved field of a packet, bits [hi:lo] of dword n, as an entry of `fields`. -/
def rsv (p : List Word) (n hi lo : Nat) : Bool × Nat := (decide (fld p n hi lo ≠ 0), 4 * n + lo / 8)

/-- A VA field in dwords n and n + 1 whose bits [63:57] are not 0 or that is misaligned (R194). -/
def vaField (p : List Word) (n align : Nat) : Bool × Nat := (decide (2 ^ 57 ≤ qw p n) || decide (qw p n % align ≠ 0), 4 * n)

/-- NOT_PERMITTED, reason 10, with a condition. -/
def deny (b : Bool) (cond : Nat) (c : Cmd) : Bool × (State → State) := (b, refuse c 10 cond)

/-- BUSY_RETRY, or a wait under STALL. -/
def busy (b : Bool) (retryUs : Nat) (c : Cmd) : Bool × (State → State) := (b, stallOr c .busyRetry retryUs)

/-- NO_RESOURCE. -/
def noRes (b : Bool) (c : Cmd) : Bool × (State → State) := (b, complete c .noResource 0 0)

/-! ### Absorbing a sample -/

/-- The lower bound of bin i, 1 to 31 (R479). -/
def Mon.bound (m : Mon) (i : Nat) : Nat :=
  match m.scale with
  | 0 => m.lo + (i - 1) * m.w
  | 1 => m.lo * 2 ^ (i - 1)
  | _ => m.edges.getD (i - 1) (2 ^ 64)

/-- The bin of a sample: the highest whose lower bound it reaches. -/
def Mon.binOf (m : Mon) (x : Nat) : Nat := ((List.range 32).filter fun i => decide (i = 0 ∨ m.bound i ≤ x)).getLastD 0

/-- The fields after a sample (R478). -/
def Mon.absorb (m : Mon) (x : Nat) : Mon :=
  { m with
    count := sat (2 ^ 48 - 1) (m.count + 1)
    sum := sat (2 ^ 64 - 1) (m.sum + x)
    min := Nat.min m.min x
    max := Nat.max m.max x
    bins := m.bins.alter (m.binOf x) 0 fun n => sat 0xFFFFFFFF (n + 1) }

/-- A monitor at its first-use values (R478); samples that wait are no field of it and count in what follows (R483). -/
def Mon.first (now : Nat) (m : Mon) : Mon :=
  { m with count := 0, sum := 0, min := 0xFFFFFFFFFFFFFFFF, max := 0, bins := [], dropped := 0, clearedAt := now }

/-- A sample taken at a Wheelhouse cycle: absorbed at once, queued behind the others, or dropped past 16 (R480). -/
def Mon.take (cycle x : Nat) (m : Mon) : Mon :=
  if m.busyUntil ≤ cycle then { m.absorb x with busyUntil := cycle + 1 }
  else if 16 ≤ m.queued.length then { m with dropped := sat 0xFFFFFFFF (m.dropped + 1) }
  else { m with queued := m.queued ++ [(m.busyUntil, x)], busyUntil := m.busyUntil + 1 }

/-- Samples whose cycle has come are absorbed (R480). -/
def Mon.drain (cycle : Nat) (m : Mon) : Mon :=
  let go := m.queued.filter fun q => decide (q.1 ≤ cycle)
  go.foldl (fun m q => m.absorb q.2) { m with queued := m.queued.filter fun q => decide (cycle < q.1) }

/-- The Wheelhouse domain is clocked: monitors take samples (R387, R481). -/
def monsOn (s : State) : Bool :=
  decide (s.pwr.state = .run ∨ s.pwr.state = .idle ∨ s.pwr.state = .sleep ∨ s.pwr.state = .entering)

/-- A sample of a source offered to every monitor of it that a filter lets through (R476, R477). -/
def sample (source x : Nat) (p : Mon → Bool) (s : State) : State :=
  if monsOn s then
    s.modEvt fun e =>
      { e with
        mons := e.mons.mapVal fun _ m => if m.source = source ∧ p m then m.take (whlCycles s) (x % 2 ^ 64) else m }
  else s

/-- FILTER_A of the sources that give a low and a high number. -/
def Mon.within (m : Mon) (w n : Nat) : Bool :=
  decide (m.filtA % 2 ^ w ≤ n) && decide (n ≤ m.filtA / 2 ^ 16 % 2 ^ w)

end Sys2Proof.Machine
end

