-- ==== Sys2Proof/Machine/OcpOps.lean ====
section
/-! DEFINITION. On-chip memory protection: the code, word states, merge buffers, remap (07). -/

namespace Sys2Proof.Machine

/-! ### The code (R214 to R217) -/

/-- How many bits of an eight-bit value are set. -/
def weight8 (v : Nat) : Nat := (maskBits 8 v).length

/-- Columns 0 to 55: the values of weight 3 in rising order. -/
def cols3 : List Nat := numsWhere 256 fun v => decide (weight8 v = 3)

/-- col(i) (R214). -/
def ocpCol (i : Nat) : Nat :=
  if i < 56 then cols3.getD i 0 else [0x1F, 0x2F, 0x37, 0x3B, 0x3D, 0x3E, 0x4F, 0x57].getD (i - 56) 0

/-- F(k): the values of weight 2 in rising order (R215). -/
def ocpF (k : Nat) : Nat := (numsWhere 256 fun v => decide (weight8 v = 2)).getD k 0

/-- The XOR of a function over the set bits of a number. -/
def xorBits (n : Nat) (f : Nat → Nat) (v : Nat) : Nat := (maskBits n v).foldl (fun a i => a ^^^ f i) 0

/-- The address fold (R215). -/
def ocpFold (a : Nat) : Nat := xorBits 21 ocpF a

/-- check(d, a) (R216). -/
def ocpCheck (d a : Nat) : Nat := ocpFold a ^^^ xorBits 64 ocpCol d

/-- Classes of a read (R217, R218). -/
inductive OClass where
  /-- CLEAN. -/
  | clean
  /-- CE_DATA of a bit. -/
  | ceData (i : Nat)
  /-- CE_CHECK of a check bit. -/
  | ceCheck (j : Nat)
  /-- UE_ADDRESS. -/
  | ueAddress
  /-- UE_MULTI. -/
  | ueMulti
  /-- UE_POISON. -/
  | uePoison
  deriving DecidableEq, Repr

/-- The class a syndrome names (R217). -/
def classOf (s : Nat) : OClass :=
  if s = 0 then .clean
  else
    match (List.range 64).find? fun i => decide (ocpCol i = s) with
    | some i => .ceData i
    | none =>
      match (List.range 8).find? fun j => decide (2 ^ j = s) with
      | some j => .ceCheck j
      | none => if (List.range 21).any fun k => decide (ocpF k = s) then .ueAddress else .ueMulti

/-- The code of a class (R217, R218). -/
def OClass.code : OClass → Nat
  | .clean => 0
  | .ceData _ => 1
  | .ceCheck _ => 2
  | .ueAddress => 3
  | .ueMulti => 4
  | .uePoison => 5

/-- The class and syndrome of a stored word at its address. -/
def OWord.classAt (w : OWord) (a : Nat) : OClass × Nat :=
  let syn := w.check ^^^ ocpCheck w.data a
  if w.bad then (.uePoison, syn) else (classOf syn, syn)

/-! ### Instances (R213) -/

/-- Words per group. -/
def groupWords (inst : Nat) : Nat := if inst = 257 then 8192 else 65536

/-- Groups of an instance. -/
def groupCount (inst : Nat) : Nat :=
  if inst < 256 then 8 else if inst = 256 then 32 else if inst = 257 then 1 else if inst = 258 then 16 else 4

/-- The group a word lies in (log entry 28). -/
def groupOf (inst word : Nat) : Nat := word / groupWords inst

/-- ns after which a merge entry has aged 32 cycles (R213, R224); the stone clock is 2.00 GHz under a headroom grant (R22). -/
def mergeAge (s : State) (inst : Nat) : Nat :=
  if inst < 256 then (if s.pwr.boost then 16 else 18) else if inst ≤ 257 then 27 else if inst = 258 then 20 else 64

/-- The class of an instance (R232). -/
def instClass (inst : Nat) : Nat := if inst < 256 then 0 else inst - 255

/-- An instance. -/
def ocpInst (s : State) (i : Nat) : OInst := s.ocp.insts.getD i {}

/-- An instance changed. -/
def modInst (i : Nat) (f : OInst → OInst) (s : State) : State :=
  s.modOcp fun o => { o with insts := o.insts.alter i {} f }

/-- A group changed. -/
def modGroup (i g : Nat) (f : OGroup → OGroup) (s : State) : State :=
  modInst i (fun x => { x with groups := x.groups.alter g {} f }) s

/-- A group. -/
def ocpGroup (s : State) (i g : Nat) : OGroup := (ocpInst s i).groups.getD g {}

/-- Whether an instance is clocked (R389). -/
def clocked (s : State) (i : Nat) : Bool :=
  if i < 256 then decide ((s.pwr.doms.getD (i / 16) {}).level = .active)
  else if i ≤ 257 then decide (s.pwr.state = .run ∨ s.pwr.state = .idle ∨ s.pwr.state = .entering)
  else if i = 258 then isGranary s && decide (s.pwr.state = .run ∨ s.pwr.state = .idle ∨ s.pwr.state = .entering)
  else !(s.mwr.wfi && decide (s.mwr.wfiMode ≠ 0))

/-- The scrubber clock of an instance. -/
def scrubClock (i : Nat) : Nat := if i < 256 then i / 16 else if i ≤ 257 then 16 else i - 241

/-- An instance that runs on a scrubber clock. -/
def clockInst (k : Nat) : Nat := if k < 16 then 16 * k else if k = 16 then 256 else k + 241

/-- Clocked time of an instance, ns (R230, R231). -/
def clockedTime (s : State) (i : Nat) : Nat := s.core.t - s.ocp.gated.getD (scrubClock i) 0

/-- A nanosecond of the gated scrubber clocks. -/
def holdGated (s : State) : State :=
  s.modOcp fun o =>
    { o with
      gated := ((List.range 19).filter fun k => !clocked s (clockInst k)).foldl (fun t k => t.alter k 0 (· + 1)) o.gated }

/-- The protected memories at a cold reset at an instant: every lap starts then. -/
def Ocp.fresh (t : Nat) : Ocp := if t = 0 then {} else { gated := (List.range 19).map fun k => (k, t) }

/-! ### Reporting (R227, R234) -/

/-- MEM_OCP_LAST and its word. -/
def ocpLast (i g code word syn : Nat) (scrub : Bool) (s : State) : State :=
  s.modOcp fun o =>
    { o with last := i + g * 2 ^ 9 + code * 2 ^ 14 + flag scrub * 2 ^ 17 + syn * 2 ^ 24, lastWord := word }

/-- An alarm bit. -/
def ocpAlarm (b : Nat) (s : State) : State := s.modOcp fun o => { o with alarm := o.alarm ||| 2 ^ b }

/-- The plane an instance belongs to (R22, R213). -/
def ocpPlane (i : Nat) : Nat := if i = 259 then 2 else if i ≤ 255 ∨ i = 258 then 1 else 0

/-- A correctable error counted, logged and reported at most once per ms (R234). -/
def ocpCe (i word code syn : Nat) (scrub : Bool) (s : State) : State :=
  let g := groupOf i word
  let s := ocpLast i g code word syn scrub (modInst i (fun x => { x with ce := sat 0xFFFF (x.ce + 1), ceNew := x.ceNew + 1 }) s)
  let s := logError { sev := 1, source := 0x05, plane := ocpPlane i, code := 0x7001,
                      addr := word, obj := i, detail := syn + code * 2 ^ 8 } s
  let x := ocpInst s i
  if (match x.ceAt with | some t => passed s t (ms 1) | none => true) then
    raisePf 0x7001 i (i + sat 0xFFFF x.ceNew * 2 ^ 16) (modInst i (fun x => { x with ceNew := 0, ceAt := some s.core.t }) s)
  else s

/-- SEVERITY of an uncorrectable read: the consequences that stop a plane are plane-fatal (R220, R490). -/
def ueSeverity (cons : Nat) : Nat := if cons = 3 ∨ cons = 7 then 3 else 2

/-- An uncorrectable read counted, logged and raised with its consequence (R220, R234). -/
def ocpUe (i word code syn cons : Nat) (scrub : Bool) (s : State) : State :=
  let g := groupOf i word
  let s := ocpLast i g code word syn scrub (modInst i (fun x => { x with ue := sat 0xFFFF (x.ue + 1) }) s)
  let s := logError { sev := ueSeverity cons, source := 0x05,
                      plane := ocpPlane i, code := 0x7002, addr := word, obj := i,
                      detail := syn + code * 2 ^ 8 } s
  raiseSev 0x7002 0 (ueSeverity cons) i 0 0 (i + code * 2 ^ 9 + cons * 2 ^ 12 + word * 2 ^ 16) 0 s

/-- A group marked DEGRADED (R227, R228). -/
def degrade (i g reason : Nat) (s : State) : State :=
  if (ocpGroup s i g).degraded then s
  else
    raisePf 0x7008 i (i + g * 2 ^ 9 + reason * 2 ^ 14)
      (ocpAlarm 6 (modGroup i g (fun x => { x with degraded := true, reason }) s))

/-- A number put last in a list that does not hold it. -/
def addLast (l : List Nat) (n : Nat) : List Nat := if l.contains n then l else l ++ [n]

/-- What the candidate list makes of an error (R227): bit is the data or check bit, none for UE_MULTI. -/
def candidate (i word : Nat) (b : Option Nat) (s : State) : State :=
  let g := groupOf i word
  modGroup i g
    (fun x =>
      match b with
      | some b =>
        if x.cand.contains (word, b) then { x with hard := addLast x.hard word } else { x with cand := pushLast 16 x.cand (word, b) }
      | none => if x.cand.any fun c => decide (c.1 = word) then { x with hard := addLast x.hard word } else x) s

/-! ### Words -/

/-- The bits an armed injection inverts in what is stored, for a write to a word: data and check (R233). -/
def injection (s : State) (i word : Nat) : Option (Nat × Nat) :=
  let v := s.ocp.inject
  if bit v 16 ∧ bits v 8 0 = i ∧ s.ocp.injWord = word then
    match bits v 10 9 with
    | 1 => some (s.ocp.injMask, 0)
    | 2 => some (0, 2 ^ bits v 15 11 % 256)
    | 3 => some (0, ocpFold word ^^^ ocpFold (word ^^^ 2 ^ bits v 15 11))
    | _ => some (0, 0)
  else none

/-- A word stored with its three state copies alike. -/
def putWord (i word : Nat) (w : OWord) (s : State) : State :=
  modInst i (fun x => { x with words := x.words.set word w, odd := x.odd.filter (· ≠ word) }) s

/-- A word stored VALID or POISONED with its check byte, under an armed injection, which it disarms (R218, R226, R233). -/
def injectWord (i word data : Nat) (poisoned : Bool) (s : State) : State :=
  let d := data % 2 ^ 64
  let c := ocpCheck d word ^^^ (if poisoned then 0xFF else 0)
  match injection s i word with
  | none => putWord i word ⟨d, c, poisoned⟩ s
  | some (dx, cx) =>
    putWord i word ⟨d ^^^ dx, c ^^^ cx, poisoned⟩ (s.modOcp fun o => { o with inject := o.inject - o.inject / 2 ^ 16 % 2 * 2 ^ 16 })

/-- A word stored VALID with fresh check bits (R226). -/
def storeWord (i word data : Nat) (s : State) : State := injectWord i word data false s

/-- A word stored POISONED by a reader, the scrubber or a transfer (R218); only a write or a flush meets an injection. -/
def poisonWord (i word data : Nat) (s : State) : State :=
  let d := data % 2 ^ 64
  putWord i word ⟨d, ocpCheck d word ^^^ 0xFF, true⟩ s

/-- A read of a word whose state copies differ: a correctable error of class STATE, and the copy is rewritten (R218). -/
def meetOdd (i word : Nat) (scrub : Bool) (s : State) : State :=
  if (ocpInst s i).odd.contains word then
    ocpCe i word 6 0 scrub (modInst i (fun x => { x with odd := x.odd.filter (· ≠ word) }) s)
  else s

/-- A stored word as the code gives it: class, syndrome and the corrected data. -/
def peek (s : State) (i word : Nat) : OClass × Nat × Nat :=
  match (ocpInst s i).words.get word with
  | none => (.clean, 0, 0)
  | some w =>
    match w.classAt word with
    | (.ceData b, syn) => (.ceData b, syn, w.data ^^^ 2 ^ b)
    | (c, syn) => (c, syn, w.data)

/-- The bytes of v that a mask of 8 covers, over the bytes of old. -/
def mergeBytes (mask v old : Nat) : Nat :=
  ofLe ((List.range 8).map fun i => if bit mask i then BitVec.ofNat 8 (v >>> (8 * i)) else BitVec.ofNat 8 (old >>> (8 * i)))

/-- A flush that leaves its word POISONED: OCP_POISON_WRITE, and the writers that wait for it complete POISONED, naming the
record, with RESULT2 [31] set (R222, R225). -/
def flushPoisoned (i : Nat) (m : Merge) (v : Nat) (s : State) : State :=
  let s := raisePf 0x7003 i (i + m.word * 2 ^ 16) (injectWord i m.word v true s)
  m.writers.foldl (fun s id => completeId id .poisoned 0 (2 ^ 31 + lastErrIndex s) s) s

/-- A merge entry flushed (R225). -/
def flushMerge (i : Nat) (m : Merge) (s : State) : State :=
  if m.mask = 0xFF then storeWord i m.word m.data s
  else
    let s := meetOdd i m.word false s
    let (c, syn, d) := peek s i m.word
    let v := mergeBytes m.mask m.data d
    match c with
    | .clean => storeWord i m.word v s
    | .ceData b => candidate i m.word (some b) (ocpCe i m.word 1 syn false (storeWord i m.word v s))
    | .ceCheck j => candidate i m.word (some (64 + j)) (ocpCe i m.word 2 syn false (storeWord i m.word v s))
    | .ueAddress => degrade i (groupOf i m.word) 1 (flushPoisoned i m v (ocpUe i m.word 3 syn 0 false s))
    | .ueMulti => candidate i m.word none (flushPoisoned i m v (ocpUe i m.word 4 syn 0 false s))
    | .uePoison => flushPoisoned i m v s

/-- The entry of a word taken out of its merge buffer and flushed. -/
def flushWord (i word : Nat) (s : State) : State :=
  let g := groupOf i word
  match (ocpGroup s i g).merge.find? fun m => decide (m.word = word) with
  | none => s
  | some m => flushMerge i m (modGroup i g (fun x => { x with merge := x.merge.filter fun n => decide (n.word ≠ word) }) s)

/-- The oldest entry of a group flushed. -/
def flushOldest (i g : Nat) (s : State) : State :=
  match (ocpGroup s i g).merge with
  | [] => s
  | m :: r => flushMerge i m (modGroup i g (fun x => { x with merge := r }) s)

/-- Every entry of an instance flushed (R224). -/
def flushInst (i : Nat) (s : State) : State :=
  let l := (ocpInst s i).groups.flatMap fun g => g.2.merge
  l.foldl (fun s m => flushWord i m.word s) s

/-- Every entry flushed of the instances that a reset keeps, before it takes effect (R224). -/
def flushKept (keeps : Nat → Bool) (s : State) : State := forEach ((s.ocp.insts.map (·.1)).filter keeps) flushInst s

/-- A partial write entered into the merge buffer, for a command whose completion waits for it or for none (R223 to R225). -/
def partialWrite (i word mask data : Nat) (who : Option CmdId) (s : State) : State :=
  let g := groupOf i word
  let s :=
    match (ocpGroup s i g).merge.find? fun m => decide (m.word = word) with
    | some _ =>
      modGroup i g
        (fun x =>
          { x with
            merge := x.merge.map fun m =>
              if m.word = word then
                { m with mask := m.mask ||| mask, data := mergeBytes mask data m.data, writers := m.writers ++ who.toList }
              else m }) s
    | none =>
      let s := if 8 ≤ (ocpGroup s i g).merge.length then flushOldest i g s else s
      modGroup i g
        (fun x => { x with merge := x.merge ++ [{ word, mask, data := mergeBytes mask data 0, since := s.core.t, writers := who.toList }] }) s
  match (ocpGroup s i g).merge.find? fun m => decide (m.word = word) with
  | some m => if m.mask = 0xFF then flushWord i word s else s
  | none => s

/-- A full-word write (R226); it covers every byte a waiting entry of the word holds. -/
def fullWrite (i word data : Nat) (s : State) : State :=
  storeWord i word data
    (modGroup i (groupOf i word) (fun x => { x with merge := x.merge.filter fun n => decide (n.word ≠ word) }) s)

/-- A read of a word by its user: the pending entry flushed, an error corrected or reported with the consequence of R220;
data and whether it is poisoned. -/
def readWord (i word cons : Nat) (s : State) : (Nat × Bool) × State :=
  let s := meetOdd i word false (flushWord i word s)
  let (c, syn, d) := peek s i word
  match c with
  | .clean => ((d, false), s)
  | .ceData b => ((d, false), candidate i word (some b) (ocpCe i word 1 syn false (storeWord i word d s)))
  | .ceCheck j => ((d, false), candidate i word (some (64 + j)) (ocpCe i word 2 syn false (storeWord i word d s)))
  | .ueAddress => ((d, true), degrade i (groupOf i word) 1 (ocpUe i word 3 syn cons false s))
  | .ueMulti => ((d, true), candidate i word none (ocpUe i word 4 syn cons false s))
  | .uePoison => ((d, true), ocpUe i word 5 syn cons false s)

/-- Clearing an instance (R219). -/
def clearInst (i : Nat) (s : State) : State :=
  modInst i (fun x => { x with words := [], odd := [], groups := x.groups.mapVal fun _ g => { g with merge := [] } }) s

/-- The counters a reset that clears an instance's contents clears (R231, R235). -/
def resetInst (i : Nat) (s : State) : State :=
  modInst i (fun x => { x with ce := 0, ue := 0, lap := 0xFFFFFFFF, ceNew := 0, ceAt := none }) (clearInst i s)

/-! ### Scratch -/

/-- Words from a byte offset on, n bytes: read with their poison. -/
def readScratch (stone off n : Nat) (s : State) : List PByte × State :=
  let first := off / 8
  let count := (off % 8 + n + 7) / 8
  let r := (List.range count).foldl
    (fun (acc : List PByte × State) k =>
      let (w, s) := readWord stone (first + k) 0 acc.2
      (acc.1 ++ (leBytes 8 w.1).map fun b => (b, w.2), s)) ([], s)
  ((r.1.drop (off % 8)).take n, r.2)

/-- One word of scratch written with the bytes of a run that fall into it. -/
def putScratchWord (stone off : Nat) (l : List PByte) (word : Nat) (s : State) : State :=
  let mine := (List.range 8).map fun k =>
    let a := 8 * word + k
    if off ≤ a ∧ a < off + l.length then l[a - off]? else none
  let mask := mine.zipIdx.foldl (fun m p => if p.1.isSome then m + 2 ^ p.2 else m) 0
  let data := ofLe (mine.map fun o => (o.getD (0, false)).1)
  let poisoned := mine.any fun o => (o.getD (0, false)).2
  if poisoned then poisonWord stone word (mergeBytes mask data (peek s stone word).2.2) (flushWord stone word s)
  else if mask = 0xFF then fullWrite stone word data s
  else partialWrite stone word mask data none s

/-- Bytes with poison written into scratch (R221, R223, R226). -/
def writeScratch (stone off : Nat) (l : List PByte) (s : State) : State :=
  forEach ((List.range ((off % 8 + l.length + 7) / 8)).map (off / 8 + ·)) (putScratchWord stone off l) s

end Sys2Proof.Machine
end

