-- ==== Sys2Proof/Machine/PowerOps.lean ====
section
/-! DEFINITION. Votes, idle holds and wakes of the power domains (14 R386 to R395, R411). -/

namespace Sys2Proof.Machine

/-- A power domain: 0 to 15 the floors, 25 the DDR complex. -/
def pdom (s : State) (d : Nat) : PDom := s.pwr.doms.getD d {}

/-- A power domain changed. -/
def modPdom (d : Nat) (f : PDom → PDom) (s : State) : State := s.modPwr fun p => { p with doms := p.doms.alter d {} f }

/-- The idle hold of a voteable domain (R391, R396). -/
def idleHold (s : State) (d : Nat) : Nat := if d < 16 then us (feature s 0x90 0 500) else ms (feature s 0x92 0 10)

/-- An item holds its block. -/
def Item.placed (i : Item) : Bool := decide (i.state ≠ .ready)

/-- The floors of a block. -/
def floorsFrom (base n : Nat) : List Nat := (List.range n).map (base + ·)

/-- The floors an item holds. -/
def Item.holds (i : Item) : List Nat := if i.placed then floorsFrom i.base i.floors else []

/-- A STONE_REINSTATE tests a stone of a floor (R183). -/
def testVote (s : State) (f : Nat) : Bool := s.stn.tests.any fun r => r.stones.any fun n => decide (n / 16 = f)

/-- The Wheelhouse vote on a floor (R390): derived from the items, the reservation and the tests it stands for. -/
def wheelVote (s : State) (f : Nat) : Bool :=
  s.trn.items.any (fun i => i.2.holds.contains f) ||
    (match s.trn.reserved with | some (_, b, n) => (floorsFrom b n).contains f | none => false) || testVote s f

/-- A vote that ends at an instant is still in place. -/
def still (s : State) (o : Option Nat) : Bool := match o with | some e => decide (s.core.t < e) | none => false

/-- Any vote holds a domain (R390, R391): a floor fenced with FLOOR hears only a STONE_REINSTATE. -/
def voted (s : State) (d : Nat) : Bool :=
  let p := pdom s d
  if d < 16 ∧ bit s.stn.floorFence d then testVote s d
  else !p.host.isEmpty || still s p.prewake || p.mw || p.agent || still s p.access || (decide (d < 16) && wheelVote s d)

/-- The device state lets voted domains be powered (R387). -/
def powered (s : State) : Bool :=
  decide (s.pwr.state = .run ∨ s.pwr.state = .idle) ||
    (decide (s.pwr.state = .entering) && !(s.pwr.entry.any fun e => e.committed || e.fromSleep))

/-- A domain after its votes may have changed: a voted one that is down begins to wake, one no longer voted begins its
idle hold (R391, R393). -/
def settle (d : Nat) (s : State) : State :=
  let p := pdom s d
  if d = 25 ∧ layoutPairs s = [] then s
  else if voted s d then
    match p.level with
    | .off | .retain =>
      if powered s then modPdom d (fun p => { p with wakeAt := some (p.wakeAt.getD s.core.t), clearAt := none }) s else s
    | _ => if p.clearAt.isSome then modPdom d (fun p => { p with clearAt := none }) s else s
  else
    match p.level with
    | .off | .retain => s
    | _ => if p.clearAt.isSome then s else modPdom d (fun p => { p with clearAt := some s.core.t }) s

/-- The floors and the DDR complex. -/
def voteable : List Nat := List.range 16 ++ [25]

/-- Every voteable domain settled. -/
def settleVotes (s : State) : State := forEach voteable settle s

/-- A domain dropped: a floor to OFF, the DDR complex to RETAIN. -/
def dropDom (d : Nat) (s : State) : State :=
  modPdom d
    (fun p => { p with level := if d < 16 then .off else .retain, since := s.core.t, clearAt := none, wakeAt := none,
                       access := none, prewake := if still s p.prewake then p.prewake else none }) s

/-- A first use of a domain that is not ACTIVE: it begins to wake and an access vote stays (R393). -/
def firstUse (d : Nat) (s : State) : State :=
  if (pdom s d).level = .active then s
  else
    modPdom d
      (fun p => { p with access := some (s.core.t + idleHold s d), wakeAt := some (p.wakeAt.getD s.core.t), clearAt := none }) s

/-- The DDR complex used by an access that the model serves whole (log entry 31). -/
def useDdr (s : State) : State :=
  if (pdom s 25).level = .active ∨ layoutPairs s = [] then s
  else
    modPdom 25
      (fun p => { p with level := .active, since := s.core.t, wakeAt := none, clearAt := none,
                         access := some (s.core.t + idleHold s 25) }) s

/-- Every floor of a block is ACTIVE. -/
def blockAwake (s : State) (base n : Nat) : Bool := (floorsFrom base n).all fun f => decide ((pdom s f).level = .active)

/-- The scratch of every stone of a block cleared (R219). -/
def clearBlock (base n : Nat) (s : State) : State := forEach ((List.range (16 * n)).map (16 * base + ·)) clearInst s

/-! ### Levels of the domains that take no votes (R387) -/

/-- The Wheelhouse, the HBM complex and the ports have their levels of RUN. -/
def Pwr.up (p : Pwr) : Bool := p.awake && !(p.entry.any fun e => e.fromSleep)

/-- Level of a domain as the device state and its votes have it. -/
def levelOf (s : State) (d : Nat) : Level :=
  let p := s.pwr
  let gone := decide (p.state = .off) || p.cold
  let asleep := decide (p.state = .sleep) || (p.awake && !p.up)
  if d < 16 then (pdom s d).level
  else if d = 16 then (if gone then .off else if asleep then .gated else if p.up then .active else .retain)
  else if d < 25 then (if p.up && decide ((s.prt.ports.getD (d - 17) {}).mode ≠ .disabled) then .active else .off)
  else if d = 25 then (if layoutPairs s = [] then .off else (pdom s 25).level)
  else if d = 26 then (if gone then .off else if p.up then .active else .retain)
  else if d = 27 then
    if gone then .off
    else if s.mwr.wfi then (if s.mwr.wfiMode = 2 then .retain else .gated)
    else if asleep || p.up then .active else .retain
  else if d = 28 then (if p.aoIn then .active else .off)
  else if gone then .off else .active

/-- A change of state with the time put down for every domain without votes whose level it changes. -/
def noteLevels (f : State → State) (s : State) : State :=
  let s' := f s
  forEach ((List.range 14).map (16 + ·)) (fun d a =>
    if d ≠ 25 ∧ levelOf s d ≠ levelOf a d then modPdom d (fun p => { p with since := a.core.t }) a else a) s'

/-! ### The Millwright acts (R399) -/

/-- The firmware acts: an enabled interrupt has ended a WFI of mode 0 or 1 (R399). -/
def mwAct (s : State) : State := if s.mwr.wfi then noteLevels (·.modMwr fun m => { m with wfi := false }) s else s

/-- What the firmware does when it runs and a condition holds. -/
def onMw (p : Bool) (s : State) (f : State → State) : Out := onEvent (s.mwr.running && p) s fun s => f (mwAct s)

/-- Runs of translated bytes that reach DDR5 count as a use of the DDR complex. -/
def useRuns (l : List Seg) (s : State) : State := if l.any fun g => decide (g.target = .ddr) then useDdr s else s

/-- Some runs read by a requester, with DDR5 counted as used (R191, R393). -/
def readRuns (bus : Bus) (l : List Seg) (s : State) : List PByte × State := readMem bus l (useRuns l s)

/-- The first 64-byte line of a byte string with poison, by its offset from the start (R203, R280). -/
def firstPoisoned (l : List PByte) : Option Nat := (l.findIdx? fun b => b.2).map (· / 64)

/-- Whether any byte read is poisoned. -/
def anyPoison (l : List PByte) : Bool := l.any fun b => b.2

/-! ### What the Millwright posts (R24, R31, R32) -/

/-- The firmware posts a message when it runs and a condition holds: the queue takes or drops it (R32). -/
def onPost (p : Bool) (post : State → State) (s : State) : Out := onMw p s post

/-- The control plane takes messages: it is clocked and not in reset (R23, R387). -/
def ctlTakes (s : State) : Bool := decide (s.pwr.state = .run ∨ s.pwr.state = .idle ∨ s.pwr.state = .sleep ∨ s.pwr.state = .entering) && !s.core.ctlReset

/-- The data plane takes messages: it is powered and not in reset (R23, R387). -/
def datTakes (s : State) : Bool := s.pwr.up && !s.core.datReset

/-- The front message of MW_TO_CTL met by the control plane, when it is one that f knows. -/
def onCtlMail (f : Msg → Option (State → State)) (s : State) : Out :=
  match s.mail.mwToCtl.front.bind f with
  | some k => onEvent (ctlTakes s) s fun s => k (popCtl s)
  | none => .next s

/-- The front message of MW_TO_DAT met by the data plane, when it is one that f knows. -/
def onDatMail (f : Msg → Option (State → State)) (s : State) : Out :=
  match s.mail.mwToDat.front.bind f with
  | some k => onEvent (datTakes s) s fun s => k (popDat s)
  | none => .next s

end Sys2Proof.Machine
end

