-- ==== Sys2Proof/Machine/RaceOps.lean ====
section
/-! DEFINITION. Races: positions and time, prediction and slack, the rings, the tailrace states (03). -/

namespace Sys2Proof.Machine

/-! ### Races -/

/-- smp/s of a rate code (R85). -/
def rateOf : Nat → Nat
  | 0 => 8000
  | 1 => 16000
  | 2 => 24000
  | _ => 48000

/-- The largest position (R98). -/
def posLimit : Nat := 0xFFFFFFFFFFFF

/-- An open race. -/
def raceOf (s : State) (r : Nat) : Option Race := s.whl.races.get r

/-- The race's row marked as changed since the last tick (R115). -/
def touch (r : Nat) (s : State) : State :=
  s.modWhl fun w => { w with dirty := if w.dirty.contains r then w.dirty else w.dirty ++ [r] }

/-- A race changed. -/
def modRace (r : Nat) (f : Race → Race) (s : State) : State :=
  touch r (s.modWhl fun w => { w with races := w.races.modify r f })

/-- time_of (R100). -/
def timeOf (anchor rate p : Nat) : Nat := anchor + ceilDiv (p * 1000000000) rate

/-- pos_at (R100). -/
def posAt (anchor rate t : Nat) : Nat := (t - anchor) * rate / 1000000000

/-- The base in force (R106): the later of the two, the real base on equal times; with it whether it is the refill base. -/
def baseOf (r : Race) : Option (Nat × Nat × Bool) :=
  match r.real, r.refill with
  | none, _ => none
  | some (p, t), none => some (p, t, false)
  | some (p, t), some (q, u) => if t < u then some (q, u, true) else some (p, t, false)

/-- P, the predicted playout position at a domain time (R106). -/
def playPos (r : Race) (now : Nat) : Nat :=
  match baseOf r with
  | none => max (r.w - r.jitter) r.tailStart
  | some (pb, tb, _) => min (pb + (now - tb) * rateOf r.trate / 1000000000) r.w

/-- Slack in tailrace smp (R106). -/
def slackOf (r : Race) (now : Nat) : Nat := r.w - playPos r now

/-- The quiet count, H − V − G (R99). -/
def quietOf (r : Race) : Nat := r.h - r.v - r.gap

/-- Races of a function. -/
def racesOf (s : State) (fn : Nat) : Nat := (s.whl.races.filter fun p => p.2.fn = fn).length

/-! ### Rings in memory -/

/-- Bytes written into a held range at an offset. -/
def putHeld (h : Held) (off : Nat) (data : List Byte) (s : State) : State :=
  writeSegs (subSegs h.segs off data.length) (data.map fun b => (b, false)) s

/-- Bytes of a held range, with the errors met on the way. -/
def getHeld (h : Held) (off n : Nat) (s : State) : List PByte × State := readMem {} (subSegs h.segs off n) s

/-- Where slot i of a ring begins: a 4 KiB header, then 2 KiB slots. -/
def slotOff (i : Nat) : Nat := 4096 + 2048 * i

/-- TailState code of the ring header and WHL_RSTATE. -/
def TailState.code : TailState → Nat
  | .idle => 0
  | .live => 1
  | .dry => 2

/-- The device's fields of the tailrace ring header written (R96). -/
def putTailHeader (rid : Nat) (s : State) : State :=
  match raceOf s rid with
  | none => s
  | some r =>
    let s := putHeld r.outRing 0 (leBytes 4 r.outSeq) s
    putHeld r.outRing 8
      (leBytes 8 (r.w + flag r.final * 2 ^ 63) ++ leBytes 4 r.tstate.code ++ leBytes 4 0 ++ leBytes 8 (playPos r s.core.time)) s

/-- The device's fields of the ingress ring header written (R91). -/
def putHeadHeader (rid : Nat) (s : State) : State :=
  match raceOf s rid with
  | none => s
  | some r =>
    putHeld r.inRing 8 (leBytes 8 r.h ++ leBytes 4 r.rejects) (putHeld r.inRing 0 (leBytes 4 r.inSeq) s)

/-- The tailrace ring is full (R97), the frames in check jobs counted with those in it. -/
def ringFull (r : Race) : Bool := decide (2 ^ r.outLog ≤ (r.outSeq + r.checking + 2 ^ 32 - r.readSeq) % 2 ^ 32)

/-- A release meets a full ring: TAIL_RING_FULL, once per stall (R97). -/
def tellFull (rid : Nat) (s : State) : State :=
  match raceOf s rid with
  | none => s
  | some r =>
    if r.fullTold then s
    else raise 0x3009 r.fn rid 0 r.w r.readSeq 0 (modRace rid (fun r => { r with fullTold := true }) s)

/-! ### Tailrace states (R107) -/

/-- FINAL set: DRY goes to IDLE, and LIVE without an accepted report too. -/
def Race.setFinal (r : Race) : Race :=
  { r with
    final := true
    tstate := (match r.tstate with
      | .dry => .idle
      | .live => if r.real.isNone then .idle else .live
      | .idle => .idle) }

/-- A release of n smp: W advances, IDLE and DRY go to LIVE with the refill base of R106. -/
def Race.release (now n : Nat) (r : Race) : Race :=
  let r := if n = 0 then r else
    match r.tstate with
    | .live => r
    | _ =>
      { r with
        tstate := .live
        final := if r.tstate = .idle then false else r.final
        refill := if r.real.isSome then some (r.w, now) else r.refill }
  { r with w := r.w + n }

/-- A tailrace frame written into the ring: payload, descriptor with SEQ last, then the header (R90, R97). -/
def putFrame (rid flags nsmp : Nat) (payload : List Byte) (check time turn sail : Nat) (s : State) : State :=
  match raceOf s rid with
  | none => s
  | some r =>
    let off := slotOff (r.outSeq % 2 ^ r.outLog)
    let desc := leBytes 8 r.w ++ leBytes 2 nsmp ++ leBytes 1 flags ++ leBytes 1 0 ++ leBytes 4 check ++ leBytes 8 time ++
      leBytes 1 turn ++ leBytes 1 sail ++ leBytes 2 0
    let s := putHeld r.outRing (off + 32) payload s
    let s := putHeld r.outRing (off + 28) (leBytes 4 r.outSeq) (putHeld r.outRing off desc s)
    let s := modRace rid (fun r => { r.release s.core.time nsmp with outSeq := (r.outSeq + 1) % 2 ^ 32, lastTurn := turn, lastSail := sail }) s
    let s := if bit flags 5 || bit flags 6 then modRace rid Race.setFinal s else s
    putTailHeader rid s

/-- A gap marker written, or made to wait for a slot behind a full ring or for the frames in check jobs before it (R108, R352). -/
def gapMarker (rid flags turn sail : Nat) (s : State) : State :=
  match raceOf s rid with
  | none => s
  | some r =>
    if ringFull r || !r.markers.isEmpty || decide (r.checking ≠ 0) then
      let s := modRace rid (fun r => { r with markers := r.markers ++ [⟨flags, s.core.time, turn, sail⟩] }) s
      if ringFull r then tellFull rid s else s
    else putFrame rid flags 0 [] 0 s.core.time turn sail s

/-- Waiting gap markers written while the ring has room. -/
def flushMarkers (rid : Nat) : Nat → State → State
  | 0, s => s
  | n + 1, s =>
    match raceOf s rid with
    | none => s
    | some r =>
      match r.markers with
      | [] => s
      | m :: rest =>
        if ringFull r || decide (r.checking ≠ 0) then s
        else
          flushMarkers rid n
            (putFrame rid m.flags 0 [] 0 m.time m.turn m.sail (modRace rid (fun r => { r with markers := rest }) s))

/-- The DRY transition of R107: a LIVE tailrace whose slack is 0 goes to IDLE with FINAL set, otherwise to DRY with its
gap marker and event. Without an accepted report the slack is not judged. The marker names the turn and sail of the last frame
released, and while it waits behind a full ring the ring's header keeps its STATE (DESIGN CHOICE, log entry 105). -/
def dryCheck (rid : Nat) (s : State) : State :=
  match raceOf s rid with
  | none => s
  | some r =>
    if r.tstate = .live ∧ r.real.isSome ∧ slackOf r s.core.time = 0 then
      if r.final then putTailHeader rid (modRace rid (fun r => { r with tstate := .idle }) s)
      else
        let s := modRace rid (fun r => { r with tstate := .dry }) s
        let s := gapMarker rid 0x88 r.lastTurn r.lastSail s
        raise 0x3001 r.fn rid 0 r.w (playPos r s.core.time) 0 s
    else s

/-! ### Reports (R103 to R105) -/

/-- The device is time-suspect (R374). -/
def timeSuspect (s : State) : Bool := s.dom.timeSuspect

/-- The reason a report is rejected, 0 for none (R103, R105). -/
def reportReason (s : State) (r : Race) (local_ : Bool) (pr tr : Nat) : Nat :=
  let now := s.core.time
  let tol := us (feature s 0x10 r.fn 10)
  let age := ms (feature s 0x11 r.fn 1000)
  let before (f : Nat × Nat → Bool) : Bool := match r.real with | some b => f b | none => false
  if !local_ && decide (now + tol < tr) then 1
  else if !local_ && decide (age < now - tr) then 2
  else if r.w < pr then 3
  else if pr < r.tailStart then 4
  else if before fun b => decide (pr < b.1) then 5
  else if !local_ && before fun b => decide (tr < b.2) then 6
  else 0

/-- A report validated and, when accepted, made the real base; the reason it was rejected for. R105 applies to all of them while the
device is time-suspect, and to one that comes from a member marked time-suspect (R375). -/
def applyReport (rid pr tr : Nat) (flushed fromSuspect : Bool) (s : State) : Nat × State :=
  match raceOf s rid with
  | none => (0, s)
  | some r =>
    let local_ := timeSuspect s || fromSuspect
    let tr := if local_ then s.core.time else tr
    let s :=
      if local_ && !r.playoutLocal then
        raise 0x300A r.fn rid 0 r.w 0 0 (modRace rid (fun r => { r with playoutLocal := true }) s)
      else s
    let reason := reportReason s r local_ pr tr
    if reason = 0 then
      if r.real = some (pr, tr) then (0, modRace rid (fun r => { r with playoutLocal := r.playoutLocal && local_ }) s) else
      let base := if flushed then (r.w, tr) else (pr, tr)
      (0, modRace rid (fun r => { r with real := some base, playoutLocal := r.playoutLocal && local_ }) s)
    else
      (reason, modRace rid (fun r => { r with repRej := sat 0xFFFF (r.repRej + 1), repReason := reason }) s)

end Sys2Proof.Machine
end

