-- ==== Sys2Proof/Machine/RdmOps.lean ====
section
/-! DEFINITION. The RDMA engine: rings, completions, queue pair errors, event queues (09 R267 to R290). -/

namespace Sys2Proof.Machine

/-! ### Objects -/

/-- A queue pair. -/
def qpOf (s : State) (q : Nat) : Option Qp := s.rdm.qps.get q

/-- A queue pair changed. -/
def modQp (q : Nat) (f : Qp → Qp) (s : State) : State := s.modRdm fun r => { r with qps := r.qps.modify q f }

/-- A completion queue changed. -/
def modRcq (c : Nat) (f : RCq → RCq) (s : State) : State := s.modRdm fun r => { r with cqs := r.cqs.modify c f }

/-- A PSN moved on (24 bits). -/
def psnAdd (p n : Nat) : Nat := (p + n) % 2 ^ 24

/-- Whether PSN a is at or before b, in the 24-bit order the transport uses. -/
def psnLe (a b : Nat) : Bool := decide ((b + 2 ^ 24 - a) % 2 ^ 24 < 2 ^ 23)

/-- Packets a message of n bytes takes (R286): 4,096 payload bytes each. -/
def packetsOf (n : Nat) : Nat := max 1 (ceilDiv n 4096)

/-! ### Completion queues (R273 to R275) -/

/-- An entry of a CQ: 28 bytes and the low bits of FLAGS. -/
structure RCqe where
  /-- Bytes 0 to 27. -/
  body : List Byte
  /-- FLAGS without PHASE. -/
  flags : Nat
  deriving DecidableEq, Repr

/-- An entry written into a CQ with room, with its PHASE (R54, R273); an armed CQ signals its vector (R268, R270). -/
def rcqWrite (c : Nat) (e : RCqe) (s : State) : State :=
  match s.rdm.cqs.get c with
  | none => s
  | some q =>
    let phase := flag (decide (q.prod / 2 ^ q.k % 2 = 0))
    let s := putHeld q.ring (32 * (q.prod % 2 ^ q.k)) (e.body ++ leBytes 4 (e.flags + phase * 2 ^ 31)) s
    let s := modRcq c (fun q => { q with prod := q.prod + 1, armed := false }) s
    if q.armed then emit (.msix q.fn q.vector) s else s

/-- A CQ has no room. -/
def RCq.isFull (q : RCq) : Bool := decide (2 ^ q.k ≤ q.prod - q.cons)

/-- The entry of an asynchronous event (R289). -/
def eventEntry (s : State) (code a1 a2 : Nat) : RCqe :=
  ⟨leBytes 2 code ++ leBytes 2 0 ++ leBytes 4 a1 ++ leBytes 8 a2 ++ leBytes 8 (stamp s) ++ leBytes 4 0, 4⟩

/-- An event written into the event queue of a function, or counted (R275, R289). -/
def eventTo (code a1 a2 fn : Nat) (s : State) : State :=
  match s.rdm.cqs.find? fun q => q.2.eventq && decide (q.2.fn = fn) with
  | none => s.modRdm fun r => { r with eqDrops := sat 0xFFFFFFFF (r.eqDrops + 1) }
  | some (c, q) =>
    let room := 2 ^ q.k - (q.prod - q.cons)
    if room = 0 then modRcq c (fun q => { q with dropped := q.dropped + 1 }) s
    else if q.dropped = 0 then rcqWrite c (eventEntry s code a1 a2) s
    else
      let s := modRcq c (fun q => { q with dropped := 0 }) (rcqWrite c (eventEntry s 0x0D q.dropped 0) s)
      if room = 1 then modRcq c (fun q => { q with dropped := 1 }) s else rcqWrite c (eventEntry s code a1 a2) s

/-- An event for every function. -/
def eventAll (code a1 a2 : Nat) (s : State) : State := forEach (List.range 16) (eventTo code a1 a2) s

/-- A completion of a work request (R273). -/
structure Wc where
  /-- WR_ID. -/
  wrId : Nat
  /-- BYTE_LEN. -/
  len : Nat := 0
  /-- IMM. -/
  imm : Option Nat := none
  /-- OP. -/
  op : Nat
  /-- STATUS. -/
  status : Status
  /-- DETAIL. -/
  detail : Nat := 0
  /-- RECV. -/
  recv : Bool := false
  deriving DecidableEq, Repr

/-- The entry of a completion of a QP. -/
def wcEntry (q : Nat) (w : Wc) : RCqe :=
  ⟨leBytes 8 w.wrId ++ leBytes 4 w.len ++ leBytes 4 (w.imm.getD 0) ++ leBytes 2 q ++ leBytes 1 w.op ++
      leBytes 1 w.status.code ++ leBytes 4 w.detail ++ leBytes 4 0,
    flag w.recv + 2 * flag w.imm.isSome⟩

/-- The WR_ID of a 64-byte entry. -/
def entryWrId (e : List Byte) : Nat := num e 8 8

/-- A QP's LAST_STATUS after a completion. -/
def noteStatus (q : Nat) (st : Status) (s : State) : State :=
  if st = .success then s else modQp q (fun p => { p with last := st.code }) s

/-- The QPs bound to a CQ: by SEND_CQ, by RECV_CQ, or through their SRQ (R274 to R276). -/
def qpsOnCq (s : State) (c : Nat) : List Nat :=
  (s.rdm.qps.filter fun p =>
    decide (p.2.sendCq = c ∨ p.2.recvCq = c) || p.2.srq.any fun r => (s.rdm.srqs.get r).any fun x => decide (x.cq = c)).map (·.1)

/-- The QPs that take their receive entries from an SRQ. -/
def srqQps (s : State) (n : Nat) : List Nat := (s.rdm.qps.filter fun p => decide (p.2.srq = some n)).map (·.1)

/-- A CQ enters ERROR with CQ_OVERRUN (R275); its QPs follow. -/
def cqFail (c : Nat) (s : State) : State :=
  match s.rdm.cqs.get c with
  | none => s
  | some r => eventTo 0x0B c 0 r.fn (modRcq c (fun r => { r with error := true }) s)

/-- A work completion written into its CQ. One in ERROR loses it; one that is full enters ERROR (R275). -/
def wcPut (c q : Nat) (w : Wc) (s : State) : State :=
  let s := noteStatus q w.status s
  match s.rdm.cqs.get c with
  | none => s
  | some r => if r.error then s else if r.isFull then cqFail c s else rcqWrite c (wcEntry q w) s

/-- The receive completions of a QP go to its SRQ's CQ, or to RECV_CQ (R276). -/
def recvCqOf (s : State) (p : Qp) : Nat :=
  match p.srq with
  | some r => (match s.rdm.srqs.get r with | some x => x.cq | none => p.recvCq)
  | none => p.recvCq

/-- DETAIL of a status that ends a QP (R273): the port, or the member in quarantine. -/
def Qp.detailOf (p : Qp) : Status → Nat
  | .linkDown => p.port
  | .peerQuarantined => p.member
  | _ => 0

/-- The completions of everything a QP holds when it enters ERROR: requests in flight with one status, the rest with
another, in ring order (R284). -/
def flushList (p : Qp) (flight rest : Status) : List Wc :=
  (p.sent.map fun w => { wrId := w.wrId, op := w.op, status := flight, detail := p.detailOf flight }) ++
    (p.posted.map fun e => { wrId := entryWrId e.2, op := num e.2 0 1, status := rest, detail := p.detailOf rest })

/-- The receive side's completions. -/
def flushRecv (p : Qp) : List Wc :=
  (p.recvs.map fun r => { wrId := r.wrId, op := 0, status := .aborted, recv := true }) ++
    (p.rposted.map fun e => { wrId := entryWrId e, op := 0, status := .aborted, recv := true })

/-- A QP emptied into ERROR. -/
def Qp.toError (p : Qp) : Qp :=
  { p with state := .error, sent := [], posted := [], recvs := [], rposted := [], ackAt := none, rnrAt := none, move := none,
           scons := p.sprod, rcons := p.rprod }

/-! ### Hopper fills as they end (R209, R211) -/

/-- A hopper fill that ends: HOPPER_FILLED, or HOPPER_FAILED with the first failure. -/
def endFill (key : Nat) (f : Fill) (s : State) : State :=
  let s := s.modMem fun m => { m with fills := m.fills.erase key }
  match f.failed with
  | none => raise 0x6001 f.fn (key / 16) (key % 16) 0 f.landed 0 s
  | some st => raise 0x6002 f.fn (key / 16) (key % 16) 0 (st.code + f.landed * 2 ^ 8) 0 s

/-- The fills whose reads go by a QP fail with it: every read posted has ended. -/
def failFills (q : Nat) (st : Status) (s : State) : State :=
  (s.mem.fills.filter fun f => decide (f.2.qpn = q)).foldl
    (fun s f => endFill f.1 { f.2 with out := [], failed := some (f.2.failed.getD st) } s) s

/-! ### QPs that enter ERROR (R275, R284) -/

/-- A QP to be moved to ERROR: the statuses of what is in flight and of the rest, and that of QP_ERROR when it is raised. -/
structure QpEnd where
  /-- QPN. -/
  q : Nat
  /-- Status of requests in flight. -/
  flight : Status
  /-- Status of the rest. -/
  rest : Status
  /-- Status in QP_ERROR; none for a command. -/
  tell : Option Status
  deriving DecidableEq, Repr

/-- One QP moved to ERROR (R284): a port move completes ABORTED, every entry gets its completion, the hopper fills that read
through it fail, and QP_ERROR is raised with a status unless a command asked for it. -/
def endQp (x : QpEnd) (s : State) : State :=
  match qpOf s x.q with
  | none => s
  | some p =>
    if p.state = .error then s
    else
      let s := modQp x.q Qp.toError s
      let s := (flushList p x.flight x.rest).foldl (fun s w => wcPut p.sendCq x.q w s) s
      let s := (flushRecv p).foldl (fun s w => wcPut (recvCqOf s p) x.q w s) s
      let s := match p.move with
        | some m => completeId m.id .aborted 0 0 s
        | none => s
      let s := failFills x.q x.flight s
      qpLeft x.q (match x.tell with
        | some st => eventTo 0x09 x.q st.code p.fn s
        | none => s)

/-- CQs in ERROR. -/
def cqsInError (s : State) : List Nat := (s.rdm.cqs.filter fun c => c.2.error).map (·.1)

/-- The QPs of the CQs that overran between two states (R275). -/
def overrunQps (before after : State) : List QpEnd :=
  ((cqsInError after).filter fun c => !(cqsInError before).contains c).flatMap fun c =>
    (qpsOnCq after c).map fun q => { q, flight := .aborted, rest := .aborted, tell := some .aborted }

/-- QPs moved to ERROR one after another; what overruns on the way takes its own QPs along. The fuel bounds how many move. -/
def endQps : Nat → List QpEnd → State → State
  | 0, _, s => s
  | _, [], s => s
  | n + 1, x :: r, s => let t := endQp x s; endQps n (r ++ overrunQps s t) t

/-- How many QPs can be named by every CQ that overruns. -/
def qpFuel (s : State) : Nat := 1 + s.rdm.qps.length * (1 + s.rdm.cqs.length)

/-- A QP moved to ERROR. -/
def qpError (q : Nat) (flight rest : Status) (tell : Option Status) (s : State) : State :=
  endQps (qpFuel s) [{ q, flight, rest, tell }] s

/-- A work completion of a QP written; when its CQ overruns, every QP bound to that CQ moves to ERROR (R273, R275). -/
def wcOut (c q : Nat) (w : Wc) (s : State) : State :=
  let t := wcPut c q w s
  endQps (qpFuel t) (overrunQps s t) t

/-- A send request completed: an unsignalled success writes nothing (R271). -/
def wrDone (q : Nat) (p : Qp) (w : Wr) (st : Status) (detail len : Nat) (s : State) : State :=
  if st = .success ∧ bit w.flags 0 = false then s
  else wcOut p.sendCq q { wrId := w.wrId, len, op := w.op, status := st, detail } s

/-- A request that failed with a status marked ERROR: its completion, then the QP's (R273, R284). -/
def wrFail (q : Nat) (w : Wr) (st : Status) (detail : Nat) (s : State) : State :=
  match qpOf s q with
  | none => s
  | some p =>
    let s := modQp q (fun p => { p with sent := p.sent.filter fun x => x.num ≠ w.num }) s
    qpError q .aborted .aborted (some st) (wrDone q p w st detail 0 s)

/-- A posted entry that fails before it is sent. -/
def entryFail (q : Nat) (e : List Byte) (st : Status) (detail : Nat) (s : State) : State :=
  match qpOf s q with
  | none => s
  | some p =>
    let s := modQp q (fun p => { p with posted := p.posted.drop 1, scons := p.scons + 1 }) s
    qpError q .aborted .aborted (some st) (wcOut p.sendCq q { wrId := entryWrId e, op := num e 0 1, status := st, detail } s)

/-! ### Requests -/

/-- The virtual channel of a transport packet: requests on VC0, responses and acknowledgements on VC1 (R251). -/
def Packet.vc : Packet → Nat
  | .request .. => 0
  | _ => 1

/-- A GID that maps an IPv4 address (log entry 111). -/
def gidIsV4 (gid : Nat) : Bool := decide (gid % 2 ^ 96 = 0xFFFF * 2 ^ 80)

/-- What a packet of a QP travels in on its port (R240, R241, R251, R266). -/
def pktHdr (s : State) (q : Nat) (pk : Packet) : PktHdr :=
  match qpOf s q with
  | none => .flume 0 pk.vc
  | some p =>
    let x := port s p.port
    if x.mode = .ethernet then
      let prio := Config.priorityOf p.tclass % 8
      .roce p.port ((Config.macBase + p.port) % 2 ^ 48) (if bit x.ethCfg 8 then some (bits x.ethCfg 20 9) else none) (!gidIsV4 p.gid)
        p.gid p.tclass (Config.udpHash q p.rqpn % 2 ^ 16) 4791 2
        (if bit x.ethCfg prio then max s.core.t (x.paused.getD prio 0) else s.core.t)
    else .flume p.port pk.vc

/-- A packet of a QP sent. -/
def sendPacket (q : Nat) (pk : Packet) (s : State) : State := emit (.packet q (pktHdr s q pk) pk) s

/-- Data cut into messages so that each 64-byte line of its destination with poison is one of its own (R306); the offset is that
of the first byte. -/
def messagesOf (off : Nat) (l : List PByte) : List (List PByte) :=
  let r := off % 64
  let lines := (List.range (ceilDiv (r + l.length) 64)).map fun k => (l.drop (64 * k - r)).take (if k = 0 then 64 - r else 64)
  lines.foldr
    (fun x a => match a with
      | g :: t => if anyPoison x || anyPoison g then x :: a else (x ++ g) :: t
      | [] => [x]) []

/-- The messages a request goes as: one, but for poisoned lines that are written into a bin (R306). -/
def Wr.messages (p : Qp) (w : Wr) : List (List PByte) :=
  if p.mode ≠ 0 ∧ (w.op = 3 ∨ w.op = 4) ∧ anyPoison w.data then messagesOf (if p.mode = 1 then w.key else w.remote) w.data else [w.data]

/-- A request as it is sent: the packets of its messages in turn. -/
def Wr.packets (p : Qp) (w : Wr) : List Packet :=
  let l := w.messages p
  (l.zipIdx.foldl
    (fun (a : Nat × Nat × List Packet) x =>
      let final := decide (x.2 + 1 = l.length)
      let op := if final then w.op else 3
      let n := if l.length = 1 then w.len else x.1.length
      let k : Packet := .request op (psnAdd w.psn a.1) (if p.mode = 1 then w.remote else w.remote + a.2.1)
        (if p.mode = 1 then w.key + a.2.1 else w.key) n (if op = 2 ∨ op = 4 then some w.imm else none)
        (decide (p.mode ≠ 0) && bit w.flags 2) (anyPoison x.1) (x.1.map (·.1))
      (a.1 + packetsOf n, a.2.1 + n, a.2.2 ++ [k])) (0, 0, [])).2.2

/-- The PSNs a request takes. -/
def Wr.psns (p : Qp) (w : Wr) : Nat := if w.data = [] then packetsOf w.len else ((w.messages p).map fun x => packetsOf x.length).foldl (· + ·) 0

/-- A request packet ends before a PSN. -/
def Packet.before (psn : Nat) : Packet → Bool
  | .request _ first _ _ n _ _ _ _ => !psnLe psn (psnAdd first (packetsOf n - 1))
  | _ => false

/-- Every request from a PSN on sent again. -/
def resendFrom (q psn : Nat) (s : State) : State :=
  match qpOf s q with
  | none => s
  | some p =>
    let l := p.sent.filter fun w => psnLe psn (psnAdd w.psn (w.npsn - 1))
    let s := l.foldl (fun s w => (w.packets p).foldl (fun s k => if k.before psn then s else sendPacket q k s) s) s
    if l = [] then s else modQp q (fun p => { p with ackAt := some s.core.t }) s

/-- READs outstanding. -/
def Qp.reads (p : Qp) : Nat := (p.sent.filter fun w => w.op = 5).length

/-- The last PSN of a request. -/
def Wr.lastPsn (w : Wr) : Nat := psnAdd w.psn (w.npsn - 1)

/-- A drain that has nothing sent left: a port move ends, with the µs it took (R285). -/
def drainCheck (q : Nat) (s : State) : State :=
  match qpOf s q with
  | none => s
  | some p =>
    match p.state, p.move with
    | .drain, some m =>
      if p.sent = [] then
        completeId m.id .success ((s.core.t - m.since) / 1000) 0
          (modQp q (fun p => { p with state := .rts, port := m.port, gid := m.gid, move := none }) s)
      else s
    | _, _ => s

/-- POOL_READ of a READ of a handle- or window-mode QP (R476, R477). -/
def samplePool (q : Nat) (p : Qp) (w : Wr) (s : State) : State :=
  if p.mode = 0 ∨ w.op ≠ 5 then s
  else sample 5 (s.core.t - w.rung) (fun m => decide (m.fn = p.fn) && m.within 14 q && decide (w.len ≤ m.filtB)) s

/-- Requests acknowledged up to a PSN complete in order; a READ whose responses have not come stops there (R286). -/
def ackUpTo (q psn : Nat) : Nat → State → State
  | 0, s => s
  | n + 1, s =>
    match qpOf s q with
    | none => s
    | some p =>
      match p.sent with
      | [] => s
      | w :: r =>
        if w.op ≠ 5 ∧ psnLe w.lastPsn psn then
          let s := modQp q (fun p => { p with sent := r, retries := 0, rnrs := 0, ackAt := if r = [] then none else some s.core.t }) s
          ackUpTo q psn n (wrDone q p w .success 0 w.len s)
        else s

/-- ns an RNR timer code stands for, as the RoCEv2 transport encodes it (R283; PRESUMED, log entry 34). -/
def rnrNs (code : Nat) : Nat :=
  10000 * [65536, 1, 2, 3, 4, 6, 8, 12, 16, 24, 32, 48, 64, 96, 128, 192, 256, 384, 512, 768, 1024, 1536, 2048, 3072, 4096, 6144,
    8192, 12288, 16384, 24576, 32768, 49152].getD (code % 32) 1

/-- The port of a QP is in retry on a Flume link: its timers stand still (R258, R286). -/
def qpFrozen (s : State) (p : Qp) : Bool :=
  decide ((port s p.port).mode = .flume) && (port s p.port).flm.retryAt.isSome

/-! ### Receiving -/

/-- The offset of what is wrong with a receive entry (R271). -/
def recvBad (e : List Byte) : Option Nat :=
  if num e 0 1 ≠ 0 then some 0 else if num e 1 1 ≠ 0 then some 1 else if num e 2 2 ≠ 0 then some 2
  else if 2 ^ 30 < num e 24 4 then some 24 else if num e 28 4 ≠ 0 then some 28
  else if num e 44 20 ≠ 0 then some 44 else none

/-- SRQ_LIMIT is raised once when the posted count has fallen below the limit (R276). -/
def srqLimit (n : Nat) (s : State) : State :=
  match s.rdm.srqs.get n with
  | none => s
  | some x =>
    if x.recvs.length + x.posted.length < x.limit then
      eventTo 0x0A n 0 x.fn (s.modRdm fun d => { d with srqs := d.srqs.set n { x with limit := 0 } })
    else s

/-- A receive entry fails: its completion, and ERROR for its QP. An entry of an SRQ belongs to no one QP: every QP that takes
entries from it moves to ERROR (R271 to R273; log entry 110). -/
def recvFail (srq : Bool) (n wrId : Nat) (st : Status) (detail : Nat) (s : State) : State :=
  let w : Wc := { wrId, op := 0, status := st, detail, recv := true }
  if srq then
    match s.rdm.srqs.get n with
    | none => s
    | some x =>
      let l := srqQps s n
      forEach l (fun q s => qpError q .aborted .aborted (some st) s) (srqLimit n (wcOut x.cq (l.headD 0) w s))
  else
    match qpOf s n with
    | none => s
    | some p => qpError n .aborted .aborted (some st) (wcOut p.recvCq n w s)

/-- A fetched receive entry leaves its queue, by its number. -/
def dropRecv (srq : Bool) (n k : Nat) (s : State) : State :=
  let f (l : List RecvWr) : List RecvWr := l.filter fun w => w.num ≠ k
  if srq then s.modRdm fun d => { d with srqs := d.srqs.modify n fun x => { x with recvs := f x.recvs } }
  else modQp n (fun p => { p with recvs := f p.recvs }) s

/-- The next receive entry of a QP, or of an SRQ, fetched and its buffer translated (R271, R272). -/
def fetchRecv (srq : Bool) (n : Nat) (s : State) : State :=
  let next : Option (List Byte × Nat × Nat) :=
    if srq then (s.rdm.srqs.get n).bind fun x => x.posted.head?.map fun e => (e, x.cons, x.asid)
    else (qpOf s n).bind fun p => p.rposted.head?.map fun e => (e, p.rcons, p.asid)
  match next with
  | none => s
  | some (e, k, asid) =>
    let s :=
      if srq then s.modRdm fun d => { d with srqs := d.srqs.modify n fun x => { x with posted := x.posted.drop 1, cons := x.cons + 1 } }
      else modQp n (fun p => { p with rposted := p.rposted.drop 1, rcons := p.rcons + 1 }) s
    match recvBad e with
    | some off => recvFail srq n (entryWrId e) .invalidField off s
    | none =>
      match translate s { write := true } asid (num e 16 8) (num e 24 4) with
      | .error f => recvFail srq n (entryWrId e) .xlateFault f.result2 (noteFault f s)
      | .ok held =>
        let w : RecvWr := { wrId := entryWrId e, len := num e 24 4, held, num := k }
        noteWalks held
          (if srq then s.modRdm fun d => { d with srqs := d.srqs.modify n fun x => { x with recvs := x.recvs ++ [w] } }
          else modQp n (fun p => { p with recvs := p.recvs ++ [w] }) s)

/-- A receive entry taken from a QP's own queue or its SRQ; one that is posted and not yet fetched is fetched for it. -/
def takeRecv (q : Nat) (s : State) : Option RecvWr × State :=
  match qpOf s q with
  | none => (none, s)
  | some p =>
    let srq := p.srq.isSome
    let n := p.srq.getD q
    let held (s : State) : List RecvWr :=
      if srq then ((s.rdm.srqs.get n).map (·.recvs)).getD [] else ((qpOf s q).map (·.recvs)).getD []
    let s := if held s = [] then fetchRecv srq n s else s
    match held s with
    | [] => (none, s)
    | r :: _ => let s := dropRecv srq n r.num s; (some r, if srq then srqLimit n s else s)

/-- A packet answered by the responder of a QP, with its PSN expected next. -/
def answerQp (q : Nat) (pk : Packet) (next : Option Nat) (s : State) : State :=
  let s := sendPacket q pk s
  match next with
  | some n => modQp q (fun p => { p with rqPsn := n, msn := (p.msn + 1) % 2 ^ 24 }) s
  | none => s

/-- The fold address of a remote address and key in an ADDR_MODE (R287). -/
def foldAddr (mode remote key : Nat) : Nat := if mode = 1 then handleBin remote * 2 ^ 30 + key else remote

/-- A READ answered from a PSN on, noted for the fold of its responses (R287); MAX_RD allows 16 at a time. -/
def noteServed (q psn n addr : Nat) (s : State) : State := modQp q (fun p => { p with served := ((psn, n, addr) :: p.served).take 16 }) s

/-- A standard NAK sent and counted. -/
def nakQp (q psn code : Nat) (s : State) : State :=
  answerQp q (.nak psn code) none (s.modRdm fun r => { r with naksSent := sat 0xFFFF (r.naksSent + 1) })

/-- A status NAK of a request admitted before, whose PSNs it took then: sent and counted. -/
def lateNak (q psn code detail : Nat) (s : State) : State :=
  answerQp q (.statusNak psn code detail) none (s.modRdm fun d => { d with naksSent := sat 0xFFFF (d.naksSent + 1) })

/-- A status NAK sent and counted: it consumes the PSNs of its request (R280, R291). -/
def statusNakQp (q psn next code detail : Nat) (s : State) : State :=
  answerQp q (.statusNak psn code detail) (some next) (s.modRdm fun d => { d with naksSent := sat 0xFFFF (d.naksSent + 1) })

/-- Whether packets for a QP are taken from a port: it is UP, and it is the QP's own, an Ethernet port, or a Flume port whose
peer is REMOTE_MEMBER (R285; log entry 110). -/
def portServes (s : State) (p : Qp) (n : Nat) : Bool :=
  let x := port s n
  decide (x.state = .up) && (decide (n = p.port ∨ x.mode = .ethernet) || (x.flm.valid && decide (x.flm.peer = p.member)))



/-- Whether a QP receives and answers. -/
def Qp.receives (p : Qp) : Bool := decide (p.state = .rtr ∨ p.state = .rts ∨ p.state = .drain)

/-- The READ a response answers. -/
def readOf (p : Qp) (psn : Nat) : Option Wr := p.sent.find? fun w => decide (w.op = 5) && psnLe w.psn psn && psnLe psn w.lastPsn

/-- E2E_MISMATCH counted, and raised at most once per 1 ms (R288). -/
def e2eEvent (q : Nat) (s : State) : State :=
  match qpOf s q with
  | none => s
  | some p =>
    if (match p.e2eAt with | some t => passed s t (ms 1) | none => true) then
      eventTo 0x0C q (p.e2eNew + 1) p.fn (modQp q (fun p => { p with e2eNew := 0, e2eAt := some s.core.t }) s)
    else modQp q (fun p => { p with e2eNew := p.e2eNew + 1 }) s

/-- A READ reissued from the PSN of a failed response, or completed with INTEGRITY at the fourth failure (R288). -/
def reissueRead (q psn : Nat) (p : Qp) (w : Wr) (s : State) : State :=
  if 3 ≤ w.e2e then wrFail q w .integrity p.port s
  else
    let k := 4096 * ((psn + 2 ^ 24 - w.psn) % 2 ^ 24)
    let s := modQp q (fun p => { p with sent := p.sent.map fun x => if x.num = w.num then { x with e2e := x.e2e + 1 } else x }) s
    let remote := if p.mode = 1 then w.remote else w.remote + k
    let key := if p.mode = 1 then w.key + k else w.key
    sendPacket q (.request 5 psn remote key (w.len - k) none (decide (p.mode ≠ 0) && bit w.flags 2) false []) s

/-- A transport packet on a Flume port whose check value does not match: discarded and counted; a response has its READ issued
again, a request is answered by the sequence error NAK (R288). -/
def e2eDrop (port q psn : Nat) (requester response : Bool) (s : State) : State :=
  let s := s.modRdm fun r =>
    { r with e2eErr := sat 0xFFFFFFFF (r.e2eErr + 1), e2eLast := q % 2 ^ 14 + port * 2 ^ 14 + flag requester * 2 ^ 17 }
  match qpOf s q with
  | none => s
  | some p =>
    let s := e2eEvent q s
    if response then
      match readOf p psn with
      | some w => reissueRead q psn p w s
      | none => s
    else if requester then s
    else if p.receives then nakQp q p.rqPsn 0 s
    else s

/-- Whether a packet at a port is discarded for its end-to-end check: only a Flume port carries one (R287). -/
def e2eBad (s : State) (p : Nat) (holds : Bool) : Bool := !holds && decide ((port s p).mode = .flume)

/-- Data written to translated runs, with DDR5 counted as used. -/
def writeHeld (h : Held) (l : List PByte) (s : State) : State := writeSegs h.segs l (useRuns h.segs s)

/-- A SEND delivered into a receive entry, or answered by RNR NAK when none is posted (R276). -/
def deliverSend (q psn next : Nat) (data : List Byte) (imm : Option Nat) (s : State) : State :=
  match qpOf s q with
  | none => s
  | some p =>
    match takeRecv q s with
    | (none, s) => if (qpOf s q).any fun p => p.receives then answerQp q (.rnr psn p.minRnr) none s else s
    | (some r, s) =>
      if r.len < data.length then nakQp q psn 1 s
      else
        let s := writeHeld r.held (data.map fun b => (b, false)) s
        let s := answerQp q (.ack psn) (some next) s
        wcOut (recvCqOf s p) q { wrId := r.wrId, len := data.length, imm, op := 0, status := .success, recv := true } s

/-- A key of an inbound request holds for a range and access (R277, R278). -/
def keyOk (s : State) (write : Bool) (va key len : Nat) : Option MemKey :=
  match s.rdm.keys.get (bits key 23 8) with
  | some k =>
    if k.tag = key % 256 ∧ key / 2 ^ 24 = 0 ∧ k.va ≤ va ∧ va + len ≤ k.va + k.len ∧ (if write then k.wr else k.rd) then some k
    else none
  | none => none

/-! ### Links and peers going away (R261, R284) -/

/-- Every QP of a port moved to ERROR, its requests in flight with a status. -/
def portQpsError (p : Nat) (flight : Status) (s : State) : State :=
  s.rdm.qps.foldl (fun s x => if x.2.port = p then qpError x.1 flight .aborted (some flight) s else s) s

/-- Every QP to a member moved to ERROR: PEER_QUARANTINED with its member ID (R273, R371). -/
def memberQpsError (m : Nat) (s : State) : State :=
  s.rdm.qps.foldl
    (fun s x =>
      if x.2.member = m ∧ x.2.state ≠ .reset ∧ x.2.state ≠ .init then
        qpError x.1 .peerQuarantined .peerQuarantined (some .peerQuarantined) s
      else s) s

/-! ### Requests to a granary on a QP (R279, R305) -/

/-- A status NAK of a request to bins. -/
def statusNak (r : GReq) (code detail : Nat) (s : State) : State :=
  statusNakQp r.qpn r.psn (psnAdd r.psn (if r.write then packetsOf r.data.length else packetsOf r.len)) code detail s

end Sys2Proof.Machine
end

