-- ==== Sys2Proof/Machine/TallyOps.lean ====
section
/-! DEFINITION. The bin tally's records, heads, tokens and disturbances (11 R323 to R336). -/

namespace Sys2Proof.Machine

/-- A record. -/
def tallyOf (s : State) (b : Nat) : TRec := s.tly.recs.getD b {}

/-- A record changed. -/
def modTally (b : Nat) (f : TRec → TRec) (s : State) : State := s.modTly fun t => { t with recs := t.recs.alter b {} f }

/-- Open tokens that name a bin. -/
def openTokens (s : State) (b : Nat) : Nat := (s.tly.tokens.filter fun t => t.2.bin = b).length

/-- Open operations as R334 judges them, under R328 while a channel is suspect. -/
def opsOpen (s : State) (b : Nat) : Nat :=
  let r := tallyOf s b
  let a := r.a.opsIn - r.a.opsOut
  let c := r.b.opsIn - r.b.opsOut
  if r.suspA || r.suspB then max (openTokens s b) (max (if r.suspA then 0 else a) (if r.suspB then 0 else c)) else max a c

/-- Code of a state (R330). -/
def TallyState.code : TallyState → Nat
  | .clear => 0
  | .occupied => 1
  | .disturbed => 2
  | .sweepPending => 3
  | .sweeping => 4

/-- A bin is locked out (R333). -/
def lockedOut (s : State) (b : Nat) : Bool :=
  match (tallyOf s b).state with
  | .disturbed | .sweepPending | .sweeping => true
  | _ => false

/-- A tally event: bin index, CAUSE (R338). -/
def tallyEvent (code b cause auth : Nat) (s : State) : State := raisePf code b (b + cause * 2 ^ 22 + auth * 2 ^ 26) s

/-- A disturbance (R331, R332). -/
def disturb (b cause : Nat) (s : State) : State :=
  let r := tallyOf s b
  let s := logError { sev := 2, source := 0x09, plane := 1, code := 0xA001, addr := b, obj := b, detail := cause } s
  if r.state = .disturbed then s
  else
    let s := modTally b (fun r => { r with state := .disturbed, cause, swept := false, sweepAt := none, window := 0 }) s
    let s := s.modTly fun t => { t with last := b + cause * 2 ^ 22, lastTime := s.core.time }
    tallyEvent 0xA001 b cause 0 s

/-- Both channels changed alike. -/
def TRec.both (f : Counts → Counts) (r : TRec) : TRec := { r with a := f r.a, b := f r.b }

/-- While CLEAR or OCCUPIED, a balanced pair of counts goes back to 0 on both channels, and the state follows (R329,
R331). -/
def TRec.rest (r : TRec) : TRec :=
  match r.state with
  | .clear | .occupied =>
    let r := if r.a.opsIn = r.a.opsOut ∧ r.b.opsIn = r.b.opsOut then r.both fun c => { c with opsIn := 0, opsOut := 0 } else r
    let r := if r.a.mapsIn = r.a.mapsOut ∧ r.b.mapsIn = r.b.mapsOut then r.both fun c => { c with mapsIn := 0, mapsOut := 0 } else r
    { r with state := if r.a = {} ∧ r.b = {} then .clear else .occupied }
  | _ => r

/-- The channels of a record compared after an update (R327). -/
def compareRec (b : Nat) (s : State) : State :=
  let r := tallyOf s b
  if r.a = r.b ∨ r.suspA ∨ r.suspB then s
  else disturb b 1 (modTally b (fun r => { r with suspA := true, suspB := true }) s)

/-- A record updated, compared and settled. -/
def updTally (b : Nat) (f : Counts → Counts) (s : State) : State :=
  modTally b TRec.rest (compareRec b (modTally b (TRec.both f) s))

/-- The entry head counts an operation; an IN count at its largest value is an overflow (R323, R332). -/
def countIn (b : Nat) (s : State) : State :=
  if 2 ^ 40 - 1 ≤ (tallyOf s b).a.opsIn ∨ 2 ^ 40 - 1 ≤ (tallyOf s b).b.opsIn then disturb b 4 s
  else updTally b (fun c => { c with opsIn := c.opsIn + 1 }) (modTally b (fun r => if r.state = .clear then { r with state := .occupied } else r) s)

/-- The exit head counts an operation (R323, R332). -/
def countOut (b : Nat) (s : State) : State :=
  let r := tallyOf s b
  if r.a.opsIn ≤ r.a.opsOut ∨ r.b.opsIn ≤ r.b.opsOut then disturb b 3 s
  else updTally b (fun c => { c with opsOut := c.opsOut + 1 }) s

/-- The entry head counts a map. -/
def countMapIn (b : Nat) (s : State) : State :=
  if 65535 ≤ (tallyOf s b).a.mapsIn ∨ 65535 ≤ (tallyOf s b).b.mapsIn then disturb b 4 s
  else updTally b (fun c => { c with mapsIn := c.mapsIn + 1 }) (modTally b (fun r => if r.state = .clear then { r with state := .occupied } else r) s)

/-- The exit head counts the end of a map. -/
def countMapOut (b : Nat) (s : State) : State :=
  let r := tallyOf s b
  if r.a.mapsIn ≤ r.a.mapsOut ∨ r.b.mapsIn ≤ r.b.mapsOut then disturb b 3 s
  else updTally b (fun c => { c with mapsOut := c.mapsOut + 1 }) s

/-- A token is free (R325). -/
def tokenFree (s : State) : Bool := decide (s.tly.tokens.length < 131072)

/-- Tokens for the parts of a request are free. -/
def tokensFor (s : State) (n : Nat) : Bool := decide (s.tly.tokens.length + n ≤ 131072)

/-- An operation admitted: counted in, with a token of the record's epoch (R325); the token's number. -/
def admitOp (t : Token) (s : State) : Nat × State :=
  let s := countIn t.bin s
  let n := (s.tly.tokens.firstFree 0 131072).getD 0
  (n, s.modTly fun y => { y with tokens := y.tokens.set n { t with epoch := (tallyOf s t.bin).epoch } })

/-- An operation that enters and leaves within one command. -/
def passOp (b : Nat) (s : State) : State := countOut b (countIn b s)

end Sys2Proof.Machine
end

