-- ==== Sys2Proof/Machine/SleepOps.lean ====
section
/-! DEFINITION. The sleep of a granary as its accesses and wakes meet it (13 R377 to R380, 14 R411). -/

namespace Sys2Proof.Machine

/-- DOM_SLEEP's code of a state. -/
def SleepState.code : SleepState → Nat
  | .awake => 0
  | .proposed => 1
  | .agreed => 2
  | .entering => 3
  | .asleep => 4
  | .exiting => 5

/-- The sleep state of this granary changed, with its event (R383). -/
def setSleep (st : SleepState) (f : Sleep → Sleep) (s : State) : State :=
  raisePf 0xC006 (ownMember s) st.code (s.modDom fun d => { d with sleep := f { d.sleep with state := st } })

/-- The quiet period starts again (R377). -/
def quietAgain (s : State) : State := s.modDom fun d => { d with sleep := { d.sleep with quietAt := s.core.t } }

/-- Exit begins: the domain agent posts its vote on the DDR complex again and the wake is recorded (R379, R411). -/
def sleepExit (s : State) : State :=
  let s := setSleep .exiting (fun x => { x with exitAt := s.core.t, exitPending := false }) s
  let s := s.modPwr fun p => { p with wakeSrc := 0x07, wakeTime := stamp s, wakeValid := s.core.timeValid, wakeFromOff := false }
  postCtl (.agentVote true) s

/-- An access or a wake as it meets the granary's sleep (R379). -/
def sleepWake (s : State) : State :=
  let x := s.dom.sleep
  match x.state with
  | .awake => quietAgain s
  | .proposed => setSleep .awake (fun x => { x with quietAt := s.core.t, awaited := [] }) s
  | .agreed =>
    if s.core.t < x.commitAt then
      let s := sendAll x.voters (.sleepAbort x.proposal) s
      setSleep .awake (fun x => { x with quietAt := s.core.t })
        (s.modDom fun d => { d with sleepAborts := sat 0xFFFFFFFF (d.sleepAborts + 1) })
    else s.modDom fun d => { d with sleep := { d.sleep with exitPending := true } }
  | .entering => s.modDom fun d => { d with sleep := { d.sleep with exitPending := true } }
  | .asleep => sleepExit s
  | .exiting => s

/-- Accesses proceed: the granary is not past COMMIT (R379). -/
def sleepServes (s : State) : Bool :=
  match s.dom.sleep.state with
  | .awake | .proposed => true
  | .agreed => decide (s.core.t < s.dom.sleep.commitAt)
  | _ => false

/-- The earliest retry in µs: the time until exit is bound to end (R379, R380). -/
def sleepRetry (s : State) : Nat :=
  let x := s.dom.sleep
  let end_ := match x.state with
    | .exiting => x.exitAt + us 100
    | .asleep => s.core.t + us 100
    | _ => x.commitAt + us 150
  ceilDiv (end_ - s.core.t) 1000

end Sys2Proof.Machine
end

