-- ==== Sys2Proof/Machine/GrnOps.lean ====
section
/-! DEFINITION. The granary: pool, directory, judging an operation, mirrors, promotion (10 R293 to R316). -/

namespace Sys2Proof.Machine

/-! ### Entries -/

/-- STATE, ROLE and MSTATE codes (R295). -/
def BinState.code : BinState → Nat
  | .free => 0
  | .allocated => 1
  | .freeing => 2
  | .lost => 3

/-- ROLE code. -/
def BinRole.code : BinRole → Nat
  | .serving => 0
  | .standby => 1
  | .proxy => 2

/-- MSTATE code. -/
def MState.code : MState → Nat
  | .none => 0
  | .syncing => 1
  | .inSync => 2
  | .broken => 3

/-- The local copy a handle names (R305, R309): by its bin index at home, through the mirror index elsewhere. -/
def localBin (s : State) (h : Nat) : Option (Nat × Bin) :=
  let g := handleGranary h
  if g = ownMember s then (s.grn.dir.get (handleBin h)).map fun b => (handleBin h, b)
  else
    (s.grn.mindex.get (handleBin h)).bind fun i =>
      match s.grn.dir.get i with
      | some b => if b.home = g ∧ b.pindex = handleBin h ∧ b.state ≠ .free then some (i, b) else none
      | none => none

/-- This granary holds bins of a home. -/
def holdsHome (s : State) (g : Nat) : Bool :=
  decide (g = ownMember s) || s.grn.dir.any fun e => decide (e.2.home = g) && decide (e.2.state ≠ .free)

/-- A handle is current for a copy (R299). -/
def Bin.current (b : Bin) (h : Nat) : Bool :=
  decide (b.state = .allocated ∨ b.state = .lost) && decide (b.carve = handleCarve h) && decide (b.gen = handleGen h)

/-- The member now serving a handle for which the copy here is not serving (R305). -/
def servingMember (s : State) (b : Bin) : Nat :=
  if b.home = ownMember s then (s.grn.servedBy.getD (b.partner.getD (ownMember s)))
  else (s.grn.failover.get b.home).getD b.home

/-- The live map of a member (R302). -/
def liveMap (s : State) (b : Bin) (member : Nat) : Option BinMap :=
  b.maps.find? fun m => decide (m.member = member) && !m.closing && decide (s.core.time < m.expiry)

/-- A handle silenced: another member serves this home (R316, R368). -/
def silenced (s : State) (b : Bin) : Bool := decide (b.role = .standby) || (decide (b.home = ownMember s) && s.grn.servedBy.isSome)

/-! ### Judging an operation (R305) -/

/-- Steps 1 to 3: the copy, or the NAK code with DETAIL. -/
def judgeHandle (s : State) (h : Nat) : Except (Nat × Nat) (Nat × Bin) :=
  if holdsHome s (handleGranary h) = false then .error (2, 0)
  else
    match localBin s h with
    | none => .error (0x10, ownMember s * 2 ^ 16)
    | some (i, b) =>
      if silenced s b then .error (0x10, servingMember s b * 2 ^ 16 + b.gen)
      else if b.current h = false then
        .error (0x10, ownMember s * 2 ^ 16 + (if b.state = .free ∨ b.state = .freeing then 0 else b.gen))
      else .ok (i, b)

/-- Steps 4 to 7 on a copy; a near-memory descriptor leaves out steps 5 and 6 (R319). -/
def judgeBin (s : State) (i : Nat) (b : Bin) (member : Option Nat) (off len : Nat) (write : Bool) : Option (Nat × Nat) :=
  if lockedOut s i then some (0x12, 0)
  else
    let past := if b.bytes < off + len then some (0x15, 0xFFFFFFFF) else none
    match member with
    | none => past
    | some m =>
      match liveMap s b m with
      | none => some (0x11, 0)
      | some v => if write && !v.write then some (2, 0) else past

/-- An operation judged on a handle: the bin index, or the NAK. -/
def judge (s : State) (h : Nat) (member : Option Nat) (off len : Nat) (write : Bool) : Except (Nat × Nat) Nat :=
  match judgeHandle s h with
  | .error e => .error e
  | .ok (i, b) =>
    match judgeBin s i b member off len write with
    | some e => .error e
    | none => .ok i

/-- The status a NAK code of R280 or a remote access error stands for. -/
def judgeStatus : Nat → Status
  | 0x10 => .staleHandle
  | 0x11 => .leaseExpired
  | 0x12 => .binDisturbed
  | 0x13 => .sleepInProgress
  | 0x14 => .poisoned
  | 0x15 => .invalidField
  | _ => .notPermitted

/-! ### Allocation (R293, R298) -/

/-- Blocks of a pair in use, relative to its first byte. -/
def pairBlocks (s : State) (p : Nat) : List (Nat × Nat) :=
  (s.grn.dir.filter fun e => decide (e.2.state ≠ .free) && decide (e.2.pair = p)).map fun e => (e.2.base - pairBase s p, e.2.bytes)

/-- The lowest aligned free block of a size in a pair (log entry 38). -/
def freeBlock (s : State) (p size : Nat) : Option Nat :=
  let l := pairBlocks s p
  let n := 2 ^ size
  let cands := (0 :: l.map fun x => ceilDiv (x.1 + x.2) n * n).filter fun c =>
    decide (c + n ≤ pairBytes (pairOf s p)) && l.all fun x => decide (c + n ≤ x.1) || decide (x.1 + x.2 ≤ c)
  cands.min?

/-- Free bytes of a pair. -/
def pairFree (s : State) (p : Nat) : Nat := pairBytes (pairOf s p) - ((pairBlocks s p).map (·.2)).foldl (· + ·) 0

/-- Pairs that serve. -/
def servingPairs (s : State) : List Nat := (layoutPairs s).filter fun p => decide ((pairOf s p).state = .up)

/-- The serving pair with the most free bytes, the lowest-numbered on a tie (R298). -/
def bestPair (s : State) : Option Nat :=
  (servingPairs s).foldl (fun b p => match b with | none => some p | some q => if pairFree s q < pairFree s p then some p else some q) none

/-- Use of a carve in 2 MiB units. -/
def carveUse (s : State) (c : Nat) : Nat :=
  ((s.grn.dir.filter fun e => decide (e.2.state ≠ .free) && decide (e.2.carve = c)).map fun e => e.2.bytes / 2 ^ 21).foldl (· + ·) 0

/-- The lowest FREE directory entry. -/
def freeEntry (s : State) : Option Nat := Tbl.firstFree (s.grn.dir.filter fun e => e.2.state ≠ .free) 0 4194304

/-- The generation after one (R299). -/
def nextGen (g : Nat) : Nat := if 65535 ≤ g then 1 else g + 1

/-! ### Notices (R289, R304, R309) -/

/-- MIRROR_PARTNER's member when it is enabled (R320). -/
def mirrorPartner (s : State) : Option Nat :=
  let v := feature s 0x61 0 0
  if bit v 8 then some (v % 256) else none

/-- A bin that a fault takes away (R312): PROXY when its mirror is IN_SYNC, otherwise LOST and DISTURBED with BIN_LOST to
the members that map it. A STANDBY copy goes alone: its bin is served by the other one, which goes on unmirrored (log entry
113). -/
def loseBin (i cause : Nat) (s : State) : State :=
  let b := binEntry s i
  if b.state ≠ .allocated ∨ b.role = .proxy then s
  else if b.role = .standby then
    let s := disturb i 6 (modBin i (fun b => { b with state := .lost, mstate := .none }) s)
    match b.partner with
    | some q => notice q 11 (b.handle (ownMember s) i) 0 0 0 s
    | none => s
  else if b.mstate = .inSync ∧ b.role = .serving then
    raisePf 0x9004 i (i + cause * 2 ^ 22) (modBin i (fun b => { b with role := .proxy }) s)
  else
    let s := modBin i (fun b => { b with state := .lost }) s
    let s := disturb i 6 s
    let s := raisePf 0x9005 i i s
    forEach (mapMembers s b) (fun m => notice m 2 (b.handle (ownMember s) i) 0 0 0) s

/-- Every bin of a pair that went down (R312). -/
def losePair (p : Nat) (s : State) : State :=
  forEach ((s.grn.dir.filter fun e => e.2.pair = p).map (·.1)) (fun i => loseBin i 1) s

/-! ### Map records of a mill (R304, R314) -/

/-- BIN_LOST raised for a map record. -/
def recLost (r : MapRec) (s : State) : State := eventTo 0x06 (handleGranary r.handle) r.handle r.fn s

/-- A mill corrects its map records by what a granary answers for a handle (R304, R376; 10, When events meet): LEASE_EXPIRED ends
them, and so, with BIN_LOST, does a STALE_HANDLE of the member that serves the handle (log entry 113). -/
def correctRecords (h from_ : Nat) (st : Status) (detail : Nat) (s : State) : State :=
  let gone := decide (st = .leaseExpired) || (decide (st = .staleHandle) && decide (bits detail 15 0 = 0 ∨ bits detail 23 16 = from_))
  if isMill s = false ∨ gone = false then s
  else
    let s := if st = .staleHandle then (s.grn.recs.filter fun r => decide (r.handle = h)).foldl (fun s r => recLost r s) s else s
    s.modGrn fun g => { g with recs := g.recs.filter fun r => decide (r.handle ≠ h) }

/-- GRANARY_LOST at a member: the records that name it and have no mirror raise BIN_LOST and go (R314). -/
def granaryLost (g : Nat) (s : State) : State :=
  let s := eventAll 0x07 g 0 s
  let dead (r : MapRec) : Bool :=
    decide (handleGranary r.handle = g) && !(r.mirrored && decide ((peer s r.partner).state ≠ .lost))
  let s := (s.grn.recs.filter dead).foldl (fun s r => recLost r s) s
  s.modGrn fun x => { x with recs := x.recs.filter fun r => !dead r }

/-! ### Promotion (R313) -/

/-- Every IN_SYNC copy held for a home promoted, and the home announced. -/
def promote (home : Nat) (s : State) : State :=
  let l := (s.grn.dir.filter fun e => decide (e.2.home = home) && decide (e.2.role = .standby) && decide (e.2.mstate = .inSync)).map (·.1)
  let s := forEach l (fun i s => setMState i .broken (modBin i (fun b => { b with role := .serving }) s)) s
  let s := s.modGrn fun g =>
    { g with homes := if g.homes.contains home then g.homes else g.homes ++ [home], failover := g.failover.set home (ownMember s) }
  let homes := (if s.grn.ownHome then [ownMember s] else []) ++ s.grn.homes
  let s := sendAll (otherMembers s) (.announce 2 homes) s
  raisePf 0x9006 home (home + l.length * 2 ^ 8) s

/-! ### Admission (R305, R310, R325) -/

/-- A window access: the entries a request touches, as handle, offset and length, or none for a mismatch (R281). -/
def windowParts (s : State) (member va key len : Nat) : Option (List (Nat × Nat × Nat)) :=
  match s.rdm.windows.get (bits key 23 8) with
  | some w =>
    if w.tag ≠ key % 256 ∨ key / 2 ^ 24 ≠ 128 ∨ (w.member.any fun m => decide (m ≠ member)) = true ∨
        w.entries.length * 2 ^ 21 < va + len then none
    else
      some ((List.range (max 1 (ceilDiv (va % 2 ^ 21 + len) (2 ^ 21)))).filterMap fun k =>
        let e := w.entries.getD (va / 2 ^ 21 + k) (0, 0)
        let from_ := if k = 0 then va % 2 ^ 21 else 0
        let done := if k = 0 then 0 else k * 2 ^ 21 - va % 2 ^ 21
        if w.entries.length ≤ va / 2 ^ 21 + k then none
        else some (e.1, e.2 + from_, min (len - done) (2 ^ 21 - from_)))
  | none => none

/-- Writes to a copy are forwarded: it is mirrored, or it is the standby's and is being copied back (R310, R311, R315). -/
def forwards (s : State) (i : Nat) (b : Bin) : Bool := b.mirrored || (decide (b.role = .standby) && s.grn.resilvers.any fun r => decide (r.bin = i))

/-- A range falls in the chunk of a bin that is being copied (R311). -/
def inChunk (s : State) (i off n : Nat) : Bool :=
  match (s.grn.resilvers.find? fun r => decide (r.bin = i)).bind (·.flight) with
  | some c => decide (off < (c + 1) * 2 ^ 20) && decide (c * 2 ^ 20 < off + n)
  | none => false

/-- A write applied to a copy: performed on the standby as PROXY, or forwarded first when its mirror takes writes, or held back for
the chunk being copied (R310 to R312). It answers whether the other copy is awaited, and what is held back. -/
def writeCopy (i off : Nat) (l : List PByte) (s : State) : Bool × Option (List PByte) × State :=
  let b := binEntry s i
  let h := b.handle (ownMember s) i
  if b.role = .proxy then (true, none, emit (.mirror 4 h off l.length l) s)
  else if forwards s i b then
    if inChunk s i off l.length then (true, some l, s)
    else (true, none, writeBin b off l (emit (.mirror 0 h off l.length l) s))
  else (false, none, writeBin b off l s)

/-- The whole lines of a range: first byte and bytes. -/
def lineSpan (off n : Nat) : Nat × Nat := (off / 64 * 64, (off + n + 63) / 64 * 64 - off / 64 * 64)

/-- A read of a bin: errors are met, and poisoned lines of a mirrored bin are read from the standby and written whole here where
that read is clean (R191, R306). The standby's lines come as the bytes of the whole lines of the range. -/
def readHealed (i off n : Nat) (standby : Option (List Byte)) (s : State) : List PByte × State :=
  let b := binEntry s i
  let sp := lineSpan off n
  let s := meetRange (binCell b off) n s
  let s :=
    if anyPoison (readBin s b off n) ∧ b.mstate = .inSync ∧ b.role = .serving then
      let s := emit (.mirror 5 (b.handle (ownMember s) i) sp.1 sp.2 []) s
      match standby with
      | some d =>
        if d.length = sp.2 then
          forEach (List.range (sp.2 / 64))
            (fun k s =>
              if anyPoison (readBin s b (sp.1 + 64 * k) 64) then
                writeBin b (sp.1 + 64 * k) ((slice d (64 * k) 64).map fun x => (x, false)) s
              else s) s
        else s
      | none => s
    else s
  (readBin s b off n, s)

/-- A part of a request: handle, offset in the bin, length, and where it begins in the message. -/
structure Part where
  /-- Handle. -/
  handle : Nat
  /-- Offset. -/
  off : Nat
  /-- Length. -/
  len : Nat
  /-- Its place in the message. -/
  at_ : Nat
  deriving DecidableEq, Repr

/-- Bytes of a request. -/
def reqBytes (r : GReq) : Nat := if r.write then r.data.length else r.len

/-- One part of a request admitted on a copy. -/
def admitPart (r : GReq) (member i : Nat) (x : Part) (s : State) : State :=
  let b := binEntry s i
  let data := ((r.data.drop x.at_).take x.len).map fun d => (d, r.poison)
  let (kind, waits, s) :=
    if r.write then
      let (w, d, s) := writeCopy i x.off data s
      ((if b.role = .proxy then OpKind.proxy else .write w), d, s)
    else if b.role = .proxy then (.proxy, none, emit (.mirror 4 x.handle x.off x.len []) s)
    else (.read, none, hotRead (b.base + x.off) x.len s)
  let map := match liveMap s b member with | some v => v.num | none => 0
  (admitOp { bin := i, epoch := 0, kind, member, map, qpn := r.qpn, first := r.psn, psn := psnAdd r.psn (packetsOf (reqBytes r) - 1),
             reads := !r.write, at_ := x.at_, offset := x.off, len := x.len, handle := x.handle, waits } s).2

/-- An uncorrectable error in the entry of a directory copy. -/
def dirBad (s : State) (copy i : Nat) : Bool := (badCell s (dirAt s copy i) 128).isSome

/-- The directory entry of a bin read in both copies: one bad copy is rewritten from the other, two make the bin LOST (R295, R312).
An error lies in the copy's memory, or comes with the row. -/
def readDirectory (a b : Bool) (i : Nat) (s : State) : State :=
  let hit (copy : Nat) (x : Bool) (s : State) : State :=
    let s := meetCells (dirAt s copy i) 128 s
    if x || dirBad s copy i then dramUe (dirAt s copy i) s else s
  let s := hit 1 b (hit 0 a s)
  if dirBad s 0 i && dirBad s 1 i then loseBin i 2 (dirHeal i s)
  else if dirBad s 0 i || dirBad s 1 i then dirHeal i s
  else s

/-- The directory read for a handle. -/
def readEntry (a b : Bool) (h : Nat) (s : State) : State :=
  match localBin s h with
  | some (i, _) => readDirectory a b i s
  | none => s

/-- A PROXY's partner performs what it relays on the standby copy, which judges nothing again (R312). -/
def relayed (s : State) (member h : Nat) : Option Nat :=
  match localBin s h with
  | some (i, b) => if b.role = .standby ∧ b.state = .allocated ∧ b.partner = some member then some i else none
  | none => none

/-- A part judged: the bin, or the NAK (R305). -/
def judgePart (s : State) (r : GReq) (member : Nat) (x : Part) : Except (Nat × Nat) Nat :=
  match relayed s member x.handle with
  | some i => .ok i
  | none => judge s x.handle (some member) x.off x.len r.write

/-- The parts of a request (R279, R281). -/
def partsOf (s : State) (p : Qp) (r : GReq) : Option (List Part) :=
  if p.mode = 1 then some [{ handle := r.va, off := r.key, len := reqBytes r, at_ := 0 }]
  else
    (windowParts s p.member r.va r.key (reqBytes r)).map fun l =>
      (l.foldl (fun (a : Nat × List Part) x => (a.1 + x.2.2, a.2 ++ [{ handle := x.1, off := x.2.1, len := x.2.2, at_ := a.1 }])) (0, [])).2

/-- A request refused with a NAK code. -/
def refuseRequest (r : GReq) (e : Nat × Nat) (s : State) : State := if e.1 = 2 then nakQp r.qpn r.psn 2 s else statusNak r e.1 e.2 s

/-- A request to bins judged by the steps of R305 in order, the granary's sleep last, and admitted, held or refused (R305, R325,
R379). -/
def judgeRequest (serves : Bool) (r : GReq) (s : State) : State :=
  match qpOf s r.qpn with
  | none => s
  | some p =>
    if r.psn ≠ p.rqPsn then (if psnLe p.rqPsn r.psn then nakQp r.qpn p.rqPsn 0 s else s)
    else
    match partsOf s p r with
    | none => nakQp r.qpn r.psn 2 s
    | some parts =>
      let s := parts.foldl (fun s x => readEntry r.dirA r.dirB x.handle s) s
      let verdicts := parts.map (judgePart s r p.member)
      match verdicts.findSome? fun v => match v with | .error e => some e | .ok _ => none with
      | some e => refuseRequest r e s
      | none =>
        if !serves then
          if r.stall then s.modGrn fun g => { g with asleep := g.asleep ++ [r] } else statusNak r 0x13 (sleepRetry s) s
        else if tokensFor s parts.length then
          let s := modQp r.qpn (fun q => { q with rqPsn := psnAdd r.psn (packetsOf (reqBytes r)) }) s
          let s := if r.write then s else noteServed r.qpn r.psn (packetsOf (reqBytes r)) (foldAddr p.mode r.va r.key) s
          (parts.zip verdicts).foldl
            (fun s x => match x.2 with | .ok i => admitPart r p.member i x.1 s | .error _ => s) s
        else s.modTly fun y => { y with waiting := y.waiting ++ [r], held := sat 0xFFFFFFFF (y.held + 1) }

/-- A request admitted at a granary that serves (R325). -/
def admitRequest (r : GReq) (s : State) : State := judgeRequest true r s

/-- A request at the entry head: its port and its check value first; held behind one that its port holds for a token, or while its
home is handed back; then its PSN and the steps of R305 (R285, R287, R316, R325). -/
def enterRequest (r : GReq) (s : State) : State :=
  match qpOf s r.qpn with
  | none => s
  | some p =>
    if p.receives = false ∨ p.mode = 0 ∨ portServes s p r.port = false then s
    else if e2eBad s r.port r.check then e2eDrop r.port r.qpn r.psn false false s
    else if s.tly.waiting.any fun w => decide (w.port = r.port) then s.modTly fun y => { y with waiting := y.waiting ++ [r] }
    else
      match s.grn.handback with
      | some hb =>
        if p.mode = 1 ∧ handleGranary r.va = hb.home then
          s.modGrn fun g => { g with handback := some { hb with held := hb.held ++ [r] } }
        else judgeRequest (sleepServes s) r (sleepWake s)
      | none => judgeRequest (sleepServes s) r (sleepWake s)

/-! ### Maps (R302, R303, R309) -/

/-- The oldest map of a member ends: counted as a map out, its slot cleared, applied at the standby before the BIN_UNMAP that waits
completes; a lapsed lease raises LEASE_LAPSED. -/
def endMap (i member : Nat) (s : State) : State :=
  let b := binEntry s i
  match b.maps.find? fun m => decide (m.member = member) with
  | none => s
  | some m =>
    let s := modBin i (fun b => { b with maps := b.maps.eraseP fun x => decide (x.member = member) }) s
    let s := countMapOut i s
    let s := if b.mirrored then notice (b.partner.getD 0) 4 (b.handle (ownMember s) i) member 0 0 s else s
    match m.unmap with
    | some id =>
      if b.mirrored then s.modGrn fun g => { g with mapWaits := g.mapWaits ++ [{ id, bin := i, member, result := 0, result2 := 0 }] }
      else completeId id .success 0 0 s
    | none =>
      raisePf 0x9001 i (i + member * 2 ^ 22) (s.modGrn fun g => { g with lapses := sat 0xFFFFFFFF (g.lapses + 1) })

/-- Open operations that the oldest map of a member admitted. -/
def mapOps (s : State) (i member : Nat) : Nat :=
  let num := ((binEntry s i).maps.find? fun m => decide (m.member = member)).map (·.num)
  (s.tly.tokens.filter fun t => decide (t.2.bin = i) && decide (t.2.member = member) && decide (some t.2.map = num) &&
    (match t.2.kind with | .read | .write _ | .proxy => true | _ => false)).length

/-- The requesting member of a Granary-class command (R297). -/
def requester (s : State) (c : Cmd) : Nat := match c.id.origin with | .domain m _ => m | _ => ownMember s

end Sys2Proof.Machine
end

