-- ==== Sys2Proof/Machine/StoneOps.lean ====
section
/-! DEFINITION. Stones, images, cost prediction, blocks, and the end of near-memory items (04 R142 to R146, 05, 10 R317,
R318). -/

namespace Sys2Proof.Machine

/-! ### Items -/

/-- An item. -/
def itemOf (s : State) (n : Nat) : Option Item := s.trn.items.get n

/-- An item changed. -/
def modItem (n : Nat) (f : Item → Item) (s : State) : State := s.modTrn fun r => { r with items := r.items.modify n f }

/-- The items that satisfy a test, in the order of their numbers. -/
def itemsWhere (s : State) (p : Item → Bool) : List (Nat × Item) := s.trn.items.filter fun e => p e.2

/-- An item put into the ready set, or where its state says. -/
def addItem (i : Item) (s : State) : State :=
  s.modTrn fun r => { r with items := r.items.set r.nextItem i, nextItem := r.nextItem + 1 }

/-- The items of a sail. -/
def Item.ofSail (t k : Nat) (i : Item) : Bool := decide (i.owner = .sail t k)

/-- The turn of an item. -/
def Item.turn? (i : Item) : Option Nat :=
  match i.owner with
  | .sail t _ => some t
  | .turn t => some t
  | _ => none

/-! ### Images -/

/-- A loaded image. -/
def imageOf (s : State) (i : Nat) : Option Image := s.stn.images.get i

/-- An image changed. -/
def modImage (i : Nat) (f : Image → Image) (s : State) : State := s.modStn fun x => { x with images := x.images.modify i f }

/-- Floors of a gang size code 0 to 4 (R142). -/
def sizeFloors (code : Nat) : Nat := 2 ^ code

/-- Floors of the gang of an image. -/
def Image.floors (m : Image) : Nat := sizeFloors m.gang

/-- A GANG byte whose size is the image's (R142). -/
def gangFits (gang : Nat) (m : Image) : Bool := decide (bits gang 2 0 = 7 ∨ bits gang 2 0 = m.gang)

/-- Width of a histogram bin (R146). -/
def Image.binWidth (m : Image) : Nat := ceilDiv m.wc 32

/-- Runs recorded. -/
def Image.runs (m : Image) : Nat := (m.hist.map (·.2)).foldl (· + ·) 0

/-- The bin that holds the run of a rank in ascending order. -/
def binOfRank : Tbl Nat → Nat → Nat
  | [], _ => 31
  | (k, v) :: r, rank => if rank ≤ v then k else binOfRank r (rank - v)

/-- The predicted cost of an image in stone cycles (R146). -/
def Image.predicted (m : Image) : Nat :=
  let n := m.runs
  if n < 8 then m.wc
  else
    let b := binOfRank m.hist (ceilDiv (99 * n) 100)
    if b = 31 then m.wc else (b + 1) * m.binWidth

/-- A completed run of some cycles recorded (R146). -/
def Image.record (c : Nat) (m : Image) : Image :=
  let b := min 31 (c / max 1 m.binWidth)
  let hist := m.hist.alter b 0 (· + 1)
  let n := (hist.map (·.2)).foldl (· + ·) 0
  { m with
    hist := if 65536 ≤ n then (hist.mapVal fun _ v => v / 2).filter fun e => e.2 ≠ 0 else hist
    overruns := if m.wc < c then m.overruns + 1 else m.overruns }

/-- C of R143: the remaining predicted cost of an item in ns at 1.80 GHz. -/
def remainingNs (s : State) (i : Item) : Nat :=
  match imageOf s i.image with
  | none => 0
  | some m => (m.predicted - i.cycles) * 5 / 9

/-- Cycles from an item's present place to its next boundary, by the declared cost of its segment. -/
def toBoundary (s : State) (i : Item) : Nat :=
  match imageOf s i.image with
  | none => 0
  | some m =>
    match m.segs.find? fun e => decide (e.site = i.site) with
    | some e => e.cost - i.adv
    | none => 0

/-- The chain an item runs. -/
def chainOf (s : State) (i : Item) : Option Chain := i.chain.bind fun c => s.stn.chains.get c

/-- Bytes of an item's save area (R164). -/
def saveArea (m : Image) : Nat := 16 * m.floors * (4096 + m.saveBytes)

/-! ### Stones (R180 to R183) -/

/-- A stone. -/
def stoneOf (s : State) (n : Nat) : Stone := s.stn.stones.getD n {}

/-- A stone changed; one in service with its last BIST passed is not listed. -/
def modStone (n : Nat) (f : Stone → Stone) (s : State) : State :=
  s.modStn fun x =>
    let v := f (x.stones.getD n {})
    { x with stones := if v = {} then x.stones.erase n else x.stones.set n v }

/-- The item that runs on a stone: it holds the floor and uses the column. -/
def itemOn (s : State) (n : Nat) : Option (Nat × Item) :=
  s.trn.items.find? fun e =>
    e.2.holds.contains (n / 16) &&
      (match imageOf s e.2.image with | some m => bit m.useMask (n % 16) | none => true)

/-- The stones a fence or reinstatement names. -/
def namedStones (n : Nat) (floor : Bool) : List Nat :=
  if floor then (List.range 16).map fun c => n / 16 * 16 + c else [n]

/-- A block is permitted for an image (R182). -/
def permitted (s : State) (m : Image) (base : Nat) : Bool :=
  (floorsFrom base m.floors).all fun f =>
    !bit s.stn.floorFence f &&
      (List.range 16).all fun c => !bit m.useMask c || decide ((stoneOf s (16 * f + c)).state = .inService)

/-- Fences that end: every FENCING stone without work is FENCED, and a STONE_FENCE whose stones are all FENCED
completes (R181). -/
def settleFences (s : State) : State :=
  let go := (s.stn.stones.filter fun e => decide (e.2.state = .fencing) && (itemOn s e.1).isNone).map (·.1)
  let s := forEach go (fun n s => raisePf 0x5003 n n (modStone n (fun x => { x with state := .fenced }) s)) s
  let settled (w : FenceWait) : Bool := w.stones.all fun n => decide ((stoneOf s n).state = .fenced)
  let ended := s.stn.fences.filter settled
  let s := s.modStn fun x => { x with fences := x.fences.filter fun w => !settled w }
  ended.foldl (fun s w => match w.id with | some id => completeId id .success w.yields 0 s | none => s) s

/-! ### Blocks -/

/-- A block left by its item: scratch released as never written, waiting fences and votes settled (R133, R165, R167). -/
def releaseBlock (base floors : Nat) (s : State) : State := settleVotes (settleFences (clearBlock base floors s))

/-- An item ends: its block is left, its save area returned, a reservation for it dropped (R164). -/
def dropItem (n : Nat) (s : State) : State :=
  match itemOf s n with
  | none => s
  | some i =>
    let s := s.modTrn fun r =>
      { r with
        items := r.items.erase n
        saveUsed := r.saveUsed - i.saveBytes
        reserved := (match r.reserved with | some (k, b) => if k = n then none else some (k, b) | none => none) }
    if i.placed then releaseBlock i.base i.floors s else settleVotes s

/-- A yield asked of a running item, for the item that preempts it or for a fence (R145, R163, R181); a request already made
stays. -/
def askYield (n : Nat) (for_ : Option Nat) (s : State) : State :=
  modItem n (fun i =>
    if i.state = .running ∧ i.yieldAt.isNone then { i with yieldAt := some s.core.t, preempt := for_.isSome, yieldFor := for_ } else i) s

/-! ### Near-memory items (R317, R318) -/

/-- Entries of the near-memory rings. -/
def nmwDepth (s : State) : Nat := 2 ^ bits s.grn.nmwCfg 3 0

/-- A completion entry written, with its interrupt (R317, R318; the MSI-X message is the PF's). -/
def nmwComplete (user : Nat) (st : Status) (stages runtimeUs : Nat) (s : State) : State :=
  let g := s.grn
  let k := nmwDepth s
  let phase := flag (decide (g.nmwDone / k % 2 = 0))
  let entry := leBytes 8 user ++
    leBytes 8 (st.code + stages % 256 * 2 ^ 8 + runtimeUs % 2 ^ 31 * 2 ^ 32 + phase * 2 ^ 63)
  let s := s.modGrn fun g => { g with nmwDone := g.nmwDone + 1 }
  let s := match translate s { write := true } (bits g.nmwCfg 25 16) (g.nmwCbase + 16 * (g.nmwDone % k)) 16 with
    | .ok h => writeHeld h (entry.map fun b => (b, false)) s
    | .error _ => s
  emit (.msix 0 (bits g.nmwCfg 31 26)) s

/-- A near-memory item ends with a status. -/
def endNearMem (n : Nat) (st : Status) (s : State) : State :=
  match itemOf s n with
  | none => s
  | some i =>
    let run := match i.startedAt with | some t => (s.core.t - t) / 1000 | none => 0
    nmwComplete i.user st i.stagesDone run (dropItem n s)

end Sys2Proof.Machine
end

