-- ==== Sys2Proof/Machine/ImgOps.lean ====
section
/-! DEFINITION. The .amg container: its checks, its tables, and loading it (05 R168 to R176). -/

namespace Sys2Proof.Machine

/-! ### Reading the container (R168 to R173) -/

/-- A section table entry (R169). -/
structure AmgSection where
  /-- TYPE. -/
  type : Nat
  /-- OFFSET. -/
  offset : Nat
  /-- BYTES. -/
  bytes : Nat
  /-- CHECK. -/
  check : Nat
  deriving DecidableEq, Repr

/-- SECTIONS. -/
def amgSections (l : List Byte) : Nat := num l 0x0C 4

/-- Entry i of the section table. -/
def amgEntry (l : List Byte) (i : Nat) : AmgSection :=
  let o := 0x80 + 32 * i
  { type := num l o 2, offset := num l (o + 8) 8, bytes := num l (o + 16) 8, check := num l (o + 24) 8 }

/-- The section table, of at most 16 entries. -/
def amgTable (l : List Byte) : List AmgSection := (List.range (min 16 (amgSections l))).map (amgEntry l)

/-- The bytes of the section of a type. -/
def amgSection (l : List Byte) (type : Nat) : List Byte :=
  match (amgTable l).find? fun e => decide (e.type = type) with
  | some e => slice l e.offset e.bytes
  | none => []

/-- The stream of the header job (R353). -/
def amgHeader (l : List Byte) : List Byte := l.take 0x78 ++ slice l 0x80 (32 * min 16 (amgSections l))

/-- Segment table (R171). -/
def amgSegs (l : List Byte) : List SegEntry :=
  let t := amgSection l 5
  (List.range (t.length / 16)).map fun i =>
    { site := num t (16 * i) 4, cost := num t (16 * i + 4) 4, rep := num t (16 * i + 8) 4, live := num t (16 * i + 12) 4 }

/-- Binding table (R172). -/
def amgBinds (l : List Byte) : List Binding :=
  let t := amgSection l 6
  (List.range (t.length / 16)).map fun i =>
    { index := num t (16 * i) 1, kind := num t (16 * i + 1) 1, bytes := num t (16 * i + 8) 8 }

/-- DMA templates (R173). -/
def amgDescs (l : List Byte) : List Template :=
  let t := amgSection l 7
  (List.range (t.length / 64)).map fun i =>
    let o := 64 * i
    { op := num t o 1, binding := num t (o + 1) 1, offset := num t (o + 8) 8, len := num t (o + 16) 4,
      scratch := num t (o + 20) 4, rows := num t (o + 24) 4, stride := num t (o + 32) 8 }

/-- The parts of n stones of a SPUR section from an offset on, each with its bytes: a count header, then its entries (R170). -/
def spurParts (t : List Byte) : Nat → Nat → List (Nat × Nat)
  | 0, _ => []
  | n + 1, o =>
    let bytes := 16 + 16 * Config.spurCount (num t o 16)
    (o, bytes) :: spurParts t n (o + bytes)

/-- The part of a relative stone of an image's SPUR section. -/
def spurPart (m : Image) (k : Nat) : Nat × Nat := (spurParts (amgSection m.bytes 4) (16 * m.floors) 0).getD k (0, 0)

/-- The receive entries of an image. -/
def recvsOf (m : Image) : List Recv :=
  let t := amgSection m.bytes 4
  (spurParts t (16 * m.floors) 0).zipIdx.flatMap fun e =>
    (Config.recvEntries (slice t e.1.1 e.1.2)).map fun r =>
      { stone := e.2, site := r.1, cycle := r.2.1, beats := r.2.2.1, src := r.2.2.2.1, dst := r.2.2.2.2 }

/-! ### Checks (R168 to R172, R174) -/

/-- The first of the failing tests, each with the image byte offset it concerns. -/
def firstBad (l : List (Bool × Nat)) : Option Nat := (l.find? fun e => e.1).map (·.2)

/-- Entry tests of a table of 16-byte entries. -/
def tableBad (base : Nat) (l : List Bool) : List (Bool × Nat) := l.zipIdx.map fun e => (e.1, base + 16 * e.2)

/-- Length tests of a section by its type (R170). -/
def sectionLenBad (gang : Nat) (e : AmgSection) : Bool :=
  match e.type with
  | 1 => decide (e.bytes ≠ 256 * sizeFloors gang)
  | 2 => decide (e.bytes % 32 ≠ 0)
  | 3 => decide (65536 < e.bytes)
  | 5 => decide (e.bytes % 16 ≠ 0 ∨ 65536 < e.bytes)
  | 6 => decide (e.bytes % 16 ≠ 0 ∨ 256 < e.bytes)
  | 7 => decide (e.bytes % 64 ≠ 0 ∨ 262144 < e.bytes)
  | _ => false

/-- A SPUR section whose parts do not make it up, or with more than 65,536 entries for a stone (R170). -/
def spurBad (gang : Nat) (t : List Byte) : Bool :=
  let l := spurParts t (16 * sizeFloors gang) 0
  decide ((l.map (·.2)).foldl (· + ·) 0 ≠ t.length) || l.any fun e => decide (16 + 16 * 65536 < e.2)

/-- A STONE_MAP entry against BUNDLES and USE_MASK. -/
def stoneMapBad (l : List Byte) : List Bool :=
  let t := amgSection l 1
  let b := (amgSection l 2).length
  (List.range (t.length / 16)).map fun i =>
    let off := num t (16 * i) 8
    let n := num t (16 * i + 8) 4
    decide (num t (16 * i + 12) 4 ≠ 0) || decide (b < off + 32 * n) || (!bit (num l 0x22 2) (i % 16) && decide (n ≠ 0))

/-- The offset in an image of length n at which R168 to R172 fail, if they do. -/
def amgBad (l : List Byte) (n : Nat) : Option Nat :=
  let tab := amgTable l
  let segs := amgSegs l
  let binds := amgBinds l
  let off (t : Nat) : Nat := match tab.find? fun e => decide (e.type = t) with | some e => e.offset | none => 0x80
  let entry (i : Nat) (e : AmgSection) : List (Bool × Nat) :=
    let o := 0x80 + 32 * i
    [ (decide (num l (o + 2) 6 ≠ 0), o + 2),
      (decide (e.offset % 64 ≠ 0 ∨ e.offset < 0x80 + 32 * amgSections l), o + 8),
      (decide (n < e.offset + e.bytes) || sectionLenBad (num l 0x20 1) e, o + 16),
      (tab.zipIdx.any fun f => decide (f.2 < i) && decide (f.1.offset < e.offset + e.bytes) && decide (e.offset < f.1.offset + f.1.bytes), o + 8) ]
  firstBad (
    [ (decide (slice l 0 4 ≠ [0x41, 0x4D, 0x47, 0x49]), 0), (decide (num l 6 2 ≠ 0), 6), (decide (num l 8 4 ≠ 128), 8),
      (decide (amgSections l < 7 ∨ 16 < amgSections l), 0x0C), (decide (num l 0x10 8 ≠ n), 0x10), (decide (num l 0x1E 2 ≠ 0), 0x1E),
      (decide (4 < num l 0x20 1), 0x20), (decide (3 < num l 0x21 1), 0x21), (decide (num l 0x22 2 = 0), 0x22),
      (decide (num l 0x28 4 ≠ segs.length), 0x28), (decide (num l 0x2C 4 ≠ (segs.map (·.live)).foldl max 0), 0x2C),
      (decide (num l 0x30 8 ≠ (segs.map fun e => e.cost * e.rep).foldl (· + ·) 0), 0x30),
      (decide (num l 0x38 8 % 65536 ≠ 0), 0x38), (decide (num l 0x40 56 ≠ 0), 0x40),
      ((List.range 7).any fun t => decide ((tab.filter fun e => e.type = t + 1).length ≠ 1), 0x80) ] ++
    (tab.zipIdx.flatMap fun e => entry e.2 e.1) ++ [(spurBad (num l 0x20 1) (amgSection l 4), off 4)] ++ tableBad (off 1) (stoneMapBad l) ++
    tableBad (off 5) (segs.map fun e =>
      decide (0xFFFFFF < e.site ∨ e.cost = 0 ∨ 16384 < e.cost ∨ e.rep = 0 ∨ e.live % 64 ≠ 0 ∨ 4194304 < e.live)) ++
    tableBad (off 6) ((binds.zipIdx.map fun e =>
      decide (15 < e.1.index ∨ e.1.kind = 0 ∨ 5 < e.1.kind) || decide (num (amgSection l 6) (16 * e.2 + 2) 6 ≠ 0))))

/-- Control-plane firmware major (R77: one byte each from the lowest). -/
def fwMajor : Nat := bits Config.ctlFwVersion 23 16
/-- Its minor. -/
def fwMinor : Nat := bits Config.ctlFwVersion 15 8

/-- R174. -/
def amgCompatible (l : List Byte) : Bool :=
  decide (num l 4 2 = 1) && decide (num l 0x24 1 ≤ 0xB0) && decide (0xB0 ≤ num l 0x25 1) &&
    decide (num l 0x26 1 = fwMajor) && decide (num l 0x27 1 ≤ fwMinor)

/-- A binding some template writes through (R205). -/
def writesThrough (m : Image) (index : Nat) : Bool := m.descs.any fun d => decide (d.op = 2) && decide (d.binding = index)

/-- Bindings of a kind resolved from a block of addresses by INDEX, each translated in full; or the first fault with its
INDEX (R173, R175, R177, R205). -/
def resolveBinds (s : State) (asid : Nat) (block : List Nat) (writes : Nat → Bool) :
    List Binding → Except (XFault × Nat) (Tbl Held)
  | [] => .ok []
  | b :: r =>
    match translate s { write := writes b.index } asid (block.getD b.index 0) b.bytes with
    | .error f => .error (f, b.index)
    | .ok h =>
      match resolveBinds s asid block writes r with
      | .error e => .error e
      | .ok t => .ok (t.set b.index h)

/-- Image store space in use, KiB, of a function or of all. -/
def imageKib (s : State) (fn : Option Nat) : Nat :=
  ((s.stn.images.filter fun e => match fn with | some f => decide (e.2.fn = f) | none => true).map fun e => e.2.kib).foldl (· + ·) 0

/-- The image a container gives, before its STATIC bindings are resolved. -/
def amgImage (fn : Nat) (l : List Byte) : Image :=
  { fn, bytes := l, kib := ceilDiv l.length 1024, gang := num l 0x20 1, flags := num l 0x21 1, useMask := num l 0x22 2,
    version := num l 0x18 6, saveBytes := num l 0x2C 4, wc := num l 0x30 8, arenaBytes := num l 0x38 8, segs := amgSegs l,
    binds := amgBinds l, descs := amgDescs l, static := [] }

/-- A load whose CRCs have been found right: R168 to R172, R174, the image store and the STATIC bindings (R175). -/
def finishLoad (ld : Loading) (s : State) : State :=
  let s := s.modStn fun x => { x with loading := x.loading.filter fun y => y.id ≠ ld.id }
  match findCmd s ld.id with
  | none => s
  | some c =>
    let l := ld.bytes
    let m := amgImage c.fn l
    let quota := if c.fn = 0 then none else some (1024 * feature s 0x05 c.fn 0)
    if s.stn.images.has c.context then invalid c 4 s
    else
      match amgBad l l.length with
      | some o => invalid c 8 (logError { sev := 2, source := 3, plane := 0, code := Config.blockCode 8, addr := o, fn := c.fn, obj := c.context } s)
      | none =>
        if amgCompatible l = false then complete c .versionMismatch 0 (0xB0 + fwMinor * 2 ^ 8 + fwMajor * 2 ^ 16) s
        else if (match quota with | some q => decide (q < imageKib s (some c.fn) + m.kib) | none => false) ||
            decide (1024 * s.mem.sizes.image < imageKib s none + m.kib) then complete c .noResource 0 0 s
        else
          match resolveBinds s (fld c.pkt 4 15 0) ld.block (writesThrough m) (m.binds.filter fun b => decide (b.kind = 1)) with
          | .error (f, i) => xlateFault c f i s
          | .ok static =>
            complete c .success m.kib 0 (s.modStn fun x => { x with images := x.images.set c.context { m with static } })

/-! ### Internal jobs of a load (R353) -/

/-- A load in progress. -/
def loadingOf (s : State) (id : CmdId) : Option Loading := s.stn.loading.find? fun x => decide (x.id = id)

/-- The result of job n of a load is right: 0 the header, n the n-th section. -/
def loadJobOk (ld : Loading) (n : Nat) : Bool :=
  if n = 0 then decide (crc64 (amgHeader ld.bytes) = num ld.bytes 0x78 8)
  else
    let e := amgEntry ld.bytes (n - 1)
    decide (e.offset + e.bytes ≤ ld.bytes.length) && decide (crc64 (slice ld.bytes e.offset e.bytes) = e.check)

/-- Jobs of a load. -/
def loadJobs (ld : Loading) : Nat := 1 + min 16 (amgSections ld.bytes)

end Sys2Proof.Machine
end

