-- ==== Sys2Proof/Machine/CheckOps.lean ====
section
/-! DEFINITION. Engines, their queues and the end of a job (12 R340 to R353). -/

namespace Sys2Proof.Machine

/-- An engine. -/
def engineOf (s : State) (n : Nat) : Engine := s.chk.engines.getD n {}

/-- An engine changed. -/
def modEngine (n : Nat) (f : Engine → Engine) (s : State) : State :=
  s.modChk fun c => { c with engines := c.engines.alter n {} f }

/-- An idle engine takes the oldest internal job, else the oldest host job (R341). -/
def Engine.next (e : Engine) : Engine :=
  match e.run with
  | some _ => e
  | none =>
    match e.intQ, e.hostQ with
    | j :: r, _ => { e with run := some j, intQ := r }
    | [], j :: r => { e with run := some j, hostQ := r }
    | [], [] => e

/-- A job queued under a fresh number. -/
def pushJob (n : Nat) (internal : Bool) (j : Job) (s : State) : State :=
  let j := { j with num := s.chk.next }
  let s := s.modChk fun c => { c with next := c.next + 1 }
  modEngine n (fun e => (if internal then { e with intQ := e.intQ ++ [j] } else { e with hostQ := e.hostQ ++ [j] }).next) s

/-- The command a job is for completes. -/
def completeJob (j : Job) (st : Status) (r r2 : Nat) (s : State) : State :=
  match j.id with
  | some id => completeId id st r r2 s
  | none => s

/-- Job n of a load queued on its engine. -/
def pushLoadJob (ld : Loading) (n : Nat) (s : State) : State :=
  let held : Held := { asid := 0, va := 0, len := 0, segs := [] }
  let len := if n = 0 then (amgHeader ld.bytes).length else (amgEntry ld.bytes (n - 1)).bytes
  pushJob ld.engine true { id := some ld.id, image := some n, held, len, num := 0 } s

/-- The configuration a new claim starts with (R342): fixed CRC-32C, no fold, no alive counter, sequence counter 0. -/
def claimed (fn : Nat) (e : Engine) : Engine :=
  { e with owner := some fn, cfg := {}, seq := 0, seen := none, release := none }

/-- An engine whose release waits is free once nothing runs or is queued on it (R343). -/
def settleRelease (n : Nat) (s : State) : State :=
  let e := engineOf s n
  match e.release with
  | some id =>
    if e.run.isNone ∧ e.hostQ = [] ∧ e.intQ = [] then
      completeId id .success 0 0 (modEngine n (fun e => { e with owner := none, release := none, cfg := {}, seq := 0, seen := none }) s)
    else s
  | none => s

/-- The parameters of a configuration (R345, R346). -/
def ChkCfg.crc (c : ChkCfg) : CrcCfg := if c.mode = 4 then c.free else fixedCrc c.mode

/-- The fold bytes of a run (R347, R348). -/
def foldBytes (e : Engine) (j : Job) : List Byte :=
  match j.cfg.fold with
  | 0 => []
  | 1 => leBytes 8 j.foldValue
  | 2 => leBytes 8 j.held.va
  | _ => leBytes 8 e.seq

/-- The alive value of a payload (R349). -/
def aliveOf (c : ChkCfg) (l : List Byte) : Option Nat :=
  match c.alive with
  | 1 => some ((l.getD c.ofs 0).toNat % 16)
  | 2 => some (l.getD c.ofs 0).toNat
  | _ => none

/-- A host run ends with its result, or POISONED (R348 to R351). -/
def endRun (n : Nat) (j : Job) (bus : Bus) (s : State) : State :=
  let e := engineOf s n
  let (data, s) := readRuns bus j.held.segs s
  let next (f : Engine → Engine) (s : State) : State :=
    modEngine n (fun e => f { e with run := none, seq := if j.cfg.fold = 3 then (e.seq + 1) % 2 ^ 64 else e.seq, runs := sat 0xFFFFFFFF (e.runs + 1) }) s
  if anyPoison data then
    completeJob j .poisoned 0 (lastErrIndex s) (next id s)
  else
    let l := data.map (·.1)
    let p := j.cfg.crc
    let r := crc p (foldBytes e j ++ l)
    let valueBad := j.compare && decide (r % 2 ^ p.width ≠ j.expected % 2 ^ p.width)
    let m := if j.cfg.alive = 1 then 16 else 256
    let v := aliveOf j.cfg l
    let aliveBad := match v, e.seen with
      | some v, some q => decide (v ≠ (q + 1) % m)
      | _, _ => false
    let cause := flag valueBad + 2 * flag aliveBad
    let seen := match v with | some v => some v | none => e.seen
    if cause = 0 then
      completeJob j .success (r % 2 ^ 32) (r / 2 ^ 32) (next (fun e => { e with result := r, seen }) s)
    else
      let fn := e.owner.getD 0
      let s := next (fun e =>
        { e with result := r, seen, cause, fails := sat 0xFFFFFFFF (e.fails + 1),
                 alive := seen.getD 0 + v.getD 0 * 2 ^ 8 }) s
      let s := completeJob j .integrity (r % 2 ^ 32) n s
      raise 0xB001 fn n 0 0 (n + cause * 2 ^ 4 + ((j.id.map (·.tag)).getD 0) * 2 ^ 16) 0 (s.modChk fun c => { c with irq := c.irq ||| 2 ^ n })

/-- An internal job has run (R353): neither L nor the sequence counter moves. -/
def ranInternal (n : Nat) (s : State) : State :=
  modEngine n (fun e => { e with run := none, runs := sat 0xFFFFFFFF (e.runs + 1) }) s

/-- A job of a load ends: a mismatch ends the load, the last one finishes it (R353). -/
def endLoadJob (n : Nat) (j : Job) (k : Nat) (s : State) : State :=
  match j.id.bind (loadingOf s) with
  | none => s
  | some ld =>
    if loadJobOk ld k = false then
      completeJob j .integrity 0 n (s.modStn fun x => { x with loading := x.loading.filter fun y => some y.id ≠ j.id })
    else if k + 1 < loadJobs ld then
      pushLoadJob ld (k + 1) s
    else finishLoad ld s

end Sys2Proof.Machine
end

