-- ==== Sys2Proof/Machine/TurnOps.lean ====
section
/-! DEFINITION. Turns, sails and the commit gate (04 R121 to R141, 06 R207). -/

namespace Sys2Proof.Machine

/-! ### Turns and sails -/

/-- A turn slot. -/
def turnOf (s : State) (t : Nat) : Turn := s.trn.turns.getD t {}

/-- A turn changed. -/
def modTurn (t : Nat) (f : Turn → Turn) (s : State) : State := s.modTrn fun r => { r with turns := r.turns.modify t f }

/-- A sail slot of a turn. -/
def Turn.sail (x : Turn) (k : Nat) : Sail := x.sails.getD k {}

/-- A sail slot. -/
def sailOf (s : State) (t k : Nat) : Sail := (turnOf s t).sail k

/-- A sail changed. -/
def modSail (t k : Nat) (f : Sail → Sail) (s : State) : State :=
  modTurn t (fun x => { x with sails := x.sails.alter k {} f }) s

/-- LISTENING, SPECULATING or COMMITTED (R121). -/
def Turn.live (x : Turn) : Bool := decide (x.state = .listening ∨ x.state = .speculating ∨ x.state = .committed)

/-- The live turn of a race. -/
def liveTurn (s : State) (race : Nat) : Option Nat :=
  (s.trn.turns.find? fun e => decide (e.2.race = race) && e.2.live).map (·.1)

/-- WHL_TSTATE code of a turn state (R150). -/
def TurnState.code : TurnState → Nat
  | .free => 0
  | .listening => 1
  | .speculating => 2
  | .committed => 3
  | .retiring => 4

/-- WHL_TSTATE code of a sail state. -/
def SailState.code : SailState → Nat
  | .free => 0
  | .raised => 1
  | .set => 2
  | .furling => 3
  | .draining => 4

/-- Sails of a turn in a state. -/
def Turn.sailsIn (x : Turn) (st : SailState) : List Nat := (x.sails.filter fun e => decide (e.2.state = st)).map (·.1)

/-- Turn-level items that run or wait. -/
def turnItems (s : State) (t : Nat) : Nat := (itemsWhere s fun i => decide (i.owner = .turn t)).length

/-- A turn slot is not FREE. -/
def turnInUse (s : State) (t : Nat) : Bool := decide ((turnOf s t).state ≠ .free)

/-- Turn slots of a function that are not FREE. -/
def turnsOf (s : State) (fn : Nat) : Nat :=
  (s.trn.turns.filter fun e => decide (e.2.fn = fn) && decide (e.2.state ≠ .free)).length

/-- A turn slot with its state settled: a RETIRING turn with no turn-level work is FREE (R123), and a FREE slot is kept only
while a furled sail of it drains. -/
def freeTurn (t : Nat) (s : State) : State :=
  let x := turnOf s t
  if (x.state = .retiring ∧ turnItems s t = 0) ∨ x.state = .free then
    if x.sails = [] then s.modTrn fun r => { r with turns := r.turns.erase t } else modTurn t (fun x => { x with state := .free }) s
  else s

/-- A live turn becomes RETIRING: TURN_RETIRED when a reason is given, and waiting TURN_ENDs complete (R123, R124). -/
def retireTurn (t : Nat) (reason : Option Nat) (s : State) : State :=
  let x := turnOf s t
  if x.live then
    let s := modTurn t (fun x => { x with state := .retiring, endCmds := [] }) s
    let s := match reason with | some r => raise 0x4005 x.fn t 0 0 r 0 s | none => s
    freeTurn t (x.endCmds.foldl (fun s id => completeId id .success (turnItems s t) 0 s) s)
  else s

/-! ### Arenas (R207) -/

/-- The lowest offset at which n bytes fit among extents in rising order. -/
def firstFit (pool n : Nat) : Tbl Arena → Nat → Option Nat
  | [], lo => if lo + n ≤ pool then some lo else none
  | (o, a) :: r, lo => if lo + n ≤ o then some lo else firstFit pool n r (o + a.len)

/-- An arena of n bytes allocated, reading as zero; extents are 64 KiB-aligned in physical memory, whatever the pool's base. -/
def takeArena (s : State) (n : Nat) : Option (Nat × State) :=
  match firstFit (mib s.mem.sizes.arena) n s.mem.arenas (ceilDiv (arenaBase s) 65536 * 65536 - arenaBase s) with
  | none => none
  | some o =>
    some (o, s.modMem fun m => { zeroRange m (arenaBase s + o) n with arenas := m.arenas.set o { len := n, filling := false } })

/-- An arena released: it is zero-filled before it returns to the pool. -/
def leaveArena (o : Option Nat) (s : State) : State :=
  match o with
  | none => s
  | some o => s.modMem fun m => { m with arenas := m.arenas.modify o fun a => { a with filling := true } }

/-! ### Furling (R133, R134, R141) -/

/-- Smp of held frames. -/
def heldSmp (l : List HeldFrame) : Nat := (l.map (·.nsmp)).foldl (· + ·) 0

/-- Bytes of held writes. -/
def heldBytes (l : List HeldWrite) : Nat := (l.map (·.data.length)).foldl (· + ·) 0

/-- DMA issues of a bed that have not begun. -/
def Bed.unstarted (b : Bed) : Nat := (b.slots.filter fun v => decide (bits v.word 3 0 = 3)).length

/-- Runner instructions of an item in progress at an instant. -/
def Item.runnersAt (t : Nat) (i : Item) : Nat :=
  ((i.beds.map fun b => (b.2.runner.filter fun o => decide (o.start ≤ t) && decide (t < o.end_)).length)).foldl (· + ·) 0

/-- DMA issues of an item that have not begun. -/
def Item.unstarted (i : Item) : Nat := (i.beds.map fun b => b.2.unstarted).foldl (· + ·) 0

/-- A bed that issues nothing more from an instant on: runner instructions in progress run to their end, what waits behind
them does not begin (R133, R167). -/
def Bed.stop (t : Nat) (b : Bed) : Bed :=
  { b with slots := [], waitDma := false, need := .none, runner := b.runner.filter fun o => decide (o.start ≤ t) }

/-- An item stopped at an instant: its beds issue nothing more and a pending yield is cancelled (R133, R167). -/
def Item.stop (st : ItemState) (t : Nat) (i : Item) : Item :=
  { i with state := st, yieldAt := none, yieldFor := none, stalled := false, beds := i.beds.mapVal fun _ b => b.stop t }

/-- RESULT2 of a furl (R134). -/
def Sail.furlResult2 (v : Sail) : Nat := sat 0xFFFF v.discarded + sat 0xFFFF v.cancelled * 2 ^ 16

/-- A furled sail's stones are idle: DRAINING, and the SAIL_FURLs that wait complete (R126, R132). -/
def drainSail (t k : Nat) (s : State) : State :=
  let v := sailOf s t k
  let s := modSail t k (fun v => { v with state := .draining, furlCmds := [] }) s
  v.furlCmds.foldl (fun s id => completeId id .success v.runners v.furlResult2 s) s

/-- A RAISED or SET sail discarded at the gate (R133, R134, R141); st is what its SAIL_RAISE completes with. -/
def furlSail (t k cause : Nat) (st : Status) (s : State) : State :=
  let x := turnOf s t
  let v := x.sail k
  if v.state ≠ .raised ∧ v.state ≠ .set then s
  else
    let its := itemsWhere s (Item.ofSail t k)
    let on := its.filter fun e => e.2.placed
    let runners := (on.map fun e => e.2.runnersAt s.core.t).foldl (· + ·) 0
    let cancelled := (on.map fun e => e.2.unstarted).foldl (· + ·) 0
    let v' : Sail :=
      { v with
        state := .furling, audio := [], writes := [], cause, furlAt := s.core.t, runners, cancelled,
        discarded := heldSmp v.audio, stall := none, raiseCmd := none }
    let s := modSail t k (fun _ => v') s
    let s := its.foldl (fun s e => if e.2.placed then modItem e.1 (Item.stop .furled s.core.t) s else dropItem e.1 s) s
    let s := match v.raiseCmd with
      | some id => completeId id st (if st = .furled then runners else 0) (if st = .furled then v'.furlResult2 else 0) s
      | none => s
    let s := raise 0x4003 x.fn t k 0 (cause + sat 256 runners * 2 ^ 4) 0 s
    let s := if on.isEmpty then drainSail t k s else s
    if v.state = .set then
      retireTurn t (some 1) (gapMarker x.race 0x48 t k s)
    else if (turnOf s t).state = .speculating ∧ (turnOf s t).sailsIn .raised = [] then
      modTurn t (fun x => { x with state := .listening }) s
    else s

/-- Every raised sail of a turn furled. -/
def furlRaised (t cause : Nat) (st : Status) (s : State) : State :=
  forEach ((turnOf s t).sailsIn .raised) (fun k s => furlSail t k cause st s) s

/-- A sail slot becomes FREE: its arena is released (R126, R207). -/
def freeSail (t k : Nat) (s : State) : State :=
  let a := (sailOf s t k).arena
  freeTurn t (modTurn t (fun x => { x with sails := x.sails.erase k }) (leaveArena a s))

/-- The last frame of a done set sail has been released: one without TURN_LAST is made good with a TRUNC gap marker (R139). -/
def endAudio (l : Leaving) (s : State) : State :=
  if l.v.lastOut then s
  else raise 0x4006 l.fn l.turn l.idx 0 l.v.chain 0 (gapMarker l.race 0x48 l.turn l.idx s)

/-- A done set sail whose turn is RETIRING leaves its slot, which is FREE (R126); what it holds stays in the gate until it is
released (R138). -/
def leaveSail (t k : Nat) (s : State) : State :=
  let x := turnOf s t
  let l : Leaving := { turn := t, idx := k, fn := x.fn, race := x.race, first := x.first, v := x.sail k }
  let s := freeSail t k s
  let s := if l.v.audio = [] ∧ l.v.writes = [] then s else s.modTrn fun r => { r with leaving := r.leaving ++ [l] }
  if l.v.audio = [] then endAudio l s else s

/-- A sail is done (R128): a set one retires its turn (R123). -/
def sailDone (t k : Nat) (s : State) : State :=
  let s := modSail t k (fun v => { v with done := true }) s
  if (sailOf s t k).state = .set then leaveSail t k (retireTurn t (some 0) s) else s

/-! ### Setting (R130, R131) -/

/-- A sail's holds have the room its gang's next write needs (R135, R137): a set sail with nothing held takes any write, since
one behind no other passes unheld (R28). -/
def Sail.hasRoom (v : Sail) : Bool :=
  match v.stall with
  | none => false
  | some (0, n, _) => decide (v.audio.length < 512) && decide (heldSmp v.audio + n ≤ 96000)
  | some (_, n, recs) =>
    (decide (v.state = .set) && v.writes.isEmpty) ||
      (decide (heldBytes v.writes + n ≤ 262144) && decide (v.writes.length + recs ≤ 1024))

/-- The gate stall of a sail's gang ends when a hold has the room its next write needs (R30, R137). -/
def gateRoom (t k : Nat) (s : State) : State :=
  if (sailOf s t k).hasRoom then
    modSail t k (fun v => { v with stall := none })
      ((itemsWhere s (Item.ofSail t k)).foldl (fun s e => modItem e.1 (fun i => { i with stalled := false }) s) s)
  else s


/-- The batch of R130 for a RAISED sail. -/
def setSail (t k : Nat) (s : State) : State :=
  let x := turnOf s t
  let v := x.sail k
  let held := heldSmp v.audio
  let vPos := match raceOf s x.race with | some r => timeOf r.anchor (rateOf r.hrate) r.v | none => 0
  let s := modSail t k
    (fun v => { v with state := .set, heldAtSet := held, setAt := s.core.time, vAt := vPos, raiseCmd := none }) s
  let s := modTurn t (fun x => { x with state := .committed }) s
  let s := match v.raiseCmd with
    | some id => completeId id .success held (s.core.time % 2 ^ 32) s
    | none => s
  let s := raise 0x4002 x.fn t k 0 held 0 s
  let s := forEach ((x.sailsIn .raised).filter fun j => j ≠ k) (fun j s => furlSail t j 2 .furled s) s
  if v.done then leaveSail t k (retireTurn t (some 0) s) else gateRoom t k s

/-! ### Raising (R127) -/

/-- What a raise names. -/
structure Raise where
  /-- Turn and slot. -/
  turn : Nat
  slot : Nat
  /-- CHAIN. -/
  chain : Nat
  /-- FIRST_STAGE. -/
  stage : Nat
  /-- GANG. -/
  gang : Nat
  /-- HYP. -/
  hyp : Nat
  /-- Its command, or the cog's condition time and race. -/
  cmd : Option CmdId
  cog : Option (Nat × Bool × Nat) := none
  deriving DecidableEq, Repr

/-- The image of a stage of a chain of a function. -/
def stageImage (s : State) (fn chain stage : Nat) : Option (Nat × Image) :=
  match s.stn.chains.get chain with
  | none => none
  | some c =>
    if c.fn ≠ fn then none
    else
      match c.images[stage]? with
      | none => none
      | some i => (imageOf s i).map fun m => (i, m)

/-- The chain exists and is the function's. -/
def chainOwned (s : State) (fn chain : Nat) : Bool :=
  match s.stn.chains.get chain with
  | none => false
  | some c => decide (c.fn = fn)

/-- A GANG byte that places a stage's image: its size, and a BASE that is a multiple of the gang's floors (R142). -/
def gangOk (gang : Nat) (m : Image) : Bool := gangFits gang m && (!bit gang 3 || decide (bits gang 7 4 % m.floors = 0))

/-- The item of a stage. -/
def stageItem (s : State) (fn : Nat) (owner : Owner) (chain stage image gang due : Nat) : Item :=
  { fn, owner, chain := some chain, stage, image, gang, due,
    floors := (match imageOf s image with | some m => m.floors | none => 1) }

/-- A raise refused, with status, RESULT and RESULT2, or done (R127). -/
def raiseSail (r : Raise) (s : State) : Except (Status × Nat × Nat) State :=
  let x := turnOf s r.turn
  let v := x.sail r.slot
  let h := match raceOf s x.race with | some q => q.h | none => 0
  if x.state ≠ .listening ∧ x.state ≠ .speculating then .error (.notPermitted, 10, x.state.code)
  else if v.state = .raised ∨ v.state = .set then .error (.invalidField, 4, 0)
  else if h < r.hyp then .error (.invalidField, 12, 0)
  else if v.state = .furling ∨ v.state = .draining then .error (.busyRetry, 0, 10)
  else if x.maxSails ≤ (x.sailsIn .raised).length then .error (.noResource, 0, 0)
  else
    match stageImage s x.fn r.chain r.stage with
    | none => .error (.invalidField, if chainOwned s x.fn r.chain then 10 else 8, 0)
    | some (image, m) =>
      if gangOk r.gang m = false then .error (.invalidField, 11, 0)
      else
        let need := match s.stn.chains.get r.chain with | some c => c.arena | none => 0
        let made := if need = 0 then some (none, s) else (takeArena s need).map fun p => (some p.1, p.2)
        match made with
        | none => .error (.noResource, 0, 0)
        | some (arena, s) =>
          let v : Sail :=
            { state := .raised, chain := r.chain, stage := r.stage, gang := r.gang, hyp := r.hyp, raisedAt := s.core.t,
              raiseCmd := r.cmd, arena }
          let s := modTurn r.turn (fun x => { x with state := .speculating, sails := x.sails.set r.slot v }) s
          let i := stageItem s x.fn (.sail r.turn r.slot) r.chain r.stage image r.gang (s.core.t + us x.target)
          .ok (raise 0x4001 x.fn r.turn r.slot 0 (r.hyp % 2 ^ 32) 0 (addItem { i with cogAt := r.cog } s))

/-- A chain stage dispatched as turn-level work of a live turn (R125), or the status of the refusal. -/
def dispatch (fn turn chain stage gang : Nat) (cog : Nat × Bool × Nat) (s : State) : Except Status State :=
  let x := turnOf s turn
  if x.live = false ∨ x.fn ≠ fn then .error .notPermitted
  else
    match stageImage s fn chain stage with
    | none => .error .invalidField
    | some (image, m) =>
      if gangOk gang m = false then .error .invalidField
      else
        .ok (addItem { stageItem s fn (.turn turn) chain stage image gang (s.core.t + us x.target) with cogAt := some cog } s)

/-! ### Ending a turn (R123, R124, R88) -/

/-- Turn-level work cancelled as a furl cancels sail work. -/
def cancelTurnWork (t : Nat) (s : State) : State :=
  (itemsWhere s fun i => decide (i.owner = .turn t)).foldl
    (fun s e => if e.2.placed then modItem e.1 (Item.stop .furled s.core.t) s else dropItem e.1 s) s

/-- A turn ended by its race's close or by a data-plane reset: sails furled with a cause, turn-level work cancelled. -/
def endTurn (t cause : Nat) (st : Status) (s : State) : State :=
  let s := forEach ((turnOf s t).sailsIn .set) (fun k s => furlSail t k cause st s) s
  let s := furlRaised t cause st s
  freeTurn t (retireTurn t none (cancelTurnWork t s))

/-- The frames of a race in check jobs go with it: those that wait are dropped, the one that runs ends without a ring (R341). -/
def dropFrames (rid : Nat) (s : State) : State :=
  let mine (j : Job) : Bool := j.frame.any fun f => decide (f.race = some rid)
  s.modChk fun c =>
    { c with
      engines := c.engines.mapVal fun _ e =>
        { e with
          intQ := e.intQ.filter fun j => !mine j
          run := e.run.map fun j => if mine j then { j with frame := j.frame.map fun f => { f with race := none } } else j } }

/-- A race closed with a furl cause (R88, R72): its turns end, audio still to be released into it goes, its cogs are cleared, its
rings are watched no more. -/
def closeRace (rid cause : Nat) (s : State) : State :=
  let turns := (s.trn.turns.filter fun e => decide (e.2.race = rid)).map (·.1)
  let s := dropFrames rid (forEach turns (fun t s => endTurn t cause .furled s) s)
  let s := s.modTrn fun r =>
    { r with leaving := (r.leaving.map fun l => if l.race = rid then { l with v := { l.v with audio := [] } } else l).filter
                          fun l => !(l.v.audio.isEmpty && l.v.writes.isEmpty) }
  s.modWhl fun w =>
    { w with
      races := w.races.erase rid
      cogs := w.cogs.filter fun e => decide (e.1 / 16 ≠ rid)
      dirty := w.dirty.filter (· ≠ rid)
      late := w.late.filter fun c => decide (c / 16 ≠ rid) }

/-! ### Release into the ring (R138, R97, R98) -/

/-- Origins of the samples a frame gives: the set of its sail and time_of(V) at the set (R477). -/
def sampleFrame (rid : Nat) (f : FrameJob) (s : State) : State :=
  match raceOf s rid with
  | none => s
  | some r =>
    let mine (m : Mon) : Bool := decide (m.fn = r.fn) && m.within 11 rid && (bit m.filtB 2 || decide (bits m.filtB 1 0 = r.trate))
    let s := sample 1 (slackOf r s.core.time * 1000000 / rateOf r.trate) mine s
    if f.first then
      let mineF (m : Mon) (o : Nat) : Bool := decide (m.fn = r.fn) && m.within 11 rid && decide (bits m.filtB 0 0 = o)
      let s := sample 2 ((s.core.time - f.setAt) / 1000) (fun m => mineF m 0) s
      sample 2 ((s.core.time - f.vAt) / 1000) (fun m => mineF m 1) s
    else s

/-- A released frame goes into a race's ring with its CHECK (R138, R352). One that would carry W past its limit is refused
(R98). -/
def landFrameOut (rid : Nat) (f : FrameJob) (check : Nat) (s : State) : State :=
  match raceOf s rid with
  | none => s
  | some r =>
    if posLimit < r.w + f.frame.nsmp then raise 0x3008 r.fn rid 0 r.w 1 0 s
    else
      putFrame rid (flag f.first * 16 + flag f.frame.last * 32) f.frame.nsmp f.frame.data check f.time f.turn f.sail
        (sampleFrame rid f s)

/-- A race's frames carry a check that its engine computes (R86, R344, R352). -/
def Race.checks (r : Race) : Bool := r.tcheck && r.engineOk

/-- A race takes a frame now: no gap marker waits before it, its ring has room, and a check job finds a slot in its engine's
internal queue (R97, R138, R352). -/
def frameGoes (s : State) (r : Race) : Bool :=
  r.markers.isEmpty && !ringFull r && !(r.checks && decide (8 ≤ (engineOf s r.engine).intQ.length))

/-- A frame that no hold keeps any more is released into a race's ring, with the turn and sail its descriptor names: by way of a
check job where the race has TCHECK (R352), at once where not. The ring and the queue have room. -/
def releaseFrame (rid turn sail : Nat) (first : Bool) (v : Sail) (f : HeldFrame) (s : State) : State :=
  match raceOf s rid with
  | none => s
  | some r =>
    let j : FrameJob := { race := some rid, turn, sail, first, setAt := v.setAt, vAt := v.vAt, time := s.core.time, frame := f }
    if r.checks then
      pushJob r.engine true
        { id := none, frame := some j, held := { asid := 0, va := 0, len := 0, segs := [] }, len := f.data.length, num := 0 }
        (modRace rid (fun r => { r with checking := r.checking + 1 }) s)
    else landFrameOut rid j 0 s

/-- The job of a frame ends: the frame goes into the ring with its CHECK, and after it the gap markers that waited (R352). -/
def endFrameJob (f : FrameJob) (s : State) : State :=
  match f.race with
  | none => s
  | some rid =>
    let s := landFrameOut rid f (crc32c f.frame.data) (modRace rid (fun r => { r with checking := r.checking - 1 }) s)
    match raceOf s rid with
    | none => s
    | some r => flushMarkers rid (r.markers.length + 1) s

/-- A turn has released its first frame (R139). -/
def noteFirst (t : Nat) (s : State) : State := modTurn t (fun x => { x with first := true }) s

end Sys2Proof.Machine
end

