-- ==== Sys2Proof/Machine/ResetOps.lean ====
section
/-! DEFINITION. Causes of a reset, and how a control-plane reset begins (01 R35 to R44). -/

namespace Sys2Proof.Machine

/-- A cause put into the 16-entry record (R44). -/
def noteCause (code : Nat) (s : State) : State :=
  s.modCore fun c => { c with causes := pushLast 16 c.causes { code, time := stamp s, ticks := stampTicks s } }

/-- The time-holdover flag set (R43). -/
def setHoldover (s : State) : State :=
  if s.core.holdover then s
  else
    (s.modCore fun c => { c with holdover := true }).modDom fun d =>
      { d with holdAt := some s.core.t, holdLong := false, synced := false }

/-- A control-plane reset begins (R35, R37, R39): the Wheelhouse stops, MW_TO_CTL and the translation caches clear.
What waited in the tick is lost; a reset already running takes no second one. -/
def startCtlReset (code : Nat) (s : State) : State :=
  if s.core.ctlReset then s
  else
    let s := noteCause code (flushKept (· ≠ 257) s)
    let s := s.modCore fun c => { c with ctlReset := true }
    let s := s.modMail fun m => { m with mwToCtl := {} }
    resetInst 257 (s.modMem fun m => { m with leafCache := [], walkCache := [] })

/-- The Wheelhouse schedules: it is clocked and not in reset (R39, R387). -/
def wheelOn (s : State) : Bool := s.pwr.awake && !s.core.ctlReset

end Sys2Proof.Machine
end

