-- ==== Sys2Proof/Machine/CogOps.lean ====
section
/-! DEFINITION. Cogs: conditions, trips and actions (03 R109 to R117), hopper fills (06 R208, R209). -/

namespace Sys2Proof.Machine

/-- TYPE. -/
def Cog.type (c : Cog) : Nat := bits c.cfg 6 4
/-- MODE. -/
def Cog.mode (c : Cog) : Nat := bits c.cfg 9 8
/-- INVERT. -/
def Cog.invert (c : Cog) : Bool := bit c.cfg 10
/-- BASE. -/
def Cog.base (c : Cog) : Nat := bits c.cfg 13 12
/-- ACTION. -/
def Cog.action (c : Cog) : Nat := bits c.cfg 19 16
/-- Action argument dword n, 7 to 13. -/
def Cog.arg (c : Cog) (n : Nat) : Nat := c.args.getD (n - 7) 0

/-- Whether a cog's condition holds (R109). -/
def Cog.cond (c : Cog) (r : Race) (now : Nat) : Bool :=
  match c.type with
  | 0 => decide (c.thr ≤ r.h)
  | 1 => decide (r.tstate = .live) && decide (slackOf r now < c.thr)
  | 2 => decide (c.thr ≤ playPos r now)
  | 3 => if c.invert then r.voiced && decide (c.vref < r.v) else !r.voiced && decide (c.thr ≤ quietOf r)
  | _ => decide (c.thr ≤ now)

/-- A time-driven condition (R115): PLAYOUT_AT, DOMAIN_TIME_AT, and TAIL_SLACK_BELOW once a base exists. -/
def Cog.timed (c : Cog) (r : Race) : Bool :=
  decide (c.type = 2) || decide (c.type = 4) || (decide (c.type = 1) && r.real.isSome)

/-- due(q) of R115: the first instant at which the predicted position reaches q. -/
def dueAt (r : Race) (q : Nat) : Option Nat :=
  (baseOf r).map fun b => b.2.1 + ceilDiv ((q - b.1) * 1000000000) (rateOf r.trate)

/-- The instant at which a cog's condition became true: its due time when that has passed, else now (R117). -/
def Cog.trueAt (c : Cog) (r : Race) (now : Nat) : Nat :=
  match c.type with
  | 4 => min now c.thr
  | 2 => match dueAt r c.thr with | some d => min now d | none => now
  | 1 => match dueAt r (r.w + 1 - c.thr) with | some d => min now d | none => now
  | _ => now

/-- The stored time of a DOMAIN_TIME_AT threshold that a position defines (R109, R101). -/
def Cog.retime (r : Race) (c : Cog) : Cog :=
  match c.type, c.base with
  | 4, 1 => { c with thr := timeOf r.anchor (rateOf r.hrate) c.pos }
  | 4, 2 => { c with thr := timeOf r.anchor (rateOf r.trate) c.pos }
  | _, _ => c

/-- What a trip leaves in its cog (R110, R112). -/
def Cog.trip (rec_ : TripRec) (r : Race) (c : Cog) : Cog :=
  let c := { c with tripped := true, trips := sat 0xFFFFFFFF (c.trips + 1), rec_ }
  match c.mode with
  | 0 => { c with armed := false }
  | 1 =>
    if c.type = 4 ∧ c.base ≠ 0 then Cog.retime r { c with pos := c.pos + c.step }
    else { c with thr := c.thr + c.step }
  | _ => { c with lit := true }

/-- One evaluation of a cog against its race: the cog after it, and whether it trips (R110). -/
def Cog.eval (now : Nat) (r : Race) (c : Cog) : Cog × Bool :=
  if c.armed = false then (c, false)
  else if c.lit then (if c.cond r now then c else { c with lit := false, vref := r.v }, false)
  else if c.cond r now then (c.trip { time := now, h := r.h, v := r.v, w := r.w, p := playPos r now } r, true)
  else (c, false)

/-! ### Hopper fills (R209) -/

/-- The HOPPER_QP of a function for a granary (R197). -/
def hopperQp (s : State) (fn granary : Nat) : Option Nat :=
  let v := feature s 0x43 (granary + fn * 2 ^ 16) 0xFFFFFFFF
  if v = 0xFFFFFFFF then none else some v

/-- A QP takes the reads of a fill: it exists and neither waits for its connection nor is in ERROR (R209, R284). -/
def hopperReady (s : State) (q : Nat) : Bool := (qpOf s q).any fun p => decide (p.state = .rts ∨ p.state = .drain)

/-- Reads of a fill posted while fewer than 16 are outstanding, in ascending order, the last one shorter. -/
def postReads (key : Nat) : Nat → State → State
  | 0, s => s
  | n + 1, s =>
    match s.mem.fills.get key with
    | none => s
    | some f =>
      if f.failed.isSome ∨ f.len ≤ f.posted ∨ 16 ≤ f.out.length then s
      else if hopperReady s f.qpn = false then
        let f' := { f with failed := some .aborted }
        if f.out.isEmpty then endFill key f' s else s.modMem fun m => { m with fills := m.fills.set key f' }
      else
        let len := min (2 ^ 20) (f.len - f.posted)
        let f' := { f with posted := f.posted + len, out := f.out ++ [(f.posted, len)] }
        postReads key n
          (emit (.binOp (some f.qpn) f.handle (f.offset + f.posted) len none) (s.modMem fun m => { m with fills := m.fills.set key f' }))

/-- A fill started on a trip, or the status of the refusal (R209). -/
def startFill (rid slot : Nat) (fn : Nat) (c : Cog) (s : State) : Except Status State :=
  let key := rid * 16 + slot
  let handle := c.arg 7 + c.arg 8 * 2 ^ 32
  if s.mem.fills.has key then .error .busyRetry
  else
    match c.hopper, hopperQp s fn (handleGranary handle) with
    | some h, some q =>
      let f : Fill := { fn, qpn := q, handle, offset := c.arg 9, len := c.arg 10, hopper := h }
      .ok (postReads key 16 (s.modMem fun m => { m with fills := m.fills.set key f }))
    | _, _ => .error .invalidField

/-! ### Actions (R111) -/

/-- The prewake vote placed on the floors of a mask that are not fenced with FLOOR (R395). -/
def prewake (mask : Nat) (s : State) : State :=
  let until_ := s.core.t + ms (feature s 0x91 0 200)
  forEach ((maskBits 16 mask).filter fun f => !bit s.stn.floorFence f)
    (fun f s => settle f (modPdom f (fun p => { p with prewake := some until_ }) s)) s

/-- A turn of a function, for an action of one of its races. -/
def ownTurn (s : State) (fn t : Nat) : Bool := decide ((turnOf s t).fn = fn)

/-- An action carried out for a trip, or the status of the refusal (R111, R112, R125, R127, R131, R132). -/
def act (rid slot : Nat) (r : Race) (c : Cog) (at_ : Nat) (s : State) : Except Status State :=
  let turn := bits (c.arg 7) 5 0
  let sail := bits (c.arg 7) 9 8
  match c.action with
  | 0 => .ok (raise 0x3006 r.fn rid 0 (if c.type = 1 ∨ c.type = 2 then r.w else r.h) slot (c.arg 7) s)
  | 1 => dispatch r.fn turn (bits (c.arg 8) 15 0) (bits (c.arg 8) 23 16) (bits (c.arg 9) 7 0) (at_, true, rid) s
  | 2 => .ok (prewake (bits (c.arg 7) 15 0) s)
  | 3 => startFill rid slot r.fn c s
  | 4 =>
    if ownTurn s r.fn turn = false then .error .notPermitted
    else
      match raiseSail { turn, slot := sail, chain := bits (c.arg 8) 15 0, stage := bits (c.arg 8) 23 16,
                        gang := bits (c.arg 9) 7 0, hyp := c.rec_.v, cmd := none, cog := some (at_, false, rid) } s with
      | .error e => .error e.1
      | .ok s => .ok s
  | 5 =>
    if ownTurn s r.fn turn = false then .error .notPermitted
    else
      match (sailOf s turn sail).state with
      | .raised => .ok (setSail turn sail s)
      | .set => .ok s
      | .free => .error .invalidField
      | _ => .error .furled
  | _ =>
    if ownTurn s r.fn turn = false then .error .notPermitted else .ok (furlSail turn sail 3 .furled s)

/-- A tripped cog's action, and COG_ACTION_FAILED when it is refused (R112). -/
def issue (key at_ : Nat) (s : State) : State :=
  match raceOf s (key / 16), s.whl.cogs.get key with
  | some r, some c =>
    match act (key / 16) (key % 16) r c at_ s with
    | .ok s => s
    | .error st => raise 0x3007 r.fn (key / 16) 0 r.h (key % 16 + st.code * 2 ^ 8) 0 s
  | _, _ => s

/-- A cog evaluated against its race as it stands; the instant its condition became true when it trips. -/
def evalCog (key : Nat) (s : State) : Option Nat × State :=
  match raceOf s (key / 16), s.whl.cogs.get key with
  | some r, some c =>
    let e := c.eval s.core.time r
    let at_ := s.core.t - (s.core.time - c.trueAt r s.core.time)
    (if e.2 then some at_ else none, s.modWhl fun w => { w with cogs := w.cogs.set key e.1 })
  | _, _ => (none, s)

/-- The rank of an action in R116. -/
def actionRank : Nat → Nat
  | 6 => 0
  | 5 => 1
  | 4 => 2
  | 3 => 3
  | 2 => 4
  | 1 => 5
  | _ => 6

/-- Lexicographic order. -/
def lexLt : List Int → List Int → Bool
  | [], _ => false
  | _ :: _, [] => false
  | a :: r, b :: t => decide (a < b) || (decide (a = b) && lexLt r t)

/-- A number put into a list in the order of its key, behind equal keys. -/
def insertByKey (key : Nat → List Int) (n : Nat) : List Nat → List Nat
  | [] => [n]
  | m :: r => if lexLt (key n) (key m) then n :: m :: r else m :: insertByKey key n r

/-- Numbers in the order of their keys. -/
def sortByKey (key : Nat → List Int) (l : List Nat) : List Nat := l.foldl (fun a n => insertByKey key n a) []

/-- The order of R116 on cogs: action, slack of a LIVE race with the others last, race, slot. -/
def cogKey (s : State) (key : Nat) : List Int :=
  let rank := match s.whl.cogs.get key with | some c => actionRank c.action | none => 7
  let sl : Int × Int := match raceOf s (key / 16) with
    | some r => if r.tstate = .live then (0, slackOf r s.core.time) else (1, 0)
    | none => (1, 0)
  [(rank : Int), sl.1, sl.2, (key / 16 : Nat), (key % 16 : Nat)]

/-- The armed cogs a tick evaluates: those of the races that changed, those carried, and those whose due time has come
(R115, R117). -/
def cogsDue (s : State) : List Nat :=
  (s.whl.cogs.filter fun e =>
    e.2.armed && (s.whl.dirty.contains (e.1 / 16) || s.whl.late.contains e.1 ||
      (match raceOf s (e.1 / 16) with | some r => e.2.timed r && !e.2.lit && e.2.cond r s.core.time | none => false))).map (·.1)

/-- Phases 2 and 3 of a tick (R115 to R117): at most 512 cogs are evaluated, the rest carried and counted; the actions of
those that trip are issued in the order of R116; every changed race is judged for DRY. -/
def runCogs (s : State) : State :=
  let due := sortByKey (cogKey s) (cogsDue s)
  let now := due.take 512
  let rest := due.drop 512
  let changed := s.whl.dirty
  let s := s.modWhl fun w => { w with dirty := [], late := rest, lateEvals := sat 0xFFFF (w.lateEvals + rest.length) }
  let ev := now.foldl (fun (a : List (Nat × Nat) × State) k =>
    match evalCog k a.2 with
    | (some t, s) => (a.1 ++ [(k, t)], s)
    | (none, s) => (a.1, s)) ([], s)
  let s := forEach changed dryCheck ev.2
  let s := ev.1.foldl (fun s e => issue e.1 e.2 s) s
  -- a STEP cog whose raised threshold has already passed trips again at the next tick
  forEach (ev.1.map fun e => e.1 / 16) (fun r s => if s.whl.races.has r then touch r s else s) s

end Sys2Proof.Machine
end

