-- ==== Sys2Proof/Machine/MapOps.lean ====
section
/-! DEFINITION. Holders of translations, invalidation, and moving data for COPY, BAR4 and hopper fills (06 R192 to R209). -/

namespace Sys2Proof.Machine

/-! ### Holders (R201, R202, R269) -/

/-- The pages of its space a held range lies on, as a range of VA. -/
def heldSpan (s : State) (h : Held) : Nat × Nat :=
  match s.mem.spaces.get h.asid with
  | none => (h.va, h.va + h.len)
  | some sp =>
    let lo := match leafOf sp.extents h.va with
      | some e => e.va + (h.va - e.va) / e.page.bytes * e.page.bytes
      | none => h.va
    let hi := match leafOf sp.extents (h.va + h.len - 1) with
      | some e => e.va + ((h.va + h.len - 1 - e.va) / e.page.bytes + 1) * e.page.bytes
      | none => h.va + h.len
    (lo, hi)

/-- A held range lies on a page of a range of an address space. -/
def heldMeets (s : State) (asid lo hi : Nat) (h : Held) : Bool :=
  decide (h.asid = asid) && decide (0 < h.len) && decide ((heldSpan s h).1 < hi) && decide (lo < (heldSpan s h).2)

/-- Every held translation with the RESULT2 of a refusal for it (R202, R269): rings, images, chains, cog hoppers. -/
def holders (s : State) : List (Nat × Held) :=
  (s.whl.races.flatMap fun r => [(r.1, r.2.inRing), (r.1, r.2.outRing)]) ++
    (s.rdm.qps.flatMap fun q => (q.1, q.2.sring) :: (match q.2.rring with | some h => [(q.1, h)] | none => [])) ++
    (s.rdm.cqs.map fun q => (q.1, q.2.ring)) ++ (s.rdm.srqs.map fun q => (q.1, q.2.ring)) ++
    (s.stn.images.flatMap fun i => i.2.static.map fun h => (i.1 + 1 * 2 ^ 28, h.2)) ++
    (s.stn.chains.flatMap fun c => c.2.held.map fun h => (c.1 + 2 * 2 ^ 28, h.2)) ++
    s.whl.cogs.flatMap fun c => match c.2.hopper with | some h => [(c.1 / 16 + c.1 % 16 * 2 ^ 16 + 3 * 2 ^ 28, h)] | none => []

/-- The first holder of a page of a range. -/
def holderOf (s : State) (asid lo hi : Nat) : Option Nat := ((holders s).find? fun e => heldMeets s asid lo hi e.2).map (·.1)

/-- NOT_PERMITTED, reason 10, when a page of a range is held. -/
def heldCheck (s : State) (asid lo hi : Nat) (c : Cmd) : Bool × (State → State) :=
  deny (holderOf s asid lo hi).isSome ((holderOf s asid lo hi).getD 0) c

/-! ### Invalidation (R200) -/

/-- Cached translations of a range dropped: every page that the range touches, of the size its leaf had (R198, R200). -/
def dropCached (leaves : List Extent) (asid lo hi : Nat) (s : State) : State :=
  let size (va : Nat) : Nat := match leafOf leaves va with | some e => e.page.bytes | none => PageSize.bytes .p64K
  s.modMem fun m =>
    { m with
      leafCache := m.leafCache.filter fun p => !(decide (p.1 = asid) && decide (lo < p.2 + size p.2) && decide (p.2 < hi))
      walkCache := m.walkCache.filter fun p =>
        !(decide (p.1 = asid) && decide (p.2.2 < hi) && decide (lo < p.2.2 + pointerSpan p.2.1)) }

/-- A COPY descriptor is the oldest of its queue: it has started (R197, R204). -/
def copyStarted (s : State) (d : CopyDesc) : Bool :=
  match s.mem.copies.find? fun x => decide (x.sq = d.sq) && decide (x.id.origin = d.id.origin) with
  | some x => decide (x.id = d.id)
  | none => false

/-- A COPY descriptor uses a translation of a range. -/
def CopyDesc.covers (d : CopyDesc) (asid lo hi : Nat) : Bool :=
  d.dst.covers asid lo hi || (match d.src with | some h => h.covers asid lo hi | none => false)

/-- The translated range of a descriptor that meets a range, for the fault of a cancelled one. -/
def CopyDesc.met (d : CopyDesc) (asid lo hi : Nat) : Held :=
  match d.src with
  | some h => if h.covers asid lo hi then h else d.dst
  | none => d.dst

/-- XLATE_FAULT, INVALIDATED, for a descriptor cancelled under CANCEL; the level is its leaf's (R200, R205). -/
def cancelled (leaves : List Extent) (lo : Nat) (id : CmdId) (h : Held) (s : State) : State :=
  let va := max h.va lo
  let level := match leafOf leaves va with | some e => e.page.level | none => missLevel leaves va
  match findCmd s id with
  | some c => xlateFault c { va, level, cause := 4 } 0 s
  | none => s

/-- The receive entry of an SRQ or a QP by its number. -/
def recvNumbered (s : State) (w : Bool × Nat × Nat) : Option RecvWr :=
  let l := if w.1 then (s.rdm.srqs.get w.2.1).map (·.recvs) else (qpOf s w.2.1).map (·.recvs)
  l.bind fun l => l.find? fun x => decide (x.num = w.2.2)

/-- Receive buffers of a range: a buffer is translated when its entry is fetched and has not started (R200, R272). -/
def recvsIn (s : State) (asid lo hi : Nat) : List (Bool × Nat × Nat) :=
  (s.rdm.srqs.flatMap fun q => (q.2.recvs.filter fun w => w.held.covers asid lo hi).map fun w => (true, q.1, w.num)) ++
    s.rdm.qps.flatMap fun q => (q.2.recvs.filter fun w => w.held.covers asid lo hi).map fun w => (false, q.1, w.num)

/-- A receive entry cancelled under CANCEL: XLATE_FAULT, INVALIDATED, which ends its QP (R200, R273). -/
def cancelRecv (leaves : List Extent) (lo : Nat) (w : Bool × Nat × Nat) (s : State) : State :=
  match recvNumbered s w with
  | none => s
  | some x =>
    let va := max x.held.va lo
    let level := match leafOf leaves va with | some e => e.page.level | none => missLevel leaves va
    let f : XFault := { va, level, cause := 4 }
    recvFail w.1 w.2.1 x.wrId .xlateFault f.result2 (noteFault f (dropRecv w.1 w.2.1 w.2.2 s))

/-- What waits in a drain is over. -/
def drainOver (s : State) (d : Drain) : Bool :=
  d.copies.isEmpty &&
    (d.wrs.all fun w => match s.rdm.qps.get w.1 with | some q => !q.sent.any fun x => decide (x.num = w.2) | none => true) &&
    (d.jobs.all fun j =>
      let e := engineOf s j.1
      !((e.run.toList ++ e.hostQ).any fun x => decide (x.num = j.2))) &&
    (d.recvs.all fun w => (recvNumbered s w).isNone) && d.fills.all fun k => !s.mem.fills.has k

/-- A drain ended: table space and a destroyed ASID go, and its command completes (R199, R200). -/
def endDrain (d : Drain) (s : State) : State :=
  let s := s.modMem fun m =>
    { m with
      drains := m.drains.filter fun x => x.id ≠ d.id
      spaces := if d.destroy then m.spaces.erase d.asid else m.spaces }
  completeId d.id .success d.waited d.cancelled s

/-- A range invalidated for a command (R200): cached translations go, queued descriptors are cancelled or waited for, and
the command ends at once when nothing is waited for. The leaves are those before an UNMAP. -/
def invalidate (c : Cmd) (leaves : List Extent) (asid lo hi : Nat) (cancel destroy : Bool) (s : State) : State :=
  let s := dropCached leaves asid lo hi s
  let tables := tableBytes leaves - tableBytes (s.mem.spaces.getD asid { fn := 0 }).extents
  let copies := s.mem.copies.filter fun d => d.covers asid lo hi
  let copyGone := if cancel then copies.filter fun d => !copyStarted s d else []
  let copyWait := copies.filter fun d => !(copyGone.any fun x => decide (x.id = d.id))
  let engines := s.chk.engines
  let queued := engines.flatMap fun e => (e.2.hostQ.filter fun j => j.held.covers asid lo hi).map fun j => (e.1, j)
  let running := engines.flatMap fun e =>
    (e.2.run.toList.filter fun j => j.image.isNone && j.frame.isNone && j.held.covers asid lo hi).map fun j => (e.1, j)
  let jobGone := if cancel then queued else []
  let jobWait := running ++ if cancel then [] else queued
  let wrs := s.rdm.qps.flatMap fun q => (q.2.sent.filter fun w => w.held.covers asid lo hi).map fun w => (q.1, w.num)
  let fills := (s.mem.fills.filter fun f => f.2.hopper.covers asid lo hi).map (·.1)
  let recvs := recvsIn s asid lo hi
  let recvWait := if cancel then [] else recvs
  let s := copyGone.foldl (fun s d => cancelled leaves lo d.id (d.met asid lo hi) s) s
  let s := s.modMem fun m => { m with copies := m.copies.filter fun d => !(copyGone.any fun x => decide (x.id = d.id)) }
  let s := jobGone.foldl (fun s j =>
    let s := modEngine j.1 (fun e => { e with hostQ := e.hostQ.filter fun x => x.num ≠ j.2.num }) s
    match j.2.id with
    | some id => cancelled leaves lo id j.2.held s
    | none => s) s
  let s := if cancel then recvs.foldl (fun s w => cancelRecv leaves lo w s) s else s
  let d : Drain :=
    { id := c.id, asid, copies := copyWait.map (·.id), wrs, jobs := jobWait.map fun j => (j.1, j.2.num), fills, recvs := recvWait,
      waited := copyWait.length + wrs.length + jobWait.length + fills.length + recvWait.length,
      cancelled := copyGone.length + jobGone.length + (recvs.length - recvWait.length), tables, destroy }
  if drainOver s d then endDrain d s else accept c (s.modMem fun m => { m with drains := m.drains ++ [d] })

/-! ### Moving data -/

/-- The first line of some runs that lies on a pair that serves no access, by its offset (R192). -/
def firstDown (s : State) : Nat → List Seg → Option Nat
  | _, [] => none
  | off, g :: r => if segDown s g then some (off / 64) else firstDown s (off + g.len) r

/-! ### BAR4 (R206) -/

/-- A function's BAR4 window: its ASID and base VA, kept as base + ASID + 1 (R197). -/
def bar4Window (s : State) (fn : Nat) : Option (Nat × Nat) :=
  match feature s 0x44 fn 0 with
  | 0 => none
  | v => some ((v - 1) % 1024, (v - 1) / 1024 * 1024)

/-- A BAR4 access translated on arrival; with no window it meets an unmapped page (R206). -/
def bar4Range (s : State) (fn off n : Nat) (write : Bool) : Except XFault Held :=
  match bar4Window s fn with
  | none => .error { va := off, level := 4, cause := 1 }
  | some (asid, base) =>
    if ownsAsid s fn asid then translate s { write } asid (base + off) n else .error { va := base + off, level := 4, cause := 6 }

/-- BAR4_FAULT (R206, R211); it counts as a translation fault. -/
def bar4Fault (fn off : Nat) (f : XFault) (s : State) : State := raise 0x6006 fn 0 0 0 (fn + off / 65536 * 16) 0 (noteFault f s)

/-! ### Page table entries (R195, R196) -/

/-- The entry of a leaf that maps a VA. -/
def leafEntry (e : Extent) (va : Nat) : Nat :=
  3 + 4 * flag e.w + 8 * e.target.code + (e.addr + (va - e.va) / e.page.bytes * e.page.bytes)

/-- A table pointer of a level: the table below it (R195). -/
def tableEntry (s : State) (asid va level : Nat) : Nat := 1 + tableAddr s asid (level - 1) va

/-- The entries a probe reads from L4 down to a last level: table pointers, then the last entry; 0 for levels not reached. -/
def probeEntries (s : State) (asid va last final : Nat) : List Nat :=
  [4, 3, 2, 1, 0].map fun l => if l < last then 0 else if l = last then final else tableEntry s asid va l

end Sys2Proof.Machine
end

