-- ==== Sys2Proof/Machine/MemberOps.lean ====
section
/-! DEFINITION. Membership, the administrator's signature, liveness, time suspicion (13 R356 to R376). -/

namespace Sys2Proof.Machine

/-! ### SHA-384 and P-384 (R51, R357, R369) -/

/-- The 48 bytes of a SHA-384 digest. -/
def sha384Bytes (l : List Byte) : List Byte := beBytes 48 (Config.sha384 l)

/-- The prime of P-384 (FIPS 186; log entry 8). -/
def p384P : Nat := 2 ^ 384 - 2 ^ 128 - 2 ^ 96 + 2 ^ 32 - 1

/-- The coefficient b of P-384 (FIPS 186; log entry 8). -/
def p384B : Nat := 0xb3312fa7e23ee7e4988e056be3f82d19181d9c6efe8141120314088f5013875ac656398d8a2ed19d2a85c8edd3ec2aef

/-- A point lies on P-384: y² = x³ − 3x + b. -/
def onP384 (x y : Nat) : Bool :=
  decide (x < p384P) && decide (y < p384P) && decide ((y * y) % p384P = (x * x * x + (p384P - 3) * x + p384B) % p384P)

/-- A signature by a public key over a message (R51). -/
def verifies (key : Nat × Nat) (msg : List Byte) (r s : Nat) : Bool :=
  Config.ecdsaVerify (key.1 * 2 ^ 384 + key.2) (Config.sha384 msg) r s

/-- The 73 bytes an envelope signs (R51). -/
def envelopeMsg (p : List Word) (seq member : Nat) : List Byte := pktBytes p ++ leBytes 8 seq ++ leBytes 1 member

/-- An envelope verifies against a key. -/
def envelopeOk (s : State) (key : Nat × Nat) (c : Cmd) : Bool :=
  match c.env with
  | some e => verifies key (envelopeMsg c.pkt e.seq (ownMember s)) e.r e.s
  | none => false

/-- An envelope's sequence number is above the stored one (R359). -/
def envelopeNew (s : State) (c : Cmd) : Bool := match c.env with | some e => decide (s.dom.seq < e.seq) | none => false

/-! ### The member table (R357) -/

/-- A member table. -/
structure MTable where
  /-- DOMAIN_ID. -/
  id : Nat
  /-- Admin key. -/
  key : Nat × Nat
  /-- Members. -/
  members : Tbl Member
  deriving DecidableEq, Repr

/-- The entries of a table of n members. -/
def tableEntries (l : List Byte) (n : Nat) : List (Nat × Member) :=
  (List.range n).map fun i =>
    let o := 112 + 32 * i
    (num l o 1, { role := num l (o + 1) 1, addr := ofBe (slice l (o + 16) 16) })

/-- A table that meets R357 and R356. -/
def parseTable (l : List Byte) : Option MTable :=
  let n := num l 4 2
  let es := tableEntries l n
  let key := (ofBe (slice l 16 48), ofBe (slice l 64 48))
  let reserved := decide (num l 6 10 = 0) && (List.range n).all fun i => decide (num l (112 + 32 * i + 2) 14 = 0)
  let roles := es.all fun e => decide (e.2.role = 1 ∨ e.2.role = 2)
  let granaries := (es.filter fun e => e.2.role = 2).length
  if n = 0 ∨ 256 < n ∨ l.length ≠ 112 + 32 * n ∨ reserved = false ∨ roles = false ∨ Tbl.wf es = false ∨ 32 < granaries ∨
      onP384 key.1 key.2 = false ∨ num l 0 4 = 0 ∨ num l 0 4 = 0xFFFFFFFF then none
  else some { id := num l 0 4, key, members := es }

/-- The 96-byte record of the config digest (R369). -/
def digestRecord (s : State) (id tableDigest : Nat) (key : Nat × Nat) : List Byte :=
  leBytes 4 id ++ beBytes 32 tableDigest ++ sha384Bytes (beBytes 48 key.1 ++ beBytes 48 key.2) ++ leBytes 1 1 ++ leBytes 1 fwMajor ++
    leBytes 1 (feature s 0x81 0 0) ++ leBytes 1 0 ++ leBytes 2 (feature s 0x82 0 53456) ++ leBytes 6 0

/-- The config digest (R369). -/
def configDigest (s : State) (id tableDigest : Nat) (key : Nat × Nat) : Nat :=
  ofLe ((sha384Bytes (digestRecord s id tableDigest key)).take 8)

/-- The digest computed again after a feature it covers has changed (R382). -/
def redigest (s : State) : State :=
  match s.dom.key with
  | some k => if joined s then s.modDom fun d => { d with digest := configDigest s d.id d.tableDigest k } else s
  | none => s

/-! ### Members and the home claim (R316, R366) -/

/-- Since when this granary has been UP with every other granary of its table. -/
def upCheck (s : State) : State :=
  let all := (otherMembers s).all fun m =>
    decide ((s.dom.members.getD m ⟨1, 0⟩).role ≠ 2) || decide ((peer s m).state = .up)
  s.modGrn fun g =>
    { g with upSince := if isGranary s && joined s && all then some (g.upSince.getD s.core.t) else none }

/-- The role the table lists for a member. -/
def tableRole (s : State) (m : Nat) : Nat := (s.dom.members.getD m ⟨0, 0⟩).role

/-- A table made the membership record, its key the admin key (R358). -/
def applyTable (t : MTable) (bytes : List Byte) (s : State) : State :=
  let td := Config.sha384 bytes / 2 ^ 128
  let s := s.modDom fun d =>
    { d with join := .member, id := t.id, members := t.members, tableDigest := td, key := some t.key,
             peers := d.peers.filter fun p => t.members.has p.1, digest := configDigest s t.id td t.key }
  let s := raisePf 0xC007 (ownMember s) (s.dom.digest % 2 ^ 32) s
  upCheck (quietAgain s)

/-- The stored join applied at a cold boot (R359). -/
def applyStored (s : State) : State :=
  match s.dom.stored with
  | some x =>
    if s.core.member = some x.member ∧ s.core.role = x.role then
      match parseTable x.table with
      | some t => applyTable t x.table s
      | none => s
    else s
  | none => s

/-- A member declared LOST (R366, R367): arg 1 for an incarnation change. -/
def lost (m arg : Nat) (s : State) : State :=
  let s := modPeer m (fun p => { p with state := .lost, witness := none }) s
  let s := raisePf 0xC003 m arg s
  let s := if tableRole s m = 2 then granaryLost m s else s
  let s := if isGranary s && decide (mirrorPartner s = some m) then breakMirrors 2 s else s
  upCheck s

/-- A member that comes UP: a granary that serves another's home announces to it (R316, R366). -/
def comesUp (m : Nat) (told : Bool) (s : State) : State :=
  let s := modPeer m (fun p => { p with state := .up }) s
  let s := if told then raisePf 0xC001 m (peer s m).inc s else s
  let s := if isGranary s && !s.grn.homes.isEmpty then
      sendMsg m (.announce 2 ((if s.grn.ownHome then [ownMember s] else []) ++ s.grn.homes)) s
    else s
  upCheck s

/-- A member quarantined with a reason (R370, R371). -/
def quarantine (m reason : Nat) (s : State) : State :=
  let s := modPeer m (fun p => { p with state := .quarantined, reason, agree := 0 }) s
  upCheck (eventAll 0x04 m reason (memberQpsError m s))

/-! ### Time suspicion (R374, R375) -/

/-- R374 judged again. -/
def judgeTime (s : State) : State :=
  let d := s.dom
  let now := !d.everSynced || decide (50000 < d.offset.natAbs) || d.noMaster || d.holdLong
  if now = d.timeSuspect then s
  else raisePf 0xC005 (ownMember s) (flag now) (s.modDom fun d => { d with timeSuspect := now })

/-- The offset of a heartbeat's sender (R375), rounded toward zero. -/
def hbOffset (b : HbBody) (t4 : Nat) : Int := Int.tdiv (((b.t2 : Int) - b.t1) - ((t4 : Int) - b.t3)) 2

/-- The count and mark of R375 after a heartbeat. -/
def judgeOffset (m : Nat) (b : HbBody) (t4 : Nat) (s : State) : State :=
  let p := peer s m
  let ofs := if b.t1 = 0 then p.offset else hbOffset b t4
  let far := if b.t1 = 0 then p.far else if 50000 < ofs.natAbs then p.far + 1 else 0
  let near := if b.timeSuspect then 0 else if b.t1 = 0 then p.near else if ofs.natAbs ≤ 25000 then p.near + 1 else 0
  let mark := if b.timeSuspect || decide (3 ≤ far) then true else if 3 ≤ near then false else p.timeSuspect
  let s := modPeer m (fun p => { p with offset := ofs, far := min far 3, near := min near 3, timeSuspect := mark }) s
  if mark = p.timeSuspect then s else raisePf 0xC004 m (flag mark + ofSigned 32 ofs * 2 ^ 32) s

/-! ### Disagreements of a heartbeat (R370) -/

/-- The management address a message came from. -/
def srcAddr : Source → Option Nat
  | .flume _ => none
  | .udp _ a _ => some a

/-- A second source of a sender within 50 ms (R370, R366): a lower incarnation, or another management address. -/
def secondSource (s : State) (p : Peer) (h : MsgHead) : Bool :=
  (match p.hbAt with | some t => decide (s.core.t < t + ms 50) | none => false) &&
    (decide (h.inc < p.inc) ||
      match p.src.bind srcAddr, srcAddr h.src with
      | some a, some b => decide (a ≠ b)
      | _, _ => false)

/-- The lowest reason a heartbeat shows, 0 for none. -/
def disagreement (s : State) (h : MsgHead) (b : HbBody) : Nat :=
  let own := s.mwr.fwVer
  let major := bits own 47 32
  let minor := bits own 31 16
  if b.digest ≠ s.dom.digest then 1
  else if b.major ≠ major ∨ minor + 1 < b.minor ∨ b.minor + 1 < minor then 2
  else if b.role ≠ tableRole s h.sender then 3
  else if secondSource s (peer s h.sender) h then 4
  else 0

/-- DOM_STATUS (R385). -/
def domStatus (s : State) : Nat :=
  let join := match s.dom.join with | .none => 0 | .joining => 1 | .member => 2 | .leaving => 3
  let count (st : PeerState) : Nat := min 255 ((otherMembers s).filter fun m => (peer s m).state = st).length
  join + 4 * flag s.dom.timeSuspect + 8 * flag s.dom.synced + 16 * flag s.core.holdover + 32 * flag s.dom.key.isSome +
    64 * flag s.dom.dupAt.isSome + 128 * flag s.core.member.isSome + 2 ^ 8 * ownMember s + 2 ^ 16 * count .up +
    2 ^ 24 * count .quarantined

/-- The code of a member's state. -/
def PeerState.code : PeerState → Nat
  | .unknown => 0
  | .up => 1
  | .suspect => 2
  | .lost => 3
  | .quarantined => 4
  | .left => 5

/-- ms since a member's last heartbeat, saturating at 16 bits. -/
def msSinceHb (s : State) (p : Peer) : Nat := match p.hbAt with | some t => min 0xFFFF ((s.core.t - t) / 1000000) | none => 0xFFFF

/-- The flags of this device's heartbeats (R365, R370, R380). -/
def hbAsleep (s : State) : Bool :=
  match s.dom.sleep.state with
  | .entering | .asleep | .exiting => true
  | .agreed => decide (s.dom.sleep.commitAt ≤ s.core.t)
  | _ => false

end Sys2Proof.Machine
end

