-- ==== Sys2Proof/Machine/PortOps.lean ====
section
/-! DEFINITION. The fabric ports: links going down and up, and flits, sequence numbers and packets of Flume (08 R236 to R265,
09 R287, R288). -/

namespace Sys2Proof.Machine

/-- The mode code of R236. -/
def PortMode.code : PortMode → Nat
  | .disabled => 0
  | .ethernet => 1
  | .flume => 2

/-- The mode of a code. -/
def PortMode.ofCode (n : Nat) : PortMode := if n = 1 then .ethernet else if n = 2 then .flume else .disabled

/-- A port is in retry (R257). -/
def Port.retry (p : Port) : Bool := decide (p.state = .up) && p.flm.retryAt.isSome

/-- STATE of PRT_STAT. -/
def Port.stateCode (p : Port) : Nat :=
  match p.state with
  | .down => 0
  | .training => 1
  | .param => 2
  | .up => if p.retry then 4 else 3
  | .hold => 5
  | .failed => 6

/-- The Flume link of a port changed. -/
def modFlm (p : Nat) (f : Flm → Flm) (s : State) : State := modPort p (fun q => { q with flm := f q.flm }) s

/-- QPs bound to a port. -/
def boundQps (s : State) (p : Nat) : Nat := (s.rdm.qps.filter fun q => q.2.port = p).length

/-! ### Retry episodes (R257, R258) -/

/-- Timers of the QPs of a port that stood still since an instant resume where they stopped (R258). -/
def resumeTimers (p since : Nat) (s : State) : State :=
  let now := s.core.t
  s.modRdm fun r =>
    { r with
      qps := r.qps.mapVal fun _ q =>
        if q.port = p then
          { q with ackAt := q.ackAt.map fun a => a + (now - max a since), rnrAt := q.rnrAt.map fun a => a + (now - max q.rnrSet since) }
        else q }

/-- The duration of an episode taken, from its first NAK (R265, R266). -/
def endEpisode (p since : Nat) (s : State) : State :=
  let d := s.core.t - (port s p).flm.nakFirst.getD since
  sample 6 d (fun m => bit m.filtA p)
    (modFlm p (fun f => { f with retryAt := none, nakFirst := none, retryMax := max f.retryMax (min d 0xFFFFFFFF) }) s)

/-- A port's retry judged again: an episode begins, or ends with its timers resumed (R257, R258). -/
def judgeRetry (p : Nat) (s : State) : State :=
  let f := (port s p).flm
  let now := !f.m.isEmpty || !f.replayed.isEmpty
  match f.retryAt with
  | none => if now then modFlm p (fun f => { f with retryAt := some s.core.t }) s else s
  | some t => if now then s else endEpisode p t (resumeTimers p t s)

/-- The first NAK of an episode, sent or received, noted (R265). -/
def noteNak (p : Nat) (s : State) : State := modFlm p (fun f => { f with nakFirst := some (f.nakFirst.getD s.core.t) }) s

/-! ### Link down and up (R260 to R264) -/

/-- A Flume link with everything of the transfer in progress discarded; registers stay. -/
def Flm.clear (f : Flm) : Flm :=
  { alloc := f.alloc, allocNow := f.allocNow, peer := f.peer, peerRole := f.peerRole, peerVer := f.peerVer, loop := f.loop,
    bad := f.bad, replays := f.replays, retryMax := f.retryMax, heldMax := f.heldMax, err := f.err, badAt := f.badAt,
    degraded := f.degraded }

/-- A link goes down with a cause and, on a Flume port, the sequence number involved (R261): its requests complete with a
status. -/
def linkDown (p cause seq : Nat) (flight : Status) (s : State) : State :=
  let q := port s p
  if q.state ≠ .up then s
  else
    let s := match q.flm.retryAt with | some t => endEpisode p t s | none => s
    let s := modPort p (fun q =>
      { q with
        state := if q.mode = .flume then .hold else .training
        since := s.core.t
        downCause := cause
        downSeq := if q.mode = .flume then seq else 0
        downCount := sat 0xFFFF (q.downCount + 1)
        flm := q.flm.clear }) s
    let s := if q.mode = .flume ∧ cause ≤ 7 then eventAll 0x03 p cause s else s
    let s := eventAll 0x02 p cause s
    let s := raisePf 0x8002 p cause s
    portQpsError p flight s

/-- The homes this device serves, as its ANNOUNCE names them (R313, R361). -/
def homesServed (s : State) : List Nat := (if isGranary s && s.grn.ownHome then [ownMember s] else []) ++ s.grn.homes

/-- A granary whose reset has ended has its partner promote; it asks once a path is there (R313). -/
def askPromotion (s : State) : State :=
  match mirrorPartner s with
  | some m =>
    if isGranary s ∧ joined s then
      if paths s m = [] then s.modGrn fun g => { g with askPromote := true } else notice m 7 0 0 0 0 (s.modGrn fun g => { g with askPromote := false })
    else s
  | none => s

/-- A link comes UP: PORT_UP, and the device announces itself to the members it reaches there (R264). -/
def linkUp (p : Nat) (s : State) : State :=
  let s := modPort p (fun q => { q with state := .up, since := s.core.t }) s
  let s := raisePf 0x8001 p (port s p).mode.code (eventAll 0x01 p (port s p).mode.code s)
  if joined s then
    let s := sendAll ((otherMembers s).filter fun m => (paths s m).contains p) (.announce s.core.role.code (homesServed s)) s
    if s.grn.askPromote then askPromotion s else s
  else s

/-- A training attempt fails with a reason: HOLD, or FAILED with the third within 1 s (R262). -/
def failTraining (p reason : Nat) (s : State) : State :=
  let now := s.core.t
  let l := now :: ((port s p).failedAt.filter fun t => decide (now < t + sec 1)).take 2
  let s := modPort p (fun q => { q with failedAt := l, failReason := reason, since := now, flm := q.flm.clear,
                                        state := if 3 ≤ l.length then .failed else .hold }) s
  if 3 ≤ l.length then raisePf 0x8005 p reason s else s

/-- A mode or retrain request applied to a port (R237, R238): a link that is UP goes down, and training starts. -/
def applyMode (p : Nat) (m : PortMode) (retrain : Bool) (s : State) : State :=
  let q := port s p
  if q.mode = m ∧ retrain = false ∧ q.state ≠ .failed then s
  else
    let s := linkDown p 8 0 .linkDown s
    noteLevels (modPort p (fun q =>
      { q with mode := m, since := s.core.t, failedAt := [], flm := q.flm.clear,
               state := if m = .disabled ∨ s.pwr.up = false ∨ hasRole s = false then .down else .training })) s

/-! ### Lane chunks and control words (R246 to R248) -/

/-- All bytes of a chunk XORed together: the parity of its even and odd bits is that of this byte's (R246). -/
def xorAll (l : List Byte) : Nat := l.foldl (fun a b => a ^^^ b.toNat) 0

/-- The parity of the even-numbered bits. -/
def parE (l : List Byte) : Bool := let x := xorAll l; bit x 0 ^^ bit x 2 ^^ bit x 4 ^^ bit x 6
/-- The parity of the odd-numbered bits. -/
def parO (l : List Byte) : Bool := let x := xorAll l; bit x 1 ^^ bit x 3 ^^ bit x 5 ^^ bit x 7

/-- A lane chunk is good (R246). -/
def chunkGood (lane : Nat) (l : List Byte) : Bool :=
  decide (l.length = 64) && !parE l && !parO l && decide (bits (num l 0 2) 15 14 = lane)

/-- SEQ of a chunk. -/
def chunkSeq (l : List Byte) : Nat := bits (num l 0 2) 11 0

/-- A lane chunk built from its sequence number and its other 62 bytes. -/
def mkChunk (lane seq : Nat) (rest : List Byte) : List Byte :=
  let h := seq % 4096 + lane % 4 * 2 ^ 14
  let l := leBytes 2 h ++ rest
  leBytes 2 (h + flag (parE l) * 2 ^ 12 + flag (parO l) * 2 ^ 13) ++ rest

/-- A control word (R248). -/
structure Ctl where
  /-- TYPE. -/
  type : Nat
  /-- VC. -/
  vc : Nat
  /-- START. -/
  start : Nat
  /-- ACK_SEQ. -/
  ack : Nat
  /-- NAK_SEQ with NAK_V. -/
  nak : Option Nat
  /-- CR_VC. -/
  crVc : Nat
  /-- CR_TOTAL. -/
  crTotal : Nat
  deriving DecidableEq, Repr

/-- The 64 bits of a control word. -/
def Ctl.word (c : Ctl) : Nat :=
  c.type + c.vc * 2 ^ 2 + c.start * 2 ^ 4 + c.ack * 2 ^ 12 + c.nak.getD 0 * 2 ^ 24 + flag c.nak.isSome * 2 ^ 36 + c.crVc * 2 ^ 37 +
    c.crTotal * 2 ^ 39

/-- The control word of 64 bits. -/
def Ctl.ofWord (w : Nat) : Ctl :=
  { type := bits w 1 0, vc := bits w 3 2, start := bits w 11 4, ack := bits w 23 12,
    nak := if bit w 36 then some (bits w 35 24) else none, crVc := bits w 38 37, crTotal := bits w 46 39 }

/-- The four lane chunks of a flit (R246, R247). -/
def mkFlit (seq : Nat) (c : Ctl) (data : List Byte) : List (List Byte) :=
  [mkChunk 0 seq (leBytes 8 c.word ++ slice data 0 54), mkChunk 1 seq (slice data 54 62), mkChunk 2 seq (slice data 116 62),
    mkChunk 3 seq (slice data 178 62)]

/-- The payload of a flit. -/
def flitData (lanes : List (List Byte)) : List Byte :=
  slice (lanes.getD 0 []) 10 54 ++ slice (lanes.getD 1 []) 2 62 ++ slice (lanes.getD 2 []) 2 62 ++ slice (lanes.getD 3 []) 2 62

/-! ### Packets in the byte stream of a VC (R250) -/

/-- A whole packet with its 4-byte header. -/
def flumePacket (kind : Nat) (body : List Byte) : List Byte := leBytes 2 (body.length + 4) ++ leBytes 1 kind ++ leBytes 1 0 ++ body

/-- The payload of the next flit of a queue of packets whose first has some bytes sent already: the bytes, START, and what
is left. -/
def packFlit : List (List Byte) → Nat → List Byte → Option Nat → List Byte × Option Nat × List (List Byte) × Nat
  | [], _, acc, st => (acc ++ List.replicate (240 - acc.length) 0, st, [], 0)
  | p :: r, sent, acc, st =>
    if sent = 0 ∧ 236 < acc.length then (acc ++ List.replicate (240 - acc.length) 0, st, p :: r, 0)
    else
      let st := if sent = 0 then some (st.getD acc.length) else st
      let n := min (240 - acc.length) (p.length - sent)
      let acc := acc ++ slice p sent n
      if sent + n = p.length then packFlit r 0 acc st else (acc, st, p :: r, sent + n)

/-- The packets that end in the bytes of a flit, with what is left of the one in progress; a LENGTH outside 8 to 4,352 is
taken as padding (log entry 62). -/
def takePackets : Nat → List Byte → List Byte → List (List Byte) × List Byte
  | 0, part, _ => ([], part)
  | n + 1, part, rest =>
    let l := if part = [] then num rest 0 2 else num part 0 2
    if part = [] ∧ (rest.length < 4 ∨ l < 8 ∨ 4352 < l) then ([], [])
    else
      let k := min (l - part.length) rest.length
      let part := part ++ rest.take k
      if part.length < l then ([], part)
      else
        let r := takePackets n [] (rest.drop k)
        (part :: r.1, r.2)

/-! ### The end-to-end check (R287, R288) -/

/-- Destination QPN of a transport packet (the base transport header of RoCEv2; log entry 63). -/
def bthQpn (b : List Byte) : Nat := ofBe (slice b 5 3)
/-- PSN. -/
def bthPsn (b : List Byte) : Nat := ofBe (slice b 9 3)
/-- Opcode. -/
def bthOp (b : List Byte) : Nat := num b 0 1

/-- The first or only packet of a WRITE, which carries a RETH. -/
def bthWriteFirst (op : Nat) : Bool := decide (op = 0x06 ∨ op = 0x0A ∨ op = 0x0B)
/-- A later packet of a WRITE. -/
def bthWriteNext (op : Nat) : Bool := decide (op = 0x07 ∨ op = 0x08 ∨ op = 0x09)
/-- A READ response. -/
def bthResponse (op : Nat) : Bool := decide (op = 0x0D ∨ op = 0x0E ∨ op = 0x0F ∨ op = 0x10)

/-- Payload bytes of a transport packet that ends with its check value. -/
def bthPayload (b : List Byte) : Nat :=
  let op := bthOp b
  let ext := (if bthWriteFirst op ∨ op = 0x0C then 16 else 0) + (if op = 0x0D ∨ op = 0x0F ∨ op = 0x10 ∨ op = 0x11 then 4 else 0) +
    (if op = 0x03 ∨ op = 0x05 ∨ op = 0x09 ∨ op = 0x0B then 4 else 0)
  b.length - 16 - ext - bits (num b 1 1) 5 4

/-- The fold value of a packet that arrives at a QP (R287). -/
def foldOf (p : Option Qp) (b : List Byte) : Nat :=
  let op := bthOp b
  let other := bthQpn b * 2 ^ 24 + bthPsn b
  match p with
  | none => other
  | some p =>
    if bthWriteFirst op then foldAddr p.mode (ofBe (slice b 12 8)) (ofBe (slice b 20 4))
    else if bthWriteNext op then p.inAddr
    else if bthResponse op then
      match readOf p (bthPsn b) with
      | some w => foldAddr p.mode w.remote w.key + 4096 * ((bthPsn b + 2 ^ 24 - w.psn) % 2 ^ 24)
      | none => other
    else other

/-- The check value of a transport packet (R287). -/
def e2eValue (fold : Nat) (b : List Byte) : Nat := crc32c (leBytes 8 fold ++ b)

/-- A transport packet's check value holds. -/
def e2eOk (p : Option Qp) (b : List Byte) : Bool :=
  decide (num b (b.length - 4) 4 = e2eValue (foldOf p b) (b.take (b.length - 4)))

/-- The packet of a flit whose check value does not match. -/
def e2eFail (port : Nat) (b : List Byte) (s : State) : State :=
  let response := bthResponse (bthOp b)
  e2eDrop port (bthQpn b) (bthPsn b) (response || decide (bthOp b = 0x11)) response s

/-- The QP of this device whose packets go to a QPN of the peer at a port. -/
def qpTo (s : State) (p dest : Nat) : Option (Nat × Qp) := s.rdm.qps.find? fun x => decide (x.2.port = p) && decide (x.2.rqpn = dest)

/-- The fold value of a packet that leaves by a port, its body without the check value (R287). -/
def sentFold (s : State) (p : Nat) (b : List Byte) : Nat :=
  let op := bthOp b
  let psn := bthPsn b
  let other := bthQpn b * 2 ^ 24 + psn
  match qpTo s p (bthQpn b) with
  | none => other
  | some (_, x) =>
    if bthWriteFirst op then foldAddr x.mode (ofBe (slice b 12 8)) (ofBe (slice b 20 4))
    else if bthWriteNext op then x.outAddr
    else if bthResponse op then
      match x.served.find? fun r => psnLe r.1 psn && psnLe psn (psnAdd r.1 (r.2.1 - 1)) with
      | some r => r.2.2 + 4096 * ((psn + 2 ^ 24 - r.1) % 2 ^ 24)
      | none => other
    else other

/-- A whole packet as it leaves the byte stream of a VC: handed up, or discarded (R250, R288). -/
def handUp (port : Nat) (pk : List Byte) (s : State) : State :=
  let kind := num pk 2 1
  let b := pk.drop 4
  let s := idleExit s
  if kind = 1 then
    let p := qpOf s (bthQpn b)
    if e2eOk p b then
      let s := match p with
        | some _ =>
          if bthWriteFirst (bthOp b) ∨ bthWriteNext (bthOp b) then
            modQp (bthQpn b) (fun q => { q with inAddr := foldOf (some q) b + bthPayload b }) s
          else s
        | none => s
      emit (.handed port 1 b) s
    else e2eFail port b s
  else if kind = 2 ∨ kind = 3 then emit (.handed port kind b) s
  else modFlm port (fun f => { f with err := f.err ||| 8 }) s

/-! ### The receiver (R252 to R259) -/

/-- E: the lowest missing number, or N (R254). -/
def Flm.e (f : Flm) : Nat := match f.m with | x :: _ => x.seq | [] => f.n

/-- a − b modulo 4,096. -/
def seqSub (a b : Nat) : Nat := (a + 4096 - b % 4096) % 4096

/-- A DATA flit delivered on its VC (R250, R252): false when the receive buffer has no free slot. -/
def deliverFlit (p : Nat) (b : FlitBody) (s : State) : State × Bool :=
  let f := (port s p).flm
  let r := f.rx.getD b.vc {}
  if 4 * f.allocNow.getD b.vc 0 ≤ r.used then (s, false)
  else
    let bytes := if r.part = [] then (if b.start = 0xFF then [] else b.data.drop b.start) else b.data
    let x := takePackets 61 r.part bytes
    let done := if x.1 = [] ∧ x.2 ≠ [] then 0 else if x.2 = [] then r.used + 1 else r.used
    let s := modFlm p (fun f =>
      { f with rx := f.rx.set b.vc { part := x.2, used := r.used + 1 - done, freed := (r.freed + done) % 256 } }) s
    (x.1.foldl (fun s pk => handUp p pk s) s, true)

/-- Held flits delivered in sequence order from a number on (R254); the link ends when a buffer has no slot. -/
def deliverHeld (p : Nat) : Nat → Nat → State → State
  | 0, _, s => s
  | n + 1, e, s =>
    match (port s p).flm.held.get e with
    | none => s
    | some b =>
      let s := modFlm p (fun f => { f with held := f.held.erase e }) s
      match deliverFlit p b s with
      | (s, true) => deliverHeld p n ((e + 1) % 4096) s
      | (s, false) => linkDown p 4 e .linkDown s

/-- A number missing: added to M, or one more failure of it; the third ends the link (R254 rule 2, REPEAT_FAIL). -/
def badFlit (p seq : Nat) (s : State) : State :=
  let f := (port s p).flm
  if seq = f.n then
    modFlm p (fun f => { f with m := f.m ++ [⟨seq, 1, none⟩], n := (f.n + 1) % 4096, lastBad := some seq }) s
  else
    match f.m.find? fun x => x.seq = seq with
    | none => s
    | some x =>
      if 2 ≤ x.fails then linkDown p 2 seq .linkDown s
      else modFlm p (fun f => { f with m := f.m.map fun y => if y.seq = seq then { y with fails := y.fails + 1, nakAt := none } else y }) s

/-- A bad flit counted, and FLUME_DEGRADED (R259). -/
def countBad (p : Nat) (s : State) : State :=
  let now := s.core.t
  let inSec (l : List Nat) : Nat := (l.filter fun t => decide (now < t + sec 1)).length
  let f := (port s p).flm
  let armed := match f.degraded with | none => true | some t => passed s t (sec 1) && decide (inSec f.badAt ≤ 1000)
  let l := pushLast 1001 f.badAt now
  let raise := armed && decide (1000 < inSec l)
  let s := modFlm p (fun f =>
    { f with bad := sat 0xFFFFFFFF (f.bad + 1), badAt := l,
             degraded := if raise then some now else if armed then none else f.degraded }) s
  if raise then raisePf 0x8003 p (inSec l) s else s

/-- What the control word of a flit reports: acknowledgement first, then a NAK, then credits (R252, R256, When events
meet). -/
def applyCtl (p : Nat) (c : Ctl) (s : State) : State :=
  let acked (x : Nat) : Bool := decide (seqSub c.ack x ≠ 0) && decide (seqSub c.ack x ≤ 512)
  let s := modFlm p (fun f =>
    { f with buffer := f.buffer.filter fun x => !acked x.1, replayed := f.replayed.filter fun x => !acked x,
             toReplay := f.toReplay.filter fun x => !acked x }) s
  let f := (port s p).flm
  let t := f.tx.getD c.crVc {}
  let up := t.avail + (c.crTotal + 256 - t.total) % 256
  let s := modFlm p (fun f =>
    { f with tx := f.tx.set c.crVc { t with avail := min up t.advert, total := c.crTotal },
             err := if t.advert < up then f.err ||| 2 else f.err }) s
  match c.nak with
  | none => s
  | some n =>
    match f.buffer.find? fun x => x.1 = n with
    | some x =>
      let recent : Bool := match x.2.replayedAt with | some a => decide (s.core.t < a + 290) | none => false
      if recent ∨ f.toReplay.contains n then s else noteNak p (modFlm p (fun f => { f with toReplay := f.toReplay ++ [n] }) s)
    | none => if seqSub n f.txSeq < 2048 then s else linkDown p 7 n .linkDown s

/-- A good flit under rules 3 to 9 of R254. -/
def goodFlit (p seq : Nat) (c : Ctl) (data : List Byte) (s : State) : State :=
  let f := (port s p).flm
  let inM := f.m.any fun x => decide (x.seq = seq)
  let prev := seqSub f.n 1
  let body : FlitBody := { vc := c.vc, start := c.start, data }
  let hold (f : Flm) : Flm := let h := f.held.set seq body; { f with held := h, heldMax := if seq = f.e then f.heldMax else max f.heldMax h.length }
  if c.type = 0 ∧ seq = prev ∧ inM ∧ f.lastBad = some seq then
    modFlm p (fun f => { f with m := f.m.filter fun x => x.seq ≠ seq, n := prev, lastBad := none }) s
  else if c.type = 0 ∧ seq = f.n then s
  else if c.type = 1 ∧ inM then
    let e := f.e
    let s := modFlm p (fun f => { hold f with m := f.m.filter fun x => x.seq ≠ seq }) s
    deliverHeld p (seqSub (port s p).flm.e e) e s
  else if c.type = 1 ∧ seq = f.n then
    if seqSub f.n f.e < 64 then
      if f.m = [] then
        match deliverFlit p body (modFlm p (fun f => { f with n := (f.n + 1) % 4096 }) s) with
        | (s, true) => s
        | (s, false) => linkDown p 4 seq .linkDown s
      else modFlm p (fun f => { hold f with n := (f.n + 1) % 4096 }) s
    else linkDown p 3 seq .linkDown s
  else if c.type = 1 ∧ (f.held.has seq ∨ (seqSub f.e seq ≠ 0 ∧ seqSub f.e seq ≤ 512)) then
    modFlm p (fun f => { f with err := f.err ||| 4 }) s
  else linkDown p 5 seq .linkDown s

end Sys2Proof.Machine
end

