-- ==== Sys2Proof/Machine/Queues.lean ====
section
/-! DEFINITION. Queues, doorbells, fetch and the checks of R48 (02). -/

namespace Sys2Proof.Machine

/-! ### Queue indexes (R56, R59) -/

/-- The range a VF holds. -/
def vfRange (s : State) (n : Nat) : QRange := s.hif.ranges.getD n {}

/-- Whether a global ID belongs to some VF. -/
def vfOwned (s : State) (g : Nat) : Bool :=
  s.hif.ranges.any fun p => decide (p.2.base ≤ g) && decide (g < p.2.base + p.2.count)

/-- The global queue a function's index names, when it owns one (R56). -/
def globalQ (s : State) (fn idx : Nat) : Option Nat :=
  if fn = 0 then if idx < 256 ∧ vfOwned s idx = false then some idx else none
  else if idx < (vfRange s fn).count then some ((vfRange s fn).base + idx) else none

/-- The state with an SQ changed. -/
def modSq (q : Nat) (f : Sq → Sq) (s : State) : State :=
  s.modHif fun h => { h with sqs := h.sqs.modify q f }

/-- The state with a CQ changed. -/
def modCq (q : Nat) (f : Cq → Cq) (s : State) : State :=
  s.modHif fun h => { h with cqs := h.cqs.modify q f }

/-- A CQ's waiting completions kept as retained records, as those of a CQ that can take none (R67); a function level reset
keeps only those of accepted commands (02, When events meet). -/
def retainWaiting (acceptedOnly : Bool) (q : Nat) (s : State) : State :=
  match s.hif.cqs.get q with
  | none => s
  | some cq =>
    retainAll cq.fn (cq.waiting.filter fun i => i.accepted || !acceptedOnly) (modCq q (fun c => { c with waiting := [] }) s)

/-- An SQ tail doorbell (R59, R60): fn's index idx, value v. A value with bits [31:16] set is read as one not below the depth,
and places the queue in ERROR (DESIGN CHOICE, log entry 100). -/
def execSqTailDoorbell (fn idx val : Nat) (s : State) : Out :=
  match globalQ s fn idx with
  | none => .next s
  | some q =>
    match s.hif.sqs.get q with
    | none => .next s
    | some sq =>
      if sq.state ≠ .active then .next s
      else if val < sq.depth then .next (modSq q (fun r => { r with tail := val }) (idleExit s))
      else .next (flagErr fn 0 idx (modSq q (fun r => { r with state := .error, err := 1 }) (idleExit s)))

/-- A CQ head doorbell (R55, R59, R60). A value equal to the last one releases no entry, also where all of them are held, and a
value with bits [31:16] set places the queue in ERROR (DESIGN CHOICE, log entry 100). -/
def execCqHeadDoorbell (fn idx val : Nat) (s : State) : Out :=
  match globalQ s fn idx with
  | none => .next s
  | some q =>
    match s.hif.cqs.get q with
    | none => .next s
    | some cq =>
      let rel := (val + cq.depth - cq.head) % cq.depth
      if cq.state ≠ .active then .next s
      else if val < cq.depth ∧ rel ≤ cq.used then
        let s := modCq q (fun c => { c with head := val, used := c.used - rel, waiting := [] }) (idleExit s)
        .next (cq.waiting.foldl (fun s i => cqPut cq.fn q i s) s)
      else
        .next (flagErr fn 0 (idx + 256) (retainWaiting false q (modCq q (fun c => { c with state := .error, err := 1 }) (idleExit s))))

/-! ### Creation and deletion (R57, R83) -/

/-- The window registers of a function. -/
def win (s : State) (fn : Nat) : Win := s.hif.wins.getD fn {}

/-- A queue creation refused: QCFG flagged and ERR 2. -/
def refuseQueue (fn : Nat) (s : State) : State :=
  let w := win s fn
  let idx := bits w.qsel 7 0
  let s := flagErr fn 1 (bits w.qsel 8 0) s
  match globalQ s fn idx with
  | none => s
  | some q =>
    s.modHif fun h =>
      if bit w.qsel 8 then { h with cqs := h.cqs.alter q { fn } fun c => { c with err := 2 } }
      else { h with sqs := h.sqs.alter q { fn } fun c => { c with err := 2 } }

/-- HIF_QCMD OP 1 (R57, R83). An SQ whose CQ is in ERROR is refused, as one whose CQ does not exist (DESIGN CHOICE, log
entry 100). -/
def execQueueCreate (fn : Nat) (s : State) : Out :=
  let w := win s fn
  let depth := bits w.qcfg0 12 0
  let depthOk := decide (2 ≤ depth) && decide (depth ≤ 4096)
  let link := bits w.qcfg0 31 24
  match globalQ s fn (bits w.qsel 7 0) with
  | none => .next (refuseQueue fn s)
  | some q =>
    if bit w.qsel 8 then
      let vec := bits link 5 0
      let cnt := bits w.qcfg1 7 0
      let tus := bits w.qcfg1 25 16
      if depthOk ∧ (s.hif.cqs.getD q {}).state = .free ∧ vec < (if fn = 0 then 64 else 8) ∧ 1 ≤ cnt ∧ tus ≤ 1000 then
        .next (s.modHif fun h =>
          { h with
            cqs := h.cqs.set q { state := .active, depth, base := w.qbase, vector := vec, coalCnt := cnt, coalUs := tus, fn } })
      else .next (refuseQueue fn s)
    else
      match globalQ s fn link with
      | none => .next (refuseQueue fn s)
      | some cq =>
        if depthOk ∧ (s.hif.sqs.getD q {}).state = .free ∧ (s.hif.cqs.getD cq {}).state = .active then
          .next (s.modHif fun h =>
            { h with
              sqs := h.sqs.set q
                { state := .active, depth, base := w.qbase, env := w.qenv, fast := bit w.qcfg0 16,
                  weight := bits w.qcfg0 23 20 + 1, cq, fn } })
        else .next (refuseQueue fn s)

/-- Whether an SQ has commands in the device. -/
def sqBusy (s : State) (q : Nat) : Bool :=
  s.hif.cmds.any fun c => decide (c.sq = q) && !c.orphan && (match c.id.origin with | .pcie _ => true | _ => false)

/-- HIF_QCMD OP 2 (R57, R83). -/
def execQueueDelete (fn : Nat) (s : State) : Out :=
  let w := win s fn
  match globalQ s fn (bits w.qsel 7 0) with
  | none => .next s
  | some q =>
    if bit w.qsel 8 then
      if (s.hif.cqs.getD q {}).state = .free then .next s
      else if s.hif.sqs.any fun p => decide (p.2.state ≠ .free) && decide (p.2.cq = q) then
        .next ((modCq q (fun c => { c with err := 4 }) s).modHif fun h =>
          { h with wins := h.wins.alter fn {} fun v => { v with errQid := bits w.qsel 8 0 } })
      else
        let s := retainWaiting false q s
        .next (s.modHif fun h => { h with cqs := h.cqs.erase q })
    else if (s.hif.sqs.getD q {}).state = .free then .next s
    else if sqBusy s q then .next (modSq q (fun r => { r with state := .deleting }) s)
    else .next (s.modHif fun h => { h with sqs := h.sqs.erase q })

/-- An SQ in deletion becomes free once its fetched commands have completed (R83). -/
def execSqDeleteDone (sq : Nat) (s : State) : Out :=
  onEvent (decide ((s.hif.sqs.getD sq {}).state = .deleting) && !sqBusy s sq) s fun s =>
    s.modHif fun h => { h with sqs := h.sqs.erase sq }

/-- A write of HIF_VF_QRANGE_n by the PF (R56, R83). -/
def execVfQrangeWrite (fn n val : Nat) (s : State) : Out :=
  let base := bits val 7 0
  let count := bits val 12 8
  let inNew (g : Nat) : Bool := decide (base ≤ g) && decide (g < base + count)
  if fn ≠ 0 ∨ n = 0 ∨ 15 < n then .next s
  else
    let inUse (f : Nat) (p : Nat × QState × Nat) : Bool := decide (p.2.2 = f) && decide (p.2.1 ≠ .free)
    let queues := s.hif.sqs.map (fun p => (p.1, p.2.state, p.2.fn)) ++ s.hif.cqs.map (fun p => (p.1, p.2.state, p.2.fn))
    let active := queues.any (inUse n)
    let overlap := s.hif.ranges.any fun p =>
      decide (p.1 ≠ n) && decide (p.2.base < base + count) && decide (base < p.2.base + p.2.count) &&
        decide (0 < count) && decide (0 < p.2.count)
    let pfUse := queues.any fun p => inUse 0 p && inNew p.1
    if active || overlap || pfUse || decide (16 < count) || decide (256 < base + count) then .next (flagErr 0 1 base s)
    else .next (s.modHif fun h => { h with ranges := h.ranges.set n { base, count } })

/-! ### The checks of R48 -/

/-- The offset of the first reserved or undefined field of check 2 (R48, R49). -/
def reservedAt (p : List Word) (op : Opc) : Option Nat :=
  let ctx := pktContext p
  if fld p 0 15 11 ≠ 0 then some 1
  else if ctx ||| op.ctxMask ≠ op.ctxMask then some 4
  else if op.row.cls = .domain ∧ bit ctx 8 ∧ bits ctx 7 0 ≠ 0 then some 4
  else if pktAuth p = 0 ∨ 3 < pktAuth p then some 56
  else if fld p 14 31 8 ≠ 0 then some 57
  else if dw p 15 ≠ 0 then some 60
  else none

/-- Check 3 fails: the opcode does not run in the role (R2, R3, R6, R7). -/
def roleRefuses (s : State) (op : Opc) : Bool :=
  match s.core.role with
  | .invalid => !(decide (op.row.cls = .device) || decide (op.row.cls = .management))
  | .none => !(decide (op = .nop) || decide (op = .identify) || decide (op = .getLog))
  | .mill => if s.core.fill then !(decide (op = .nop) || decide (op = .identify) || decide (op = .getLog)) else !op.row.mill
  | .granary =>
    if s.core.fill then !(decide (op = .nop) || decide (op = .identify) || decide (op = .getLog)) else !op.row.granary

/-- Check 4 fails, with the reason (R50, R51). -/
def carrierRefuses (o : Origin) (env : Option Envelope) (p : List Word) (op : Opc) : Option Nat :=
  let carried : Bool := match o with
    | .pcie _ => op.row.pcie
    | .usb => op.row.usb
    | .domain _ _ => op.row.dom
  if !carried then some 4
  else if pktAuth p = 2 then
    match o with
    | .domain _ _ => some 4
    | _ => if op.row.steward then none else some 4
  else if pktAuth p = 3 then
    match o with
    | .usb => some 4
    | _ => if env.isNone then some 5 else none
  else none

/-- Check 5 fails, with the reason (R11, R81). -/
def issuerRefuses (fn : Nat) (p : List Word) (op : Opc) : Option Nat :=
  let ok : Bool := match pktAuth p with
    | 1 => op.row.host
    | 2 => op.row.steward
    | _ => op.row.admin
  if !ok then some 2 else if op.row.pf && decide (fn ≠ 0) then some 3 else none

/-- The opcodes a fast-class SQ accepts (R58). -/
def fastOpcode (op : Opc) : Bool :=
  [Opc.cogSet, .cogClear, .playoutReport, .sailRaise, .sailSet, .sailFurl].contains op

/-- The commands executed in SLEEP (R398). -/
def sleepOpcode (op : Opc) : Bool := [Opc.nop, .identify, .getLog, .powerQuery, .powerState].contains op

/-- The device executes only the commands of R398. -/
def sleepRule (s : State) : Bool :=
  decide (s.pwr.state = .sleep) || (match s.pwr.entry with | some e => e.stopped | none => false)

/-- Check 5 of R48, then R58 and R398: reason and RESULT2 of the first that fails. -/
def lateRefusal (s : State) (fn : Nat) (fast : Bool) (p : List Word) (op : Opc) : Option (Nat × Nat) :=
  match issuerRefuses fn p op with
  | some r => some (r, 0)
  | none =>
    if fast && !fastOpcode op then some (8, 0) else if sleepRule s && !sleepOpcode op then some (10, 5) else none

/-- Checks 1 to 5 of R48 on a packet, then R58 and R398: the opcode, or the status, RESULT and RESULT2 of the first failure. A
DOMAIN_ADMIN packet meets check 5 and what follows only when the Millwright has verified its envelope, the end of check 4
(R51, R52). -/
def checkPacket (s : State) (o : Origin) (env : Option Envelope) (fast : Bool) (p : List Word) :
    Except (Status × Nat × Nat) Opc :=
  match Opc.ofCode (pktOpcode p) with
  | none => .error (.invalidOpcode, 0, 0)
  | some op =>
    match reservedAt p op with
    | some off => .error (.invalidField, off, 0)
    | none =>
      if roleRefuses s op then .error (.notPermitted, 1, 0)
      else
        match carrierRefuses o env p op with
        | some r => .error (.notPermitted, r, 0)
        | none =>
          if pktAuth p = 3 then .ok op
          else
            match lateRefusal s (originFn o) fast p op with
            | some (r, r2) => .error (.notPermitted, r, r2)
            | none => .ok op

/-- Checks 1, 2 and 4 of R48 on a packet from a forward SQ (R363). -/
def checkForward (o : Origin) (env : Option Envelope) (p : List Word) : Except (Status × Nat × Nat) Opc :=
  match Opc.ofCode (pktOpcode p) with
  | none => .error (.invalidOpcode, 0, 0)
  | some op =>
    match reservedAt p op with
    | some off => .error (.invalidField, off, 0)
    | none =>
      if !op.row.dom then .error (.notPermitted, 4, 0)
      else
        match carrierRefuses o env p op with
        | some r => .error (.notPermitted, r, 0)
        | none => .ok op

/-! ### From the checks to execution -/

/-- Executed by the Millwright, or verified by it first (R50, R52). -/
def needsMw (p : List Word) (op : Opc) : Bool := decide (op.row.cls = .management) || decide (pktAuth p = 3)

/-- Its message carries an attachment: an authorisation block, an envelope or a chunk (R429, R430). -/
def needsAttach (p : List Word) (op : Opc) : Bool :=
  decide (op = .budgetWrite) || decide (pktAuth p = 3) || (decide (op = .fwUpdate) && decide (fld p 2 1 0 = 1))

/-- An attempt put into the budget attempt log (R17). -/
def logAttempt (c : Cmd) (outcome : Status) (s : State) : State :=
  s.modStore fun t =>
    { t with attempts := t.attempts ++ [{ setting := fld c.pkt 2 7 0, value := dw c.pkt 3, auth := pktAuth c.pkt, outcome,
                                          time := stamp s, ticks := stampTicks s }] }

/-- A packet that names BUDGET_WRITE refused before the Millwright judges it is an attempt too (R17; log entry 102). -/
def logRefused (c : Cmd) (outcome : Status) (s : State) : State :=
  if pktOpcode c.pkt = 0xA2 then logAttempt c outcome s else s

/-- The lowest free attachment slot (R430; log entry 116). -/
def freeAttach (s : State) : Nat := (numsWhere 16 fun k => !s.mail.attach.has k).headD 16

/-- A command past its checks and its FENCE: put into CTL_TO_MW, or made ready for its own row. A full mailbox completes
it with BUSY_RETRY (R32, R430). -/
def launch (c : Cmd) (s : State) : State :=
  if needsMw c.pkt c.op then
    let full := !s.mail.ctlToMw.room (.command c.id) || (needsAttach c.pkt c.op && decide (16 ≤ s.mail.attach.length))
    if full then complete c .busyRetry 0 1000 (logRefused c .busyRetry s)
    else
      let s := updCmd c.id (fun c => { c with phase := .mailbox, viaMw := true }) s
      s.modMail fun m =>
        { m with
          ctlToMw := m.ctlToMw.push (.command c.id)
          attach := if needsAttach c.pkt c.op then m.attach.set (freeAttach s) c.id else m.attach }
  else updCmd c.id (fun c => { c with phase := .ready }) s

/-- A command came by a fast-class SQ (R58). -/
def cmdFast (s : State) (c : Cmd) : Bool := match c.id.origin with | .pcie _ => (s.hif.sqs.getD c.sq {}).fast | _ => false

/-- The member a forward command goes to: a command on a handle of the SQ's member goes where the failover table says
(R314). -/
def forwardTarget (s : State) (c : Cmd) (m : Nat) : Nat :=
  if c.op.row.cls = .granary ∧ c.op ≠ .carveCreate ∧ handleGranary (pktHandle c.pkt) = m then s.grn.failover.getD m m else m

/-- BIN_MAPs forwarded and not yet answered: each may need a map record (R304). -/
def mapsAsked (s : State) : Nat :=
  (s.hif.cmds.filter fun c => decide (c.op = .binMap) && (match c.phase with | .forwarded _ => true | _ => false)).length

/-- A forward command sent to its member, or completed when it cannot be (R304, R314, R363). -/
def sendForward (c : Cmd) (member : Nat) (s : State) : State :=
  let m := forwardTarget s c member
  if c.op = .binMap ∧ isMill s ∧ 16384 ≤ s.grn.recs.length + mapsAsked s then complete c .noResource 0 0 s
  else if quarantined s m then complete c .peerQuarantined 0 m s
  else if paths s m = [] then complete c .linkDown 0 0xFFFFFFFF s
  else
    let s := if c.op = .binMap ∨ c.op = .leaseRenew then
        s.modGrn fun g => { g with asked := (g.asked.filter fun a => a.1 ≠ c.id) ++ [(c.id, s.core.time)] }
      else s
    let table := if c.op = .domainJoin then c.input.take (fld c.pkt 5 13 0) else []
    sendMsg m (.command c.fn c.pkt (if pktAuth c.pkt = 3 then c.env else none) table) (updCmd c.id (fun c => { c with phase := .forwarded s.core.t }) s)

/-- Two commands came by the same SQ; a carrier without SQs counts as one for each submitter (R62; log entry 101). -/
def sameQueue (c d : Cmd) : Bool :=
  match c.id.origin, d.id.origin with
  | .pcie _, .pcie _ => decide (d.sq = c.sq)
  | a, b => decide (a = b)

/-- Whether earlier commands of its SQ have completed and their completions have been written (R62). -/
def fenceClear (s : State) (c : Cmd) : Bool :=
  let earlier := (s.hif.cmds.takeWhile fun d => d.id ≠ c.id).any (sameQueue c)
  let unwritten := match c.id.origin with
    | .pcie _ => (s.hif.cqs.getD (s.hif.sqs.getD c.sq {}).cq {}).waiting.any fun i => decide (i.sq = c.sq)
    | _ => false
  !earlier && !unwritten

/-- The member a command's SQ forwards to (R363). -/
def cmdForward (s : State) (c : Cmd) : Option Nat :=
  match c.id.origin with
  | .pcie _ => (s.hif.sqs.getD c.sq {}).forward
  | _ => none

/-- A command past its checks may start: its FENCE is clear, and one that is sent away waits for the earlier ones of its class
and CONTEXT (R62). -/
def mayStart (s : State) (c : Cmd) : Bool :=
  (!pktFence c.pkt || fenceClear s c) && ((cmdForward s c).isNone || !heldBack s c)

/-- A command past its FENCE goes on. -/
def startCmd (c : Cmd) (s : State) : State :=
  match cmdForward s c with
  | some m => sendForward c m s
  | none => launch c s

/-- A packet arrives with its submitter: R66, R69, the checks of R48, then its FENCE and its execution. An accepted command left
running after its function's FLR still makes its tag outstanding (DESIGN CHOICE, log entry 100). -/
def arrive (o : Origin) (sq : Nat) (p : List Word) (env : Option Envelope) (input : List Byte) (s : State) : State :=
  let c0 : Cmd := { id := ⟨o, pktTag p⟩, op := .nop, pkt := p, sq, env, input }
  let fast := (match o with | .pcie _ => (s.hif.sqs.getD sq {}).fast | _ => false)
  let forward : Option Nat := (match o with | .pcie _ => (s.hif.sqs.getD sq {}).forward | _ => none)
  if (findCmd s c0.id).isSome then
    deliverK c0 { tag := c0.tag, status := .invalidField, result := 2 } [] s
  else
    let set := s.hif.retained.getD (retKey o) {}
    let mine := fun (r : RetRec) => decide (r.k.tag = c0.tag) && decide (r.fn = originFn o)
    let exact := fun (r : RetRec) => mine r && decide (r.opcode = pktOpcode p) && decide (r.context = pktContext p)
    match set.recs.find? exact with
    | some r =>
      let s := s.modHif fun h => { h with retained := h.retained.set (retKey o) { set with recs := set.recs.erase r } }
      deliverK c0 { r.k with retained := true } [] s
    | none =>
      let s :=
        match set.recs.find? mine with
        | some r =>
          logError { sev := 0, source := 0x01, plane := 0, code := Config.blockCode 1, fn := originFn o, obj := c0.tag }
            (s.modHif fun h => { h with retained := h.retained.set (retKey o) { set with recs := set.recs.erase r } })
        | none => s
      match (if forward.isSome then checkForward o env p else checkPacket s o env fast p) with
      | .error (st, r, r2) => deliverK c0 { tag := c0.tag, status := st, result := r, result2 := r2 } [] (logRefused c0 st s)
      | .ok op =>
        let c : Cmd := { c0 with op, phase := .fenced }
        let s := if op = .tallyConfirm ∧ forward.isNone then
            s.modTly fun y => { y with arrived := (y.arrived.filter fun a => a.1 ≠ c.id) ++ [(c.id, s.core.time)] }
          else s
        let s := s.modHif fun h => { h with cmds := h.cmds ++ [c] }
        if mayStart s c then startCmd c s else s

/-! ### Fetch and arbitration (R61) -/

/-- Entries a doorbell has covered and the device has not fetched. -/
def fetchable (q : Sq) : Nat := if q.depth = 0 then 0 else (q.tail + q.depth - q.head) % q.depth

/-- An SQ the device would fetch from (R55, R60, R61). -/
def sqReady (s : State) (q : Nat) : Bool :=
  match s.hif.sqs.get q with
  | none => false
  | some r => decide (r.state = .active) && decide (0 < fetchable r) && decide ((s.hif.cqs.getD r.cq {}).waiting.length < 64)

/-- The ready SQs of a class, in rising order. -/
def readySqs (s : State) (fast : Bool) : List Nat :=
  (s.hif.sqs.filter fun p => decide (p.2.fast = fast) && sqReady s p.1).map (·.1)

/-- The next of a rising list after a number, going round. -/
def nextRound (l : List Nat) (after : Nat) : Option Nat :=
  match l.find? fun q => decide (after < q) with
  | some q => some q
  | none => l.head?

/-- The SQ whose entry is fetched next: fast class first, round robin in each class, a normal SQ for up to its weight
(R61; log entry 21). -/
def fetchChoice (s : State) : Option Nat :=
  match readySqs s true with
  | [] =>
    if sqReady s s.hif.rrNorm && !(s.hif.sqs.getD s.hif.rrNorm {}).fast &&
        decide (0 < s.hif.rrCount) && decide (s.hif.rrCount < (s.hif.sqs.getD s.hif.rrNorm {}).weight) then
      some s.hif.rrNorm
    else nextRound (readySqs s false) s.hif.rrNorm
  | l => nextRound l s.hif.rrFast

/-- The device takes commands: the control plane runs and the host interface is open (R35, R387, R400). -/
def takesCommands (s : State) : Bool :=
  s.hif.accept && !s.core.ctlReset &&
    decide (s.pwr.state = .run ∨ s.pwr.state = .idle ∨ s.pwr.state = .sleep ∨ s.pwr.state = .entering)

/-- The fetch of the next entry of an SQ (R60, R61). -/
def execCommandFetch (sq : Nat) (f : Fetched) (attachment : List Byte) (s : State) : Out :=
  if !takesCommands s || decide (fetchChoice s ≠ some sq) then .next s
  else
    let q := s.hif.sqs.getD sq {}
    let s := modCq q.cq (fun c => { c with reach := f.cqReachable }) s
    match f.packet with
    | none =>
      .next ((modSq sq (fun r => { r with state := .error, err := 3 }) s).modHif fun h =>
        { h with wins := h.wins.alter q.fn {} fun w => { w with errQid := localQ s q.fn sq } })
    | some p =>
      let again := decide (s.hif.rrNorm = sq) && decide (0 < s.hif.rrCount) && decide (s.hif.rrCount < q.weight)
      let s := modSq sq (fun r => { r with head := (r.head + 1) % r.depth }) s
      let s := s.modHif fun h =>
        if q.fast then { h with rrFast := sq }
        else { h with rrNorm := sq, rrCount := if again then h.rrCount + 1 else 1 }
      let env := if q.env = 0 then none else f.envelope
      let s := if q.env ≠ 0 ∧ f.envelope.isNone ∧ pktAuth p = 3 then flagErr q.fn 3 (localQ s q.fn sq) s else s
      .next (arrive (.pcie q.fn) sq p env attachment s)

/-- A fenced command starts (R62, R65). -/
def execFencedCommandStart (id : CmdId) (s : State) : Out :=
  match findCmd s id with
  | none => .next s
  | some c =>
    if c.phase = .fenced ∧ s.core.ctlReset = false ∧ mayStart s c then .next (startCmd c s) else .next s

/-- A command waiting under STALL goes on; its own row tests the condition again (R64). -/
def execStallResume (id : CmdId) (s : State) : Out :=
  match findCmd s id with
  | none => .next s
  | some c =>
    if c.phase = .stalled ∧ s.core.ctlReset = false then .next (updCmd id (fun c => { c with phase := .ready }) s)
    else .next s

/-- A command stalled for 10 ms completes with TIMEOUT (R64). -/
def execStallTimeout (id : CmdId) (s : State) : Out :=
  match findCmd s id with
  | none => .next s
  | some c =>
    if c.phase = .stalled ∧ s.core.ctlReset = false ∧ passed s (c.stallAt.getD s.core.t) (ms 10) then .next (complete c .timeout 0 0 s) else .next s

/-- The oldest unsignalled entry of a CQ has waited the coalescing time (R63). -/
def execCqCoalesceTimeout (cq : Nat) (s : State) : Out :=
  match s.hif.cqs.get cq with
  | none => .next s
  | some q =>
    if 0 < q.unsig ∧ passed s q.oldest (us q.coalUs) then
      .next (emit (.msix q.fn q.vector) (modCq cq (fun c => { c with unsig := 0 }) s))
    else .next s

end Sys2Proof.Machine
end

