-- ==== Sys2Proof/Machine/PlaneOps.lean ====
section
/-! DEFINITION. Function level resets and the resets of the planes (01 R35 to R44, 02 R67 to R74, 04 R147). -/

namespace Sys2Proof.Machine

/-! ### Commands a reset stops -/

/-- The ids of the commands an engine holds changed. -/
def Engine.rename (re : CmdId → CmdId) (e : Engine) : Engine :=
  let job (j : Job) : Job := { j with id := j.id.map re }
  { e with run := e.run.map job, hostQ := e.hostQ.map job, intQ := e.intQ.map job, release := e.release.map re }

/-- The ids of the commands whose work the data plane holds changed. -/
def renameWork (re : CmdId → CmdId) (s : State) : State :=
  let s := s.modMem fun m =>
    { m with
      copies := m.copies.map fun d => { d with id := re d.id }
      drains := m.drains.map fun d => { d with id := re d.id, copies := d.copies.map re } }
  let s := s.modStn fun x =>
    { x with loading := x.loading.map fun l => { l with id := re l.id }, tests := x.tests.map fun t => { t with id := re t.id } }
  let s := s.modChk fun k => { k with engines := k.engines.mapVal fun _ e => e.rename re }
  let s := s.modGrn fun g =>
    { g with dir := g.dir.mapVal fun _ b => { b with maps := b.maps.map fun x => { x with unmap := x.unmap.map re } } }
  s.modRdm fun r => { r with qps := r.qps.mapVal fun _ q => { q with move := q.move.map fun v => { v with id := re v.id } } }

/-- The data plane works for a command (R23). -/
def dataWorks (s : State) (id : CmdId) : Bool :=
  s.mem.copies.any (fun d => decide (d.id = id)) || s.mem.drains.any (fun d => decide (d.id = id)) ||
    s.stn.loading.any (fun l => decide (l.id = id)) || s.stn.tests.any (fun t => decide (t.id = id)) ||
    s.chk.engines.any (fun e =>
      (e.2.run.toList ++ e.2.hostQ ++ e.2.intQ).any (fun j => decide (j.id = some id)) || decide (e.2.release = some id)) ||
    s.grn.dir.any (fun b => b.2.maps.any fun x => decide (x.unmap = some id)) ||
    s.rdm.qps.any (fun q => q.2.move.any fun v => decide (v.id = id))

/-- What the control plane alone kept for a command that has ended. -/
def forgetCmd (id : CmdId) (s : State) : State :=
  let s := s.modPwr fun p => { p with doms := p.doms.mapVal fun _ d => { d with waiters := d.waiters.filter fun w => w ≠ id } }
  let s := s.modGrn fun g => { g with asked := g.asked.filter fun a => a.1 ≠ id, mapWaits := g.mapWaits.filter fun w => w.id ≠ id }
  s.modTly fun y => { y with arrived := y.arrived.filter fun a => a.1 ≠ id }

/-- A command that the Millwright holds or the data plane works for, and whose submitter is answered without it: it goes on
under a number that no submitter can give, and its completion goes nowhere (log entry 65). -/
def detach (id : CmdId) (s : State) : State :=
  let free := (numsWhere (s.hif.cmds.length + 1) fun k =>
    (findCmd s ⟨id.origin, id.tag + 65536 * (k + 1)⟩).isNone).headD 0
  let new : CmdId := ⟨id.origin, id.tag + 65536 * (free + 1)⟩
  let re (i : CmdId) : CmdId := if i = id then new else i
  let s := updCmd id (fun c => { c with id := new, detached := true }) s
  let s := s.modMail fun m =>
    { m with
      ctlToMw := { m.ctlToMw with items := m.ctlToMw.items.map fun x => match x with | .command i => .command (re i) | x => x }
      attach := m.attach.mapVal fun _ i => re i }
  let s := s.modMwr fun m =>
    { m with
      journal := m.journal.map fun j => { j with id := re j.id }
      copying := m.copying.map fun c => { c with id := re c.id }
      pos := m.pos.mapVal fun _ p => { p with waiters := p.waiters.map re } }
  let s := s.modBrk fun b =>
    { b with
      valves := b.valves.mapVal fun _ v => { v with waiters := v.waiters.map re }
      slots := b.slots.mapVal fun _ v => { v with waiters := v.waiters.map fun w => (re w.1, w.2) } }
  renameWork re (s.modTly fun y => { y with arrived := y.arrived.map fun a => (re a.1, a.2) })

/-- The Millwright holds a command: in CTL_TO_MW or past it, with no completion posted yet. -/
def Cmd.withMw (c : Cmd) : Bool := c.viaMw && decide (c.phase ≠ .mwDone)

/-- A fetched command ends ABORTED at a control-plane reset (R39); one the Millwright holds, or the data plane works for, is
detached. -/
def abortCmd (s : State) (c : Cmd) : State :=
  if c.detached then s
  else
    let k : Completion := { tag := c.tag, status := .aborted }
    if c.withMw || dataWorks s c.id then deliverK c k [] (detach c.id s) else deliver c k (forgetCmd c.id s)

/-- Every command ended without a completion, as a warm reset does; those the Millwright holds go on detached. -/
def clearCmds (s : State) : State :=
  let s := (s.hif.cmds.filter fun c => c.withMw && !c.detached).foldl (fun s c => detach c.id s) s
  s.modHif fun h => { h with cmds := h.cmds.filter fun c => c.detached && decide (c.phase ≠ .mwDone) }

/-! ### Function level reset (R71 to R74) -/

/-- A command of some functions. -/
def ofFns (fns : List Nat) (c : Cmd) : Bool := match c.id.origin with | .pcie f => fns.contains f && !c.detached | _ => false

/-- The host interface of some functions reset: commands not accepted are discarded, accepted ones run to their end and
become retained records, queues go (R67, R71). -/
def resetHostIf (fns : List Nat) (s : State) : State :=
  let gone := s.hif.cmds.filter fun c => ofFns fns c && !c.accepted
  let s := s.modHif fun h =>
    { h with
      cmds := (h.cmds.filter fun c => !(ofFns fns c && !c.accepted)).map fun c => if ofFns fns c then { c with orphan := true } else c }
  let s := s.modGrn fun g => { g with asked := g.asked.filter fun a => !gone.any fun c => decide (c.id = a.1), mapWaits := g.mapWaits.filter fun w => !gone.any fun c => decide (c.id = w.id) }
  let s := s.modTly fun y => { y with arrived := y.arrived.filter fun a => !gone.any fun c => decide (c.id = a.1) }
  let cqs := (s.hif.cqs.filter fun e => fns.contains e.2.fn).map (·.1)
  let s := forEach cqs (retainWaiting true) s
  s.modHif fun h =>
    { h with
      sqs := h.sqs.filter fun e => !fns.contains e.2.fn
      cqs := h.cqs.filter fun e => !fns.contains e.2.fn }

/-- The jobs of an engine ended ABORTED, those of an IMAGE_LOAD with their load, and its claim given up (R343, R344). -/
def dropEngine (n : Nat) (s : State) : State :=
  let e := engineOf s n
  let jobs := e.run.toList ++ e.hostQ ++ e.intQ
  let s := modEngine n (fun e =>
    { e with owner := none, cfg := {}, seq := 0, seen := none, run := none, hostQ := [], intQ := [], release := none }) s
  let s := jobs.foldl (fun s j => completeJob j .aborted 0 0 s) s
  match e.release with
  | some id => completeId id .aborted 0 0 s
  | none => s

/-- The objects of a function released (R72). -/
def releaseObjects (fn : Nat) (s : State) : State :=
  let keys {α : Type} (t : Tbl α) (p : α → Bool) : List Nat := (t.filter fun e => p e.2).map (·.1)
  let s := forEach (keys s.whl.races fun r => decide (r.fn = fn)) (fun r s => closeRace r 7 s) s
  let s := forEach (keys s.trn.turns fun t => decide (t.fn = fn)) (fun t s => endTurn t 7 .furled s) s
  let s := s.modStn fun x =>
    { x with images := x.images.filter fun e => decide (e.2.fn ≠ fn), chains := x.chains.filter fun e => decide (e.2.fn ≠ fn) }
  let asids := keys s.mem.spaces fun p => decide (p.fn = fn)
  let s := s.modMem fun m =>
    { m with
      spaces := m.spaces.filter fun e => decide (e.2.fn ≠ fn)
      leafCache := m.leafCache.filter fun l => !asids.contains l.1
      walkCache := m.walkCache.filter fun l => !asids.contains l.1 }
  let s := forEach (keys s.rdm.qps fun q => decide (q.fn = fn))
    (fun q s => qpLeft q (s.modRdm fun r => { r with qps := r.qps.erase q })) s
  let s := s.modRdm fun r =>
    { r with
      srqs := r.srqs.filter fun e => decide (e.2.fn ≠ fn)
      cqs := r.cqs.filter fun e => decide (e.2.fn ≠ fn)
      keys := r.keys.filter fun e => decide (e.2.fn ≠ fn)
      windows := r.windows.filter fun e => decide (e.2.fn ≠ fn) }
  let s := forEach (keys s.chk.engines fun e => decide (e.owner = some fn)) dropEngine s
  let s := s.modEvt fun e => { e with mons := e.mons.filter fun m => decide (m.2.fn ≠ fn) }
  let s := s.modDom fun d => { d with objections := d.objections.filter fun o => decide (o.1 ≠ fn) }
  settleVotes (s.modPwr fun p => { p with doms := p.doms.mapVal fun _ d => { d with host := d.host.filter fun f => decide (f ≠ fn) } })

/-- A function still has accepted commands of before its reset. -/
def hasOrphans (s : State) (fn : Nat) : Bool := s.hif.cmds.any fun c => c.orphan && ofFns [fn] c

/-- Functions whose accepted commands have ended give up their objects (R72). -/
def releaseDue (s : State) : State :=
  match s.hif.freeing.filter fun f => !hasOrphans s f with
  | [] => s
  | l => forEach l releaseObjects (s.modHif fun h => { h with freeing := h.freeing.filter fun f => hasOrphans s f })

/-- A function level reset of some functions; a VF with FLR_SCOPE OBJECTS gives up its objects (R72, R80). -/
def flr (fns : List Nat) (s : State) : State :=
  let s := resetHostIf fns s
  let scope := fns.filter fun f => decide (f ≠ 0) && decide (feature s 0x01 f 0 = 1)
  releaseDue (s.modHif fun h => { h with freeing := (h.freeing.filter fun f => !scope.contains f) ++ scope })

/-- A function level reset of the PF: of every function (R71, R73). -/
def flrPf (s : State) : State := flr (List.range 16) s

/-! ### Parts that more than one reset takes -/

/-- Every port not DISABLED trains again in the mode in force; no event tells it, since R260 has no cause for a reset
(R37, R237; log entry 66). -/
def retrainPorts (s : State) : State :=
  forEach (List.range 8) (fun p s =>
    let q := port s p
    if q.mode = .disabled ∨ hasRole s = false then s
    else modPort p (fun q => { q with state := .training, since := s.core.t, failedAt := [], flm := q.flm.clear }) s) s

/-- The tally counts cleared, and every allocated bin DISTURBED with NO_HISTORY, a LOST one under its sweep with them (R37, R42,
R332). -/
def loseCounts (s : State) : State :=
  let s := s.modTly fun y =>
    { y with recs := y.recs.mapVal fun _ r => { r with a := {}, b := {}, suspA := false, suspB := false, swept := false, window := 0, sweepAt := none }
             tokens := [], waiting := [] }
  let s := s.modGrn fun g => { g with asleep := [], handback := g.handback.map fun h => { h with held := [] } }
  forEach ((s.grn.dir.filter fun e => decide (e.2.state = .allocated ∨ e.2.state = .lost)).map (·.1)) (fun b s => disturb b 5 s) s

/-- The scratch of every stone cleared by a reset, with what it counts (R219, R231, R235). -/
def clearScratch (s : State) : State := forEach (List.range 256) resetInst s

/-- STONE_REINSTATE tests cut short: their stones are FENCED again and the commands end ABORTED (R41). -/
def abortTests (s : State) : State :=
  let l := s.stn.tests
  let s := s.modStn fun x => { x with tests := [] }
  l.foldl (fun s r =>
    completeId r.id .aborted 0 0 (forEach r.stones (fun n s => modStone n (fun x => { x with state := .fenced }) s) s)) s

/-! ### The data-plane reset (R41) -/

/-- Every turn ended: its commands complete ABORTED, its sails furl with cause 8, its work is cancelled. -/
def abortTurns (s : State) : State :=
  let s := s.trn.turns.foldl (fun s e =>
    let t := e.1
    let furls := e.2.sails.flatMap fun v => v.2.furlCmds
    let s := (e.2.endCmds ++ furls).foldl (fun s id => completeId id .aborted 0 0 s) s
    let s := modTurn t (fun x => { x with endCmds := [], sails := x.sails.mapVal fun _ v => { v with furlCmds := [] } }) s
    endTurn t 8 .aborted s) s
  s.modTrn fun r => { r with turns := [], leaving := [] }

/-- Items dropped: near-memory work completes ABORTED, and a sweep's record is judged with its counts. -/
def abortItems (s : State) : State :=
  let s := (s.trn.items.map (·.1)).foldl (fun s n =>
    match itemOf s n with
    | some i => (match i.owner with | .nearMem _ => endNearMem n .aborted s | _ => dropItem n s)
    | none => s) s
  s.modTrn fun r => { r with items := [], reserved := none, saveUsed := 0 }

/-- Local requests of the data plane end ABORTED: copies, hopper fills, image loads, check jobs. -/
def abortLocal (s : State) : State :=
  let copies := s.mem.copies.map (·.id)
  let s := copies.foldl (fun s id => completeId id .aborted 0 0 s) (s.modMem fun m => { m with copies := [], arenas := [] })
  let s := s.mem.fills.foldl (fun s f => endFill f.1 { f.2 with failed := some (f.2.failed.getD .aborted) } s) s
  let loads := s.stn.loading.map (·.id)
  let s := loads.foldl (fun s id => completeId id .aborted 0 0 s) (s.modStn fun x => { x with loading := [] })
  let s := forEach (List.range 16) dropEngine s
  s.modWhl fun w => { w with races := w.races.mapVal fun _ r => { r with engineOk := r.engineOk && !r.tcheck, checking := 0 } }

/-- A data-plane reset begins; one already running takes no second one (R35, R37, R41, R42). -/
def startDatReset (code : Nat) (s : State) : State :=
  if s.core.datReset ∨ s.pwr.pll = false then s
  else
    let s := noteCause code (flushKept (256 ≤ ·) s)
    let s := s.modCore fun c => { c with datReset := true, datFatal := decide (code = 0x09) }
    let s := s.modMail fun m => { m with mwToDat := {} }
    let s := abortTurns s
    let s := abortItems s
    let s := abortLocal s
    let s := abortTests s
    let s := settleFences (clearScratch s)
    let s := (s.rdm.qps.map (·.1)).foldl (fun s q => qpError q .aborted .aborted (some .aborted) s) s
    let s := retrainPorts s
    settleVotes (loseCounts s)

/-- The data plane accepts dispatch again: DEVICE_FATAL after a fatal error, then the engines of the open races' TCHECK are
claimed again (R290, R344), gap markers that waited behind lost frames are written, and a granary has its partner promote (R313). -/
def endDatReset (s : State) : State :=
  let s := if s.core.datFatal then eventAll 0x08 0x09 0 s else s
  let s := s.modCore fun c => { c with datReset := false, datFatal := false }
  let s := s.whl.races.foldl (fun s r =>
    if r.2.tcheck then
      modRace r.1 (fun x => { x with engineOk := true }) (modEngine r.2.engine (claimed r.2.fn) s)
    else s) s
  askPromotion (s.whl.races.foldl (fun s r => flushMarkers r.1 (r.2.markers.length + 1) s) s)

/-! ### The control-plane reset (R39, R40, R147) -/

/-- The turn of a sail rebuilt: a sail the gate reports open is set; every other raised sail is furled with cause 6. -/
def rebuildTurns (s : State) : State :=
  s.trn.turns.foldl (fun s e =>
    let t := e.1
    let s := modTurn t (fun x =>
      { x with endCmds := [], sails := x.sails.mapVal fun _ v => { v with raiseCmd := none, furlCmds := [] } }) s
    let s := furlRaised t 6 .aborted s
    let x := turnOf s t
    if x.live then
      modTurn t (fun x => { x with state := if x.sailsIn .set = [] then .listening else .committed }) s
    else s) s

/-- Ready work not yet dispatched: turn-level items are dropped, a set sail's stage stays ready, a sweep goes back to
SWEEP_PENDING and is queued again from its start (R39, R147, R331). -/
def rebuildItems (s : State) : State :=
  let s := s.modTrn fun r => { r with reserved := none }
  (s.trn.items.map (·.1)).foldl (fun s n =>
    match itemOf s n with
    | none => s
    | some i =>
      match i.owner with
      | .turn t => if i.state = .ready ∧ i.saved.isNone then freeTurn t (dropItem n s) else s
      | .sweep _ b =>
        modTally b (fun r => if r.state = .sweeping ∨ r.state = .sweepPending then
          { r with state := .sweepPending, sweepAt := some s.core.t } else r) (dropItem n s)
      | _ => s) s

/-- Every cog evaluated against the wheel table as it stands, with the end of the reset as the trip time (R40). -/
def evalAllCogs (s : State) : State :=
  let l := sortByKey (cogKey s) (s.whl.cogs.map (·.1))
  let s := s.modWhl fun w => { w with dirty := [], late := [] }
  let ev := l.foldl (fun (a : List Nat × State) k =>
    match evalCog k a.2 with
    | (some _, s) => (a.1 ++ [k], s)
    | (none, s) => (a.1, s)) ([], s)
  let s := forEach (s.whl.races.map (·.1)) dryCheck ev.2
  let s := ev.1.foldl (fun s k => issue k s.core.t s) s
  forEach (ev.1.map (· / 16)) (fun r s => if s.whl.races.has r then touch r s else s) s

/-- The Wheelhouse runs again after a control-plane reset. -/
def endCtlReset (s : State) : State :=
  let s := s.modCore fun c => { c with ctlReset := false }
  let s := s.hif.cmds.foldl abortCmd s
  let s := s.modStn fun x => { x with fences := x.fences.map fun w => { w with id := none } }
  let s := rebuildItems (rebuildTurns s)
  settleVotes (if isMill s then evalAllCogs s else s)

/-! ### The warm reset (R37) -/

/-- Region sizes as the features have them, which take effect at a boot and at a warm reset (R164, R188, R197, R320). -/
def regionSizes (s : State) : State :=
  s.modMem fun m =>
    { m with
      sizes :=
        { pt := feature s 0x40 0 256
          save := 1024 * feature s 0x30 0 16
          image := 1024 * feature s 0x41 0 32
          arena := if isMill s then 1024 * feature s 0x42 0 16 else 0
          hot := if isGranary s then 1024 * feature s 0x60 0 128 else 0 } }

/-- What a warm reset clears beside the queue pairs and the commands, and what it keeps (R37). -/
def warmRest (s : State) : State :=
  let s := s.modCore fun c => { c with ctlReset := false, datReset := false, datFatal := false }
  let s := s.modMail fun m => { m with mwToCtl := {}, mwToDat := {} }
  let s := s.modHif fun h =>
    { h with sqs := [], cqs := [], retained := [], rrFast := 0, rrNorm := 0, rrCount := 0, wins := [], ranges := [], freeing := [],
             accept := false }
  let s := s.modUsb fun u => { u with output := [] }
  let s := s.modEvt fun e => { e with mons := [], monSel := 0, elogSel := 0 }
  let s := s.modWhl fun _ => {}
  let s := s.modTrn fun _ => {}
  let s := s.modStn fun x =>
    { x with images := [], chains := [], loading := [], fences := [], tests := [], sel := 0,
             stones := x.stones.mapVal fun _ v => if v.state = .testing then { v with state := .fenced } else v }
  let s := settleFences s
  let s := s.modMem fun m =>
    { m with leafCache := [], walkCache := [], copies := [], drains := [], arenas := [], fills := [], walks := 0, xfaults := 0,
             probeAsid := 0, probeVa := 0, probeStatus := 0, probeE := [0, 0, 0, 0, 0] }
  let s := resetInst 256 (resetInst 257 (clearScratch (flushKept (258 ≤ ·) s)))
  let s := s.modOcp fun o =>
    { o with sel := 0, alarm := 0, inject := 0, injWord := 0, injMask := 0, remapLoad := 0, remapInst := 0 }
  let s := s.modRdm fun _ => {}
  let s := s.modChk fun _ => {}
  let s := s.modGrn fun g =>
    { g with hot := [], hotHit := 0, hotMiss := 0, csel := 0, dsel := 0, nmwBase := 0, nmwCfg := 0, nmwCbase := 0, nmwTail := 0,
             nmwHead := 0, nmwChead := 0, nmwDone := 0, asked := [], mapWaits := [] }
  let s := s.modTly fun y => { y with scan := 0, sel := 0, last := 0, lastTime := 0, arrived := [] }
  let s := loseCounts s
  let s := s.modPwr fun p => { p with doms := p.doms.mapVal fun _ d => { d with host := [], prewake := none, waiters := [] } }
  settleVotes (regionSizes (retrainPorts s))

/-- What a warm reset clears and keeps (R37). -/
def warmClear (s : State) : State :=
  warmRest (clearCmds (forEach (s.rdm.qps.map (·.1)) (fun q s => qpLeft q s) s))

/-- A warm reset of a device that runs (R35, R37). -/
def warmReset (s : State) : State := warmClear (noteCause 0x03 s)

end Sys2Proof.Machine
end

