-- ==== Sys2Proof/Machine/WakeOps.lean ====
section
/-! DEFINITION. Device states, the rail sequencer, wakes and the cold reset (14 R397 to R406, 18 R498 to R505). -/

namespace Sys2Proof.Machine

/-! ### Device states -/

/-- STATE of PWR_STATE (R414); OFF by its target code, and 7 where nothing can be read. -/
def DevState.code : DevState → Nat
  | .run => 0
  | .idle => 1
  | .sleep => 2
  | .deepSleep => 3
  | .off => 4
  | .entering => 5
  | .exiting => 6
  | .wakeFailed => 7

/-- TARGET of POWER_STATE (R397). -/
def Target.code : Target → Nat
  | .run => 0
  | .sleep => 2
  | .deepSleep => 3
  | .off => 4

/-- A device state entered, with POWER_STATE_CHANGED (R413). -/
def enterState (st : DevState) (s : State) : State := raisePf 0xD001 0 st.code (s.modPwr fun p => { p with state := st })

/-- Ports train in their mode and voted domains wake, as the device comes back to RUN (R264, R387, R401). -/
def restorePorts (s : State) : State := settleVotes (retrainPorts s)

/-- Entry abandoned: the device stays in RUN (R400). -/
def abandonEntry (s : State) : State :=
  let back := s.pwr.entry.any (fun e => e.fromSleep) && decide (s.pwr.state = .entering)
  let s := noteLevels (·.modPwr fun p =>
    { p with state := if p.state = .entering then .run else p.state, target := .run, entry := none }) s
  let s := s.modMwr fun m => if m.wfiMode = 2 then { m with wfi := false } else m
  let s := raisePf 0xD001 0 0xFF s
  if back then restorePorts s else s

/-! ### Budget and flash as a cold reset reads them (R1, R6, R427, R464) -/

/-- The value in force of a budgeted setting: the last slot whose programming verified (R16). -/
def inForce (l : List BudSlot) : Option Nat := ((l.filter fun b => b.ok).getLast?).map (·.value)

/-- The role of a role slot. -/
def roleOf (v : Option Nat) : Role :=
  match v with
  | some 1 => .mill
  | some 2 => .granary
  | _ => .invalid

/-- A cold boot runs the fill of R6. -/
def needsFill (s : State) : Bool :=
  decide (s.core.role = .mill ∨ s.core.role = .granary) && decide (s.store.cleared ≠ some ⟨s.core.role, true⟩)

/-! ### DDR5 training (R189) -/

/-- The pair as training leaves it, beside the lowest-numbered populated one. -/
def trainPair (mill : Bool) (first : Option PairPop) (x : PairPop) : Pair :=
  let dimm := x.even.headD (0, 0)
  let ok := x.std && decide (x.even = x.odd) && decide (x.even.length ≤ 2) && x.even.all (fun d => decide (d = dimm)) &&
    decide (dimm.1 ≤ 4) && (!mill || (match first with | some f => decide (f.even = x.even) && decide (f.odd = x.odd) | none => true))
  let reason := if !ok then 2 else if !x.trains then 1 else 0
  if x.even = [] ∧ x.odd = [] then {}
  else
    { state := if reason = 0 then .up else .down, dpc := x.even.length, gib := dimm.1, reason, refused := decide (reason ≠ 0) }

/-- DDR_PAIR_DOWN for every pair that training refused (R189, R211). -/
def reportPairs (s : State) : State :=
  (s.mem.pairs.filter fun e => e.2.refused).foldl (fun s e => raisePf 0x6003 e.1 e.2.reason s) s

/-- Training at a cold reset: a pair that breaks a rule is disabled and reported as DDR_PAIR_DOWN. -/
def trainDdr (pop : List PairPop) (s : State) : State :=
  let pop := pop.take 8
  let first := pop.find? fun x => !(x.even.isEmpty && x.odd.isEmpty)
  let pairs := (pop.map (trainPair (isMill s) first)).zipIdx.map fun e => (e.2, e.1)
  let pairs := pairs.filter fun e => decide (e.2.state ≠ .absent)
  let slow := pop.any fun x => decide (2 ≤ x.even.length ∨ 2 ≤ x.odd.length)
  reportPairs (s.modMem fun m => { m with pairs, slow })

/-- The same population trained again at a cold reset that no rise of VDD_AO_IN makes; a pair that a fault took down, or whose
fill was cut short, stays down until a BIST fill (R192). -/
def retrainPair (q : Pair) : Pair := { q with state := if q.state = .up then .up else .down, ce := 0 }

/-! ### The cold reset (R35, R37) -/

/-- An interlock as its contacts stand when the AO logic starts: a contact out of its healthy position counts as having
just left it (R457). -/
def Ilk.start (anti : Bool) (now : Nat) (i : Ilk) : Ilk :=
  let x := i.a
  let y := i.b != anti
  { i with since := now, state := if x && y then .healthy else if x || y then .discrepant else .open_ }

/-- The brake path after a cold reset: set with inhibit, and a new settle window; its sets and records keep their values
unless VDD_AO_IN was lost or the AO regulator browned out (R37, R453, R461, R464, R473). -/
def coldBrake (aoLost : Bool) (s : State) : Brk :=
  let cls := (inForce s.store.brake).getD 0
  let b := s.brk
  let cfg : BrkCfg := if aoLost then {} else b.act
  let ilks := b.ilks.mapVal fun k i => i.start (bit cfg.cfg0 (28 + k)) s.core.t
  if aoLost then
    { cls, settle := some s.core.t, blankIn := b.blankIn, present := b.present, hsFault := b.hsFault, ilks }
  else
    { act := b.act, pend := b.pend, cls, settle := some s.core.t, ilks
      tripLast := b.tripLast, tripTime := b.tripTime, trips := b.trips, holds := b.holds, refused := b.refused
      blankIn := b.blankIn, present := b.present, hsFault := b.hsFault, log := b.log }

/-- The golden slot after an interrupted copy: its body is not whole. -/
def Store.interrupted (m : Mwr) (t : Store) : Store :=
  { t with golden := if m.copying.isSome then { t.golden with hash := false } else t.golden, goldenWp := true }

/-- The whole device started anew, with the cold reset's cause put into the record when it has one (R37, R44): what survives is
the budget and the flashes, the AO records, the pins and the memory population. -/
def coldStart (aoLost : Bool) (cause : Option Nat) (s : State) : State :=
  let store := Store.interrupted s.mwr s.store
  let p := s.pwr
  let causes := match cause with
    | some c => pushLast 16 s.core.causes { code := c, time := aoTicks s, ticks := true }
    | none => s.core.causes
  { State.reset with
    core := { t := s.core.t, role := roleOf (inForce store.role), member := inForce store.member, causes }
    store
    usb := { attached := s.usb.attached }
    mwr := { resetAt := s.core.t, cause := (causes.getLast?.map (·.code)).getD 1 }
    dom := { key := s.dom.key, seq := s.dom.seq, stored := s.dom.stored, inc := s.dom.inc }
    mem := { pairs := s.mem.pairs.mapVal fun _ q => retrainPair q, slow := s.mem.slow }
    brk := coldBrake aoLost s
    ocp := Ocp.fresh s.core.t
    pwr :=
      { state := .exiting, cold := true, wait := .pg 0, waitAt := s.core.t,
        railEn := [true, false, false, false, false, false, false, false],
        perst := p.perst, xtalAo := p.xtalAo, wakeTimer := p.wakeTimer, wakeSrc := p.wakeSrc, wakeValid := p.wakeValid,
        wakeFromOff := p.wakeFromOff, wakeTime := p.wakeTime, failCause := p.failCause, failEntered := p.failEntered,
        failCount := p.failCount, waking := p.waking }
    out := s.out
    freeCtr := s.freeCtr
    pending := s.pending }

/-- A cold reset: the device starts anew, and training reports the pairs it refuses (R37, R189). -/
def coldReset (aoLost : Bool) (cause : Option Nat) (s : State) : State := reportPairs (coldStart aoLost cause s)

/-- VDD_AO_IN rises: the AO domain starts with nothing but what the board and the flashes hold (R37, R44). -/
def powerOn (pop : List PairPop) (s : State) : State :=
  let s' := coldStart true none { s with
    core := { State.reset.core with t := 0, causes := [⟨0x01, 0, true⟩] }
    pwr := { perst := s.pwr.perst }
    mwr := { copying := s.mwr.copying } }
  trainDdr pop s'

/-- A warm reset that a wake left to be done follows it (R402). -/
def thenWarm (s : State) : State :=
  if s.pwr.warmAfter then warmReset (s.modPwr fun p => { p with warmAfter := false }) else s

/-- The budget is read and the device comes up: ROLE_STAT shows the role, or the fill begins (R6, R7, R35); a wake from OFF
is told (R403, R413). -/
def broughtUp (s : State) : State :=
  let fill := needsFill s
  let tries := s.pwr.tries
  let s := noteLevels (·.modPwr fun p =>
    { p with pll := true, wait := .idle, state := .run, target := .run, cold := false, tries := 0, endpoint := !p.perst }) s
  let s := s.modCore fun c => { c with fill, roleStat := if fill then .none else c.role }
  let s := s.modHif fun h => { h with accept := true }
  let s := s.modGrn fun g => { g with ready := isGranary s && !fill }
  let s := regionSizes s
  let s := if layoutPairs s = [] then s else modPdom 25 (fun d => { d with level := .retain, agent := isGranary s }) s
  let s := if s.pwr.waking then
      raisePf 0xD002 0 (s.pwr.wakeSrc + bits tries 1 0 * 2 ^ 8) (raisePf 0xD001 0 0 (s.modPwr fun p => { p with waking := false }))
    else s
  settleVotes s

/-- The cold bring-up ends. -/
def finishCold (s : State) : State := thenWarm (broughtUp s)

/-! ### The sequencer (R404, R498, R499) -/

/-- An element of a list of rails set. -/
def setRail (l : List Bool) (n : Nat) (v : Bool) : List Bool := l.set n v

/-- An attempt begins: from OFF with RAIL_EN_0, from DEEP_SLEEP with VDD_CORE. -/
def beginAttempt (s : State) : State :=
  s.modPwr fun p =>
    let n := if p.cold then 0 else 2
    { p with state := .exiting, aoLow := false, wakeFailN := false, firstRail := n, railEn := setRail p.railEn n true,
             wait := .pg n, waitAt := s.core.t }

/-- No rail. -/
def noRails : List Bool := [false, false, false, false, false, false, false, false]

/-- The highest enabled rail below a bound and not below the lowest to go. -/
def topRail (l : List Bool) (low high : Nat) : Option Nat :=
  ((List.range high).filter fun n => decide (low ≤ n) && l.getD n false).getLast?

/-- The next enable, in reverse index order, deasserted, or the removal ended (R499). -/
def dropNext (low high now : Nat) (p : Pwr) : Pwr :=
  match topRail p.railEn low high with
  | none => { p with falling := none }
  | some n => { p with railEn := setRail p.railEn n false, falling := some (n, low, now) }

/-- The removal goes on when the PG of the enable that fell last is low, or 1 ms after it (R499). -/
def railsFall (now : Nat) (p : Pwr) : Pwr :=
  match p.falling with
  | none => p
  | some (n, low, since) => if p.railPg.getD n false = false ∨ since + ms 1 ≤ now then dropNext low n now { p with railPg := setRail p.railPg n false } else p

/-- 100 µs after a RAIL_PG of a bring-up the next enable is asserted (R498). -/
def nextRail (now : Nat) (p : Pwr) : Pwr :=
  match p.wait with
  | .gap n => if p.waitAt + us 100 ≤ now then { p with railEn := setRail p.railEn n true, wait := .pg n, waitAt := now } else p
  | _ => p

/-- The rails of an attempt removed (R499); those a DEEP_SLEEP keeps stay (R404). -/
def removeRails (s : State) : State :=
  s.modPwr fun p =>
    if p.firstRail = 0 then dropNext 0 8 s.core.t { p with xtal := false, pll := false }
    else dropNext 2 3 s.core.t { p with pll := false }

/-- Every rail is gone, and with it what no AO record, budget or flash holds: the next start is a cold reset (R400, R499).
VDD_IO goes too, and with it the valves and slots (R407, R458). -/
def loseRails (s : State) : State :=
  let s := s.modPwr fun p =>
    dropNext 0 8 s.core.t { p with
      xtal := false, pll := false, cold := true, endpoint := false, aoLow := true, boost := false, grant := none, entry := none
      wait := .idle }
  let s := s.modCore fun c => { c with timeValid := false, roleStat := .none, fill := false }
  let s := s.modHif fun h => { h with accept := false }
  let s := s.modMwr fun m => { m with st := .reset, wfi := false }
  s.modBrk fun b => { b with valves := [], slots := [], deferOrder := [] }

/-- WAKE_FAILED entered with a cause of R404: WAKE_FAIL_N goes low. -/
def wakeFailed (cause : Nat) (s : State) : State :=
  s.modPwr fun p =>
    { p with state := .wakeFailed, wait := .idle, aoLow := true, failCause := cause, failEntered := true, wakeFailN := true }

/-- A wait of an attempt expires: one pause and one repeat, then WAKE_FAILED (R404). -/
def failAttempt (cause : Nat) (s : State) : State :=
  let s := removeRails s
  let s := s.modPwr fun p => { p with failCause := cause, failCount := sat 15 (p.failCount + 1), tries := p.tries + 1 }
  if s.pwr.tries = 1 then s.modPwr fun p => { p with wait := .pause, waitAt := s.core.t }
  else wakeFailed cause s

/-! ### Wakes (R402, R403) -/

/-- The last wake source record written. -/
def recordWake (code : Nat) (s : State) : State :=
  s.modPwr fun p =>
    { p with wakeSrc := code, wakeTime := stamp s % 2 ^ (if s.core.timeValid then 64 else 48), wakeValid := s.core.timeValid,
             wakeFromOff := decide (p.state = .off) || p.cold, target := .run }

/-- Back in RUN from SLEEP or DEEP_SLEEP: the wake is told, ports train in their mode, voted domains wake (R401, R413). -/
def backToRun (s : State) : State :=
  let s := if s.pwr.entry.isSome then raisePf 0xD001 0 0xFF s else s
  let s := noteLevels (enterState .run) (s.modPwr fun p => { p with wait := .idle, entry := none, target := .run })
  let s := raisePf 0xD002 0 (s.pwr.wakeSrc + bits s.pwr.tries 1 0 * 2 ^ 8) s
  restorePorts (s.modPwr fun p => { p with tries := 0, waking := false })

/-- The device woken from DEEP_SLEEP: the Millwright resumes. -/
def woken (s : State) : State :=
  let s := s.modPwr fun p => { p with pll := true, endpoint := !p.perst }
  let s := s.modMwr fun m => { m with wfi := false, kickAt := s.core.t, hbSeen := s.core.t, whlAt := s.core.t }
  let s := s.modHif fun h => { h with accept := true }
  backToRun s

/-- Exit from DEEP_SLEEP ends with the PLL lock: the warm reset of a PERST_N wake follows. -/
def finishWake (s : State) : State := thenWarm (woken s)

/-- A new attempt that a wake starts: a cold reset where every rail is gone, a return from DEEP_SLEEP otherwise. -/
def startExit (s : State) : State :=
  let s := s.modPwr fun p => { p with tries := 0, waking := true, wakeFailN := false }
  if s.pwr.state = .off ∨ s.pwr.cold then coldReset false none s else beginAttempt s

/-- A wake of a source as the device state meets it. -/
def wake (code : Nat) (s : State) : State :=
  if s.pwr.aoIn = false then s
  else
    match s.pwr.state with
    | .idle => idleExit s
    | .run => if s.pwr.entry.isSome then abandonEntry s else s
    | .entering =>
      if s.pwr.entry.any fun e => e.committed then
        s.modPwr fun p => { p with entry := p.entry.map fun e => { e with wake := some (e.wake.getD code) } }
      else abandonEntry s
    | .sleep => backToRun (recordWake code s)
    | .deepSleep | .off => startExit (recordWake code s)
    | .exiting => s
    | .wakeFailed => if code = 1 then startExit (recordWake code s) else s

/-- A bus of the management plane wakes the device from SLEEP and DEEP_SLEEP only (R402). -/
def wakesMgt (s : State) : Bool := decide (s.pwr.state ≠ .off)

end Sys2Proof.Machine
end

