-- ==== Sys2Proof/Machine/MwOps.lean ====
section
/-! DEFINITION. The Millwright: its boot, its reset, the journal, and how it takes messages from its queues (15; 01 R38,
R43). -/

namespace Sys2Proof.Machine

/-! ### The queues -/

/-- The next message of CTL_TO_MW that the Millwright has not taken: a command stays in the queue until it is completed
(R431), and a restarted firmware drains DAT_TO_MW first (R418). -/
def ctlNext (s : State) : Option Msg :=
  if s.mwr.draining ∧ s.mail.datToMw.front.isSome then none
  else
    s.mail.ctlToMw.items.find? fun m =>
      match m with
      | .command id => (findCmd s id).any fun c => decide (c.phase = .mailbox)
      | m => m.asks

/-- A message taken out of CTL_TO_MW, with the markers read before it. -/
def takeCtl (m : Msg) (s : State) : State :=
  s.modMail fun q =>
    { q with
      ctlToMw :=
        { q.ctlToMw with
          items := ((q.ctlToMw.items.takeWhile fun x => x ≠ m).filter Msg.asks) ++ (q.ctlToMw.items.dropWhile fun x => x ≠ m).drop 1 } }

/-- The front message of DAT_TO_MW taken; with the last one a restart's draining ends. -/
def takeDat (s : State) : State :=
  let s := s.modMail fun q => { q with datToMw := q.datToMw.pop }
  s.modMwr fun m => { m with draining := m.draining && s.mail.datToMw.front.isSome }

/-! ### Boot (R419 to R422) -/

/-- The first of two pointer records is the newer, modulo 2^32 within a span of 2^31. -/
def Pointer.newer (a b : Pointer) : Bool := decide ((a.seq + 2 ^ 32 - b.seq) % 2 ^ 32 < 2 ^ 31)

/-- The pointer record in force. -/
def Store.ptr (t : Store) : Option Pointer :=
  match t.ptrA, t.ptrB with
  | some a, some b => if a.newer b then some a else some b
  | some a, none => some a
  | none, b => b

/-- The primary's active slot. -/
def Store.active (t : Store) : Nat := match t.ptr with | some p => p.slot | none => 0

/-- The image of a slot of the primary. -/
def Store.slot (t : Store) (n : Nat) : FwImage := if n = 1 then t.slot1 else t.slot0

/-- The state with the image of a slot changed. -/
def Store.setSlot (t : Store) (n : Nat) (i : FwImage) : Store := if n = 1 then { t with slot1 := i } else { t with slot0 := i }

/-- A pointer record written over the invalid or older one, naming a slot (R424). -/
def Store.point (t : Store) (slot : Nat) : Store :=
  let p : Pointer := ⟨((match t.ptr with | some p => p.seq | none => 0) + 1) % 2 ^ 32, slot⟩
  match t.ptrA, t.ptrB with
  | none, _ => { t with ptrA := some p }
  | some _, none => { t with ptrB := some p }
  | some a, some b => if a.newer b then { t with ptrB := some p } else { t with ptrA := some p }

/-- The anti-rollback security version in force. -/
def svnInForce (s : State) : Nat := (inForce s.store.svn).getD 0

/-- The result code of an image (R421). -/
def bootCode (svn : Nat) (i : FwImage) : Nat :=
  if !i.readable then 7
  else if !(i.magic && i.header) then 2
  else if !i.key then 3
  else if !i.sig then 4
  else if !i.hash then 5
  else if i.svn < svn then 6
  else 0

/-- The result code of the primary's active slot. -/
def judgePrimary (svn : Nat) (t : Store) : Nat :=
  if t.ptr.isNone && t.slot0.readable && !t.slot0.magic then 1 else bootCode svn (t.slot t.active)

/-- The version of an image, as Mwr holds it. -/
def imgVer (i : FwImage) : Nat := i.patch % 2 ^ 16 + i.minor % 2 ^ 16 * 2 ^ 16 + i.major % 2 ^ 16 * 2 ^ 32

/-- The outcome of a command whose journal entry is STARTED (R431). -/
def startedOutcome (s : State) (j : Journal) (c : Cmd) : Option Status :=
  if c.op = .budgetWrite ∧ j.attempts < s.store.attempts.length then (s.store.attempts.getLast?).map (·.outcome)
  else if c.op = .fwUpdate ∧ (s.store.ptr.map (·.seq)) ≠ j.ptr then some .success
  else none

/-- The block code of the Millwright's own failures in the error log. -/
def mwErr (code : Nat) : Err := { sev := 2, source := 0x0D, plane := 2, code }

/-- The journal settled at a restart: the command in it is completed and not executed again (R431). -/
def settleJournal (s : State) : State :=
  match s.mwr.journal with
  | none => s
  | some j =>
    let s' := match findCmd s j.id with
      | none => s
      | some c =>
        match j.done with
        | some k => completeK c k s
        | none =>
          match startedOutcome s j c with
          | some .internal | none => failInternal c.id (mwErr (Config.blockCode 7)) s
          | some st => complete c st 0 0 s
    s'.modMwr fun m => { m with journal := none }

/-- The boot ROM's choice: the primary's active slot, golden slot 0, or recovery. -/
def bootMw (s : State) : State :=
  let svn := svnInForce s
  let p := judgePrimary svn s.store
  let g := if p = 0 then 0xF else bootCode svn s.store.golden
  let st : MwState := if p = 0 then .primary else if g = 0 then .golden else .recovery
  let img := if p = 0 then s.store.slot s.store.active else s.store.golden
  s.modMwr fun m =>
    { m with
      st, primary := p, golden := g, slot := s.store.active, bootAt := s.core.t
      svn := if st = .recovery then 0 else img.svn
      fwVer := if st = .recovery then 0 else imgVer img
      kickAt := s.core.t, hbSeen := s.core.t, hbLost := false, heartbeat := 0 }

/-! ### The management-plane reset (R38, R43, R418) -/

/-- A forwarded command goes back to its place in CTL_TO_MW unless its completion is posted. -/
def Cmd.requeued (c : Cmd) : Cmd := if c.viaMw && decide (c.phase ≠ .mwDone) then { c with phase := .mailbox, stallAt := none } else c

/-- A management-plane reset begins; one already running takes no second one. -/
def startMgtReset (code : Nat) (s : State) : State :=
  if s.mwr.st = .reset then s
  else
    let s := resetInst 259 (setHoldover (noteCause code (flushKept (· ≠ 259) s)))
    let s := s.modStore (Store.interrupted s.mwr)
    let s := s.modHif fun h => { h with cmds := h.cmds.map Cmd.requeued }
    let s := s.modBrk fun b =>
      { b with
        valves := b.valves.mapVal fun _ v => { v with waiters := [] }
        slots := b.slots.mapVal fun _ v => { v with waiters := [] } }
    noteLevels (·.modMwr fun m =>
      { lockCount := m.lockCount, lockClass := m.lockClass, wdtExpiries := m.wdtExpiries, journal := m.journal
        st := .reset, resetAt := s.core.t, cause := code, coldBoot := m.coldBoot, steward := m.steward, self := m.self
        whlSeq := m.whlSeq, whlAt := m.whlAt, draining := true
        pos := m.pos.mapVal fun _ p => { attempts := p.attempts, presentAt := p.presentAt } }) s

/-- A plane-fatal error of the management plane: its record, then the reset (R491). -/
def mgtFatal (code : Nat) (s : State) : State :=
  startMgtReset code (noteFatal code (logError { mwErr 0xE001 with sev := 3, detail := code } s))

end Sys2Proof.Machine
end

