-- ==== Sys2Proof/Machine/Millwright.lean ====
section
/-! DEFINITION. The Millwright's restarts, watchdog and messages, firmware update and budgeted settings (15; 00 R14 to R17;
01 R31, R32, R43). -/

namespace Sys2Proof.Machine

/-! ### Restart, lockstep, watchdog (R416 to R418, R422) -/

/-- The firmware's first run since a cold reset: stewardship, the incarnation count and the stored join (R359, R366, R434). -/
def firstBoot (s : State) : State :=
  if s.mwr.coldBoot = false then s
  else
    let enabled := decide (inForce s.store.steward = some 1)
    let s := s.modMwr fun m => { m with coldBoot := false, steward := s.pwr.strap && enabled }
    let s := if s.pwr.strap && !enabled then raisePf 0xE007 0 0 s else s
    applyStored (s.modDom fun d => { d with inc := d.inc + 1 })

/-- The cleared-role record, when a fill ended while the firmware did not run or the flashes were released (R6, R436). -/
def settleCleared (s : State) : State :=
  if needsFill s ∧ s.core.fill = false ∧ s.core.roleStat = s.core.role ∧ flashReleased s = false then
    s.modStore fun t => { t with cleared := some ⟨s.core.role, true⟩ }
  else s

/-- The boot ROM judges the images, and firmware or recovery mode runs. -/
def execMwRestart (s : State) : Out :=
  onEvent (decide (s.mwr.st = .reset) && s.pwr.pll) s fun s =>
    let cold := s.mwr.coldBoot
    let s := bootMw s
    if s.mwr.st = .recovery then emit .ibi (settleJournal s)
    else
      let s := if cold then s else raisePf 0xE001 0 s.mwr.cause s
      let s := if s.mwr.st = .golden then emit .ibi (raisePf 0xE002 0 s.mwr.primary s) else s
      settleCleared (firstBoot (settleJournal s))

/-- One second after both images fail, SPI_MW_* goes to high impedance. -/
def execRecoverySpiRelease (s : State) : Out :=
  onEvent (decide (s.mwr.st = .recovery) && !s.mwr.spiFloat && passed s s.mwr.bootAt (sec 1)) s fun s =>
    s.modMwr fun m => { m with spiFloat := true }

/-- The cores are powered: neither in reset nor in the WFI of mode 2. -/
def coresOn (s : State) : Bool := decide (s.mwr.st ≠ .reset) && !s.mwr.halted && !(s.mwr.wfi && decide (s.mwr.wfiMode = 2))

/-- The two cores differ, first in an output of a class. -/
def execLockstepMismatch (cls : Nat) (s : State) : Out :=
  onEvent (coresOn s && decide (1 ≤ cls ∧ cls ≤ 7)) s fun s =>
    mgtFatal 0x0A (s.modMwr fun m => { m with lockCount := sat 0xFFFF (m.lockCount + 1), lockClass := cls })

/-- The watchdog has not been restarted for its period. -/
def execWatchdogExpiry (s : State) : Out :=
  onEvent (s.mwr.booted && passed s s.mwr.kickAt (ms s.mwr.wdtMs)) s fun s =>
    mgtFatal 0x0B (s.modMwr fun m => { m with wdtExpiries := sat 0xFFFF (m.wdtExpiries + 1) })

/-- The firmware writes MWR_WDT_KICK. -/
def execWatchdogKick (val : Nat) (s : State) : Out :=
  onMw (decide (val = 0xC0DE0001)) s fun s => s.modMwr fun m => { m with kickAt := s.core.t }

/-! ### Messages (R429 to R432) -/

/-- A command makes a durable change (R431): a budget slot, a pointer record, a golden erase, a stored sequence number. -/
def Cmd.durable (c : Cmd) : Bool :=
  decide (c.op = .budgetWrite) || (decide (c.op = .fwUpdate) && decide (fld c.pkt 2 1 0 = 2)) || decide (pktAuth c.pkt = 3)

/-- The opcodes that the ROM's recovery mode executes (R422). -/
def recoveryOpcode (op : Opc) : Bool := [Opc.nop, .identify, .fwUpdate].contains op

/-- The envelope of a DOMAIN_ADMIN command checked against the admin key, and its sequence number stored; DOMAIN_JOIN
brings its own key and is checked by its row (R51, R52, R359). -/
def verifyAdmin (c : Cmd) (s : State) : State :=
  let go (s : State) : State := updCmd c.id (fun c => { c with phase := .ready }) s
  if pktAuth c.pkt ≠ 3 ∨ c.op = .domainJoin then go s
  else
    match s.dom.key, c.env with
    | some k, some e =>
      checks [(!envelopeOk s k c, refuse c 5 0), (!envelopeNew s c, refuse c 6 0), busy (flashReleased s) 1000 c]
        (fun s =>
          let s := s.modDom fun d => { d with seq := e.seq }
          match lateRefusal s c.fn (cmdFast s c) c.pkt c.op with
          | some (r, r2) => refuse c r r2 s
          | none => go s) s
    | _, _ => refuse c 5 0 s

/-- The Millwright takes the next forwarded command of CTL_TO_MW. -/
def execMwForwardedCommand (s : State) : Out :=
  match ctlNext s with
  | some (.command id) =>
    match findCmd s id with
    | none => .next s
    | some c =>
      onEvent (s.mwr.serves && !(c.durable && s.mwr.journal.isSome)) s fun s =>
        let s := if s.mwr.running then mwAct s else s
        if s.mwr.st = .recovery ∧ recoveryOpcode c.op = false then refuse c 10 8 (logRefused c .notPermitted s)
        else
          let s := if c.durable then
              s.modMwr fun m => { m with journal := some { id, done := none, attempts := s.store.attempts.length,
                                                           ptr := s.store.ptr.map (·.seq) } }
            else s
          verifyAdmin c s
  | _ => .next s

/-- A completion the Millwright posted reaches the submitter, or becomes a retained record. -/
def takeCompletion (id : CmdId) (k : Completion) (s : State) : State :=
  match findCmd s id with
  | some c => deliver c k s
  | none => s

/-- The control plane takes a completion from MW_TO_CTL. -/
def execForwardedCompletion (s : State) : Out :=
  onCtlMail (fun m => match m with | .completion id k => some (takeCompletion id k) | _ => none) s

/-- The Wheelhouse's heartbeat falls due. -/
def execWhlHeartbeatSend (s : State) : Out :=
  onEvent (monsOn s && !s.core.ctlReset && passed s s.mwr.whlAt (ms 10)) s fun s =>
    let s := tellMw (.heartbeat s.mwr.whlSeq s.whl.races.length (s.trn.turns.filter fun e => e.2.state ≠ .free).length s.hif.cmds.length) s
    s.modMwr fun m => { m with whlSeq := (m.whlSeq + 1) % 2 ^ 32, whlAt := s.core.t }

/-- The Millwright takes a heartbeat. -/
def execWhlHeartbeatReceive (s : State) : Out :=
  match ctlNext s with
  | some (.heartbeat n r t c) =>
    onMw true s fun s =>
      (takeCtl (.heartbeat n r t c) s).modMwr fun m => { m with hbSeen := s.core.t, hbSeq := n, hbLost := false }
  | _ => .next s

/-- No heartbeat for 100 ms. -/
def execCtlHeartbeatLost (s : State) : Out :=
  onMw (!s.mwr.hbLost && passed s (max s.mwr.hbSeen s.mwr.bootAt) (ms 100)) s fun s =>
    let s := raisePf 0xE008 0 s.mwr.hbSeq (s.modMwr fun m => { m with hbLost := true })
    if s.mwr.resetOnLoss then startCtlReset 0x05 s else s

/-- The servo's adjustment reaches the domain time counter: a step, the rate it runs at from now on, the estimated offset,
whether the servo is locked to a master (R43, R372, R374). -/
def adjustTime (delta rate offset : Int) (synced : Bool) (s : State) : State :=
  let s := s.modCore fun c =>
    { c with time := ofSigned 64 ((c.time : Int) + delta), rate, timeValid := c.timeValid || synced, holdover := false }
  judgeTime (s.modDom fun d =>
    { d with holdAt := none, holdLong := false, offset, synced, everSynced := d.everSynced || synced })

/-- A domain time adjustment: the servo posts it, or it reaches the counter through MW_TO_CTL (R43). -/
def execDomainTimeAdjustment (servo : Option ServoStep) (offset : Int) (synced : Bool) (s : State) : Out :=
  match servo with
  | some v => onPost true (postCtl (.timeAdjust v.delta v.rate offset synced)) s
  | none => onCtlMail (fun m => match m with | .timeAdjust d r o b => some (adjustTime d r o b) | _ => none) s

/-- The Millwright takes an error record or an event copy from DAT_TO_MW. -/
def execErrorRecordMessage (s : State) : Out :=
  onMw (match s.mail.datToMw.front with | some (.errorRecord _) => true | _ => false) s takeDat

/-- The Millwright takes a plane-fatal notice. -/
def execPlaneFatalNotice (s : State) : Out :=
  onMw (match s.mail.datToMw.front with | some (.planeFatal _) => true | _ => false) s takeDat

/-- A sensor request: check or port logic posts one, or the Millwright takes one. -/
def execSensorRequest (post : Bool) (s : State) : Out :=
  if post then
    onEvent (s.pwr.up && !s.core.datReset) s (tellMwDat .sensorRequest)
  else onMw (decide (s.mail.datToMw.front = some .sensorRequest)) s takeDat

/-! ### Firmware update (R420 to R424) -/

/-- A firmware image as the bytes of a slot spell it. -/
def parseImage (l : List Byte) : FwImage :=
  let n := num l 0x14 4
  let body := slice l 0x200 n
  let key := (ofBe (slice l 0x50 48), ofBe (slice l 0x80 48))
  let zero (off k : Nat) : Bool := decide (num l off k = 0)
  { magic := decide (slice l 0 4 = [0x4D, 0x57, 0x46, 0x49])
    header := decide (num l 4 2 = 1) && zero 6 2 && zero 0xE 2 && zero 0x1C 4 && zero 0x110 240 && decide (4096 ≤ n ∧ n ≤ 1572864)
    key := decide (Config.sha384 (slice l 0x50 96) = Config.fwKeyDigest)
    sig := verifies key (slice l 0 0xB0) (ofBe (slice l 0xB0 48)) (ofBe (slice l 0xE0 48))
    hash := decide (body.length = n) && decide (sha384Bytes body = slice l 0x20 48)
    svn := num l 0x10 4, major := num l 8 2, minor := num l 0xA 2, patch := num l 0xC 2 }

/-- FW_UPDATE with an OP and, for a COMMIT, its GOLDEN; STAGE's row answers the reserved OP. -/
def fwUpdate (op : Nat) (golden : Option Bool) (id : CmdId) (s : State) (k : Cmd → State → State) : Out :=
  onCmd .fwUpdate id s fun c s =>
    let o := fld c.pkt 2 1 0
    if (o ≠ op ∧ !(o = 0 ∧ op = 1)) ∨ (golden.any fun g => decide (g ≠ fbit c.pkt 2 2)) then s
    else checks [fields c [(decide (o = 0), 8), rsv c.pkt 2 31 4]] (k c) (if s.mwr.running then mwAct s else s)

/-- The staging session belongs to another carrier or function. -/
def otherSession (s : State) (c : Cmd) : Bool := s.mwr.staging.any fun g => decide (g.owner ≠ c.id.origin)

/-- FW_UPDATE STAGE: the chunk, taken with the command, is programmed into the staging slot and read back. -/
def execFwStage (id : CmdId) (s : State) : Out :=
  fwUpdate 1 none id s fun c s =>
    let off := dw c.pkt 3
    let len := dw c.pkt 4
    checks [
      fields c [(decide (off % 4096 ≠ 0), 12), (decide (len = 0 ∨ 4096 < len), 16)],
      busy (flashReleased s) 1000 c,
      busy (otherSession s c) 1000 c,
      bad (decide (off ≠ 0 ∧ (match s.mwr.staging with | some g => g.image.length | none => 0) ≠ off) || decide (0x200000 < off + len)) 12 c]
      (fun s =>
        let old := if off = 0 then [] else match s.mwr.staging with | some g => g.image | none => []
        let image := old ++ (c.input ++ List.replicate len 0).take len
        let s := s.modMwr fun m => { m with staging := some { owner := c.id.origin, image } }
        succeed c (s.modStore fun t => t.setSlot (1 - t.active) (parseImage image))) s

/-- A staged image that fails its judgement: the session ends (R424). -/
def commitFails (c : Cmd) (code : Nat) (s : State) : State :=
  let s := s.modMwr fun m => { m with staging := none }
  match code with
  | 2 | 3 => complete c .invalidField 8 code s
  | 4 | 5 => complete c .integrity 0 (code * 2 ^ 8) s
  | 6 => complete c .versionMismatch 0 (svnInForce s) s
  | _ => failInternal c.id (mwErr (Config.blockCode 5)) s

/-- FW_VERSION as COMMIT's RESULT gives it. -/
def imgResult (i : FwImage) : Nat := i.patch % 2 ^ 8 + i.minor % 2 ^ 8 * 2 ^ 8 + i.major % 2 ^ 16 * 2 ^ 16

/-- FW_VERSION in 24 bits, as MWR_FW_VER and FW_COMMITTED have it. -/
def imgVer24 (i : FwImage) : Nat := i.patch % 2 ^ 8 + i.minor % 2 ^ 8 * 2 ^ 8 + i.major % 2 ^ 8 * 2 ^ 16

/-- A COMMIT that has succeeded in recovery mode, or with ACTIVATE, restarts the management plane (R422, R424). -/
def afterCommit (activate : Bool) (s : State) : State :=
  if activate ∨ s.mwr.st = .recovery then startMgtReset 0x0D s else s

/-- COMMIT of either kind: the session's image is judged, and k installs one that passes. -/
def fwCommit (golden : Bool) (id : CmdId) (s : State) (k : Cmd → FwImage → State → State) : Out :=
  fwUpdate 2 (some golden) id s fun c s =>
    let image := match s.mwr.staging with | some g => g.image | none => []
    let img := parseImage image
    let code := bootCode (svnInForce s) img
    checks [
      busy (flashReleased s) 1000 c,
      busy (otherSession s c) 1000 c,
      bad (s.mwr.staging.isSome && decide (dw c.pkt 4 ≠ image.length)) 16 c,
      (decide (code ≠ 0), commitFails c code)]
      (fun s => k c img (s.modMwr fun m => { m with staging := none })) s

/-- FW_UPDATE COMMIT to the primary. -/
def execFwCommit (id : CmdId) (s : State) : Out :=
  fwCommit false id s fun c img s =>
    let s := s.modStore fun t => (t.setSlot (1 - t.active) img).point (1 - t.active)
    let s := raisePf 0xE003 0 (imgVer24 img * 2 ^ 8) s
    afterCommit (fbit c.pkt 2 3) (complete c .success (imgResult img) 0 s)

/-- FW_UPDATE COMMIT with GOLDEN: protection is released, the golden slot erased, and the copy begins. -/
def execFwCommitGolden (id : CmdId) (s : State) : Out :=
  fwCommit true id s fun c img s =>
    let s := s.modStore fun t => { t with goldenWp := false, golden := { magic := false } }
    accept c (s.modMwr fun m => { m with copying := some { id := c.id, since := s.core.t, image := img } })

/-- The golden copy ends and is judged; golden is protected again. -/
def execGoldenCopyEnd (ok : Bool) (s : State) : Out :=
  match s.mwr.copying with
  | none => .next s
  | some g =>
    onEvent s.mwr.serves s fun s =>
      let s := s.modStore fun t => { t with goldenWp := true, golden := if ok then g.image else { g.image with hash := false } }
      let s := s.modMwr fun m => { m with copying := none }
      if ok then
        afterCommit false (completeId g.id .success (imgResult g.image) 0 (raisePf 0xE003 0 (1 + imgVer24 g.image * 2 ^ 8) s))
      else failInternal g.id (mwErr (Config.blockCode 5)) s

/-- FW_UPDATE ABANDON. -/
def execFwAbandon (id : CmdId) (s : State) : Out :=
  fwUpdate 3 none id s fun c s =>
    checks [busy (otherSession s c) 1000 c] (fun s => succeed c (s.modMwr fun m => { m with staging := none })) s

/-! ### Budgeted settings (R14 to R17, R425 to R428) -/

/-- The slots of a setting. -/
def budSlots (t : Store) : Nat → List BudSlot
  | 0 => t.role
  | 1 => t.member
  | 2 => t.steward
  | 3 => t.svn
  | _ => t.brake

/-- The state with a slot of a setting programmed. -/
def addSlot (n : Nat) (b : BudSlot) (t : Store) : Store :=
  match n with
  | 0 => { t with role := t.role ++ [b] }
  | 1 => { t with member := t.member ++ [b] }
  | 2 => { t with steward := t.steward ++ [b] }
  | 3 => { t with svn := t.svn ++ [b] }
  | _ => { t with brake := t.brake ++ [b] }

/-- Slots of a setting as made. -/
def budTotal : Nat → Nat
  | 0 => 4
  | 1 => 3
  | 2 => 2
  | 3 => 64
  | _ => 2

/-- Slots left. -/
def slotsLeft (s : State) (n : Nat) : Nat := budTotal n - (budSlots s.store n).length

/-- A value lies outside the table of R425; brake response classes are 0 and 1 (R464). -/
def budRange (n v : Nat) : Bool :=
  match n with
  | 0 => decide (v = 1 ∨ v = 2)
  | 1 => decide (v ≤ 255)
  | 2 => decide (v ≤ 1)
  | 3 => decide (1 ≤ v ∧ v ≤ 65535)
  | _ => decide (v ≤ 1)

/-- The authorisation block of a BUDGET_WRITE verifies (R425). -/
def budVerifies (s : State) (key : Nat × Nat) (c : Cmd) : Bool :=
  let msg := envelopeMsg c.pkt (num c.input 0 8) ((s.core.member).getD 0) ++ leBytes 1 (flag s.core.member.isSome)
  verifies key msg (ofBe (slice c.input 8 48)) (ofBe (slice c.input 56 48))

/-- The refusal of R425, with its reason. R50 gives reason 2 to what fails the Millwright's checks and R425 gives reasons 5 and 6;
the model answers as R425 does (DESIGN CHOICE, log entry 104). -/
def budRefusal (s : State) (c : Cmd) : Option Nat :=
  match s.dom.key with
  | some k => if !budVerifies s k c then some 5 else if num c.input 0 8 ≤ s.dom.seq then some 6 else none
  | none => if c.id.origin = .usb then none else some 5

/-- The refusals of R426. -/
def budInvalid (s : State) (n v : Nat) : Bool :=
  !budRange n v || (decide (n = 1) && joined s) ||
    (decide (n = 3) && (decide (v < svnInForce s) || decide ((s.store.slot s.store.active).svn < v) || decide (s.store.golden.svn < v)))

/-- BUDGET_WRITE: authorised, checked, and one slot programmed; programming verifies or not (R14 to R17). The default of a setting
that was never written is no value in force here, so writing that default consumes a slot (DESIGN CHOICE, log entry 104). -/
def execBudgetWrite (id : CmdId) (verified : Bool) (s : State) : Out :=
  onCmd .budgetWrite id s fun c s =>
    let n := fld c.pkt 2 7 0
    let v := dw c.pkt 3
    let end_ (st : Status) (k : State → State) (s : State) : State := k (logAttempt c st s)
    let f := fields c [rsv c.pkt 2 31 8, (decide (4 < n), 8)]
    checks [(f.1, end_ .invalidField f.2)]
      (fun s =>
        match budRefusal s c with
        | some r => end_ .notPermitted (refuse c r 0) s
        | none =>
          if s.dom.key.isSome && flashReleased s then end_ .busyRetry (complete c .busyRetry 0 1000) s
          else
          let s := if s.dom.key.isSome then s.modDom fun d => { d with seq := num c.input 0 8 } else s
          checks [
            (budInvalid s n v, end_ .invalidField (invalid c 12)),
            (decide (inForce (budSlots s.store n) = some v), end_ .invalidField (invalid c 12)),
            (decide (slotsLeft s n = 0), end_ .budgetExhausted (complete c .budgetExhausted 0 0))]
            (fun s =>
              let s := s.modStore (addSlot n { value := v, ok := verified })
              if verified then end_ .success (succeed c) s
              else end_ .internal (failInternal c.id (mwErr (Config.blockCode 6))) s) s) (if s.mwr.running then mwAct s else s)

/-- A record of the budget attempt log: the manual names its fields and gives no layout (R17; log entry 72). -/
def Attempt.bytes (a : Attempt) : List Byte :=
  Config.recordBytes 4 [a.setting, a.auth, a.outcome.code, flag a.ticks, a.value, a.time]

/-- The budget attempt log. -/
def attemptPage (s : State) : List Byte := s.store.attempts.flatMap Attempt.bytes

/-- The 4 bits RESULT gives a setting's slots left: a count above 15 has no stated form there (R428; log entry 73). -/
def slotsNibble (n : Nat) : Nat := if n < 16 then n else Config.slotsNibble n % 16

/-- BUDGET_QUERY. -/
def execBudgetQuery (id : CmdId) (s : State) : Out :=
  onCmd .budgetQuery id s fun c s =>
    let n := fld c.pkt 2 7 0
    let len := dw c.pkt 5
    checks [fields c [rsv c.pkt 2 31 8, (decide (4 < n ∧ n ≠ 0xFF), 8)]]
      (fun s =>
        let s := if len = 0 then s else emitData c (qw c.pkt 3) ((attemptPage s).take len) s
        if n = 0xFF then
          complete c .success (((List.range 5).map fun i => slotsNibble (slotsLeft s i) * 16 ^ i).foldl (· + ·) 0) 0 s
        else complete c .success ((inForce (budSlots s.store n)).getD 0xFFFFFFFF) (slotsLeft s n) s)
      (if s.mwr.running then mwAct s else s)

/-! ### MW_MAILBOX: the sensor and grant classes (R433) -/

/-- The classes that are defined. -/
def mailboxClasses : List Nat := [1, 2, 3, 4, 0x100, 0x101, 0x110, 0x111, 0x112, 0x120, 0x121, 0x122]

/-- MW_MAILBOX of a CLASS; SENSOR_READ's row answers classes that are not defined. -/
def mailbox (cls : Nat) (id : CmdId) (s : State) (k : Cmd → State → State) : Out :=
  onCmd .mwMailbox id s fun c s =>
    let x := fld c.pkt 2 15 0
    let s' := if s.mwr.running then mwAct s else s
    if x = cls then k c s' else if cls = 1 ∧ mailboxClasses.contains x = false then invalid c 8 s' else s

/-- The unit of a sensor index, 0 for one that does not exist. -/
def sensorUnit (i : Nat) : Nat := if i = 0 then 1 else if i = 8 then 3 else if 2 ≤ i ∧ i ≤ 7 then 2 else 0

/-- SENSOR_READ, with what the sensor reads. -/
def execSensorRead (id : CmdId) (reading : Int) (s : State) : Out :=
  mailbox 1 id s fun c s =>
    checks [bad (decide (sensorUnit (dw c.pkt 3) = 0)) 12 c]
      (complete c .success (ofSigned 32 reading) (sensorUnit (dw c.pkt 3))) s

/-- GRANT_POLICY. -/
def execGrantPolicy (id : CmdId) (s : State) : Out :=
  mailbox 4 id s fun c s => succeed c (s.modMwr fun m => { m with grants := fbit c.pkt 3 0 })

end Sys2Proof.Machine
end

