-- ==== Sys2Proof/Machine/Tray.lean ====
section
/-! DEFINITION. Tray stewardship and the board sideband (15 R434 to R440). -/

namespace Sys2Proof.Machine

/-- A tray position. -/
def posOf (s : State) (n : Nat) : Position := s.mwr.pos.getD n {}

/-- A tray position changed. -/
def modPos (n : Nat) (f : Position → Position) (s : State) : State := s.modMwr fun m => { m with pos := m.pos.alter n {} f }

/-- The steward's firmware runs. -/
def stewards (s : State) : Bool := s.mwr.steward

/-- What the steward does about a position when it runs and a condition holds. -/
def onTray (n : Nat) (p : Bool) (s : State) (f : State → State) : Out := onMw (stewards s && decide (n < 8) && p) s f

/-- Codes of MWR_STW_DEV_n. -/
def PosState.code : PosState → Nat
  | .absent => 0
  | .unverified => 1
  | .verifying => 2
  | .healthy => 3
  | .reflashing => 4
  | .givenUp => 5
  | .failed => 6

/-- The window of re-flash attempts in AO ticks: 3,600 s (R439). -/
def flashWindow : Nat := 3600 * 32768

/-- Attempts of a position in the window. -/
def attemptsIn (s : State) (p : Position) : List Nat := p.attempts.filter fun a => decide (aoTicks s < a + flashWindow)

/-- MWR_STW_DEV_n. -/
def stwDev (s : State) (n : Nat) : Nat :=
  let p := posOf s n
  p.state.code + p.primary * 2 ^ 4 + p.golden * 2 ^ 8 + (attemptsIn s p).length * 2 ^ 12

/-- ms since the last verification of a position, saturating. -/
def msSinceVerified (s : State) (n : Nat) : Nat :=
  match (posOf s n).verifiedAt with
  | some t => sat 0xFFFFFFFF ((s.core.t - t) / 1000000)
  | none => 0xFFFFFFFF

/-- A position's TRAY_VERIFY commands completed. -/
def endVerifies (n : Nat) (s : State) : State :=
  let l := (posOf s n).waiters
  l.foldl (fun s id => completeId id .success (stwDev s n) (msSinceVerified s n) s) (modPos n (fun p => { p with waiters := [] }) s)

/-- The steward may take a position's flashes (R436): its slot is disabled, or its Millwright has released them or is in
recovery mode. -/
def mayTake (s : State) (n : Nat) : Bool :=
  let st := (s.brk.slots.getD n {}).state
  decide (st = .off ∨ st = .fault) || (posOf s n).released || (posOf s n).recovery

/-- The position that the tray bus selects: SPI_TRAY_OE_N is low and SPI_TRAY_SEL names it (R435). -/
def trayBus (s : State) : Option Nat :=
  (s.mwr.pos.find? fun e => decide (e.2.state = .verifying ∨ e.2.state = .reflashing)).map (·.1)

/-- An unverified position whose flashes can be taken is being verified once the tray bus is free. -/
def startVerify (n : Nat) (s : State) : State :=
  if (posOf s n).state = .unverified ∧ mayTake s n ∧ trayBus s = none then modPos n (fun p => { p with state := .verifying }) s else s

/-- A tray class of MW_MAILBOX on a position (R433). -/
def trayMail (cls : Nat) (id : CmdId) (s : State) (k : Cmd → Nat → State → State) : Out :=
  mailbox cls id s fun c s =>
    checks [deny (!stewards s) 9 c, bad (decide (7 < dw c.pkt 3)) 12 c] (k c (dw c.pkt 3)) s

/-- TRAY_STATUS. -/
def execTrayStatus (id : CmdId) (s : State) : Out :=
  trayMail 2 id s fun c n s => complete c .success (stwDev s n) (msSinceVerified s n) s

/-- TRAY_VERIFY; an empty position has nothing to verify. -/
def execTrayVerify (id : CmdId) (s : State) : Out :=
  trayMail 3 id s fun c n s =>
    if (posOf s n).state = .absent then complete c .success (stwDev s n) (msSinceVerified s n) s
    else
      let s := modPos n (fun p =>
        { p with
          state := (match p.state with | .healthy | .givenUp | .failed => .unverified | st => st)
          waiters := p.waiters ++ [c.id] }) s
      startVerify n (accept c s)

/-- SLOT_PRSNT_N_n has been low for 100 ms. -/
def execPositionPresentConfirm (n : Nat) (s : State) : Out :=
  onEvent (decide (n < 8)) s fun s =>
    let s := s.modBrk fun b => { b with present := b.present ||| 2 ^ n }
    if s.mwr.running ∧ stewards s ∧ (posOf s n).state = .absent then
      modPos n (fun p => { p with state := .unverified, presentAt := some s.core.t }) (mwAct s)
    else s

/-- The steward takes the flashes of an unverified position, with what the position reports over the sideband: whether it
has released them, whether it is in recovery mode, and its security version. -/
def execPositionVerify (n : Nat) (released recovery : Bool) (svn : Option Nat) (s : State) : Out :=
  onTray n (decide ((posOf s n).state = .unverified)) s fun s =>
    startVerify n (modPos n (fun p => { p with released, recovery, svn := if svn.isSome then svn else p.svn }) s)

/-- The flash of a position does not answer. -/
def flashFails (n : Nat) (s : State) : State :=
  let s := modPos n (fun p => { p with state := .failed, flashPrimary := none, flashGolden := none, verifiedAt := some s.core.t }) s
  endVerifies n (raisePf 0xE006 n n s)

/-- The steward acts on two result codes (R437, R439). -/
def actOn (n p g : Nat) (f : Flashes) (s : State) : State :=
  let s := modPos n (fun x => { x with primary := p, golden := g, verifiedAt := some s.core.t }) s
  if p = 0 ∧ g = 0 then modPos n (fun x => { x with state := .healthy, recovery := false }) s
  else
    let l := (posOf s n).attempts
    if l.length < 3 ∨ l.getLastD 0 + flashWindow ≤ aoTicks s then
      modPos n (fun x =>
        { x with
          state := .reflashing
          attempts := (aoTicks s :: l).take 3
          flashPrimary := if p = 0 then none else some (if g = 0 then f.golden else s.store.golden)
          flashGolden := if g = 0 then none else some (if p = 0 then f.primary else s.store.golden) }) s
    else raisePf 0xE005 n n (modPos n (fun x => { x with state := .givenUp }) s)

/-- The security version a position is judged by. -/
def posSvn (s : State) (n : Nat) : Nat := (posOf s n).svn.getD (svnInForce s)

/-- Verification ends with what the flashes hold, or with no answer. -/
def execVerifyEnd (n : Nat) (f : Option Flashes) (s : State) : Out :=
  onTray n (decide ((posOf s n).state = .verifying)) s fun s =>
    match f with
    | none => flashFails n s
    | some f =>
      let svn := posSvn s n
      let p := if !f.ptr && f.primary.readable && !f.primary.magic then 1 else bootCode svn f.primary
      endVerifies n (actOn n p (bootCode svn f.golden) f s)

/-- What a re-flash leaves in a flash, told by STEWARD_REFLASHED. -/
def reflashed (n flash : Nat) (img : Option FwImage) (ok : Bool) (s : State) : State :=
  match img with
  | none => s
  | some i =>
    raisePf 0xE004 n (n + flash * 2 ^ 3 + bootCode (posSvn s n) (if ok then i else { i with hash := false }) * 2 ^ 8) s

/-- A re-flash ends: whether what each flash reads back is what was written; none when a flash does not answer. -/
def execReflashEnd (n : Nat) (okP okG : Option Bool) (s : State) : Out :=
  onTray n (decide ((posOf s n).state = .reflashing)) s fun s =>
    let x := posOf s n
    if (x.flashPrimary.isSome ∧ okP.isNone) ∨ (x.flashGolden.isSome ∧ okG.isNone) then flashFails n s
    else
      let s := reflashed n 1 x.flashGolden (okG.getD true) (reflashed n 0 x.flashPrimary (okP.getD true) s)
      modPos n (fun p => { p with state := .verifying, flashPrimary := none, flashGolden := none }) s

/-- The oldest attempt of a position ages out of the window. -/
def execReflashWindowExpiry (n : Nat) (s : State) : Out :=
  onTray n (decide ((posOf s n).state = .givenUp) &&
      decide ((posOf s n).attempts.getLastD 0 + flashWindow ≤ aoTicks s)) s
    (modPos n fun p => { p with state := .unverified })

/-- An in-band interrupt of a position reports BOOT_FALLBACK or recovery. -/
def execSidebandInBandInterrupt (n : Nat) (recovery : Bool) (s : State) : Out :=
  onTray n true s fun s =>
    modPos n (fun p => { p with recovery := recovery || p.recovery, state := if p.state = .healthy then .unverified else p.state }) s

/-! ### The sideband as a target (R436, R440) -/

/-- A RELEASE write. -/
def execSidebandRelease (s : State) : Out :=
  onEvent s.mwr.serves s fun s => s.modMwr fun m => { m with releasedAt := some s.core.t, spiFloat := true }

/-- The flashes are the device's own again, and what waited for them is written (R436). -/
def takeBack (s : State) : State :=
  let s := s.modMwr fun m => { m with releasedAt := none, spiFloat := decide (m.st = .recovery) && passed s m.bootAt (sec 1) }
  if s.mwr.running then settleCleared s else s

/-- A RESUME write. -/
def execSidebandResume (s : State) : Out := onEvent (s.mwr.serves && s.mwr.releasedAt.isSome) s takeBack

/-- 60 s after RELEASE without RESUME. -/
def execReleaseTimeout (s : State) : Out :=
  onEvent (match s.mwr.releasedAt with | some t => passed s t (sec 60) | none => false) s takeBack

/-- MWR_STATUS STATE. -/
def Mwr.stateCode (m : Mwr) : Nat :=
  if m.wfi then 5
  else match m.st with
    | .reset => 0
    | .rom => 1
    | .primary => 2
    | .golden => 3
    | .recovery => 4

/-- The status block. -/
def statusBlock (s : State) : List Byte :=
  let m := s.mwr
  leBytes 1 m.stateCode ++ leBytes 2 (bits m.fwVer 47 32) ++ leBytes 2 (bits m.fwVer 31 16) ++ leBytes 2 (bits m.fwVer 15 0) ++
    leBytes 1 (m.primary + m.golden * 16) ++ leBytes 2 (svnInForce s) ++
    leBytes 1 (flag m.releasedAt.isSome + 2 * flag s.core.member.isSome) ++ leBytes 1 (s.core.member.getD 0) ++ leBytes 4 m.heartbeat

/-- A read of 16 bytes. -/
def execSidebandStatusRead (s : State) : Out := onEvent s.mwr.serves s fun s => emit (.answer (statusBlock s) false) s

end Sys2Proof.Machine
end

