-- ==== Sys2Proof/Machine/BrakeOps.lean ====
section
/-! DEFINITION. The brake decision, its inputs, blanking, valves and slots as more than one row takes them (16 R446 to
R473). -/

namespace Sys2Proof.Machine

/-- ns that a number of AO ticks takes (R403). -/
def aoNs (n : Nat) : Nat := ceilDiv (n * 1000000000) 32768

/-! ### Configuration (R449) -/

/-- LEAK_EN. -/
def BrkCfg.leakEn (c : BrkCfg) (n : Nat) : Bool := bit c.cfg0 n
/-- BLANK_IN_MASK. -/
def BrkCfg.blankIn (c : BrkCfg) : Nat := bits c.cfg0 15 8
/-- BLANK_VALVE_MASK. -/
def BrkCfg.blankValve (c : BrkCfg) : Nat := bits c.cfg0 23 16
/-- ILK_EN. -/
def BrkCfg.ilkEn (c : BrkCfg) (i : Nat) : Bool := bit c.cfg0 (24 + i)
/-- ILK_ANTI. -/
def BrkCfg.ilkAnti (c : BrkCfg) (i : Nat) : Bool := bit c.cfg0 (28 + i)
/-- WET_TH in kΩ. -/
def BrkCfg.wetTh (c : BrkCfg) : Nat := bits c.cfg1 9 0
/-- DRY_TH in kΩ. -/
def BrkCfg.dryTh (c : BrkCfg) : Nat := bits c.cfg1 27 16
/-- DISC_MS. -/
def BrkCfg.discMs (c : BrkCfg) : Nat := bits c.cfg2 8 0
/-- VALVE_DROP. -/
def BrkCfg.drops (c : BrkCfg) (n : Nat) : Bool := bit c.cfg2 (16 + n)

/-! ### Events (R472) -/

/-- An event of the brake: into the AO record always, to the event rings while the control plane is up. -/
def brkEvent (code obj arg : Nat) (s : State) : State :=
  let s := s.modBrk fun b => { b with log := pushLast 16 b.log (code, aoTicks s, arg) }
  if monsOn s then raise code 0 obj 0 0 arg (aoTicks s) s else s

/-! ### Health (R458) -/

/-- A leak channel. -/
def leakOf (s : State) (n : Nat) : Leak := s.brk.leaks.getD n {}

/-- An interlock. -/
def ilkOf (s : State) (i : Nat) : Ilk := s.brk.ilks.getD i {}

/-- The contacts of an interlock are both in the healthy position of a mode. -/
def Ilk.inPlace (anti : Bool) (i : Ilk) : Bool := i.a && (i.b != anti)

/-- The brake inputs are healthy under the active set. -/
def healthy (s : State) : Bool :=
  let c := s.brk.act
  ((List.range 8).all fun n => !c.leakEn n || decide ((leakOf s n).state = .dry)) &&
    ((List.range 4).all fun i => !c.ilkEn i || decide ((ilkOf s i).state = .healthy)) &&
    decide (s.brk.outPins = 0) && !s.brk.ioLost

/-- The inputs are healthy as the pending set judges them (R462). -/
def healthyPending (s : State) : Bool :=
  let c := s.brk.pend
  let a := s.brk.act
  ((List.range 8).all fun n => !c.leakEn n || decide ((s.brk.leaksP.getD n {}).state = .dry)) &&
    ((List.range 4).all fun i =>
      let x := ilkOf s i
      !c.ilkEn i || (x.inPlace (c.ilkAnti i) &&
        (!(a.ilkEn i && decide (a.ilkAnti i = c.ilkAnti i)) || decide (x.state = .healthy)))) &&
    decide (s.brk.outPins = 0) && !s.brk.ioLost

/-! ### Valves (R466 to R468) -/

/-- A valve. -/
def valveOf (s : State) (n : Nat) : Valve := s.brk.valves.getD n {}

/-- Group of a valve. -/
def groupOfValve (cfg n : Nat) : Nat := bits cfg (2 * n + 1) (2 * n)

/-- Codes of BRK_VALVE. -/
def ValveState.code : ValveState → Nat
  | .off => 0
  | .deferred => 1
  | .pullIn => 2
  | .hold => 3
  | .fault => 4

/-- A valve in a new state, with its event. -/
def setValve (n : Nat) (st : ValveState) (s : State) : State :=
  let s := s.modBrk fun b =>
    { b with
      valves := b.valves.alter n {} fun v => { v with state := st, since := s.core.t }
      deferOrder := if st = .deferred then b.deferOrder ++ [n] else b.deferOrder.filter fun k => k ≠ n }
  brkEvent 0xF007 n (n + st.code * 2 ^ 4) s

/-- The requests that wait for a valve are answered. -/
def answerValve (n : Nat) (st : Status) (r r2 : Nat) (s : State) : State :=
  let l := (valveOf s n).waiters
  l.foldl (fun s id => completeId id st r r2 s)
    (s.modBrk fun b => { b with valves := b.valves.modify n fun v => { v with waiters := [] } })

/-- The valves of a state. -/
def valvesIn (s : State) (st : ValveState) : List Nat := numsWhere 8 fun n => decide ((valveOf s n).state = st)

/-- PULLIN_MAX. -/
def pullinMax (s : State) : Nat := bits s.brk.valveCfg 22 20

/-- A start of a valve is allowed (R467). -/
def startAllowed (s : State) (n : Nat) : Bool :=
  let g := groupOfValve s.brk.valveCfg n
  let pulling := valvesIn s .pullIn
  !(pulling.any fun k => decide (groupOfValve s.brk.valveCfg k = g)) && decide (pulling.length < pullinMax s) &&
    !bit s.brk.hsFault g && (!s.brk.set || !s.brk.act.drops n)

/-! ### Blanking (R454, R455) -/

/-- The channels that the sources active now blank, and whether one is active. -/
def blankSources (s : State) : Bool × Nat :=
  let pull := !(valvesIn s .pullIn).isEmpty
  (s.brk.blankIn || pull, (if s.brk.blankIn then s.brk.act.blankIn else 0) ||| (if pull then s.brk.act.blankValve else 0))

/-- A source has become active: an interval opens, or the open one takes its mask in. -/
def openBlank (s : State) : State :=
  let src := blankSources s
  if !src.1 then s
  else
    match s.brk.blank with
    | some (t, m) => s.modBrk fun b => { b with blank := some (t, m ||| src.2) }
    | none => if s.brk.guard.isSome then s else s.modBrk fun b => { b with blank := some (s.core.t, src.2) }

/-- The open interval ends and its guard starts. -/
def closeBlank (s : State) : State :=
  match s.brk.blank with
  | none => s
  | some (_, m) => s.modBrk fun b => { b with blank := none, guard := some s.core.t, lastMask := m }

/-- The interval ends once no source is active. -/
def settleBlank (s : State) : State := if (blankSources s).1 then s else closeBlank s

/-- A valve starts. -/
def startValve (n : Nat) (s : State) : State := openBlank (setValve n .pullIn s)

/-- Deferred valves that have become startable start, the longest deferred first (R467). -/
def startDeferred (s : State) : State :=
  s.brk.deferOrder.foldl (fun s n => if (valveOf s n).state = .deferred ∧ startAllowed s n then startValve n s else s) s

/-! ### Slots (R469, R470) -/

/-- A slot. -/
def slotOf (s : State) (n : Nat) : Slot := s.brk.slots.getD n {}

/-- Codes of SLOT_STATE. -/
def SlotState.code : SlotState → Nat
  | .off => 0
  | .powering => 1
  | .on => 2
  | .fault => 3

/-- A slot in a new state, with its event. -/
def setSlot (n : Nat) (st : SlotState) (s : State) : State :=
  if (slotOf s n).state = st then s
  else
    let s := s.modBrk fun b => { b with slots := b.slots.alter n {} fun v => { v with state := st, since := s.core.t } }
    brkEvent 0xF009 n (n + st.code * 2 ^ 4) s

/-- The SLOT_SETs that wait on a slot, of a kind and since no later than an instant, are answered. -/
def answerSlots (n : Nat) (enable : Bool) (upTo : Nat) (st : Status) (r r2 : Nat) (s : State) : State :=
  let mine (w : CmdId × Bool × Nat) : Bool := decide (w.2.1 = enable) && decide (w.2.2 ≤ upTo)
  let l := (slotOf s n).waiters.filter mine
  l.foldl (fun s w => completeId w.1 st r r2 s)
    (s.modBrk fun b =>
      { b with slots := b.slots.modify n fun v => { v with waiters := v.waiters.filter fun w => !mine w } })

/-- The SLOT_SETs that wait on a slot, of a kind, are answered. -/
def answerSlot (n : Nat) (enable : Bool) (st : Status) (r r2 : Nat) (s : State) : State :=
  answerSlots n enable s.core.t st r r2 s

/-- A SLOT_SET waits. -/
def waitSlot (n : Nat) (enable : Bool) (c : Cmd) (s : State) : State :=
  accept c (s.modBrk fun b =>
    { b with slots := b.slots.alter n {} fun v => { v with waiters := v.waiters ++ [(c.id, enable, s.core.t)] } })

/-! ### Trip and release (R458, R461, R463) -/

/-- What a brake set cuts: the valves of VALVE_DROP and every slot. -/
def cutPower (s : State) : State :=
  let s := forEach (List.range 8) (fun n s =>
    if s.brk.act.drops n ∧ (valveOf s n).state ≠ .off then answerValve n .notPermitted 10 12 (setValve n .off s) else s) s
  let s := forEach (List.range 8) (fun n s => answerSlot n true .notPermitted 10 12 (setSlot n .off s)) s
  startDeferred (settleBlank s)

/-- A cause arises: a trip while the brake is released; while it is set, counted after a trip, or noted in the settle
window. -/
def brakeCause (code idx : Nat) (s : State) : State :=
  let b := s.brk
  let word := code + idx * 2 ^ 4
  if b.set = false then
    let s := s.modBrk fun b =>
      { b with set := true, lockout := true, tripLast := word, tripTime := aoTicks s, trips := sat 0xFFFF (b.trips + 1) }
    cutPower (brkEvent 0xF001 idx word s)
  else
    let b := if b.settle.isSome then { b with settleTrip := true } else b
    let b :=
      if b.lockout = false then b
      else if b.tripTime = aoTicks s then { b with tripLast := if code < bits b.tripLast 3 0 then word else b.tripLast }
      else { b with trips := sat 0xFFFF (b.trips + 1) }
    s.modBrk fun _ => b

/-- A hold in progress sees the inputs (R462). -/
def watchHold (s : State) : State :=
  if s.brk.hold.isSome ∧ healthyPending s = false then
    s.modBrk fun b => { b with hold := b.hold.map fun h => { h with bad := true } }
  else s

/-- The brake released (R463). -/
def releaseBrake (how : Nat) (s : State) : State :=
  startDeferred (brkEvent 0xF002 0 how (s.modBrk fun b => { b with set := false, lockout := false, inhibit := false }))

/-! ### Leak channels (R451, R452) -/

/-- Codes of BRK_LEAK. -/
def LeakState.code : LeakState → Nat
  | .undetermined => 0
  | .dry => 1
  | .wet => 2
  | .fault => 3
  | .disabled => 4

/-- A channel after a sample under a configuration: its two halves in kΩ and whether the readback was right. Outside the
settle window an undetermined channel is decided by three samples of a class. -/
def Leak.sample (c : BrkCfg) (settling : Bool) (p n : Nat) (rb : Bool) (x : Leak) : Leak :=
  let v := (p + n) / 2
  let wet := decide (v < c.wetTh)
  let dry := decide (2 * c.dryTh < p + n)
  let asym := decide (2 * min p n < max p n)
  let x :=
    { x with
      level := sat 0xFFFF v
      wet := if wet then x.wet + 1 else if dry then 0 else x.wet
      dry := if dry then x.dry + 1 else if wet then 0 else x.dry
      dryRun := if dry then x.dryRun + 1 else 0
      asym := if asym then x.asym + 1 else 0
      badRb := if rb then 0 else x.badRb + 1
      good := if !asym && rb then x.good + 1 else 0 }
  if 3 ≤ x.asym ∨ 3 ≤ x.badRb then { x with state := .fault }
  else
    match x.state with
    | .fault => if 3 ≤ x.good then { x with state := .wet, wet := 0, dry := 0, dryRun := 0 } else x
    | .dry => if 3 ≤ x.wet then { x with state := .wet } else x
    | .wet => if 3 ≤ x.dry then { x with state := .dry } else x
    | .undetermined =>
      if settling then x else if 3 ≤ x.dry then { x with state := .dry } else if 3 ≤ x.wet then { x with state := .wet } else x
    | .disabled => x

/-- A channel at the end of the settle window (R452). -/
def Leak.decide (x : Leak) : Leak :=
  match x.state with
  | .undetermined => { x with state := if 3 ≤ x.dryRun then .dry else .wet }
  | _ => x

/-- A channel's change of state told: its event, its cause, and the wake it makes (R402, R458, R472). -/
def leakChanged (n : Nat) (old : LeakState) (settling : Bool) (s : State) : State :=
  let st := (leakOf s n).state
  if st = old then s
  else
    let s := brkEvent 0xF004 n (n + st.code * 2 ^ 4) s
    match st with
    | .wet => if settling then s else brakeCause 1 n s
    | .fault => brakeCause 4 n s
    | _ => s

/-- Channels that an active set enables and an earlier one did not start undetermined; the shadow of the pending set starts
from the active channels. -/
def leaksUnder (old new : BrkCfg) (l : Tbl Leak) : Tbl Leak :=
  ((List.range 8).filter fun n => new.leakEn n && old.leakEn n).foldl (fun t n => t.set n (l.getD n {})) []

/-! ### Interlocks (R457) -/

/-- Codes of BRK_ILK. -/
def IlkState.code : IlkState → Nat
  | .healthy => 0
  | .discrepant => 1
  | .open_ => 2
  | .returning => 3
  | .fault => 4
  | .disabled => 5

/-- An interlock in a new state, with its event and its cause. -/
def setIlk (i : Nat) (st : IlkState) (s : State) : State :=
  let old := (ilkOf s i).state
  if old = st then s
  else
    let s := s.modBrk fun b => { b with ilks := b.ilks.alter i {} fun x => { x with state := st, since := s.core.t } }
    let s := brkEvent 0xF005 i (i + st.code * 2 ^ 4) s
    if st = .fault then brakeCause 3 i s else if old = .healthy then brakeCause 2 i s else s

/-- What follows every change of a brake input: a hold sees it, and the device wakes (R402, R462). -/
def brakeSeen (s : State) : State := wake 0x06 (watchHold s)

/-- The position whose slot the steward enables next (R438, R463): in ascending order, past those that are empty, given up, kept off,
in FAULT or its own, and none before a position that may yet become HEALTHY. -/
def nextSlot (s : State) : Option Nat :=
  let waits (n : Nat) : Bool :=
    decide (s.mwr.self ≠ some n) && !bit s.brk.keptOff n && decide ((slotOf s n).state = .off) &&
      [PosState.unverified, .verifying, .reflashing, .healthy].contains (posOf s n).state
  match (numsWhere 8 waits).head? with
  | some n => if (posOf s n).state = .healthy then some n else none
  | none => none

/-- The steward's firmware enables slots one at a time while the brake is released (R438, R463). -/
def enableSlots (s : State) : State :=
  if s.mwr.running && stewards s && !s.brk.set && !(List.range 8).any fun k => decide ((slotOf s k).state = .powering) then
    match nextSlot s with
    | some n => setSlot n .powering s
    | none => s
  else s

end Sys2Proof.Machine
end

