-- ==== Sys2Proof/Machine/Brake.lean ====
section
/-! DEFINITION. The meanings of the brake, valve and slot rows (16 R446 to R473). -/

namespace Sys2Proof.Machine

/-- What the AO logic does while VDD_AO_IN is present. -/
def onAo (p : Bool) (s : State) (f : State → State) : Out := onEvent (s.pwr.aoIn && p) s f

/-- After an input that is neither a leak channel nor an interlock: only a trip wakes the device (R402, R465). -/
def afterCause (was : Bool) (s : State) : State := if was = false ∧ s.brk.set then brakeSeen s else watchHold s

/-! ### Leak channels (R450 to R453) -/

/-- A sample of a channel is discarded: part of its period lay in a blanking interval of the channel (R450). -/
def discarded (s : State) (ch : Nat) : Bool :=
  (match s.brk.blank with | some (_, m) => bit m ch | none => false) ||
    (match s.brk.guard with | some t => bit s.brk.lastMask ch && !passed s t (aoNs 32) | none => false)

/-- A sample taken: the two halves in kΩ and whether the readback was right. -/
def takeSample (ch pos neg : Nat) (rb : Bool) (s : State) : State :=
  let b := s.brk
  let settling := b.settle.isSome
  let old := leakOf s ch
  let inP := b.pend.leakEn ch
  let s := s.modBrk fun b =>
    { b with
      leaks := if b.act.leakEn ch then b.leaks.set ch (old.sample b.act settling pos neg rb) else b.leaks
      leaksP := if inP then b.leaksP.set ch ((b.leaksP.getD ch {}).sample b.pend settling pos neg rb) else b.leaksP }
  let s := sample 8 (sat 0xFFFF ((pos + neg) / 2)) (fun m => bit m.filtA ch) s
  if (leakOf s ch).state = old.state then watchHold s else brakeSeen (leakChanged ch old.state settling s)

/-- LEAK_SAMPLE. -/
def execLeakSample (ch pos neg : Nat) (rb : Bool) (s : State) : Out :=
  onAo (decide (ch < 8) && (s.brk.act.leakEn ch || s.brk.pend.leakEn ch) && !discarded s ch) s (takeSample ch pos neg rb)

/-- The channels decided at the end of the settle window. -/
def decideLeaks (c : BrkCfg) (l : Tbl Leak) : Tbl Leak :=
  ((List.range 8).filter fun n => c.leakEn n).foldl (fun t n => t.set n (l.getD n {}).decide) l

/-- SETTLE_WINDOW_END: undecided channels count as WET, and class 0 releases the brake when everything is healthy and no
cause arose in the window (R453, R464). -/
def execSettleWindowEnd (s : State) : Out :=
  onAo (match s.brk.settle with | some t => passed s t (ms 100) | none => false) s fun s =>
    let old := s.brk.leaks
    let s := s.modBrk fun b => { b with leaks := decideLeaks b.act b.leaks, leaksP := decideLeaks b.pend b.leaksP }
    let s := forEach (List.range 8) (fun n s =>
      if s.brk.act.leakEn n then leakChanged n (old.getD n {}).state true s else s) s
    let s := s.modBrk fun b => { b with settle := none }
    let s := if s.brk.cls = 0 ∧ healthy s ∧ s.brk.settleTrip = false ∧ s.brk.lockout = false then releaseBrake 0 s else s
    brakeSeen s

/-! ### Blanking (R454, R455) -/

/-- BLANK_IN_RISE. -/
def execBlankInRise (s : State) : Out :=
  onAo (!s.brk.blankIn) s fun s => openBlank (s.modBrk fun b => { b with blankIn := true })

/-- BLANK_IN_FALL. -/
def execBlankInFall (s : State) : Out :=
  onAo s.brk.blankIn s fun s => settleBlank (s.modBrk fun b => { b with blankIn := false })

/-- BLANK_CAP_EXPIRY. -/
def execBlankCapExpiry (s : State) : Out :=
  match s.brk.blank with
  | none => .next s
  | some (t, m) => onAo (passed s t (aoNs 1638)) s fun s => brkEvent 0xF006 0 m (closeBlank s)

/-- BLANK_GUARD_END. -/
def execBlankGuardEnd (s : State) : Out :=
  onAo (match s.brk.guard with | some t => passed s t (aoNs 328) | none => false) s fun s =>
    openBlank (s.modBrk fun b => { b with guard := none })

/-! ### Interlocks (R456, R457) -/

/-- DISC_MS passes with the contacts disagreeing. -/
def discTimeout (i : Nat) (s : State) : State :=
  let x := ilkOf s i
  if (x.state = .discrepant ∨ x.state = .returning) ∧ passed s x.since (ms s.brk.act.discMs) then setIlk i .fault s else s

/-- The state an enabled interlock goes to when a contact has changed. -/
def Ilk.next (anti : Bool) (x : Ilk) : IlkState :=
  let both := x.inPlace anti
  let none_ := !x.a && (x.b == anti)
  match x.state with
  | .healthy => if both then .healthy else .discrepant
  | .discrepant => if both then .healthy else if none_ then .open_ else .discrepant
  | .open_ => if none_ then .open_ else .returning
  | .returning => if both then .healthy else if none_ then .open_ else .returning
  | .fault => .fault
  | .disabled => .disabled

/-- A contact changes its level. -/
def contactChange (i : Nat) (second closed : Bool) (s : State) : State :=
  let was := ilkOf s i
  let s := if s.brk.act.ilkEn i then discTimeout i s else s
  let s := s.modBrk fun b =>
    { b with ilks := b.ilks.alter i {} fun x =>
        { x with
          a := if second then x.a else closed
          b := if second then closed else x.b
          since := if x.state = .fault then s.core.t else x.since } }
  let s := if s.brk.act.ilkEn i then setIlk i ((ilkOf s i).next (s.brk.act.ilkAnti i)) s else s
  if (ilkOf s i).state = was.state then watchHold s else brakeSeen s

/-- INTERLOCK_CONTACT_CHANGE: contact A, or the second contact B, is now closed or open. -/
def execInterlockContactChange (i : Nat) (second closed : Bool) (s : State) : Out :=
  onAo (decide (i < 4) && decide ((if second then (ilkOf s i).b else (ilkOf s i).a) ≠ closed)) s (contactChange i second closed)

/-- DISCREPANCY_TIMEOUT. -/
def execDiscrepancyTimeout (i : Nat) (s : State) : Out :=
  onAo (decide (i < 4) && s.brk.act.ilkEn i &&
      decide ((ilkOf s i).state = .discrepant ∨ (ilkOf s i).state = .returning) &&
      passed s (ilkOf s i).since (ms s.brk.act.discMs)) s fun s => brakeSeen (discTimeout i s)

/-- INTERLOCK_FAULT_CLEAR. -/
def execInterlockFaultClear (i : Nat) (s : State) : Out :=
  onAo (decide (i < 4) && s.brk.act.ilkEn i && decide ((ilkOf s i).state = .fault) &&
      (ilkOf s i).inPlace (s.brk.act.ilkAnti i) && passed s (ilkOf s i).since (ms s.brk.act.discMs)) s fun s =>
    brakeSeen (setIlk i .healthy s)

/-! ### The other inputs (R449, R458, R460) -/

/-- OUTPUT_CHECK_FAULT: the pins that have differed from their drive for 33 ticks; none when both follow again. -/
def execOutputCheckFault (pins : Nat) (s : State) : Out :=
  onAo true s fun s =>
    let new := bits pins 1 0
    let fresh := maskBits 2 new |>.filter fun i => !bit s.brk.outPins i
    let was := s.brk.set
    afterCause was (forEach fresh (brakeCause 5) (s.modBrk fun b => { b with outPins := new }))

/-- The active set becomes another: a channel or an interlock that it enables anew, or judges in another mode, starts as it
stands. -/
def adopt (c : BrkCfg) (leaks : Tbl Leak) (s : State) : State :=
  let old := s.brk.act
  let s := s.modBrk fun b => { b with act := c, leaks }
  forEach (List.range 4) (fun i s =>
    if c.ilkEn i ∧ (old.ilkEn i = false ∨ old.ilkAnti i ≠ c.ilkAnti i) then
      s.modBrk fun b => { b with ilks := b.ilks.alter i {} fun x => x.start (c.ilkAnti i) s.core.t }
    else s) s

/-- CONFIG_PARITY_ERROR: both sets return to the defaults, and the brake trips. -/
def execConfigParityError (s : State) : Out :=
  onAo true s fun s =>
    let was := s.brk.set
    let s := adopt {} (leaksUnder s.brk.act {} s.brk.leaks) s
    let s := s.modBrk fun b =>
      { b with pend := {}, leaksP := b.leaks, hold := b.hold.map fun h => { h with bad := true } }
    afterCause was (brakeCause 6 0 s)

/-- HOLD_SUPPLY_LOSS: VDD_IO has been below its threshold for 1 ms, or is back. In OFF the hold domain is unpowered by
design. -/
def execHoldSupplyLoss (lost : Bool) (s : State) : Out :=
  onAo (decide (s.pwr.state ≠ .off) && decide (s.brk.ioLost ≠ lost)) s fun s =>
    let was := s.brk.set
    let s := s.modBrk fun b => { b with ioLost := lost }
    if lost then afterCause was (brakeCause 7 0 s) else watchHold s

/-! ### Release (R462, R463) -/

/-- BRAKE_RST_FALL. -/
def execBrakeRstFall (s : State) : Out :=
  onAo s.brk.hold.isNone s fun s =>
    s.modBrk fun b => { b with rstHigh := true, hold := some { since := s.core.t, bad := !healthyPending s } }

/-- Why a hold is refused at its rise, 0 when it is accepted. -/
def holdRefusal (h : RstHold) (s : State) : Nat :=
  if passed s h.since (ms 100) = false then 1
  else if h.since + ms 2000 < s.core.t then 2
  else if h.bad ∨ healthyPending s = false ∨ s.brk.settle.isSome then 3
  else if h.written then 4
  else 0

/-- A hold accepted: the pending set becomes the active set and the brake is released. -/
def acceptHold (s : State) : State :=
  let s := adopt s.brk.pend (s.brk.leaksP) s
  releaseBrake 1 (s.modBrk fun b => { b with leaksP := b.leaks, holds := sat 0xFFFF (b.holds + 1), stuck := false })

/-- BRAKE_RST_RISE. -/
def execBrakeRstRise (s : State) : Out :=
  match s.brk.hold with
  | none => onAo (!s.brk.rstHigh) s fun s => brkEvent 0xF003 0 5 (s.modBrk fun b => { b with rstHigh := true })
  | some h =>
    onAo true s fun s =>
      let r := holdRefusal h s
      let s := s.modBrk fun b => { b with hold := none }
      if r = 0 then acceptHold s else brkEvent 0xF003 0 r s

/-- BRAKE_RST_STUCK. -/
def execBrakeRstStuck (s : State) : Out :=
  onAo (match s.brk.hold with | some h => decide (h.since + ms 2000 < s.core.t) | none => false) s fun s =>
    s.modBrk fun b => { b with stuck := true }

/-! ### The registers (R449, R466, R473) -/

/-- BRK_STATUS. -/
def brkStatus (s : State) : Nat :=
  let b := s.brk
  flag b.set + 2 * flag b.lockout + 4 * flag b.inhibit + 8 * b.cls % 2 ^ 4 + 16 * flag (decide (b.pend ≠ b.act)) +
    32 * flag b.blank.isSome + 64 * flag b.guard.isSome + 128 * flag b.stuck + 256 * flag b.settle.isSome

/-- BRK_VALVE. -/
def brkValve (s : State) : Nat :=
  ((List.range 8).map fun n => (valveOf s n).state.code * 2 ^ (3 * n)).foldl (· + ·) 0 + s.brk.hsFault % 16 * 2 ^ 24

/-- SLOT_EN_n is high. -/
def Slot.enabled (x : Slot) : Bool := decide (x.state = .powering ∨ x.state = .on)

/-- A mask of the positions whose slot satisfies a condition. -/
def slotMask (s : State) (p : Slot → Bool) : Nat :=
  ((List.range 8).map fun n => flag (p (slotOf s n)) * 2 ^ n).foldl (· + ·) 0

/-- BRK_SLOT. -/
def brkSlot (s : State) : Nat :=
  slotMask s Slot.enabled + slotMask s (·.pg) * 2 ^ 8 + s.brk.present % 256 * 2 ^ 16 +
    slotMask s (fun x => decide (x.state = .fault)) * 2 ^ 24

/-- A pending set after a write of one register; none when R449 discards it. -/
def BrkCfg.write (c : BrkCfg) (off v : Nat) : Option BrkCfg :=
  if off = 0xB00080 then some { c with cfg0 := v % 2 ^ 32 }
  else if off = 0xB00084 then
    let wet := bits v 9 0
    let dry := bits v 27 16
    if 50 ≤ wet ∧ wet ≤ 500 ∧ 300 ≤ dry ∧ dry ≤ 4000 ∧ wet + 100 ≤ dry then some { c with cfg1 := wet + dry * 2 ^ 16 } else none
  else
    let d := bits v 8 0
    if 10 ≤ d ∧ d ≤ 500 then some { c with cfg2 := d + bits v 23 16 * 2 ^ 16 } else none

/-- A write of the pending set (R449): whether it is taken, and the state after. -/
def writePending (off v : Nat) (s : State) : Bool × State :=
  match s.brk.pend.write off v with
  | none => (false, s.modBrk fun b => { b with refused := sat 0xFFFFFFFF (b.refused + 1) })
  | some c =>
    (true, s.modBrk fun b =>
      { b with
        pend := c
        leaksP := leaksUnder b.pend c b.leaksP
        hold := b.hold.map fun h => { h with written := true } })

/-- A write of BRK_VALVE_CFG changes the group of a valve in use (R466). -/
def groupInUse (s : State) (v : Nat) : Bool :=
  let busyGroup (g : Nat) : Bool :=
    (List.range 8).any fun k => decide (groupOfValve s.brk.valveCfg k = g) &&
      decide ((valveOf s k).state = .pullIn ∨ (valveOf s k).state = .deferred)
  (List.range 8).any fun n =>
    let g := groupOfValve s.brk.valveCfg n
    let h := groupOfValve v n
    decide (g ≠ h) && (busyGroup g || busyGroup h)

/-- A write of BRK_VALVE_CFG within its ranges: whether it is taken, and the state after. -/
def writeValveCfg (v : Nat) (s : State) : Bool × State :=
  if groupInUse s v then (false, s.modBrk fun b => { b with refused := sat 0xFFFFFFFF (b.refused + 1) })
  else (true, startDeferred (s.modBrk fun b => { b with valveCfg := bits v 22 0 }))

/-- A value of BRK_VALVE_CFG within its ranges. -/
def valveCfgOk (v : Nat) : Bool := decide (bits v 19 16 ≠ 0) && decide (1 ≤ bits v 22 20 ∧ bits v 22 20 ≤ 4)

/-! ### Commands on the brake (R471) -/

/-- BRAKE_STATUS. -/
def execBrakeStatus (id : CmdId) (s : State) : Out :=
  mailbox 0x100 id s fun c s => complete c .success (brkStatus s) s.brk.tripLast s

/-- BRAKE_PENDING. -/
def execBrakePending (id : CmdId) (s : State) : Out :=
  mailbox 0x101 id s fun c s =>
    let off := dw c.pkt 3
    checks [deny (!stewards s) 9 c, bad (decide (off ≠ 0xB00080 ∧ off ≠ 0xB00084 ∧ off ≠ 0xB00088)) 12 c]
      (fun s =>
        let r := writePending off (dw c.pkt 4) s
        if r.1 then succeed c r.2 else invalid c 16 r.2) s

/-! ### Valves (R466 to R468) -/

/-- µs until the pull-in of a group ends, 0 when none is under way. -/
def pullInLeft (s : State) (g : Nat) : Nat :=
  match (valvesIn s .pullIn).find? fun k => decide (groupOfValve s.brk.valveCfg k = g) with
  | some k => ceilDiv ((valveOf s k).since + aoNs 2622 - s.core.t) 1000
  | none => 0

/-- A request waits for HOLD. -/
def waitValve (n : Nat) (c : Cmd) (s : State) : State :=
  accept c (s.modBrk fun b => { b with valves := b.valves.alter n {} fun v => { v with waiters := v.waiters ++ [c.id] } })

/-- An ON request. -/
def valveOn (n : Nat) (c : Cmd) (s : State) : State :=
  let g := groupOfValve s.brk.valveCfg n
  if s.brk.set ∧ s.brk.act.drops n then refuse c 10 12 s
  else
    match (valveOf s n).state with
    | .fault => refuse c 10 11 s
    | .hold => succeed c s
    | .pullIn => waitValve n c s
    | .deferred => waitValve n c s
    | .off =>
      if startAllowed s n then startValve n (waitValve n c s)
      else if (valvesIn s .deferred).any fun k => decide (groupOfValve s.brk.valveCfg k = g) then
        stallOr c .busyRetry (pullInLeft s g) s
      else setValve n .deferred (waitValve n c s)

/-- An OFF request. -/
def valveOff (n : Nat) (c : Cmd) (s : State) : State :=
  if (valveOf s n).state = .off then succeed c s
  else startDeferred (settleBlank (succeed c (answerValve n .aborted 0 0 (setValve n .off s))))

/-- VALVE_SET. -/
def execValveSet (id : CmdId) (s : State) : Out :=
  mailbox 0x110 id s fun c s =>
    let n := fld c.pkt 3 2 0
    checks [deny (!stewards s) 9 c, fields c [rsv c.pkt 3 7 3, rsv c.pkt 3 31 9]]
      (if fbit c.pkt 3 8 then valveOn n c else valveOff n c) s

/-- VALVE_QUERY. -/
def execValveQuery (id : CmdId) (s : State) : Out :=
  mailbox 0x111 id s fun c s => complete c .success (brkValve s) 0 s

/-- VALVE_CONFIG. -/
def execValveConfig (id : CmdId) (s : State) : Out :=
  mailbox 0x112 id s fun c s =>
    let v := dw c.pkt 3
    checks [deny (!stewards s) 9 c, fields c [rsv c.pkt 3 31 23, (!valveCfgOk v, 14)]]
      (fun s =>
        let r := writeValveCfg v s
        if r.1 then succeed c r.2 else stallOr c .busyRetry 80000 r.2) s

/-- VALVE_PULLIN_END. -/
def execValvePullinEnd (n : Nat) (s : State) : Out :=
  onAo (decide ((valveOf s n).state = .pullIn) && passed s (valveOf s n).since (aoNs 2622)) s fun s =>
    startDeferred (settleBlank (answerValve n .success 0 0 (setValve n .hold s)))

/-- VALVE_DEFER_TIMEOUT: a start that has become allowed comes before the cap. -/
def execValveDeferTimeout (n : Nat) (s : State) : Out :=
  onAo (decide ((valveOf s n).state = .deferred) && passed s (valveOf s n).since (ms 200)) s fun s =>
    let s := startDeferred s
    if (valveOf s n).state = .deferred then answerValve n .busyRetry 0 100000 (setValve n .off s) else s

/-- HS_FAULT. -/
def execHsFault (g : Nat) (s : State) : Out :=
  onAo (decide (g < 4) && !bit s.brk.hsFault g) s fun s =>
    let s := brkEvent 0xF008 g g (s.modBrk fun b => { b with hsFault := b.hsFault ||| 2 ^ g })
    let l := numsWhere 8 fun n => decide (groupOfValve s.brk.valveCfg n = g) && decide ((valveOf s n).state ≠ .off)
    startDeferred (settleBlank (forEach l (fun n s => answerValve n .notPermitted 10 11 (setValve n .fault s)) s))

/-- HS_FAULT_CLEAR. -/
def execHsFaultClear (g : Nat) (s : State) : Out :=
  onAo (decide (g < 4) && bit s.brk.hsFault g) s fun s =>
    startDeferred (s.modBrk fun b => { b with hsFault := b.hsFault ^^^ 2 ^ g })

/-! ### Slots (R469, R470) -/

/-- A SLOT_SET, by its ENABLE. -/
def slotSet (enable : Bool) (id : CmdId) (s : State) (k : Cmd → Nat → State → State) : Out :=
  onCmd .mwMailbox id s fun c s' =>
    if fld c.pkt 2 15 0 = 0x120 ∧ fbit c.pkt 3 8 = enable then
      checks [deny (!stewards s') 9 c, fields c [rsv c.pkt 3 7 3, rsv c.pkt 3 31 9]] (k c (fld c.pkt 3 2 0))
        (if s'.mwr.running then mwAct s' else s')
    else s'

/-- SLOT_SET with ENABLE; a slot already ON, or coming up, has its command end as the first did (R471). -/
def execSlotSetEnable (id : CmdId) (s : State) : Out :=
  slotSet true id s fun c n s =>
    match (slotOf s n).state with
    | .on => succeed c s
    | .powering => waitSlot n true c s
    | _ =>
      checks
        [busy (decide ((List.range 8).any fun k => decide (k ≠ n) && decide ((slotOf s k).state = .powering))) 100000 c,
         deny s.brk.set 12 c, deny (decide ((posOf s n).state ≠ .healthy)) 13 c, deny (decide (s.mwr.self = some n)) 14 c]
        (fun s => waitSlot n true c (setSlot n .powering (s.modBrk fun b => { b with keptOff := b.keptOff &&& (255 - 2 ^ n) }))) s

/-- SLOT_SET without ENABLE. -/
def execSlotSetDisable (id : CmdId) (s : State) : Out :=
  slotSet false id s fun c n s =>
    let s := answerSlot n true .aborted 0 0 (setSlot n .off (s.modBrk fun b => { b with keptOff := b.keptOff ||| 2 ^ n }))
    if (slotOf s n).pg then waitSlot n false c s else succeed c s

/-- SLOT_PG_RISE; a slot that is ON gets its sideband address from the steward (R440). -/
def execSlotPgRise (n : Nat) (s : State) : Out :=
  onAo (decide (n < 8)) s fun s =>
    let s := s.modBrk fun b => { b with slots := b.slots.alter n {} fun v => { v with pg := true } }
    if (slotOf s n).state = .powering then
      let s := answerSlot n true .success 0 0 (setSlot n .on s)
      if s.mwr.running ∧ stewards s then emit (.entdaa n (0x30 + n)) s else s
    else s

/-- SLOT_PG_FALL. -/
def execSlotPgFall (n : Nat) (s : State) : Out :=
  onAo (decide (n < 8)) s fun s =>
    answerSlot n false .success 0 0 (s.modBrk fun b => { b with slots := b.slots.alter n {} fun v => { v with pg := false } })

/-- SLOT_POWERING_TIMEOUT. -/
def execSlotPoweringTimeout (n : Nat) (s : State) : Out :=
  onAo (decide ((slotOf s n).state = .powering) && passed s (slotOf s n).since (ms 100)) s fun s =>
    answerSlot n true .notPermitted 10 15 (setSlot n .fault s)

/-- SLOT_DISABLE_TIMEOUT. -/
def execSlotDisableTimeout (n : Nat) (s : State) : Out :=
  onAo ((slotOf s n).pg && decide (ms 100 ≤ s.core.t)) s fun s => answerSlots n false (s.core.t - ms 100) .timeout 0 0 s

/-- SLOT_PG_LOSS. -/
def execSlotPgLoss (n : Nat) (s : State) : Out :=
  onAo (decide ((slotOf s n).state = .on)) s fun s =>
    setSlot n .fault (s.modBrk fun b => { b with slots := b.slots.alter n {} fun v => { v with pg := false } })

/-- SLOT_PRSNT_LOSS: the slot goes OFF and the position is ABSENT; its logged attempts stay (R438, R439). -/
def execSlotPrsntLoss (n : Nat) (s : State) : Out :=
  onAo (decide (n < 8)) s fun s =>
    let s := s.modBrk fun b => { b with present := b.present &&& (255 - 2 ^ n), keptOff := b.keptOff ||| 2 ^ n }
    let s := answerSlot n true .notPermitted 10 15 (setSlot n .off s)
    let s := modPos n (fun p => { attempts := p.attempts, waiters := p.waiters }) s
    endVerifies n s

/-- SLOT_QUERY. -/
def execSlotQuery (id : CmdId) (s : State) : Out :=
  mailbox 0x121 id s fun c s => complete c .success (brkSlot s) 0 s

/-- SLOT_SELF. -/
def execSlotSelf (id : CmdId) (s : State) : Out :=
  mailbox 0x122 id s fun c s =>
    checks [deny (!stewards s) 9 c, fields c [rsv c.pkt 3 31 3]]
      (fun s => succeed c (s.modMwr fun m => { m with self := some (fld c.pkt 3 2 0) })) s

end Sys2Proof.Machine
end

