-- ==== Sys2Proof/Machine/Check.lean ====
section
/-! DEFINITION. The check engine commands (12 R340 to R353). -/

namespace Sys2Proof.Machine

/-- An engine CONTEXT names that the function has not claimed (R340). -/
def engineBad (s : State) (c : Cmd) : Bool := decide (15 < c.context) || decide ((engineOf s c.context).owner ≠ some c.fn)

/-- CHK_CLAIM (R342). -/
def execChkClaim (id : CmdId) (s : State) : Out :=
  onCmd .chkClaim id s fun c s =>
    let take (n : Nat) (s : State) : State := complete c .success (if fbit c.pkt 2 0 then n else 0) 0 (modEngine n (claimed c.fn) s)
    if s.core.datReset then s
    else checks [fields c [rsv c.pkt 2 31 1]]
      (fun s =>
        if fbit c.pkt 2 0 then
          match (numsWhere 16 fun n => (engineOf s n).owner.isNone).head? with
          | some n => take n s
          | none => complete c .noResource 0 0 s
        else if 15 < c.context then invalid c 4 s
        else
          match (engineOf s c.context).owner with
          | none => take c.context s
          | some f => if f = c.fn then succeed c s else complete c .noResource 0 f s) s

/-- The configuration CHK_CONFIG gives (R345). -/
def chkCfgOf (p : List Word) : ChkCfg :=
  { mode := fld p 2 2 0
    free := ⟨fld p 2 14 8, qw p 3, qw p 5, fbit p 2 3, fbit p 2 4, qw p 7⟩
    fold := fld p 2 17 16, alive := fld p 2 19 18, ofs := dw p 11 }

/-- The fields of CHK_CONFIG that are out of range (R345). -/
def chkCfgBad (p : List Word) : List (Bool × Nat) :=
  let w := fld p 2 14 8
  let common := [(decide (4 < fld p 2 2 0), 8), rsv p 2 7 5, rsv p 2 15 15, (decide (fld p 2 19 18 = 3), 10), rsv p 2 31 20]
  common ++
    if fld p 2 2 0 = 4 then
      [(decide (w < 8 ∨ 64 < w), 9), (decide (qw p 3 % 2 = 0) || decide (2 ^ w ≤ qw p 3), 12), (decide (2 ^ w ≤ qw p 5), 20),
        (decide (2 ^ w ≤ qw p 7), 28)]
    else
      [(fbit p 2 3 || fbit p 2 4, 8), (decide (w ≠ 0), 9), (decide (qw p 3 ≠ 0), 12), (decide (qw p 5 ≠ 0), 20), (decide (qw p 7 ≠ 0), 28)]

/-- CHK_CONFIG. -/
def execChkConfig (id : CmdId) (s : State) : Out :=
  onCmd .chkConfig id s fun c s =>
    checks [(engineBad s c, invalid c 4), fields c (chkCfgBad c.pkt)]
      (fun s =>
        let cfg := chkCfgOf c.pkt
        succeed c (modEngine c.context (fun e =>
          { e with cfg, seen := none, seq := if cfg.fold = 3 then qw c.pkt 9 else e.seq }) s)) s

/-- CHK_RUN (R350): translated and queued with the engine's configuration. -/
def execChkRun (id : CmdId) (s : State) : Out :=
  onCmd .chkRun id s fun c s =>
    let p := c.pkt
    let e := engineOf s c.context
    let len := dw p 5
    checks [
      (engineBad s c, invalid c 4),
      fields c [vaField p 2 1, (asidBad s c.fn (fld p 4 9 0), 16), rsv p 4 31 10,
        (decide (len = 0) && decide (e.cfg.fold = 0) || decide (e.cfg.alive ≠ 0) && decide (len ≤ e.cfg.ofs), 20), rsv p 8 31 1],
      busy (16 ≤ e.hostQ.length) 10 c]
      (fun s =>
        match translate s {} (fld p 4 9 0) (qw p 2) len with
        | .error f => xlateFault c f 0 s
        | .ok held =>
          pushJob c.context false
            { id := some id, cfg := e.cfg, held, len, expected := qw p 6, compare := fbit p 8 0, foldValue := qw p 9, num := 0 }
            (accept c (noteWalks held s))) s

/-- The race whose TCHECK names an engine (R343). -/
def tcheckRace (s : State) (n : Nat) : Option Nat :=
  (s.whl.races.find? fun r => r.2.tcheck && decide (r.2.engine = n)).map (·.1)

/-- An internal job of an IMAGE_LOAD is queued or runs on an engine. -/
def loadsOn (e : Engine) : Bool := (e.run.toList ++ e.intQ).any fun j => j.image.isSome

/-- CHK_RELEASE (R343). -/
def execChkRelease (id : CmdId) (s : State) : Out :=
  onCmd .chkRelease id s fun c s =>
    let e := engineOf s c.context
    checks [
      (engineBad s c, invalid c 4),
      deny (tcheckRace s c.context).isSome ((tcheckRace s c.context).getD 0 + 2 ^ 31) c,
      busy (loadsOn e) 100 c]
      (fun s =>
        let s := modEngine c.context (fun e => { e with hostQ := [], release := some id }) (accept c s)
        settleRelease c.context (e.hostQ.foldl (fun s j => completeJob j .aborted 0 0 s) s)) s

/-- The running job of an engine ends and the next one starts (R341, R351 to R353). -/
def execChkJobEnd (engine : Nat) (bus : Bus) (s : State) : Out :=
  match (engineOf s engine).run with
  | none => .next s
  | some j =>
    if s.core.datReset then .next s
    else
      let s := match j.frame, j.image with
        | some f, _ => endFrameJob f (ranInternal engine s)
        | none, some k => endLoadJob engine j k (ranInternal engine s)
        | none, none => endRun engine j bus s
      .next (settleRelease engine (modEngine engine Engine.next s))

end Sys2Proof.Machine
end

