-- ==== Sys2Proof/Machine/SchedOps.lean ====
section
/-! DEFINITION. Placement and preemption of items (04 R142 to R145, 05 R157, R163, R164, R182, R184, 10 R317 to R319). -/

namespace Sys2Proof.Machine

/-! ### Keys (R143, R144; log entry 26) -/

/-- Set-sail or turn-level work. -/
def committedWork (s : State) (i : Item) : Bool :=
  match i.owner with
  | .turn _ => true
  | .sail t k => decide ((sailOf s t k).state = .set)
  | _ => false

/-- Raised-sail work. -/
def raisedWork (s : State) (i : Item) : Bool :=
  match i.owner with
  | .sail t k => decide ((sailOf s t k).state = .raised)
  | _ => false

/-- The race of an item's turn. -/
def itemRace (s : State) (i : Item) : Option Race := i.turn?.bind fun t => raceOf s (turnOf s t).race

/-- The key of an item in ns (R143). -/
def itemKey (s : State) (i : Item) : Int :=
  let c : Int := remainingNs s i
  let plain : Int := (i.due : Int) - s.core.t - c
  match itemRace s i with
  | some r =>
    if committedWork s i ∧ r.tstate = .live then (slackOf r s.core.time * 1000000000 / rateOf r.trate : Nat) - c else plain
  | none => plain

/-- The order of R144: key, set-sail and turn-level work first, turn, sail, and the item's number. -/
def orderKey (s : State) (n : Nat) : List Int :=
  match itemOf s n with
  | none => []
  | some i =>
    let o : Int × Int := match i.owner with
      | .sail t k => (t, k)
      | .turn t => (t, 0)
      | _ => (64, 0)
    [itemKey s i, (flag (!committedWork s i) : Nat), o.1, o.2, (n : Nat)]

/-! ### Blocks (R142, R144) -/

/-- The aligned blocks a gang may take: BASE alone for a pinned gang whose BASE aligns, every one otherwise. -/
def Item.bases (i : Item) (f : Nat) : List Nat :=
  if bit i.gang 3 ∧ bits i.gang 7 4 % f = 0 then [bits i.gang 7 4] else (List.range (16 / f)).map (· * f)

/-- Items that hold a floor of a block. -/
def itemsOnBlock (s : State) (base f : Nat) : List (Nat × Item) :=
  s.trn.items.filter fun e => e.2.placed && decide (e.2.base < base + f) && decide (base < e.2.base + e.2.floors)

/-- A block reserved for another item. -/
def reservedFor (s : State) (n base f : Nat) : Bool :=
  match s.trn.reserved with
  | some (k, b, g) => decide (k ≠ n) && decide (b < base + f) && decide (base < b + g)
  | none => false

/-- The save area an item still needs fits in the pool (R164). -/
def saveFits (s : State) (i : Item) (m : Image) : Bool :=
  decide (i.saveBytes ≠ 0) || decide (s.trn.saveUsed + saveArea m ≤ mib s.mem.sizes.save)

/-- The block an item may be placed on now: awake floors first, then the lowest BASE. -/
def blockFor (s : State) (n : Nat) (i : Item) (m : Image) : Option Nat :=
  let free := (i.bases m.floors).filter fun b =>
    permitted s m b && (itemsOnBlock s b m.floors).isEmpty && !reservedFor s n b m.floors
  if saveFits s i m = false then none
  else match free.find? fun b => blockAwake s b m.floors with
    | some b => some b
    | none => free.head?

/-- The least element by a measure, the first of equals. -/
def leastBy (f : Nat → Nat) : List Nat → Option Nat
  | [] => none
  | a :: r => match leastBy f r with
    | none => some a
    | some b => if f b < f a then some b else some a

/-- The permitted block of an item's size predicted to free earliest (R144). -/
def earliestBlock (s : State) (i : Item) (m : Image) : Option Nat :=
  leastBy (fun b => ((itemsOnBlock s b m.floors).map fun e => remainingNs s e.2).foldl max 0)
    ((i.bases m.floors).filter (permitted s m))

/-! ### Starting (R157, R163, R319) -/

/-- Live scratch restored on the stones of a resumed item's block (R163). -/
def restoreWords (base : Nat) (words : Tbl (Tbl OWord)) (s : State) : State :=
  words.foldl (fun s e => modInst (16 * base + e.1) (fun x => { x with words := e.2 }) s) s

/-- A bed as a new block's stone takes it over: nothing of its stage has arrived (R157, R163). -/
def Bed.cold (b : Bed) : Bed := { b with micro := [], spur := 0, buf := [], lo := b.pc, part := 0, need := .none }

/-- What an item does once its floors are awake: a resumed one restores its saved state (R163). -/
def beginItem (n : Nat) (s : State) : State :=
  match itemOf s n with
  | none => s
  | some i =>
    let s := modItem n (fun i => { i with waking := false, saved := none,
                                          beds := (match i.saved with | some v => v.beds.mapVal fun _ b => b.cold | none => i.beds) }) s
    match i.saved with
    | some v => restoreWords i.base v.words s
    | none => s

/-- The directory entries that a near-memory item's BIN bindings name, read (R295). -/
def binEntries (s : State) (i : Item) (m : Image) : State :=
  match i.owner, chainOf s i with
  | .nearMem _, some c =>
    (m.binds.filter fun b => decide (b.kind = 5)).foldl (fun s b => readEntry false false (c.bins.getD b.index 0) s) s
  | _, _ => s

/-- The NAK that refuses a near-memory item's BIN bindings at its start: steps 1 to 4 and 7 of R305 (R319). -/
def binRefusal (s : State) (i : Item) (m : Image) : Option Status :=
  match i.owner, chainOf s i with
  | .nearMem _, some c =>
    ((m.binds.filter fun b => decide (b.kind = 5)).filterMap fun b =>
      match judge s (c.bins.getD b.index 0) none 0 b.bytes false with
      | .error e => some (judgeStatus e.1)
      | .ok _ => none).head?
  | _, _ => none

/-- An item placed on a block: its scratch begins as never written (R165), its save area taken at its first placement, its floors woken, its bindings judged, a
sweep's record SWEEPING (R157, R164, R319, R335, R393). -/
def startItem (n base : Nat) (s : State) : State :=
  match itemOf s n with
  | none => s
  | some i =>
    match imageOf s i.image, i.owner with
    | none, .sweep _ bin =>
      let s := modItem n (fun i => { i with state := .running, base, floors := 1 }) s
      forEach (floorsFrom base 1) firstUse (settleVotes (modTally bin (fun r => { r with state := .sweeping }) s))
    | none, _ => s
    | some m, _ =>
      let s := binEntries s i m
      match binRefusal s i m with
      | some st => endNearMem n st s
      | none =>
        let area := if i.saveBytes = 0 then saveArea m else 0
        let s := s.modTrn fun r =>
          { r with
            saveUsed := r.saveUsed + area
            reserved := (match r.reserved with | some (k, b) => if k = n then none else some (k, b) | none => none) }
        let s := clearBlock base m.floors s
        let awake := blockAwake s base m.floors
        let s := modItem n (fun i =>
          { i with
            state := .running, base, floors := m.floors, saveBytes := i.saveBytes + area, adv := 0, yieldAt := none,
            preempt := false, yieldFor := none, resumed := i.saved.isSome, waking := !awake, recvs := recvsOf m, startedAt := some (i.startedAt.getD s.core.t) }) s
        let s := settleVotes (forEach (floorsFrom base m.floors) firstUse s)
        if awake then beginItem n s else s

/-! ### Preemption (R145) -/

/-- A running item may be preempted for X. -/
def yieldsTo (s : State) (x : Item) (e : Item) : Bool :=
  decide (e.state = .running) && !e.stalled && !e.resumed &&
    (if raisedWork s x ∧ committedWork s e then false
     else decide (itemKey s x + us (feature s 0x21 x.fn 2000) < itemKey s e) || (raisedWork s e && committedWork s x))

/-- The eligible block predicted to yield first. -/
def preemptBlock (s : State) (x : Item) (m : Image) : Option Nat :=
  let ok := (x.bases m.floors).filter fun b =>
    let on := itemsOnBlock s b m.floors
    permitted s m b && !on.isEmpty && on.all fun e => yieldsTo s x e.2
  leastBy (fun b => ((itemsOnBlock s b m.floors).map fun e => toBoundary s e.2).foldl max 0) ok

/-- A block yields already for an item. -/
def preempting (s : State) (n : Nat) : Bool :=
  s.trn.items.any fun e => decide (e.2.yieldFor = some n) && (e.2.yieldAt.isSome || decide (e.2.state = .yielding))

/-- Yields asked for the first unplaceable item n, of one block (R145). -/
def preemptFor (n : Nat) (x : Item) (m : Image) (s : State) : State :=
  if preempting s n then s
  else
    match preemptBlock s x m with
    | none => s
    | some b => (itemsOnBlock s b m.floors).foldl (fun s e => askYield e.1 (some n) s) s

/-! ### Placement at a tick (R144, R184) -/

/-- The first unplaceable item reserves a block and asks for yields, unless a reservation already stands. -/
def reserveFor (n : Nat) (i : Item) (m : Image) (s : State) : State :=
  let s := match s.trn.reserved with
    | some _ => s
    | none =>
      match earliestBlock s i m with
      | some b => settleVotes (s.modTrn fun r => { r with reserved := some (n, b, m.floors) })
      | none => s
  preemptFor n i m s

/-- UNPLACEABLE, once for an item, counted in its image (R184). -/
def tellUnplaceable (n : Nat) (i : Item) (m : Image) (s : State) : State :=
  if i.told then s
  else
    let o : Nat × Nat := match i.owner with | .sail t k => (t, k) | .turn t => (t, 0) | _ => (0, 0)
    raise 0x5002 i.fn i.image (o.1 + o.2 * 2 ^ 8) 0 m.gang 0
      (modImage i.image (fun m => { m with unplaceable := m.unplaceable + 1 }) (modItem n (fun i => { i with told := true }) s))

/-- The 16-stone gang of a sweep, which runs no image of the host (R335). -/
def sweepImage : Image :=
  { fn := 0, bytes := [], kib := 0, gang := 0, flags := 0, useMask := 0xFFFF, version := 0, saveBytes := 0, wc := 0,
    arenaBytes := 0, segs := [], binds := [], descs := [], static := [] }

/-- The image an item is placed by. -/
def placeImage (s : State) (i : Item) : Option Image :=
  match i.owner with
  | .sweep _ _ => some sweepImage
  | _ => imageOf s i.image

/-- Ready items placed in order; the first that has a permitted block and cannot be placed reserves one. -/
def placeAll : List Nat → Bool → State → State
  | [], _, s => s
  | n :: r, open_, s =>
    match itemOf s n with
    | none => placeAll r open_ s
    | some i =>
      match placeImage s i with
      | none => placeAll r open_ s
      | some m =>
        match blockFor s n i m with
        | some b => placeAll r open_ (startItem n b s)
        | none =>
          if ((i.bases m.floors).filter (permitted s m)).isEmpty then placeAll r open_ (tellUnplaceable n i m s)
          else placeAll r false (if open_ then reserveFor n i m s else s)

/-- The Wheelhouse places ready items (R144). -/
def placeItems (s : State) : State :=
  let ready := (itemsWhere s fun i => decide (i.state = .ready)).map (·.1)
  if ready.isEmpty then s else placeAll (sortByKey (orderKey s) ready) true s

end Sys2Proof.Machine
end

