-- ==== Sys2Proof/Machine/Race.lean ====
section
/-! DEFINITION. The Race commands, landings, the Wheelhouse tick and what falls due (03). -/

namespace Sys2Proof.Machine

/-! ### Opening and closing (R84 to R88) -/

/-- Quota of a function for races, turns or images (R80). -/
def quotaOf (s : State) (id fn all : Nat) : Nat := if fn = 0 then all else feature s id fn 0

/-- Bytes of a ring of 2^k slots (R87). -/
def ringBytes (k : Nat) : Nat := 4096 + 2048 * 2 ^ k

/-- The check engine is claimed by a function (R86, R340). -/
def engineOwned (s : State) (n fn : Nat) : Bool :=
  match s.chk.engines.get n with
  | some e => decide (e.owner = some fn)
  | none => false

/-- Rings that are local HBM and overlap neither each other nor a ring of an open race (R87). -/
def ringFault (s : State) (a b : Held) : Option Nat :=
  let hbm (h : Held) : Bool := h.segs.all fun g => decide (g.target = .hbm)
  let taken (h : Held) : Bool := s.whl.races.any fun e => segsOverlap h.segs e.2.inRing.segs || segsOverlap h.segs e.2.outRing.segs
  if !hbm a || taken a then some 32
  else if !hbm b || taken b || segsOverlap a.segs b.segs then some 44
  else none

/-- RACE_OPEN (R84 to R87). -/
def execRaceOpen (id : CmdId) (s : State) : Out :=
  onCmd .raceOpen id s fun c s =>
    let p := c.pkt
    let rate := rateOf (fld p 2 3 2)
    let tcheck := fbit p 2 8
    let asid := fld p 13 15 0
    checks [
      (s.whl.races.has c.context, invalid c 4),
      fields c [
        (decide (8 < fld p 2 7 4), 8), rsv p 2 15 9, (tcheck && !engineOwned s (fld p 2 19 16) c.fn, 10), rsv p 2 31 20,
        (decide (rate / 2 < dw p 3), 12), (decide (0x7FFFFFFFFFFF < qw p 4), 16), (decide (0x7FFFFFFFFFFF < qw p 6), 24),
        vaField p 8 65536, (decide (fld p 10 3 0 < 4 ∨ 12 < fld p 10 3 0), 40), (decide (fld p 10 7 4 < 4 ∨ 12 < fld p 10 7 4), 40),
        rsv p 10 31 8, vaField p 11 65536, (asidBad s c.fn asid, 52), rsv p 13 31 16],
      noRes (quotaOf s 0x02 c.fn 2048 ≤ racesOf s c.fn) c]
      (fun s =>
        match translate s { write := true } asid (qw p 8) (ringBytes (fld p 10 3 0)),
              translate s { write := true } asid (qw p 11) (ringBytes (fld p 10 7 4)) with
        | .error f, _ => xlateFault c f 0 s
        | _, .error f => xlateFault c f 0 s
        | .ok a, .ok b =>
          match ringFault s a b with
          | some o => invalid c o s
          | none =>
            let jitter := if dw p 3 = 0 then feature s 0x12 c.fn 60 * rate / 1000 else dw p 3
            let r : Race :=
              { fn := c.fn, hrate := fld p 2 1 0, trate := fld p 2 3 2, tframe := if fld p 2 7 4 = 0 then 4 else fld p 2 7 4,
                tcheck, engine := fld p 2 19 16, tailStart := qw p 6, jitter, inRing := a, inLog := fld p 10 3 0, outRing := b,
                outLog := fld p 10 7 4, anchor := s.core.time, h := qw p 4, w := qw p 6 }
            let s := noteWalks b (noteWalks a s)
            let s := touch c.context (s.modWhl fun w => { w with races := w.races.set c.context r })
            succeed c (putTailHeader c.context (putHeadHeader c.context s))) s

/-- A command on a race of its function (R48 check 6). -/
def withRace (c : Cmd) (k : Race → State → State) (s : State) : State :=
  match raceOf s c.context with
  | some r => if r.fn = c.fn then k r s else invalid c 4 s
  | none => invalid c 4 s

/-- RACE_CLOSE (R88). -/
def execRaceClose (id : CmdId) (s : State) : Out :=
  onCmd .raceClose id s fun c s => withRace c (fun _ s => succeed c (closeRace c.context 5 s)) s

/-- RACE_ANCHOR (R101): the anchor, and the thresholds positions define. -/
def execRaceAnchor (id : CmdId) (s : State) : Out :=
  onCmd .raceAnchor id s fun c s =>
    withRace c (fun _ s =>
      let s := modRace c.context (fun r => { r with anchor := qw c.pkt 2 }) s
      match raceOf s c.context with
      | none => succeed c s
      | some r =>
        succeed c (s.modWhl fun w => { w with cogs := w.cogs.mapVal fun k g => if k / 16 = c.context then g.retime r else g })) s

/-! ### Reports (R102 to R105) -/

/-- PLAYOUT_REPORT: RESULT the reason, RESULT2 the slack after it. -/
def execPlayoutReport (id : CmdId) (s : State) : Out :=
  onCmd .playoutReport id s fun c s =>
    withRace c (fun _ s =>
      checks [fields c [rsv c.pkt 3 31 16, rsv c.pkt 6 31 1]]
        (fun s =>
          let e := applyReport c.context (qw c.pkt 2) (qw c.pkt 4) (fbit c.pkt 6 0) false s
          let slack := match raceOf e.2 c.context with | some r => slackOf r e.2.core.time | none => 0
          complete c .success e.1 (sat 0xFFFFFFFF slack) e.2) s) s

/-- A member marked time-suspect writes through a QP (R375). -/
def suspectQp (s : State) (qp : Option Nat) : Bool :=
  qp.any fun q => match s.rdm.qps.get q with | some x => (peer s x.member).timeSuspect | none => false

/-- The report slot's RSEQ is written (R102, R103), over a QP or otherwise (R375). -/
def execReportSlotWrite (race : Nat) (w : RseqWrite) (s : State) : Out :=
  let rseq := w.rseq
  match raceOf s race with
  | none => .next s
  | some r =>
    let s := putHeld r.inRing (0x40 + 28) (leBytes 4 rseq) s
    if rseq % 2 ^ 32 ≠ (r.rseq + 1) % 2 ^ 32 then .next s
    else
      let s := modRace race (fun r => { r with rseq := rseq % 2 ^ 32 }) (idleExit s)
      let (l, s) := getHeld r.inRing 0x40 20 s
      let l := l.map (·.1)
      let e := applyReport race (num l 0 8 % 2 ^ 48) (num l 8 8) (bit (num l 16 4) 0) (suspectQp s w.qp) s
      .next (if e.1 = 0 then e.2 else raise 0x3005 r.fn race 0 r.w e.1 0 e.2)

/-! ### Cogs (R109 to R114) -/

/-- The reserved fields of an action's arguments, as dword, high and low bit (R111, R125, R127, R208). -/
def argSpare : Nat → List (Nat × Nat × Nat)
  | 0 => [(8, 31, 0), (9, 31, 0), (10, 31, 0), (11, 31, 0), (12, 31, 0), (13, 31, 0)]
  | 1 => [(7, 31, 6), (8, 31, 24), (9, 31, 8), (10, 31, 0), (11, 31, 0), (12, 31, 0), (13, 31, 0)]
  | 2 => [(7, 31, 16), (8, 31, 0), (9, 31, 0), (10, 31, 0), (11, 31, 0), (12, 31, 0), (13, 31, 0)]
  | 3 => [(9, 31, 30), (10, 31, 30), (12, 31, 25), (13, 31, 0)]
  | 4 => [(7, 7, 6), (7, 31, 10), (8, 31, 24), (9, 31, 8), (10, 31, 0), (11, 31, 0), (12, 31, 0), (13, 31, 0)]
  | _ => [(7, 7, 6), (7, 31, 10), (8, 31, 0), (9, 31, 0), (10, 31, 0), (11, 31, 0), (12, 31, 0), (13, 31, 0)]

/-- A threshold outside its type's range (R109). -/
def thrBad (type : Nat) (invert : Bool) (base v : Nat) : Bool :=
  match type with
  | 0 => decide (posLimit < v)
  | 1 => decide (v = 0 ∨ 0xFFFFFFFF < v)
  | 2 => decide (posLimit < v)
  | 3 => if invert then decide (v ≠ 0) else decide (v = 0 ∨ 0xFFFFFFFF < v)
  | _ => decide (base ≠ 0) && decide (posLimit < v)

/-- A mode that its type does not take (R110). -/
def modeBad (type mode : Nat) : Bool :=
  match mode with
  | 0 => false
  | 1 => decide (type = 1 ∨ type = 3)
  | 2 => !decide (type = 1 ∨ type = 3)
  | _ => true

/-- The offending fields of a COG_SET (R109 to R113, R208). -/
def cogFields (s : State) (fn : Nat) (p : List Word) : List (Bool × Nat) :=
  let type := fld p 2 6 4
  let mode := fld p 2 9 8
  let inv := fbit p 2 10
  let rel := fbit p 2 11
  let base := fld p 2 13 12
  let action := fld p 2 19 16
  [ (decide (4 < type), 8), rsv p 2 7 7, (modeBad type mode, 9), (inv && decide (type ≠ 3), 9),
    (rel && decide (type = 1 ∨ type = 3), 9), (decide (base ≠ 0) && decide (type ≠ 4 ∨ base = 3), 9), rsv p 2 15 14,
    (decide (6 < action), 10), rsv p 2 31 20, (thrBad type inv base (qw p 3), 12),
    (decide (mode = 1) != decide (qw p 5 ≠ 0), 20) ] ++
  (if 6 < action then [] else (argSpare action).map fun e => rsv p e.1 e.2.1 e.2.2) ++
  (if action = 3 then
    let off := fld p 9 29 0
    let len := fld p 10 29 0
    [ ((hopperQp s fn (handleGranary (qw p 7))).isNone, 28), (decide (off % 4096 ≠ 0), 36),
      (decide (len % 4096 ≠ 0 ∨ len = 0), 40), (decide (2 ^ 30 < off + len), 36) ]
   else [])

/-- The threshold in force of a COG_SET, with the position a BASE 1 or 2 one is defined by (R109). -/
def thrOf (r : Race) (now : Nat) (p : List Word) : Nat × Nat :=
  let v := qw p 3
  let rel := fbit p 2 11
  match fld p 2 6 4, fld p 2 13 12 with
  | 0, _ => (if rel then r.h + v else v, 0)
  | 2, _ => (if rel then r.w + v else v, 0)
  | 4, 0 => (if rel then now + v else v, 0)
  | 4, 1 => let q := if rel then r.h + v else v
    (timeOf r.anchor (rateOf r.hrate) q, q)
  | 4, 2 => let q := if rel then r.w + v else v
    (timeOf r.anchor (rateOf r.trate) q, q)
  | _, _ => (v, 0)

/-- COG_SET (R113). -/
def execCogSet (id : CmdId) (s : State) : Out :=
  onCmd .cogSet id s fun c s =>
    withRace c (fun r s =>
      let p := c.pkt
      let put (hopper : Option Held) (s : State) : State :=
        let t := thrOf r s.core.time p
        let g : Cog :=
          { cfg := fld p 2 19 0, thr := t.1, pos := t.2, step := qw p 5, args := (List.range 7).map fun i => dw p (7 + i),
            vref := r.v, hopper }
        succeed c (touch c.context (s.modWhl fun w => { w with cogs := w.cogs.set (c.context * 16 + fld p 2 3 0) g }))
      checks [fields c (cogFields s c.fn p)]
        (fun s =>
          if fld p 2 19 16 = 3 then
            match translate s { write := true, ddr := false, host := false } r.inRing.asid (qw p 11) (fld p 10 29 0) with
            | .error f => xlateFault c f 0 s
            | .ok h => put (some h) (noteWalks h s)
          else put none s) s) s

/-- COG_CLEAR (R114). -/
def execCogClear (id : CmdId) (s : State) : Out :=
  onCmd .cogClear id s fun c s =>
    withRace c (fun _ s =>
      checks [fields c [rsv c.pkt 2 31 16]]
        (fun s =>
          let keys := (maskBits 16 (fld c.pkt 2 15 0)).map (c.context * 16 + ·)
          let tripped := keys.foldl (fun a k => match s.whl.cogs.get k with
            | some g => if g.tripped then a + 2 ^ (k % 16) else a
            | none => a) 0
          complete c .success tripped 0
            (s.modWhl fun w =>
              { w with
                cogs := forEach keys (fun k t => t.modify k fun g => { g with armed := false, lit := false, hopper := none }) w.cogs
                late := w.late.filter fun k => !keys.contains k })) s) s

/-! ### RACE_QUERY (R118) -/

/-- Armed and tripped slot masks of a race. -/
def cogMask (s : State) (rid : Nat) (f : Cog → Bool) : Nat :=
  (s.whl.cogs.filter fun e => decide (e.1 / 16 = rid) && f e.2).foldl (fun a e => a + 2 ^ (e.1 % 16)) 0

/-- The 128-byte record. -/
def raceRecord (s : State) (rid : Nat) (r : Race) : List Byte :=
  let now := s.core.time
  let (pr, tr) := r.real.getD (0, 0)
  let (fp, ft) := r.refill.getD (0, 0)
  let refill := match baseOf r with | some b => b.2.2 | none => false
  let lag : Int := (now : Int) - timeOf r.anchor (rateOf r.hrate) r.h
  leBytes 8 r.h ++ leBytes 8 (r.w + flag r.final * 2 ^ 63) ++ leBytes 8 (playPos r now) ++ leBytes 4 (sat 0xFFFFFFFF (slackOf r now)) ++
    leBytes 1 (r.tstate.code + flag r.real.isSome * 16 + flag refill * 32 + flag r.playoutLocal * 64 + flag r.voiced * 128) ++
    leBytes 1 (r.hrate + r.trate * 4) ++ leBytes 2 (cogMask s rid fun g => g.armed) ++ leBytes 8 r.v ++ leBytes 8 r.anchor ++
    leBytes 8 pr ++ leBytes 8 tr ++ leBytes 8 fp ++ leBytes 8 ft ++ leBytes 8 (ofSigned 64 lag) ++ leBytes 4 r.gap ++
    leBytes 4 r.jitter ++ leBytes 4 r.inSeq ++ leBytes 4 r.outSeq ++
    leBytes 4 (cogMask s rid (fun g => g.tripped) + r.repRej * 2 ^ 16) ++ leBytes 20 0

/-- RACE_QUERY. -/
def execRaceQuery (id : CmdId) (s : State) : Out :=
  onCmd .raceQuery id s fun c s =>
    withRace c (fun r s => succeed c (emitData c (qw c.pkt 2) (raceRecord s c.context r) s)) s

/-! ### Landings (R91 to R95) -/

/-- Why a frame is rejected: 2 to 4 of R93, 5 for POSITION_LIMIT, 0 for none. -/
def frameReason (r : Race) (d : List Byte) : Nat :=
  let pos := num d 0 8
  let n := num d 8 2
  let rate := rateOf r.hrate
  if n < rate / 400 ∨ rate / 50 < n ∨ 2 ^ 48 ≤ pos ∨ 4 ≤ num d 10 1 ∨ num d 11 1 ≠ 0 ∨ num d 12 4 ≠ 0 ∨ num d 24 4 ≠ 0 then 2
  else if pos < r.h then 4
  else if r.h < pos ∧ bit (num d 10 1) 0 = false then 3
  else if posLimit < pos + n then 5
  else 0

/-- A landing in a slot (R93 to R95). -/
def landFrame (rid slot seq : Nat) (r : Race) (s : State) : State :=
  let (d, s) := getHeld r.inRing (slotOff slot) 28 s
  let d := d.map (·.1)
  let s := match r.ends.get slot with
    | some e => if r.done < e then raise 0x3004 r.fn rid 0 r.h ((seq + 2 ^ 32 - 2 ^ r.inLog) % 2 ^ 32) 0 s else s
    | none => s
  let s := modRace rid (fun r => { r with inSeq := (seq + 1) % 2 ^ 32, ends := r.ends.erase slot }) s
  let pos := num d 0 8
  let n := num d 8 2
  match frameReason r d with
  | 0 =>
    let s := modRace rid (fun r => { r with h := pos + n, gap := r.gap + (pos - r.h), ends := r.ends.set slot (pos + n) }) s
    let s := if r.h < pos then raise 0x3002 r.fn rid 0 (pos + n) (pos - r.h) 0 s else s
    if bit (num d 10 1) 1 then raise 0x300B r.fn rid 0 (pos + n) seq 0 s else s
  | 5 => raise 0x3008 r.fn rid 0 r.h 0 0 (modRace rid (fun r => { r with rejects := (r.rejects + 1) % 2 ^ 32 }) s)
  | k => raise 0x3003 r.fn rid 0 r.h k 0 (modRace rid (fun r => { r with rejects := (r.rejects + 1) % 2 ^ 32 }) s)

/-- The SEQ of an ingress descriptor is written (R93): a landing when it is NEXT_SEQ. -/
def execIngressSeqWrite (race slot seq : Nat) (s : State) : Out :=
  match raceOf s race with
  | none => .next s
  | some r =>
    if s.core.datReset ∨ 2 ^ r.inLog ≤ slot then .next s
    else
      let seq := seq % 2 ^ 32
      let s := putHeld r.inRing (slotOff slot + 28) (leBytes 4 seq) (idleExit s)
      if seq ≠ r.inSeq then .next (raise 0x3003 r.fn race 0 r.h 1 0 s)
      else .next (putHeadHeader race (landFrame race slot seq r s))

/-- The consumer writes READ_SEQ (R97): slots are freed, and gap markers that waited are written. -/
def execTailReadSeqWrite (race seq : Nat) (s : State) : Out :=
  match raceOf s race with
  | none => .next s
  | some r =>
    let seq := seq % 2 ^ 32
    let s := putHeld r.outRing 0x40 (leBytes 4 seq) (idleExit s)
    let s := modRace race (fun r =>
      let r := { r with readSeq := seq }
      { r with fullTold := r.fullTold && ringFull r }) s
    .next (flushMarkers race (r.markers.length + 1) s)

/-! ### The tick (R115 to R117) and what falls due -/

/-- An uncorrectable Wheelhouse record read in a tick and its consequence (R220). -/
def wheelUe (u : WheelUe) (s : State) : State :=
  let inst := match u.record with | .leaf _ | .walk _ => 257 | .directory => 258 | .sram => 259 | _ => 256
  let told (cons : Nat) (s : State) : State :=
    let s := ocpUe inst u.word u.cls u.syn cons false s
    if u.cls = 3 then degrade inst (groupOf inst u.word) 1 s else if u.cls = 4 then candidate inst u.word none s else s
  match u.record with
  | .leaf n => (told 5 s).modMem fun m => { m with leafCache := m.leafCache.eraseIdx n }
  | .walk n => (told 5 s).modMem fun m => { m with walkCache := m.walkCache.eraseIdx n }
  | .directory => if isGranary s then told 5 s else s
  | .sram => (told 7 s).modMwr fun m => { m with halted := true }
  | .race r => closeRace r 5 (told 1 s)
  | .cog k => (told 2 s).modWhl fun w => { w with cogs := w.cogs.modify k fun g => { g with armed := false, lit := false } }
  | .histogram i => modImage i (fun m => { m with hist := [] }) (told 4 s)
  | .held => (told 5 s).modMem fun m => { m with walks := sat 0xFFFFFFFF (m.walks + 1) }
  | .monitor m => (told 6 s).modEvt fun e => { e with mons := e.mons.modify m fun x => { x.first (stamp s) with ueReset := true } }
  | .other => startCtlReset 6 (noteFatal 6 (told 3 s))

/-- One tick of the Wheelhouse: changed cogs and due ones are evaluated, actions issued in order, ready items placed. -/
def execWheelhouseTick (ue : Option WheelUe) (s : State) : Out :=
  if wheelOn s = false then .next s
  else
    let s := match ue with | some u => wheelUe u s | none => s
    if s.core.ctlReset then .next s
    else
      let s := if isMill s then runCogs s else s
      .next (if s.core.datReset then s else placeItems s)

/-- The due time of a time-driven cog passes (R115): it is evaluated, and its action issued when it trips. -/
def execCogDueExpiry (race slot : Nat) (s : State) : Out :=
  let key := race * 16 + slot
  match raceOf s race, s.whl.cogs.get key with
  | some r, some g =>
    if wheelOn s ∧ slot < 16 ∧ g.timed r then
      match evalCog key s with
      | (some t, s) => .next (touch race (issue key t s))
      | (none, s) => .next s
    else .next s
  | _, _ => .next s

/-- The due time of DRY passes (R107, R108, R115). -/
def execDryDueExpiry (race : Nat) (s : State) : Out := onEvent (wheelOn s) s (dryCheck race)

end Sys2Proof.Machine
end

