-- ==== Sys2Proof/Machine/Usb.lean ====
section
/-! DEFINITION. The USB service port (15 R441 to R443). -/

namespace Sys2Proof.Machine

/-- The port answers vendor requests: attached, enabled, and served (R443). -/
def usbServes (s : State) : Bool := s.usb.attached && s.usb.enable && s.mwr.serves

/-- The 16 bytes of a completion that has no CQ entry: PHASE 0, SQ_HEAD 0 and the carrier value in SQ_ID (R53). -/
def Completion.bytes (sqHead sqId : Nat) (k : Completion) : List Byte :=
  k.entry false sqHead sqId

/-- The host has configured the device by the time it sends a vendor request (log entry 116). -/
def configured (s : State) : State := s.modUsb fun u => { u with dev := 3 }

/-- A SUBMIT whose data stage has completed (R441, R442). -/
def execUsbSubmit (tag : Nat) (pkt : List Word) (input : List Byte) (s : State) : Out :=
  onEvent (usbServes s) s fun s =>
    if pktTag pkt ≠ tag ∨ pkt.length ≠ 16 ∨ 4096 < input.length ∨ 16 ≤ s.usb.done.length then emit .usbStall s
    else arrive .usb 0 pkt none input (idleExit (configured s))

/-- A FETCH of 20 + m bytes whose status stage completes (R441, R442). -/
def execUsbFetch (tag m : Nat) (s : State) : Out :=
  onEvent (usbServes s) s fun s =>
    let s := configured s
    if 4096 < m then emit .usbStall s
    else
      match s.usb.done.find? fun d => decide (d.k.tag = tag) with
      | some d =>
        emit (.answer (leBytes 4 2 ++ d.k.bytes 0 0xFFFF ++ d.output.take m) false)
          (s.modUsb fun u => { u with done := u.done.erase d })
      | none =>
        let running := s.hif.cmds.any fun c => decide (c.id.origin = .usb) && decide (c.tag = tag) && !c.orphan && !c.detached
        emit (.answer (leBytes 4 (flag running)) false) s

/-- A USB bus reset (R442). -/
def execUsbBusReset (s : State) : Out :=
  onEvent (s.usb.attached && s.mwr.serves) s fun s =>
    let l := s.usb.done
    let s := l.foldl (fun s d => retain .usb (retRecOf .usb d.k 0 0xFFFF d.opcode d.context s) s) s
    let s := s.modUsb fun u => { u with done := [], dev := 1 }
    let s := s.modHif fun h =>
      { h with cmds := h.cmds.map fun c => if c.id.origin = .usb then { c with orphan := true } else c }
    raisePf 0xE009 0 l.length s

/-- A write of MWR_USB_CFG by the PF. A disabled port has no pull-up, so the host sees a detach. -/
def execUsbEnableWrite (val : Nat) (s : State) : Out :=
  onEvent s.pwr.pll s fun s =>
    s.modUsb fun u => { u with enable := bit val 0, attached := u.attached && bit val 0, dev := if bit val 0 then u.dev else 0 }

end Sys2Proof.Machine
end

