-- ==== Sys2Proof/Machine/Device.lean ====
section
/-! DEFINITION. The Device-class opcodes and the function level resets (02 R71 to R80, 17 R488, R489). -/

namespace Sys2Proof.Machine

/-! ### Function level and hot reset (R71, R73) -/

/-- FLR_VF. -/
def execFlrVf (n : Nat) (s : State) : Out := onEvent (decide (1 ≤ n ∧ n ≤ 15) && s.pwr.pll) s (flr [n])

/-- FLR_PF. -/
def execFlrPf (s : State) : Out := onEvent s.pwr.pll s flrPf

/-- PCIE_HOT_RESET: link retraining is the link's own. -/
def execPcieHotReset (s : State) : Out := onEvent s.pwr.pll s flrPf

/-! ### NOP, ABORT and IDENTIFY (R75 to R77) -/

/-- NOP. -/
def execNop (id : CmdId) (s : State) : Out := onCmd .nop id s succeed

/-- A command of a submitter that has completed under a tag still shows: its completion is held, retained or waits. -/
def endedUnder (s : State) (id : CmdId) : Bool :=
  ((s.hif.retained.getD (retKey id.origin) {}).recs.any fun r => decide (r.k.tag = id.tag) && decide (r.fn = originFn id.origin)) ||
    (match id.origin with
     | .usb => s.usb.done.any fun d => decide (d.k.tag = id.tag)
     | .pcie f => s.hif.cqs.any fun q => decide (q.2.fn = f) && q.2.waiting.any fun i => decide (i.k.tag = id.tag)
     | .domain _ _ => false)

/-- ABORT; one that names its own tag finds itself accepted. Bits [31:16] of dword2, which the row gives no meaning, are refused as
reserved (DESIGN CHOICE, log entry 103). -/
def execAbort (id : CmdId) (s : State) : Out :=
  onCmd .abort id s fun c s =>
    let target : CmdId := { c.id with tag := fld c.pkt 2 15 0 }
    checks [fields c [rsv c.pkt 2 31 16]]
      (fun s =>
        match findCmd s target with
        | some d =>
          if d.accepted ∨ target = c.id then complete c .success 1 0 s
          else
            let s := s.modGrn fun g => { g with asked := g.asked.filter fun a => a.1 ≠ target, mapWaits := g.mapWaits.filter fun w => w.id ≠ target }
            let s := s.modTly fun y => { y with arrived := y.arrived.filter fun a => a.1 ≠ target }
            complete c .success 0 0 (complete d .aborted 0 0 s)
        | none => complete c .success (if endedUnder s target then 1 else 2) 0 s) s

/-- Version fields major, minor, patch of a packed 48-bit version. -/
def verBytes (n v : Nat) : List Byte :=
  leBytes n (bits v (24 * n - 1) (16 * n)) ++ leBytes n (bits v (16 * n - 1) (8 * n)) ++ leBytes n (bits v (8 * n - 1) 0)

/-- Stones in service. -/
def stonesInService (s : State) : Nat :=
  256 - (s.stn.stones.filter fun e => decide (e.1 < 256) && decide (e.2.state ≠ .inService)).length

/-- Races a function may still open. -/
def racesLeft (s : State) (fn : Nat) : Nat := min (quotaOf s 0x02 fn 2048 - racesOf s fn) (2048 - s.whl.races.length)

/-- SQs assigned to a function (R56). -/
def sqsOf (s : State) (fn : Nat) : Nat :=
  if fn = 0 then (numsWhere 256 fun g => !vfOwned s g).length else (vfRange s fn).count

/-- The identity page. The member ID is the one read at cold reset, also after a BUDGET_WRITE of that setting (DESIGN CHOICE, log
entry 104). -/
def identifyPage (s : State) (fn : Nat) : List Byte :=
  let head := leBytes 2 0x2560 ++ leBytes 1 0xB0 ++ leBytes 1 s.core.roleStat.code ++ leBytes 1 (s.core.member.getD 0) ++ leBytes 1 fn ++
    verBytes 2 s.mwr.fwVer ++ verBytes 1 (Config.ctlFwVersion % 2 ^ 24) ++ leBytes 1 0 ++ leBytes 8 s.dom.digest ++
    leBytes 2 (stonesInService s) ++ leBytes 2 (racesLeft s fn) ++ leBytes 2 (sqsOf s fn) ++ leBytes 1 (flag s.core.member.isSome) ++
    leBytes 1 0 ++ leBytes 8 hbmBytes ++ leBytes 8 (ddrBytes s)
  head ++ leBytes (4096 - 48) 0

/-- IDENTIFY. -/
def execIdentify (id : CmdId) (s : State) : Out :=
  onCmd .identify id s fun c s => succeed c (emitData c (qw c.pkt 2) (identifyPage s c.fn) s)

/-! ### GET_LOG (R78, R79, R488, R489) -/

/-- The 64 bytes of an error record. -/
def ErrRec.bytes (r : ErrRec) : List Byte :=
  leBytes 3 r.index ++ leBytes 1 r.sev ++ leBytes 1 r.source ++ leBytes 1 r.plane ++ leBytes 2 r.code ++ leBytes 8 r.time ++
    leBytes 8 r.addr ++ leBytes 4 r.fn ++ leBytes 4 r.obj ++ leBytes 32 r.detail

/-- The error records from an index on that are still held; from the oldest when the wanted one is gone. -/
def errFrom (s : State) (wanted : Nat) : List ErrRec :=
  let l := s.evt.elog
  let rest := l.dropWhile fun r => decide (r.index ≠ wanted)
  if rest ≠ [] then rest
  else if (wanted + 2 ^ 24 - s.evt.elogNext) % 2 ^ 24 < 2 ^ 23 then []
  else l

/-- A reset cause as page 0x03 gives it: the manual gives no layout (log entry 72). -/
def CauseRec.bytes (r : CauseRec) : List Byte := Config.recordBytes 3 [r.code, flag r.ticks, r.time]

/-- A retained record as LAST_COMPLETIONS gives it. -/
def RetRec.bytes (r : RetRec) : List Byte :=
  ({ r.k with retained := true } : Completion).bytes r.sqHead r.sqId ++ leBytes 1 r.opcode ++ leBytes 1 r.carrier ++ leBytes 2 r.sqId ++
    leBytes 4 r.context ++ leBytes 8 r.time

/-- A page written, at most a length of it. -/
def answerPage (c : Cmd) (data : List Byte) (s : State) : State :=
  let d := data.take (dw c.pkt 5)
  complete c .success d.length 0 (emitData c (qw c.pkt 3) d s)

/-- Page 0x05: the records written whole are released when the flag asks. -/
def answerRetained (c : Cmd) (s : State) : State :=
  let key := retKey c.id.origin
  let t := s.hif.retained.getD key {}
  let page := leBytes 2 t.recs.length ++ leBytes 2 t.dropped ++ leBytes 4 0 ++ t.recs.flatMap RetRec.bytes
  let n := (dw c.pkt 5 - 8) / 32
  let s := answerPage c page s
  if fbit c.pkt 6 0 then s.modHif fun h => { h with retained := h.retained.alter key {} fun x => { x with recs := x.recs.drop n } } else s

/-- Page 0x02: the ring at once, or a WAIT read that stays outstanding (R488). -/
def answerEvents (c : Cmd) (s : State) : State :=
  let waits := (s.hif.cmds.filter fun d => decide (d.fn = c.fn) && (match d.phase with | .waitRead _ => true | _ => false)).length
  if fbit c.pkt 6 1 = false ∨ (s.evt.rings.getD c.fn {}).recs ≠ [] then answerRing c s
  else if 4 ≤ waits then complete c .noResource 0 0 s
  else
    let n := fld c.pkt 7 23 0
    updCmd c.id (fun d => { d with phase := .waitRead (if n = 0 then none else some (s.core.t + us n)) }) s

/-- GET_LOG. Bits [31:8] of dword2 are refused as reserved (DESIGN CHOICE, log entry 103). -/
def execGetLog (id : CmdId) (s : State) : Out :=
  onCmd .getLog id s fun c s =>
    let page := fld c.pkt 2 7 0
    checks [
      bad (decide (page = 0 ∨ 5 < page)) 8 c,
      fields c [rsv c.pkt 2 31 8, rsv c.pkt 6 31 2, (decide (page ≠ 2) && fbit c.pkt 6 1, 24)]]
      (fun s =>
        if page = 1 then
          let l := (errFrom s (fld c.pkt 7 23 0)).filter fun r => decide (c.fn = 0) || decide (r.fn = c.fn)
          answerPage c ((l.take (dw c.pkt 5 / 64)).flatMap ErrRec.bytes) s
        else if page = 2 then answerEvents c s
        else if page = 3 then answerPage c (s.core.causes.flatMap CauseRec.bytes) s
        else if page = 4 then answerPage c (attemptPage s) s
        else answerRetained c s) s

/-- A WAIT read's time limit passes. -/
def execEventWaitTimeout (id : CmdId) (s : State) : Out :=
  match findCmd s id with
  | none => .next s
  | some c =>
    match c.phase with
    | .waitRead (some l) => onEvent (decide (l ≤ s.core.t)) s (complete c .success 0 0)
    | _ => .next s

/-! ### Features (R80) -/

/-- What R80 and the owning chapters say of a feature. -/
structure FeatRule where
  /-- Only the PF sets it. -/
  pf : Bool
  /-- A target that exists. -/
  target : Bool
  /-- A value in range. -/
  value : Bool
  /-- Its value for a target while it has not been set. -/
  default : Nat := 0
  /-- The target it is kept under. -/
  key : Nat := 0
  deriving DecidableEq, Repr

/-- A value from lo to hi. -/
def within (lo v hi : Nat) : Bool := decide (lo ≤ v) && decide (v ≤ hi)

/-- The value that stands for none. -/
def noneValue : Nat := 0xFFFFFFFF

/-- The feature of an ID for a function, target and value; none for an undefined ID. The features that only a mill has are
undefined elsewhere. -/
def featRule (s : State) (fn n target v : Nat) : Option FeatRule :=
  let own (value : Bool) (d : Nat) : Option FeatRule := some ⟨false, decide (target = 0), value, d, fn⟩
  let quota (hi : Nat) : Option FeatRule := some ⟨true, within 1 target 15, within 0 v hi, 0, target⟩
  let dev (value : Bool) (d : Nat) : Option FeatRule := some ⟨true, decide (target = 0), value, d, 0⟩
  match n with
  | 0x01 => quota 1
  | 0x02 => quota 2048
  | 0x03 => quota 64
  | 0x04 => quota 16384
  | 0x05 => quota 65536
  | 0x10 => own (within 0 v 1000) 10
  | 0x11 => own (within 1 v 10000) 1000
  | 0x12 => own (within 0 v 500) 60
  | 0x20 => own (within 1 v 1000) 60
  | 0x21 => own (within 0 v 100000) 2000
  | 0x30 => dev (within 1 v 64) 16
  | 0x40 => dev (within 64 v 4096) 256
  | 0x41 => dev (within 1 v 128) 32
  | 0x42 => if isMill s then dev (within 0 v 128) 16 else none
  | 0x43 => some ⟨false, within 0 target 255, within 0 v 16383 || decide (v = noneValue), noneValue, target + fn * 2 ^ 16⟩
  | 0x44 => some ⟨false, ownsAsid s fn target, decide (v % 2 ^ 36 = 0) && decide (v < 2 ^ 57), 0, fn⟩
  | 0x45 => some ⟨true, within 0 target 4, within 1 v 60000, if target = 2 then 1000 else 10000, target⟩
  | 0x50 => dev (within 1 v 128) 32
  | 0x51 => dev (within 1 v 500) 50
  | 0x52 => dev (within 10 v 1000) 55
  | 0x53 => dev (within 1 v 1000) 50
  | 0x60 => dev (within 0 v 192) 128
  | 0x61 => dev (within 0 v 0x1FF) 0
  | 0x62 => dev (within 0 v 16383) noneValue
  | 0x63 => dev (within 1 v 45) 10
  | 0x80 => some ⟨false, (match globalQ s fn target with | some q => decide ((s.hif.sqs.getD q {}).state ≠ .free) | none => false),
      within 0 v 255 || decide (v = noneValue), noneValue, 0⟩
  | 0x81 => dev (within 0 v 127) 0
  | 0x82 => dev (within 1024 v 65535) 53456
  | 0x83 => dev (within 0 v 1) 0
  | 0x84 => dev (decide (v = 0) || within 10 v 3600) 30
  | 0x90 => dev (within 0 v 100000) 500
  | 0x91 => dev (within 1 v 10000) 200
  | 0x92 => if isMill s then dev (within 0 v 10000) 10 else none
  | _ => none

/-- Some bin of this granary is mirrored. -/
def anyMirrored (s : State) : Bool := s.grn.dir.any fun e => decide (e.2.mstate ≠ .none)

/-- An SQ holds a fetched command other than one of its own that has not completed (R363). -/
def sqHolds (s : State) (q : Nat) (c : Cmd) : Bool :=
  s.hif.cmds.any fun d => decide (d.sq = q) && decide (d.id ≠ c.id) && (match d.id.origin with | .pcie _ => true | _ => false)

/-- A feature takes its value. -/
def putFeature (c : Cmd) (n target v key : Nat) (s : State) : State :=
  if n = 0x80 then
    match globalQ s c.fn target with
    | some q => modSq q (fun r => { r with forward := if v = noneValue then none else some v }) s
    | none => s
  else if n = 0x44 then setFeature n key (v + target + 1) s
  else
    let s := setFeature n key v s
    if n = 0x81 ∨ n = 0x82 then redigest s else s

/-- SET_FEATURE. Bits [31:8] of dword2 are refused as reserved (DESIGN CHOICE, log entry 103). -/
def execSetFeature (id : CmdId) (s : State) : Out :=
  onCmd .setFeature id s fun c s =>
    let n := fld c.pkt 2 7 0
    let target := dw c.pkt 3
    let v := qw c.pkt 4
    match featRule s c.fn n target v with
    | none => invalid c 8 s
    | some f =>
      checks [
        (f.pf && decide (c.fn ≠ 0), refuse c 3 0),
        fields c [rsv c.pkt 2 31 8, (!f.target, 12), (!f.value, 16)],
        (decide (n = 0x61) && anyMirrored s, refuse c 10 0),
        busy (decide (n = 0x80) && (match globalQ s c.fn target with | some q => sqHolds s q c | none => false)) 0 c]
        (fun s => succeed c (putFeature c n target v f.key s)) s

/-- A feature's value for a target. -/
def featureNow (s : State) (fn n target : Nat) (f : FeatRule) : Nat :=
  if n = 0x80 then
    match globalQ s fn target with
    | some q => (s.hif.sqs.getD q {}).forward.getD noneValue
    | none => noneValue
  else if n = 0x44 then
    match bar4Window s fn with
    | some (asid, base) => if asid = target then base else 2 ^ 64 - 1
    | none => 2 ^ 64 - 1
  else feature s n f.key f.default

/-- GET_FEATURE: the value lies in RESULT and RESULT2. Bits [31:8] of dword2 are refused as reserved (DESIGN CHOICE, log entry
103). -/
def execGetFeature (id : CmdId) (s : State) : Out :=
  onCmd .getFeature id s fun c s =>
    let n := fld c.pkt 2 7 0
    let target := dw c.pkt 3
    match featRule s c.fn n target 0 with
    | none => invalid c 8 s
    | some f =>
      checks [fields c [rsv c.pkt 2 31 8, (!f.target, 12)]]
        (fun s =>
          let v := featureNow s c.fn n target f
          complete c .success (v % 2 ^ 32) (v / 2 ^ 32) s) s

end Sys2Proof.Machine
end

