-- ==== Sys2Proof/Machine/Domain.lean ====
section
/-! DEFINITION. The mill domain: its commands, liveness, forwarded commands and time suspicion (13 R356 to R376, R384). -/

namespace Sys2Proof.Machine

/-! ### Joining and leaving (R358 to R360) -/

/-- What follows check 4 of R48 for a DOMAIN_ADMIN command refuses it. -/
def lateAnswer (c : Cmd) (s t : State) : State :=
  match lateRefusal s c.fn (cmdFast s c) c.pkt c.op with
  | some (r, r2) => refuse c r r2 t
  | none => t

/-- DOMAIN_JOIN: the table comes from bus memory, or with the message over the domain channel. A device without a member ID
refuses it whatever it holds (R18). -/
def execDomainJoin (id : CmdId) (bus : Bus) (s : State) : Out :=
  onCmd .domainJoin id s fun c s =>
    let p := c.pkt
    let len := fld p 5 13 0
    let table := match c.id.origin with | .domain _ _ => c.input.take len | _ => Bus.bytes bus (qw p 3) len
    checks [
      (s.core.member.isNone, refuse c 7 0),
      fields c [rsv p 5 31 14, (decide (len < 144 ∨ 8304 < len), 20)],
      bad (decide ((sha384Bytes table).take 32 ≠ slice (pktBytes p) 24 32)) 24 c]
      (fun s =>
        match parseTable table with
        | none => invalid c 20 s
        | some t =>
          checks [
            (!envelopeOk s (s.dom.key.getD t.key) c, refuse c 5 0),
            (!envelopeNew s c, refuse c 6 0),
            busy (flashReleased s) 1000 c,
            ((lateRefusal s c.fn (cmdFast s c) p c.op).isSome, lateAnswer c s),
            bad (decide (t.id ≠ dw p 2) || decide ((t.members.getD (ownMember s) ⟨0, 0⟩).role ≠ s.core.role.code) ||
                !t.members.has (ownMember s) || (joined s && decide (s.dom.id ≠ t.id))) 8 c]
            (fun s =>
              let env := c.env.getD ⟨0, 0, 0⟩
              let s := s.modDom fun d =>
                { d with seq := env.seq, stored := some { table, env, member := ownMember s, role := s.core.role } }
              let s := applyTable t table s
              complete c .success (s.dom.digest % 2 ^ 32) (s.dom.digest / 2 ^ 32) s) s) s

/-- DOMAIN_LEAVE, its envelope verified. -/
def execDomainLeave (id : CmdId) (s : State) : Out :=
  onCmd .domainLeave id s fun c s =>
    let force := fbit c.pkt 2 0
    let bins := (s.grn.dir.filter fun e => decide (e.2.state = .allocated ∨ e.2.state = .lost)).length
    checks [
      fields c [rsv c.pkt 2 31 2],
      (isGranary s && !force && decide (bins ≠ 0), refuse c 10 bins)]
      (fun s =>
        let others := otherMembers s
        let s := if joined s then forEach others memberQpsError (sendAll others (.leave force) s) else s
        let s := s.modDom fun d =>
          { d with join := .none, id := 0, members := [], tableDigest := 0, digest := 0, peers := [] }
        let s := if isMill s then s.modGrn fun g => { g with recs := [], asked := [] } else s
        let s := if fbit c.pkt 2 1 then s.modDom fun d => { d with stored := none, key := none } else s
        succeed c (upCheck s)) s

/-- The record of a member in DOMAIN_STATUS (R384). -/
def statusRecord (s : State) (m : Nat) : List Byte :=
  if s.dom.members.has m then
    let p := peer s m
    leBytes 1 p.state.code ++ leBytes 1 (tableRole s m) ++ leBytes 1 p.reason ++ leBytes 1 p.flags ++ leBytes 2 p.major ++
      leBytes 2 p.minor ++ leBytes 2 p.patch ++ leBytes 2 (msSinceHb s p) ++ leBytes 4 (ofSigned 32 p.offset)
  else leBytes 16 0

/-- DOMAIN_STATUS (R384): the record is written over PCIe only. -/
def execDomainStatus (id : CmdId) (s : State) : Out :=
  onCmd .domainStatus id s fun c s =>
    let s := match c.id.origin with
      | .pcie _ => emitData c (qw c.pkt 2) ((List.range 256).flatMap (statusRecord s)) s
      | _ => s
    complete c .success (domStatus s) (s.dom.digest % 2 ^ 32) s

/-! ### Heartbeats and liveness (R365 to R368) -/

/-- The heartbeat for a member. -/
def heartbeatFor (s : State) (m : Nat) : HbBody :=
  let p := peer s m
  let v := s.mwr.fwVer
  { digest := s.dom.digest, major := bits v 47 32, minor := bits v 31 16, patch := bits v 15 0, role := s.core.role.code,
    timeSuspect := s.dom.timeSuspect, asleep := hbAsleep s, leaving := s.dom.dupAt.isSome || decide (s.dom.join = .leaving),
    t3 := s.core.time, t1 := p.t3, t2 := p.t2 }

/-- Heartbeats fall due: one to every member over every path that reaches it. -/
def execHeartbeatSend (s : State) : Out :=
  onEvent (joined s && !s.core.ctlReset && passed s s.dom.hbSentAt (ms 1)) s fun s =>
    forEach (otherMembers s)
      (fun m s => forEach (paths s m) (fun p s => sendBy m (.heartbeat (heartbeatFor s m)) p s) s)
      (s.modDom fun d => { d with hbSentAt := s.core.t })

/-- The fields a heartbeat leaves of its sender. -/
def Peer.heard (now time : Nat) (h : MsgHead) (b : HbBody) (p : Peer) : Peer :=
  { p with
    flags := flag b.timeSuspect + 2 * flag b.asleep + 4 * flag b.leaving, role := b.role, inc := max p.inc h.inc,
    src := some h.src, hbAt := some now, major := b.major, minor := b.minor, patch := b.patch, t3 := b.t3, t2 := time }

/-- What a granary's heartbeat shows of its sleep (R380). -/
def seeSleep (m : Nat) (asleep : Bool) (s : State) : State :=
  let now := s.dom.seen.get m
  let next := if asleep then some SleepState.asleep else if now = some .asleep then some .exiting else now
  if next = now then s
  else match next with
    | some x => raisePf 0xC006 m x.code (s.modDom fun d => { d with seen := d.seen.set m x })
    | none => s

/-- A heartbeat (R366, R370, R375). -/
def execHeartbeatReceive (h : MsgHead) (b : HbBody) (s : State) : Out :=
  let s := idleExit s
  if msgBad s h then .next (dropMsg s)
  else if h.sender = ownMember s then
    let s := if s.dom.dupAt.isNone then eventAll 0x04 h.sender 5 (forEach (otherMembers s) memberQpsError s) else s
    .next (s.modDom fun d => { d with dupAt := some s.core.t })
  else
    let m := h.sender
    let old := peer s m
    let reason := disagreement s h b
    let restart := old.hbAt.isSome && decide (old.inc < h.inc) && decide (old.state = .up ∨ old.state = .suspect)
    let s := modPeer m (Peer.heard s.core.t s.core.time h b) s
    let s := if restart then lost m 1 s else s
    let s := match (peer s m).state with
      | .unknown | .lost => comesUp m true s
      | .suspect | .left => comesUp m false s
      | _ => s
    let s := judgeOffset m b s.core.time s
    let s := match (peer s m).state with
      | .up => if reason = 0 then s else quarantine m reason s
      | .quarantined =>
        if reason = 0 then
          let n := (peer s m).agree + 1
          if 10 ≤ n then
            let s := modPeer m (fun p => { p with state := .up, reason := 0, agree := 0 }) s
            upCheck (eventAll 0x05 m 0 s)
          else modPeer m (fun p => { p with agree := n }) s
        else modPeer m (fun p => { p with agree := 0, reason }) s
      | _ => s
    .next (if tableRole s m = 2 then seeSleep m b.asleep s else s)

/-- 25 ms without a heartbeat (R366). -/
def execPeerSuspectTimeout (m : Nat) (s : State) : Out :=
  let p := peer s m
  onEvent (decide (p.state = .up) && (match p.hbAt with | some t => passed s t (ms 25) | none => false)) s fun s =>
    let s := modPeer m (fun p => { p with state := .suspect }) s
    let s := raisePf 0xC002 m (msSinceHb s p) s
    upCheck (sendAll (upMembers s) (.suspect m (msSinceHb s p)) s)

/-- The loss of a member is witnessed: a SUSPECT naming it in the last 50 ms, or a domain of two (R366). -/
def witnessed (s : State) (m : Nat) : Bool :=
  decide (s.dom.members.length = 2) ||
    match (peer s m).witness with | some t => decide (s.core.t ≤ t + ms 50) | none => false

/-- 50 ms without a heartbeat and a witness (R366, R367). -/
def execPeerLostTimeout (m : Nat) (s : State) : Out :=
  let p := peer s m
  onEvent (decide (p.state = .suspect) && witnessed s m && (match p.hbAt with | some t => passed s t (ms 50) | none => false)) s
    (lost m 0)

/-- SUSPECT naming a member (R366). -/
def execSuspectReceive (h : MsgHead) (member : Nat) (s : State) : Out :=
  let s := idleExit s
  if msgBad s h then .next (dropMsg s)
  else if member = h.sender ∨ !s.dom.members.has member then .next s
  else .next (modPeer member (fun p => { p with witness := some s.core.t }) s)

/-- LEAVE (R366). -/
def execLeaveReceive (h : MsgHead) (force : Bool) (s : State) : Out :=
  let s := idleExit s
  if msgBad s h then .next (dropMsg s)
  else
    let s := if force && decide (tableRole s h.sender = 2) then lost h.sender 0 s else s
    .next (upCheck (modPeer h.sender (fun p => { p with state := .left }) s))

/-- 50 ms without a heartbeat bearing its own ID (R370). -/
def execDuplicateClearTimeout (s : State) : Out :=
  onEvent (match s.dom.dupAt with | some t => passed s t (ms 50) | none => false) s fun s => s.modDom fun d => { d with dupAt := none }

/-! ### Forwarded commands (R361 to R364) -/

/-- A whole COMMAND message executed, or answered for a quarantined sender (R363, R364, R371). -/
def runCommand (h : MsgHead) (fn : Nat) (pkt : List Word) (env : Option Envelope) (data : List Byte) (s : State) : State :=
  if msgBad s h then dropMsg s
  else if quarantined s h.sender then
    sendMsg h.sender (.reply fn { tag := pktTag pkt, status := .peerQuarantined, result2 := h.sender }) s
  else arrive (.domain h.sender fn) 0 pkt env data s

/-- A COMMAND message, or a fragment of it: message sequence number, index and count (R362). -/
def execCommandReceive (h : MsgHead) (fn : Nat) (pkt : List Word) (env : Option Envelope) (data : List Byte)
    (part : Option (Nat × Nat × Nat)) (s : State) : Out :=
  let s := idleExit s
  match part with
  | none => .next (runCommand h fn pkt env data s)
  | some (seq, index, count) =>
    let mine (r : Reasm) : Bool := decide (r.src = h.src) && decide (r.seq = seq)
    match s.dom.reasm.find? mine with
    | none =>
      if count ≤ 1 then .next (runCommand h fn pkt env data s)
      else if 4 ≤ (s.dom.reasm.filter fun r => decide (r.src = h.src)).length then .next (dropMsg s)
      else .next (s.modDom fun d => { d with reasm := d.reasm ++ [{ src := h.src, seq, count, got := [index], since := s.core.t }] })
    | some r =>
      let got := if r.got.contains index then r.got else r.got ++ [index]
      let rest := s.dom.reasm.filter fun x => !mine x
      if got.length = r.count then .next (runCommand h fn pkt env data (s.modDom fun d => { d with reasm := rest }))
      else .next (s.modDom fun d => { d with reasm := d.reasm.map fun x => if mine x then { x with got } else x })

/-- A reassembly not complete 10 ms after its first fragment (R362). -/
def execReassemblyTimeout (src : Source) (seq : Nat) (s : State) : Out :=
  match s.dom.reasm.find? fun r => decide (r.src = src) && decide (r.seq = seq) with
  | none => .next s
  | some r =>
    onEvent (passed s r.since (ms 10)) s fun s =>
      dropMsg (s.modDom fun d => { d with reasm := d.reasm.filter fun x => !(decide (x.src = src) && decide (x.seq = seq)) })

/-- The map records of a mill after a forwarded Granary command completes (R304). -/
def noteRecord (c : Cmd) (from_ : Nat) (st : Status) (result2 : Nat) (s : State) : State :=
  let h := pktHandle c.pkt
  let fn := c.fn
  let submitted := match s.grn.asked.find? fun a => a.1 = c.id with | some a => a.2 | none => s.core.time
  let expiry := submitted + fld c.pkt 3 5 0 * 1000000000 - 50000
  let rest := s.grn.recs.filter fun r => !(decide (r.handle = h) && decide (r.fn = fn))
  let s := s.modGrn fun g => { g with asked := g.asked.filter fun a => a.1 ≠ c.id }
  if isMill s = false ∨ c.op.row.cls ≠ .granary then s
  else if st = .leaseExpired then s.modGrn fun g => { g with recs := rest }
  else if st = .staleHandle then correctRecords h from_ st result2 s
  else if st ≠ .success then s
  else
    match c.op with
    | .binMap =>
      s.modGrn fun g =>
        { g with recs := rest ++ [{ handle := h, fn, write := bit result2 9, mirrored := bit result2 8, partner := bits result2 7 0, expiry }] }
    | .leaseRenew => s.modGrn fun g => { g with recs := g.recs.map fun r => if r.handle = h ∧ r.fn = fn then { r with expiry } else r }
    | .binUnmap => s.modGrn fun g => { g with recs := rest }
    | _ => s

/-- REPLY: the completion of a forwarded command (R363). -/
def execReplyReceive (h : MsgHead) (fn tag status result result2 : Nat) (retained : Bool) (s : State) : Out :=
  let s := idleExit s
  if msgBad s h then .next (dropMsg s)
  else
    match findCmd s ⟨.pcie fn, tag⟩ with
    | none => .next s
    | some c =>
      match c.phase with
      | .forwarded _ =>
        let st := Status.ofCode status
        .next (completeK c { tag, status := st, result := result % 2 ^ 32, result2 := result2 % 2 ^ 32, retained }
          (noteRecord c h.sender st result2 s))
      | _ => .next s

/-- 100 ms without a REPLY (R363). -/
def execForwardTimeout (id : CmdId) (s : State) : Out :=
  match findCmd s id with
  | none => .next s
  | some c =>
    match c.phase with
    | .forwarded t =>
      onEvent (passed s t (ms 100)) s fun s =>
        complete c .timeout 0 0 (s.modDom fun d => { d with fwdTimeouts := sat 0xFFFFFFFF (d.fwdTimeouts + 1) })
    | _ => .next s

/-! ### Time (R374) -/

/-- 1 s without a master. -/
def execNoMasterTimeout (s : State) : Out :=
  onEvent (passed s s.dom.masterAt (sec 1) && !s.dom.noMaster) s fun s =>
    judgeTime (s.modDom fun d => { d with noMaster := true, synced := false })

/-- 10 s in time holdover. -/
def execHoldoverSuspectTimeout (s : State) : Out :=
  onEvent (s.core.holdover && (match s.dom.holdAt with | some t => passed s t (sec 10) | none => false) && !s.dom.holdLong) s fun s =>
    judgeTime (s.modDom fun d => { d with holdLong := true })

end Sys2Proof.Machine
end

