-- ==== Sys2Proof/Machine/Granary.lean ====
section
/-! DEFINITION. The Granary commands and what happens at a granary's heads and mirrors (10). -/

namespace Sys2Proof.Machine

/-- A Granary-class command meets the granary's sleep first (R379): after COMMIT it waits under STALL or is refused. -/
def grnCmd (op : Opc) (id : CmdId) (mine : Cmd → Bool) (s : State) (f : Cmd → State → State) : Out :=
  match runnable s op id with
  | none => .next s
  | some c =>
    if mine c = false then .next s
    else
      let serves := sleepServes s
      let s := sleepWake s
      .next (if serves then f c s else stallOr c .sleepInProgress (sleepRetry s) s)

/-- Steps 1 to 3 of R305 as a command answers them (R297, R305). -/
def withBin (c : Cmd) (k : Nat → Bin → State → State) (s : State) : State :=
  let s := readEntry false false (pktHandle c.pkt) s
  match judgeHandle s (pktHandle c.pkt) with
  | .error e => if e.1 = 0x10 then complete c .staleHandle 0 e.2 s else invalid c 4 s
  | .ok (i, b) => k i b s

/-! ### Carves (R296) -/

/-- The fields of a carve. -/
def carveOf (p : List Word) : Carve :=
  { quota := fld p 2 22 0, maxLease := fld p 3 5 0,
    members := (List.range 8).foldl (fun a k => a + dw p (4 + k) * 2 ^ (32 * k)) 0 }

/-- Checks of the fields; MAX_LEASE counts only for a carve that stays. -/
def carveChecks (c : Cmd) : List (Bool × (State → State)) :=
  [fields c [
    rsv c.pkt 2 31 23, (decide (fld c.pkt 2 22 0 ≠ 0) && decide (fld c.pkt 3 5 0 = 0 ∨ 60 < fld c.pkt 3 5 0), 12), rsv c.pkt 3 15 6,
    rsv c.pkt 3 31 17]]

/-- CARVE_CREATE of a new carve. -/
def execCarveCreate (id : CmdId) (s : State) : Out :=
  grnCmd .carveCreate id (fun c => decide (fld c.pkt 2 22 0 ≠ 0) && !fbit c.pkt 3 16) s fun c s =>
    checks ([bad (s.grn.carves.has c.context) 4 c] ++ carveChecks c)
      (fun s => succeed c (s.modGrn fun g => { g with carves := g.carves.set c.context (carveOf c.pkt) })) s

/-- CARVE_CREATE with UPDATE. -/
def execCarveUpdate (id : CmdId) (s : State) : Out :=
  grnCmd .carveCreate id (fun c => decide (fld c.pkt 2 22 0 ≠ 0) && fbit c.pkt 3 16) s fun c s =>
    checks ([bad (s.grn.carves.has c.context = false) 4 c] ++ carveChecks c)
      (fun s => succeed c (s.modGrn fun g => { g with carves := g.carves.set c.context (carveOf c.pkt) })) s

/-- CARVE_CREATE with QUOTA 0 and UPDATE: the carve ends, unless it holds bins. UPDATE clear on a carve that exists is refused as for
any carve, and a carve that does not exist has nothing to end (R296; log entry 83). -/
def execCarveDelete (id : CmdId) (s : State) : Out :=
  grnCmd .carveCreate id (fun c => decide (fld c.pkt 2 22 0 = 0)) s fun c s =>
    let n := (s.grn.dir.filter fun e => decide (e.2.state ≠ .free) && decide (e.2.carve = c.context)).length
    checks ([bad (s.grn.carves.has c.context = false ∨ fbit c.pkt 3 16 = false) 4 c] ++ carveChecks c ++ [
      deny (n ≠ 0) n c])
      (fun s => succeed c (s.modGrn fun g => { g with carves := g.carves.erase c.context })) s

/-! ### Bins (R298 to R300) -/

/-- The member is in the carve's MEMBERS. -/
def Carve.admits (v : Carve) (m : Nat) : Bool := bit v.members m

/-- BIN_ALLOC (R298, R299, R316). -/
def execBinAlloc (id : CmdId) (s : State) : Out :=
  grnCmd .binAlloc id (fun _ => true) s fun c s =>
    let p := c.pkt
    let h := pktHandle p
    let size := fld p 3 4 0
    let m := requester s c
    let own := ownMember s
    checks [
      bad (handleGranary h ≠ own ∨ handleGen h ≠ 0 ∨ handleBin h ≠ 0) 4 c,
      bad (s.grn.carves.has (handleCarve h) = false) 4 c,
      fields c [(decide (size < 21 ∨ 30 < size), 12), rsv p 3 7 5, rsv p 3 31 12],
      deny ((s.grn.carves.get (handleCarve h)).all fun v => !v.admits m) 2 c,
      deny (s.grn.servedBy.isSome ∨ s.grn.ownHome = false) 5 c]
      (fun s =>
        let pair := if fbit p 3 11 then bestPair s else if (servingPairs s).contains (fld p 3 10 8) then some (fld p 3 10 8) else none
        match s.grn.carves.get (handleCarve h), pair, freeEntry s with
        | some v, some pr, some i =>
          match freeBlock s pr size with
          | none => complete c .noResource 0 0 s
          | some off =>
            if v.quota < carveUse s (handleCarve h) + 2 ^ size / 2 ^ 21 then complete c .noResource 0 0 s
            else
              let gen := nextGen (binEntry s i).gen
              let b : Bin := { state := .allocated, size, carve := handleCarve h, pair := pr, gen, owner := m,
                               base := pairBase s pr + off, home := own }
              let s := s.modGrn fun g => { g with dir := g.dir.set i b }
              let s := modTally i (fun r => { r with a := {}, b := {}, state := .clear, swept := false, cause := 0, suspA := false, suspB := false }) s
              let hd := mkHandle own (handleCarve h) gen i
              complete c .success (bits hd 31 0) (bits hd 63 32) (zeroBin b s)
        | _, _, _ => complete c .noResource 0 0 s) s

/-- BIN_FREE (R300, R333). -/
def execBinFree (id : CmdId) (s : State) : Out :=
  grnCmd .binFree id (fun _ => true) s fun c s =>
    withBin c (fun i b s =>
      if b.owner ≠ requester s c then refuse c 10 3 s
      else if lockedOut s i then complete c .binDisturbed 0 0 s
      else if (tallyOf s i).state = .occupied then stallOr c .busyRetry 1000 s
      else
        let s := match b.partner with
          | some q => notice q 5 (b.handle (ownMember s) i) 0 0 0 s
          | none => s
        let s := s.modGrn fun g => { g with resilvers := g.resilvers.filter fun r => r.bin ≠ i }
        succeed c (modBin i (fun b => { b with state := .freeing, mstate := .none, partner := none, maps := [] }) s)) s

/-- The zero fill of a FREEING bin ends: its entry is FREE (R300). -/
def execBinZeroFillEnd (bin : Nat) (s : State) : Out :=
  onEvent (decide ((binEntry s bin).state = .freeing)) s fun s =>
    let b := binEntry s bin
    let s := zeroBin b s
    let s := if b.home = ownMember s then s else s.modGrn fun g => { g with mindex := g.mindex.erase b.pindex }
    modTally bin (fun r => { r with a := {}, b := {}, state := .clear, swept := false, cause := 0 })
      (modBin bin (fun b => { gen := b.gen }) s)

/-! ### Maps (R301 to R303) -/

/-- A map, new or renewed, sent to the standby. -/
def sendMap (i : Nat) (m : BinMap) (new : Bool) (s : State) : State :=
  let b := binEntry s i
  notice (b.partner.getD 0) 3 (b.handle (ownMember s) i) (m.member + 256 * flag m.write) m.expiry (flag new) s

/-- A map change completes its command; a mirrored bin has it applied at the standby before (R309). -/
def finishMap (c : Cmd) (i : Nat) (m : BinMap) (new : Bool) (result result2 : Nat) (s : State) : State :=
  if (binEntry s i).mirrored then
    sendMap i m new (accept c (s.modGrn fun g => { g with mapWaits := g.mapWaits ++ [{ id := c.id, bin := i, member := m.member, result, result2 }] }))
  else complete c .success result result2 s

/-- BIN_MAP (R301, R333). -/
def execBinMap (id : CmdId) (s : State) : Out :=
  grnCmd .binMap id (fun _ => true) s fun c s =>
    withBin c (fun i b s =>
      let m := requester s c
      let lease := fld c.pkt 3 5 0
      let carve := s.grn.carves.get b.carve
      checks [
        (lockedOut s i, complete c .binDisturbed 0 0),
        fields c [
          (decide (lease = 0 ∨ 60 < lease) || carve.all fun v => decide (v.maxLease < lease), 12), rsv c.pkt 3 7 6, rsv c.pkt 3 31 9],
        deny (carve.all fun v => !v.admits m) 2 c,
        bad (liveMap s b m).isSome 4 c,
        noRes (8 ≤ b.maps.length) c]
        (fun s =>
          let v : BinMap := { member := m, write := fbit c.pkt 3 8, expiry := s.core.time + sec lease, num := s.grn.mapNum }
          let s := s.modGrn fun g => { g with mapNum := g.mapNum + 1 }
          let s := countMapIn i (modBin i (fun b => { b with maps := b.maps ++ [v] }) s)
          finishMap c i v true (lease * 1000)
            (b.partner.getD 0 + 2 ^ 8 * flag (decide (b.mstate = .inSync)) + 2 ^ 9 * flag v.write + 2 ^ 10 * flag b.partner.isSome) s) s) s

/-- BIN_UNMAP (R303): it completes once the operations the map admitted have left. -/
def execBinUnmap (id : CmdId) (s : State) : Out :=
  grnCmd .binUnmap id (fun _ => true) s fun c s =>
    withBin c (fun i b s =>
      let m := requester s c
      match liveMap s b m with
      | none => complete c .leaseExpired 0 0 s
      | some v =>
        let s := modBin i
          (fun b => { b with maps := b.maps.map fun x => if x = v then { x with closing := true, unmap := some c.id } else x }) (accept c s)
        if mapOps s i m = 0 then endMap i m s else s) s

/-- LEASE_RENEW (R303, R333). -/
def execLeaseRenew (id : CmdId) (s : State) : Out :=
  grnCmd .leaseRenew id (fun _ => true) s fun c s =>
    withBin c (fun i b s =>
      let m := requester s c
      let lease := fld c.pkt 3 5 0
      if lockedOut s i then complete c .binDisturbed 0 0 s
      else if lease = 0 ∨ 60 < lease ∨ fld c.pkt 3 31 6 ≠ 0 then invalid c 12 s
      else
        match liveMap s b m with
        | none => complete c .leaseExpired 0 0 s
        | some v =>
          let w := { v with expiry := max v.expiry (s.core.time + sec lease) }
          let s := modBin i (fun b => { b with maps := b.maps.map fun x => if x = v then w else x }) s
          finishMap c i w false ((w.expiry - s.core.time) / 1000000) 0 s) s

/-- The oldest map of a member admits nothing more. -/
def firstClosing (s : State) (bin member : Nat) : Bool :=
  ((binEntry s bin).maps.find? fun m => decide (m.member = member)).any (·.closing)

/-- The counter reaches a map's E: the map admits nothing more, and ends once nothing it admitted is open (R302). -/
def execLeaseExpiry (bin member : Nat) (s : State) : Out :=
  onEvent ((binEntry s bin).maps.any fun m => decide (m.member = member) && decide (m.expiry ≤ s.core.time)) s fun s =>
    let due (x : BinMap) : Bool := decide (x.member = member) && decide (x.expiry ≤ s.core.time)
    let s := modBin bin (fun b => { b with maps := b.maps.map fun x => if due x then { x with closing := true } else x }) s
    if mapOps s bin member = 0 ∧ firstClosing s bin member then endMap bin member s else s

/-- Every operation a closing map admitted has passed the exit head: the map ends (R302, R303). -/
def execMapDrainEnd (bin member : Nat) (s : State) : Out :=
  onEvent (firstClosing s bin member && decide (mapOps s bin member = 0)) s
    (endMap bin member)

/-! ### Mirrors (R308 to R311) -/

/-- MIRROR_SET with ENABLE (R308): the partner is asked for the copy, and its answer comes with the row: its index, or none when its
carve lacks room. The copy takes the live maps over (R309), and a MIRROR_QP that is not a HANDLE-mode QP in RTS is no partner set
(R307; log entry 113). -/
def execMirrorEnable (id : CmdId) (index : Option Nat) (s : State) : Out :=
  grnCmd .mirrorSet id (fun c => fbit c.pkt 3 0) s fun c s =>
    withBin c (fun i b s =>
      checks [
        (lockedOut s i, complete c .binDisturbed 0 0),
        bad (fld c.pkt 3 31 1 ≠ 0) 12 c,
        bad (b.role ≠ .serving) 4 c,
        deny ((mirrorPartner s).isNone || !mirrorUp s) 4 c,
        (decide (b.mstate = .syncing ∨ b.mstate = .inSync), complete c .success b.pindex 0),
        noRes index.isNone c]
        (fun s =>
          let at_ := if b.home = ownMember s then index.getD 0 else b.pindex
          let s := modBin i (fun b => { b with partner := mirrorPartner s, pindex := at_ }) s
          let s := s.modGrn fun g => { g with resilvers := g.resilvers ++ [{ bin := i, due := s.core.t }] }
          let s := notice ((mirrorPartner s).getD 0) 8 (b.handle (ownMember s) i) (b.size + 2 ^ 8 * b.owner) 0 0 s
          let s := (b.maps.filter fun m => !m.closing && decide (s.core.time < m.expiry)).foldl (fun s m => sendMap i m true s) s
          complete c .success at_ 0 (setMState i .syncing s)) s) s

/-- MIRROR_SET without ENABLE (R308). -/
def execMirrorDisable (id : CmdId) (s : State) : Out :=
  grnCmd .mirrorSet id (fun c => !fbit c.pkt 3 0) s fun c s =>
    withBin c (fun i b s =>
      checks [
        (lockedOut s i, complete c .binDisturbed 0 0),
        bad (fld c.pkt 3 31 1 ≠ 0) 12 c,
        bad (b.role ≠ .serving) 4 c,
        deny (mirrorPartner s).isNone 4 c]
        (fun s =>
          let s := match b.partner with
            | some q => notice q 5 (b.handle (ownMember s) i) 0 0 0 s
            | none => s
          let s := s.modGrn fun g => { g with resilvers := g.resilvers.filter fun r => r.bin ≠ i }
          let s := setMState i .none s
          succeed c (modBin i (fun b => { b with partner := none }) s)) s) s

/-- An operation at its first packet (R305). -/
def execInboundGranaryRequest (r : GReq) (s : State) : Out := 
  onEvent (isGranary s && s.grn.ready && !s.core.datReset) s fun s => enterRequest r (idleExit s)

/-- Chunks of 1 MiB a bin has. -/
def chunks (b : Bin) : Nat := b.bytes / 2 ^ 20

/-- What follows the last chunk of a resilver onto this copy or from it (R311, R315): a PROXY copy serves again, and a copy whose
home another member serves is STANDBY. -/
def synced (i : Nat) (s : State) : State :=
  let role (b : Bin) : BinRole := match b.role with
    | .proxy => .serving
    | .serving => if silenced s b then .standby else .serving
    | .standby => .standby
  let s := setMState i .inSync (modBin i (fun b => { b with role := role b }) s)
  raisePf 0x9002 i i s

/-- A write or a resilver chunk of the serving granary arrives for a copy held here, and is written in order (R310, R311,
R324). -/
def execMirrorWriteArrival (handle off : Nat) (data : List Byte) (poison chunk last : Bool) (s : State) : Out :=
  match localBin s handle with
  | none => .next s
  | some (i, b) =>
    if (b.role = .serving ∧ silenced s b = false) ∨ b.state ≠ .allocated then .next s
    else
      let s := quietAgain (idleExit s)
      let s := passOp i (writeBin b off (data.map fun x => (x, poison)) s)
      let s := emit (.mirror (if chunk then 3 else 1) handle off data.length []) s
      .next (if last then synced i s else s)

/-- The standby acknowledges a forwarded write (R310): the token's exit may follow. -/
def execMirrorAck (token : Nat) (s : State) : Out :=
  .next (s.modTly fun y =>
    { y with tokens := y.tokens.modify token fun t => match t.kind with | .write _ => { t with kind := .write false } | _ => t })

/-- RESILVER_RATE in GB/s (R320). -/
def resilverRate (s : State) : Nat := feature s 0x63 0 10

/-- The next chunk of a resilver is read and sent (R311, R324). -/
def execResilverChunk (bin : Nat) (s : State) : Out :=
  match s.grn.resilvers.find? fun r => decide (r.bin = bin) with
  | none => .next s
  | some r =>
    let b := binEntry s bin
    if r.flight.isSome ∨ s.core.t < r.due ∨ chunks b ≤ r.next ∨ b.state ≠ .allocated ∨ lockedOut s bin then .next s
    else
      let s := meetRange (binCell b (r.next * 2 ^ 20)) (2 ^ 20) (quietAgain (passOp bin s))
      let s := emit (.mirror 2 (b.handle (ownMember s) bin) (r.next * 2 ^ 20) (2 ^ 20) (readBin s b (r.next * 2 ^ 20) (2 ^ 20))) s
      .next (s.modGrn fun g =>
        { g with
          resilvers := g.resilvers.map fun x =>
            if x.bin = bin then { x with flight := some r.next, due := s.core.t + 2 ^ 20 / max 1 (resilverRate s) } else x })

/-- A write that waited for a chunk is forwarded and written (R311). -/
def forwardWaiting (bin : Nat) (s : State) : State :=
  let b := binEntry s bin
  let l := s.tly.tokens.filter fun t => decide (t.2.bin = bin) && t.2.waits.isSome
  l.foldl
    (fun s t =>
      let data := t.2.waits.getD []
      let s := writeBin b t.2.offset data (emit (.mirror 0 (b.handle (ownMember s) bin) t.2.offset data.length data) s)
      s.modTly fun y => { y with tokens := y.tokens.modify t.1 fun x => { x with waits := none } }) s

/-- The last resilver of a cause has ended: RESILVER_DONE (R321). -/
def resilverDone (cause : Option Nat) (s : State) : State :=
  match cause with
  | none => s
  | some p => if s.grn.resilvers.any fun r => decide (r.cause = some p) then s else raisePf 0x9007 p p s

/-- A chunk is acknowledged: waiting writes go, and the last chunk makes the copy IN_SYNC (R311). -/
def execResilverChunkAck (bin : Nat) (s : State) : Out :=
  match s.grn.resilvers.find? fun r => decide (r.bin = bin) with
  | none => .next s
  | some r =>
    if r.flight.isNone then .next s
    else
      let last := decide (chunks (binEntry s bin) ≤ r.next + 1)
      let s := s.modGrn fun g =>
        { g with
          resilvers :=
            if last then g.resilvers.filter fun x => x.bin ≠ bin
            else g.resilvers.map fun x => if x.bin = bin then { x with flight := none, next := r.next + 1 } else x }
      let s := forwardWaiting bin s
      .next (if last then resilverDone r.cause (synced bin s) else s)

/-! ### Failover (R313 to R316, R368) -/

/-- The copies held in IN_SYNC for a home promoted, when there is one (R313). -/
def promoteHeld (home : Nat) (s : State) : State :=
  if isGranary s && s.grn.dir.any fun e => decide (e.2.home = home) && decide (e.2.role = .standby) && decide (e.2.mstate = .inSync)
  then promote home s else s

/-- The IN_SYNC copies of a lost or reset home are promoted (R313). -/
def execPromoteCopies (home : Nat) (s : State) : Out :=
  .next (promoteHeld home s)

/-- This granary's home handed back to it: its copies serve again and it announces the home (R316). -/
def takeHome (s : State) : State :=
  let own := ownMember s
  let l := (s.grn.dir.filter fun e => decide (e.2.home = own) && decide (e.2.role = .standby)).map (·.1)
  let s := forEach l (fun i s => setMState i .inSync (modBin i (fun b => { b with role := .serving }) s)) s
  let s := s.modGrn fun g => { g with servedBy := none, ownHome := true, failover := g.failover.erase own }
  let s := sendAll (otherMembers s) (.announce 2 (own :: s.grn.homes)) s
  raisePf 0x9008 own (own + l.length * 2 ^ 8) s

/-- An ANNOUNCE (R314, R316, R368). -/
def execAnnounceReceive (h : MsgHead) (role : Nat) (homes : List Nat) (s : State) : Out :=
  let s := idleExit s
  if msgBad s h then .next (dropMsg s)
  else
    let own := ownMember s
    let was := decide (s.grn.servedBy = some h.sender)
    let s := modPeer h.sender (fun p => { p with role }) s
    let s := forEach homes
      (fun x s =>
        if x = h.sender then s.modGrn fun g => { g with failover := g.failover.erase x }
        else s.modGrn fun g => { g with failover := g.failover.set x h.sender }) s
    if isGranary s then
      if homes.contains own then .next (s.modGrn fun g => { g with servedBy := some h.sender, ownHome := false })
      else if was then .next (takeHome s)
      else .next s
    else .next s

/-- Where the copy of a handle goes here: the home's own entry at its home, which is FREE, or the lowest FREE one (R308, R316). -/
def copyEntry (s : State) (h : Nat) : Option Nat :=
  match localBin s h with
  | some (i, b) => if b.role = .standby then some i else if b.state = .free then some i else none
  | none => if handleGranary h = ownMember s then some (handleBin h) else freeEntry s

/-- A member asks for the STANDBY copy of a bin (R307 to R309): the carve of the same index must exist and have room for it, and so
must the pool. The answer carries the index plus 1, or 0. -/
def holdCopy (from_ h size owner : Nat) (s : State) : State :=
  let c := handleCarve h
  let own := ownMember s
  let old : Nat := match copyEntry s h with
    | some i => let b := binEntry s i; if b.state = .free then 0 else b.bytes / 2 ^ 21
    | none => 0
  let place : Option (Nat × Nat × Nat) :=
    match copyEntry s h, bestPair s with
    | some i, some p =>
      let b := binEntry s i
      if b.state ≠ .free ∧ b.size = size ∧ (pairOf s b.pair).state = .up then some (i, b.pair, b.base)
      else (freeBlock s p size).map fun off => (i, p, pairBase s p + off)
    | _, _ => none
  match s.grn.carves.get c, place with
  | some v, some (i, p, base) =>
    if v.quota < carveUse s c + 2 ^ size / 2 ^ 21 - old then notice from_ 9 h 0 0 0 s
    else
      let b : Bin := { state := .allocated, size, carve := c, pair := p, gen := handleGen h, owner, role := .standby, mstate := .syncing,
                       partner := some from_, base, home := handleGranary h, pindex := handleBin h }
      let s := modBin i (fun _ => b) s
      let s := if b.home = own then s else s.modGrn fun g => { g with mindex := g.mindex.set (handleBin h) i }
      let s := modTally i (fun r => { r with a := {}, b := {}, state := .clear, swept := false, cause := 0, suspA := false, suspB := false }) s
      notice from_ 9 h (i + 1) 0 0 s
  | _, _ => notice from_ 9 h 0 0 0 s

/-- A NOTICE of a granary (R304, R309, R312, R315), by the model's codes. -/
def execNoticeReceive (h : MsgHead) (code a b c d : Nat) (s : State) : Out :=
  let s := idleExit s
  if msgBad s h then .next (dropMsg s)
  else
    match code with
    | 1 =>
      .next (s.modGrn fun g =>
        { g with recs := g.recs.map fun r => if r.handle = a then { r with mirrored := decide (b = 1) && decide (d = 1), partner := c } else r })
    | 2 =>
      let s := (s.grn.recs.filter fun r => r.handle = a).foldl (fun s r => recLost r s) s
      .next (s.modGrn fun g => { g with recs := g.recs.filter fun r => r.handle ≠ a })
    | 3 =>
      match localBin s a with
      | none => .next s
      | some (i, _) =>
        let v : BinMap := { member := b % 256, write := bit b 8, expiry := c, num := s.grn.mapNum }
        let live (m : BinMap) : Bool := decide (m.member = v.member) && !m.closing
        let s := if d = 1 then
            countMapIn i (modBin i (fun e => { e with maps := e.maps ++ [v] }) (s.modGrn fun g => { g with mapNum := g.mapNum + 1 }))
          else modBin i (fun e => { e with maps := e.maps.map fun m => if live m then { m with expiry := c } else m }) s
        .next (notice h.sender 10 a v.member 0 0 s)
    | 4 =>
      match localBin s a with
      | none => .next s
      | some (i, e) =>
        let s := if e.maps.any fun m => decide (m.member = b) then
            countMapOut i (modBin i (fun e => { e with maps := e.maps.eraseP fun m => decide (m.member = b) }) s)
          else s
        .next (notice h.sender 10 a b 0 0 s)
    | 5 =>
      match localBin s a with
      | none => .next s
      | some (i, e) =>
        if e.role = .standby then
          .next (modTally i (fun r => { r with a := {}, b := {}, state := .clear, swept := false, cause := 0, sweepAt := none })
            (modBin i (fun e => { e with state := .freeing, mstate := .none, partner := none, maps := [] }) s))
        else .next s
    | 6 =>
      match localBin s a with
      | none => .next s
      | some (i, e) =>
        if e.state = .allocated ∧ (s.grn.resilvers.any fun r => decide (r.bin = i)) = false then
          let s := s.modGrn fun g => { g with resilvers := g.resilvers ++ [{ bin := i, due := s.core.t, cause := some b }] }
          .next (if e.role = .serving then setMState i .syncing (modBin i (fun x => { x with partner := some h.sender }) s) else s)
        else .next s
    | 7 => .next (promoteHeld h.sender s)
    | 8 => .next (holdCopy h.sender a (b % 256) (b / 2 ^ 8) s)
    | 10 =>
      match localBin s a with
      | none => .next s
      | some (i, _) =>
        match s.grn.mapWaits.find? fun w => decide (w.bin = i) && decide (w.member = b) with
        | some w => .next (finishMaps i (fun x => decide (x.id = w.id)) s)
        | none => .next s
    | 11 =>
      match localBin s a with
      | none => .next s
      | some (i, _) => .next (breakMirror i 2 s)
    | _ => .next s

/-- A map record's local expiry passes (R304). -/
def execMapRecordExpiry (handle fn : Nat) (s : State) : Out :=
  .next (s.modGrn fun g =>
    { g with recs := g.recs.filter fun r => !(decide (r.handle = handle) && decide (r.fn = fn) && decide (r.expiry ≤ s.core.time)) })

/-- A cold-booted granary has been UP with every other granary for 10 ms: with no promoted copy of its home anywhere it
announces and serves its home (R316). -/
def execHomeClaimWaitExpiry (s : State) : Out :=
  match s.grn.upSince with
  | none => .next s
  | some t =>
    if isGranary s ∧ passed s t (ms 10) ∧ s.grn.ownHome = false ∧ s.grn.servedBy.isNone then
      let s := s.modGrn fun g => { g with ownHome := true }
      .next (sendAll (otherMembers s) (.announce 2 (ownMember s :: s.grn.homes)) s)
    else .next s

/-- Copies of a home served here by promotion. -/
def promoted (s : State) (home : Nat) : Tbl Bin :=
  s.grn.dir.filter fun e => decide (e.2.home = home) && decide (e.2.state ≠ .free) && decide (e.2.state ≠ .freeing)

/-- Every promoted copy is IN_SYNC or freed: new operations for the home are held (R316). -/
def execHomeHandback (home : Nat) (s : State) : Out :=
  onEvent (s.grn.homes.contains home && s.grn.handback.isNone && decide (home ≠ ownMember s) &&
      (promoted s home).all fun e => decide (e.2.mstate = .inSync)) s fun s =>
    s.modGrn fun g => { g with handback := some { home, copies := (promoted s home).length } }

/-- The operations admitted for the home have left: roles swap, the home is announced away, and held operations are
answered with the home's granary (R316). -/
def execHandbackDrainEnd (s : State) : Out :=
  match s.grn.handback with
  | none => .next s
  | some hb =>
    let l := (promoted s hb.home).map (·.1)
    if l.any fun i => decide (openTokens s i ≠ 0) then .next s
    else
      let s := forEach l (fun i => modBin i (fun b => { b with role := .standby })) s
      let s := s.modGrn fun g =>
        { g with handback := none, homes := g.homes.filter (· ≠ hb.home), failover := g.failover.erase hb.home }
      let homes := (if s.grn.ownHome then [ownMember s] else []) ++ s.grn.homes
      let s := sendAll (otherMembers s) (.announce 2 homes) s
      let s := raisePf 0x9008 hb.home (hb.home + hb.copies * 2 ^ 8) s
      .next (hb.held.foldl (fun s r => statusNak r 0x10 (hb.home * 2 ^ 16 + handleGen r.va) s) s)

end Sys2Proof.Machine
end

