-- ==== Sys2Proof/Machine/Image.lean ====
section
/-! DEFINITION. The Image commands, and fencing and reinstating stones (05 R175 to R184). -/

namespace Sys2Proof.Machine

/-! ### Images (R175, R178, R179) -/

/-- IMAGE_LOAD (R175): the container is read, and its checks begin on the named engine; it ends with the last of them. -/
def execImageLoad (id : CmdId) (bus : Bus) (s : State) : Out :=
  onCmd .imageLoad id s fun c s =>
    let p := c.pkt
    let asid := fld p 4 15 0
    let e := fld p 6 3 0
    checks [
      (decide (1023 < c.context) || s.stn.images.has c.context, invalid c 4),
      fields c [vaField p 2 1, (asidBad s c.fn asid, 16), rsv p 4 31 16, (decide (dw p 5 < 128), 20),
        (!engineOwned s e c.fn, 24), rsv p 6 31 4, vaField p 7 1]]
      (fun s =>
        match translate s {} asid (qw p 2) (dw p 5), translate s {} asid (qw p 7) 128 with
        | .error f, _ => xlateFault c f 0 s
        | _, .error f => xlateFault c f 0 s
        | .ok h, .ok b =>
          let (data, s) := readRuns bus h.segs (noteWalks b (noteWalks h s))
          let (block, s) := if anyPoison data then ([], s) else readRuns bus b.segs s
          if anyPoison data || anyPoison block then complete c .poisoned 0 (lastErrIndex s) s
          else
            let block := block.map (·.1)
            let ld : Loading :=
              { id, engine := e, bytes := data.map (·.1), block := (List.range 16).map fun i => num block (8 * i) 8 }
            pushLoadJob ld 0 (accept c (s.modStn fun x => { x with loading := x.loading ++ [ld] }))) s

/-- A command on an image of its function. -/
def withImage (c : Cmd) (k : Image → State → State) (s : State) : State :=
  match imageOf s c.context with
  | some m => if m.fn = c.fn then k m s else invalid c 4 s
  | none => invalid c 4 s

/-- IMAGE_UNLOAD (R178). -/
def execImageUnload (id : CmdId) (s : State) : Out :=
  onCmd .imageUnload id s fun c s =>
    withImage c (fun _ s =>
      match s.stn.chains.find? fun e => e.2.images.contains c.context with
      | some e => refuse c 10 e.1 s
      | none => succeed c (s.modStn fun x => { x with images := x.images.erase c.context })) s

/-- The 256-byte record (R179). -/
def imageRecord (i : Nat) (o : Option Image) : List Byte :=
  match o with
  | none => leBytes 2 0xFFFF ++ leBytes 254 0
  | some m =>
    leBytes 2 i ++ leBytes 1 m.gang ++ leBytes 1 m.flags ++ leBytes 2 m.useMask ++ leBytes 6 m.version ++ leBytes 4 0 ++
      leBytes 8 m.wc ++ leBytes 8 m.predicted ++ leBytes 4 m.runs ++ leBytes 4 m.overruns ++ leBytes 4 m.faults ++
      leBytes 1 m.lastFault ++ leBytes 3 0 ++ leBytes 4 m.kib ++ leBytes 4 m.unplaceable ++ leBytes 8 0 ++
      ((List.range 32).flatMap fun b => leBytes 4 (m.hist.getD b 0)) ++ leBytes 64 0

/-- IMAGE_QUERY (R179): an image ID that is not loaded reads as such. -/
def execImageQuery (id : CmdId) (s : State) : Out :=
  onCmd .imageQuery id s fun c s =>
    match imageOf s c.context with
    | some m => if m.fn = c.fn then succeed c (emitData c (qw c.pkt 2) (imageRecord c.context (some m)) s) else invalid c 4 s
    | none => succeed c (emitData c (qw c.pkt 2) (imageRecord c.context none) s)

/-! ### Chains (R177) -/

/-- A chain with an item ready, running or yielded, or a RAISED or SET sail on it. -/
def chainBusy (s : State) (k : Nat) : Bool :=
  s.trn.items.any (fun e => decide (e.2.chain = some k)) ||
    s.trn.turns.any fun e => e.2.sails.any fun v => decide (v.2.chain = k) && decide (v.2.state = .raised ∨ v.2.state = .set)

/-- The chain exists under another function. -/
def chainForeign (s : State) (c : Cmd) : Bool := match s.stn.chains.get c.context with | some x => decide (x.fn ≠ c.fn) | none => false

/-- Two stages resolve one INDEX differently. -/
def bindsClash (l : List Image) : Bool :=
  l.any fun a => l.any fun b => a.binds.any fun x => b.binds.any fun y => decide (x.index = y.index) && decide (x ≠ y)

/-- The image ID of stage i. -/
def stageField (p : List Word) (i : Nat) : Nat := if i % 2 = 0 then fld p (3 + i / 2) 15 0 else fld p (3 + i / 2) 31 16

/-- CHAIN_BIND with a stage count of 1 to 8. -/
def execChainBind (id : CmdId) (bus : Bus) (s : State) : Out :=
  onCmd .chainBind id s fun c s =>
    let p := c.pkt
    let n := fld p 2 3 0
    if n = 0 then s
    else
      let asid := fld p 9 15 0
      let ids := (List.range (min n 8)).map (stageField p)
      let missing := ids.zipIdx.find? fun e => match imageOf s e.1 with | some m => decide (m.fn ≠ c.fn) | none => true
      let ms := ids.filterMap (imageOf s)
      checks [
        (decide (255 < c.context) || chainForeign s c, invalid c 4),
        fields c [(decide (8 < n), 8), rsv p 2 31 4, vaField p 7 1, (asidBad s c.fn asid, 36), rsv p 9 31 16,
          (missing.isSome, match missing with | some e => 12 + 2 * e.2 | none => 12),
          (bindsClash ms, 12), (isGranary s && ms.any fun m => decide (m.flags ≠ 0), 12)],
        busy (chainBusy s c.context) 1000 c]
        (fun s =>
          let binds := (ms.flatMap (·.binds)).eraseDups
          let kind (k : Nat) : List Binding := binds.filter fun b => decide (b.kind = k)
          let writes (i : Nat) : Bool := ms.any fun m => writesThrough m i
          let block : Except XFault Held :=
            if kind 2 = [] ∧ kind 5 = [] then .ok { asid, va := 0, len := 0, segs := [] } else translate s {} asid (qw p 7) 128
          match block with
          | .error f => xlateFault c f 0 s
          | .ok b =>
            let (d, s) := readRuns bus b.segs s
            let addr := (List.range 16).map fun i => num (d.map (·.1)) (8 * i) 8
            if anyPoison d then complete c .poisoned 0 (lastErrIndex s) s
            else
            match resolveBinds s asid addr writes (kind 2) with
            | .error (f, i) => xlateFault c f i s
            | .ok held =>
              let bins := (kind 5).foldl (fun (t : Tbl Nat) x => t.set x.index (addr.getD x.index 0)) []
              let k : Chain :=
                { fn := c.fn, images := ids, held, bins, arena := (ms.map (·.arenaBytes)).foldl max 0 }
              succeed c (s.modStn fun x => { x with chains := x.chains.set c.context k })) s

/-- CHAIN_BIND with stage count 0: the chain is unbound. -/
def execChainUnbind (id : CmdId) (s : State) : Out :=
  onCmd .chainBind id s fun c s =>
    if fld c.pkt 2 3 0 ≠ 0 then s
    else
      checks [(!s.stn.chains.has c.context || chainForeign s c, invalid c 4), fields c [rsv c.pkt 2 31 4],
        busy (chainBusy s c.context) 1000 c]
        (fun s => succeed c (s.modStn fun x => { x with chains := x.chains.erase c.context })) s

/-! ### Fences (R181) and reinstatement (R183) -/

/-- Named stones that are FENCING or TESTING. -/
def stonesBusy (s : State) (l : List Nat) : Bool :=
  l.any fun n => decide ((stoneOf s n).state = .fencing ∨ (stoneOf s n).state = .testing)

/-- Stones fenced: those in service go to FENCING and their gangs are asked to yield; those without work are FENCED at
once (R181). -/
def fenceStones (id : Option CmdId) (n : Nat) (floor : Bool) (s : State) : State :=
  let l := namedStones n floor
  let s := forEach l (fun k s => modStone k (fun x => if x.state = .inService then { x with state := .fencing } else x) s) s
  let s := if floor then s.modStn fun x => { x with floorFence := x.floorFence ||| 2 ^ (n / 16) } else s
  let on := (l.filterMap fun k => (itemOn s k).map (·.1)).eraseDups
  let s := forEach on (fun k s => askYield k none s) s
  settleVotes (settleFences (s.modStn fun x => { x with fences := x.fences ++ [{ id, stones := l, yields := 0 }] }))

/-- STONE_FENCE. -/
def execStoneFence (id : CmdId) (s : State) : Out :=
  onCmd .stoneFence id s fun c s =>
    checks [(decide (255 < c.context), invalid c 4), fields c [rsv c.pkt 2 31 1],
      busy (stonesBusy s (namedStones c.context (fbit c.pkt 2 0))) 2000 c]
      (fun s => fenceStones (some id) c.context (fbit c.pkt 2 0) (accept c s)) s

/-- STONE_REINSTATE: the floor is held awake while BIST and scratch initialisation run. -/
def execStoneReinstate (id : CmdId) (s : State) : Out :=
  onCmd .stoneReinstate id s fun c s =>
    let floor := fbit c.pkt 2 0
    let l := (namedStones c.context floor).filter fun n => decide ((stoneOf s n).state = .fenced)
    checks [(decide (255 < c.context), invalid c 4), fields c [rsv c.pkt 2 31 1],
      busy (stonesBusy s (namedStones c.context floor)) 2000 c, (l.isEmpty, invalid c 4)]
      (fun s =>
        let s := forEach l (fun n s => clearInst n (modStone n (fun x => { x with state := .testing }) s)) (accept c s)
        let s := s.modStn fun x =>
          { x with tests := x.tests ++ [{ id, stones := l, floor := if floor then some (c.context / 16) else none }] }
        settleVotes (firstUse (c.context / 16) s)) s

/-- BIST of a stone ends (R183). -/
def execReinstateBistEnd (stone : Nat) (pass : Bool) (s : State) : Out :=
  match s.stn.tests.find? fun r => r.stones.contains stone with
  | none => .next s
  | some r =>
    let s := modStone stone (fun x =>
      { x with state := if pass then .inService else .fenced, bistFail := !pass }) (clearInst stone s)
    let s := raisePf (if pass then 0x5004 else 0x5005) stone stone s
    let r' := { r with stones := r.stones.filter (· ≠ stone), failed := r.failed || !pass }
    let rest := s.stn.tests.filter fun x => x.id ≠ r.id
    if r'.stones.isEmpty then
      let s := s.modStn fun x =>
        { x with
          tests := rest
          floorFence := (match r.floor with
            | some f => if r'.failed then x.floorFence else x.floorFence &&& (0xFFFF ^^^ 2 ^ f)
            | none => x.floorFence) }
      .next (settleVotes (if r'.failed then
          failInternal r.id { sev := 2, source := 0x03, plane := 1, code := 0x5005, obj := stone } s
        else completeId r.id .success 0 0 s))
    else .next (s.modStn fun x => { x with tests := x.tests.map fun y => if y.id = r.id then r' else y })

end Sys2Proof.Machine
end

