-- ==== Sys2Proof/Machine/Memory.lean ====
section
/-! DEFINITION. The memory commands, BAR4, hopper fills and the DDR5 pairs (06). -/

namespace Sys2Proof.Machine

/-! ### MAP (R198) -/

/-- The ASID of CONTEXT is not one the function may name. -/
def ctxAsidBad (s : State) (c : Cmd) : Bool := decide (1023 < c.context) || !ownsAsid s c.fn c.context

/-- The target range of a MAP reaches past its target. -/
def targetPast (s : State) (t : Target3) (a n : Nat) : Bool :=
  match t with
  | .hbm => decide (hbmLimit s < a + n)
  | .ddr => decide (ddrBytes s < a + n)
  | .host => decide (2 ^ 57 < a + n)

/-- The leaves of a space without every page a range touches (R198). -/
def dropPages (l : List Extent) (lo hi : Nat) : List Extent :=
  l.flatMap fun e =>
    if e.end_ ≤ lo ∨ hi ≤ e.va then [e]
    else
      let b := e.page.bytes
      let lo' := if lo ≤ e.va then e.va else e.va + (lo - e.va) / b * b
      let hi' := if e.end_ ≤ hi then e.end_ else e.va + ceilDiv (hi - e.va) b * b
      e.cut lo' hi'

/-- MAP. -/
def execMap (id : CmdId) (s : State) : Out :=
  onCmd .map id s fun c s =>
    let p := c.pkt
    let va := qw p 2
    let addr := qw p 4
    let len := qw p 6 % 2 ^ 44
    let create := fbit p 8 6
    let own := ownsAsid s c.fn c.context
    let old := (s.mem.spaces.getD c.context { fn := c.fn }).extents
    checks [
      noRes (create && !own && decide (1024 ≤ s.mem.spaces.length)) c,
      (decide (1023 < c.context) || (!own && (!create || s.mem.spaces.has c.context)), invalid c 4),
      fields c [
        vaField p 2 1, vaField p 4 1, rsv p 7 31 12, (decide (fld p 8 1 0 = 3), 32), (decide (fld p 8 3 2 = 3), 32), rsv p 8 31 7]]
      (fun s =>
        match PageSize.ofCode (fld p 8 1 0), Target3.ofCode (fld p 8 3 2) with
        | some page, some target =>
          let b := page.bytes
          let denied := decide (target = .ddr) && isGranary s
          let new := insertExtent { va, page, count := len / b, target, addr, w := fbit p 8 4 } (dropPages old va (va + len))
          let tables := ptsUsed s - (if own then tableBytes old else 0) + tableBytes new
          checks [
            fields c [
              (decide (va % b ≠ 0), 8),
              (decide (addr % b ≠ 0) || (!denied && targetPast s target addr len), 16),
              (decide (len = 0) || decide (len % b ≠ 0) || decide (2 ^ 43 < len) || decide (2 ^ 57 < va + len), 24),
              (!fbit p 8 5 && rangeMapped old va (va + len), 32)],
            deny denied 1 c,
            heldCheck s c.context va (va + len) c,
            noRes (mib s.mem.sizes.pt < tables) c]
            (fun s =>
              succeed c (dropCached old c.context va (va + len)
                (s.modMem fun m => { m with spaces := m.spaces.set c.context { fn := c.fn, extents := new } }))) s
        | _, _ => invalid c 32 s) s

/-! ### UNMAP and XLATE_INVALIDATE (R199, R200) -/

/-- UNMAP of a range. -/
def execUnmap (id : CmdId) (s : State) : Out :=
  onCmd .unmap id s fun c s =>
    let p := c.pkt
    if fbit p 6 0 then s
    else
      let va := qw p 2
      let hi := va + qw p 4 % 2 ^ 44
      let old := (s.mem.spaces.getD c.context { fn := c.fn }).extents
      checks [
        (ctxAsidBad s c, invalid c 4),
        fields c [vaField p 2 1, rsv p 5 31 12, rsv p 6 31 2, (splitsPage old va hi, 8)],
        heldCheck s c.context va hi c]
        (fun s =>
          let s := s.modMem fun m => { m with spaces := m.spaces.modify c.context fun sp => { sp with extents := unmapRange sp.extents va hi } }
          invalidate c old c.context va hi (fbit p 6 1) false s) s

/-- UNMAP with DESTROY: the whole address space goes. -/
def execUnmapDestroy (id : CmdId) (s : State) : Out :=
  onCmd .unmap id s fun c s =>
    let p := c.pkt
    if fbit p 6 0 = false then s
    else
      let old := (s.mem.spaces.getD c.context { fn := c.fn }).extents
      checks [
        (ctxAsidBad s c, invalid c 4),
        fields c [(decide (qw p 2 ≠ 0), 8), (decide (qw p 4 ≠ 0), 16), rsv p 6 31 2],
        heldCheck s c.context 0 (2 ^ 57) c]
        (fun s =>
          let s := s.modMem fun m => { m with spaces := m.spaces.modify c.context fun sp => { sp with extents := [] } }
          invalidate c old c.context 0 (2 ^ 57) (fbit p 6 1) true s) s

/-- XLATE_INVALIDATE: LENGTH 0 is the whole address space. -/
def execXlateInvalidate (id : CmdId) (s : State) : Out :=
  onCmd .xlateInvalidate id s fun c s =>
    let p := c.pkt
    let len := qw p 4 % 2 ^ 44
    let lo := if len = 0 then 0 else qw p 2
    let hi := if len = 0 then 2 ^ 57 else qw p 2 + len
    let old := (s.mem.spaces.getD c.context { fn := c.fn }).extents
    checks [
      (ctxAsidBad s c, invalid c 4),
      fields c [vaField p 2 1, rsv p 5 31 12, rsv p 6 31 1],
      heldCheck s c.context lo hi c]
      (invalidate c old c.context lo hi (fbit p 6 0) false) s

/-- The last descriptor a drain waits for has ended (R199, R200). -/
def execInvalidateDrainEnd (id : CmdId) (s : State) : Out :=
  match s.mem.drains.find? fun d => d.id = id with
  | none => .next s
  | some d => onEvent (drainOver s d) s (endDrain d)

/-! ### COPY (R203, R204) -/

/-- COPY accepted: translated and queued. -/
def execCopy (id : CmdId) (s : State) : Out :=
  onCmd .copy id s fun c s =>
    let p := c.pkt
    let len := qw p 7
    let zero := fbit p 9 0
    let dasid := fld p 6 9 0
    checks [
      (ctxAsidBad s c, invalid c 4),
      fields c [vaField p 2 1, vaField p 4 1, (asidBad s c.fn dasid, 24), rsv p 6 31 10,
        (decide (len % 2 ^ 41 = 0) || decide (2 ^ 40 < len % 2 ^ 41), 28), rsv p 8 31 9, rsv p 9 31 1]]
      (fun s =>
        let src : Except XFault (Option Held) :=
          if zero then .ok none
          else match translate s {} c.context (qw p 2) len with | .ok h => .ok (some h) | .error f => .error f
        match src, translate s { write := true } dasid (qw p 4) len with
        | .error f, _ => xlateFault c f 0 s
        | _, .error f => xlateFault c f 0 s
        | .ok src, .ok dst =>
          let s := noteWalks dst (match src with | some h => noteWalks h s | none => s)
          checks [fields c [((match src with | some h => segsOverlap h.segs dst.segs | none => false), 20)]]
            (fun s => accept c (s.modMem fun m => { m with copies := m.copies ++ [{ id, sq := c.sq, src, dst }] })) s) s

/-- The last byte of a COPY is written (R203); host bytes of the source come from the bus. -/
def execCopyDone (id : CmdId) (bus : Bus) (s : State) : Out :=
  match s.mem.copies.find? fun d => d.id = id with
  | none => .next s
  | some d =>
    if copyStarted s d = false ∨ s.core.datReset then .next s
    else
      let src := (match d.src with | some h => h.segs | none => [])
      let (read, s) := readRuns bus src (useRuns d.dst.segs s)
      let data := match d.src with | some _ => read | none => List.replicate d.dst.len (0, false)
      let down := firstDown s 0 d.dst.segs
      let met := match firstPoisoned data, down with
        | some a, some b => some (min a b)
        | some a, none => some a
        | none, o => o
      let s := match down with | some _ => meetPoison d.dst.segs s | none => s
      let s := writeSegs d.dst.segs data s
      let s := s.modMem fun m =>
        { m with
          copies := m.copies.filter fun x => x.id ≠ id
          drains := m.drains.map fun x => { x with copies := x.copies.filter fun y => y ≠ id } }
      .next (match met with
        | some k => completeId id .poisoned k (lastErrIndex s) s
        | none => completeId id .success 0 0 s)

/-! ### BAR4 (R206) -/

/-- A BAR4 write. -/
def execBar4Write (fn off : Nat) (data : List Byte) (s : State) : Out :=
  match bar4Range s fn off data.length true with
  | .error f => .next (bar4Fault fn off f s)
  | .ok h => .next (writeSegs h.segs (data.map fun b => (b, false)) (useRuns h.segs (noteWalks h s)))

/-- A BAR4 read: its data, marked when poisoned, or all ones. -/
def execBar4Read (fn off n : Nat) (bus : Bus) (s : State) : Out :=
  match bar4Range s fn off n false with
  | .error f => .next (emit (.answer (List.replicate n 0xFF) false) (bar4Fault fn off f s))
  | .ok h =>
    let (l, s) := readRuns bus h.segs (noteWalks h s)
    .next (emit (.answer (l.map (·.1)) (anyPoison l)) s)

/-! ### Hopper fills (R209) -/

/-- A read of a fill ends: its data land, and the next is posted or the fill ends. -/
def execHopperReadComplete (race slot off : Nat) (r : BinReply) (s : State) : Out :=
  let key := race * 16 + slot
  match s.mem.fills.get key with
  | none => .next s
  | some f =>
    match f.out.find? fun e => e.1 = off with
    | none => .next s
    | some (_, n) =>
      let out := f.out.filter fun e => e.1 ≠ off
      let f' := match r with
        | .ok _ => { f with out, landed := f.landed + n }
        | .refused c => { f with out, failed := some (f.failed.getD (Status.ofCode c)) }
      let s := match r with
        | .ok data => writeSegs (subSegs f.hopper.segs off n) ((data.take n).map fun b => (b, false)) s
        | .refused _ => s
      let s := s.modMem fun m => { m with fills := m.fills.set key f' }
      let s := postReads key 1 s
      match s.mem.fills.get key with
      | some f => .next (if f.out.isEmpty then endFill key f s else s)
      | none => .next s

/-! ### DDR5 pairs (R189 to R192, R312, R315) -/

/-- A pair taken down with its reason. -/
def pairDown (p reason : Nat) (s : State) : State :=
  let s := raisePf 0x6003 p reason (modPair p (fun q => { q with state := .down, reason }) s)
  if isGranary s then losePair p s else s

/-- A pair in service faults. -/
def execDdrPairFault (pair reason : Nat) (s : State) : Out :=
  onEvent (decide ((pairOf s pair).state = .up)) s (pairDown pair reason)

/-- The BIST fill of a pair that is down begins, with the DDR complex held up for it; another pair takes no fill (R192, R390). -/
def startBist (pair : Nat) (s : State) : State :=
  if (pairOf s pair).state = .down ∧ (pairOf s pair).refused = false then
    settle 25 (modPdom 25 (fun p => { p with mw := true }) (modPair pair (fun q => { q with state := .fill }) s))
  else s

/-- A request of the Millwright for a BIST fill: posted, or taken by the data plane from MW_TO_DAT. -/
def execDimmBistRequest (pair : Option Nat) (s : State) : Out :=
  match pair with
  | some n => onPost (decide (n < 8)) (postDat (.dimmBist n)) s
  | none => onDatMail (fun m => match m with | .dimmBist p => some (startBist p) | _ => none) s

/-- Every byte of a pair zero (R190, R192). -/
def zeroPair (p : Nat) (s : State) : State :=
  let of_ (a : Nat) : Bool := decide (ddrBase ≤ a) && decide (ddrPair s (a - ddrBase) = p)
  s.modMem fun m =>
    { m with cells := m.cells.filter fun e => !of_ e.1, bad := m.bad.filter fun e => !of_ (64 * e.1),
             weak := m.weak.filter fun e => !of_ (64 * e.1) }

/-- A BIST fill ends (R192, R315): a pair that passes serves again, holding zeros; a mirrored bin on it stays disturbed
until the tally's procedure clears it. -/
def execDdrBistFillEnd (pair : Nat) (pass : Bool) (s : State) : Out :=
  onEvent (decide ((pairOf s pair).state = .fill)) s fun s =>
    let s := zeroPair pair s
    let more := (List.range 8).any fun p => decide (p ≠ pair) && decide ((pairOf s p).state = .fill)
    let s := if more then s else settle 25 (modPdom 25 (fun p => { p with mw := false }) s)
    if pass then
      let s := modPair pair (fun q => { q with state := .up }) s
      let s := raisePf 0x6004 pair (pairBytes (pairOf s pair) / 2 ^ 30) s
      forEach ((s.grn.dir.filter fun e => decide (e.2.pair = pair) && decide (e.2.role = .proxy)).map (·.1)) (fun i => disturb i 6) s
    else
      raisePf 0x6003 pair 4 (modPair pair (fun q => { q with state := .down, reason := 4 }) s)

/-- An error a patrol scrub finds at a cell: corrected and counted, or uncorrectable (R191). -/
def scrubFound (s : State) (e : Nat × Bool) : State := if e.2 then dramUe e.1 s else dramCe e.1 s

/-- A patrol scrub of a channel falls due: a first use of the DDR complex (R191, R393). It finds the errors of the row and
those of its channel that no read has met. -/
def execPatrolScrub (ch : Nat) (errs : List (Nat × Bool)) (s : State) : Out :=
  onEvent (decide ((pairOf s (ch / 2)).state = .up)) s fun s =>
    let mine := s.mem.weak.filter fun e => decide (ddrBase ≤ 64 * e.1) && decide (cellChannel s (64 * e.1) = ch)
    let s := s.modMem fun m => { m with weak := m.weak.filter fun e => !mine.contains e }
    let found : List (Nat × Bool) := errs.map (fun e => (ddrBase + e.1, e.2)) ++ mine.map (fun e => (64 * e.1, e.2))
    found.foldl scrubFound (useDdr s)

/-! ### The probe (R212) -/

/-- A GO write of MEM_PROBE_CTL: MEM_PROBE_VA is walked without caching. -/
def execMemProbe (val : Nat) (s : State) : Out :=
  onEvent (bit val 31) s fun s =>
    let asid := bits val 9 0
    let va := s.mem.probeVa % 2 ^ 57
    let done (level cause : Nat) (es : List Nat) (s : State) : State :=
      s.modMem fun m => { m with probeAsid := asid, probeStatus := 1 + level * 2 + cause * 16, probeE := es }
    match s.mem.spaces.get asid with
    | none => done 4 6 [0, 0, 0, 0, 0] s
    | some sp =>
      let s := s.modMem fun m => { m with walks := sat 0xFFFFFFFF (m.walks + 1) }
      let (level, cause, final) := match leafOf sp.extents va with
        | some e => (e.page.level, 0, leafEntry e va)
        | none => (missLevel sp.extents va, 1, 0)
      match badTable s asid va level with
      | some b => done b.1 5 (probeEntries s asid va b.1 0) (noteErr 3 (64 * b.2) s)
      | none => done level cause (probeEntries s asid va level final) s

end Sys2Proof.Machine
end

