-- ==== Sys2Proof/Machine/Monitor.lean ====
section
/-! DEFINITION. The monitor commands and the periodic sample of a sensor (17 R475 to R484). -/

namespace Sys2Proof.Machine

/-- A monitor of a function (R475). -/
def ownsMon (s : State) (fn m : Nat) : Bool := match s.evt.mons.get m with | some x => decide (x.fn = fn) | none => false

/-- The sources of R476 a role has; those from 6 on are the PF's. -/
def sourceBad (s : State) (n : Nat) : Bool :=
  decide (n = 0 ∨ 9 < n) || (decide (n = 1 ∨ n = 2 ∨ n = 4) && !isMill s)

/-- The sensors R433 lists. -/
def sensorIndexes : List Nat := [0, 2, 3, 4, 5, 6, 7, 8]

/-- FILTER_A out of rule for a source (R477). -/
def filterABad (source a : Nat) : Bool :=
  let range (w : Nat) : Bool := decide (a ≠ a % 2 ^ w + a / 2 ^ 16 % 2 ^ w * 2 ^ 16)
  match source with
  | 1 | 2 | 4 => range 11
  | 3 => range 10
  | 5 => range 14
  | 6 | 8 => decide (255 < a)
  | 7 => range 9
  | _ => !sensorIndexes.contains a

/-- FILTER_B out of rule for a source (R477). -/
def filterBBad (source b : Nat) : Bool :=
  match source with
  | 1 => decide (7 < b)
  | 2 => decide (1 < b)
  | 4 => decide (b = 0 ∨ 3 < b)
  | 5 => decide (b = 0 ∨ 2 ^ 30 < b)
  | 9 => decide (b = 0 ∨ 1000 < b)
  | _ => decide (b ≠ 0)

/-- Strictly ascending. -/
def ascending : List Nat → Bool
  | a :: b :: r => decide (a < b) && ascending (b :: r)
  | _ => true

/-- MON_CONFIG (R482): the edge table is read when it is accepted. -/
def execMonConfig (id : CmdId) (bus : Bus) (s : State) : Out :=
  onCmd .monConfig id s fun c s =>
    let p := c.pkt
    let m := c.context
    let source := fld p 2 3 0
    let scale := fld p 2 5 4
    let edges := decide (scale = 2)
    checks [
      (decide (63 < m) || (s.evt.mons.has m && !ownsMon s c.fn m), invalid c 4),
      fields c [rsv p 2 31 10]]
      (fun s =>
        if fbit p 2 8 = false then succeed c (s.modEvt fun e => { e with mons := e.mons.erase m })
        else
          checks [
            fields c [
              (sourceBad s source || decide (scale = 3), 8), (decide (scale = 1) && decide (qw p 3 = 0), 12),
              (decide (scale = 0) && decide (qw p 5 = 0), 20), (edges && (vaField p 7 1).1, 28),
              (edges && asidBad s c.fn (fld p 9 9 0), 36), (edges && (rsv p 9 31 10).1, 37),
              (filterABad source (qw p 10), 40), (filterBBad source (qw p 12), 48)],
            (decide (6 ≤ source) && decide (c.fn ≠ 0), refuse c 3 0)]
            (fun s =>
              let done (l : List Nat) (s : State) : State :=
                let x : Mon :=
                  { fn := c.fn, source, scale, clearOnSnap := fbit p 2 9, lo := qw p 3, w := qw p 5, edges := l, filtA := qw p 10,
                    filtB := qw p 12, clearedAt := stamp s, dueAt := s.core.t + ms (qw p 12) }
                succeed c (s.modEvt fun e => { e with mons := e.mons.set m x })
              if edges then
                match translate s {} (fld p 9 9 0) (qw p 7) 248 with
                | .error f => xlateFault c f 0 s
                | .ok h =>
                  let (l, s) := readRuns bus h.segs (noteWalks h s)
                  let t := (List.range 31).map fun i => num (l.map (·.1)) (8 * i) 8
                  if anyPoison l then complete c .poisoned 0 (lastErrIndex s) s
                  else if ascending t then done t s
                  else invalid c 28 s
              else done [] s) s) s

/-- The monitors a mask names, 0 being CONTEXT alone (R483). -/
def monsNamed (c : Cmd) (mask : Nat) : List Nat := if mask = 0 then [c.context] else maskBits 64 mask

/-- Refusals of MON_SNAPSHOT and MON_CLEAR, whose mask lies at an offset: another function's monitor at offset 4 (R475), a free
one that the mask names at the mask (log entry 57). -/
def monsBad (s : State) (c : Cmd) (mask off : Nat) : List (Bool × (State → State)) :=
  let others := (maskBits 64 mask).filter fun m => !ownsMon s c.fn m
  [(decide (63 < c.context) || (decide (mask = 0) && !ownsMon s c.fn c.context), invalid c 4),
    (decide (mask ≠ 0) && others.any fun m => s.evt.mons.has m, invalid c 4),
    (decide (mask ≠ 0) && !others.isEmpty, invalid c off)]

/-- Samples whose cycle has come counted before the monitors are read or cleared (R483). -/
def drainMons (s : State) : State :=
  s.modEvt fun e => { e with mons := e.mons.mapVal fun _ m => m.drain (whlCycles s) }

/-- The 192-byte record of a monitor (R483). -/
def Mon.record (i : Nat) (m : Mon) : List Byte :=
  leBytes 1 i ++ leBytes 1 (m.source + m.scale * 16) ++ leBytes 1 (1 + 2 * flag m.ueReset) ++ leBytes 5 0 ++ leBytes 8 m.count ++
    leBytes 8 m.sum ++ leBytes 8 m.min ++ leBytes 8 m.max ++ leBytes 4 m.dropped ++ leBytes 4 0 ++ leBytes 8 m.clearedAt ++
    leBytes 8 0 ++ (List.range 32).flatMap fun b => leBytes 4 (m.bins.getD b 0)

/-- MON_SNAPSHOT (R483): samples already taken lie in the capture. -/
def execMonSnapshot (id : CmdId) (s : State) : Out :=
  onCmd .monSnapshot id s fun c s =>
    let p := c.pkt
    let mask := qw p 4
    checks (monsBad s c mask 16 ++ [fields c [rsv p 6 31 1]])
      (fun s =>
        let l := monsNamed c mask
        let s := drainMons s
        let recs := l.filterMap fun i => (s.evt.mons.get i).map (Mon.record i)
        let data := leBytes 8 (stamp s) ++ leBytes 2 recs.length ++ leBytes 6 0 ++ recs.flatten
        let s := emitData c (qw p 2) data s
        let s := forEach l (fun i s => s.modEvt fun e =>
          { e with mons := e.mons.modify i fun m =>
              { (if m.clearOnSnap || fbit p 6 0 then m.first (stamp s) else m) with ueReset := false } }) s
        complete c .success data.length 0 s) s

/-- MON_CLEAR (R484). -/
def execMonClear (id : CmdId) (s : State) : Out :=
  onCmd .monClear id s fun c s =>
    let mask := qw c.pkt 2
    checks (monsBad s c mask 8)
      (fun s =>
        succeed c (forEach (monsNamed c mask) (fun i s => s.modEvt fun e =>
          { e with mons := e.mons.modify i fun m => m.first (stamp s) }) (drainMons s))) s

/-- PERIOD of a SUPPLY monitor passes (R476, R481): the reading of its sensor is a two's complement number of 32 bits, and
a negative one counts as 0. -/
def execMonitorPeriodExpiry (m reading : Nat) (s : State) : Out :=
  match s.evt.mons.get m with
  | none => .next s
  | some x =>
    onEvent (decide (x.source = 9) && decide (x.dueAt ≤ s.core.t)) s fun s =>
      let v := if 2 ^ 31 ≤ reading % 2 ^ 32 then 0 else reading % 2 ^ 32
      s.modEvt fun e =>
        { e with
          mons := e.mons.modify m fun x =>
            let x := { x with dueAt := x.dueAt + ms x.filtB }
            if monsOn s && s.mwr.running then x.take (whlCycles s) v else x }

end Sys2Proof.Machine
end

