-- ==== Sys2Proof/Machine/Tally.lean ====
section
/-! DEFINITION. The tally commands and what its heads and scans do (11). -/

namespace Sys2Proof.Machine

/-! ### Commands (R334, R336, R337) -/

/-- The copy a tally command names: by its home's handle, or by its local one (11, The reset procedure). -/
def tallyTarget (s : State) (h : Nat) : Except (Nat × Nat) Nat :=
  let b := binEntry s (handleBin h)
  if handleGranary h = ownMember s ∧ b.current h then .ok (handleBin h)
  else
    match judgeHandle s h with
    | .ok (i, _) => .ok i
    | .error e => .error e

/-- A tally command on the copy it names. -/
def withTally (c : Cmd) (k : Nat → State → State) (s : State) : State :=
  let s := readEntry false false (pktHandle c.pkt) s
  match tallyTarget s (pktHandle c.pkt) with
  | .error e => if e.1 = 0x10 then complete c .staleHandle 0 e.2 s else invalid c 4 s
  | .ok i => k i s

/-- Milliseconds left in the confirmation window. -/
def windowLeft (s : State) (r : TRec) : Nat := if r.swept then (r.window - s.core.time) / 1000000 else 0

/-- TALLY_QUERY (R337). -/
def execTallyQuery (id : CmdId) (s : State) : Out :=
  grnCmd .tallyQuery id (fun _ => true) s fun c s =>
    withTally c (fun i s =>
      let r := tallyOf s i
      let live := ((binEntry s i).maps.filter fun m => !m.closing && decide (s.core.time < m.expiry)).length
      complete c .success
        (r.state.code + 8 * flag r.swept + 16 * r.cause + 2 ^ 8 * r.epoch + 2 ^ 16 * sat 255 (r.a.mapsIn - r.a.mapsOut) + 2 ^ 24 * live)
        (sat 0xFFFF (opsOpen s i) + 2 ^ 16 * sat 0xFFFF (windowLeft s r)) s) s

/-- TALLY_PREP_RESET (R334). -/
def execTallyPrepReset (id : CmdId) (s : State) : Out :=
  grnCmd .tallyPrepReset id (fun _ => true) s fun c s =>
    withTally c (fun i s =>
      let r := tallyOf s i
      if r.state ≠ .disturbed then refuse c 10 r.state.code s
      else if opsOpen s i ≠ 0 then stallOr c .busyRetry 100 s
      else
        let epoch := (r.epoch + 1) % 256
        let s := (binEntry s i).maps.foldl (fun s m => match m.unmap with | some id => completeId id .success 0 0 s | none => s) s
        let s := modTally i
          (fun r => { r with a := {}, b := {}, state := .sweepPending, swept := false, epoch, prepared := true, prepAuth := pktAuth c.pkt,
                             prepMember := requester s c, suspA := false, suspB := false, sweepAt := some s.core.t }) s
        let s := modBin i (fun b => { b with maps := [] }) s
        complete c .success epoch 0 (tallyEvent 0xA004 i r.cause (pktAuth c.pkt) s)) s

/-- The domain time at which a TALLY_CONFIRM arrived. -/
def arrivedAt (s : State) (id : CmdId) : Nat :=
  match s.tly.arrived.find? fun a => decide (a.1 = id) with
  | some a => a.2
  | none => s.core.time

/-- TALLY_CONFIRM, its envelope verified (R336, R315). -/
def execTallyConfirm (id : CmdId) (s : State) : Out :=
  grnCmd .tallyConfirm id (fun _ => true) s fun c s =>
    withTally c (fun i s =>
      let r := tallyOf s i
      let at_ := arrivedAt s id
      let s := s.modTly fun y => { y with arrived := y.arrived.filter fun a => a.1 ≠ id }
      checks [
        (r.prepared && decide (pktAuth c.pkt = r.prepAuth), refuse c 9 0),
        deny (r.state ≠ .sweeping) r.state.code c,
        busy (r.swept = false) 1000 c,
        fields c [(decide (fld c.pkt 3 7 0 ≠ r.epoch), 12), rsv c.pkt 3 31 8],
        deny (r.window ≤ at_) 2 c]
        (fun s =>
          let s := modTally i (fun r => { r with a := {}, b := {}, state := .clear, swept := false, cause := 0, window := 0 }) s
          let s := modBin i (fun b => { b with state := if b.state = .lost then .allocated else b.state }) s
          let s := tallyEvent 0xA003 i r.cause 0 s
          let b := binEntry s i
          let s := match b.partner with
            | some q => notice q 6 (b.handle (ownMember s) i) (if b.role = .proxy then b.pair else 0xFF) 0 0 s
            | none => s
          succeed c s) s) s

/-! ### The exit head (R326) -/

/-- Whether another part of the same request is still open. -/
def sameRequest (t x : Token) : Bool := decide (x.qpn = t.qpn) && decide (x.psn = t.psn) && x.who.isNone

/-- Parts of a message in their order. -/
def insertPart (x : Nat × Nat × List PByte) : List (Nat × Nat × List PByte) → List (Nat × Nat × List PByte)
  | [] => [x]
  | y :: r => if x.1 < y.1 then x :: y :: r else y :: insertPart x r

/-- A request whose last part has left is answered: by the status that a part met, by an ACK, or by its data; a poisoned line is
preceded by the responses before it and named by its offset in the bin (R280, R306). -/
def answerRequest (t : Token) (got : List (Nat × Nat × List PByte)) (code : Nat) (s : State) : State :=
  if code ≠ 0 then lateNak t.qpn t.first code 0 s
  else if t.reads = false then answerQp t.qpn (.ack t.psn) none s
  else
    let data := got.flatMap fun g => g.2.2
    let poison := got.findSome? fun g => (g.2.2.findIdx? fun b => b.2).map fun k => (g.1 + k, (g.2.1 + k) / 64)
    let send (n : Nat) (s : State) : State :=
      answerQp t.qpn (.response (psnAdd t.first (packetsOf n - 1)) ((data.take n).map (·.1))) none s
    match poison with
    | none => send data.length s
    | some (k, line) =>
      let sent := k / 4096
      lateNak t.qpn (psnAdd t.first sent) 0x14 line (if sent = 0 then s else send (4096 * sent) s)

/-- The outcome of an operation handed to its requester, once every part of the request has left: a part that leaves before the
last one leaves its data and status with the others. -/
def answerToken (t : Token) (code : Nat) (relay : Option (List Byte)) (s : State) : State :=
  if t.who.isSome then s
  else
    match t.kind with
    | .read | .write _ | .proxy =>
      let e : List PByte × State :=
        if t.reads = false then ([], s)
        else if t.kind = .proxy then ((relay.getD []).map fun b => (b, false), s)
        else readHealed t.bin t.offset t.len relay s
      let code := if t.code ≠ 0 then t.code else if t.kind = .proxy then code else 0
      let got := if t.reads then insertPart (t.at_, t.offset, e.1) t.got else t.got
      if e.2.tly.tokens.any fun x => sameRequest t x.2 then
        e.2.modTly fun y => { y with tokens := y.tokens.mapVal fun _ x => if sameRequest t x then { x with got, code } else x }
      else answerRequest t got code e.2
    | _ => s

/-- A reversed passage (R326, R332). -/
def reversed (bin : Nat) (s : State) : State := disturb bin 2 s

/-- An operation leaves the exit head: with its token it is counted out and answered; otherwise it is a reversed passage
(R326). code and relay are what the standby answered a PROXY, or its clean line. -/
def execOperationExit (bin : Nat) (token : Option Nat) (code : Nat) (relay : Option (List Byte)) (s : State) : Out :=
  match token with
  | none => .next (reversed bin s)
  | some n =>
    match s.tly.tokens.get n with
    | none => .next (reversed bin s)
    | some t =>
      if t.bin ≠ bin then .next (reversed bin s)
      else if t.kind = .write true ∨ t.waits.isSome then .next s
      else
        let s := s.modTly fun y => { y with tokens := y.tokens.erase n }
        let s := if t.epoch ≠ (tallyOf s bin).epoch then reversed bin s else countOut bin s
        .next (answerToken t code relay s)

/-- A token is free and the operation held longest is admitted, judged at its admission (R325). -/
def execTokenFreeAdmit (s : State) : Out :=
  match s.tly.waiting with
  | [] => .next s
  | r :: rest => onEvent (tokenFree s) s fun s => admitRequest r (s.modTly fun y => { y with waiting := rest })

/-! ### Scans and sweeps (R327, R328, R334, R335) -/

/-- The background scan compares a record: a parity error of an array marks its channel, a disagreement without one marks
both (R327, R328); lap is the duration of a full pass that ends, in ms. -/
def execTallyBackgroundScan (bin : Nat) (parityA parityB disagree : Bool) (lap : Option Nat) (s : State) : Out :=
  let s := match lap with
    | some n => s.modTly fun y => { y with scan := sat 0xFFFF n }
    | none => s
  let plain := disagree && !parityA && !parityB
  if parityA || parityB || plain then
    .next (disturb bin 1 (modTally bin (fun r => { r with suspA := r.suspA || parityA || plain, suspB := r.suspB || parityB || plain }) s))
  else .next (compareRec bin s)

/-- The sweep's fill and its token (R335): a clean pass sets SWEPT and opens the window of 60 s. -/
def sweepPass (bin : Nat) (s : State) : State :=
  let b := binEntry s bin
  let r := tallyOf s bin
  if r.state ≠ .sweeping ∨ r.swept then s
  else if (pairOf s b.pair).state ≠ .up then disturb bin 7 s
  else
    let s := zeroBin b s
    let s := forEach (List.range (chunks b)) (fun _ => passOp bin) s
    let clean (r : TRec) : Bool :=
      decide (r.state = .sweeping) && decide (r.a = r.b) && decide (r.a.opsIn = r.a.opsOut) && decide (r.a.mapsIn = r.a.mapsOut) &&
        decide (r.a.mapsIn = 0)
    if clean (tallyOf s bin) then
      let s := passOp bin s
      if clean (tallyOf s bin) then
        tallyEvent 0xA002 bin 0 0 (modTally bin (fun r => { r with swept := true, window := s.core.time + sec 60 }) s)
      else disturb bin 7 s
    else disturb bin 7 s

/-- The window ends without an accepted confirmation; one that arrived within it and waits for its verification holds it
open (R336). -/
def execConfirmWindowExpiry (bin : Nat) (s : State) : Out :=
  let r := tallyOf s bin
  let waiting := s.tly.arrived.any fun a => decide (a.2 < r.window) && s.hif.cmds.any fun c => decide (c.id = a.1) &&
    (match tallyTarget s (pktHandle c.pkt) with | .ok i => decide (i = bin) | .error _ => false)
  onEvent (r.swept && decide (r.window ≤ s.core.time) && !waiting) s (disturb bin 8)

end Sys2Proof.Machine
end

