-- ==== Sys2Proof/Machine/NearMem.lean ====
section
/-! DEFINITION. The near-memory ring and the sweep items of a granary (10 R317 to R319, 11 R334, R335). -/

namespace Sys2Proof.Machine

/-- A ring entry made an item, or completed INVALID_FIELD (R318). -/
def takeEntry (index : Nat) (l : List PByte) (s : State) : State :=
  let e := l.map (·.1)
  let chain := num e 0 2
  let stage := num e 2 1
  let gang := num e 3 1
  let deadline := num e 4 4
  let user := num e 8 8
  let refused := nmwComplete user .invalidField 0 0 s
  if anyPoison l then nmwComplete user .poisoned 0 0 s
  else if num e 16 48 ≠ 0 ∨ (deadline ≠ 0 ∧ (deadline < 1000 ∨ 60000000 < deadline)) then refused
  else
    match s.stn.chains.get chain with
    | none => refused
    | some k =>
      if k.fn ≠ 0 then refused
      else
        match k.images[stage]?.bind fun i => (imageOf s i).map fun m => (i, m) with
        | none => refused
        | some (i, m) =>
          if gangFits gang m = false ∨ (bit gang 3 ∧ bits gang 7 4 % m.floors ≠ 0) then refused
          else
            let due := s.core.t + us (if deadline = 0 then 1000000 else deadline)
            addItem { fn := 0, owner := .nearMem index, chain := some chain, stage, image := i, gang, due, floors := m.floors, user } s

/-- Entries fetched from the ring, n of them from HEAD on. -/
def fetchEntries (bus : Bus) : Nat → State → State
  | 0, s => s
  | n + 1, s =>
    let g := s.grn
    let index := g.nmwHead % nmwDepth s
    match translate s {} (bits g.nmwCfg 25 16) (g.nmwBase + 64 * index) 64 with
    | .error f => noteFault f s
    | .ok h =>
      let (e, s) := readRuns bus h.segs (noteWalks h s)
      fetchEntries bus n (takeEntry index e (s.modGrn fun g => { g with nmwHead := (g.nmwHead + 1) % 2 ^ 16 }))

/-- GRN_NMW_TAIL is written: the entries up to it are fetched (R317); they break the quiet of the granary and
wake it (R377, R379). -/
def execNmwTailWrite (val : Nat) (bus : Bus) (s : State) : Out :=
  if isGranary s = false ∨ s.core.ctlReset then .next s
  else
    let s := idleExit (s.modGrn fun g => { g with nmwTail := val % 2 ^ 16 })
    let n := (s.grn.nmwTail + 2 ^ 16 - s.grn.nmwHead) % 2 ^ 16
    .next (if n = 0 then s else fetchEntries bus (min n (nmwDepth s)) (sleepWake s))

/-- The sweep item of a prepared record is queued (R334, R335). -/
def execSweepQueue (bin : Nat) (s : State) : Out :=
  let r := tallyOf s bin
  onEvent (decide (r.state = .sweepPending) && r.sweepAt.isSome) s fun s =>
    addItem { fn := 0, owner := .sweep (binEntry s bin).carve bin, image := 1024, gang := 0, due := s.core.t + sec 1, floors := 1 }
      (modTally bin (fun r => { r with sweepAt := none }) s)

/-- The sweep's fill has ended and its token passes both heads (R335): the item ends. -/
def execSweepTokenPass (bin : Nat) (s : State) : Out :=
  match (itemsWhere s fun i => (match i.owner with | .sweep _ b => decide (b = bin) | _ => false) && decide (i.state = .running) &&
      blockAwake s i.base 1).head? with
  | none => .next s
  | some e => .next (dropItem e.1 (sweepPass bin s))

end Sys2Proof.Machine
end

