-- ==== Sys2Proof/Machine/Ocp.lean ====
section
/-! DEFINITION. The rows of on-chip memory protection (07). -/

namespace Sys2Proof.Machine

/-- The address names a word of an instance that the part has and powers in its role (R213). -/
def wordExists (s : State) (i word : Nat) : Bool :=
  decide (i ≤ 259) && (decide (i ≠ 258) || isGranary s) && decide (word < groupWords i * groupCount i)

/-- A write narrower than a word reaches its group, for a command in the device or for none (R223, R225). -/
def execPartialWrite (inst word : Nat) (lanes : Lanes) (who : Option CmdId) (s : State) : Out :=
  onEvent (wordExists s inst word && decide (lanes.en % 256 ≠ 0)) s (partialWrite inst word (lanes.en % 256) lanes.data who)

/-- The oldest entry of a group has aged 32 cycles (R224). -/
def execMergeAgeFlush (inst group : Nat) (s : State) : Out :=
  onEvent ((ocpGroup s inst group).merge.head?.any fun m => passed s m.since (mergeAge s inst)) s (flushOldest inst group)

/-- An idle cycle of a group (R224). -/
def execMergeIdleFlush (inst group : Nat) (s : State) : Out := .next (flushOldest inst group s)

/-- A full-word write (R216, R226). -/
def execFullWordWrite (inst word data : Nat) (s : State) : Out := onEvent (wordExists s inst word) s (fullWrite inst word data)

/-- REMAP_FULL, once for a group (R228). -/
def remapFull (i g : Nat) (s : State) : State :=
  if (ocpGroup s i g).full then s
  else
    let s := raisePf 0x7007 i (i + g * 2 ^ 9) (ocpAlarm 5 (modGroup i g (fun x => { x with full := true }) s))
    ocpAlarm 6 (modGroup i g (fun x => { x with degraded := true, reason := 2 }) s)

/-- A hard-failing word moves to a spare (R228). -/
def execSpareRemap (inst group : Nat) (s : State) : Out :=
  match (ocpGroup s inst group).hard with
  | [] => .next s
  | word :: rest =>
    let s := modGroup inst group (fun x => { x with hard := rest }) s
    if (ocpGroup s inst group).spares < 32 then
      let s := modGroup inst group (fun x => { x with spares := x.spares + 1, moved := x.moved.filter (· ≠ word) ++ [word] }) s
      let (c, _, d) := peek s inst word
      let s :=
        match c with
        | .ueAddress | .ueMulti | .uePoison => poisonWord inst word d s
        | _ => if (ocpInst s inst).words.has word then storeWord inst word d s else s
      .next (raisePf 0x7006 inst (inst + group * 2 ^ 9 + word * 2 ^ 16) s)
    else .next (remapFull inst group s)

/-- The lap of an instance ends when every group has passed (R231). -/
def lapEnd (i : Nat) (s : State) : State :=
  let x := ocpInst s i
  if (List.range (groupCount i)).all fun g => (x.groups.getD g {}).passed then
    let lap := sat 0xFFFFFFFE ((clockedTime s i - x.lapAt) / 1000)
    let s := modInst i
      (fun x =>
        { x with
          lap
          lapAt := clockedTime s i
          slow := false
          groups := x.groups.mapVal fun _ g => { g with begun := false, passed := false } }) s
    sample 7 lap (fun m => m.within 9 i) s
  else s

/-- What the cells of words present is changed: bits of data and of check bytes inverted, each named with its word, and words of
whose state one copy differs (R217, R218; log entry 29). -/
def upset (i : Nat) (dflips cflips : List (Nat × Nat)) (copies : List Nat) (s : State) : State :=
  modInst i
    (fun x =>
      let words := dflips.foldl (fun t e => t.modify e.1 fun w => { w with data := (w.data ^^^ e.2) % 2 ^ 64 }) x.words
      { x with
        words := cflips.foldl (fun t e => t.modify e.1 fun w => { w with check := (w.check ^^^ e.2) % 256 }) words
        odd := copies.foldl addLast x.odd }) s

/-- The scrubber's check of its word (R218, R230). -/
def scrubCheck (i word : Nat) (s : State) : State :=
  let s := meetOdd i word true (flushWord i word s)
  match (ocpInst s i).words.get word with
  | none => s
  | some w =>
    if w.bad then s
    else
      let (c, syn, d) := peek s i word
      match c with
      | .clean | .uePoison => s
      | .ceData b => candidate i word (some b) (ocpCe i word 1 syn true (storeWord i word d s))
      | .ceCheck j => candidate i word (some (64 + j)) (ocpCe i word 2 syn true (storeWord i word d s))
      | .ueAddress => degrade i (groupOf i word) 1 (ocpUe i word 3 syn 0 true (poisonWord i word d s))
      | .ueMulti => candidate i word none (ocpUe i word 4 syn 0 true (poisonWord i word d s))

/-- An idle cycle of a group in which its scrubber visits its next word (R218, R230, R231); the upsets that have come into the
words of the instance by then stand from then on. -/
def execScrubVisit (inst group : Nat) (dflips cflips : List (Nat × Nat)) (copies : List Nat) (s : State) : Out :=
  if inst ≤ 259 ∧ group < groupCount inst ∧ clocked s inst then
    let pos := (ocpGroup s inst group).pos
    let word := group * groupWords inst + pos
    let s := scrubCheck inst word (upset inst dflips cflips copies s)
    let last := decide (pos + 1 = groupWords inst)
    let s := modGroup inst group
      (fun x =>
        let begun := x.begun || decide (pos = 0)
        { x with pos := if last then 0 else pos + 1, begun := begun && !last, passed := x.passed || (begun && last) }) s
    .next (lapEnd inst s)
  else .next s

/-- SCRUB_LIMIT of an instance's class, ns (R232). -/
def scrubLimit (s : State) (i : Nat) : Nat :=
  ms (feature s 0x45 (instClass i) (if instClass i = 2 then 1000 else 10000))

/-- A lap runs past its limit (R232). -/
def execScrubLapLimitExpiry (inst : Nat) (s : State) : Out :=
  let x := ocpInst s inst
  onEvent (decide (inst ≤ 259) && clocked s inst && !x.slow && decide (x.lapAt + scrubLimit s inst < clockedTime s inst)) s fun s =>
    raisePf 0x7009 inst (inst + (clockedTime s inst - x.lapAt) / 1000000 % 2 ^ 24 * 2 ^ 16)
      (ocpAlarm (instClass inst) (modInst inst (fun x => { x with slow := true }) s))

/-- A write of MEM_OCP_INJECT (R233, R235). -/
def execOcpInjectArm (fn val : Nat) (s : State) : Out :=
  onEvent (decide (fn = 0)) s fun s => s.modOcp fun o => { o with inject := val % 2 ^ 17 }

/-- A GO write to MEM_OCP_REMAP_LOAD by the Millwright (R229, R235). -/
def execOcpRemapLoad (val : Nat) (s : State) : Out :=
  let s := s.modOcp fun o => { o with remapLoad := val % 2 ^ 26 }
  let i := s.ocp.remapInst
  let g := bits val 25 21
  let word := bits val 20 0
  if bit val 31 ∧ s.mwr.running ∧ i ≤ 259 ∧ g < groupCount i then
    if (ocpGroup s i g).spares < 32 then
      .next (modInst i (fun x => { x with words := x.words.erase word })
        (modGroup i g (fun x => { x with spares := x.spares + 1, moved := x.moved.filter (· ≠ word) ++ [word] }) s))
    else .next (remapFull i g s)
  else .next s

end Sys2Proof.Machine
end

