-- ==== Sys2Proof/Machine/Port.lean ====
section
/-! DEFINITION. The fabric port commands and events, and the flits of Flume links (08). -/

namespace Sys2Proof.Machine

/-! ### PORT_MODE (R237, R238) -/

/-- PORT_MODE with RETRAIN set or clear. -/
def portMode (retrain : Bool) (id : CmdId) (s : State) : Out :=
  onCmd .portMode id s fun c s =>
    let p := c.pkt
    let n := bits c.context 2 0
    let m := PortMode.ofCode (fld p 2 1 0)
    let takesDown := decide ((port s n).state = .up) && (retrain || decide ((port s n).mode ≠ m))
    if fbit p 2 3 ≠ retrain then s
    else
      checks [
        fields c [(decide (fld p 2 1 0 = 3), 8), rsv p 2 31 4],
        busy (takesDown && !fbit p 2 2 && decide (boundQps s n ≠ 0)) 1000 c]
        (fun s => let s := applyMode n m retrain s; complete c .success (port s n).stateCode 0 s) s

/-- PORT_MODE without RETRAIN. -/
def execPortMode (id : CmdId) (s : State) : Out := portMode false id s

/-- PORT_MODE with RETRAIN. -/
def execPortRetrain (id : CmdId) (s : State) : Out := portMode true id s

/-- A request of the Millwright: posted, or taken by the data plane from MW_TO_DAT; it is applied whatever is bound to the
port (R237, R260; log entry 64). -/
def execPortModeRequest (p : Option Nat) (mode : Nat) (retrain : Bool) (s : State) : Out :=
  match p with
  | some p => onPost (decide (p < 8) && decide (mode < 3)) (postDat (.portMode p mode retrain)) s
  | none => onDatMail (fun m => match m with | .portMode p m r => some (applyMode p (PortMode.ofCode m) r) | _ => none) s

/-! ### Flits (R249 to R259) -/

/-- The VC whose flit goes next: VC2, VC1, VC0, VC3 with data and credit, VC3 at least once in 16 while it waits (R251). -/
def nextVc (f : Flm) : Option Nat :=
  let ready (v : Nat) : Bool := let t := f.tx.getD v {}; !t.queue.isEmpty && decide (0 < t.avail)
  if 15 ≤ f.vc3Wait ∧ ready 3 then some 3 else [2, 1, 0, 3].find? ready

/-- The virtual channel of a packet's traffic (R251). -/
def flumeVc (x : FlumeOut) : Nat :=
  if x.bulk then 3 else if x.kind ≠ 1 then 2 else if bthResponse (bthOp x.body) ∨ bthOp x.body = 0x11 then 1 else 0

/-- A packet given to a Flume port by the transaction layer, waiting on its VC; a transport packet gets its check value
(R287). -/
def queuePacket (p : Nat) (x : FlumeOut) (s : State) : State :=
  let fold := sentFold s p x.body
  let body := if x.kind = 1 then x.body ++ leBytes 4 (e2eValue fold x.body) else x.body
  let s := modFlm p (fun f => { f with tx := f.tx.alter (flumeVc x) {} fun t => { t with queue := t.queue ++ [flumePacket x.kind body] } }) s
  match qpTo s p (bthQpn x.body) with
  | some (q, _) =>
    if x.kind = 1 ∧ (bthWriteFirst (bthOp x.body) ∨ bthWriteNext (bthOp x.body)) then
      modQp q (fun y => { y with outAddr := fold + bthPayload body }) s
    else s
  | none => s

/-- The control word that goes out now: ACK_SEQ is E, the lowest number due is NAK'd, one VC's credits are reported. -/
def outCtl (f : Flm) (type vc start : Nat) : Ctl :=
  { type, vc, start, ack := f.e, nak := (f.m.find? fun x => x.nakAt.isNone).map (·.seq), crVc := f.crVc,
    crTotal := (f.rx.getD f.crVc {}).freed }

/-- What a flit sent at an instant leaves behind in NAKs and credit reports. -/
def afterFlit (now : Nat) (nak : Option Nat) (f : Flm) : Flm :=
  { f with crVc := (f.crVc + 1) % 4, m := f.m.map fun x => if some x.seq = nak then { x with nakAt := some now } else x }

/-- A Flume port sends the flit of a slot: a replay, a new DATA flit, or an IDLE flit. -/
def execFlitSend (p : Nat) (packets : List FlumeOut) (s : State) : Out :=
  onEvent (decide ((port s p).mode = .flume) && decide ((port s p).state = .up) && !s.core.datReset) s fun s =>
    let now := s.core.t
    let s := packets.foldl (fun s x => queuePacket p x s) s
    let f := (port s p).flm
    let out (seq : Nat) (c : Ctl) (data : List Byte) (s : State) : State :=
      let s := emit (.flit p (mkFlit seq c data)) (modFlm p (afterFlit now c.nak) s)
      if c.nak.isSome then noteNak p s else s
    match f.toReplay.head?.bind fun n => (f.buffer.find? fun x => x.1 = n) with
    | some x =>
      let s := modFlm p (fun f =>
        { f with
          toReplay := f.toReplay.drop 1
          vc3Wait := if x.2.body.vc = 3 ∨ (f.tx.getD 3 {}).queue = [] then 0 else f.vc3Wait + 1
          buffer := f.buffer.map fun y => if y.1 = x.1 then (y.1, { y.2 with replayedAt := some now }) else y
          replayed := if f.replayed.contains x.1 then f.replayed else f.replayed ++ [x.1]
          replays := sat 0xFFFFFFFF (f.replays + 1) }) s
      judgeRetry p (out x.1 (outCtl f 1 x.2.body.vc x.2.body.start) x.2.body.data s)
    | none =>
      match if f.buffer.length < 512 then nextVc f else none with
      | some v =>
        let t := f.tx.getD v {}
        let k := packFlit t.queue t.sent [] none
        let b : FlitBody := { vc := v, start := k.2.1.getD 0xFF, data := k.1 }
        let s := modFlm p (fun f =>
          { f with
            tx := f.tx.set v { t with queue := k.2.2.1, sent := k.2.2.2, avail := t.avail - 1 }
            buffer := f.buffer ++ [(f.txSeq, { body := b })]
            txSeq := (f.txSeq + 1) % 4096
            vc3Wait := if v = 3 ∨ (f.tx.getD 3 {}).queue = [] then 0 else f.vc3Wait + 1 }) s
        out f.txSeq (outCtl f 1 v b.start) b.data s
      | none => out f.txSeq (outCtl f 0 0 0xFF) (List.replicate 240 0) s

/-- A flit arrives: its four lane chunks of 64 bytes, checked and judged by the rules of R254. -/
def execFlitReceive (p : Nat) (lanes : List (List Byte)) (s : State) : Out :=
  onEvent (decide ((port s p).mode = .flume) && decide ((port s p).state = .up) && !s.core.datReset) s fun s =>
    let good := (List.range 4).filter fun i => chunkGood i (lanes.getD i [])
    let seqs := good.map fun i => chunkSeq (lanes.getD i [])
    let bad := decide (good.length < 4)
    let s := if bad then countBad p s else s
    match seqs with
    | [] => linkDown p 1 0 .linkDown s
    | seq :: r =>
      if r.any fun x => decide (x ≠ seq) then linkDown p 1 seq .linkDown s
      else
        let c := Ctl.ofWord (num (lanes.getD 0 []) 2 8)
        let s := if good.contains 0 then applyCtl p c s else s
        if (port s p).state ≠ .up then s
        else judgeRetry p (if bad then badFlit p seq s else goodFlit p seq c (flitData lanes) s)

/-- A number still missing 320 ns after its last NAK is due again (R255). -/
def execNakResendTimeout (p seq : Nat) (s : State) : Out :=
  let due (x : Missing) : Bool := decide (x.seq = seq) && (match x.nakAt with | some t => passed s t 320 | none => false)
  onEvent ((port s p).flm.m.any due) s fun s =>
    modFlm p (fun f => { f with m := f.m.map fun x => if due x then { x with nakAt := none } else x }) s

/-- An episode of retry has lasted 4 µs (R257). -/
def execRetryWindowExpiry (p : Nat) (s : State) : Out :=
  onEvent ((port s p).retry && (match (port s p).flm.retryAt with | some t => passed s t 4000 | none => false)) s fun s =>
    linkDown p 6 (port s p).flm.e .linkDown s

/-! ### Links (R260 to R264) -/

/-- A lane has had no signal or lock for 1 µs. -/
def execLossOfSignal (p : Nat) (s : State) : Out := onEvent (decide ((port s p).state = .up)) s (linkDown p 9 0 .linkDown)

/-- A remote or local fault of the PCS (R261). -/
def execEthLinkFault (p : Nat) (s : State) : Out :=
  onEvent (decide ((port s p).state = .up) && decide ((port s p).mode = .ethernet)) s (linkDown p 10 0 .linkDown)

/-- Every lane has received PRBS31 for 100 ms with no bit error: the port sends its parameters, and the allocation written by
now is the one in force (R252, R262, R263). -/
def execTrainingPrbsPass (p : Nat) (s : State) : Out :=
  onEvent (decide ((port s p).mode = .flume) && decide ((port s p).state = .training) && passed s (port s p).since (ms 100) &&
      !passed s (port s p).since (ms 150) && !s.core.datReset) s fun s =>
    let s := modPort p (fun q => { q with state := .param, since := s.core.t, flm := { q.flm with allocNow := q.flm.alloc } }) s
    emit (.params p (ownMember s) s.core.role.code 1 (port s p).flm.allocNow (s.core.t % 2 ^ 16)) s

/-- Training without success for 150 ms: reason BER. -/
def execTrainingTimeout (p : Nat) (s : State) : Out :=
  onEvent (decide ((port s p).mode = .flume) && decide ((port s p).state = .training) && passed s (port s p).since (ms 150)) s
    (failTraining p 5)

/-- The refusal of a peer's parameters, by reason (R244, R262, R263). -/
def paramRefusal (s : State) (x : FlumeParams) : Option Nat :=
  if !(decide (x.role = 2) || (isGranary s && decide (x.role = 1))) then some 1
  else if x.version ≠ 1 then some 2
  else if 290 < x.loop then some 3
  else if quarantined s x.member then some 4
  else x.refused

/-- Parameters arrive from the peer: the link comes UP with sequences and credits initialised, or is refused. -/
def execParamExchange (p : Nat) (x : FlumeParams) (s : State) : Out :=
  onEvent (decide ((port s p).mode = .flume) && decide ((port s p).state = .param) && !s.core.datReset) s fun s =>
    let s := emit (.loopEcho p x.marker) s
    match paramRefusal s x with
    | some r => failTraining p r (raisePf 0x8004 p (r + x.member * 2 ^ 8) s)
    | none =>
      let tx := (List.range 4).map fun v => (v, { avail := 4 * x.alloc.getD v 0, advert := 4 * x.alloc.getD v 0 : TxStream })
      linkUp p (modFlm p (fun f =>
        { f.clear with peer := x.member, peerRole := x.role, peerVer := x.version, valid := true, loop := x.loop,
                       tx }) s)

/-- HOLD has lasted 1 ms: the port trains again, or is FAILED after three failures in 1 s. -/
def execHoldExpiry (p : Nat) (s : State) : Out :=
  onEvent (decide ((port s p).state = .hold) && passed s (port s p).since (ms 1)) s fun s =>
    let fails := ((port s p).failedAt.filter fun t => decide (s.core.t < t + sec 1)).length
    if 3 ≤ fails then raisePf 0x8005 p (port s p).failReason (modPort p (fun q => { q with state := .failed, since := s.core.t }) s)
    else modPort p (fun q => { q with state := .training, since := s.core.t }) s

/-- An Ethernet port completes auto-negotiation and training (R240, R264). -/
def execEthLinkUp (p : Nat) (s : State) : Out :=
  onEvent (decide ((port s p).mode = .ethernet) && decide ((port s p).state = .training) && !s.core.datReset) s (linkUp p)

/-! ### Ethernet (R240 to R243) -/

/-- Frames of the priorities that PFC_EN names held back for a received pause: quanta of 512 bit times at 400 Gb/s, and 0 lets
them go on (R240). -/
def pausePrios (p : Nat) (l : List (Nat × Nat)) (s : State) : State :=
  let now := s.core.t
  modPort p (fun q =>
    { q with paused := (l.filter fun x => decide (x.1 < 8) && bit q.ethCfg x.1).foldl (fun t x => t.set x.1 (now + ceilDiv (x.2 * 128) 100)) q.paused }) s

/-- A frame at the MAC: passed on, or dropped and counted. -/
def execEthFrameReceive (p : Nat) (x : EthFrame) (s : State) : Out :=
  onEvent (decide ((port s p).mode = .ethernet) && decide ((port s p).state = .up) && !s.core.datReset) s fun s =>
    let s := modPort p (fun q =>
      { q with fecCorr := sat 0xFFFFFFFF (q.fecCorr + x.corrected), fecUnc := sat 0xFFFFFFFF (q.fecUnc + x.uncorrectable) }) s
    if 0 < x.uncorrectable then s
    else if !x.fcs ∨ x.pause ∨ 2 ≤ x.tags ∨ x.len < 64 ∨ 4352 < x.len then
      modPort p (fun q => { q with drops := sat 0xFFFFFFFF (q.drops + 1) }) s
    else if x.pfc ≠ [] then pausePrios p x.pfc s
    else idleExit s

/-- A CNP for a QP cuts its rate; never below 1 Gb/s (R243). -/
def execCnpReceive (q : Nat) (s : State) : Out :=
  let s := idleExit s
  .next (modQp q (fun p =>
    { p with rate := max 1000000000 (p.rate * (256 - feature s 0x50 0 32) / 256), ccAt := s.core.t }) s)

/-- A CC_PERIOD without a CNP raises the rate, up to line rate (R243). -/
def execCcPeriodExpiry (q : Nat) (s : State) : Out :=
  match qpOf s q with
  | none => .next s
  | some p =>
    onEvent (passed s p.ccAt (us (feature s 0x52 0 55))) s fun s =>
      modQp q (fun p => { p with rate := min 400000000000 (p.rate + 100000000 * feature s 0x51 0 50), ccAt := s.core.t }) s

/-! ### Domain time (R251, R372 to R374) -/

/-- A PTP event message timestamped at a port, in 1/16 ns, and whether the selected master sent it: the servo gets it with
the asymmetry correction, and a master has been heard. -/
def execPtpMessage (p rawStamp : Nat) (fromMaster : Bool) (s : State) : Out :=
  onEvent (decide ((port s p).state = .up) && !s.core.datReset) s fun s =>
    let s := emit (.ptp p ((rawStamp : Int) + signed 32 (port s p).tsAsym)) (idleExit s)
    if fromMaster then judgeTime (s.modDom fun d => { d with masterAt := s.core.t, noMaster := false }) else s

end Sys2Proof.Machine
end

