-- ==== Sys2Proof/Machine/Power.lean ====
section
/-! DEFINITION. The power commands, entry to and exit from the device states, the rails, the clocks and the thermal sensor
(14, 18). -/

namespace Sys2Proof.Machine

/-! ### POWER_VOTE and POWER_QUERY (R392, R412) -/

/-- POWER_VOTE with an ACTION, past its checks. -/
def powerVote (action : Nat) (id : CmdId) (s : State) (k : Nat → Cmd → State → State) : Out :=
  onCmd .powerVote id s fun c s =>
    let d := c.context
    if fld c.pkt 2 0 0 ≠ action then s
    else
      checks [
        fields c [(decide (30 ≤ d ∧ d ≠ 0xFF), 4), rsv c.pkt 2 31 1],
        deny (!(decide (d < 16) || (decide (d = 25) && !(layoutPairs s).isEmpty))) 6 c,
        deny (decide (d < 16) && bit s.stn.floorFence d) 7 c] (k d c) s

/-- POWER_VOTE PLACE; on a granary a wake of its sleep (R379, R392; log entry 115). -/
def execPowerVotePlace (id : CmdId) (s : State) : Out :=
  powerVote 0 id s fun d c s =>
    let s := if isGranary s then sleepWake s else s
    if (pdom s d).host.contains c.fn then succeed c s
    else
      let s := modPdom d (fun p => { p with host := p.host ++ [c.fn] }) s
      let s := settle d (tellMw (.powerVote d c.fn true) s)
      if (pdom s d).level = .active then succeed c s
      else accept c (modPdom d (fun p => { p with waiters := p.waiters ++ [c.id] }) s)

/-- POWER_VOTE WITHDRAW. -/
def execPowerVoteWithdraw (id : CmdId) (s : State) : Out :=
  powerVote 1 id s fun d c s =>
    succeed c (settle d (tellMw (.powerVote d c.fn false)
      (modPdom d (fun p => { p with host := p.host.filter fun f => f ≠ c.fn }) s)))

/-- Level codes (R386). -/
def Level.code : Level → Nat
  | .off => 0
  | .retain => 1
  | .gated => 2
  | .active => 3

/-- PWR_STATE (R414). -/
def pwrState (s : State) : Nat :=
  s.pwr.state.code + s.pwr.target.code * 2 ^ 4 + flag s.pwr.boost * 2 ^ 7 + flag s.pwr.thermal * 2 ^ 8

/-- PWR_WAKE_SRC. -/
def pwrWakeSrc (s : State) : Nat := s.pwr.wakeSrc + flag s.pwr.wakeValid * 2 ^ 8 + flag s.pwr.wakeFromOff * 2 ^ 9

/-- The votes on a domain that are not the host's, from the Wheelhouse's up. -/
def otherVotes (s : State) (d : Nat) : Nat :=
  let p := pdom s d
  flag (decide (d < 16) && wheelVote s d) + flag (still s p.prewake) * 2 + flag p.mw * 4 + flag p.agent * 8 + flag (still s p.access) * 16

/-- POWER_QUERY. -/
def execPowerQuery (id : CmdId) (s : State) : Out :=
  onCmd .powerQuery id s fun c s =>
    let d := c.context
    checks [fields c [(decide (30 ≤ d ∧ d ≠ 0xFF), 4)]]
      (fun s =>
        if d = 0xFF then complete c .success (pwrState s) (pwrWakeSrc s) s
        else
          complete c .success
            ((levelOf s d).code + s.pwr.state.code * 2 ^ 2 + flag (!(pdom s d).host.isEmpty) * 2 ^ 8 + otherVotes s d * 2 ^ 9)
            (sat 0xFFFFFFFF ((s.core.t - (pdom s d).since) / 1000)) s) s

/-! ### POWER_STATE (R397, R400) -/

/-- POWER_STATE with a TARGET, past the checks of its fields. RUN's row answers the reserved codes too. -/
def powerState (target : Target) (id : CmdId) (s : State) (k : Cmd → State → State) : Out :=
  onCmd .powerState id s fun c s =>
    let code := fld c.pkt 2 2 0
    let reserved := !([0, 2, 3, 4].contains code)
    if code ≠ target.code ∧ !(reserved && decide (target = .run)) then s
    else checks [fields c [(decide (c.context ≠ 0xFF), 4), (reserved, 8), rsv c.pkt 2 31 3]] (k c) s

/-- The condition of R397 that refuses a target other than RUN, 0 for none. -/
def sleepRefusal (c : Cmd) (s : State) : Nat :=
  if s.whl.races ≠ [] then 1
  else if s.rdm.qps.any fun q => decide (q.2.state ≠ .reset) && decide (q.2.state ≠ .error) then 2
  else if isGranary s && joined s then 3
  else if s.trn.items ≠ [] ∨ s.mem.copies ≠ [] ∨
      (s.chk.engines.any fun e => e.2.run.isSome || !e.2.hostQ.isEmpty || !e.2.intQ.isEmpty) ∨
      s.hif.cmds.any (fun d => decide (d.id ≠ c.id) && (match d.id.origin with | .pcie _ => true | _ => false)) then 4
  else 0

/-- Entry to a target begins: POWER_STATE completes, and the rest follows at its own time. -/
def powerEntry (target : Target) (id : CmdId) (s : State) : Out :=
  powerState target id s fun c s =>
    let no := sleepRefusal c s
    checks [deny (decide (no ≠ 0)) no c]
      (fun s =>
        let s := complete c .success target.code 0 s
        let fromSleep := decide (s.pwr.state = .sleep) || s.pwr.entry.any fun e => e.fromSleep
        let wakeMs := dw c.pkt 3
        let s := s.modPwr fun p => { p with wakeTimer := if wakeMs = 0 then none else some (s.core.t + ms wakeMs) }
        if s.pwr.state = .sleep ∧ target = .sleep then s
        else
          s.modPwr fun p =>
            { p with target, entry := some { target, since := s.core.t, fromSleep,
                                             stopped := fromSleep || p.entry.any fun e => e.stopped } }) s

/-- POWER_STATE RUN. -/
def execPowerStateRun (id : CmdId) (s : State) : Out :=
  powerState .run id s fun c s => wake 0x03 (complete c .success 0 0 s)

/-- POWER_STATE SLEEP. -/
def execPowerStateSleep (id : CmdId) (s : State) : Out := powerEntry .sleep id s

/-- POWER_STATE DEEP_SLEEP. -/
def execPowerStateDeepSleep (id : CmdId) (s : State) : Out := powerEntry .deepSleep id s

/-- POWER_STATE OFF. -/
def execPowerStateOff (id : CmdId) (s : State) : Out := powerEntry .off id s

/-- The Millwright is in the WFI of mode 2 (R399). -/
def mwRetained (s : State) : Bool := s.mwr.wfi && decide (s.mwr.wfiMode = 2)

/-- Step 2 of entry: fetch stops 1 ms after acceptance, and the power notice goes out. -/
def execPowerEntryFetchStop (s : State) : Out :=
  match s.pwr.entry with
  | none => .next s
  | some e =>
    onEvent (!e.committed && e.noticeAt.isNone && passed s e.since (ms 1)) s fun s =>
      let s := enterState .entering s
      if e.target = .sleep then s.modPwr fun p => { p with entry := some { e with stopped := true, committed := true } }
      else
        let s := tellMw .powerNotice s
        s.modPwr fun p => { p with entry := some { e with stopped := true, noticeAt := some s.core.t, committed := mwRetained s } }

/-- The Millwright takes the power notice (R400). -/
def execPowerNotice (s : State) : Out :=
  onMw (decide (ctlNext s = some .powerNotice)) s fun s =>
    (takeCtl .powerNotice s).modMwr fun m =>
      { m with pwrmode := 2 }

/-- Both cores execute WFI (R399): mode 2 with another target acts as mode 1, and entry goes on from mode 2. -/
def execMwWfi (s : State) : Out :=
  onEvent (s.mwr.running && !s.mwr.wfi) s fun s =>
    let deep := decide (s.pwr.target = .deepSleep ∨ s.pwr.target = .off)
    let mode := if s.mwr.pwrmode = 2 ∧ deep = false then 1 else s.mwr.pwrmode
    let s := noteLevels (·.modMwr fun m => { m with wfi := true, wfiMode := mode }) s
    if mode = 2 then
      s.modPwr fun p => { p with entry := p.entry.map fun e => if e.noticeAt.isSome then { e with committed := true } else e }
    else s

/-- The Millwright is not in WFI 100 ms after the notice. -/
def execPowerEntryMwTimeout (s : State) : Out :=
  onEvent (s.pwr.entry.any fun e => !e.committed && (match e.noticeAt with | some n => passed s n (ms 100) | none => false)) s
    abandonEntry

/-- Ports go OFF: links that are UP go down with cause COMMAND (R260, R400). -/
def portsOff (s : State) : State :=
  forEach (List.range 8) (fun p s =>
    modPort p (fun q => { q with state := .down, since := s.core.t, failedAt := [], flm := q.flm.clear }) (linkDown p 8 0 .linkDown s)) s

/-- Floors go OFF and the DDR complex to RETAIN. -/
def domainsDown (s : State) : State :=
  forEach voteable (fun d s =>
    match (pdom s d).level with
    | .active | .gated => dropDom d s
    | _ => modPdom d (fun p => { p with wakeAt := none, clearAt := none }) s) s

/-- Steps 4 and 5 of entry, and the wake that came meanwhile. -/
def execPowerEntryEnd (s : State) : Out :=
  match s.pwr.entry with
  | none => .next s
  | some e =>
    onEvent e.committed s fun s =>
      let s := domainsDown (portsOff s)
      let s := noteLevels (fun s =>
        match e.target with
        | .run => s
        | .sleep => enterState .sleep (s.modPwr fun p => { p with entry := none })
        | .deepSleep =>
          let s := flrPf (clearInst 257 (s.modMem fun m => { m with leafCache := [], walkCache := [] }))
          let s := s.modPwr fun p =>
            { p with endpoint := false, pll := false, railEn := p.railEn.set 2 false, railPg := p.railPg.set 2 false, aoLow := true,
                     boost := false, grant := none, entry := none }
          let s := (setHoldover s).modHif fun h => { h with accept := false }
          enterState .deepSleep s
        | .off => (loseRails (flrPf s)).modPwr fun p => { p with state := .off }) s
      match e.wake with
      | some w => wake w s
      | none => s

/-! ### IDLE, holds and on-demand wakes (R388, R391, R393) -/

/-- IDLE entered: powered floors have their clocks stopped. -/
def execIdleEnter (s : State) : Out :=
  onEvent (decide (s.pwr.state = .run) && decide (s.pwr.target = .run) && s.pwr.entry.isNone && s.trn.items.isEmpty &&
      s.hif.cmds.isEmpty) s fun s =>
    enterState .idle (s.modPwr fun p =>
      { p with doms := p.doms.mapVal fun d x => if d < 16 ∧ x.level = .active then { x with level := .gated, since := s.core.t } else x })

/-- When the last vote on a domain cleared. -/
def clearedAt (p : PDom) : Nat := p.clearAt.getD (max p.since (max (p.access.getD 0) (p.prewake.getD 0)))

/-- A domain has been without votes for its idle hold. -/
def execVoteIdleHoldExpiry (d : Nat) (s : State) : Out :=
  onEvent (voteable.contains d && powered s && !voted s d &&
      decide ((pdom s d).level = .active ∨ (pdom s d).level = .gated) && passed s (clearedAt (pdom s d)) (idleHold s d)) s (dropDom d)

/-- A prewake vote ends. -/
def execPrewakeHoldExpiry (d : Nat) (s : State) : Out :=
  onEvent (match (pdom s d).prewake with | some e => decide (e ≤ s.core.t) | none => false) s fun s =>
    settle d (modPdom d (fun p => { p with prewake := none }) s)

/-- A wake of a floor or of the DDR complex completes: what waited for it goes on. -/
def execDomainWakeDone (d : Nat) (s : State) : Out :=
  match (pdom s d).wakeAt with
  | none => .next s
  | some w =>
    onEvent (powered s) s fun s =>
      let p := pdom s d
      let took := s.core.t - w
      let idle := decide (s.pwr.state = .idle) && decide (d < 16)
      let s := modPdom d (fun p =>
        { p with level := if idle then .gated else .active, since := s.core.t, wakeAt := none, waiters := [] }) s
      let s := if d < 16 ∧ p.level = .off then
          clearBlock d 1 (s.modPwr fun p => { p with floorWakes := sat 0xFFFFFFFF (p.floorWakes + 1) })
        else s
      let waiting := itemsWhere s fun i => i.waking && i.holds.contains d
      let s := if (p.access.isSome ∨ waiting ≠ []) ∧ s.pwr.stallMax < took then
          s.modPwr fun p => { p with stallMax := sat 0xFFFF took, stallDom := d }
        else s
      let s := p.waiters.foldl (fun s id => completeId id .success (took / 1000) 0 s) s
      let s := waiting.foldl (fun s e => if blockAwake s e.2.base e.2.floors then beginItem e.1 s else s) s
      settle d s

/-! ### Wake sources (R402) -/

/-- A filtered WAKE_N falling edge. -/
def execWakeNEdge (s : State) : Out := .next (wake 0x01 s)

/-- The AO wake timer expires. -/
def execAoWakeTimerExpiry (s : State) : Out :=
  onEvent (match s.pwr.wakeTimer with | some e => decide (e ≤ s.core.t) | none => false) s fun s =>
    wake 0x02 (s.modPwr fun p => { p with wakeTimer := none })

/-- USB attach or resume. -/
def execUsbAttach (s : State) : Out :=
  let s := s.modUsb fun u => { u with attached := true, dev := max u.dev 1 }
  .next (if wakesMgt s then wake 0x04 s else s)

/-- An I3C in-band interrupt as a wake. -/
def execI3cIbiWake (s : State) : Out := .next (if wakesMgt s then wake 0x05 s else s)

/-! ### The rail sequence (R404, R498, R499, R504, R505) -/

/-- The sequencer waits for something since at least a limit. -/
def waitedFor (w : SeqWait) (limit : Nat) (s : State) : Bool := decide (s.pwr.wait = w) && passed s s.pwr.waitAt limit

/-- A RAIL_PG rises: the next enable is asserted 100 µs later, after the last XTAL_MW is started; the level STEWARD has 1 ms
after the first one of a cold reset is sampled (R505). -/
def execRailPgRise (n : Nat) (steward : Bool) (s : State) : Out :=
  onEvent (decide (s.pwr.wait = .pg n)) s fun s =>
    s.modPwr fun p =>
      let p := { p with railPg := p.railPg.set n true, strap := if p.cold ∧ n = 0 then steward else p.strap }
      if p.cold then
        if 7 ≤ n then { p with wait := .xtal, waitAt := s.core.t }
        else { p with wait := .gap (n + 1), waitAt := s.core.t }
      else { p with wait := .pll, waitAt := s.core.t }

/-- XTAL_MW is ready. -/
def execXtalMwReady (s : State) : Out :=
  onEvent (decide (s.pwr.wait = .xtal)) s fun s => s.modPwr fun p => { p with xtal := true, wait := .pll, waitAt := s.core.t }

/-- The PLLs lock. -/
def execPllLock (s : State) : Out :=
  onEvent (decide (s.pwr.wait = .pll)) s fun s => if s.pwr.cold then finishCold s else finishWake s

/-- No PGOOD within 2 ms. -/
def execPgoodTimeout (s : State) : Out :=
  onEvent (match s.pwr.wait with | .pg n => waitedFor (.pg n) (ms 2) s | _ => false) s (failAttempt 1)

/-- XTAL_MW is not ready within 5 ms. -/
def execXtalMwTimeout (s : State) : Out := onEvent (waitedFor .xtal (ms 5) s) s (failAttempt 2)

/-- No PLL lock within 200 µs. -/
def execPllLockTimeout (s : State) : Out := onEvent (waitedFor .pll (us 200) s) s (failAttempt 3)

/-- The pause of 10 ms ends. -/
def execWakeRetryDelayEnd (s : State) : Out := onEvent (waitedFor .pause (ms 10) s) s beginAttempt

/-- A RAIL_PG falls: one that the sequencer waits for, or one low for 1 ms with its enable asserted, whereupon outside a wake or
power-up every rail is removed (R499). -/
def execRailPgFall (n : Nat) (s : State) : Out :=
  onEvent (s.pwr.railPg.getD n false) s fun s =>
    let s := s.modPwr fun p => railsFall s.core.t { p with railPg := p.railPg.set n false }
    if s.pwr.railEn.getD n false = false then s
    else if s.pwr.wait = .idle ∧ s.pwr.state ≠ .wakeFailed then noteLevels (fun s => wakeFailed 1 (loseRails s)) s else s

/-- The AO brown-out detector trips. -/
def execAoBrownout (s : State) : Out := onEvent s.pwr.aoIn s (coldReset true (some 0x02))

/-- VDD_AO_IN falls below 1.55 V: nothing is supplied any more. -/
def execVddAoInLow (s : State) : Out :=
  .next ((loseRails s).modPwr fun p => { p with railEn := noRails, railPg := noRails, falling := none, aoIn := false, state := .off, xtalAo := false, wakeFailN := false, wakeTimer := none })

/-- The AO domain switches to the crystal. -/
def execXtalAoSwitch (s : State) : Out := onEvent s.pwr.aoIn s fun s => s.modPwr fun p => { p with xtalAo := true }

/-! ### The stone clock and the sensor (R408, R506) -/

/-- CLOCK_CHANGED with its reason. -/
def setBoost (b : Bool) (reason : Nat) (s : State) : State :=
  if s.pwr.boost = b then s else raisePf 0xD003 0 (flag b + reason * 2 ^ 8) (s.modPwr fun p => { p with boost := b })

/-- The settings of R409: VDD_CORE in mV while on, body bias of NMOS and PMOS in mV, SRAM array voltage in mV while on, word-line
underdrive in percent, and negative bit line in mV. -/
structure Settings where
  vcore : Option Nat
  nBias : Int
  pBias : Int
  array : Option Nat
  readAssist : Nat := 0
  writeAssist : Int := 0
  deriving DecidableEq, Repr

/-- The settings of a domain by its level and the stone clock (R409). -/
def settings (s : State) (d : Nat) : Settings :=
  match levelOf s d with
  | .active =>
    if s.pwr.boost then { vcore := some s.pwr.vcore, nBias := 150, pBias := -150, array := some 800, writeAssist := -80 }
    else { vcore := some s.pwr.vcore, nBias := 0, pBias := 0, array := some 800, readAssist := 5, writeAssist := -100 }
  | .gated => { vcore := some s.pwr.vcore, nBias := -200, pBias := 200, array := some 800 }
  | .retain => { vcore := none, nBias := -300, pBias := 300, array := some 620 }
  | .off => { vcore := none, nBias := 0, pBias := 0, array := none }

/-- A headroom grant begins or begins again where it arrives. -/
def takeGrant (s : State) : State :=
  let s := s.modPwr fun p => { p with grant := some (s.core.t + ms 100) }
  if s.pwr.thermal then s else setBoost true 1 s

/-- A headroom grant: where one is next in MW_TO_CTL and the control plane takes messages it takes that one, and otherwise the
Millwright raises VDD_CORE and posts one (R408, R497; log entry 118). -/
def execHeadroomGrant (s : State) : Out :=
  if s.mail.mwToCtl.front = some .headroomGrant ∧ ctlTakes s = true then .next (takeGrant (popCtl s))
  else onPost s.mwr.grants (fun s => postCtl .headroomGrant (s.modPwr fun p => { p with vcore := 850 })) s

/-- A grant lapses. -/
def execGrantLapse (s : State) : Out :=
  onEvent (match s.pwr.grant with | some e => decide (e ≤ s.core.t) | none => false) s fun s =>
    setBoost false 2 (s.modPwr fun p => { p with grant := none, vcore := 750 })

/-- The throttle threshold is reached. -/
def execThermalThrottle (s : State) : Out :=
  onEvent s.pwr.pll s fun s => setBoost false 3 (s.modPwr fun p => { p with thermal := true })

/-- The sensor reads 5 °C below the threshold: a grant still in force has its clock again. -/
def execThermalThrottleClear (s : State) : Out :=
  onEvent s.pwr.thermal s fun s =>
    let s := s.modPwr fun p => { p with thermal := false }
    if still s s.pwr.grant then setBoost true 3 s else s

/-- The alert threshold is reached: THERM_ALERT_N falls. -/
def execThermalAlert (s : State) : Out := onEvent s.pwr.pll s fun s => s.modPwr fun p => { p with alert := true }

/-- The sensor reads 10 °C below it: THERM_ALERT_N returns high. -/
def execThermalAlertClear (s : State) : Out := .next (s.modPwr fun p => { p with alert := false })

end Sys2Proof.Machine
end

