-- ==== Sys2Proof/Machine/Rdma.lean ====
section
/-! DEFINITION. The RDMA commands, doorbells, work requests and answers (09). -/

namespace Sys2Proof.Machine

/-! ### Creating and destroying (R267, R269, R274, R276, R282) -/

/-- QPs of a function. -/
def qpsOf (s : State) (fn : Nat) : Nat := (s.rdm.qps.filter fun p => p.2.fn = fn).length

/-- A ring of 2^k entries translated for the device to use (R269): what the first failing check answers, or the ring. -/
def ringAt (c : Cmd) (asid va bytes : Nat) (write : Bool) (k : Held → State → State) (s : State) : State :=
  match translate s { write } asid va bytes with
  | .error f => xlateFault c f 0 s
  | .ok h => k h (noteWalks h s)

/-- An RDMA CQ that does not exist, is not the function's, or takes no work completions (R267, R274). -/
def cqForeign (s : State) (fn n : Nat) : Bool := (s.rdm.cqs.get n).all fun x => decide (x.fn ≠ fn) || x.eventq

/-- QP_CREATE (R267, R269, R282). -/
def execQpCreate (id : CmdId) (s : State) : Out :=
  onCmd .qpCreate id s fun c s =>
    let p := c.pkt
    let q := c.context
    let useSrq := fbit p 2 5
    let asid := fld p 2 25 16
    let quota := if c.fn = 0 then 16384 else feature s 0x04 c.fn 0
    checks [
      noRes (16384 ≤ s.rdm.qps.length) c, bad (s.rdm.qps.has q || decide (16383 < q)) 4 c,
      fields c [
        (decide (fld p 2 1 0 = 3), 8), rsv p 2 15 6, (!ownsAsid s c.fn asid, 10), rsv p 2 31 26,
        (cqForeign s c.fn (fld p 3 12 0), 12), rsv p 3 15 13, (cqForeign s c.fn (fld p 3 28 16), 14), rsv p 3 31 29,
        (useSrq && (s.rdm.srqs.get (fld p 4 8 0)).all fun x => decide (x.fn ≠ c.fn), 16), (!useSrq && decide (dw p 4 ≠ 0), 16),
        rsv p 4 31 9, (decide (fld p 5 3 0 < 4), 20),
        (if useSrq then decide (fld p 5 7 4 ≠ 0) else decide (fld p 5 7 4 < 4), 20), rsv p 5 31 8, vaField p 6 4096,
        vaField p 8 (if useSrq then 1 else 4096)],
      noRes (quota ≤ qpsOf s c.fn) c]
      (ringAt c asid (qw p 6) (64 * 2 ^ fld p 5 3 0) false fun sring s =>
        let make (rring : Option Held) (s : State) : State :=
          succeed c (s.modRdm fun r =>
            { r with
              qps := r.qps.set q
                { fn := c.fn, mode := fld p 2 1 0, port := fld p 2 4 2, asid, sendCq := fld p 3 12 0, recvCq := fld p 3 28 16,
                  srq := if useSrq then some (fld p 4 8 0) else none, sk := fld p 5 3 0, rk := fld p 5 7 4, sring, rring } })
        if useSrq then make none s
        else ringAt c asid (qw p 8) (64 * 2 ^ fld p 5 7 4) false (fun h s => make (some h) s) s) s

/-- QP_DESTROY (R282): outstanding entries write no completion. -/
def execQpDestroy (id : CmdId) (s : State) : Out :=
  onCmd .qpDestroy id s fun c s =>
    match qpOf s c.context with
    | none => invalid c 4 s
    | some q =>
      if q.fn ≠ c.fn then invalid c 4 s
      else
        let s := match q.move with
          | some m => completeId m.id .aborted 0 0 s
          | none => s
        succeed c (qpLeft c.context (s.modRdm fun r => { r with qps := r.qps.erase c.context }))

/-- SRQ_CREATE with k (R276). -/
def execSrqCreate (id : CmdId) (s : State) : Out :=
  match runnable s .srqCreate id with
  | none => .next s
  | some c =>
    let p := c.pkt
    if fld p 4 3 0 = 0 ∧ s.rdm.srqs.has c.context then .next s
    else
      .next (checks [
        noRes (512 ≤ s.rdm.srqs.length) c, bad (s.rdm.srqs.has c.context || decide (511 < c.context)) 4 c,
        fields c [
          vaField p 2 4096, (decide (fld p 4 3 0 < 4), 16), rsv p 4 15 4, (!ownsAsid s c.fn (fld p 4 25 16), 18), rsv p 4 31 26,
          (cqForeign s c.fn (fld p 5 12 0), 20), rsv p 5 31 13, rsv p 6 31 16]]
        (ringAt c (fld p 4 25 16) (qw p 2) (64 * 2 ^ fld p 4 3 0) false fun ring s =>
          succeed c (s.modRdm fun r =>
            { r with
              srqs := r.srqs.set c.context
                { fn := c.fn, k := fld p 4 3 0, ring, asid := fld p 4 25 16, cq := fld p 5 12 0, limit := fld p 6 15 0 } })) s)

/-- SRQ_CREATE with the number of an SRQ and k 0: a new limit (R276). -/
def execSrqSetLimit (id : CmdId) (s : State) : Out :=
  match runnable s .srqCreate id with
  | none => .next s
  | some c =>
    match s.rdm.srqs.get c.context with
    | none => .next s
    | some x =>
      if fld c.pkt 4 3 0 ≠ 0 then .next s
      else if x.fn ≠ c.fn then .next (invalid c 4 s)
      else if fld c.pkt 6 31 16 ≠ 0 then .next (invalid c 26 s)
      else .next (succeed c (s.modRdm fun r => { r with srqs := r.srqs.set c.context { x with limit := fld c.pkt 6 15 0 } }))

/-- CQ_CREATE with k (R274). -/
def execCqCreate (id : CmdId) (s : State) : Out :=
  match runnable s .cqCreate id with
  | none => .next s
  | some c =>
    let p := c.pkt
    if fld p 4 3 0 = 0 ∧ s.rdm.cqs.has c.context then .next s
    else
      .next (checks [
        noRes (8192 ≤ s.rdm.cqs.length) c, bad (s.rdm.cqs.has c.context || decide (8191 < c.context)) 4 c,
        fields c [
          vaField p 2 4096, (decide (fld p 4 3 0 < 4), 16), rsv p 4 15 4, (!ownsAsid s c.fn (fld p 4 25 16), 18), rsv p 4 31 26,
          (decide (c.fn ≠ 0 ∧ 7 < fld p 5 5 0), 20), rsv p 5 7 6, (fbit p 5 8 && s.rdm.cqs.any fun x => x.2.eventq && decide (x.2.fn = c.fn), 20), rsv p 5 31 9]]
        (ringAt c (fld p 4 25 16) (qw p 2) (32 * 2 ^ fld p 4 3 0) true fun ring s =>
          succeed c (s.modRdm fun r =>
            { r with
              cqs := r.cqs.set c.context
                { fn := c.fn, k := fld p 4 3 0, ring, vector := fld p 5 5 0, eventq := fbit p 5 8 } })) s)

/-- CQ_CREATE with k 0: the CQ ends once nothing is bound to it (R274). -/
def execCqDestroy (id : CmdId) (s : State) : Out :=
  match runnable s .cqCreate id with
  | none => .next s
  | some c =>
    match s.rdm.cqs.get c.context with
    | none => .next s
    | some x =>
      if fld c.pkt 4 3 0 ≠ 0 then .next s
      else
        .next (checks [
          bad (x.fn ≠ c.fn) 4 c,
          busy (!(qpsOnCq s c.context).isEmpty || s.rdm.srqs.any fun q => decide (q.2.cq = c.context)) 1000 c]
          (fun s => succeed c (s.modRdm fun r => { r with cqs := r.cqs.erase c.context })) s)

/-! ### QP_MODIFY (R283 to R285) -/

/-- QP_MODIFY towards a target the row names; a transition not in the table of R284 is refused. -/
def qpModify (target : Nat) (also : Nat → Bool) (id : CmdId) (s : State) (f : Cmd → Qp → State → State) : Out :=
  match runnable s .qpModify id with
  | none => .next s
  | some c =>
    let t := fld c.pkt 2 2 0
    if t ≠ target ∧ also t = false then .next s
    else
      match qpOf s c.context with
      | none => .next (invalid c 4 s)
      | some q =>
        .next (checks [
          bad (q.fn ≠ c.fn) 4 c, bad (t ≠ target) 8 c, fields c [rsv c.pkt 2 7 7, rsv c.pkt 2 31 16]] (f c q) s)

/-- QP_MODIFY to RESET; the target codes 6 and 7 are refused here too. -/
def execQpModifyReset (id : CmdId) (s : State) : Out :=
  qpModify 0 (fun t => decide (5 < t)) id s fun c q s =>
    if q.state ≠ .error then invalid c 8 s
    else
      succeed c (modQp c.context
        (fun q => { q with state := .reset, sent := [], posted := [], recvs := [], rposted := [], sprod := 0, scons := 0,
                           rprod := 0, rcons := 0, rqPsn := 0, sqPsn := 0, num := 0, inBytes := 0, msn := 0 }) s)

/-- QP_MODIFY to INIT. -/
def execQpModifyInit (id : CmdId) (s : State) : Out :=
  qpModify 1 (fun _ => false) id s fun c q s =>
    if q.state ≠ .reset then invalid c 8 s else succeed c (modQp c.context (fun q => { q with state := .init }) s)

/-- The 16 bytes of a GID. -/
def gidOf (p : List Word) : Nat := qw p 7 + qw p 9 * 2 ^ 64

/-- QP_MODIFY to RTR (R283, R284). -/
def execQpModifyRtr (id : CmdId) (s : State) : Out :=
  qpModify 2 (fun _ => false) id s fun c q s =>
    let p := c.pkt
    let fl := (port s q.port).mode
    let m := fld p 2 15 8
    checks [
      bad (q.state ≠ .init) 8 c,
      bad (fl = .flume ∧ (port s q.port).flm.valid = true ∧ (port s q.port).flm.peer ≠ m) 9 c,
      bad (q.mode = 1 ∧ ((s.dom.members.get m).all fun x => decide (x.role ≠ 2))) 9 c,
      fields c [rsv p 3 31 24, rsv p 4 31 24, (decide (fld p 6 25 21 = 0 ∨ 16 < fld p 6 25 21), 26), rsv p 6 31 26]]
      (fun s =>
        succeed c (modQp c.context
          (fun q => { q with state := .rtr, member := m, rqpn := fld p 3 23 0, rqPsn := fld p 4 23 0, minRnr := fld p 6 15 11,
                             maxRdDest := fld p 6 25 21, gid := if fl = .ethernet then gidOf p else 0,
                             tclass := if fl = .ethernet then fld p 11 7 0 else 0 }) s)) s

/-- QP_MODIFY to RTS without MOVE, from RTR or DRAINED (R283, R284). -/
def execQpModifyRts (id : CmdId) (s : State) : Out :=
  match runnable s .qpModify id with
  | none => .next s
  | some c =>
    if fbit c.pkt 2 3 then .next s
    else
      qpModify 3 (fun _ => false) id s fun c q s =>
        let p := c.pkt
        let n := fld p 6 4 0
        match q.state with
        | .rtr =>
          checks [
            fields c [
              rsv p 5 31 24, (decide (n < 2 ∨ 20 < n), 24), (decide (fld p 6 20 16 = 0 ∨ 16 < fld p 6 20 16), 26), rsv p 6 31 26]]
            (fun s =>
              succeed c (modQp c.context
                (fun q => { q with state := .rts, sqPsn := fld p 5 23 0, timeout := n, retryCnt := fld p 6 7 5,
                                   rnrRetry := fld p 6 10 8, maxRd := fld p 6 20 16 }) s)) s
        | .drain => if q.move.isSome ∨ q.sent ≠ [] then invalid c 8 s else succeed c (modQp c.context (fun q => { q with state := .rts }) s)
        | _ => invalid c 8 s

/-- QP_MODIFY to RTS with MOVE: a port move (R285). -/
def execQpModifyMove (id : CmdId) (s : State) : Out :=
  match runnable s .qpModify id with
  | none => .next s
  | some c =>
    if fbit c.pkt 2 3 then
      qpModify 3 (fun _ => false) id s fun c q s =>
        if q.state ≠ .rts then invalid c 8 s
        else
          let np := fld c.pkt 2 6 4
          let gid := if (port s np).mode = .ethernet then gidOf c.pkt else 0
          let s := accept c (qpLeft c.context (modQp c.context (fun q => { q with state := .drain, move := some ⟨c.id, np, gid, s.core.t⟩ }) s))
          drainCheck c.context s
    else .next s

/-- QP_MODIFY to DRAIN. -/
def execQpModifyDrain (id : CmdId) (s : State) : Out :=
  qpModify 4 (fun _ => false) id s fun c q s =>
    if q.state ≠ .rts then invalid c 8 s else succeed c (qpLeft c.context (modQp c.context (fun q => { q with state := .drain }) s))

/-- QP_MODIFY to ERROR: no QP_ERROR is raised (R284). -/
def execQpModifyError (id : CmdId) (s : State) : Out :=
  qpModify 5 (fun _ => false) id s fun c q s =>
    if q.state = .reset then invalid c 8 s
    else succeed c (qpError c.context .aborted .aborted none s)

/-- Every request of a draining QP is acknowledged (R284, R285): a port move ends and the QP resumes in RTS. -/
def execQpDrainEnd (q : Nat) (s : State) : Out := .next (drainCheck q s)

/-! ### Keys and windows (R277, R281) -/

/-- MR_REGISTER with a length (R277). -/
def execMrRegister (id : CmdId) (s : State) : Out :=
  match runnable s .mrRegister id with
  | none => .next s
  | some c =>
    let p := c.pkt
    if bits (qw p 4) 39 0 = 0 ∧ s.rdm.keys.has c.context then .next s
    else
      .next (checks [
        noRes (65536 ≤ s.rdm.keys.length) c, bad (s.rdm.keys.has c.context || decide (65535 < c.context)) 4 c,
        fields c [
          vaField p 2 1, (decide (bits (qw p 4) 39 0 = 0), 16), rsv p 5 31 8, rsv p 6 7 2, rsv p 6 31 16,
          (!ownsAsid s c.fn (fld p 7 9 0), 28), rsv p 7 31 10]]
        (fun s =>
          complete c .success (c.context * 2 ^ 8 + fld p 6 15 8) 0 (s.modRdm fun r =>
            { r with
              keys := r.keys.set c.context
                { fn := c.fn, va := qw p 2, len := qw p 4, rd := fbit p 6 0, wr := fbit p 6 1, tag := fld p 6 15 8,
                  asid := fld p 7 9 0 } })) s)

/-- MR_REGISTER with LENGTH 0: the key ends; inbound packets are served whole, so none is still under way (R277). -/
def execMrDeregister (id : CmdId) (s : State) : Out :=
  match runnable s .mrRegister id with
  | none => .next s
  | some c =>
    match s.rdm.keys.get c.context with
    | none => .next s
    | some k =>
      if bits (qw c.pkt 4) 39 0 ≠ 0 then .next s
      else if k.fn ≠ c.fn then .next (invalid c 4 s)
      else .next (succeed c (s.modRdm fun r => { r with keys := r.keys.erase c.context }))

/-- Entries of the window table store (R281). -/
def windowStore : Nat := 33554432

/-- Entries in use. -/
def windowUsed (s : State) : Nat := (s.rdm.windows.map fun w => w.2.entries.length).foldl (· + ·) 0

/-- The entry table of a WINDOW_BIND. -/
def windowEntries (l : List Byte) (n : Nat) : List (Nat × Nat) := (List.range n).map fun i => (num l (16 * i) 8, num l (16 * i + 8) 8)

/-- WINDOW_BIND with entries (R281). -/
def execWindowBind (id : CmdId) (bus : Bus) (s : State) : Out :=
  match runnable s .windowBind id with
  | none => .next s
  | some c =>
    let p := c.pkt
    let n := fld p 2 15 0
    if n = 0 then .next s
    else
      let w := c.context
      let old := ((s.rdm.windows.get w).map fun x => x.entries.length).getD 0
      let free := windowStore - (windowUsed s - old)
      .next (checks [
        deny (isGranary s = false) 1 c,
        noRes (!s.rdm.windows.has w && decide (4096 ≤ s.rdm.windows.length)) c,
        bad (((s.rdm.windows.get w).any fun x => decide (x.fn ≠ c.fn)) || decide (4095 < w)) 4 c,
        fields c [
          (decide (32768 < n), 8), rsv p 2 31 24, vaField p 3 1, (!ownsAsid s c.fn (fld p 5 9 0), 20), rsv p 5 31 10,
          (fbit p 6 8 && decide (fld p 6 7 0 ≠ 0), 24), rsv p 6 31 9],
        (decide (free < n), complete c .noResource 0 free)]
        (ringAt c (fld p 5 9 0) (qw p 3) (16 * n) false fun h s =>
          let (d, s) := readRuns bus h.segs s
          let l := windowEntries (d.map (·.1)) n
          if anyPoison d then complete c .poisoned 0 (lastErrIndex s) s
          else if l.any fun e => decide (e.2 % 2 ^ 21 ≠ 0) || decide (handleGranary e.1 ≠ ownMember s) then invalid c 12 s
          else
            complete c .success (2 ^ 31 + w * 2 ^ 8 + fld p 2 23 16) 0 (s.modRdm fun r =>
              { r with
                windows := r.windows.set w
                  { fn := c.fn, tag := fld p 2 23 16, member := if fbit p 6 8 then none else some (fld p 6 7 0), entries := l } })) s)

/-- WINDOW_BIND with no entries: the window is released (R281). -/
def execWindowUnbind (id : CmdId) (s : State) : Out :=
  match runnable s .windowBind id with
  | none => .next s
  | some c =>
    if fld c.pkt 2 15 0 ≠ 0 then .next s
    else
      .next (checks [
        deny (isGranary s = false) 1 c,
        bad ((s.rdm.windows.get c.context).any fun x => decide (x.fn ≠ c.fn)) 4 c]
        (fun s =>
          complete c .success (2 ^ 31 + c.context * 2 ^ 8 + fld c.pkt 2 23 16) 0
            (s.modRdm fun r => { r with windows := r.windows.erase c.context })) s)

/-! ### Doorbells (R270) -/

/-- A doorbell discarded and counted. -/
def dbRefuse (s : State) : State := s.modRdm fun r => { r with dbRefused := sat 0xFFFFFFFF (r.dbRefused + 1) }

/-- Entries a producer index adds to a ring of 2^k. -/
def indexStep (prod cons k index : Nat) : Option Nat :=
  let n := (index + 65536 - prod % 65536) % 65536
  if n + (prod - cons) ≤ 2 ^ k then some n else none

/-- The 64-byte entries from an index on, n of them, read out of the ring (R270). -/
def ringEntries (bus : Bus) (ring : Held) (k from_ n : Nat) (s : State) : List (List Byte) × State :=
  (List.range n).foldl
    (fun a i =>
      let r := readRuns bus (subSegs ring.segs (64 * ((from_ + i) % 2 ^ k)) 64) a.2
      (a.1 ++ [r.1.map (·.1)], r.2)) ([], s)

/-- The doorbell of a kind: bits [13:0], the kind, the index; any other bit set is not this doorbell. -/
def dbParts (val kind : Nat) : Option (Nat × Nat) :=
  if bits val 15 14 = kind ∧ bits val 63 33 = 0 ∧ (kind = 3 ∨ bit val 32 = false) then some (bits val 13 0, bits val 31 16) else none

/-- A send queue doorbell: the entries it makes visible are fetched in ring order (R270). -/
def execRdmaSqDoorbell (fn val : Nat) (bus : Bus) (s : State) : Out :=
  let s := idleExit s
  match dbParts val 0 with
  | none => .next (dbRefuse s)
  | some (q, index) =>
    match qpOf s q with
    | none => .next (dbRefuse s)
    | some p =>
      if p.fn ≠ fn then .next (dbRefuse s)
      else
        match indexStep p.sprod p.scons p.sk index with
        | none => .next (dbRefuse s)
        | some n =>
          let (l, s) := ringEntries bus p.sring p.sk p.sprod n s
          let s := modQp q (fun p => { p with sprod := p.sprod + n, posted := p.posted ++ l.map fun e => (s.core.t, e) }) s
          match p.state with
          | .error | .reset | .init =>
            .next (l.foldl (fun s e => wcOut p.sendCq q { wrId := entryWrId e, op := num e 0 1, status := .aborted } s)
              (modQp q (fun p => { p with posted := [], scons := p.sprod }) s))
          | _ => .next s

/-- A receive queue doorbell (R270, R284). -/
def execRdmaRqDoorbell (fn val : Nat) (bus : Bus) (s : State) : Out :=
  let s := idleExit s
  match dbParts val 1 with
  | none => .next (dbRefuse s)
  | some (q, index) =>
    match qpOf s q with
    | none => .next (dbRefuse s)
    | some p =>
      match p.rring with
      | none => .next (dbRefuse s)
      | some ring =>
        if p.fn ≠ fn ∨ p.state = .reset then .next (dbRefuse s)
        else
          match indexStep p.rprod p.rcons p.rk index with
          | none => .next (dbRefuse s)
          | some n =>
            let (l, s) := ringEntries bus ring p.rk p.rprod n s
            let s := modQp q (fun p => { p with rprod := p.rprod + n, rposted := p.rposted ++ l }) s
            if p.state = .error then
              .next (l.foldl (fun s e => wcOut p.recvCq q { wrId := entryWrId e, op := 0, status := .aborted, recv := true } s)
                (modQp q (fun p => { p with rposted := [], rcons := p.rprod }) s))
            else .next s

/-- An SRQ doorbell (R270). -/
def execRdmaSrqDoorbell (fn val : Nat) (bus : Bus) (s : State) : Out :=
  let s := idleExit s
  match dbParts val 2 with
  | none => .next (dbRefuse s)
  | some (n, index) =>
    match s.rdm.srqs.get n with
    | none => .next (dbRefuse s)
    | some x =>
      if x.fn ≠ fn then .next (dbRefuse s)
      else
        match indexStep x.prod x.cons x.k index with
        | none => .next (dbRefuse s)
        | some m =>
          let (l, s) := ringEntries bus x.ring x.k x.prod m s
          .next (s.modRdm fun r => { r with srqs := r.srqs.set n { x with prod := x.prod + m, posted := x.posted ++ l } })

/-- A CQ doorbell: entries released, and ARM (R270); an event queue with room tells what it dropped at its next event. -/
def execRdmaCqDoorbell (fn val : Nat) (s : State) : Out :=
  let s := idleExit s
  match dbParts val 3 with
  | none => .next (dbRefuse s)
  | some (n, index) =>
    match s.rdm.cqs.get n with
    | none => .next (dbRefuse s)
    | some q =>
      let step := (index + 65536 - q.cons % 65536) % 65536
      if q.fn ≠ fn ∨ q.prod - q.cons < step then .next (dbRefuse s)
      else .next (modRcq n (fun q => { q with cons := q.cons + step, armed := q.armed || bit val 32 }) s)

/-! ### Work requests (R271, R272, R286) -/

/-- The byte offset of the first reserved field of a send entry that is not 0 (R271). -/
def entryBad (e : List Byte) : Option Nat :=
  if 5 < num e 0 1 ∨ num e 0 1 = 0 then some 0
  else if 16 ≤ num e 1 1 then some 1
  else if num e 2 2 ≠ 0 then some 2
  else if 2 ^ 30 < num e 24 4 then some 24
  else if num e 28 4 ≠ 0 then some 28
  else if num e 44 20 ≠ 0 then some 44
  else none

/-- The next send entry of a QP fetched and sent, when it is of one of some OPs (R271, R272, R279, R286). Poison in its buffer
goes with the lines it writes into a bin (R306); any other entry that meets it completes POISONED and is not sent (R191; log
entry 110). -/
def wrRow (mine : Nat → Bool) (q : Nat) (bus : Bus) (s : State) : Out :=
  match qpOf s q with
  | none => .next s
  | some p =>
    match p.posted with
    | [] => .next s
    | (rung, e) :: _ =>
      let op := num e 0 1
      if mine op = false ∨ p.state ≠ .rts ∨ 256 ≤ p.sent.length ∨ p.rnrAt.isSome then .next s
      else
        match entryBad e with
        | some off => .next (entryFail q e .invalidField off s)
        | none =>
          let flags := num e 1 1
          let len := num e 24 4
          let remote := num e 32 8
          let va := num e 16 8
          if p.mode = 1 ∧ 3 ≤ op ∧ handleGranary remote ≠ p.member ∧ s.grn.failover.get (handleGranary remote) ≠ some p.member then
            .next (entryFail q e .invalidField 32 s)
          else if p.mode = 1 ∧ 3 ≤ op ∧ 2 ^ 30 ≤ num e 40 4 then .next (entryFail q e .invalidField 40 s)
          else if quarantined s p.member then .next (entryFail q e .peerQuarantined p.member s)
          else if (op = 5 ∧ p.maxRd ≤ p.reads) ∨ (bit flags 1 ∧ 0 < p.reads) then .next s
          else
            match (if len = 0 then .ok { asid := p.asid, va, len := 0, segs := [] } else translate s { write := decide (op = 5) } p.asid va len) with
            | .error f => .next (entryFail q e .xlateFault f.result2 (noteFault f s))
            | .ok h =>
              let s := noteWalks h s
              let (data, s) := if op = 5 then ([], useRuns h.segs s) else readRuns bus h.segs s
              let w : Wr := { op, flags, imm := num e 4 4, wrId := entryWrId e, len, remote, key := num e 40 4, held := h, num := p.num,
                              psn := p.sqPsn, npsn := 0, rung, data }
              let w := { w with npsn := w.psns p }
              let took (p : Qp) : Qp := { p with posted := p.posted.drop 1, scons := p.scons + 1 }
              match if p.mode = 0 ∨ op < 3 then firstPoisoned data else none with
              | some k => .next (wrDone q p w .poisoned k 0 (modQp q took s))
              | none =>
                let s := modQp q
                  (fun p => { took p with sent := p.sent ++ [w], num := p.num + 1, sqPsn := psnAdd p.sqPsn w.npsn,
                                          ackAt := some (p.ackAt.getD s.core.t) }) s
                .next ((w.packets p).foldl (fun s k => sendPacket q k s) s)

/-- A SEND entry, and an entry whose OP is undefined (R271). -/
def execWrSend (q : Nat) (bus : Bus) (s : State) : Out := wrRow (fun o => decide (o = 1 ∨ o = 0 ∨ 5 < o)) q bus s
/-- A SEND_IMM entry. -/
def execWrSendImm (q : Nat) (bus : Bus) (s : State) : Out := wrRow (fun o => decide (o = 2)) q bus s
/-- A WRITE entry. -/
def execWrWrite (q : Nat) (bus : Bus) (s : State) : Out := wrRow (fun o => decide (o = 3)) q bus s
/-- A WRITE_IMM entry. -/
def execWrWriteImm (q : Nat) (bus : Bus) (s : State) : Out := wrRow (fun o => decide (o = 4)) q bus s
/-- A READ entry. -/
def execWrRead (q : Nat) (bus : Bus) (s : State) : Out := wrRow (fun o => decide (o = 5)) q bus s

/-- The next receive entry of a QP, or of an SRQ, is fetched (R272). -/
def execWrRecv (srq : Bool) (n : Nat) (s : State) : Out := .next (fetchRecv srq n s)

/-! ### What arrives (R241, R276, R278, R286) -/

/-- A RoCEv2 packet or SEND message arrives on an Ethernet port, or a SEND on a Flume port (R241, R243, R276). -/
def execRocePacketReceive (r : RoceIn) (s : State) : Out :=
  let s := idleExit s
  let drop (s : State) : State := modPort r.port (fun p => { p with drops := sat 0xFFFFFFFF (p.drops + 1) }) s
  let eth := decide ((port s r.port).mode = .ethernet)
  if (port s r.port).state ≠ .up then .next s
  else if eth && !r.icrc then .next (drop <| s.modRdm fun d => { d with icrcErr := sat 0xFFFFFFFF (d.icrcErr + 1) })
  else if eth && !r.rc then .next (drop s)
  else
    match qpOf s r.qpn with
    | none => .next (drop s)
    | some p =>
      if p.receives = false ∨ portServes s p r.port = false then .next (drop s)
      else if e2eBad s r.port r.icrc then .next (e2eDrop r.port r.qpn r.psn false false s)
      else
        let every := us (feature s 0x53 0 50)
        let s :=
          if r.ce && (match p.cnpAt with | some t => passed s t every | none => true) then
            modQp r.qpn (fun p => { p with cnpAt := some s.core.t }) (sendPacket r.qpn .cnp s)
          else s
        if !r.known then .next (nakQp r.qpn r.psn 1 s)
        else
          match r.send with
          | none => .next s
          | some data =>
            let first := psnAdd r.psn (2 ^ 24 + 1 - r.npsn)
            if first = p.rqPsn then .next (deliverSend r.qpn r.psn (psnAdd r.psn 1) data r.imm s)
            else if psnLe p.rqPsn first then .next (nakQp r.qpn p.rqPsn 0 s)
            else .next (answerQp r.qpn (.ack r.psn) none s)

/-- How many packets of a request to a range, from its first, find their pages mapped and allowed (R278). -/
def packetsMapped (s : State) (write : Bool) (asid va n : Nat) : Nat :=
  ((List.range (packetsOf n)).takeWhile fun i =>
    match translate s { write } asid (va + 4096 * i) (min 4096 (n - 4096 * i)) with
    | .ok _ => true
    | .error _ => false).length

/-- A packet of a request to a range meets a page that is not mapped or not allowed: the remote access error NAK at its PSN
(R278), after the packets before it were served. -/
def keyFault (q psn k : Nat) (write : Bool) (asid va n : Nat) (s : State) : State :=
  let s := match translate s { write } asid (va + 4096 * k) (min 4096 (n - 4096 * k)) with
    | .error f => noteFault f s
    | .ok _ => s
  nakQp q (psnAdd psn k) 2 (modQp q (fun p => { p with rqPsn := psnAdd psn k }) s)

/-- The first n bytes of a key's range as they stand translated. -/
def keyRange (s : State) (write : Bool) (asid va n : Nat) : Held :=
  match translate s { write } asid va n with
  | .ok h => h
  | .error _ => { asid, va, len := 0, segs := [] }

/-- A READ of a key's range answered: the responses before a poisoned line are sent, then the status NAK that names it
(R191, R278; log entry 110). -/
def keyRead (q psn next : Nat) (bus : Bus) (h : Held) (s : State) : State :=
  let (d, s) := readRuns bus h.segs s
  let send (l : List PByte) (to_ : Option Nat) (s : State) : State :=
    answerQp q (.response (psnAdd psn (packetsOf l.length - 1)) (l.map (·.1))) to_ s
  match firstPoisoned d with
  | none => send d (some next) s
  | some k =>
    let sent := k * 64 / 4096
    statusNakQp q (psnAdd psn sent) next 0x14 k (if sent = 0 then s else send (d.take (4096 * sent)) none s)

/-- An inbound key-mode READ or WRITE: checked against its key at its first packet, and each packet translated as it arrives
(R278, R279). -/
def execInboundKeyRequest (via : Via) (psn : Nat) (write : Bool) (va key len : Nat) (data : List Byte) (imm : Option Nat) (bus : Bus)
    (s : State) : Out :=
  let s := idleExit s
  let q := via.q
  match qpOf s q with
  | none => .next s
  | some p =>
    let n := if write then data.length else len
    let last := psnAdd psn (packetsOf n - 1)
    let next := psnAdd psn (packetsOf n)
    if p.receives = false ∨ p.mode ≠ 0 ∨ portServes s p via.port = false then .next s
    else if e2eBad s via.port via.check then .next (e2eDrop via.port q psn false false s)
    else if psn ≠ p.rqPsn then
      .next (if psnLe p.rqPsn psn then nakQp q p.rqPsn 0 s else if write then answerQp q (.ack last) none s else s)
    else
      match keyOk s write va key n with
      | none => .next (nakQp q psn 2 s)
      | some k =>
        let got := packetsMapped s write k.asid va n
        let whole := decide (got = packetsOf n)
        let m := min n (4096 * got)
        let h := keyRange s write k.asid va m
        let s := noteWalks h s
        if write then
          let s := writeHeld h ((data.take m).map fun b => (b, false)) s
          if whole = false then .next (keyFault q psn got write k.asid va n s)
          else
            match imm with
            | none => .next (answerQp q (.ack last) (some next) s)
            | some v =>
              match takeRecv q s with
              | (none, s) => .next (if (qpOf s q).any fun p => p.receives then answerQp q (.rnr psn p.minRnr) none s else s)
              | (some r, s) =>
                let s := answerQp q (.ack last) (some next) s
                .next (wcOut (recvCqOf s p) q { wrId := r.wrId, len := data.length, imm := some v, op := 0, status := .success, recv := true } s)
        else
          let s := noteServed q psn (packetsOf n) va s
          if whole then .next (keyRead q psn next bus h s)
          else .next (keyFault q psn got write k.asid va n (if got = 0 then s else keyRead q psn (psnAdd psn got) bus h s))

/-- Responses to the oldest READ up to a PSN land behind those before them; the last one completes it (R286). -/
def landResponse (q psn : Nat) (data : List Byte) (s : State) : State :=
  match (qpOf s q).bind fun p => p.sent.head?.map fun w => (p, w) with
  | none => s
  | some (p, w) =>
    let upTo := min w.len (4096 * (1 + (psn + 2 ^ 24 - w.psn) % 2 ^ 24))
    if w.op ≠ 5 ∨ w.landed + data.length ≠ upTo ∨ psnLe w.psn psn = false ∨ psnLe psn w.lastPsn = false then s
    else
      let part : Held := { w.held with segs := subSegs w.held.segs w.landed data.length, va := w.held.va + w.landed, len := data.length }
      let s := writeHeld part (data.map fun b => (b, false)) s
      if w.lastPsn ≠ psn then
        modQp q (fun p => { p with sent := { w with landed := upTo } :: p.sent.drop 1, retries := 0, ackAt := some s.core.t }) s
      else
        let r := p.sent.drop 1
        let s := modQp q (fun p => { p with sent := r, retries := 0, rnrs := 0, ackAt := if r = [] then none else some s.core.t }) s
        drainCheck q (samplePool q p w (wrDone q p w .success 0 w.len s))

/-- A sequence error NAK at the requester: the requests from its PSN on are sent again. On a Flume port, whose link loses
nothing, it tells a failed end-to-end check: an entry takes three such resends, and the next failure ends it with INTEGRITY
(R288; log entry 110). -/
def sequenceNak (q psn : Nat) (s : State) : State :=
  match (qpOf s q).bind fun p => p.sent.head?.map fun w => (p, w) with
  | none => s
  | some (p, w) =>
    if (port s p.port).mode = .flume ∧ w.op ≠ 5 then
      if 3 ≤ w.e2e then wrFail q w .integrity p.port s
      else resendFrom q psn (modQp q (fun p => { p with sent := { w with e2e := w.e2e + 1 } :: p.sent.drop 1 }) s)
    else resendFrom q psn s

/-- An ACK, a response or a standard NAK arrives at the requester (R286, and R288's first difference is FLIT_RECEIVE's). -/
def execAckReceive (via : Via) (psn : Nat) (a : Ack) (s : State) : Out :=
  let s := idleExit s
  let q := via.q
  match qpOf s q with
  | none => .next s
  | some p =>
    if (p.state ≠ .rts ∧ p.state ≠ .drain) ∨ portServes s p via.port = false then .next s
    else if e2eBad s via.port via.check then .next (e2eDrop via.port q psn true (match a with | .response _ => true | _ => false) s)
    else
      match a with
      | .ok => .next (drainCheck q (ackUpTo q psn p.sent.length s))
      | .response data => .next (landResponse q psn data (ackUpTo q (psnAdd psn (2 ^ 24 - 1)) p.sent.length s))
      | .rnr timer =>
        let s := ackUpTo q (psnAdd psn (2 ^ 24 - 1)) p.sent.length s
        match (qpOf s q).bind fun p => p.sent.head? with
        | none => .next s
        | some w =>
          if p.rnrRetry ≠ 7 ∧ p.rnrRetry ≤ p.rnrs then .next (wrFail q w .timeout 2 s)
          else .next (modQp q (fun p => { p with rnrs := p.rnrs + 1, rnrAt := some (s.core.t + rnrNs timer), rnrSet := s.core.t, ackAt := none }) s)
      | .nak code =>
        let s := ackUpTo q (psnAdd psn (2 ^ 24 - 1)) p.sent.length s
        if code = 0 then .next (sequenceNak q psn s)
        else
          match (qpOf s q).bind fun p => p.sent.head? with
          | none => .next s
          | some w => .next (wrFail q w .notPermitted code s)

/-- The status a NAK code names (R280). -/
def nakStatus : Nat → Option Status
  | 0x10 => some .staleHandle
  | 0x11 => some .leaseExpired
  | 0x12 => some .binDisturbed
  | 0x13 => some .sleepInProgress
  | 0x14 => some .poisoned
  | 0x15 => some .invalidField
  | _ => none

/-- A status NAK arrives (R280): it completes its entry alone, and a key-mode QP goes to ERROR. -/
def execStatusNakReceive (via : Via) (psn code detail : Nat) (s : State) : Out :=
  let s := idleExit s
  let q := via.q
  match qpOf s q, nakStatus code with
  | some p, some st =>
    if (p.state ≠ .rts ∧ p.state ≠ .drain) ∨ portServes s p via.port = false then .next s
    else if e2eBad s via.port via.check then .next (e2eDrop via.port q psn true false s)
    else
      let s := s.modRdm fun r => { r with naksRecv := sat 0xFFFF (r.naksRecv + 1) }
      let s := ackUpTo q (psnAdd psn (2 ^ 24 - 1)) p.sent.length s
      match qpOf s q with
      | none => .next s
      | some p =>
        match p.sent with
        | [] => .next s
        | w :: r =>
          if psnLe w.psn psn && psnLe psn w.lastPsn then
            if p.mode = 0 then .next (wrFail q w .notPermitted code s)
            else
              let s := modQp q (fun p => { p with sent := r, retries := 0, rnrs := 0, ackAt := if r = [] then none else some s.core.t }) s
              let s := if p.mode = 1 then correctRecords w.remote p.member st detail s else s
              .next (drainCheck q (wrDone q p w st (if code = 0x15 then 0xFFFFFFFF else detail) 0 s))
          else .next s
  | _, _ => .next s

/-- The local ACK timeout (R242, R286): the requests are sent again, or the retry count is used up. -/
def execLocalAckTimeout (q : Nat) (s : State) : Out :=
  match qpOf s q with
  | none => .next s
  | some p =>
    match p.ackAt, p.sent with
    | some t, w :: _ =>
      if (p.state = .rts ∨ p.state = .drain) ∧ p.rnrAt = none ∧ passed s t (4096 * 2 ^ p.timeout) ∧ qpFrozen s p = false then
        if p.retryCnt ≤ p.retries then .next (wrFail q w .timeout 1 s)
        else .next (resendFrom q w.psn (modQp q (fun p => { p with retries := p.retries + 1 }) s))
      else .next s
    | _, _ => .next s

/-- The RNR timer ends: the request is sent again (R286). -/
def execRnrTimerExpiry (q : Nat) (s : State) : Out :=
  match qpOf s q with
  | none => .next s
  | some p =>
    match p.rnrAt, p.sent with
    | some t, w :: _ =>
      if t ≤ s.core.t ∧ qpFrozen s p = false then .next (resendFrom q w.psn (modQp q (fun p => { p with rnrAt := none }) s))
      else .next s
    | _, _ => .next s

end Sys2Proof.Machine
end

