-- ==== Sys2Proof/Machine/ReadView.lean ====
section
/-! DEFINITION. What a read of a register gives (00 R20, R21, and the register tables of the chapters): one function for each
block, from the offset in the block. Reserved bits and offsets without a register read 0 (R21; log entry 117). -/

namespace Sys2Proof.Machine

/-- The low and the high half of a 64-bit value. -/
def lo32 (v : Nat) : Nat := v % 2 ^ 32
/-- The high half. -/
def hi32 (v : Nat) : Nat := v / 2 ^ 32 % 2 ^ 32

/-- The half of a 64-bit register at an offset, its _LO register standing at `base`. -/
def halfAt (base off v : Nat) : Nat := if off = base then lo32 v else hi32 v

/-- A number of each of n things, w bits apart, lowest first. -/
def packed (n w : Nat) (f : Nat → Nat) : Nat := ((List.range n).map fun i => f i * 2 ^ (w * i)).foldl (· + ·) 0

/-- The mask of the numbers below n that satisfy a condition. -/
def maskWhere (n : Nat) (p : Nat → Bool) : Nat := packed n 1 fun i => flag (p i)

/-- Entries of a table that satisfy a condition, counted. -/
def countWhere {α : Type} (t : Tbl α) (p : α → Bool) : Nat := (t.filter fun e => p e.2).length

/-! ### The function window and HIF_ (R56, R83) -/

/-- STATE and ERR of the queue HIF_QSEL names. -/
def readQstat (s : State) (fn qsel : Nat) : Nat :=
  match globalQ s fn (qsel % 256) with
  | none => 0
  | some q =>
    if bit qsel 8 then let c := s.hif.cqs.getD q {}; c.state.code + c.err * 2 ^ 8
    else let x := s.hif.sqs.getD q {}; x.state.code + x.err * 2 ^ 8

/-- A window register of a function. -/
def readWin (s : State) (fn off : Nat) : Nat :=
  let w := s.hif.wins.getD fn {}
  match off with
  | 0x00 => 0x2560 + 0xB0 * 2 ^ 16
  | 0x04 => fn + flag (decide (fn ≠ 0)) * 2 ^ 4
  | 0x08 => flag s.hif.accept + s.core.roleStat.code * 2 + flag s.core.fill * 2 ^ 3
  | 0x20 => w.qsel
  | 0x24 => w.qcfg0
  | 0x28 => w.qcfg1
  | 0x30 | 0x34 => halfAt 0x30 off w.qbase
  | 0x38 | 0x3C => halfAt 0x38 off w.qenv
  | 0x44 => readQstat s fn w.qsel
  | 0x48 => let t := s.hif.retained.getD fn {}; t.recs.length + t.dropped * 2 ^ 16
  | 0x50 => w.err
  | 0x54 => w.errQid
  | _ => 0

/-- HIF_VF_QRANGE_n. -/
def readRange (s : State) (n : Nat) : Nat := let r := s.hif.ranges.getD n {}; r.base + r.count * 2 ^ 8

/-! ### WHL_ (R120, R150) -/

/-- The race view. -/
def readRace (s : State) (rid : Nat) (r : Race) (off : Nat) : Nat :=
  let now := s.core.time
  match off with
  | 0x14 =>
    1 + r.tstate.code * 2 + flag r.real.isSome * 2 ^ 3 + flag (baseOf r |>.any fun b => b.2.2) * 2 ^ 4 + flag r.playoutLocal * 2 ^ 5 +
      flag r.final * 2 ^ 6 + flag r.voiced * 2 ^ 7 + r.hrate * 2 ^ 8 + r.trate * 2 ^ 10 + r.fn * 2 ^ 12 +
      cogMask s rid (fun g => g.armed) * 2 ^ 16
  | 0x18 | 0x1C => halfAt 0x18 off r.h
  | 0x20 | 0x24 => halfAt 0x20 off r.w
  | 0x28 | 0x2C => halfAt 0x28 off (playPos r now)
  | 0x30 => sat 0xFFFFFFFF (slackOf r now)
  | 0x38 | 0x3C => halfAt 0x38 off r.anchor
  | 0x40 | 0x44 => halfAt 0x40 off r.v
  | 0x48 => r.repRej % 2 ^ 16 + r.repReason * 2 ^ 16
  | _ => 0

/-- The cog view; a slot without a cog reads 0. -/
def readCog (g : Cog) (off : Nat) : Nat :=
  match off with
  | 0x54 => g.cfg % 2 ^ 20 + flag g.armed * 2 ^ 20 + flag g.tripped * 2 ^ 21
  | 0x58 | 0x5C => halfAt 0x58 off g.thr
  | 0x60 | 0x64 => halfAt 0x60 off g.rec_.time
  | 0x68 => g.trips
  | _ => 0

/-- The turn view; a FREE turn reads 0. -/
def readTurn (s : State) (off : Nat) : Nat :=
  let x := turnOf s s.trn.tsel
  if x.state = .free then 0
  else if off = 0x114 then
    x.state.code + x.race * 2 ^ 4 + packed 4 3 (fun k => (x.sail k).state.code) * 2 ^ 16 + maskWhere 4 (fun k => (x.sail k).stall.isSome) * 2 ^ 28
  else
    let v := x.sail ((off - 0x120) / 4)
    heldSmp v.audio + ceilDiv (heldBytes v.writes) 1024 * 2 ^ 17

/-- Sails in a state, of every turn. -/
def sailsIn (s : State) (st : SailState) : Nat := (s.trn.turns.map fun t => (t.2.sailsIn st).length).foldl (· + ·) 0

/-- Floors of the items that stand on stones. -/
def busyFloors (s : State) : Nat := maskWhere 16 fun f => s.trn.items.any fun i => i.2.holds.contains f

/-- WHL_. -/
def readWhl (s : State) (off : Nat) : Nat :=
  let w := s.whl
  if 0x14 ≤ off ∧ off < 0x50 then
    match raceOf s w.rsel with
    | some r => readRace s w.rsel r off
    | none => 0
  else if 0x54 ≤ off ∧ off < 0x100 then
    match raceOf s w.rsel, w.cogs.get (w.rsel * 16 + w.csel) with
    | some _, some g => readCog g off
    | _, _ => 0
  else
    match off with
    | 0x00 => w.races.length + sat 0xFFFF (countWhere w.cogs fun g => g.armed) * 2 ^ 16
    | 0x04 => w.lateEvals
    | 0x10 => w.rsel
    | 0x50 => w.csel
    | 0x100 => countWhere s.trn.turns (fun t => decide (t.state ≠ .free)) + sailsIn s .raised * 2 ^ 8 + sailsIn s .set * 2 ^ 17
    | 0x104 =>
      busyFloors s + (match s.trn.reserved with | some (_, b, n) => maskWhere 16 fun f => decide (b ≤ f ∧ f < b + n) | none => 0) * 2 ^ 16
    | 0x108 => s.trn.preempts
    | 0x110 => s.trn.tsel
    | 0x114 | 0x120 | 0x124 | 0x128 | 0x12C => readTurn s off
    | _ => 0

/-! ### STN_ (R186) -/

/-- STN_. -/
def readStn (s : State) (off : Nat) : Nat :=
  let x := s.stn
  if 0x10 ≤ off ∧ off < 0x30 then maskWhere 32 fun i => decide ((stoneOf s (8 * (off - 0x10) + i)).state ≠ .inService)
  else
    match off with
    | 0x00 => stonesInService s + (256 - stonesInService s) * 2 ^ 16
    | 0x30 => x.floorFence
    | 0x40 => x.sel
    | 0x44 =>
      let st := stoneOf s x.sel
      let code := match st.state with | .inService => 0 | .fencing => 1 | .fenced => 2 | .testing => 3
      code + flag st.bistFail * 2 ^ 2 + (match itemOn s x.sel with | some i => i.2.image * 2 ^ 8 + 2 ^ 18 | none => 0)
    | 0x50 => x.faultLast
    | 0x54 => x.faultCount
    | 0x58 => x.faultCtx
    | _ => 0

/-! ### MEM_ and MEM_OCP_ (R212, R235) -/

/-- STATE of a pair. -/
def PairState.code : PairState → Nat
  | .absent => 0
  | .up => 1
  | .down => 2
  | .fill => 3

/-- MEM_DDR_PAIR_n. -/
def Pair.view (q : Pair) : Nat := q.state.code + q.dpc * 2 ^ 2 + q.gib * 2 ^ 4 + q.reason * 2 ^ 8 + q.ce * 2 ^ 16

/-- Free arena pool in bytes; extents being filled are in use. -/
def arenaFree (s : State) : Nat := if isMill s then mib s.mem.sizes.arena - (s.mem.arenas.map fun a => a.2.len).foldl (· + ·) 0 else 0

/-- MEM_. -/
def readMemReg (s : State) (off : Nat) : Nat :=
  let m := s.mem
  let up := maskWhere 8 fun p => decide ((pairOf s p).state = .up)
  if 0x80 ≤ off ∧ off < 0xA0 then (pairOf s ((off - 0x80) / 4)).view
  else if 0xD0 ≤ off ∧ off < 0xF8 then halfAt 0 (off % 8) (m.probeE.getD ((off - 0xD0) / 8) 0)
  else
    match off with
    | 0x00 =>
      flag (decide (up ≠ 0)) + (if layoutPairs s = [] then 0 else if m.slow then 1 else 2) * 2 + up * 2 ^ 8 + m.spaces.length * 2 ^ 16
    | 0x08 | 0x0C => halfAt 0x08 off (hbmLimit s)
    | 0x10 | 0x14 => halfAt 0x10 off (ptsBase s)
    | 0x18 | 0x1C => if isGranary s then 0 else halfAt 0x18 off (gateBase s)
    | 0x20 | 0x24 => halfAt 0x20 off (saveBase s)
    | 0x28 | 0x2C => halfAt 0x28 off (imgBase s)
    | 0x30 | 0x34 => if isGranary s then 0 else halfAt 0x30 off (arenaBase s)
    | 0x38 => arenaFree s / 2 ^ 20
    | 0x3C => (mib m.sizes.pt - ptsUsed s) / 2 ^ 10
    | 0xA0 => m.walks
    | 0xA4 => m.xfaults
    | 0xC0 => m.probeAsid
    | 0xC4 | 0xC8 => halfAt 0xC4 off m.probeVa
    | 0xCC => m.probeStatus
    | _ => 0

/-- MEM_OCP_ and the last DRAM error. -/
def readOcp (s : State) (off : Nat) : Nat :=
  let o := s.ocp
  let i := o.sel % 2 ^ 9
  let g := ocpGroup s i (o.sel / 2 ^ 16)
  match off with
  | 0x100 => o.sel
  | 0x104 => (ocpInst s i).ce + (ocpInst s i).ue * 2 ^ 16
  | 0x108 => (ocpInst s i).lap
  | 0x10C => g.spares + flag g.degraded * 2 ^ 6 + g.reason * 2 ^ 7 + g.cand.length * 2 ^ 9
  | 0x110 => o.last
  | 0x114 => o.lastWord
  | 0x118 => o.alarm
  | 0x120 => o.inject
  | 0x124 => o.injWord
  | 0x128 | 0x12C => halfAt 0x128 off o.injMask
  | 0x134 => o.remapLoad
  | 0x138 => o.remapInst
  | 0x140 => s.mem.errLast
  | 0x144 | 0x148 => halfAt 0x144 off s.mem.errAddr
  | _ => 0

/-! ### PRT_ and FLM_ (R266) -/

/-- PRT_ and FLM_ of a port. -/
def readPort (s : State) (p off : Nat) : Nat :=
  let q := port s p
  let f := q.flm
  match off with
  | 0x00 => q.mode.code + q.stateCode * 2 ^ 2 + flag q.retry * 2 ^ 5 + boundQps s p * 2 ^ 16
  | 0x04 => q.laneCfg
  | 0x08 => lo32 (Config.macBase + p)
  | 0x0C => hi32 (Config.macBase + p) % 2 ^ 16
  | 0x10 => q.ethCfg
  | 0x14 => q.fecCorr
  | 0x18 => q.fecUnc
  | 0x1C => q.drops
  | 0x20 => q.tsAsym
  | 0x24 => q.downCause + q.downSeq * 2 ^ 4 + q.downCount * 2 ^ 16
  | 0x800 => packed 4 8 fun i => f.alloc.getD i 0
  | 0x804 => f.peer + f.peerRole * 2 ^ 8 + f.peerVer * 2 ^ 10 + flag f.valid * 2 ^ 14
  | 0x808 => f.loop
  | 0x810 | 0x814 | 0x818 | 0x81C =>
    let t := f.tx.getD ((off - 0x810) / 4) {}
    t.avail + t.advert * 2 ^ 16
  | 0x820 => f.bad
  | 0x824 => f.replays
  | 0x828 => f.retryMax
  | 0x82C => f.heldMax
  | 0x830 => f.err
  | _ => 0

/-! ### RDM_ (R291) -/

/-- STATE of a QP: DRAINED is DRAIN entered by command with nothing sent left (R284). -/
def Qp.stateCode (p : Qp) : Nat :=
  match p.state with
  | .reset => 0
  | .init => 1
  | .rtr => 2
  | .rts => 3
  | .drain => if p.move.isNone ∧ p.sent = [] then 6 else 4
  | .error => 5

/-- The queue pair view. -/
def readQp (p : Qp) (off : Nat) : Nat :=
  match off with
  | 0x14 => p.stateCode + p.port * 2 ^ 3 + p.mode * 2 ^ 6 + p.member * 2 ^ 8 + p.fn * 2 ^ 16 + p.last * 2 ^ 20
  | 0x18 => p.sqPsn
  | 0x1C => p.rqPsn
  | 0x20 => p.sent.length + p.reads * 2 ^ 16
  | _ => 0

/-- RDM_. -/
def readRdm (s : State) (off : Nat) : Nat :=
  let r := s.rdm
  match off with
  | 0x00 => r.qps.length
  | 0x04 => r.cqs.length
  | 0x08 => r.srqs.length
  | 0x0C => r.keys.length
  | 0x10 => r.qsel
  | 0x14 | 0x18 | 0x1C | 0x20 =>
    (match qpOf s r.qsel with | some p => readQp p off | none => if off = 0x14 then 7 else 0)
  | 0x30 => r.e2eErr
  | 0x34 => r.e2eLast
  | 0x38 => r.icrcErr
  | 0x3C => sat 0xFFFF r.naksSent + sat 0xFFFF r.naksRecv * 2 ^ 16
  | 0x40 => r.eqDrops
  | 0x44 => r.dbRefused
  | _ => 0

/-! ### GRN_ (R295, R322) -/

/-- A map slot as the directory holds it: member, flags and expiry. -/
def BinMap.bytes (m : BinMap) : List Byte := leBytes 1 m.member ++ leBytes 1 (flag (!m.closing) + 2 * flag m.write) ++ leBytes 2 0 ++ leBytes 8 m.expiry

/-- The 128 bytes of a directory entry (R295). -/
def Bin.entry (b : Bin) : List Byte :=
  let l := leBytes 1 b.state.code ++ leBytes 1 b.size ++ leBytes 1 b.carve ++ leBytes 1 b.pair ++ leBytes 2 b.gen ++ leBytes 1 b.owner ++
    leBytes 1 (b.role.code + b.mstate.code * 4 + flag b.partner.isSome * 16) ++ leBytes 8 b.base ++ leBytes 1 b.home ++
    leBytes 1 (b.partner.getD 0) ++ leBytes 2 0 ++ leBytes 4 b.pindex ++ leBytes 8 0 ++ b.maps.flatMap BinMap.bytes
  l ++ leBytes (128 - l.length) 0

/-- A map is live: it admits operations (R302). -/
def BinMap.live (now : Nat) (m : BinMap) : Bool := !m.closing && decide (now < m.expiry)

/-- Registers of a granary only. -/
def readGrnOnly (s : State) (off : Nat) : Nat :=
  let g := s.grn
  match off with
  | 0x00 =>
    flag g.ready + flag (mirrorPartner s).isSome * 2 + maskWhere 8 (fun p => (servingPairs s).contains p) * 2 ^ 8 +
      (match s.hif.feats.get (0x61 * 2 ^ 32) with | some v => v % 2 ^ 9 | none => 0) * 2 ^ 16
  | 0x04 => countWhere g.dir fun b => decide (b.state ≠ .free)
  | 0x08 => ((servingPairs s).map (pairFree s)).foldl (· + ·) 0 / 2 ^ 21
  | 0x0C => (g.dir.map fun e => (e.2.maps.filter (BinMap.live s.core.time)).length).foldl (· + ·) 0
  | 0x10 => g.csel
  | 0x14 => (match g.carves.get g.csel with | some v => carveUse s g.csel + 2 ^ 23 + v.maxLease * 2 ^ 24 | none => 0)
  | 0x18 => (match g.carves.get g.csel with | some v => v.quota | none => 0)
  | 0x20 => g.dsel
  | 0x24 => num (g.dir.getD g.dsel {}).entry 0 4
  | 0x28 => num (g.dir.getD g.dsel {}).entry 4 4
  | 0x30 => g.hotHit
  | 0x34 => g.hotMiss
  | 0x38 => g.lapses
  | 0x3C => g.resilvers.length
  | 0x80 | 0x84 => halfAt 0x80 off g.nmwBase
  | 0x88 => g.nmwCfg
  | 0x90 | 0x94 => halfAt 0x90 off g.nmwCbase
  | 0x98 => g.nmwTail % 2 ^ 16
  | 0x9C => g.nmwHead % 2 ^ 16
  | 0xA0 => g.nmwChead
  | 0x504 => windowStore - windowUsed s
  | _ => 0

/-- GRN_: in mill role every other register reads 0. -/
def readGrn (s : State) (off : Nat) : Nat :=
  if 0x100 ≤ off ∧ off < 0x500 then (match s.grn.failover.get ((off - 0x100) / 4) with | some m => m + 2 ^ 8 | none => 0)
  else if off = 0x500 then s.grn.recs.length
  else if isGranary s then readGrnOnly s off
  else 0

/-! ### TLY_ and CHK_ (R339, R355) -/

/-- MAPS_IN and MAPS_OUT of a channel. -/
def Counts.maps (c : Counts) : Nat := c.mapsIn % 2 ^ 16 + c.mapsOut % 2 ^ 16 * 2 ^ 16

/-- TLY_. -/
def readTly (s : State) (off : Nat) : Nat :=
  let y := s.tly
  let r := tallyOf s y.sel
  match off with
  | 0x00 => countWhere y.recs fun r => decide (r.state = .disturbed)
  | 0x04 => countWhere y.recs fun r => decide (r.state = .sweepPending ∨ r.state = .sweeping)
  | 0x08 => y.tokens.length
  | 0x0C => y.held
  | 0x10 => y.scan
  | 0x20 => y.sel
  | 0x24 =>
    r.state.code + flag r.swept * 2 ^ 3 + r.cause * 2 ^ 4 + r.epoch * 2 ^ 8 + r.prepAuth * 2 ^ 16 + r.prepMember * 2 ^ 18 +
      flag r.suspA * 2 ^ 26 + flag r.suspB * 2 ^ 27
  | 0x28 | 0x2C => halfAt 0x28 off r.a.opsIn
  | 0x30 | 0x34 => halfAt 0x30 off r.a.opsOut
  | 0x38 | 0x3C => halfAt 0x38 off r.b.opsIn
  | 0x40 | 0x44 => halfAt 0x40 off r.b.opsOut
  | 0x48 => r.a.maps
  | 0x4C => r.b.maps
  | 0x50 => sat 0xFFFF (windowLeft s r)
  | 0x60 => y.last
  | 0x64 | 0x68 => halfAt 0x64 off y.lastTime
  | _ => 0

/-- CHK_. -/
def readChk (s : State) (off : Nat) : Nat :=
  let e := engineOf s s.chk.sel
  match off with
  | 0x00 => maskWhere 16 (fun n => (engineOf s n).owner.isSome) + maskWhere 16 (fun n => (engineOf s n).run.isSome) * 2 ^ 16
  | 0x04 => s.chk.irq
  | 0x10 => s.chk.sel
  | 0x14 =>
    e.owner.getD 0 + flag e.owner.isSome * 2 ^ 4 + e.cfg.mode * 2 ^ 5 + e.cfg.fold * 2 ^ 8 + e.cfg.alive * 2 ^ 10 + flag e.seen.isSome * 2 ^ 12 +
      e.hostQ.length * 2 ^ 16 + sat 15 e.intQ.length * 2 ^ 21 + e.cause * 2 ^ 25
  | 0x18 | 0x1C => halfAt 0x18 off e.result
  | 0x20 => e.alive
  | 0x28 | 0x2C => halfAt 0x28 off e.seq
  | 0x30 => e.runs
  | 0x34 => e.fails
  | _ => 0

/-! ### DOM_ (R385) -/

/-- DOM_SLEEP: the state, the votes awaited and the seconds of quiet. -/
def domSleep (s : State) : Nat :=
  let v := s.dom.sleep
  v.state.code + v.awaited.length * 2 ^ 8 + sat 0xFFFF ((s.core.t - v.quietAt) / 1000000000) * 2 ^ 16

/-- DOM_. -/
def readDom (s : State) (off : Nat) : Nat :=
  let d := s.dom
  let p := peer s d.psel
  match off with
  | 0x00 => domStatus s
  | 0x04 => d.id
  | 0x08 | 0x0C => halfAt 0x08 off d.digest
  | 0x10 => d.inc
  | 0x18 | 0x1C => halfAt 0x18 off s.core.time
  | 0x20 => ofSigned 32 d.offset
  | 0x28 | 0x2C => halfAt 0x28 off d.seq
  | 0x30 => d.psel
  | 0x34 => p.state.code + p.reason * 2 ^ 3 + flag p.timeSuspect * 2 ^ 6 + p.flags * 2 ^ 8 + msSinceHb s p * 2 ^ 16
  | 0x38 => ofSigned 32 p.offset
  | 0x40 => domSleep s
  | 0x44 => d.drops
  | 0x48 => d.fwdTimeouts
  | 0x4C => d.sleepAborts
  | _ => 0

/-! ### PWR_ (R414) -/

/-- The reset cause shown, 0 the newest. -/
def causeShown (s : State) : Option CauseRec := s.core.causes.reverse[s.pwr.rcauseSel]?

/-- PWR_. -/
def readPwr (s : State) (off : Nat) : Nat :=
  let p := s.pwr
  match off with
  | 0x00 => pwrState s
  | 0x04 => packed 16 2 fun d => (levelOf s d).code
  | 0x08 => packed 14 2 fun d => (levelOf s (16 + d)).code
  | 0x10 => p.vsel
  | 0x14 => maskWhere 16 (fun f => (pdom s p.vsel).host.contains f) + otherVotes s p.vsel * 2 ^ 16
  | 0x18 => (match p.wakeTimer with | some e => sat 0xFFFFFFFF (ceilDiv (e - s.core.t) 1000000) | none => 0)
  | 0x1C => p.aoRet
  | 0x20 => pwrWakeSrc s
  | 0x24 | 0x28 => halfAt 0x24 off p.wakeTime
  | 0x2C => p.failCause + flag p.failEntered * 2 ^ 2 + p.failCount * 2 ^ 4
  | 0x40 => p.rcauseSel
  | 0x44 =>
    (match causeShown s with | some c => c.code + flag (!c.ticks) * 2 ^ 8 | none => 0) + s.core.causes.length * 2 ^ 16
  | 0x48 | 0x4C => halfAt 0x48 off ((causeShown s).map (·.time) |>.getD 0)
  | 0x60 => p.floorWakes
  | 0x64 => sat 0xFFFF p.stallMax + p.stallDom * 2 ^ 16
  | _ => 0

/-! ### MON_ (R492) -/

/-- The monitor view; a free monitor reads as one at its first-use values. -/
def readMonitor (m : Option Mon) (off : Nat) : Nat :=
  match off with
  | 0x08 => (match m with | some m => m.source + m.scale * 2 ^ 4 + 2 ^ 8 + flag m.clearOnSnap * 2 ^ 9 + m.fn * 2 ^ 16 | none => 0)
  | 0x10 | 0x14 => halfAt 0x10 off ((m.map (·.count)).getD 0)
  | 0x18 | 0x1C => halfAt 0x18 off ((m.map (·.min)).getD 0xFFFFFFFFFFFFFFFF)
  | 0x20 | 0x24 => halfAt 0x20 off ((m.map (·.max)).getD 0)
  | 0x28 => (m.map (·.dropped)).getD 0
  | _ => 0

/-- MON_. -/
def readMon (s : State) (off : Nat) : Nat :=
  let e := s.evt
  if 0x40 ≤ off ∧ off < 0x54 then e.sevCnt.getD ((off - 0x40) / 4) 0
  else if 0x84 ≤ off ∧ off < 0xC4 then (match e.elog[e.elogSel]? with | some r => num r.bytes (off - 0x84) 4 | none => 0)
  else
    match off with
    | 0x00 => e.mons.length + e.elogNext * 2 ^ 8
    | 0x04 => e.monSel
    | 0x60 => e.evtDrops
    | 0x64 => e.fatalLast
    | 0x80 => e.elogSel
    | _ => readMonitor (e.mons.get e.monSel) off

/-! ### MWR_ (R445) -/

/-- MWR_MBX_q: producer, consumer and overflow count. -/
def MailQ.view (q : MailQ) : Nat := q.prod + (q.prod + 64 - q.used % 64) % 64 * 2 ^ 8 + q.dropped * 2 ^ 16

/-- Bits [47:16] of an attempt time of a position, newest first. -/
def stwLog (s : State) (n k : Nat) : Nat := bits ((posOf s n).attempts.getD k 0) 47 16

/-- MWR_. -/
def readMwr (s : State) (off : Nat) : Nat :=
  let m := s.mwr
  if 0x80 ≤ off ∧ off < 0xA0 then stwDev s ((off - 0x80) / 4)
  else if 0xC0 ≤ off ∧ off < 0x140 then (if (off - 0xC0) % 16 < 12 then stwLog s ((off - 0xC0) / 16) ((off - 0xC0) % 16 / 4) else 0)
  else
    match off with
    | 0x00 => m.stateCode + flag m.steward * 2 ^ 3 + m.heartbeat % 2 ^ 24 * 2 ^ 8
    | 0x04 => m.primary + m.golden * 2 ^ 4 + m.slot * 2 ^ 8 + m.svn % 2 ^ 16 * 2 ^ 16
    | 0x08 => m.lockCount + m.lockClass * 2 ^ 16
    | 0x0C => bits m.fwVer 15 0 + bits m.fwVer 23 16 * 2 ^ 16 + bits m.fwVer 39 32 * 2 ^ 24
    | 0x10 => m.wdtMs + sat 0xFFFF m.wdtExpiries * 2 ^ 16
    | 0x18 => m.pwrmode
    | 0x1C => flag m.resetOnLoss
    | 0x20 => s.mail.ctlToMw.view
    | 0x24 => s.mail.mwToCtl.view
    | 0x28 => s.mail.datToMw.view
    | 0x2C => s.mail.mwToDat.view
    | 0x30 => maskWhere 16 fun n => s.mail.attach.has n
    | 0x34 => (match m.journal with | none => 0 | some j => if j.done.isSome then 2 else 1)
    | 0x38 => (match m.journal with | none => 0 | some j => j.id.tag + originCode j.id.origin * 2 ^ 16)
    | 0x40 => flag s.usb.enable + s.usb.dev * 2
    | _ => 0

/-! ### BRK_ (R473) -/

/-- BRK_LEAK. -/
def brkLeak (s : State) : Nat := packed 8 3 fun n => if s.brk.act.leakEn n then (leakOf s n).state.code else 4

/-- BRK_ILK: states and contacts. -/
def brkIlk (s : State) : Nat :=
  packed 4 3 (fun i => if s.brk.act.ilkEn i then (ilkOf s i).state.code else 5) + maskWhere 4 (fun i => (ilkOf s i).a) * 2 ^ 16 +
    maskWhere 4 (fun i => (ilkOf s i).b) * 2 ^ 20

/-- BRK_OUT: what drives the outputs, and the pins. -/
def brkOut (s : State) : Nat :=
  let d := !s.brk.set
  flag d + flag d * 2 + flag (d != bit s.brk.outPins 0) * 4 + flag (d != bit s.brk.outPins 1) * 8

/-- BRK_. -/
def readBrk (s : State) (off : Nat) : Nat :=
  let b := s.brk
  if 0x10 ≤ off ∧ off < 0x30 then (leakOf s ((off - 0x10) / 4)).level
  else
    match off with
    | 0x00 => brkStatus s
    | 0x04 => brkLeak s
    | 0x08 => brkIlk s
    | 0x0C => brkOut s
    | 0x30 => b.tripLast
    | 0x34 | 0x38 => halfAt 0x34 off (b.tripTime % 2 ^ 48)
    | 0x3C => sat 0xFFFF b.trips + sat 0xFFFF b.holds * 2 ^ 16
    | 0x40 => b.act.cfg0
    | 0x44 => b.act.cfg1
    | 0x48 => b.act.cfg2
    | 0x80 => b.pend.cfg0
    | 0x84 => b.pend.cfg1
    | 0x88 => b.pend.cfg2
    | 0x8C => b.refused
    | 0xC0 => b.valveCfg
    | 0xC4 => brkValve s
    | 0xD0 => brkSlot s
    | 0xD4 => (match s.mwr.self with | some n => n + 2 ^ 3 | none => 0)
    | _ => 0

/-! ### A read (R120, R212, R339, R385, R492) -/

/-- The blocks of the PF's BAR0. -/
def readBlock (s : State) (off : Nat) : Nat :=
  let low := off % 2 ^ 16
  match off / 2 ^ 16 with
  | 0x00 => if 0x104 ≤ low ∧ low < 0x140 then readRange s ((low - 0x100) / 4) else 0
  | 0x10 => readWhl s low
  | 0x20 => readStn s low
  | 0x30 => if low < 0x100 then readMemReg s low else readOcp s low
  | 0x40 => if low < 0x8000 then readPort s (low / 2 ^ 12) (low % 2 ^ 12) else 0
  | 0x50 => readRdm s low
  | 0x60 => readGrn s low
  | 0x68 => readTly s low
  | 0x70 => readChk s low
  | 0x78 => readDom s low
  | 0x80 => readPwr s low
  | 0x90 => readMon s low
  | 0xA0 => readMwr s low
  | 0xB0 => readBrk s low
  | _ => 0

/-- The registers that a read of a _LO register latches: its _HI partner, the slack with the predicted playout position, and MIN and
MAX with COUNT. -/
def latchedBy (off : Nat) : List Nat :=
  if off = 0x100028 then [0x10002C, 0x100030]
  else if off = 0x900010 then [0x900014, 0x900018, 0x90001C, 0x900020, 0x900024]
  else if [0x100018, 0x100020, 0x100038, 0x100040, 0x100058, 0x100060, 0x300008, 0x300010, 0x300018, 0x300020, 0x300028, 0x300030,
      0x300144, 0x680028, 0x680030, 0x680038, 0x680040, 0x680064, 0x780008, 0x780018, 0x780028].contains off ||
    (decide (0x3000D0 ≤ off ∧ off < 0x3000F8) && decide (off % 8 = 0)) then [off + 4]
  else []

/-- What the host reads at an offset through a function. -/
def hostView (s : State) (fn off : Nat) : Nat :=
  if off < 0x100 then readWin s fn off
  else if fn ≠ 0 then 0
  else (s.hif.latch.get off).getD (readBlock s off)

/-- A read by the host: the value, with what it latches. -/
def hostReadReg (fn off : Nat) (s : State) : Nat × State :=
  let l := if fn = 0 then latchedBy off else []
  (hostView s fn off,
    if l = [] then s else s.modHif fun h => { h with latch := l.foldl (fun t o => t.set o (readBlock s o)) h.latch })

/-- What the Millwright reads in its own view: its own registers and the brake's, the error log window (R487), and the remap
registers. -/
def mgtView (s : State) (off : Nat) : Nat :=
  if off / 2 ^ 16 = 0xA0 ∨ off / 2 ^ 16 = 0xB0 ∨ (0x900080 ≤ off ∧ off < 0x9000C4) ∨ off = 0x300134 ∨ off = 0x300138 then readBlock s off else 0

end Sys2Proof.Machine
end

