-- ==== Sys2Proof/Machine/Reset.lean ====
section
/-! DEFINITION. The five resets and the role-change fill (00 R5 to R7, 01 R35 to R44, 17 R491, 18 R508, R509). -/

namespace Sys2Proof.Machine

/-! ### Cold and warm -/

/-- VDD_AO_IN rises, with the DDR5 population and what training makes of it. -/
def execColdReset (pop : List PairPop) (s : State) : Out := .next (powerOn pop s)

/-- The fill ends: memory holds zeros, and the firmware writes the cleared-role record (R6). -/
def execRoleFillEnd (s : State) : Out :=
  onEvent (s.core.fill && s.hif.accept) s fun s =>
    let s := s.modMem fun m => { m with cells := [], bad := [] }
    let s := s.modCore fun c => { c with fill := false, roleStat := c.role }
    let s := if s.mwr.running && !flashReleased s then s.modStore fun t => { t with cleared := some ⟨s.core.role, true⟩ } else s
    s.modGrn fun g => { g with ready := isGranary s }

/-- The warm reset of PERST_N as the device state meets it: a device in DEEP_SLEEP or OFF wakes first. -/
def perstLow (s : State) : State :=
  let s := s.modPwr fun p => { p with perst := true, endpoint := false }
  match s.pwr.state with
  | .deepSleep | .off => if s.pwr.aoIn then (wake 0x03 s).modPwr fun p => { p with warmAfter := true } else s
  | .exiting => if s.pwr.cold then s else s.modPwr fun p => { p with warmAfter := true }
  | .wakeFailed => s
  | _ => warmReset s

/-- PERST_N is asserted (R37, R402, R509). -/
def execWarmReset (s : State) : Out := onEvent (!s.pwr.perst) s perstLow

/-- PERST_N is deasserted (R35, R508). -/
def execPerstNDeassert (s : State) : Out :=
  onEvent s.pwr.perst s fun s =>
    (s.modPwr fun p => { p with perst := false, endpoint := p.pll }).modHif fun h => { h with accept := s.pwr.pll }

/-! ### The plane resets -/

/-- A control-plane fatal error recorded (R491). -/
def ctlFatal (s : State) : State := startCtlReset 0x06 (noteFatal 0x06 (logError { sev := 3, source := 0x02, plane := 0, code := Config.blockCode 3 } s))

/-- A data-plane fatal error recorded, told to the Millwright, and its reset begun (R31, R491). -/
def datFatal (source : Nat) (s : State) : State :=
  if s.core.datReset then s
  else
    let s := noteFatal 0x09 (logError { sev := 3, source, plane := 1, code := Config.blockCode 4 } s)
    startDatReset 0x09 (tellMwDat (.planeFatal 0x09) s)

/-- A write of HIF_PLANE_RESET (R36, R83): a VF's write is discarded and logged, one with another KEY is discarded and
flagged, and the resets named start together. -/
def planeReset (fn val : Nat) (s : State) : State :=
  if fn ≠ 0 then logError { sev := 0, source := 0x01, plane := 0, code := Config.blockCode 2, fn } s
  else if bits val 31 16 ≠ 0x5A5A then
    s.modHif fun h => { h with wins := h.wins.alter 0 {} fun w => { w with err := w.err ||| 4 } }
  else
    let s := if bit val 0 then startCtlReset 0x04 s else s
    let s := if bit val 1 then startDatReset 0x07 s else s
    if bit val 2 then startMgtReset 0x0C s else s

/-- CTL. -/
def execCtlPlaneReset (by_ : ResetBy) (s : State) : Out :=
  match by_ with
  | .host fn val => onEvent (s.pwr.pll && bit val 0) s (planeReset fn val)
  | .millwright => onMw s.pwr.pll s (startCtlReset 0x05)
  | .fatal => onEvent (wheelOn s) s ctlFatal

/-- DAT. -/
def execDatPlaneReset (by_ : ResetBy) (s : State) : Out :=
  match by_ with
  | .host fn val => onEvent (s.pwr.pll && bit val 1) s (planeReset fn val)
  | .millwright => onMw s.pwr.pll s (startDatReset 0x08)
  | .fatal => onEvent s.pwr.pll s (datFatal 0x03)

/-- MGT: by the host alone; its fatal errors and firmware restarts have rows of their own. -/
def execMgtPlaneReset (by_ : ResetBy) (s : State) : Out :=
  match by_ with
  | .host fn val => onEvent (s.pwr.pll && bit val 2) s (planeReset fn val)
  | .millwright => .next s
  | .fatal => .next s

/-- The Wheelhouse runs again (R39, R40, R147). -/
def execCtlResetEnd (s : State) : Out := onEvent s.core.ctlReset s endCtlReset

/-- The data plane accepts dispatch again (R290). -/
def execDatResetEnd (s : State) : Out := onEvent s.core.datReset s endDatReset

/-- A data-plane block, by its source code, holds work and makes no progress for 100 ms (R491). -/
def execDatNoProgressTimeout (source : Nat) (s : State) : Out := onEvent s.pwr.pll s (datFatal source)

/-- A fence request of the Millwright as STONE_FENCE acts; a stone under test takes none (R181). -/
def takeFence (stone : Nat) (floor : Bool) (s : State) : State :=
  if stonesBusy s (namedStones stone floor) then s else fenceStones none stone floor s

/-- A fence request of the Millwright: posted, or taken by the data plane from MW_TO_DAT. -/
def execStoneFenceRequest (stone : Option Nat) (floor : Bool) (s : State) : Out :=
  match stone with
  | some n => onPost (decide (n < 256)) (postDat (.stoneFence n floor)) s
  | none => onDatMail (fun m => match m with | .stoneFence n f => some (takeFence n f) | _ => none) s

end Sys2Proof.Machine
end

