-- ==== Sys2Proof/Machine/Registers.lean ====
section
/-! DEFINITION. Writes of the registers that have no row of their own, by their access codes, and reads of every register (00 R20,
R21, and the register tables of the chapters). -/

namespace Sys2Proof.Machine

/-! ### Access codes (R20) -/

/-- A W1C field after a write: a bit written 1 is cleared. -/
def w1c (x v : Nat) : Nat := x &&& (0xFFFFFFFF ^^^ v % 2 ^ 32)

/-- The low half of a 64-bit register replaced, its reserved bits dropped by a mask. -/
def setLo (x v mask : Nat) : Nat := x / 2 ^ 32 * 2 ^ 32 + v % 2 ^ 32 &&& mask

/-- The high half of a 64-bit register replaced. -/
def setHi (x v : Nat) : Nat := x % 2 ^ 32 + v % 2 ^ 32 * 2 ^ 32

/-- Bits that a base register aligned to 4 KiB keeps. -/
def pageMask : Nat := 0xFFFFFFFFFFFFF000

/-! ### The function window (R83) -/

/-- A window register of a function written. -/
def writeWin (fn off v : Nat) (s : State) : State :=
  let set (f : Win → Win) : State := s.modHif fun h => { h with wins := h.wins.alter fn {} f }
  match off with
  | 0x10 => planeReset fn v s
  | 0x20 => set fun w => { w with qsel := v % 2 ^ 9 }
  | 0x24 => set fun w => { w with qcfg0 := v &&& 0xFFF11FFF }
  | 0x28 => set fun w => { w with qcfg1 := v &&& 0x03FF00FF }
  | 0x30 => set fun w => { w with qbase := setLo w.qbase v pageMask }
  | 0x34 => set fun w => { w with qbase := setHi w.qbase v }
  | 0x38 => set fun w => { w with qenv := setLo w.qenv v pageMask }
  | 0x3C => set fun w => { w with qenv := setHi w.qenv v }
  | 0x50 => set fun w => { w with err := w1c w.err v }
  | _ => s

/-! ### The blocks of the PF's BAR0 -/

/-- WHL_ (R120, R150). -/
def writeWhl (off v : Nat) (s : State) : State :=
  match off with
  | 0x04 => s.modWhl fun w => { w with lateEvals := w1c w.lateEvals v }
  | 0x10 => s.modWhl fun w => { w with rsel := v % 2 ^ 11 }
  | 0x50 => s.modWhl fun w => { w with csel := v % 2 ^ 4 }
  | 0x108 => s.modTrn fun r => { r with preempts := w1c r.preempts v }
  | 0x110 => s.modTrn fun r => { r with tsel := v % 2 ^ 6 }
  | _ => s

/-- STN_ (R186). -/
def writeStn (off v : Nat) (s : State) : State :=
  match off with
  | 0x40 => s.modStn fun x => { x with sel := v % 2 ^ 8 }
  | 0x44 =>
    if (stoneOf s s.stn.sel).bistFail = bit v 2 then s else modStone s.stn.sel (fun x => { x with bistFail := bit v 2 }) s
  | 0x54 => s.modStn fun x => { x with faultCount := w1c x.faultCount v }
  | _ => s

/-- MEM_ (R212). -/
def writeMem (off v : Nat) (s : State) : State :=
  if 0x80 ≤ off ∧ off < 0xA0 ∧ off % 4 = 0 then
    s.modMem fun m => { m with pairs := m.pairs.modify ((off - 0x80) / 4) fun q => { q with ce := w1c q.ce (v / 2 ^ 16) } }
  else
    match off with
    | 0xA0 => s.modMem fun m => { m with walks := w1c m.walks v }
    | 0xA4 => s.modMem fun m => { m with xfaults := w1c m.xfaults v }
    | 0xC0 => if bit v 31 then s else s.modMem fun m => { m with probeAsid := v % 2 ^ 10 }
    | 0xC4 => s.modMem fun m => { m with probeVa := setLo m.probeVa v (2 ^ 64 - 1) }
    | 0xC8 => s.modMem fun m => { m with probeVa := setHi m.probeVa v }
    | _ => s

/-- MEM_OCP_ (R235). -/
def writeOcp (off v : Nat) (s : State) : State :=
  let i := s.ocp.sel % 2 ^ 9
  let g := s.ocp.sel / 2 ^ 16
  match off with
  | 0x100 => s.modOcp fun o => { o with sel := v &&& 0x1F01FF }
  | 0x104 => if s.ocp.insts.has i then modInst i (fun x => { x with ce := w1c x.ce v, ue := w1c x.ue (v / 2 ^ 16) }) s else s
  | 0x10C =>
    if i ≤ 259 ∧ g < groupCount i then
      modGroup i g (fun x => { x with spares := bits v 5 0, degraded := bit v 6, reason := bits v 8 7 }) s
    else s
  | 0x110 => s.modOcp fun o => { o with last := v &&& 0xFF03FFFF }
  | 0x114 => s.modOcp fun o => { o with lastWord := v % 2 ^ 21 }
  | 0x118 => s.modOcp fun o => { o with alarm := w1c o.alarm v }
  | 0x120 => if bit v 16 then s else s.modOcp fun o => { o with inject := v % 2 ^ 16 }
  | 0x124 => s.modOcp fun o => { o with injWord := v % 2 ^ 21 }
  | 0x128 => s.modOcp fun o => { o with injMask := setLo o.injMask v (2 ^ 64 - 1) }
  | 0x12C => s.modOcp fun o => { o with injMask := setHi o.injMask v }
  | _ => s

/-- A configuration write of a port discarded (R266). -/
def portRefused (p : Nat) (s : State) : State := modPort p (fun q => { q with flm := { q.flm with err := q.flm.err ||| 1 } }) s

/-- The set bits of a byte. -/
def popCount8 (v : Nat) : Nat := (maskBits 8 v).length

/-- PRT_ and FLM_ of a port (R266). -/
def writePort (p off v : Nat) (s : State) : State :=
  let set (f : Port → Port) : State := modPort p f s
  let setF (f : Flm → Flm) : State := modPort p (fun q => { q with flm := f q.flm }) s
  match off with
  | 0x04 => set fun q => { q with laneCfg := v % 2 ^ 9 }
  | 0x10 => if 2 < popCount8 v then portRefused p s else set fun q => { q with ethCfg := v % 2 ^ 21 }
  | 0x14 => set fun q => { q with fecCorr := w1c q.fecCorr v }
  | 0x18 => set fun q => { q with fecUnc := w1c q.fecUnc v }
  | 0x1C => set fun q => { q with drops := w1c q.drops v }
  | 0x20 => set fun q => { q with tsAsym := v % 2 ^ 32 }
  | 0x24 => set fun q => { q with downCause := bits v 3 0, downSeq := bits v 15 4, downCount := bits v 31 16 }
  | 0x800 =>
    let l := [bits v 7 0, bits v 15 8, bits v 23 16, bits v 31 24]
    if l.contains 0 ∨ 96 < l.foldl (· + ·) 0 then portRefused p s else setF fun f => { f with alloc := l }
  | 0x820 => setF fun f => { f with bad := w1c f.bad v }
  | 0x824 => setF fun f => { f with replays := w1c f.replays v }
  | 0x828 => setF fun f => { f with retryMax := w1c f.retryMax v }
  | 0x82C => setF fun f => { f with heldMax := w1c f.heldMax v }
  | 0x830 => setF fun f => { f with err := w1c f.err v }
  | _ => s

/-- RDM_ (R291). -/
def writeRdm (off v : Nat) (s : State) : State :=
  let set (f : Rdm → Rdm) : State := s.modRdm f
  match off with
  | 0x10 => set fun r => { r with qsel := v % 2 ^ 14 }
  | 0x30 => set fun r => { r with e2eErr := w1c r.e2eErr v }
  | 0x38 => set fun r => { r with icrcErr := w1c r.icrcErr v }
  | 0x3C => set fun r => { r with naksSent := w1c r.naksSent (v % 2 ^ 16), naksRecv := w1c r.naksRecv (v / 2 ^ 16) }
  | 0x40 => set fun r => { r with eqDrops := w1c r.eqDrops v }
  | 0x44 => set fun r => { r with dbRefused := w1c r.dbRefused v }
  | _ => s

/-- GRN_ (R322); the near-memory ring is changed only while it is empty. -/
def writeGrn (off v : Nat) (s : State) : State :=
  let set (f : Grn → Grn) : State := s.modGrn f
  let ring (f : Grn → Grn) : State := if s.grn.nmwHead = s.grn.nmwTail then s.modGrn f else s
  match off with
  | 0x10 => set fun g => { g with csel := v % 2 ^ 6 }
  | 0x20 => set fun g => { g with dsel := v % 2 ^ 22 }
  | 0x30 => set fun g => { g with hotHit := w1c g.hotHit v }
  | 0x34 => set fun g => { g with hotMiss := w1c g.hotMiss v }
  | 0x38 => set fun g => { g with lapses := w1c g.lapses v }
  | 0x80 => ring fun g => { g with nmwBase := setLo g.nmwBase v pageMask }
  | 0x84 => ring fun g => { g with nmwBase := setHi g.nmwBase v }
  | 0x88 => ring fun g => { g with nmwCfg := v &&& 0xFFFF000F }
  | 0x90 => ring fun g => { g with nmwCbase := setLo g.nmwCbase v (2 ^ 64 - 1) }
  | 0x94 => ring fun g => { g with nmwCbase := setHi g.nmwCbase v }
  | 0xA0 => set fun g => { g with nmwChead := v % 2 ^ 16 }
  | _ => s

/-- TLY_ (R339). -/
def writeTly (off v : Nat) (s : State) : State :=
  match off with
  | 0x0C => s.modTly fun y => { y with held := w1c y.held v }
  | 0x20 => s.modTly fun y => { y with sel := v % 2 ^ 22 }
  | _ => s

/-- CHK_ (R355). -/
def writeChk (off v : Nat) (s : State) : State :=
  match off with
  | 0x04 => s.modChk fun c => { c with irq := w1c c.irq v }
  | 0x10 => s.modChk fun c => { c with sel := v % 2 ^ 4 }
  | 0x30 => if s.chk.engines.has s.chk.sel then modEngine s.chk.sel (fun e => { e with runs := w1c e.runs v }) s else s
  | 0x34 => if s.chk.engines.has s.chk.sel then modEngine s.chk.sel (fun e => { e with fails := w1c e.fails v }) s else s
  | _ => s

/-- DOM_ (R385). -/
def writeDom (off v : Nat) (s : State) : State :=
  match off with
  | 0x30 => s.modDom fun d => { d with psel := v % 2 ^ 8 }
  | 0x44 => s.modDom fun d => { d with drops := w1c d.drops v }
  | 0x48 => s.modDom fun d => { d with fwdTimeouts := w1c d.fwdTimeouts v }
  | 0x4C => s.modDom fun d => { d with sleepAborts := w1c d.sleepAborts v }
  | _ => s

/-- PWR_ (R414). -/
def writePwr (off v : Nat) (s : State) : State :=
  match off with
  | 0x10 => s.modPwr fun p => { p with vsel := v % 2 ^ 8 }
  | 0x1C => s.modPwr fun p => { p with aoRet := v % 2 ^ 8 }
  | 0x40 => s.modPwr fun p => { p with rcauseSel := v % 2 ^ 4 }
  | 0x60 => s.modPwr fun p => { p with floorWakes := w1c p.floorWakes v }
  | _ => s

/-- MON_ (R492). -/
def writeMon (off v : Nat) (s : State) : State :=
  if 0x40 ≤ off ∧ off < 0x54 ∧ off % 4 = 0 then
    s.modEvt fun e => { e with sevCnt := e.sevCnt.modify ((off - 0x40) / 4) fun n => w1c n v }
  else
    match off with
    | 0x04 => s.modEvt fun e => { e with monSel := v % 2 ^ 6 }
    | 0x60 => s.modEvt fun e => { e with evtDrops := w1c e.evtDrops v }
    | 0x64 => s.modEvt fun e => { e with fatalLast := v % 2 ^ 32 }
    | 0x80 => s.modEvt fun e => { e with elogSel := v % 2 ^ 9 }
    | _ => s

/-- A write of the host: a function's own window, and for the PF the blocks of its BAR0. -/
def hostWriteReg (fn off v : Nat) (s : State) : State :=
  if off < 0x100 then writeWin fn off v s
  else if fn ≠ 0 then s
  else
    let low := off % 2 ^ 16
    match off / 2 ^ 16 with
    | 0x10 => writeWhl low v s
    | 0x20 => writeStn low v s
    | 0x30 => if low < 0x100 then writeMem low v s else writeOcp low v s
    | 0x40 => if low < 0x8000 then writePort (low / 2 ^ 12) (low % 2 ^ 12) v s else s
    | 0x50 => writeRdm low v s
    | 0x60 => writeGrn low v s
    | 0x68 => writeTly low v s
    | 0x70 => writeChk low v s
    | 0x78 => writeDom low v s
    | 0x80 => writePwr low v s
    | 0x90 => writeMon low v s
    | 0xA0 => if low = 8 then s.modMwr fun m => { m with lockCount := bits v 15 0, lockClass := bits v 19 16 } else s
    | _ => s

/-! ### The Millwright's own view -/

/-- A write of an MGT register by the firmware; a value out of range is discarded. The pending set and the tray registers are
written only by the steward (R446, R449). -/
def mgtWriteReg (off v : Nat) (s : State) : State :=
  match off with
  | 0x300134 => if bit v 31 then s else s.modOcp fun o => { o with remapLoad := v % 2 ^ 26 }
  | 0x300138 => s.modOcp fun o => { o with remapInst := v % 2 ^ 9 }
  | 0xA00010 =>
    let n := bits v 13 0
    if 10 ≤ n ∧ n ≤ 10000 then s.modMwr fun m => { m with wdtMs := n } else s
  | 0xA00018 => s.modMwr fun m => { m with pwrmode := v % 2 ^ 2 }
  | 0xA0001C => s.modMwr fun m => { m with resetOnLoss := bit v 0 }
  | 0xB000C0 => if stewards s && valveCfgOk v then (writeValveCfg v s).2 else s
  | 0xB000D4 => if stewards s then s.modMwr fun m => { m with self := if bit v 3 then some (v % 8) else none } else s
  | _ => if stewards s ∧ (off = 0xB00080 ∨ off = 0xB00084 ∨ off = 0xB00088) then (writePending off v s).2 else s

/-- A register access by the host through a function. -/
def hostAccess (fn off : Nat) (val : Option Nat) (s : State) : State :=
  match val with
  | some v => hostWriteReg fn off v s
  | none => let (v, s) := hostReadReg fn off s; emit (.answer (leBytes 4 v) false) s

/-- A register access by the firmware. -/
def mgtAccess (off : Nat) (val : Option Nat) (s : State) : State :=
  match val with
  | some v => mgtWriteReg off v s
  | none => emit (.answer (leBytes 4 (mgtView s off)) false) s

/-- REGISTER_WRITE by the host through a function, or by the firmware; without a value it is a read, whose 4 bytes are answered (log
entry 117). -/
def execRegisterWrite (by_ : Option Nat) (off : Nat) (val : Option Nat) (s : State) : Out :=
  match by_ with
  | some fn => onEvent (s.pwr.pll && decide (fn < 16)) s (hostAccess fn off val)
  | none => onMw true s (mgtAccess off val)

end Sys2Proof.Machine
end

