-- ==== Sys2Proof/Machine/Sleep.lean ====
section
/-! DEFINITION. The sleep of a granary and the votes of those that map its bins (13 R377 to R381, 14 R411). -/

namespace Sys2Proof.Machine

/-- The sleep of this granary as SLEEP_VOTE and DOM_SLEEP report it, or of another as seen here (R381). -/
def sleepSeen (s : State) (g : Nat) (own : Bool) : Nat :=
  if own then s.dom.sleep.state.code else match s.dom.seen.get g with | some x => x.code | none => 0xFF

/-- The holder an objection or vote of a command counts for: a function here, or a function of another member. -/
def voteHolder (c : Cmd) : Nat := match c.id.origin with | .domain m f => 16 * (m + 1) + f | _ => c.fn

/-- SLEEP_VOTE with an ACTION on the granary CONTEXT names: f decides by holder and granary, 256 for this one (R381). -/
def sleepVote (action : Nat) (id : CmdId) (s : State) (f : Nat → Nat → State → State) : Out :=
  onCmd .sleepVote id s fun c s =>
    let g := bits c.context 7 0
    let own := bit c.context 8 || (isGranary s && decide (g = ownMember s))
    if fld c.pkt 2 1 0 ≠ action ∧ (action ≠ 0 ∨ fld c.pkt 2 1 0 ≠ 3) then s
    else
      checks [
        (if own then !isGranary s else decide (tableRole s g ≠ 2), invalid c 4),
        fields c [(decide (fld c.pkt 2 1 0 = 3), 8), rsv c.pkt 2 31 2]]
        (fun s =>
          let s := f (voteHolder c) (if own then 256 else g) s
          complete c .success (sleepSeen s g own) 0 s) s

/-- SLEEP_VOTE OBJECT; a reserved ACTION is refused here. -/
def execSleepVoteObject (id : CmdId) (s : State) : Out :=
  sleepVote 0 id s fun fn g s =>
    s.modDom fun d => { d with objections := if d.objections.contains (fn, g) then d.objections else d.objections ++ [(fn, g)] }

/-- SLEEP_VOTE WITHDRAW: the quiet period runs from the end of a local objection. -/
def execSleepVoteWithdraw (id : CmdId) (s : State) : Out :=
  sleepVote 1 id s fun fn g s =>
    let had := s.dom.objections.contains (fn, g)
    let s := s.modDom fun d => { d with objections := d.objections.filter fun o => o ≠ (fn, g) }
    if had ∧ g = 256 then quietAgain s else s

/-- SLEEP_VOTE WAKE. -/
def execSleepVoteWake (id : CmdId) (s : State) : Out :=
  sleepVote 2 id s fun _ g s => if g = 256 then sleepWake s else sendMsg g (.sleepVote 0 2) s

/-! ### The proposal (R377, R378) -/

/-- The proposal is AGREED: COMMIT is 200 µs away. -/
def agree (s : State) : State :=
  let s := setSleep .agreed (fun x => { x with commitAt := s.core.t + us 200, awaited := [] }) s
  sendAll s.dom.sleep.voters (.sleepAgreed s.dom.sleep.proposal (s.core.time + us 200)) s

/-- Members that hold a live map of a bin. -/
def liveMembers (s : State) : List Nat :=
  ((s.grn.dir.flatMap fun e => mapMembers s e.2).eraseDups).filter fun m => m ≠ ownMember s

/-- The quiet period passes (R377). -/
def execSleepQuietExpiry (s : State) : Out :=
  let q := feature s 0x84 0 30
  onEvent (isGranary s && joined s && s.grn.ready && decide (s.dom.sleep.state = .awake) && decide (0 < q) &&
      passed s s.dom.sleep.quietAt (sec q) && !s.dom.objections.any fun o => decide (o.2 = 256)) s fun s =>
    let v := liveMembers s
    let n := (s.dom.sleep.proposal + 1) % 2 ^ 32
    if v = [] then agree (s.modDom fun d => { d with sleep := { d.sleep with proposal := n, voters := [] } })
    else
      sendAll v (.sleepPropose n)
        (setSleep .proposed (fun x => { x with proposal := n, voters := v, awaited := v, sentAt := s.core.t }) s)

/-- The sleep state seen of another granary changed, with its event (R383). -/
def setSeen (m : Nat) (st : SleepState) (s : State) : State :=
  if s.dom.seen.get m = some st then s
  else raisePf 0xC006 m st.code (s.modDom fun d => { d with seen := d.seen.set m st })

/-- A request to a member is outstanding on a QP, or an objection to it is in force (R378). -/
def votesNo (s : State) (m : Nat) : Bool :=
  (s.dom.objections.any fun o => decide (o.2 = m)) ||
    s.rdm.qps.any fun q => decide (q.2.member = m) && decide (q.2.state = .rts ∨ q.2.state = .drain) && !q.2.sent.isEmpty

/-- A voter's Millwright answers a proposal; silent while its Millwright does not run. -/
def execSleepProposeReceive (h : MsgHead) (n : Nat) (s : State) : Out :=
  let s := idleExit s
  if msgBad s h then .next (dropMsg s)
  else
    let s := setSeen h.sender .proposed s
    .next (if s.mwr.running then sendMsg h.sender (.sleepVote n (flag (!votesNo s h.sender))) s else s)

/-- The proposal ends and the quiet period starts again. -/
def endProposal (s : State) : State := setSleep .awake (fun x => { x with quietAt := s.core.t, awaited := [] }) s

/-- A vote, or the wake that SLEEP_VOTE WAKE sends (R378, R379). -/
def execSleepVoteMessage (h : MsgHead) (n value : Nat) (s : State) : Out :=
  let s := idleExit s
  if msgBad s h then .next (dropMsg s)
  else if isGranary s = false then .next s
  else if value = 2 then .next (sleepWake s)
  else
    let x := s.dom.sleep
    if x.state ≠ .proposed ∨ n ≠ x.proposal ∨ x.awaited.contains h.sender = false then .next s
    else if value = 0 then .next (endProposal s)
    else
      let rest := x.awaited.filter fun m => m ≠ h.sender
      let s := s.modDom fun d => { d with sleep := { d.sleep with awaited := rest } }
      .next (if rest = [] then agree s else s)

/-- A voter silent for 10 ms (R378). -/
def execSleepVoteTimeout (s : State) : Out :=
  onEvent (decide (s.dom.sleep.state = .proposed) && passed s s.dom.sleep.sentAt (ms 10)) s endProposal

/-! ### At the voter -/

/-- SLEEP_AGREED. -/
def execSleepAgreedReceive (h : MsgHead) (_n commit : Nat) (s : State) : Out :=
  let s := idleExit s
  if msgBad s h then .next (dropMsg s)
  else .next ((setSeen h.sender .agreed s).modDom fun d => { d with commits := d.commits.set h.sender commit })

/-- SLEEP_ABORT. -/
def execSleepAbortReceive (h : MsgHead) (_n : Nat) (s : State) : Out :=
  let s := idleExit s
  if msgBad s h then .next (dropMsg s)
  else .next ((setSeen h.sender .awake s).modDom fun d => { d with commits := d.commits.erase h.sender })

/-- SLEEP_AWAKE. -/
def execSleepAwakeReceive (h : MsgHead) (s : State) : Out :=
  let s := idleExit s
  if msgBad s h then .next (dropMsg s)
  else .next ((setSeen h.sender .awake s).modDom fun d => { d with commits := d.commits.erase h.sender })

/-! ### Entry and exit (R379, R380, R411) -/

/-- COMMIT: the domain agent posts the withdrawal of its vote, and domains without a vote drop with no hold. -/
def execSleepCommit (s : State) : Out :=
  onEvent (decide (s.dom.sleep.state = .agreed) && decide (s.dom.sleep.commitAt ≤ s.core.t)) s fun s =>
    let s := setSleep .entering id s
    settleVotes (forEach voteable (fun d s => modPdom d (fun p => { p with access := none }) s)
      (postCtl (.agentVote false) s))

/-- Entry ends once the agent's withdrawal has been taken: the DDR complex is in RETAIN and the floors without a vote are OFF. -/
def execSleepEntryEnd (s : State) : Out :=
  onEvent (decide (s.dom.sleep.state = .entering) && !(pdom s 25).agent) s fun s =>
    let up (d : Nat) : Bool := decide ((pdom s d).level = .active ∨ (pdom s d).level = .gated) && !voted s d
    let s := forEach (voteable.filter up) dropDom s
    if s.dom.sleep.exitPending then sleepExit s else setSleep .asleep id s

/-- Exit ends once the DDR complex is ACTIVE: accesses held are admitted, and the voters are told. -/
def execSleepExitEnd (s : State) : Out :=
  onEvent (decide (s.dom.sleep.state = .exiting) && (decide (layoutPairs s = []) || decide ((pdom s 25).level = .active))) s fun s =>
    let s := setSleep .awake (fun x => { x with quietAt := s.core.t }) s
    let s := sendAll s.dom.sleep.voters .sleepAwake s
    let held := s.grn.asleep
    held.foldl (fun s r => enterRequest r s) (s.modGrn fun g => { g with asleep := [] })

/-- The vote of the domain agent on the DDR complex. -/
def agentVote (place : Bool) (s : State) : State := settle 25 (modPdom 25 (fun p => { p with agent := place }) s)

/-- A domain-agent sleep vote: the agent posts the one its granary's sleep asks for, or the control plane takes one from
MW_TO_CTL (R31, R411). -/
def execDomainAgentSleepVote (post : Bool) (s : State) : Out :=
  if post then
    onPost (isGranary s) (fun s => postCtl (.agentVote (!([.entering, .asleep].contains s.dom.sleep.state))) s) s
  else onCtlMail (fun m => match m with | .agentVote b => some (agentVote b) | _ => none) s

end Sys2Proof.Machine
end

