-- ==== Sys2Proof/Machine/GangOps.lean ====
section
/-! DEFINITION. Gangs: faults, bundles, bindings, the gate as a gang meets it, stages (05 R154 to R173, 04 R128, R136, R137). -/

namespace Sys2Proof.Machine

/-! ### Gangs -/

/-- A bed of an item. -/
def Item.bed (i : Item) (k : Nat) : Bed := i.beds.getD k {}

/-- A bed changed. -/
def modBed (n k : Nat) (f : Bed → Bed) (s : State) : State := modItem n (fun i => { i with beds := i.beds.alter k {} f }) s

/-- The stone index of relative stone k of an item's block (R151). -/
def Item.stone (i : Item) (k : Nat) : Nat := 16 * i.base + k

/-- The bundle stream of a relative stone: its offset in BUNDLES and its count (R170). -/
def streamOf (m : Image) (k : Nat) : Nat × Nat :=
  let t := amgSection m.bytes 1
  (num t (16 * k) 8, num t (16 * k + 8) 4)

/-- Bundle j of a relative stone's stream in the image store. -/
def bundleAt (m : Image) (k j : Nat) : Option Nat :=
  let e := streamOf m k
  if j < e.2 then some (num (amgSection m.bytes 2) (e.1 + 32 * j) 32) else none

/-- Bundle j as a bed's buffer holds it. -/
def Bed.bundle (b : Bed) (j : Nat) : Option Nat := if j < b.lo then none else b.buf[j - b.lo]?

/-- The relative stones that run bundles. -/
def activeStones (m : Image) : List Nat := (List.range (16 * m.floors)).filter fun k => decide ((streamOf m k).2 ≠ 0)

/-- The turn and sail of an item, with whether it has each. -/
def Item.place (i : Item) : Nat × Nat × Bool × Bool :=
  match i.owner with
  | .sail t k => (t, k, true, true)
  | .turn t => (t, 0, true, false)
  | _ => (0, 0, false, false)

/-! ### What holds a gang up (R157, R160) -/

/-- The runner of a bed has instructions to do. -/
def Bed.runnerBusy (t : Nat) (b : Bed) : Bool :=
  b.runner.any (fun o => decide (t < o.end_)) || b.slots.any fun v => decide (bits v.word 3 0 = 1 ∨ bits v.word 3 0 = 2)

/-- A stone's microcode has arrived. -/
def Bed.microIn (m : Image) (b : Bed) : Bool := decide ((amgSection m.bytes 3).length ≤ b.micro.length)

/-- A stone's spur schedule has arrived. -/
def Bed.spurIn (m : Image) (k : Nat) (b : Bed) : Bool := decide ((spurPart m k).2 ≤ b.spur)

/-- A bed holds its gang up at an instant. -/
def Bed.stands (m : Image) (k t : Nat) (b : Bed) : Bool :=
  b.waitDma ||
    (match b.need with
      | .none => false
      | .bundle j => (b.bundle j).isNone
      | .microcode => !b.microIn m
      | .schedule => !b.spurIn m k
      | .runner => b.runnerBusy t)

/-- A gang advances as one: every stone of it stands while one of them does, or while the gate has no room (R160). -/
def Item.stands (m : Image) (t : Nat) (i : Item) : Bool := i.stalled || i.beds.any fun b => b.2.stands m b.1 t

/-- A gang that issues: on its block, awake, neither yielding, faulted nor furled, and not held up. -/
def Item.issues (m : Image) (t : Nat) (i : Item) : Bool := decide (i.state = .running) && !i.waking && !i.stands m t

/-- A stone's stores take in n more bytes of its stage: its microcode, its spur schedule, then bundles, while the buffer has room
for those from pc on (R152, R157, R170; log entry 107). -/
def Bed.stream (m : Image) (k n : Nat) (b : Bed) : Bed :=
  let mc := amgSection m.bytes 3
  let micro := mc.take (b.micro.length + n)
  let n := n - (micro.length - b.micro.length)
  let spur := min (spurPart m k).2 (b.spur + n)
  let n := n - (spur - b.spur)
  let hi := b.lo + b.buf.length
  let end_ := min (streamOf m k).2 (b.pc + 8192)
  let got := min ((b.part + n) / 32) (end_ - hi)
  let buf := b.buf ++ (List.range got).filterMap fun j => bundleAt m k (hi + j)
  let over_ := buf.length - 8192
  { b with
    micro, spur, buf := buf.drop over_, lo := b.lo + over_
    part := if hi + got = end_ then 0 else b.part + n - 32 * got }

/-- A bed that needs a bundle its buffer does not hold: one before the buffer's first has the stream begin there again. -/
def Bed.want (j : Nat) (b : Bed) : Bed :=
  if j < b.lo then { b with need := .bundle j, pc := j, lo := j, buf := [], part := 0 } else { b with need := .bundle j, pc := j }

/-- The nanosecond that ends at an instant brings a gang's stones more of their stage. -/
def streamStage (m : Image) (t : Nat) (i : Item) : Item :=
  { i with beds := (activeStones m).foldl (fun x k => x.alter k {} (Bed.stream m k (Config.streamBytes t))) i.beds }

/-- The beds of a gang stop: unstarted DMA is cancelled and the item drains (R167). -/
def stopGang (n : Nat) (s : State) : State :=
  modItem n (Item.stop .faulted s.core.t) s

/-- A contract fault of a gang (R166, R167, R186). -/
def gangFault (n code k : Nat) (s : State) : State :=
  match itemOf s n with
  | none => s
  | some i =>
    if i.state ≠ .running ∧ i.state ≠ .yielding then s
    else
      let (t, v, tv, sv) := i.place
      let s := stopGang n s
      let s := modImage i.image (fun m => { m with faults := m.faults + 1, lastFault := code }) s
      let s := s.modStn fun x =>
        { x with
          faultLast := code + i.stone k * 2 ^ 8 + i.image * 2 ^ 16 + t * 2 ^ 26
          faultCount := sat 0xFFFF (x.faultCount + 1)
          faultCtx := flag tv + v * 2 + flag sv * 8 }
      let s := logError { sev := severityOf 0x5001, source := 3, plane := 1, code := 0x5001, fn := i.fn, obj := i.image,
                          detail := code + k * 2 ^ 8 + i.site * 2 ^ 16 } s
      raise 0x5001 i.fn i.image (t + v * 2 ^ 8) 0 (code + k * 2 ^ 8 + i.site * 2 ^ 16) 0 s

/-- SCRATCH_POISON of a stone (R221, R235). -/
def scratchPoison (i : Item) (k : Nat) (s : State) : State :=
  raise 0x7004 i.fn (i.stone k) i.image 0 (i.stone k + i.image * 2 ^ 8 + i.place.1 * 2 ^ 18) 0 s

/-- A poisoned scalar used as an address, a condition, a count or an OFFREG stops the gang (R221). -/
def poisonStop (n k : Nat) (s : State) : State :=
  match itemOf s n with
  | none => s
  | some i => if i.state = .running then scratchPoison i k (stopGang n s) else s

/-! ### Runner slots (R155) -/

/-- OP. -/
def slotOp (v : Nat) : Nat := bits v 3 0

/-- MAC per cycle of a type code (R152). -/
def macRate (t : Nat) : Nat := if t ≤ 2 then 8192 else 4096

/-- Runner cycles of a MATMUL slot (R156). -/
def matmulCycles (v : Nat) : Nat :=
  ceilDiv ((bits v 20 8 + 1) * (bits v 33 21 + 1) * (bits v 46 34 + 1)) (macRate (bits v 7 4))

/-- Stone cycles as ns, rounded up. -/
def cyclesNs (s : State) (n : Nat) : Nat := if s.pwr.boost then ceilDiv n 2 else ceilDiv (n * 5) 9

/-! ### Bindings (R172, R173) -/

/-- What a binding resolves to for an item. -/
inductive Bound where
  /-- Runs of memory. -/
  | mem (segs : List Seg)
  /-- The sail's private arena. -/
  | arena (segs : List Seg)
  /-- The tailrace of the turn's race. -/
  | tail
  /-- A bin handle. -/
  | bin (handle : Nat)
  deriving DecidableEq, Repr

/-- The binding of an item under an INDEX; none where its kind is not allowed in the item's context. -/
def boundOf (s : State) (i : Item) (m : Image) (b : Binding) : Option Bound :=
  match b.kind, i.owner with
  | 1, _ => some (.mem (match m.static.get b.index with | some h => h.segs | none => []))
  | 2, _ => some (.mem (match (chainOf s i).bind fun c => c.held.get b.index with | some h => h.segs | none => []))
  | 3, .sail t k =>
    (sailOf s t k).arena.map fun o => .arena [{ target := .hbm, addr := arenaBase s + o, len := m.arenaBytes }]
  | 3, _ => none
  | 4, _ => if i.turn?.isSome then some .tail else none
  | _, _ => some (.bin (match chainOf s i with | some c => c.bins.getD b.index 0 | none => 0))

/-- A DMA descriptor ready to start: its template, the offset with its register added, and what it is bound to. -/
structure Issue where
  /-- Template. -/
  tmpl : Template
  /-- OFFSET plus the register. -/
  off : Nat
  /-- Binding. -/
  bound : Bound
  deriving DecidableEq, Repr

/-- The kind test of a template in an item's context (R173). -/
def kindBad (s : State) (i : Item) (m : Image) (t : Template) (b : Option Bound) : Bool :=
  match t.op, b with
  | 1, some .tail => true
  | 2, some .tail => true
  | 1, some _ => false
  | 2, some _ => false
  | 3, some .tail => !(isMill s && bit m.flags 0)
  | 4, _ => !(isMill s && bit m.flags 1 && i.turn?.isSome)
  | _, _ => true

/-- The bytes a template moves end within its binding and its scratch range within scratch (R166). -/
def rangeBad (t : Template) (off bytes : Nat) : Bool :=
  decide (bytes < off + (t.rows - 1) * t.stride + t.len ∨ t.rows = 0 ∨ 4194304 < t.scratch + t.rows * t.len)

/-- A template bound for an item: its binding and the offset with its register's value added. -/
def issueOf (s : State) (i : Item) (m : Image) (t : Template) (reg : Nat) : Option (Issue × Nat × Bool) :=
  match m.binds.find? fun b => decide (b.index = t.binding) with
  | none => if t.op = 4 then some (⟨t, 0, .tail⟩, 0, kindBad s i m t .none) else none
  | some b =>
    let o := boundOf s i m b
    some (⟨t, t.offset + reg, o.getD .tail⟩, b.bytes, kindBad s i m t o)

/-- The contract fault of a DMA_ISSUE, judged as it issues with its OFFREG's value: a template that does not exist or ranges past
its binding, or one its item's context does not allow (R166, R173). -/
def issueFault (s : State) (i : Item) (m : Image) (v reg : Nat) : Option Nat :=
  match m.descs[bits v 19 8]? with
  | none => some 9
  | some t =>
    match issueOf s i m t reg with
    | none => some 9
    | some (x, bytes, bad) => if bad then some 10 else if t.op ≠ 4 ∧ rangeBad t x.off bytes then some 9 else none

/-- The oldest DMA slot of a stone of a gang and what it moves, when the descriptor begins (R155, R173). -/
def dmaStart (s : State) (i : Item) (m : Image) (k : Nat) : Option (RunSlot × Issue) :=
  match (i.bed k).slots.find? fun v => decide (slotOp v.word = 3) with
  | none => none
  | some v => (m.descs[bits v.word 19 8]?).bind fun t => (issueOf s i m t v.reg).map fun e => (v, e.1)

/-- A descriptor begins: its slot is taken and it counts as started. -/
def noteStart (n k : Nat) (slot : RunSlot) (op : Nat) (s : State) : State :=
  modItem n (fun i =>
    { i with
      beds := i.beds.alter k {} fun b => { b with slots := b.slots.erase slot }
      dmas := i.dmas ++ [{ stone := k, op }] }) s

/-- The rows of a template: scratch offset and offset in the binding. -/
def rowsOf (x : Issue) : List (Nat × Nat) :=
  (List.range x.tmpl.rows).map fun r => (x.tmpl.scratch + r * x.tmpl.len, x.off + r * x.tmpl.stride)

/-! ### The gate as a gang meets it (R28, R136, R137) -/

/-- A gang stalls at the gate for room and records; SAIL_STALLED once per stall. -/
def stallSail (n t k which need recs : Nat) (s : State) : State :=
  let x := turnOf s t
  let told := (x.sail k).stall.isSome
  let s := modSail t k (fun v => { v with stall := some (which, need, recs) }) (modItem n (fun i => { i with stalled := true }) s)
  if told then s else raise 0x4004 x.fn t k 0 which 0 s

/-- A write split into records of at most 4 KiB (R135). -/
def recordsOf (d : Nat → Nat → Dest) (data : List PByte) : List HeldWrite :=
  (List.range (ceilDiv data.length 4096)).map fun r =>
    let part := (data.drop (4096 * r)).take 4096
    { dest := d (4096 * r) part.length, data := part }

/-! ### Stages (R128, R146, R165) -/

/-- An item that goes on: its next stage starts on the same block with scratch kept, when the block suits and the save
pool has room; otherwise the block is left and the stage becomes ready (R128, R165). -/
def nextStage (n : Nat) (i : Item) (s : State) : State :=
  let stage := i.stage + 1
  match (chainOf s i).bind fun c => c.images[stage]? with
  | none => s
  | some image =>
    match imageOf s image, imageOf s i.image with
    | some m, some old =>
      let j : Item :=
        { fn := i.fn, owner := i.owner, chain := i.chain, stage, image, gang := i.gang, due := i.due, floors := m.floors,
          user := i.user, startedAt := i.startedAt, stagesDone := i.stagesDone }
      let stays := decide (m.gang = old.gang) && permitted s m i.base &&
        decide (s.trn.saveUsed - i.saveBytes + saveArea m ≤ mib s.mem.sizes.save) && (binRefusal s j m).isNone
      if stays then
        s.modTrn fun r =>
          { r with
            items := (r.items.erase n).set r.nextItem
              { j with state := .running, base := i.base, saveBytes := saveArea m, recvs := recvsOf m }
            nextItem := r.nextItem + 1
            saveUsed := r.saveUsed - i.saveBytes + saveArea m }
      else addItem j (dropItem n s)
    | _, _ => dropItem n s

/-- The chain has a stage after this one. -/
def hasNext (s : State) (i : Item) : Bool := ((chainOf s i).bind fun c => c.images[i.stage + 1]?).isSome

/-- A stage ends (R128, R146, R165): its run is recorded, its completion position reaches the wheel table, and the next
stage, the sail's done state or the item's end follows. -/
def endStage (n : Nat) (i : Item) (s : State) : State :=
  let pos := ((i.bed 0).scalar.getD 1 {}).val
  let s := modImage i.image (Image.record i.cycles) s
  let s := sample 3 i.cycles (fun m => decide (m.fn = i.fn) && m.within 10 i.image) s
  let s := match i.turn? with
    | some t => modRace (turnOf s t).race (fun r => { r with done := max r.done pos, doneStage := i.stage }) s
    | none => s
  match i.owner with
  | .sail t k =>
    let s := modSail t k (fun v => { v with stage := i.stage + 1 }) s
    if hasNext s i then nextStage n i s else sailDone t k (dropItem n s)
  | .turn t => freeTurn t (dropItem n s)
  | .nearMem _ =>
    let i := { i with stagesDone := i.stagesDone + 1 }
    let s := modItem n (fun _ => i) s
    if hasNext s i then nextStage n i s else endNearMem n .success s
  | .sweep _ _ => dropItem n s

end Sys2Proof.Machine
end

