-- ==== Sys2Proof/Machine/Stone.lean ====
section
/-! DEFINITION. What the stones of a gang do: bundles, the runner, DMA, the spur mesh, grist boundaries, the end of a
stage (05 R154 to R167, R173, 07 R221). -/

namespace Sys2Proof.Machine

/-! ### Bundles (R154) -/

/-- A bundle with a reserved bit set or an undefined code (R154, R155). -/
def bundleBad (b : Nat) : Bool :=
  let run := bits b 223 160
  decide (bits b 7 3 ≠ 0 ∨ bits b 255 224 ≠ 0 ∨ 3 < slotOp run) ||
    (decide (slotOp run = 1 ∨ slotOp run = 2) && decide (4 < bits run 7 4))

/-- Scratch ranges read in order: whether any word is poisoned, and the state after the reads. -/
def readRanges (stone : Nat) (l : List (Nat × Nat)) (s : State) : Bool × State :=
  l.foldl (fun (a : Bool × State) r =>
    let e := readScratch stone r.1 r.2 a.2
    (a.1 || e.1.any fun b => b.2, e.2)) (false, s)

/-- An operand of an operation is poisoned, with the scratch it loads read. -/
def opPoisoned (b : Bed) (stone : Nat) (o : OpFx) (s : State) : Bool × State :=
  let e := readRanges stone o.loads s
  (e.1 || o.sreads.any (fun r => (b.scalar.getD r {}).bad) || o.vreads.any fun r => (b.vector.getD r {}).lanes.any fun x => x.2, e.2)

/-- The registers an operation writes, poisoned when one of its operands is (R221). -/
def Bed.write (o : OpFx) (bad : Bool) (b : Bed) : Bed :=
  { b with
    scalar := o.scalars.foldl (fun t e => t.set e.1 { val := e.2 % 2 ^ 64, bad }) b.scalar
    vector := o.vectors.foldl (fun t e => t.set e.1 { lanes := e.2.map fun v => (v % 2 ^ 64, bad) }) b.vector }

/-- The scratch an operation writes, poisoned when one of its operands is (R221). -/
def opStores (stone : Nat) (o : OpFx) (bad : Bool) (s : State) : State :=
  o.stores.foldl (fun s e => writeScratch stone e.1 (e.2.map fun b => (b, bad)) s) s

/-- The two operations of a bundle: operands are read before results are written, and each poisons its own results only (R154,
R221). -/
def bundleResults (n k stone : Nat) (b : Bed) (fx : BundleFx) (s : State) : State :=
  let p := opPoisoned b stone fx.scalar s
  let q := opPoisoned b stone fx.vector p.2
  opStores stone fx.vector q.1 (opStores stone fx.scalar p.1
    (modBed n k (fun b => (b.write fx.scalar p.1).write fx.vector q.1) q.2))

/-- The first bundle of an item a cog placed: COG_LATENCY (R476). -/
def firstBundle (n : Nat) (i : Item) (s : State) : State :=
  match i.cogAt with
  | none => s
  | some (at_, disp, race) =>
    let s := modItem n (fun i => { i with cogAt := none }) s
    sample 4 (s.core.t - at_)
      (fun m => decide (m.fn = i.fn) && m.within 11 race && (if disp then bit m.filtB 0 else bit m.filtB 1)) s

/-- A bed's control state after a bundle has issued. -/
def Bed.issued (i : Item) (k j t v reg : Nat) (b : Bed) : Bed :=
  let run := bits v 223 160
  let slots := if slotOp run = 0 then b.slots else b.slots ++ [⟨run, if slotOp run = 3 then reg else 0⟩]
  { b with
    slots, pc := j, need := .none
    atSite := if bit v 0 then some (bits v 31 8) else none
    atSince := t
    halted := bit v 1
    waitDma := bit v 2 && (i.dmas.any (fun d => decide (d.stone = k)) || slots.any fun x => decide (slotOp x.word = 3)) }

/-- A bundle in a bed's buffer is decoded and issues: an illegal one faults the gang, a poisoned control operand or OFFREG stops
it, and a DMA_ISSUE is held against the contract (R154, R155, R166, R221). -/
def issueBundle (item stone j v : Nat) (fx : BundleFx) (i : Item) (m : Image) (s : State) : State :=
  let s := firstBundle item i s
  let b := i.bed stone
  let run := bits v 223 160
  let dma := decide (slotOp run = 3)
  let reg := b.scalar.getD (bits run 24 20) {}
  if bundleBad v then gangFault item 11 stone s
  else if (fx.control.any fun r => (b.scalar.getD r {}).bad) || (dma && reg.bad) then poisonStop item stone s
  else
    let s := modBed item stone (Bed.issued i stone j s.core.t v reg.val) (bundleResults item stone (i.stone stone) b fx s)
    match issueFault s i m run reg.val with
    | some c => if dma then gangFault item c stone s else s
    | none => s

/-- A bed decodes and issues a bundle of its stream (R154). One that has not arrived, or that depends on runner instructions
still to do, holds the gang up (R157, R160). -/
def execBundleIssue (item stone index : Nat) (fx : BundleFx) (s : State) : Out :=
  match itemOf s item with
  | none => .next s
  | some i =>
    match imageOf s i.image with
    | none => .next s
    | some m =>
      let b := i.bed stone
      if i.issues m s.core.t = false ∨ b.atSite.isSome ∨ b.halted ∨ (bundleAt m stone index).isNone then .next s
      else if fx.afterRun && b.runnerBusy s.core.t then .next (modBed item stone (fun b => { b with need := .runner }) s)
      else
        match b.bundle index with
        | none => .next (modBed item stone (Bed.want index) s)
        | some v => .next (issueBundle item stone index v fx i m s)

/-! ### The runner (R155, R156) -/

/-- n fresh free values. -/
def freeWords : Nat → State → List Nat × State
  | 0, s => ([], s)
  | n + 1, s =>
    let a := takeFree s
    let r := freeWords n a.2
    (a.1 % 2 ^ 64 :: r.1, r.2)

/-- A runner instruction of an OP is decoded and issued in order, with the operand-address entry its OPER names, which holds the
gang up until the microcode has arrived; its results are free values, poisoned when an operand is (R155, R156, R157, R221; log
entry 32). -/
def runMatmul (item stone op : Nat) (fx : RunnerFx) (s : State) : Out :=
  match itemOf s item with
  | none => .next s
  | some i =>
    match imageOf s i.image, (i.bed stone).slots.find? fun v => decide (slotOp v.word = 1 ∨ slotOp v.word = 2) with
    | some m, some slot =>
      let v := slot.word
      if i.state ≠ .running ∨ slotOp v ≠ op ∨ bits v 63 47 ≠ fx.oper then .next s
      else if 8192 < matmulCycles v then .next (gangFault item 1 stone s)
      else if (i.bed stone).microIn m = false then .next (modBed item stone (fun b => { b with need := .microcode }) s)
      else
        let srcs := if op = 2 then fx.srcs ++ [(8 * fx.dst, 8 * fx.words)] else fx.srcs
        let e := readRanges (i.stone stone) srcs s
        let r := freeWords fx.words e.2
        let s := writeScratch (i.stone stone) (8 * fx.dst) (r.1.flatMap fun w => (leBytes 8 w).map fun b => (b, e.1)) r.2
        .next (modBed item stone (fun b =>
          let start := (b.runner.map (·.end_)).foldl max s.core.t
          { b with
            slots := b.slots.erase slot
            runner := (b.runner.filter fun o => decide (s.core.t < o.end_)) ++ [{ start, end_ := start + cyclesNs s (matmulCycles v) }] }) s)
    | _, _ => .next s

/-- MATMUL. -/
def execMatmul (item stone : Nat) (fx : RunnerFx) (s : State) : Out := runMatmul item stone 1 fx s

/-- MATMUL_ACC. -/
def execMatmulAcc (item stone : Nat) (fx : RunnerFx) (s : State) : Out := runMatmul item stone 2 fx s

/-! ### DMA (R155, R166, R173) -/

/-- The oldest DMA slot of a stone begins, when its template is of an OP; f carries it out. -/
def startDma (item stone op : Nat) (s : State) (f : Item → Image → RunSlot → Issue → State → State) : Out :=
  match itemOf s item with
  | none => .next s
  | some i =>
    match imageOf s i.image with
    | none => .next s
    | some m =>
      if i.state ≠ .running then .next s
      else
        match dmaStart s i m stone with
        | none => .next s
        | some (slot, x) => if x.tmpl.op = op then .next (f i m slot x s) else .next s

/-- A granary's refusal ends a mill's item under the sequence of R167, with the status in the error log (R319). -/
def refuseBin (n status : Nat) (s : State) : State :=
  match itemOf s n with
  | none => s
  | some i => stopGang n (logError { sev := 2, source := 3, plane := 1, code := Config.blockCode 9, fn := i.fn, obj := i.image, detail := status } s)

/-- A near-memory descriptor judged at its bin: steps 1 to 4 and 7 of R305 (R319; 10, When events meet). -/
def nearBin (s : State) (handle : Nat) (x : Issue) : Except Status (Nat × Bin) :=
  let far := ((rowsOf x).map fun r => r.2 + x.tmpl.len).foldl max 0
  match judge s handle none 0 far false with
  | .ok i => .ok (i, binEntry s i)
  | .error e => .error (judgeStatus e.1)

/-- A near-memory item refused at a descriptor: its gang stops, and it ends with the status (R319). -/
def refuseNear (n : Nat) (st : Status) (s : State) : State := stopGang n (modItem n (fun i => { i with ending := some st }) s)

/-- The rows of a READ of a local bin, each one an operation of the tally; a PROXY's data, or the standby's lines that heal a
poisoned one, come with the row (R306, R312, R319, R324). -/
def nearRead (stone : Nat) (x : Issue) (h i : Nat) (bin : BinReply) (s : State) : State :=
  let b := binEntry s i
  let given : List Byte := match bin with | .ok d => d | .refused _ => []
  ((rowsOf x).foldl
    (fun (a : List Byte × State) r =>
      let len := x.tmpl.len
      if b.role = .proxy then
        (a.1.drop len, passOp i (writeScratch stone r.1 ((slice a.1 0 len).map fun d => (d, false)) (emit (.mirror 4 h r.2 len []) a.2)))
      else
        let n := (lineSpan r.2 len).2
        let e := readHealed i r.2 len (if a.1 = [] then none else some (a.1.take n)) (hotRead (b.base + r.2) len a.2)
        (a.1.drop n, passOp i (writeScratch stone r.1 e.1 e.2))) (given, s)).2

/-- The rows of a WRITE to a local bin: done as PROXY on the standby, forwarded to the other copy and acknowledged by it, or done
here (R310 to R312, R319, R324). -/
def nearWrite (item stone i h : Nat) (l : List (Nat × List PByte)) (s : State) : State :=
  l.foldl
    (fun s r =>
      let w := writeCopy i r.1 r.2 s
      if (binEntry s i).role ≠ .proxy ∧ w.1 then
        (admitOp { bin := i, epoch := 0, kind := .write true, offset := r.1, len := r.2.length, handle := h, who := some (item, stone) } w.2.2).2
      else passOp i w.2.2) s

/-- DMA_READ: into scratch from memory, the arena or a bin. -/
def execDmaRead (item stone : Nat) (bus : Bus) (bin : BinReply) (s : State) : Out :=
  startDma item stone 1 s fun i _ slot x s =>
    let s := noteStart item stone slot 1 s
    let len := x.tmpl.len
    let put (s : State) (get : Nat → State → List PByte × State) : State :=
      (rowsOf x).foldl (fun s r =>
        let e := get r.2 s
        writeScratch (i.stone stone) r.1 e.1 e.2) s
    match x.bound with
    | .mem segs | .arena segs =>
      put s fun off s =>
        readRuns bus (subSegs segs off len) s
    | .bin h =>
      if isGranary s then
        let s := readEntry false false h s
        match nearBin s h x with
        | .error st => refuseNear item st s
        | .ok (k, b) =>
          match decide (b.role = .proxy), bin with
          | true, .refused st => refuseNear item (Status.ofCode st) s
          | _, _ => nearRead (i.stone stone) x h k bin s
      else
        match bin with
        | .refused st => refuseBin item st (emit (.binOp (hopperQp s i.fn (handleGranary h)) h x.off len none) s)
        | .ok data =>
          (rowsOf x).zipIdx.foldl (fun s e =>
            writeScratch (i.stone stone) e.1.1 ((slice data (e.2 * len) len).map fun b => (b, false)) (emit (.binOp (hopperQp s i.fn (handleGranary h)) h e.1.2 len none) s)) s
    | .tail => s

/-- The rows of a WRITE read out of scratch, in order. -/
def writeRows (stone : Nat) (x : Issue) (s : State) : List (Nat × List PByte) × State :=
  (rowsOf x).foldl (fun (a : List (Nat × List PByte) × State) r =>
    let e := readScratch stone r.1 x.tmpl.len a.2
    (a.1 ++ [(r.2, e.1)], e.2)) ([], s)

/-- A WRITE to a bin falls in the chunk being copied: it waits for the chunk (R311). -/
def chunkBusy (s : State) (x : Issue) : Bool :=
  match x.bound with
  | .bin h => isGranary s && (match localBin s h with | some (i, _) => (rowsOf x).any fun r => inChunk s i r.2 x.tmpl.len | none => false)
  | _ => false

/-- DMA_WRITE: from scratch to its binding, through the gate where R28 requires it (R136, R137). -/
def execDmaWrite (item stone : Nat) (bin : BinReply) (s : State) : Out :=
  startDma item stone 2 s fun i _ slot x s =>
    if chunkBusy s x then s
    else
    let e := writeRows (i.stone stone) x s
    let dest (segs : List Seg) (off : Nat) : Nat → Nat → Dest := fun o n => .mem (subSegs segs (off + o) n)
    let recs : List HeldWrite := match x.bound with
      | .mem segs => e.1.flatMap fun r => recordsOf (dest segs r.1) r.2
      | .bin h => e.1.flatMap fun r => recordsOf (fun o _ => .bin h (r.1 + o)) r.2
      | _ => []
    let direct (s : State) : State :=
      match x.bound with
      | .arena segs => e.1.foldl (fun s r => writeSegs (subSegs segs r.1 r.2.length) r.2 s) s
      | .mem segs => e.1.foldl (fun s r => writeHeld { asid := 0, va := 0, len := 0, segs := subSegs segs r.1 r.2.length } r.2 s) s
      | .bin h =>
        if isGranary s then
          let s := readEntry false false h s
          match nearBin s h x with
          | .error st => refuseNear item st s
          | .ok (k, b) =>
            match decide (b.role = .proxy), bin with
            | true, .refused st => refuseNear item (Status.ofCode st) s
            | _, _ => nearWrite item stone k h e.1 s
        else
          let s := e.1.foldl (fun s r => emit (.binOp (hopperQp s i.fn (handleGranary h)) h r.1 r.2.length (some r.2)) s) s
          match bin with
          | .refused st => refuseBin item st s
          | .ok _ => s
      | .tail => s
    match x.bound, i.owner with
    | .arena _, _ => direct (noteStart item stone slot 2 e.2)
    | _, .sail t k =>
      let v := sailOf s t k
      if v.state = .set ∧ v.writes = [] then direct (noteStart item stone slot 2 e.2)
      else
        let bytes := heldBytes recs
        if 262144 < heldBytes v.writes + bytes ∨ 1024 < v.writes.length + recs.length then stallSail item t k 1 bytes recs.length s
        else modSail t k (fun v => { v with writes := v.writes ++ recs }) (noteStart item stone slot 2 e.2)
    | _, _ => direct (noteStart item stone slot 2 e.2)

/-- The length of a TAIL_FRAME's payload is its race's TFRAME length; a turn's final frame may be shorter (R90, R97). -/
def frameFits (r : Race) (len : Nat) (last : Bool) : Bool :=
  let whole := 2 * (r.tframe * rateOf r.trate / 400)
  if last then decide (len ≤ whole) else decide (len = whole)

/-- DMA_TAIL_FRAME: one tailrace frame of the turn's race, through the gate (R136 to R138, R221). A payload of another length
than the race's frames have faults the gang as one that ranges past its binding, and a frame of turn-level work, which belongs to
no sail, carries SAIL 0 (DESIGN CHOICE, log entry 105). -/
def execDmaTailFrame (item stone : Nat) (last : Bool) (s : State) : Out :=
  startDma item stone 3 s fun i _ slot x s =>
    let e := readScratch (i.stone stone) x.tmpl.scratch x.tmpl.len s
    let t := i.turn?.getD 0
    let race := (turnOf s t).race
    let f : HeldFrame := { nsmp := x.tmpl.len / 2, data := e.1.map (·.1), last }
    match raceOf s race with
    | none => noteStart item stone slot 3 e.2
    | some r =>
      if frameFits r x.tmpl.len last = false then gangFault item 9 stone s
      else if e.1.any fun b => b.2 then raise 0x7005 i.fn race 0 0 race 0 (noteStart item stone slot 3 e.2)
      else
        match i.owner with
        | .sail t k =>
          let v := sailOf s t k
          if 512 ≤ v.audio.length ∨ 96000 < heldSmp v.audio + f.nsmp then stallSail item t k 0 f.nsmp 1 s
          else modSail t k (fun v => { v with audio := v.audio ++ [f] }) (noteStart item stone slot 3 e.2)
        | _ =>
          if ringFull r && r.markers.isEmpty then tellFull race s
          else if frameGoes s r = false then s
          else noteFirst t (releaseFrame race t 0 (!(turnOf s t).first) {} f (noteStart item stone slot 3 e.2))

/-- DMA_VOICED: the voiced flag and V (R99), from 16 bytes of scratch: V in bytes 0 to 7, the flag in bit 0 of byte 8. -/
def execDmaVoiced (item stone : Nat) (s : State) : Out :=
  startDma item stone 4 s fun i _ slot x s =>
    let e := readScratch (i.stone stone) x.tmpl.scratch 16 s
    let s := noteStart item stone slot 4 e.2
    if e.1.any fun b => b.2 then scratchPoison i stone s
    else
      let l := e.1.map (·.1)
      modRace (turnOf s (i.turn?.getD 0)).race (fun r =>
        { r with v := min (num l 0 8 % 2 ^ 48) r.h, voiced := bit (num l 8 1) 0, gap := 0 }) s

/-- A started descriptor of a stone ends; the last one releases a bed on WAIT_DMA (R160). -/
def execDmaDescriptorDone (item stone : Nat) (s : State) : Out :=
  match itemOf s item with
  | none => .next s
  | some i =>
    match i.dmas.find? fun d => decide (d.stone = stone) with
    | none => .next s
    | some d =>
      if s.tly.tokens.any fun t => decide (t.2.who = some (item, stone)) then .next s
      else
      let dmas := i.dmas.erase d
      let more := dmas.any (fun d => decide (d.stone = stone)) || (i.bed stone).slots.any fun v => decide (slotOp v.word = 3)
      .next (modItem item (fun i =>
        { i with dmas, beds := if more then i.beds else i.beds.modify stone fun b => { b with waitDma := false } }) s)

/-! ### The spur mesh (R158, R166) -/

/-- Steps from a to b along one axis: the positions left, and whether they rise. -/
def axisSteps (a b : Nat) : List Nat := if a ≤ b then (List.range (b - a)).map (a + ·) else (List.range (a - b)).map (a - ·)

/-- The links of a route in order: stone × 4 + direction (0 east, 1 west, 2 north, 3 south). -/
def routeOf (src dst : Nat) (yx : Bool) : List Nat :=
  let (f, c, g, d) := (src / 16, src % 16, dst / 16, dst % 16)
  let cols (floor : Nat) : List Nat := (axisSteps c d).map fun x => (16 * floor + x) * 4 + if c ≤ d then 0 else 1
  let rows (col : Nat) : List Nat := (axisSteps f g).map fun x => (16 * x + col) * 4 + if f ≤ g then 2 else 3
  if yx then rows c ++ cols g else cols f ++ rows d

/-- Two sends hold one link in one cycle. -/
def linkClash (a : Nat × Nat) (na : Nat) (fl : Flight) : Bool :=
  fl.links.any fun b => decide (a.1 = b.1) && decide (a.2 < b.2 + fl.beats) && decide (b.2 < a.2 + na)

/-- A send entry moves its beats at its schedule cycle (R158, R159), checked for bounds and collision (R166); they arrive as the
gang advances. One whose stone's schedule has not arrived holds the gang up (R157). -/
def execSpurSend (item stone : Nat) (send : Spur) (s : State) : Out :=
  match itemOf s item with
  | none => .next s
  | some i =>
    match imageOf s i.image with
    | none => .next s
    | some m =>
      if i.issues m s.core.t = false ∨ send.site ≠ i.site ∨ i.adv < send.cycle ∨ send.cycle + 1 < i.adv then .next s
      else if 16 * i.floors ≤ send.dest ∨ 16 * i.floors ≤ stone then .next (gangFault item 5 stone s)
      else if (i.bed stone).spurIn m stone = false then .next (modBed item stone (fun b => { b with need := .schedule }) s)
      else
        let route := routeOf stone send.dest send.yx
        let links := route.zipIdx.map fun e => (e.1, send.cycle + e.2)
        if i.flights.any fun fl => links.any fun a => linkClash a send.beats fl then .next (gangFault item 4 stone s)
        else
          let e := readScratch (i.stone stone) (64 * send.src) (512 * send.beats) s
          .next (modItem item (fun i =>
            { i with flights := i.flights ++ [{ links, beats := send.beats, src := stone, dest := send.dest,
                                                first := send.cycle + route.length, data := e.1 }] }) e.2)

/-- The receive entry that a flight's beats meet: the same stone, site, cycle, beats and source (R158, R166). -/
def Item.recvFor (i : Item) (fl : Flight) : Option Recv :=
  i.recvs.find? fun r =>
    decide (r.stone = fl.dest ∧ r.site = i.site ∧ r.cycle = fl.first ∧ r.beats = fl.beats ∧ r.src = fl.src)

/-- Beats of a flight that have arrived by a schedule cycle. -/
def Flight.due (adv : Nat) (fl : Flight) : Nat := min fl.beats (adv + 1 - fl.first)

/-- The beats of an item's j-th flight that have come due are written to their destination, poison with them (R158, R221); beats
with no receive entry fault the gang (R166). -/
def landFlight (n j : Nat) (s : State) : State :=
  match itemOf s n with
  | none => s
  | some i =>
    match i.flights[j]? with
    | none => s
    | some fl =>
      let due := fl.due i.adv
      if i.state ≠ .running ∨ due ≤ fl.landed then s
      else
        match i.recvFor fl with
        | none => gangFault n 6 fl.dest s
        | some r =>
          modItem n (fun i => { i with flights := i.flights.set j { fl with landed := due } })
            (writeScratch (i.stone fl.dest) (64 * r.dst + 512 * fl.landed)
              ((fl.data.drop (512 * fl.landed)).take (512 * (due - fl.landed))) s)

/-- A receive entry whose last cycle has come without its beats (R166). -/
def Item.missing (i : Item) : Option Recv :=
  i.recvs.find? fun r =>
    decide (r.site = i.site) && decide (r.cycle + r.beats ≤ i.adv + 1) && !i.flights.any fun fl => decide (i.recvFor fl = some r)

/-- The mesh of a gang at the schedule cycle it has come to: beats arrive, and a receive entry left without them faults the
gang. -/
def meshAt (n : Nat) (s : State) : State :=
  match itemOf s n with
  | none => s
  | some i =>
    let s := forEach (List.range i.flights.length) (landFlight n) s
    match (itemOf s n).bind fun i => if i.state = .running then i.missing else none with
    | some r => gangFault n 7 r.stone s
    | none => s

/-! ### Grist boundaries and yields (R161 to R163) -/

/-- LIVE_BYTES of a site. -/
def liveBytes (m : Image) (site : Nat) : Nat :=
  match m.segs.find? fun e => decide (e.site = site) with
  | some e => e.live
  | none => 0

/-- The live scratch of a block, by relative stone (R163). -/
def saveWords (i : Item) (m : Image) (site : Nat) (s : State) : Tbl (Tbl OWord) × State :=
  let l := (List.range (16 * i.floors)).map fun k => (k, i.stone k)
  let s := l.foldl (fun s e => flushInst e.2 s) s
  (l.map fun e => (e.1, (ocpInst s e.2).words.filter fun w => decide (8 * w.1 < liveBytes m site)), s)

/-- The gang passes a boundary, and yields there when asked in time (R161, R163). -/
def passBoundary (n : Nat) (i : Item) (m : Image) (site : Nat) (s : State) : State :=
  let yields := match i.yieldAt with
    | some t => i.beds.all fun b => b.2.atSite.isNone || decide (t < b.2.atSince)
    | none => false
  let beds := i.beds.mapVal fun _ b => { b with atSite := none }
  let s := modItem n (fun i => { i with beds, site, adv := 0, flights := [], resumed := false }) s
  if yields then
    let e := saveWords i m site s
    let s := modItem n (fun i => { i with state := .yielding, saved := some { beds, words := e.1 } }) e.2
    if i.preempt then
      raise 0x4007 i.fn i.place.1 i.place.2.1 0 i.image 0 (s.modTrn fun r => { r with preempts := sat 0xFFFF (r.preempts + 1) })
    else s
  else s

/-- Every stone of the gang has reached a grist bundle, the first of them that at `site` (R161, R166). -/
def execGristBoundary (item site : Nat) (s : State) : Out :=
  match itemOf s item with
  | none => .next s
  | some i =>
    match imageOf s i.image with
    | none => .next s
    | some m =>
      let l := activeStones m
      let sites := l.filterMap fun k => (i.bed k).atSite
      if i.state ≠ .running ∨ sites.length ≠ l.length ∨ sites.head? ≠ some site then .next s
      else
        match l.find? fun k => decide ((i.bed k).atSite ≠ some site) with
        | some k => .next (gangFault item 3 k s)
        | none =>
          if i.flights.any fun fl => decide (fl.landed < fl.beats) then .next (gangFault item 8 (l.headD 0) s)
          else .next (passBoundary item i m site s)

/-- Every stone's save has been written: the block is free and the item is ready again (R163, R181). -/
def execYieldSaveDone (item : Nat) (s : State) : Out :=
  match itemOf s item with
  | none => .next s
  | some i =>
    if i.state ≠ .yielding then .next s
    else
      let mine (w : FenceWait) : Bool := !i.preempt && w.stones.any fun n => decide (i.base ≤ n / 16) && decide (n / 16 < i.base + i.floors)
      let s := s.modStn fun x => { x with fences := x.fences.map fun w => if mine w then { w with yields := w.yields + 1 } else w }
      let s := modItem item (fun i => { i with state := .ready, yieldAt := none, preempt := false, yieldFor := none, beds := [], dmas := [] }) s
      .next (releaseBlock i.base i.floors s)

/-- 16,384 advancing cycles without a boundary (R162). -/
def execGristOverdue (item : Nat) (s : State) : Out :=
  match itemOf s item with
  | none => .next s
  | some i => onEvent (decide (i.state = .running) && decide (16384 ≤ i.adv)) s (gangFault item 2 0)

/-- Every stone of the gang has issued HALT (R165). -/
def execStageHalt (item : Nat) (s : State) : Out :=
  match itemOf s item with
  | none => .next s
  | some i =>
    match imageOf s i.image with
    | none => .next s
    | some m =>
      let l := activeStones m
      onEvent (decide (i.state = .running) && !l.isEmpty && l.all fun k => (i.bed k).halted) s (endStage item i)

/-- A faulted gang's stones are free and its item ends (R167, R318). -/
def execGangFaultDrainEnd (item : Nat) (s : State) : Out :=
  match itemOf s item with
  | none => .next s
  | some i =>
    if i.state ≠ .faulted ∨ i.runnersAt s.core.t ≠ 0 then .next s
    else
      match i.owner with
      | .nearMem _ => .next (endNearMem item (i.ending.getD .internal) s)
      | .turn t => .next (freeTurn t (dropItem item s))
      | .sweep _ bin => .next (disturb bin 7 (dropItem item s))
      | .sail _ _ => .next (dropItem item s)

end Sys2Proof.Machine
end

