-- ==== Sys2Proof/Machine/Turn.lean ====
section
/-! DEFINITION. The Turn commands, furls as they end, and releases of the commit gate (04). -/

namespace Sys2Proof.Machine

/-! ### TURN_BEGIN, TURN_END (R122, R124) -/

/-- TURN_BEGIN (R122). -/
def execTurnBegin (id : CmdId) (s : State) : Out :=
  onCmd .turnBegin id s fun c s =>
    let p := c.pkt
    let t := c.context
    let race := fld p 2 10 0
    checks [
      (turnInUse s t, invalid c 4),
      fields c [
        ((match raceOf s race with | some r => decide (r.fn ≠ c.fn) | none => true), 8), rsv p 2 31 11,
        (decide (dw p 3 ≠ 0 ∧ (dw p 3 < 1000 ∨ 1000000 < dw p 3)), 12), (decide (4 < fld p 4 2 0), 16), rsv p 4 31 3],
      deny (liveTurn s race).isSome ((liveTurn s race).getD 0) c,
      noRes (quotaOf s 0x03 c.fn 64 ≤ turnsOf s c.fn) c]
      (fun s =>
        let target := if dw p 3 = 0 then 1000 * feature s 0x20 c.fn 60 else dw p 3
        let x : Turn :=
          { state := .listening, fn := c.fn, race, target, maxSails := if fld p 4 2 0 = 0 then 4 else fld p 4 2 0,
            sails := (turnOf s t).sails }
        succeed c (s.modTrn fun r => { r with turns := r.turns.set t x })) s

/-- TURN_END (R124). -/
def execTurnEnd (id : CmdId) (s : State) : Out :=
  onCmd .turnEnd id s fun c s =>
    let t := c.context
    let x := turnOf s t
    checks [(decide (x.state = .free ∨ x.fn ≠ c.fn), invalid c 4), fields c [rsv c.pkt 2 31 1]]
      (fun s =>
        let wait (s : State) : State := modTurn t (fun x => { x with endCmds := x.endCmds ++ [id] }) (accept c s)
        match x.state with
        | .listening | .speculating => retireTurn t (some 2) (furlRaised t 4 .furled (wait s))
        | .committed =>
          if fbit c.pkt 2 0 then forEach (x.sailsIn .set) (fun k s => furlSail t k 4 .furled s) (wait s) else wait s
        | _ => complete c .success (turnItems s t) 0 s) s

/-! ### Sails (R127 to R134) -/

/-- The turn of a Turn-class command that names a sail, when it is the function's. -/
def ctxTurn (c : Cmd) : Nat := bits c.context 5 0
/-- The sail it names. -/
def ctxSail (c : Cmd) : Nat := bits c.context 17 16

/-- The turn belongs to the function (R48 check 6); a FREE slot belongs to no other. -/
def turnForeign (s : State) (c : Cmd) : Bool :=
  turnInUse s (ctxTurn c) && decide ((turnOf s (ctxTurn c)).fn ≠ c.fn)

/-- SAIL_RAISE (R127). -/
def execSailRaise (id : CmdId) (s : State) : Out :=
  onCmd .sailRaise id s fun c s =>
    let p := c.pkt
    let t := ctxTurn c
    let useV := fbit p 5 0
    checks [(turnForeign s c, invalid c 4),
        fields c [(!useV && decide (2 ^ 48 ≤ qw p 3), 12), rsv p 5 31 1]]
      (fun s =>
        let v := match raceOf s (turnOf s t).race with | some r => r.v | none => 0
        match raiseSail { turn := t, slot := ctxSail c, chain := fld p 2 15 0, stage := fld p 2 23 16, gang := fld p 2 31 24,
                          hyp := if useV then v else qw p 3, cmd := some id } s with
        | .ok s => accept c s
        | .error (.busyRetry, _, us_) => stallOr c .busyRetry us_ s
        | .error (st, r, r2) => complete c st r r2 s) s

/-- SAIL_SET (R130, R131). -/
def execSailSet (id : CmdId) (s : State) : Out :=
  onCmd .sailSet id s fun c s =>
    let t := ctxTurn c
    let k := ctxSail c
    let v := sailOf s t k
    checks [(turnForeign s c, invalid c 4)]
      (fun s =>
        match v.state with
        | .raised => complete c .success (heldSmp v.audio) 0 (setSail t k s)
        | .set => succeed c s
        | .free => invalid c 4 s
        | _ => complete c .furled 0 0xFFFFFFFF s) s

/-- SAIL_FURL (R132): it completes at DRAINING. -/
def execSailFurl (id : CmdId) (s : State) : Out :=
  onCmd .sailFurl id s fun c s =>
    let t := ctxTurn c
    let k := ctxSail c
    let wait (s : State) : State := modSail t k (fun v => { v with furlCmds := v.furlCmds ++ [id] }) (accept c s)
    checks [(turnForeign s c, invalid c 4)]
      (fun s =>
        match (sailOf s t k).state with
        | .raised | .set => furlSail t k 1 .furled (wait s)
        | .furling => wait s
        | _ => complete c .success 0 0xFFFFFFFF s) s

/-- Every stone of a furling sail is idle (R126, R132, R133): its block is left and it is DRAINING. With no sail named, of
the turn-level work a close of the race cancelled (R123). -/
def execFurlStonesIdle (turn : Nat) (sail : Option Nat) (s : State) : Out :=
  let mine (i : Item) : Bool :=
    decide (i.state = .furled) &&
      (match sail with | some k => i.ofSail turn k | none => decide (i.owner = .turn turn))
  let idle := (itemsWhere s mine).all fun e => decide (e.2.runnersAt s.core.t = 0)
  if idle = false then .next s
  else
    let drop (s : State) : State := (itemsWhere s mine).foldl (fun s e => dropItem e.1 s) s
    match sail with
    | none => .next (freeTurn turn (drop s))
    | some k => if (sailOf s turn k).state = .furling then .next (drainSail turn k (drop s)) else .next s

/-- Every started transfer of a draining sail has ended (R126). -/
def execSailDrainEnd (turn sail : Nat) (s : State) : Out :=
  onEvent (decide ((sailOf s turn sail).state = .draining)) s (freeSail turn sail)

/-- A released arena's zero fill ends (R207). -/
def execArenaZeroFillEnd (offset : Nat) (s : State) : Out :=
  match s.mem.arenas.get offset with
  | none => .next s
  | some a =>
    onEvent a.filling s fun s =>
      s.modMem fun m => { zeroRange m (arenaBase s + offset) a.len with arenas := m.arenas.erase offset }

/-! ### Releases (R138 to R140) -/

/-- Audio of an earlier sail of a race is still to be released. -/
def audioBefore (s : State) (race : Nat) : Bool := s.trn.leaving.any fun l => decide (l.race = race) && !l.v.audio.isEmpty

/-- The gate's part of a sail that has left its slot. -/
def leavingOf (s : State) (turn sail : Nat) : Option Leaving :=
  s.trn.leaving.find? fun l => decide (l.turn = turn) && decide (l.idx = sail)

/-- What is left of it: nothing more is kept once its holds are empty. -/
def setLeaving (l l' : Leaving) (s : State) : State :=
  s.modTrn fun r =>
    { r with leaving := (r.leaving.map fun x => if x = l then l' else x).filter fun x => !(x.v.audio.isEmpty && x.v.writes.isEmpty) }

/-- The gate releases the next frame of a set sail, or of one that has left its slot (R97, R138, R139). -/
def execTailFrameRelease (turn sail : Nat) (s : State) : Out :=
  match leavingOf s turn sail with
  | some l =>
    match raceOf s l.race, l.v.audio with
    | some r, f :: rest =>
      if s.core.datReset then .next s
      else if ringFull r && r.markers.isEmpty then .next (tellFull l.race s)
      else if frameGoes s r = false then .next s
      else
        let l' : Leaving := { l with first := true, v := { l.v with audio := rest, lastOut := f.last } }
        let s := setLeaving l l' (releaseFrame l.race turn sail (!l.first) l.v f s)
        let s := if (turnOf s turn).state = .retiring then noteFirst turn s else s
        .next (if rest = [] then endAudio l' s else s)
    | _, _ => .next s
  | none =>
    let x := turnOf s turn
    let v := x.sail sail
    match raceOf s x.race, v.audio with
    | some r, f :: rest =>
      if v.state ≠ .set ∨ s.core.datReset ∨ audioBefore s x.race then .next s
      else if ringFull r && r.markers.isEmpty then .next (tellFull x.race s)
      else if frameGoes s r = false then .next s
      else
        let s := modSail turn sail (fun v => { v with audio := rest, lastOut := f.last }) s
        .next (gateRoom turn sail (noteFirst turn (releaseFrame x.race turn sail (!x.first) v f s)))
    | _, _ => .next s

/-- A held write carried out: to memory, or to a bin by its handle (R136, R319). -/
def putWrite (fn : Nat) (w : HeldWrite) (s : State) : State :=
  match w.dest with
  | .mem segs => writeSegs segs w.data (useRuns segs s)
  | .bin h o => emit (.binOp (hopperQp s fn (handleGranary h)) h o w.data.length (some w.data)) s

/-- A held write released for a function's turn and sail, or failed with a status (R138, R140). -/
def releaseWrite (fn turn sail : Nat) (failure : Option Nat) (w : HeldWrite) (s : State) : State :=
  match failure, w.dest with
  | some st, _ => raise 0x4008 fn turn sail 0 (st % 2 ^ 8) 0 s
  | none, .mem segs =>
    let s := putWrite fn w s
    if segs.any (segDown s) then raise 0x4008 fn turn sail 0 Status.poisoned.code 0 s else s
  | none, _ => putWrite fn w s

/-- The next held write of a set sail, or of one that has left its slot, is released or fails with a status (R138, R140). -/
def execHeldWriteRelease (turn sail : Nat) (failure : Option Nat) (s : State) : Out :=
  match leavingOf s turn sail with
  | some l =>
    match l.v.writes with
    | [] => .next s
    | w :: rest =>
      if s.core.datReset then .next s
      else .next (releaseWrite l.fn turn sail failure w (setLeaving l { l with v := { l.v with writes := rest } } s))
  | none =>
    let x := turnOf s turn
    let v := x.sail sail
    match v.writes with
    | [] => .next s
    | w :: rest =>
      if v.state ≠ .set ∨ s.core.datReset then .next s
      else
        let s := modSail turn sail (fun v => { v with writes := rest }) s
        .next (gateRoom turn sail (releaseWrite x.fn turn sail failure w s))

end Sys2Proof.Machine
end

