-- ==== Sys2Proof/Machine/Dispatch.lean ====
section
/-! DEFINITION. The dispatch of a command to its meaning. -/

namespace Sys2Proof.Machine

/-- What a command does to everything but the queue. -/
def exec (i : Instr) (s : State) : Host.Outcome State Fault Refusal :=
  match i with
  | .coldReset pop => Sys2Proof.Machine.execColdReset pop s
  | .roleFillEnd => Sys2Proof.Machine.execRoleFillEnd s
  | .warmReset => Sys2Proof.Machine.execWarmReset s
  | .perstNDeassert => Sys2Proof.Machine.execPerstNDeassert s
  | .ctlPlaneReset by_ => Sys2Proof.Machine.execCtlPlaneReset by_ s
  | .datPlaneReset by_ => Sys2Proof.Machine.execDatPlaneReset by_ s
  | .mgtPlaneReset by_ => Sys2Proof.Machine.execMgtPlaneReset by_ s
  | .ctlResetEnd => Sys2Proof.Machine.execCtlResetEnd s
  | .datResetEnd => Sys2Proof.Machine.execDatResetEnd s
  | .mwRestart => Sys2Proof.Machine.execMwRestart s
  | .recoverySpiRelease => Sys2Proof.Machine.execRecoverySpiRelease s
  | .lockstepMismatch cls => Sys2Proof.Machine.execLockstepMismatch cls s
  | .watchdogExpiry => Sys2Proof.Machine.execWatchdogExpiry s
  | .watchdogKick val => Sys2Proof.Machine.execWatchdogKick val s
  | .datNoProgressTimeout source => Sys2Proof.Machine.execDatNoProgressTimeout source s
  | .mwForwardedCommand => Sys2Proof.Machine.execMwForwardedCommand s
  | .forwardedCompletion => Sys2Proof.Machine.execForwardedCompletion s
  | .powerNotice => Sys2Proof.Machine.execPowerNotice s
  | .whlHeartbeatSend => Sys2Proof.Machine.execWhlHeartbeatSend s
  | .whlHeartbeatReceive => Sys2Proof.Machine.execWhlHeartbeatReceive s
  | .ctlHeartbeatLost => Sys2Proof.Machine.execCtlHeartbeatLost s
  | .headroomGrant => Sys2Proof.Machine.execHeadroomGrant s
  | .grantLapse => Sys2Proof.Machine.execGrantLapse s
  | .domainTimeAdjustment servo offset synced => Sys2Proof.Machine.execDomainTimeAdjustment servo offset synced s
  | .domainAgentSleepVote post => Sys2Proof.Machine.execDomainAgentSleepVote post s
  | .errorRecordMessage => Sys2Proof.Machine.execErrorRecordMessage s
  | .planeFatalNotice => Sys2Proof.Machine.execPlaneFatalNotice s
  | .sensorRequest post => Sys2Proof.Machine.execSensorRequest post s
  | .stoneFenceRequest stone floor => Sys2Proof.Machine.execStoneFenceRequest stone floor s
  | .portModeRequest p mode retrain => Sys2Proof.Machine.execPortModeRequest p mode retrain s
  | .dimmBistRequest pair => Sys2Proof.Machine.execDimmBistRequest pair s
  | .sqTailDoorbell fn idx val => Sys2Proof.Machine.execSqTailDoorbell fn idx val s
  | .cqHeadDoorbell fn idx val => Sys2Proof.Machine.execCqHeadDoorbell fn idx val s
  | .commandFetch sq f attachment => Sys2Proof.Machine.execCommandFetch sq f attachment s
  | .fencedCommandStart id => Sys2Proof.Machine.execFencedCommandStart id s
  | .stallResume id => Sys2Proof.Machine.execStallResume id s
  | .stallTimeout id => Sys2Proof.Machine.execStallTimeout id s
  | .cqCoalesceTimeout cq => Sys2Proof.Machine.execCqCoalesceTimeout cq s
  | .queueCreate fn => Sys2Proof.Machine.execQueueCreate fn s
  | .queueDelete fn => Sys2Proof.Machine.execQueueDelete fn s
  | .sqDeleteDone sq => Sys2Proof.Machine.execSqDeleteDone sq s
  | .vfQrangeWrite fn n val => Sys2Proof.Machine.execVfQrangeWrite fn n val s
  | .registerWrite by_ off val => Sys2Proof.Machine.execRegisterWrite by_ off val s
  | .flrVf n => Sys2Proof.Machine.execFlrVf n s
  | .flrPf => Sys2Proof.Machine.execFlrPf s
  | .pcieHotReset => Sys2Proof.Machine.execPcieHotReset s
  | .nop id => Sys2Proof.Machine.execNop id s
  | .identify id => Sys2Proof.Machine.execIdentify id s
  | .getLog id => Sys2Proof.Machine.execGetLog id s
  | .eventWaitTimeout id => Sys2Proof.Machine.execEventWaitTimeout id s
  | .setFeature id => Sys2Proof.Machine.execSetFeature id s
  | .getFeature id => Sys2Proof.Machine.execGetFeature id s
  | .abort id => Sys2Proof.Machine.execAbort id s
  | .raceOpen id => Sys2Proof.Machine.execRaceOpen id s
  | .raceClose id => Sys2Proof.Machine.execRaceClose id s
  | .raceAnchor id => Sys2Proof.Machine.execRaceAnchor id s
  | .playoutReport id => Sys2Proof.Machine.execPlayoutReport id s
  | .cogSet id => Sys2Proof.Machine.execCogSet id s
  | .cogClear id => Sys2Proof.Machine.execCogClear id s
  | .raceQuery id => Sys2Proof.Machine.execRaceQuery id s
  | .ingressSeqWrite race slot seq => Sys2Proof.Machine.execIngressSeqWrite race slot seq s
  | .reportSlotWrite race w => Sys2Proof.Machine.execReportSlotWrite race w s
  | .tailReadSeqWrite race seq => Sys2Proof.Machine.execTailReadSeqWrite race seq s
  | .wheelhouseTick ue => Sys2Proof.Machine.execWheelhouseTick ue s
  | .cogDueExpiry race slot => Sys2Proof.Machine.execCogDueExpiry race slot s
  | .dryDueExpiry race => Sys2Proof.Machine.execDryDueExpiry race s
  | .turnBegin id => Sys2Proof.Machine.execTurnBegin id s
  | .sailRaise id => Sys2Proof.Machine.execSailRaise id s
  | .sailSet id => Sys2Proof.Machine.execSailSet id s
  | .sailFurl id => Sys2Proof.Machine.execSailFurl id s
  | .turnEnd id => Sys2Proof.Machine.execTurnEnd id s
  | .furlStonesIdle turn sail => Sys2Proof.Machine.execFurlStonesIdle turn sail s
  | .sailDrainEnd turn sail => Sys2Proof.Machine.execSailDrainEnd turn sail s
  | .arenaZeroFillEnd offset => Sys2Proof.Machine.execArenaZeroFillEnd offset s
  | .tailFrameRelease turn sail => Sys2Proof.Machine.execTailFrameRelease turn sail s
  | .heldWriteRelease turn sail failure => Sys2Proof.Machine.execHeldWriteRelease turn sail failure s
  | .imageLoad id bus => Sys2Proof.Machine.execImageLoad id bus s
  | .imageUnload id => Sys2Proof.Machine.execImageUnload id s
  | .imageQuery id => Sys2Proof.Machine.execImageQuery id s
  | .chainBind id bus => Sys2Proof.Machine.execChainBind id bus s
  | .chainUnbind id => Sys2Proof.Machine.execChainUnbind id s
  | .stoneFence id => Sys2Proof.Machine.execStoneFence id s
  | .stoneReinstate id => Sys2Proof.Machine.execStoneReinstate id s
  | .reinstateBistEnd stone pass => Sys2Proof.Machine.execReinstateBistEnd stone pass s
  | .matmul item stone fx => Sys2Proof.Machine.execMatmul item stone fx s
  | .matmulAcc item stone fx => Sys2Proof.Machine.execMatmulAcc item stone fx s
  | .gangFaultDrainEnd item => Sys2Proof.Machine.execGangFaultDrainEnd item s
  | .dmaRead item stone bus bin => Sys2Proof.Machine.execDmaRead item stone bus bin s
  | .dmaWrite item stone bin => Sys2Proof.Machine.execDmaWrite item stone bin s
  | .dmaTailFrame item stone last => Sys2Proof.Machine.execDmaTailFrame item stone last s
  | .dmaVoiced item stone => Sys2Proof.Machine.execDmaVoiced item stone s
  | .dmaDescriptorDone item stone => Sys2Proof.Machine.execDmaDescriptorDone item stone s
  | .spurSend item stone send => Sys2Proof.Machine.execSpurSend item stone send s
  | .gristBoundary item site => Sys2Proof.Machine.execGristBoundary item site s
  | .yieldSaveDone item => Sys2Proof.Machine.execYieldSaveDone item s
  | .gristOverdue item => Sys2Proof.Machine.execGristOverdue item s
  | .stageHalt item => Sys2Proof.Machine.execStageHalt item s
  | .map id => Sys2Proof.Machine.execMap id s
  | .unmap id => Sys2Proof.Machine.execUnmap id s
  | .unmapDestroy id => Sys2Proof.Machine.execUnmapDestroy id s
  | .xlateInvalidate id => Sys2Proof.Machine.execXlateInvalidate id s
  | .invalidateDrainEnd id => Sys2Proof.Machine.execInvalidateDrainEnd id s
  | .copy id => Sys2Proof.Machine.execCopy id s
  | .copyDone id bus => Sys2Proof.Machine.execCopyDone id bus s
  | .bar4Write fn off data => Sys2Proof.Machine.execBar4Write fn off data s
  | .bar4Read fn off n bus => Sys2Proof.Machine.execBar4Read fn off n bus s
  | .hopperReadComplete race slot off r => Sys2Proof.Machine.execHopperReadComplete race slot off r s
  | .ddrPairFault pair reason => Sys2Proof.Machine.execDdrPairFault pair reason s
  | .ddrBistFillEnd pair pass => Sys2Proof.Machine.execDdrBistFillEnd pair pass s
  | .patrolScrub ch errs => Sys2Proof.Machine.execPatrolScrub ch errs s
  | .memProbe val => Sys2Proof.Machine.execMemProbe val s
  | .partialWrite inst word lanes who => Sys2Proof.Machine.execPartialWrite inst word lanes who s
  | .mergeAgeFlush inst group => Sys2Proof.Machine.execMergeAgeFlush inst group s
  | .mergeIdleFlush inst group => Sys2Proof.Machine.execMergeIdleFlush inst group s
  | .fullWordWrite inst word data => Sys2Proof.Machine.execFullWordWrite inst word data s
  | .spareRemap inst group => Sys2Proof.Machine.execSpareRemap inst group s
  | .scrubVisit inst group dflips cflips copies => Sys2Proof.Machine.execScrubVisit inst group dflips cflips copies s
  | .scrubLapLimitExpiry inst => Sys2Proof.Machine.execScrubLapLimitExpiry inst s
  | .ocpInjectArm fn val => Sys2Proof.Machine.execOcpInjectArm fn val s
  | .ocpRemapLoad val => Sys2Proof.Machine.execOcpRemapLoad val s
  | .portMode id => Sys2Proof.Machine.execPortMode id s
  | .portRetrain id => Sys2Proof.Machine.execPortRetrain id s
  | .flitSend p packets => Sys2Proof.Machine.execFlitSend p packets s
  | .flitReceive p lanes => Sys2Proof.Machine.execFlitReceive p lanes s
  | .nakResendTimeout p seq => Sys2Proof.Machine.execNakResendTimeout p seq s
  | .retryWindowExpiry p => Sys2Proof.Machine.execRetryWindowExpiry p s
  | .lossOfSignal p => Sys2Proof.Machine.execLossOfSignal p s
  | .ethLinkFault p => Sys2Proof.Machine.execEthLinkFault p s
  | .trainingPrbsPass p => Sys2Proof.Machine.execTrainingPrbsPass p s
  | .trainingTimeout p => Sys2Proof.Machine.execTrainingTimeout p s
  | .paramExchange p x => Sys2Proof.Machine.execParamExchange p x s
  | .holdExpiry p => Sys2Proof.Machine.execHoldExpiry p s
  | .ethLinkUp p => Sys2Proof.Machine.execEthLinkUp p s
  | .ethFrameReceive p x => Sys2Proof.Machine.execEthFrameReceive p x s
  | .rocePacketReceive r => Sys2Proof.Machine.execRocePacketReceive r s
  | .cnpReceive q => Sys2Proof.Machine.execCnpReceive q s
  | .ccPeriodExpiry q => Sys2Proof.Machine.execCcPeriodExpiry q s
  | .ptpMessage p rawStamp fromMaster => Sys2Proof.Machine.execPtpMessage p rawStamp fromMaster s
  | .qpCreate id => Sys2Proof.Machine.execQpCreate id s
  | .qpModifyReset id => Sys2Proof.Machine.execQpModifyReset id s
  | .qpModifyInit id => Sys2Proof.Machine.execQpModifyInit id s
  | .qpModifyRtr id => Sys2Proof.Machine.execQpModifyRtr id s
  | .qpModifyRts id => Sys2Proof.Machine.execQpModifyRts id s
  | .qpModifyMove id => Sys2Proof.Machine.execQpModifyMove id s
  | .qpModifyDrain id => Sys2Proof.Machine.execQpModifyDrain id s
  | .qpModifyError id => Sys2Proof.Machine.execQpModifyError id s
  | .qpDrainEnd q => Sys2Proof.Machine.execQpDrainEnd q s
  | .qpDestroy id => Sys2Proof.Machine.execQpDestroy id s
  | .srqCreate id => Sys2Proof.Machine.execSrqCreate id s
  | .srqSetLimit id => Sys2Proof.Machine.execSrqSetLimit id s
  | .cqCreate id => Sys2Proof.Machine.execCqCreate id s
  | .cqDestroy id => Sys2Proof.Machine.execCqDestroy id s
  | .mrRegister id => Sys2Proof.Machine.execMrRegister id s
  | .mrDeregister id => Sys2Proof.Machine.execMrDeregister id s
  | .windowBind id bus => Sys2Proof.Machine.execWindowBind id bus s
  | .windowUnbind id => Sys2Proof.Machine.execWindowUnbind id s
  | .rdmaSqDoorbell fn val bus => Sys2Proof.Machine.execRdmaSqDoorbell fn val bus s
  | .rdmaRqDoorbell fn val bus => Sys2Proof.Machine.execRdmaRqDoorbell fn val bus s
  | .rdmaSrqDoorbell fn val bus => Sys2Proof.Machine.execRdmaSrqDoorbell fn val bus s
  | .rdmaCqDoorbell fn val => Sys2Proof.Machine.execRdmaCqDoorbell fn val s
  | .wrSend q bus => Sys2Proof.Machine.execWrSend q bus s
  | .wrSendImm q bus => Sys2Proof.Machine.execWrSendImm q bus s
  | .wrWrite q bus => Sys2Proof.Machine.execWrWrite q bus s
  | .wrWriteImm q bus => Sys2Proof.Machine.execWrWriteImm q bus s
  | .wrRead q bus => Sys2Proof.Machine.execWrRead q bus s
  | .wrRecv srq n => Sys2Proof.Machine.execWrRecv srq n s
  | .inboundKeyRequest via psn write va key len data imm bus => Sys2Proof.Machine.execInboundKeyRequest via psn write va key len data imm bus s
  | .ackReceive via psn a => Sys2Proof.Machine.execAckReceive via psn a s
  | .statusNakReceive via psn code detail => Sys2Proof.Machine.execStatusNakReceive via psn code detail s
  | .localAckTimeout q => Sys2Proof.Machine.execLocalAckTimeout q s
  | .rnrTimerExpiry q => Sys2Proof.Machine.execRnrTimerExpiry q s
  | .carveCreate id => Sys2Proof.Machine.execCarveCreate id s
  | .carveUpdate id => Sys2Proof.Machine.execCarveUpdate id s
  | .carveDelete id => Sys2Proof.Machine.execCarveDelete id s
  | .binAlloc id => Sys2Proof.Machine.execBinAlloc id s
  | .binFree id => Sys2Proof.Machine.execBinFree id s
  | .binZeroFillEnd bin => Sys2Proof.Machine.execBinZeroFillEnd bin s
  | .binMap id => Sys2Proof.Machine.execBinMap id s
  | .binUnmap id => Sys2Proof.Machine.execBinUnmap id s
  | .leaseRenew id => Sys2Proof.Machine.execLeaseRenew id s
  | .leaseExpiry bin member => Sys2Proof.Machine.execLeaseExpiry bin member s
  | .mapDrainEnd bin member => Sys2Proof.Machine.execMapDrainEnd bin member s
  | .mirrorEnable id index => Sys2Proof.Machine.execMirrorEnable id index s
  | .mirrorDisable id => Sys2Proof.Machine.execMirrorDisable id s
  | .inboundGranaryRequest r => Sys2Proof.Machine.execInboundGranaryRequest r s
  | .mirrorWriteArrival handle off data poison chunk last => Sys2Proof.Machine.execMirrorWriteArrival handle off data poison chunk last s
  | .mirrorAck token => Sys2Proof.Machine.execMirrorAck token s
  | .resilverChunk bin => Sys2Proof.Machine.execResilverChunk bin s
  | .resilverChunkAck bin => Sys2Proof.Machine.execResilverChunkAck bin s
  | .promoteCopies home => Sys2Proof.Machine.execPromoteCopies home s
  | .announceReceive h role homes => Sys2Proof.Machine.execAnnounceReceive h role homes s
  | .noticeReceive h code a b c d => Sys2Proof.Machine.execNoticeReceive h code a b c d s
  | .mapRecordExpiry handle fn => Sys2Proof.Machine.execMapRecordExpiry handle fn s
  | .homeClaimWaitExpiry => Sys2Proof.Machine.execHomeClaimWaitExpiry s
  | .homeHandback home => Sys2Proof.Machine.execHomeHandback home s
  | .handbackDrainEnd => Sys2Proof.Machine.execHandbackDrainEnd s
  | .nmwTailWrite val bus => Sys2Proof.Machine.execNmwTailWrite val bus s
  | .tallyQuery id => Sys2Proof.Machine.execTallyQuery id s
  | .tallyPrepReset id => Sys2Proof.Machine.execTallyPrepReset id s
  | .tallyConfirm id => Sys2Proof.Machine.execTallyConfirm id s
  | .operationExit bin token code relay => Sys2Proof.Machine.execOperationExit bin token code relay s
  | .tokenFreeAdmit => Sys2Proof.Machine.execTokenFreeAdmit s
  | .tallyBackgroundScan bin parityA parityB disagree lap => Sys2Proof.Machine.execTallyBackgroundScan bin parityA parityB disagree lap s
  | .sweepQueue bin => Sys2Proof.Machine.execSweepQueue bin s
  | .sweepTokenPass bin => Sys2Proof.Machine.execSweepTokenPass bin s
  | .confirmWindowExpiry bin => Sys2Proof.Machine.execConfirmWindowExpiry bin s
  | .chkClaim id => Sys2Proof.Machine.execChkClaim id s
  | .chkConfig id => Sys2Proof.Machine.execChkConfig id s
  | .chkRun id => Sys2Proof.Machine.execChkRun id s
  | .chkRelease id => Sys2Proof.Machine.execChkRelease id s
  | .chkJobEnd engine bus => Sys2Proof.Machine.execChkJobEnd engine bus s
  | .domainJoin id bus => Sys2Proof.Machine.execDomainJoin id bus s
  | .domainLeave id => Sys2Proof.Machine.execDomainLeave id s
  | .domainStatus id => Sys2Proof.Machine.execDomainStatus id s
  | .sleepVoteObject id => Sys2Proof.Machine.execSleepVoteObject id s
  | .sleepVoteWithdraw id => Sys2Proof.Machine.execSleepVoteWithdraw id s
  | .sleepVoteWake id => Sys2Proof.Machine.execSleepVoteWake id s
  | .heartbeatSend => Sys2Proof.Machine.execHeartbeatSend s
  | .heartbeatReceive h b => Sys2Proof.Machine.execHeartbeatReceive h b s
  | .peerSuspectTimeout m => Sys2Proof.Machine.execPeerSuspectTimeout m s
  | .peerLostTimeout m => Sys2Proof.Machine.execPeerLostTimeout m s
  | .suspectReceive h member => Sys2Proof.Machine.execSuspectReceive h member s
  | .leaveReceive h force => Sys2Proof.Machine.execLeaveReceive h force s
  | .commandReceive h fn pkt env data part => Sys2Proof.Machine.execCommandReceive h fn pkt env data part s
  | .replyReceive h fn tag status result result2 retained => Sys2Proof.Machine.execReplyReceive h fn tag status result result2 retained s
  | .forwardTimeout id => Sys2Proof.Machine.execForwardTimeout id s
  | .reassemblyTimeout src seq => Sys2Proof.Machine.execReassemblyTimeout src seq s
  | .duplicateClearTimeout => Sys2Proof.Machine.execDuplicateClearTimeout s
  | .noMasterTimeout => Sys2Proof.Machine.execNoMasterTimeout s
  | .holdoverSuspectTimeout => Sys2Proof.Machine.execHoldoverSuspectTimeout s
  | .sleepQuietExpiry => Sys2Proof.Machine.execSleepQuietExpiry s
  | .sleepProposeReceive h n => Sys2Proof.Machine.execSleepProposeReceive h n s
  | .sleepVoteMessage h n value => Sys2Proof.Machine.execSleepVoteMessage h n value s
  | .sleepVoteTimeout => Sys2Proof.Machine.execSleepVoteTimeout s
  | .sleepAgreedReceive h n commit => Sys2Proof.Machine.execSleepAgreedReceive h n commit s
  | .sleepAbortReceive h n => Sys2Proof.Machine.execSleepAbortReceive h n s
  | .sleepAwakeReceive h => Sys2Proof.Machine.execSleepAwakeReceive h s
  | .sleepCommit => Sys2Proof.Machine.execSleepCommit s
  | .sleepEntryEnd => Sys2Proof.Machine.execSleepEntryEnd s
  | .sleepExitEnd => Sys2Proof.Machine.execSleepExitEnd s
  | .powerVotePlace id => Sys2Proof.Machine.execPowerVotePlace id s
  | .powerVoteWithdraw id => Sys2Proof.Machine.execPowerVoteWithdraw id s
  | .powerQuery id => Sys2Proof.Machine.execPowerQuery id s
  | .powerStateRun id => Sys2Proof.Machine.execPowerStateRun id s
  | .powerStateSleep id => Sys2Proof.Machine.execPowerStateSleep id s
  | .powerStateDeepSleep id => Sys2Proof.Machine.execPowerStateDeepSleep id s
  | .powerStateOff id => Sys2Proof.Machine.execPowerStateOff id s
  | .powerEntryFetchStop => Sys2Proof.Machine.execPowerEntryFetchStop s
  | .mwWfi => Sys2Proof.Machine.execMwWfi s
  | .powerEntryMwTimeout => Sys2Proof.Machine.execPowerEntryMwTimeout s
  | .powerEntryEnd => Sys2Proof.Machine.execPowerEntryEnd s
  | .idleEnter => Sys2Proof.Machine.execIdleEnter s
  | .voteIdleHoldExpiry d => Sys2Proof.Machine.execVoteIdleHoldExpiry d s
  | .prewakeHoldExpiry d => Sys2Proof.Machine.execPrewakeHoldExpiry d s
  | .domainWakeDone d => Sys2Proof.Machine.execDomainWakeDone d s
  | .wakeNEdge => Sys2Proof.Machine.execWakeNEdge s
  | .aoWakeTimerExpiry => Sys2Proof.Machine.execAoWakeTimerExpiry s
  | .usbAttach => Sys2Proof.Machine.execUsbAttach s
  | .i3cIbiWake => Sys2Proof.Machine.execI3cIbiWake s
  | .pgoodTimeout => Sys2Proof.Machine.execPgoodTimeout s
  | .xtalMwTimeout => Sys2Proof.Machine.execXtalMwTimeout s
  | .pllLockTimeout => Sys2Proof.Machine.execPllLockTimeout s
  | .wakeRetryDelayEnd => Sys2Proof.Machine.execWakeRetryDelayEnd s
  | .railPgRise n steward => Sys2Proof.Machine.execRailPgRise n steward s
  | .railPgFall n => Sys2Proof.Machine.execRailPgFall n s
  | .aoBrownout => Sys2Proof.Machine.execAoBrownout s
  | .vddAoInLow => Sys2Proof.Machine.execVddAoInLow s
  | .xtalAoSwitch => Sys2Proof.Machine.execXtalAoSwitch s
  | .thermalThrottle => Sys2Proof.Machine.execThermalThrottle s
  | .thermalThrottleClear => Sys2Proof.Machine.execThermalThrottleClear s
  | .thermalAlert => Sys2Proof.Machine.execThermalAlert s
  | .thermalAlertClear => Sys2Proof.Machine.execThermalAlertClear s
  | .fwStage id => Sys2Proof.Machine.execFwStage id s
  | .fwCommit id => Sys2Proof.Machine.execFwCommit id s
  | .fwCommitGolden id => Sys2Proof.Machine.execFwCommitGolden id s
  | .goldenCopyEnd ok => Sys2Proof.Machine.execGoldenCopyEnd ok s
  | .fwAbandon id => Sys2Proof.Machine.execFwAbandon id s
  | .budgetWrite id verified => Sys2Proof.Machine.execBudgetWrite id verified s
  | .budgetQuery id => Sys2Proof.Machine.execBudgetQuery id s
  | .sensorRead id reading => Sys2Proof.Machine.execSensorRead id reading s
  | .trayStatus id => Sys2Proof.Machine.execTrayStatus id s
  | .trayVerify id => Sys2Proof.Machine.execTrayVerify id s
  | .grantPolicy id => Sys2Proof.Machine.execGrantPolicy id s
  | .brakeStatus id => Sys2Proof.Machine.execBrakeStatus id s
  | .brakePending id => Sys2Proof.Machine.execBrakePending id s
  | .valveSet id => Sys2Proof.Machine.execValveSet id s
  | .valveQuery id => Sys2Proof.Machine.execValveQuery id s
  | .valveConfig id => Sys2Proof.Machine.execValveConfig id s
  | .slotSetEnable id => Sys2Proof.Machine.execSlotSetEnable id s
  | .slotSetDisable id => Sys2Proof.Machine.execSlotSetDisable id s
  | .slotQuery id => Sys2Proof.Machine.execSlotQuery id s
  | .slotSelf id => Sys2Proof.Machine.execSlotSelf id s
  | .positionPresentConfirm n => Sys2Proof.Machine.execPositionPresentConfirm n s
  | .positionVerify n released recovery svn => Sys2Proof.Machine.execPositionVerify n released recovery svn s
  | .verifyEnd n f => Sys2Proof.Machine.execVerifyEnd n f s
  | .reflashEnd n okP okG => Sys2Proof.Machine.execReflashEnd n okP okG s
  | .reflashWindowExpiry n => Sys2Proof.Machine.execReflashWindowExpiry n s
  | .sidebandRelease => Sys2Proof.Machine.execSidebandRelease s
  | .sidebandResume => Sys2Proof.Machine.execSidebandResume s
  | .releaseTimeout => Sys2Proof.Machine.execReleaseTimeout s
  | .sidebandStatusRead => Sys2Proof.Machine.execSidebandStatusRead s
  | .usbSubmit tag pkt input => Sys2Proof.Machine.execUsbSubmit tag pkt input s
  | .usbFetch tag m => Sys2Proof.Machine.execUsbFetch tag m s
  | .usbBusReset => Sys2Proof.Machine.execUsbBusReset s
  | .usbEnableWrite val => Sys2Proof.Machine.execUsbEnableWrite val s
  | .leakSample ch pos neg rb => Sys2Proof.Machine.execLeakSample ch pos neg rb s
  | .settleWindowEnd => Sys2Proof.Machine.execSettleWindowEnd s
  | .blankInRise => Sys2Proof.Machine.execBlankInRise s
  | .blankInFall => Sys2Proof.Machine.execBlankInFall s
  | .blankCapExpiry => Sys2Proof.Machine.execBlankCapExpiry s
  | .blankGuardEnd => Sys2Proof.Machine.execBlankGuardEnd s
  | .interlockContactChange ilk second closed => Sys2Proof.Machine.execInterlockContactChange ilk second closed s
  | .discrepancyTimeout ilk => Sys2Proof.Machine.execDiscrepancyTimeout ilk s
  | .outputCheckFault pins => Sys2Proof.Machine.execOutputCheckFault pins s
  | .configParityError => Sys2Proof.Machine.execConfigParityError s
  | .holdSupplyLoss lost => Sys2Proof.Machine.execHoldSupplyLoss lost s
  | .brakeRstFall => Sys2Proof.Machine.execBrakeRstFall s
  | .brakeRstRise => Sys2Proof.Machine.execBrakeRstRise s
  | .brakeRstStuck => Sys2Proof.Machine.execBrakeRstStuck s
  | .valvePullinEnd n => Sys2Proof.Machine.execValvePullinEnd n s
  | .valveDeferTimeout n => Sys2Proof.Machine.execValveDeferTimeout n s
  | .hsFault g => Sys2Proof.Machine.execHsFault g s
  | .slotPgRise n => Sys2Proof.Machine.execSlotPgRise n s
  | .slotPgFall n => Sys2Proof.Machine.execSlotPgFall n s
  | .slotPoweringTimeout n => Sys2Proof.Machine.execSlotPoweringTimeout n s
  | .slotDisableTimeout n => Sys2Proof.Machine.execSlotDisableTimeout n s
  | .slotPgLoss n => Sys2Proof.Machine.execSlotPgLoss n s
  | .slotPrsntLoss n => Sys2Proof.Machine.execSlotPrsntLoss n s
  | .monConfig id bus => Sys2Proof.Machine.execMonConfig id bus s
  | .monSnapshot id => Sys2Proof.Machine.execMonSnapshot id s
  | .monClear id => Sys2Proof.Machine.execMonClear id s
  | .monitorPeriodExpiry m reading => Sys2Proof.Machine.execMonitorPeriodExpiry m reading s
  | .xtalMwReady => Sys2Proof.Machine.execXtalMwReady s
  | .pllLock => Sys2Proof.Machine.execPllLock s
  | .interlockFaultClear ilk => Sys2Proof.Machine.execInterlockFaultClear ilk s
  | .hsFaultClear g => Sys2Proof.Machine.execHsFaultClear g s
  | .sidebandInBandInterrupt n recovery => Sys2Proof.Machine.execSidebandInBandInterrupt n recovery s
  | .bundleIssue item stone index fx => Sys2Proof.Machine.execBundleIssue item stone index fx s

end Sys2Proof.Machine
end

