-- ==== Sys2Proof/Machine/Tick.lean ====
section
/-! DEFINITION. What a nanosecond does when no command waits (log entry 1). -/

namespace Sys2Proof.Machine

/-- The next second-long boundary of a period of n ns has been reached. -/
def each (n t : Nat) : Bool := decide (t % n = 0)

/-- Stone cycles in the nanosecond that ends at t: 1.80 GHz, or 2.00 GHz under a headroom grant (R22, R408). -/
def stoneCycles (s : State) (t : Nat) : Nat := if s.pwr.boost then 2 else t * 9 / 5 - (t - 1) * 9 / 5

/-- A gang's counters after some stone cycles: a running item counts them, and its advancing cycles stand still while the gang
is held up or stands at a grist barrier (R146, R159, R160, R162). -/
def Item.run (m : Option Image) (t n : Nat) (i : Item) : Item :=
  if i.state ≠ .running ∨ i.waking then i
  else
    let stands := (match m with | some m => i.stands m t | none => false) || i.beds.any fun b => b.2.atSite.isSome
    { i with cycles := i.cycles + n, adv := if stands then i.adv else i.adv + n }

/-- A nanosecond of an item: its stage streams in, its gang runs on, and the mesh moves (R157 to R160). -/
def runItem (n t : Nat) (k : Nat) (s : State) : State :=
  match itemOf s k with
  | none => s
  | some i =>
    let m := imageOf s i.image
    let s := modItem k (fun i =>
      Item.run m t n (match m with | some m => if i.state = .running ∧ !i.waking then streamStage m t i else i | none => i)) s
    meshAt k s

/-- The nanoseconds the domain time counter's clock gives in the nanosecond that ends at t: it runs, in DEEP_SLEEP and on the
way out of it at 40 ns steps, and not at all in OFF, WAKE_FAILED and during a cold bring-up (R22, R401). -/
def clockSteps (s : State) (t : Nat) : Nat :=
  match s.pwr.state with
  | .off | .wakeFailed => 0
  | .deepSleep => if each 40 t then 40 else 0
  | .exiting => if s.pwr.cold then 0 else if each 40 t then 40 else 0
  | _ => 1

/-- The domain time counter after the nanosecond that ends at t, at the rate the servo last set (R43). -/
def timeAfter (c : Core) (n : Nat) : Core :=
  let whole : Int := n * (1000000000 + c.rate) + c.frac
  { c with time := ofSigned 64 ((c.time : Int) + whole / 1000000000), frac := whole % 1000000000 }

/-- One nanosecond passes: the model clock and the domain time counter advance, the Millwright's HEARTBEAT counts every
10 ms while its firmware runs, gangs run on, monitor queues move, gated scrubbers stand still, the sequencer moves its enables,
a steward enables its slots, and functions whose accepted commands have ended after a reset give up their objects (R72). -/
def tick (s : State) : State :=
  let t := s.core.t + 1
  let s := s.modCore fun c => timeAfter { c with t } (clockSteps s t)
  let s := if each 10000000 t && s.mwr.running then s.modMwr fun m => { m with heartbeat := (m.heartbeat + 1) % 2 ^ 32 } else s
  let n := stoneCycles s t
  let s := if s.pwr.awake = false then s else forEach (s.trn.items.map (·.1)) (runItem n t) s
  let s := if s.evt.mons = [] then s else s.modEvt fun e => { e with mons := e.mons.mapVal fun _ m => m.drain (whlCycles s) }
  let s := if s.pwr.wait = .idle && s.pwr.falling.isNone then s else s.modPwr fun p => nextRail t (railsFall t p)
  let s := holdGated (if s.mwr.steward then enableSlots s else s)
  if s.hif.freeing = [] then s else releaseDue s

end Sys2Proof.Machine
end

