-- ==== Sys2Proof/Machine/Step.lean ====
section
/-! DEFINITION. The step: the command at the front of the queue, or a nanosecond when none waits. -/

namespace Sys2Proof.Machine

/-- One step of the block (log entry 1). -/
def step (s : State) : Host.Outcome State Fault Refusal :=
  match s.pending with
  | [] => .next (tick s)
  | c :: r => exec c (s.modPending fun _ => r)

/-- The state with the command a word spells put at the front of the queue. -/
def State.withFetchWord (s : State) (nbits w : Nat) : State :=
  match Sys2Proof.decodeTableWord nbits w with
  | some c => s.modPending fun l => c :: l
  | none => s

end Sys2Proof.Machine
end

