-- ==== Sys2Proof/Safety.lean ====
section
/-! DEFINITION. The terms claims are stated in: what an outcome reached, what a completion left, and the properties of a
state that every step keeps. -/

namespace Sys2Proof.Machine

/-- The outcome is a next state that satisfies a property. -/
def Ends (o : Out) (P : State → Prop) : Prop := ∃ t, o = .next t ∧ P t

/-- The outcome is a next state, reached by completing a command with a status, RESULT and RESULT2 over a state that
satisfies a property. -/
def Completes (o : Out) (c : Cmd) (st : Status) (r r2 : Nat) (P : State → Prop) : Prop :=
  ∃ u, P u ∧ o = .next (complete c st r r2 u)

/-- The command of an opcode that a row may run now (log entry 2). -/
abbrev Runs (s : State) (op : Opc) (id : CmdId) (c : Cmd) : Prop := runnable s op id = some c

/-- No check of a list fails. -/
def passes (l : List (Bool × (State → State))) : Bool := l.all fun e => !e.1

/-- A MW_MAILBOX command of a class that a row may run now (R433). -/
abbrev MailRuns (s : State) (cls : Nat) (id : CmdId) (c : Cmd) : Prop := Runs s .mwMailbox id c ∧ fld c.pkt 2 15 0 = cls

/-- The state as the Millwright takes a command: its firmware is awake (R399). -/
def heard (s : State) : State := if s.mwr.running then mwAct s else s

/-- The second state differs from the first at most in what completing commands, raising events and logging errors touch. -/
structure Told (s t : State) : Prop where
  /-- The reset sequencer. -/
  core : t.core = s.core
  /-- The flashes. -/
  store : t.store = s.store
  /-- The ports. -/
  prt : t.prt = s.prt
  /-- Power. -/
  pwr : t.pwr = s.pwr
  /-- Memory. -/
  mem : t.mem = s.mem
  /-- Races. -/
  whl : t.whl = s.whl
  /-- Turns. -/
  trn : t.trn = s.trn
  /-- Stones. -/
  stn : t.stn = s.stn
  /-- On-chip memories. -/
  ocp : t.ocp = s.ocp
  /-- RDMA. -/
  rdm : t.rdm = s.rdm
  /-- The granary. -/
  grn : t.grn = s.grn
  /-- The tally. -/
  tly : t.tly = s.tly
  /-- The check engines. -/
  chk : t.chk = s.chk
  /-- The brake path. -/
  brk : t.brk = s.brk
  /-- The free values. -/
  freeCtr : t.freeCtr = s.freeCtr
  /-- The queue. -/
  pending : t.pending = s.pending
  /-- The Millwright but its journal. -/
  mwr : { t.mwr with journal := s.mwr.journal } = s.mwr
  /-- The domain but its message number. -/
  dom : { t.dom with msgSeq := s.dom.msgSeq } = s.dom
  /-- The monitors. -/
  mons : t.evt.mons = s.evt.mons
  /-- The features. -/
  feats : t.hif.feats = s.hif.feats
  /-- The SQs. -/
  sqs : t.hif.sqs = s.hif.sqs
  /-- The VF ranges. -/
  ranges : t.hif.ranges = s.hif.ranges
  /-- The host interface accepts. -/
  accept : t.hif.accept = s.hif.accept
  /-- What waits to be freed. -/
  freeing : t.hif.freeing = s.hif.freeing
  /-- USB enabled. -/
  enable : t.usb.enable = s.usb.enable
  /-- USB attached. -/
  attached : t.usb.attached = s.usb.attached
  /-- MW_TO_DAT. -/
  mwToDat : t.mail.mwToDat = s.mail.mwToDat

/-! ### The brake (R458, R461, R469) -/

/-- Lock-out stands only with the brake set, and no slot is powered while the brake is set. -/
def Brk.safe (b : Brk) : Prop :=
  (b.lockout = true → b.set = true) ∧
    (b.set = true → ∀ n, n < 8 → (b.slots.getD n {}).state = .off ∨ (b.slots.getD n {}).state = .fault)

end Sys2Proof.Machine
end

