-- ==== Sys2Proof/Certificates/Slice0/Obligations.lean ====
section
/-! DEFINITION. The statements for the provers: each fixes conditions on the state and the operands alone and says what the
command answers. -/

open Sys2Proof Sys2Proof.Machine

/-- COLD_RESET, WARM_RESET, PERST_N_DEASSERT and ROLE_FILL_END complete (R1, R6, R35, R37, R44, R461, R509). Clauses here rest
on the model's own choices, log entries 66, 69, 70, 86, 91. -/
def Obligations.HostResets : Prop :=
  (∀ (pop : List PairPop) (s : State), ∃ t, exec (.coldReset pop) s = .next t ∧ t.core.t = 0 ∧
      t.core.role = roleOf (inForce s.store.role) ∧ t.core.roleStat = .none ∧ t.core.causes = [⟨0x01, 0, true⟩] ∧
      t.brk.set = true ∧ t.brk.inhibit = true ∧ t.brk.lockout = false ∧ t.store.role = s.store.role ∧
      t.pwr.state = .exiting ∧ t.pwr.pll = false ∧ t.hif.cmds = [] ∧ t.mem.cells = [] ∧ t.pending = s.pending) ∧
    (∀ s : State, s.pwr.perst = false → s.pwr.state = .run → ∃ t, exec .warmReset s = .next t ∧ t.brk.set = s.brk.set ∧
      t = warmReset (s.modPwr fun p => { p with perst := true, endpoint := false })) ∧
    (∀ s : State, s.pwr.perst = true → ∃ t, exec .perstNDeassert s = .next t ∧ t.pwr.perst = false ∧
      t.pwr.endpoint = s.pwr.pll ∧ t.hif.accept = s.pwr.pll ∧
      t = { s with pwr := { s.pwr with perst := false, endpoint := s.pwr.pll }, hif := { s.hif with accept := s.pwr.pll } }) ∧
    (∀ s : State, s.core.fill = true → s.hif.accept = true → ∃ t, exec .roleFillEnd s = .next t ∧ t.core.fill = false ∧
      t.core.roleStat = s.core.role ∧ t.mem.cells = [] ∧ t.grn.ready = isGranary s ∧
      (s.mwr.running = true → flashReleased s = false → t.store.cleared = some ⟨s.core.role, true⟩) ∧
      t = { s with core := t.core, mem := t.mem, store := t.store, grn := t.grn })

/-- The plane resets begin and end as R35, R36, R38, R39 and R41 say. Clauses here rest on the model's own choices, log entries
66, 69, 70, 86, 91, 118. -/
def Obligations.PlaneResets : Prop :=
  (∀ s : State, s.pwr.pll = true → s.mwr.running = true → s.core.ctlReset = false →
      ∃ t, exec (.ctlPlaneReset .millwright) s = .next t ∧ t = startCtlReset 0x05 (mwAct s) ∧ t.core.ctlReset = true ∧
        t.mail.mwToCtl = {} ∧ t.mem.leafCache = [] ∧ t.mem.walkCache = [] ∧ t.brk = s.brk) ∧
    (∀ (s : State) (val : Nat), s.pwr.pll = true → bits val 31 16 = 0x5A5A → bits val 2 0 = 1 → s.core.ctlReset = false →
      ∃ t, exec (.ctlPlaneReset (.host 0 val)) s = .next t ∧ t = startCtlReset 0x04 s ∧ t.core.ctlReset = true ∧ t.brk = s.brk) ∧
    (∀ (s : State) (val : Nat), s.pwr.pll = true → bits val 31 16 ≠ 0x5A5A → bits val 2 0 ≠ 0 →
      ∃ t, (bit val 0 = true → exec (.ctlPlaneReset (.host 0 val)) s = .next t) ∧
        (bit val 1 = true → exec (.datPlaneReset (.host 0 val)) s = .next t) ∧
        (bit val 2 = true → exec (.mgtPlaneReset (.host 0 val)) s = .next t) ∧
        (t.hif.wins.getD 0 {}).err = (s.hif.wins.getD 0 {}).err ||| 4 ∧ t = { s with hif := t.hif }) ∧
    (∀ s : State, s.core.ctlReset = true → ∃ t, exec .ctlResetEnd s = .next t ∧ t = endCtlReset s ∧ t.brk.set = s.brk.set ∧
      t.pending = s.pending) ∧
    (∀ (s : State) (val : Nat), s.pwr.pll = true → bits val 31 16 = 0x5A5A → bits val 2 0 = 2 → s.core.datReset = false →
      ∃ t, exec (.datPlaneReset (.host 0 val)) s = .next t ∧ t = startDatReset 0x07 s ∧ t.brk = s.brk) ∧
    (∀ s : State, s.pwr.pll = true → s.mwr.running = true → s.core.datReset = false →
      ∃ t, exec (.datPlaneReset .millwright) s = .next t ∧ t = startDatReset 0x08 (mwAct s) ∧ t.brk = s.brk) ∧
    (∀ s : State, s.core.datReset = true → s.core.datFatal = false → ∃ t, exec .datResetEnd s = .next t ∧
      t.brk = s.brk ∧ t = endDatReset s) ∧
    (∀ (s : State) (val : Nat), s.pwr.pll = true → bits val 31 16 = 0x5A5A → bits val 2 0 = 4 → s.mwr.st ≠ .reset →
      ∃ t, exec (.mgtPlaneReset (.host 0 val)) s = .next t ∧ t.mwr.st = .reset ∧ t.mwr.cause = 0x0C ∧ t.mwr.coldBoot = s.mwr.coldBoot ∧
        t.brk.set = s.brk.set) ∧
    (∀ (s : State) (source : Nat), s.pwr.pll = true → s.core.datReset = false →
      ∃ t, exec (.datNoProgressTimeout source) s = .next t ∧ t = datFatal source s ∧ t.brk = s.brk) ∧
    (∀ (s : State) (stone : Nat) (floor : Bool), s.mwr.running = true → stone < 256 →
      exec (.stoneFenceRequest (some stone) floor) s = .next (postDat (.stoneFence stone floor) (mwAct s))) ∧
    (∀ (s : State) (stone : Nat) (floor f : Bool), s.pwr.up = true → s.core.datReset = false →
      s.mail.mwToDat.front = some (.stoneFence stone floor) → stonesBusy s (namedStones stone floor) = false →
      ∃ t, exec (.stoneFenceRequest none f) s = .next t ∧ t = fenceStones none stone floor (popDat s) ∧ t.brk = s.brk) ∧
    (∀ (s : State) (stone : Nat) (floor f : Bool), s.pwr.up = true → s.core.datReset = false →
      s.mail.mwToDat.front = some (.stoneFence stone floor) → stonesBusy s (namedStones stone floor) = true →
      exec (.stoneFenceRequest none f) s = .next (popDat s))

/-- The Millwright's restart, watchdog, lockstep and messages, its servo's adjustments, and the forwarding of commands (R31,
R38, R43, R399, R416 to R418, R422, R429 to R432). Clauses here rest on the model's own choices, log entries 14, 15, 75, 99,
116, 118. -/
def Obligations.MillwrightMessages : Prop :=
  (∀ s : State, s.mwr.st = .reset → s.pwr.pll = true → ∃ t, exec .mwRestart s = .next t ∧ t.mwr.st ≠ .reset ∧
      t.mwr.st = (bootMw s).mwr.st) ∧
    (∀ s : State, s.mwr.st = .recovery → s.mwr.spiFloat = false → s.mwr.bootAt + sec 1 ≤ s.core.t →
      exec .recoverySpiRelease s = .next { s with mwr := { s.mwr with spiFloat := true } }) ∧
    (∀ (s : State) (cls : Nat), s.mwr.st ≠ .reset → s.mwr.wfi = false → 1 ≤ cls → cls ≤ 7 →
      ∃ t, exec (.lockstepMismatch cls) s = .next t ∧ t.mwr.st = .reset ∧ t.mwr.cause = 0x0A ∧ t.mwr.lockClass = cls ∧
        t.mwr.lockCount = sat 0xFFFF (s.mwr.lockCount + 1)) ∧
    (∀ s : State, s.mwr.running = true → s.mwr.kickAt + ms s.mwr.wdtMs ≤ s.core.t →
      ∃ t, exec .watchdogExpiry s = .next t ∧ t.mwr.st = .reset ∧ t.mwr.cause = 0x0B ∧
        t.mwr.wdtExpiries = sat 0xFFFF (s.mwr.wdtExpiries + 1)) ∧
    (∀ s : State, s.mwr.running = true → ∃ t, exec (.watchdogKick 0xC0DE0001) s = .next t ∧ t.mwr.kickAt = s.core.t ∧
      t = { mwAct s with mwr := t.mwr }) ∧
    (∀ s : State, monsOn s = true → s.core.ctlReset = false → s.mwr.whlAt + ms 10 ≤ s.core.t →
      exec .whlHeartbeatSend s = .next { s with
        mail := { s.mail with ctlToMw := s.mail.ctlToMw.push (.heartbeat s.mwr.whlSeq s.whl.races.length
          (s.trn.turns.filter fun e => decide (e.2.state ≠ .free)).length s.hif.cmds.length) }
        mwr := { s.mwr with whlSeq := (s.mwr.whlSeq + 1) % 2 ^ 32, whlAt := s.core.t } }) ∧
    (∀ (s : State) (n races turns cmds : Nat), s.mwr.running = true → ctlNext s = some (.heartbeat n races turns cmds) →
      ∃ t, exec .whlHeartbeatReceive s = .next t ∧ t.mwr.hbSeq = n ∧ t.mwr.hbLost = false ∧ t.mwr.hbSeen = s.core.t ∧
        t = { mwAct s with mail := t.mail, mwr := t.mwr }) ∧
    (∀ s : State, s.mwr.running = true → s.mwr.hbLost = false → s.mwr.resetOnLoss = false →
      max s.mwr.hbSeen s.mwr.bootAt + ms 100 ≤ s.core.t →
      ∃ u, exec .ctlHeartbeatLost s = .next (raisePf 0xE008 0 u.mwr.hbSeq u) ∧
        u = { mwAct s with mwr := { (mwAct s).mwr with hbLost := true } }) ∧
    (∀ (s : State) (delta rate offset : Int) (synced : Bool), s.mwr.running = true →
      exec (.domainTimeAdjustment (some ⟨delta, rate⟩) offset synced) s =
        .next (postCtl (.timeAdjust delta rate offset synced) (mwAct s))) ∧
    (∀ (s : State) (delta rate offset o : Int) (b : Bool), s.mail.mwToCtl.front = some (.timeAdjust delta rate offset true) →
      ctlTakes s = true →
      ∃ u, exec (.domainTimeAdjustment none o b) s = .next (judgeTime u) ∧
        u.core.time = ofSigned 64 (s.core.time + delta) ∧ u.core.rate = rate ∧ u.core.timeValid = true ∧ u.core.holdover = false ∧
        u.dom.offset = offset ∧ u.dom.synced = true ∧ u = { popCtl s with core := u.core, dom := u.dom }) ∧
    (∀ (s : State) (i : Nat), s.mwr.running = true → s.mail.datToMw.front = some (.errorRecord i) →
      exec .errorRecordMessage s = .next (takeDat (mwAct s))) ∧
    (∀ (s : State) (i : Nat), s.mwr.running = true → s.mail.datToMw.front = some (.planeFatal i) →
      exec .planeFatalNotice s = .next (takeDat (mwAct s))) ∧
    (∀ s : State, s.pwr.up = true → s.core.datReset = false →
      exec (.sensorRequest true) s = .next { s with mail := { s.mail with datToMw := s.mail.datToMw.push .sensorRequest } }) ∧
    (∀ s : State, s.mwr.running = true → s.mail.datToMw.front = some .sensorRequest →
      exec (.sensorRequest false) s = .next (takeDat (mwAct s))) ∧
    (∀ (s : State) (id : CmdId) (c : Cmd), ctlNext s = some (.command id) → findCmd s id = some c → c.durable = false →
      s.mwr.running = true → pktAuth c.pkt ≠ 3 → s.mwr.st ≠ .recovery →
      exec .mwForwardedCommand s = .next (updCmd c.id (fun c => { c with phase := .ready }) (mwAct s))) ∧
    (∀ (s : State) (id : CmdId) (k : Completion) (c : Cmd), s.mail.mwToCtl.front = some (.completion id k) →
      ctlTakes s = true → findCmd s id = some c →
      exec .forwardedCompletion s =
        .next (deliver c k { s with mail := { s.mail with mwToCtl := s.mail.mwToCtl.pop } }))

/-- FW_UPDATE, its sessions and its copy complete; BUDGET_WRITE programs one slot, for good, BUDGET_QUERY reads it, and the
sensor and grant classes answer (R14 to R17, R420, R423 to R426, R433, R436). Clauses here rest on the model's own choices,
log entries 13, 76, 102, 104. -/
def Obligations.UpdatesAndBudget : Prop :=
  (∀ (s : State) (id : CmdId) (c : Cmd), Runs s .fwUpdate id c → fld c.pkt 2 1 0 = 1 → fld c.pkt 2 31 4 = 0 →
      dw c.pkt 3 = 0 → 0 < dw c.pkt 4 → dw c.pkt 4 ≤ 4096 → s.mwr.staging = none → flashReleased s = false →
      Completes (exec (.fwStage id) s) c .success 0 0 fun u =>
        u.mwr.staging = some { owner := c.id.origin, image := (c.input ++ List.replicate (dw c.pkt 4) 0).take (dw c.pkt 4) } ∧
        u.store = s.store.setSlot (1 - s.store.active)
          (parseImage ((c.input ++ List.replicate (dw c.pkt 4) 0).take (dw c.pkt 4))) ∧
        u = { heard s with mwr := u.mwr, store := u.store }) ∧
    (∀ (s : State) (id : CmdId) (c : Cmd) (img : List Byte), Runs s .fwUpdate id c → fld c.pkt 2 2 0 = 2 → fld c.pkt 2 31 4 = 0 →
      fbit c.pkt 2 3 = false → s.mwr.st ≠ .recovery → flashReleased s = false →
      s.mwr.staging = some { owner := c.id.origin, image := img } → dw c.pkt 4 = img.length →
      (bootCode (svnInForce s) (parseImage img) = 0 →
        Completes (exec (.fwCommit id) s) c .success (imgResult (parseImage img)) 0 fun u => u.mwr.staging = none ∧
          u.store = (s.store.setSlot (1 - s.store.active) (parseImage img)).point (1 - s.store.active) ∧
          ∃ v, v = { heard s with mwr := v.mwr, store := v.store } ∧ u = raisePf 0xE003 0 (imgVer24 (parseImage img) * 2 ^ 8) v) ∧
      (bootCode (svnInForce s) (parseImage img) ≠ 0 → exec (.fwCommit id) s =
        .next (commitFails c (bootCode (svnInForce s) (parseImage img)) (heard s)))) ∧
    (∀ (s : State) (id : CmdId) (c : Cmd) (img : List Byte), Runs s .fwUpdate id c → fld c.pkt 2 2 0 = 6 → fld c.pkt 2 31 4 = 0 →
      flashReleased s = false → s.mwr.staging = some { owner := c.id.origin, image := img } →
      dw c.pkt 4 = img.length →
      (bootCode (svnInForce s) (parseImage img) = 0 → ∃ t, exec (.fwCommitGolden id) s = .next t ∧
        t.mwr.copying = some { id := c.id, since := s.core.t, image := parseImage img } ∧ t.store.goldenWp = false ∧
        t.mwr.staging = none) ∧
      (bootCode (svnInForce s) (parseImage img) ≠ 0 → exec (.fwCommitGolden id) s =
        .next (commitFails c (bootCode (svnInForce s) (parseImage img)) (heard s)))) ∧
    (∀ (s : State) (g : GoldenCopy), s.mwr.copying = some g → s.mwr.serves = true →
      ∃ v, exec (.goldenCopyEnd true) s = .next (afterCommit false
          (completeId g.id .success (imgResult g.image) 0 (raisePf 0xE003 0 (1 + imgVer24 g.image * 2 ^ 8) v))) ∧
        v.store = { s.store with goldenWp := true, golden := g.image } ∧ v.mwr = { s.mwr with copying := none } ∧
        v = { s with store := v.store, mwr := v.mwr }) ∧
    (∀ (s : State) (id : CmdId) (c : Cmd), Runs s .fwUpdate id c → fld c.pkt 2 1 0 = 3 → fld c.pkt 2 31 4 = 0 →
      otherSession s c = false →
      Completes (exec (.fwAbandon id) s) c .success 0 0 fun u => u = { heard s with mwr := { (heard s).mwr with staging := none } }) ∧
    (∀ (s : State) (id : CmdId) (c : Cmd), Runs s .budgetWrite id c → fld c.pkt 2 31 0 ≤ 4 → budRefusal s c = none →
      s.dom.key = none → budInvalid s (fld c.pkt 2 7 0) (dw c.pkt 3) = false →
      inForce (budSlots s.store (fld c.pkt 2 7 0)) ≠ some (dw c.pkt 3) → slotsLeft s (fld c.pkt 2 7 0) ≠ 0 →
      Completes (exec (.budgetWrite id true) s) c .success 0 0 fun u =>
        budSlots u.store (fld c.pkt 2 7 0) = budSlots s.store (fld c.pkt 2 7 0) ++ [{ value := dw c.pkt 3, ok := true }] ∧
        u.store.attempts.length = s.store.attempts.length + 1 ∧ u = { heard s with store := u.store }) ∧
    (∀ (s : State) (id : CmdId) (c : Cmd), Runs s .budgetQuery id c → fld c.pkt 2 31 0 ≤ 4 → dw c.pkt 5 = 0 →
      Completes (exec (.budgetQuery id) s) c .success ((inForce (budSlots s.store (fld c.pkt 2 7 0))).getD 0xFFFFFFFF)
        (slotsLeft s (fld c.pkt 2 7 0)) fun u => u = heard s) ∧
    (∀ (s : State) (id : CmdId) (c : Cmd) (reading : Int), MailRuns s 1 id c → sensorUnit (dw c.pkt 3) ≠ 0 →
      Completes (exec (.sensorRead id reading) s) c .success (ofSigned 32 reading) (sensorUnit (dw c.pkt 3)) fun u => u = heard s) ∧
    (∀ (s : State) (id : CmdId) (c : Cmd), MailRuns s 4 id c →
      Completes (exec (.grantPolicy id) s) c .success 0 0 fun u =>
        u = { heard s with mwr := { (heard s).mwr with grants := fbit c.pkt 3 0 } })

/-- POWER_VOTE and POWER_QUERY complete as R390, R392, R412 and R414 say. Clauses here rest on the model's own choices, log
entries 67, 115. -/
def Obligations.PowerVotes : Prop :=
  (∀ (s : State) (id : CmdId) (c : Cmd), Runs s .powerVote id c → fld c.pkt 2 0 0 = 0 → fld c.pkt 2 31 1 = 0 →
      (c.context < 16 ∧ bit s.stn.floorFence c.context = false ∨ c.context = 25 ∧ layoutPairs s ≠ []) → isGranary s = false →
      (pdom s c.context).level = .active →
      Completes (exec (.powerVotePlace id) s) c .success 0 0 fun u => (pdom u c.context).host.contains c.fn = true ∧
        (pdom u c.context).level = .active ∧ (∀ e, e ≠ c.context → pdom u e = pdom s e) ∧
        u.mail = (if (pdom s c.context).host.contains c.fn then s else tellMw (.powerVote c.context c.fn true) s).mail ∧
        u = { s with pwr := { s.pwr with doms := u.pwr.doms }, mail := u.mail }) ∧
    (∀ (s : State) (id : CmdId) (c : Cmd), Runs s .powerVote id c → fld c.pkt 2 0 0 = 0 → fld c.pkt 2 31 1 = 0 →
      c.context < 16 → bit s.stn.floorFence c.context = false → isGranary s = false → powered s = true →
      (pdom s c.context).level = .off → (pdom s c.context).host = [] → (pdom s c.context).wakeAt = none →
      ∃ u, exec (.powerVotePlace id) s = .next (accept c u) ∧ pdom u c.context = { pdom s c.context with
          host := [c.fn], wakeAt := some s.core.t, clearAt := none, waiters := (pdom s c.context).waiters ++ [c.id] } ∧
        (∀ e, e ≠ c.context → pdom u e = pdom s e) ∧
        u = { s with pwr := { s.pwr with doms := u.pwr.doms }, mail := (tellMw (.powerVote c.context c.fn true) s).mail }) ∧
    (∀ (s : State) (id : CmdId) (c : Cmd), Runs s .powerVote id c → fld c.pkt 2 0 0 = 1 → fld c.pkt 2 31 1 = 0 →
      (c.context < 16 ∧ bit s.stn.floorFence c.context = false ∨ c.context = 25 ∧ layoutPairs s ≠ []) →
      Completes (exec (.powerVoteWithdraw id) s) c .success 0 0 fun u => (pdom u c.context).host.contains c.fn = false ∧
        (∀ e, e ≠ c.context → pdom u e = pdom s e) ∧
        u = { s with pwr := { s.pwr with doms := u.pwr.doms }, mail := (tellMw (.powerVote c.context c.fn false) s).mail }) ∧
    (∀ (s : State) (id : CmdId) (c : Cmd), Runs s .powerQuery id c → c.context = 0xFF →
      Completes (exec (.powerQuery id) s) c .success
        (s.pwr.state.code + s.pwr.target.code * 2 ^ 4 + flag s.pwr.boost * 2 ^ 7 + flag s.pwr.thermal * 2 ^ 8)
        (s.pwr.wakeSrc + flag s.pwr.wakeValid * 2 ^ 8 + flag s.pwr.wakeFromOff * 2 ^ 9) fun u => u = s) ∧
    (∀ (s : State) (id : CmdId) (c : Cmd), Runs s .powerQuery id c → c.context < 30 →
      Completes (exec (.powerQuery id) s) c .success
        ((levelOf s c.context).code + s.pwr.state.code * 2 ^ 2 + flag (!(pdom s c.context).host.isEmpty) * 2 ^ 8 +
          otherVotes s c.context * 2 ^ 9)
        (sat 0xFFFFFFFF ((s.core.t - (pdom s c.context).since) / 1000)) fun u => u = s)

/-- POWER_STATE is accepted where R397 lets it be; RUN ends an entry (R397, R400). Clauses here rest on the model's own choices,
log entry 67. -/
def Obligations.PowerStates : Prop :=
  (∀ (s : State) (id : CmdId) (c : Cmd), Runs s .powerState id c → c.context = 0xFF → dw c.pkt 2 = 0 → s.pwr.state = .run →
      s.pwr.entry = none → Completes (exec (.powerStateRun id) s) c .success 0 0 fun u => u = s) ∧
    (∀ (s : State) (id : CmdId) (c : Cmd), Runs s .powerState id c → c.context = 0xFF → dw c.pkt 2 = 0 → s.pwr.state = .run →
      s.pwr.entry ≠ none → s.pwr.aoIn = true →
      ∃ t, exec (.powerStateRun id) s = .next t ∧ t.pwr.entry = none ∧ t.pwr.target = .run ∧ t.pwr.state = .run ∧
        t = abandonEntry (complete c .success 0 0 s)) ∧
    (∀ (s : State) (id : CmdId) (c : Cmd), Runs s .powerState id c → c.context = 0xFF → dw c.pkt 2 = 2 → s.pwr.state = .run →
      s.pwr.entry = none → sleepRefusal c s = 0 → dw c.pkt 3 = 0 →
      exec (.powerStateSleep id) s = .next { complete c .success 2 0 s with
        pwr := { s.pwr with target := .sleep, wakeTimer := none, entry := some { target := .sleep, since := s.core.t } } }) ∧
    (∀ (s : State) (id : CmdId) (c : Cmd), Runs s .powerState id c → c.context = 0xFF → dw c.pkt 2 = 3 → s.pwr.state = .run →
      s.pwr.entry = none → sleepRefusal c s = 0 → dw c.pkt 3 ≠ 0 →
      exec (.powerStateDeepSleep id) s = .next { complete c .success 3 0 s with
        pwr := { s.pwr with target := .deepSleep, wakeTimer := some (s.core.t + dw c.pkt 3 * 1000000)
                            entry := some { target := .deepSleep, since := s.core.t } } }) ∧
    (∀ (s : State) (id : CmdId) (c : Cmd), Runs s .powerState id c → c.context = 0xFF → dw c.pkt 2 = 4 → s.pwr.state = .run →
      s.pwr.entry = none → sleepRefusal c s = 0 → dw c.pkt 3 = 0 →
      exec (.powerStateOff id) s = .next { complete c .success 4 0 s with
        pwr := { s.pwr with target := .off, wakeTimer := none, entry := some { target := .off, since := s.core.t } } })

/-- The steps of entry to a sleep state and the end of one (R387, R399, R400, R404, R405). Clauses here rest on the model's own
choices, log entries 67, 68. -/
def Obligations.EntrySteps : Prop :=
  (∀ (s : State) (e : Entry), s.pwr.entry = some e → e.committed = false → e.noticeAt = none → e.since + ms 1 ≤ s.core.t →
      e.target = .sleep →
      ∃ t, exec .powerEntryFetchStop s = .next t ∧ t.pwr = { s.pwr with
          state := .entering, entry := some { e with stopped := true, committed := true } } ∧ Told { s with pwr := t.pwr } t) ∧
    (∀ (s : State) (e : Entry), s.pwr.entry = some e → e.committed = false → e.noticeAt = none → e.since + ms 1 ≤ s.core.t →
      e.target ≠ .sleep →
      ∃ u, exec .powerEntryFetchStop s = .next u ∧ u.mail.ctlToMw = (enterState .entering s).mail.ctlToMw.push .powerNotice ∧
        u.pwr.state = .entering ∧ u.pwr.entry = some { e with
          stopped := true, noticeAt := some s.core.t, committed := s.mwr.wfi && decide (s.mwr.wfiMode = 2) } ∧
        u.mwr.st = s.mwr.st) ∧
    (∀ s : State, s.mwr.running = true → ctlNext s = some .powerNotice →
      ∃ t, exec .powerNotice s = .next t ∧ t.mwr.pwrmode = 2 ∧ t = { mwAct s with mail := t.mail, mwr := t.mwr }) ∧
    (∀ s : State, s.mwr.running = true → s.mwr.wfi = false → s.mwr.pwrmode < 2 →
      ∃ t, exec .mwWfi s = .next t ∧ t.mwr = { s.mwr with wfi := true, wfiMode := s.mwr.pwrmode } ∧
        t = { s with mwr := t.mwr, pwr := { s.pwr with doms := t.pwr.doms } }) ∧
    (∀ (s : State) (e : Entry) (n : Nat), s.mwr.running = true → s.mwr.wfi = false → s.mwr.pwrmode = 2 →
      (s.pwr.target = .deepSleep ∨ s.pwr.target = .off) → s.pwr.entry = some e → e.noticeAt = some n →
      ∃ t, exec .mwWfi s = .next t ∧ t.mwr = { s.mwr with wfi := true, wfiMode := 2 } ∧
        t.pwr.entry = some { e with committed := true } ∧ t = { s with mwr := t.mwr, pwr := t.pwr }) ∧
    (∀ (s : State) (e : Entry) (n : Nat), s.pwr.entry = some e → e.committed = false → e.noticeAt = some n →
      n + ms 100 ≤ s.core.t → e.fromSleep = false →
      ∃ u, exec .powerEntryMwTimeout s = .next (raisePf 0xD001 0 0xFF u) ∧ u.pwr.entry = none ∧ u.pwr.target = .run ∧
        u.pwr.state ≠ .entering ∧ u = { s with pwr := u.pwr, mwr := u.mwr }) ∧
    (∀ (s : State) (e : Entry), s.pwr.entry = some e → e.committed = true → e.wake = none → e.target = .sleep →
      ∃ t, exec .powerEntryEnd s = .next t ∧ t.pwr.state = .sleep ∧ t.pwr.entry = none ∧ t.pwr.pll = s.pwr.pll ∧
        t.pwr.railEn = s.pwr.railEn) ∧
    (∀ (s : State) (e : Entry), s.pwr.entry = some e → e.committed = true → e.wake = none → e.target = .deepSleep →
      ∃ t, exec .powerEntryEnd s = .next t ∧ t.pwr.state = .deepSleep ∧ t.pwr.entry = none ∧ t.pwr.pll = false ∧
        t.pwr.endpoint = false ∧ t.hif.accept = false ∧ t.pwr.railEn = s.pwr.railEn.set 2 false) ∧
    (∀ (s : State) (e : Entry), s.pwr.entry = some e → e.committed = true → e.wake = none → e.target = .off →
      ∃ t, exec .powerEntryEnd s = .next t ∧ t.pwr.state = .off ∧ t.pwr.entry = none ∧
        t.pwr.railEn = (dropNext 0 8 s.core.t s.pwr).railEn ∧ t.pwr.falling = (dropNext 0 8 s.core.t s.pwr).falling ∧
        t.brk.valves = [] ∧ t.brk.slots = [])

/-- IDLE, the holds and the wakes of domains, and the wake sources, which wake a device in SLEEP and are recorded (R388, R391,
R393, R396, R402, R403). Clauses here rest on the model's own choices, log entries 67, 68. -/
def Obligations.HoldsAndWakes : Prop :=
  (∀ s : State, s.pwr.state = .run → s.pwr.target = .run → s.pwr.entry = none → s.trn.items = [] → s.hif.cmds = [] →
      ∃ t, exec .idleEnter s = .next t ∧ t.pwr.state = .idle ∧ Told { s with pwr := t.pwr } t ∧
        ∀ d, d < 16 → (pdom s d).level = .active → (pdom t d).level = .gated) ∧
    (∀ (s : State) (d : Nat), (d < 16 ∨ d = 25) → powered s = true → voted s d = false → (pdom s d).level = .active →
      clearedAt (pdom s d) + idleHold s d ≤ s.core.t →
      ∃ t, exec (.voteIdleHoldExpiry d) s = .next t ∧ (pdom t d).level = (if d < 16 then .off else .retain) ∧
        (pdom t d).since = s.core.t ∧ (∀ e, e ≠ d → pdom t e = pdom s e) ∧
        t = { s with pwr := { s.pwr with doms := t.pwr.doms } }) ∧
    (∀ (s : State) (d e : Nat), (pdom s d).prewake = some e → e ≤ s.core.t →
      ∃ t, exec (.prewakeHoldExpiry d) s = .next t ∧ (pdom t d).prewake = none ∧ (∀ x, x ≠ d → pdom t x = pdom s x) ∧
        t = { s with pwr := { s.pwr with doms := t.pwr.doms } }) ∧
    (∀ (s : State) (d w : Nat), (d < 16 ∨ d = 25) → (pdom s d).wakeAt = some w → s.pwr.state = .run → s.trn.items = [] →
      ∃ t, exec (.domainWakeDone d) s = .next t ∧ (pdom t d).level = .active ∧ (pdom t d).wakeAt = none ∧
        (pdom t d).since = s.core.t ∧ (∀ e, e ≠ d → pdom t e = pdom s e) ∧ t.trn = s.trn) ∧
    (∀ s : State, s.pwr.aoIn = true → s.pwr.state = .sleep →
      ∃ t, exec .wakeNEdge s = .next t ∧ t.pwr.state = .run ∧ t.pwr.wakeSrc = 1 ∧ t.pwr.wakeFromOff = s.pwr.cold ∧
        t.pwr.entry = none) ∧
    (∀ (s : State) (e : Nat), s.pwr.aoIn = true → s.pwr.state = .sleep → s.pwr.wakeTimer = some e → e ≤ s.core.t →
      ∃ t, exec .aoWakeTimerExpiry s = .next t ∧ t.pwr.state = .run ∧ t.pwr.wakeSrc = 2 ∧ t.pwr.wakeTimer = none) ∧
    (∀ s : State, s.pwr.aoIn = true → s.pwr.state = .sleep →
      ∃ t, exec .usbAttach s = .next t ∧ t.pwr.state = .run ∧ t.pwr.wakeSrc = 4 ∧ t.usb.attached = true) ∧
    (∀ s : State, s.pwr.state = .run → s.pwr.entry = none →
      exec .usbAttach s = .next { s with usb := { s.usb with attached := true, dev := max s.usb.dev 1 } }) ∧
    (∀ s : State, s.pwr.aoIn = true → s.pwr.state = .sleep →
      ∃ t, exec .i3cIbiWake s = .next t ∧ t.pwr.state = .run ∧ t.pwr.wakeSrc = 5)

/-- The rail sequence: what it waits for, in what order it goes on and what a wait that expires does (R404, R498, R499, R504,
R505). Clauses here rest on the model's own choices, log entry 69. -/
def Obligations.RailSequence : Prop :=
  (∀ (s : State) (n : Nat) (steward : Bool), s.pwr.wait = .pg n → s.pwr.cold = true → n < 7 →
      exec (.railPgRise n steward) s = .next { s with pwr := { s.pwr with
        railPg := s.pwr.railPg.set n true, strap := if n = 0 then steward else s.pwr.strap
        wait := .gap (n + 1), waitAt := s.core.t } }) ∧
    (∀ (s : State) (n : Nat) (steward : Bool), s.pwr.wait = .pg n → s.pwr.cold = true → n = 7 →
      ∃ t, exec (.railPgRise n steward) s = .next t ∧ t.pwr.wait = .xtal ∧ t.pwr.waitAt = s.core.t ∧
        t.pwr.railPg = s.pwr.railPg.set 7 true ∧ t = { s with pwr := t.pwr }) ∧
    (∀ (s : State) (n : Nat) (steward : Bool), s.pwr.wait = .pg n → s.pwr.cold = false →
      exec (.railPgRise n steward) s = .next { s with pwr := { s.pwr with
        railPg := s.pwr.railPg.set n true, wait := .pll, waitAt := s.core.t } }) ∧
    (∀ s : State, s.pwr.wait = .xtal → exec .xtalMwReady s = .next { s with pwr := { s.pwr with
        xtal := true, wait := .pll, waitAt := s.core.t } }) ∧
    (∀ s : State, s.pwr.wait = .pll → s.pwr.cold = true → s.pwr.warmAfter = false →
      ∃ t, exec .pllLock s = .next t ∧ t.pwr.state = .run ∧ t.pwr.pll = true ∧ t.pwr.cold = false ∧ t.pwr.wait = .idle ∧
        t.core.fill = needsFill s ∧ t.core.roleStat = (if needsFill s then .none else s.core.role) ∧ t.hif.accept = true) ∧
    (∀ s : State, s.pwr.wait = .pll → s.pwr.cold = false → s.pwr.warmAfter = false →
      ∃ t, exec .pllLock s = .next t ∧ t.pwr.state = .run ∧ t.pwr.pll = true ∧ t.pwr.wait = .idle ∧ t.hif.accept = true) ∧
    (∀ (s : State) (n : Nat), s.pwr.wait = .pg n → s.pwr.waitAt + ms 2 ≤ s.core.t → s.pwr.tries = 0 →
      ∃ t, exec .pgoodTimeout s = .next t ∧ t.pwr.wait = .pause ∧ t.pwr.waitAt = s.core.t ∧ t.pwr.failCause = 1 ∧
        t.pwr.tries = 1 ∧ t.pwr.failCount = sat 15 (s.pwr.failCount + 1) ∧ t = { s with pwr := t.pwr }) ∧
    (∀ s : State, s.pwr.wait = .xtal → s.pwr.waitAt + ms 5 ≤ s.core.t → s.pwr.tries = 1 →
      ∃ t, exec .xtalMwTimeout s = .next t ∧ t.pwr.state = .wakeFailed ∧ t.pwr.wakeFailN = true ∧ t.pwr.failCause = 2 ∧
        t.pwr.failEntered = true ∧ t = { s with pwr := t.pwr }) ∧
    (∀ s : State, s.pwr.wait = .pll → s.pwr.waitAt + us 200 ≤ s.core.t → s.pwr.tries = 1 →
      ∃ t, exec .pllLockTimeout s = .next t ∧ t.pwr.state = .wakeFailed ∧ t.pwr.wakeFailN = true ∧ t.pwr.failCause = 3 ∧
        t.pwr.failEntered = true ∧ t = { s with pwr := t.pwr }) ∧
    (∀ s : State, s.pwr.wait = .pause → s.pwr.waitAt + ms 10 ≤ s.core.t →
      ∃ t, exec .wakeRetryDelayEnd s = .next t ∧ t.pwr.state = .exiting ∧ t.pwr.waitAt = s.core.t ∧
        t.pwr.wait = .pg (if s.pwr.cold then 0 else 2) ∧
        t.pwr.railEn = s.pwr.railEn.set (if s.pwr.cold then 0 else 2) true ∧ t = { s with pwr := t.pwr })

/-- Rails and supplies that fail, the AO clock, the stone clock and the thermal sensor (R37, R404, R407, R408, R458, R497, R499,
R501, R504, R506). Clauses here rest on the model's own choices, log entries 68, 96, 118. -/
def Obligations.SuppliesAndClocks : Prop :=
  (∀ (s : State) (n : Nat) (p : Pwr), s.pwr.railPg.getD n false = true →
      p = railsFall s.core.t { s.pwr with railPg := s.pwr.railPg.set n false } → p.railEn.getD n false = true →
      s.pwr.wait = .idle → s.pwr.state ≠ .wakeFailed →
      ∃ t, exec (.railPgFall n) s = .next t ∧ t.pwr.state = .wakeFailed ∧ t.pwr.railEn = (dropNext 0 8 s.core.t p).railEn ∧
        t.pwr.falling = (dropNext 0 8 s.core.t p).falling ∧ t.pwr.railPg = p.railPg ∧
        t.pwr.failCause = 1 ∧ t.pwr.wakeFailN = true ∧ t.brk = { s.brk with valves := [], slots := [], deferOrder := [] }) ∧
    (∀ (s : State) (n : Nat), s.pwr.railPg.getD n false = true → s.pwr.wait ≠ .idle →
      exec (.railPgFall n) s = .next { s with pwr := railsFall s.core.t { s.pwr with railPg := s.pwr.railPg.set n false } }) ∧
    (∀ s : State, s.pwr.aoIn = true → ∃ t, exec .aoBrownout s = .next t ∧ t = coldReset true (some 2) s ∧ t.brk.set = true ∧
        t.brk.inhibit = true ∧ t.brk.lockout = false ∧ t.pwr.state = .exiting ∧ t.mwr.st = .reset ∧
        t.core.causes.getLast? = some ⟨2, aoTicks s, true⟩ ∧ t.store.role = s.store.role) ∧
    (∀ s : State, ∃ t, exec .vddAoInLow s = .next t ∧ t.pwr.aoIn = false ∧ t.pwr.state = .off ∧ t.pwr.railEn = noRails ∧
        t.pwr.falling = none ∧ t.pwr.wakeTimer = none ∧ t.store = s.store ∧ t.brk.slots = []) ∧
    (∀ s : State, s.pwr.aoIn = true → exec .xtalAoSwitch s = .next { s with pwr := { s.pwr with xtalAo := true } }) ∧
    (∀ s : State, s.mwr.running = true → s.mwr.grants = true → (s.mail.mwToCtl.front = some .headroomGrant → ctlTakes s = false) →
      exec .headroomGrant s = .next (postCtl .headroomGrant ((mwAct s).modPwr fun p => { p with vcore := 850 }))) ∧
    (∀ s : State, s.mail.mwToCtl.front = some .headroomGrant → ctlTakes s = true → s.pwr.thermal = false → s.pwr.boost = false →
      exec .headroomGrant s = .next (raisePf 0xD003 0 0x101
        { popCtl s with pwr := { s.pwr with grant := some (s.core.t + 100000000), boost := true } })) ∧
    (∀ s : State, s.mail.mwToCtl.front = some .headroomGrant → ctlTakes s = true → s.pwr.thermal = true →
      exec .headroomGrant s = .next { popCtl s with pwr := { s.pwr with grant := some (s.core.t + 100000000) } }) ∧
    (∀ (s : State) (e : Nat), s.pwr.grant = some e → e ≤ s.core.t → s.pwr.boost = true →
      exec .grantLapse s = .next (raisePf 0xD003 0 0x200
        { s with pwr := { s.pwr with grant := none, vcore := 750, boost := false } })) ∧
    (∀ s : State, s.pwr.pll = true → s.pwr.boost = true →
      exec .thermalThrottle s = .next (raisePf 0xD003 0 0x300 { s with pwr := { s.pwr with thermal := true, boost := false } })) ∧
    (∀ s : State, s.pwr.pll = true → s.pwr.boost = false →
      exec .thermalThrottle s = .next { s with pwr := { s.pwr with thermal := true } }) ∧
    (∀ (s : State) (e : Nat), s.pwr.thermal = true → s.pwr.grant = some e → s.core.t < e → s.pwr.boost = false →
      exec .thermalThrottleClear s = .next (raisePf 0xD003 0 0x301
        { s with pwr := { s.pwr with thermal := false, boost := true } })) ∧
    (∀ s : State, s.pwr.thermal = true → s.pwr.grant = none →
      exec .thermalThrottleClear s = .next { s with pwr := { s.pwr with thermal := false } }) ∧
    (∀ s : State, s.pwr.pll = true → exec .thermalAlert s = .next { s with pwr := { s.pwr with alert := true } }) ∧
    (∀ s : State, exec .thermalAlertClear s = .next { s with pwr := { s.pwr with alert := false } })

/-- SLEEP_VOTE objects, withdraws and wakes; what a voter sees, and the steps of a granary's sleep after agreement (R378 to
R381, R383, R411). Clauses here rest on the model's own choices, log entries 52, 114, 115. -/
def Obligations.SleepVotesAndSteps : Prop :=
  (∀ (s : State) (id : CmdId) (c : Cmd), Runs s .sleepVote id c → dw c.pkt 2 = 0 → bit c.context 8 = true → isGranary s = true →
      Completes (exec (.sleepVoteObject id) s) c .success s.dom.sleep.state.code 0 fun u =>
        (voteHolder c, 256) ∈ u.dom.objections ∧ u = { s with dom := { s.dom with objections := u.dom.objections } }) ∧
    (∀ (s : State) (id : CmdId) (c : Cmd), Runs s .sleepVote id c → dw c.pkt 2 = 0 → bit c.context 8 = false →
      isGranary s = false → tableRole s (bits c.context 7 0) = 2 →
      Completes (exec (.sleepVoteObject id) s) c .success (sleepSeen s (bits c.context 7 0) false) 0 fun u =>
        (voteHolder c, bits c.context 7 0) ∈ u.dom.objections ∧
        u = { s with dom := { s.dom with objections := u.dom.objections } }) ∧
    (∀ (s : State) (id : CmdId) (c : Cmd), Runs s .sleepVote id c → dw c.pkt 2 = 1 → bit c.context 8 = true → isGranary s = true →
      s.dom.objections.contains (voteHolder c, 256) = true →
      Completes (exec (.sleepVoteWithdraw id) s) c .success s.dom.sleep.state.code 0 fun u =>
        (voteHolder c, 256) ∉ u.dom.objections ∧ u.dom.sleep.quietAt = s.core.t ∧ u = { s with dom := { s.dom with
          objections := u.dom.objections, sleep := { s.dom.sleep with quietAt := s.core.t } } }) ∧
    (∀ (s : State) (id : CmdId) (c : Cmd), Runs s .sleepVote id c → dw c.pkt 2 = 2 → bit c.context 8 = true → isGranary s = true →
      s.dom.sleep.state = .asleep →
      Completes (exec (.sleepVoteWake id) s) c .success 5 0 fun u => u = sleepExit s ∧ u.dom.sleep.state = .exiting ∧
        u.dom.sleep.exitAt = s.core.t ∧ u.pwr.wakeSrc = 7 ∧
        u.mail.mwToCtl = s.mail.mwToCtl.push (.agentVote true)) ∧
    (∀ (s : State) (id : CmdId) (c : Cmd), Runs s .sleepVote id c → dw c.pkt 2 = 2 → bit c.context 8 = false →
      isGranary s = false → tableRole s (bits c.context 7 0) = 2 →
      Completes (exec (.sleepVoteWake id) s) c .success (sleepSeen s (bits c.context 7 0) false) 0 fun u =>
        u = sendMsg (bits c.context 7 0) (.sleepVote 0 2) s) ∧
    (∀ (s : State) (h : MsgHead) (n commit : Nat), s.pwr.state = .run → msgBad s h = false →
      ∃ t, exec (.sleepAgreedReceive h n commit) s = .next t ∧ t.dom.seen.get h.sender = some .agreed ∧
        t.dom.commits.get h.sender = some commit) ∧
    (∀ (s : State) (h : MsgHead) (n : Nat), s.pwr.state = .run → msgBad s h = false →
      ∃ t, exec (.sleepAbortReceive h n) s = .next t ∧ t.dom.seen.get h.sender = some .awake ∧
        t.dom.commits = s.dom.commits.erase h.sender) ∧
    (∀ (s : State) (h : MsgHead), s.pwr.state = .run → msgBad s h = false →
      ∃ t, exec (.sleepAwakeReceive h) s = .next t ∧ t.dom.seen.get h.sender = some .awake ∧
        t.dom.commits = s.dom.commits.erase h.sender) ∧
    (∀ s : State, s.dom.sleep.state = .agreed → s.dom.sleep.commitAt ≤ s.core.t →
      ∃ t, exec .sleepCommit s = .next t ∧ t.dom.sleep = { s.dom.sleep with state := .entering } ∧
        (pdom t 25).agent = (pdom s 25).agent ∧ (pdom t 25).access = none ∧
        t.mail = { s.mail with mwToCtl := s.mail.mwToCtl.push (.agentVote false) }) ∧
    (∀ s : State, s.dom.sleep.state = .entering → s.dom.sleep.exitPending = false → (pdom s 25).level = .active →
      voted s 25 = false →
      ∃ t, exec .sleepEntryEnd s = .next t ∧ t.dom.sleep = { s.dom.sleep with state := .asleep } ∧
        (pdom t 25).level = .retain) ∧
    (∀ s : State, s.dom.sleep.state = .entering → s.dom.sleep.exitPending = true → (pdom s 25).agent = false →
      ∃ t, exec .sleepEntryEnd s = .next t ∧
        t.dom.sleep = { s.dom.sleep with state := .exiting, exitAt := s.core.t, exitPending := false } ∧
        t.mail = { s.mail with mwToCtl := s.mail.mwToCtl.push (.agentVote true) }) ∧
    (∀ s : State, s.dom.sleep.state = .exiting → (pdom s 25).level = .active → s.grn.asleep = [] →
      ∃ t, exec .sleepExitEnd s = .next t ∧ t.dom.sleep = { s.dom.sleep with state := .awake, quietAt := s.core.t }) ∧
    (∀ s : State, s.mwr.running = true → isGranary s = true →
      exec (.domainAgentSleepVote true) s = .next (postCtl (.agentVote
        (decide (s.dom.sleep.state ≠ .entering ∧ s.dom.sleep.state ≠ .asleep))) (mwAct s))) ∧
    (∀ (s : State) (place : Bool), s.mail.mwToCtl.front = some (.agentVote place) → ctlTakes s = true →
      ∃ t, exec (.domainAgentSleepVote false) s = .next t ∧ (pdom t 25).agent = place ∧
        (∀ e, e ≠ 25 → pdom t e = pdom s e) ∧ t = { popCtl s with pwr := { s.pwr with doms := t.pwr.doms } })

/-- A granary proposes sleep, its voters answer, and it agrees or stays awake (R377, R378, R379, R383). -/
def Obligations.SleepProposal : Prop :=
  (∀ s : State, isGranary s = true → joined s = true → s.grn.ready = true → s.dom.sleep.state = .awake →
      0 < feature s 0x84 0 30 → s.dom.sleep.quietAt + sec (feature s 0x84 0 30) ≤ s.core.t →
      (s.dom.objections.any fun o => decide (o.2 = 256)) = false → liveMembers s = [] →
      ∃ t, exec .sleepQuietExpiry s = .next t ∧ t.dom.sleep = { s.dom.sleep with
        state := .agreed, commitAt := s.core.t + 200000, awaited := [], voters := []
        proposal := (s.dom.sleep.proposal + 1) % 2 ^ 32 }) ∧
    (∀ s : State, isGranary s = true → joined s = true → s.grn.ready = true → s.dom.sleep.state = .awake →
      0 < feature s 0x84 0 30 → s.dom.sleep.quietAt + sec (feature s 0x84 0 30) ≤ s.core.t →
      (s.dom.objections.any fun o => decide (o.2 = 256)) = false → liveMembers s ≠ [] →
      ∃ t, exec .sleepQuietExpiry s = .next t ∧ t.dom.sleep = { s.dom.sleep with
        state := .proposed, sentAt := s.core.t, awaited := liveMembers s, voters := liveMembers s
        proposal := (s.dom.sleep.proposal + 1) % 2 ^ 32 }) ∧
    (∀ (s : State) (h : MsgHead) (n : Nat), s.pwr.state = .run → msgBad s h = false → s.mwr.running = true →
      ∃ u, exec (.sleepProposeReceive h n) s = .next (sendMsg h.sender (.sleepVote n (flag (!votesNo u h.sender))) u) ∧
        u.dom.seen.get h.sender = some .proposed ∧ u.dom.sleep = s.dom.sleep) ∧
    (∀ (s : State) (h : MsgHead) (n : Nat), s.pwr.state = .run → msgBad s h = false → isGranary s = true →
      s.dom.sleep.state = .proposed → n = s.dom.sleep.proposal → s.dom.sleep.awaited = [h.sender] →
      ∃ t, exec (.sleepVoteMessage h n 1) s = .next t ∧
        t.dom.sleep = { s.dom.sleep with state := .agreed, commitAt := s.core.t + 200000, awaited := [] }) ∧
    (∀ (s : State) (h : MsgHead) (n : Nat), s.pwr.state = .run → msgBad s h = false → isGranary s = true →
      s.dom.sleep.state = .proposed → n = s.dom.sleep.proposal → s.dom.sleep.awaited.contains h.sender = true →
      ∃ t, exec (.sleepVoteMessage h n 0) s = .next t ∧
        t.dom.sleep = { s.dom.sleep with state := .awake, quietAt := s.core.t, awaited := [] } ∧
        Told { s with dom := { s.dom with sleep := t.dom.sleep } } t) ∧
    (∀ s : State, s.dom.sleep.state = .proposed → s.dom.sleep.sentAt + ms 10 ≤ s.core.t →
      ∃ t, exec .sleepVoteTimeout s = .next t ∧
        t.dom.sleep = { s.dom.sleep with state := .awake, quietAt := s.core.t, awaited := [] } ∧
        Told { s with dom := { s.dom with sleep := t.dom.sleep } } t)

/-- DOMAIN_JOIN, DOMAIN_LEAVE and DOMAIN_STATUS complete (R357 to R360, R384, R385). Clauses here rest on the model's own
choices, log entries 58, 114. -/
def Obligations.DomainCommands : Prop :=
  (∀ (s : State) (id : CmdId) (bus : Bus) (c : Cmd) (table : List Byte) (t : MTable) (e : Envelope),
      Runs s .domainJoin id c → fld c.pkt 5 31 14 = 0 → 144 ≤ fld c.pkt 5 13 0 → fld c.pkt 5 13 0 ≤ 8304 →
      table = (match c.id.origin with
        | .domain _ _ => c.input.take (fld c.pkt 5 13 0) | _ => Bus.bytes bus (qw c.pkt 3) (fld c.pkt 5 13 0)) →
      parseTable table = some t → c.env = some e → s.dom.seq < e.seq →
      s.core.member ≠ none → t.id = dw c.pkt 2 → t.members.has (ownMember s) = true →
      (t.members.getD (ownMember s) ⟨0, 0⟩).role = s.core.role.code → (joined s = true → s.dom.id = t.id) →
      ((sha384Bytes table).take 32 ≠ slice (pktBytes c.pkt) 24 32 → exec (.domainJoin id bus) s = .next (invalid c 24 s)) ∧
      ((sha384Bytes table).take 32 = slice (pktBytes c.pkt) 24 32 → envelopeOk s (s.dom.key.getD t.key) c = false →
        exec (.domainJoin id bus) s = .next (refuse c 5 0 s)) ∧
      ((sha384Bytes table).take 32 = slice (pktBytes c.pkt) 24 32 → envelopeOk s (s.dom.key.getD t.key) c = true →
        flashReleased s = false → lateRefusal s c.fn (cmdFast s c) c.pkt c.op = none →
        ∃ u, exec (.domainJoin id bus) s = .next (complete c .success (u.dom.digest % 2 ^ 32) (u.dom.digest / 2 ^ 32) u) ∧
        u.dom.join = .member ∧ u.dom.id = t.id ∧ u.dom.members = t.members ∧ u.dom.key = some t.key ∧ u.dom.seq = e.seq ∧
        u.dom.stored = some { table, env := e, member := ownMember s, role := s.core.role })) ∧
    (∀ (s : State) (id : CmdId) (c : Cmd), Runs s .domainLeave id c → fld c.pkt 2 31 2 = 0 →
      (isGranary s = false ∨ fbit c.pkt 2 0 = true) →
      Completes (exec (.domainLeave id) s) c .success 0 0 fun u => u.dom.join = .none ∧ u.dom.id = 0 ∧ u.dom.members = [] ∧
        u.dom.digest = 0 ∧ u.dom.peers = [] ∧ (fbit c.pkt 2 1 = true → u.dom.key = none ∧ u.dom.stored = none)) ∧
    (∀ (s : State) (id : CmdId) (c : Cmd) (f : Nat), Runs s .domainStatus id c → c.id.origin = .pcie f →
      Completes (exec (.domainStatus id) s) c .success (domStatus s) (s.dom.digest % 2 ^ 32) fun u =>
        u = { s with out := s.out ++ [.hostWrite c.fn (qw c.pkt 2) ((List.range 256).flatMap (statusRecord s))] }) ∧
    (∀ (s : State) (id : CmdId) (c : Cmd), Runs s .domainStatus id c → c.id.origin = .usb →
      Completes (exec (.domainStatus id) s) c .success (domStatus s) (s.dom.digest % 2 ^ 32) fun u => u = s)

/-- Heartbeats go out and are judged, and members become SUSPECT, LOST or LEFT (R365 to R368, R370, R371). Clauses here rest on
the model's own choices, log entry 96. -/
def Obligations.Liveness : Prop :=
  (∀ s : State, joined s = true → s.core.ctlReset = false → s.dom.hbSentAt + ms 1 ≤ s.core.t →
      ∃ t, exec .heartbeatSend s = .next t ∧ t.dom.hbSentAt = s.core.t ∧ t = { s with
        dom := { s.dom with hbSentAt := s.core.t, msgSeq := t.dom.msgSeq }, out := t.out }) ∧
    (∀ (s : State) (h : MsgHead) (b : HbBody), s.pwr.state = .run → msgBad s h = false → h.sender ≠ ownMember s →
      (peer s h.sender).state = .up → disagreement s h b = 0 → h.inc ≤ (peer s h.sender).inc →
      ∃ t, exec (.heartbeatReceive h b) s = .next t ∧ (peer t h.sender).state = .up ∧
        (peer t h.sender).hbAt = some s.core.t ∧ (peer t h.sender).t3 = b.t3) ∧
    (∀ (s : State) (h : MsgHead) (b : HbBody), s.pwr.state = .run → msgBad s h = false → h.sender ≠ ownMember s →
      (peer s h.sender).state = .up → disagreement s h b ≠ 0 → h.inc ≤ (peer s h.sender).inc →
      ∃ t, exec (.heartbeatReceive h b) s = .next t ∧ (peer t h.sender).state = .quarantined ∧
        (peer t h.sender).reason = disagreement s h b) ∧
    (∀ (s : State) (h : MsgHead) (b : HbBody), s.pwr.state = .run → msgBad s h = false → h.sender = ownMember s →
      ∃ t, exec (.heartbeatReceive h b) s = .next t ∧ t.dom.dupAt = some s.core.t ∧ t.dom.peers = s.dom.peers) ∧
    (∀ (s : State) (m t0 : Nat), (peer s m).state = .up → (peer s m).hbAt = some t0 → t0 + ms 25 ≤ s.core.t →
      ∃ t, exec (.peerSuspectTimeout m) s = .next t ∧ (peer t m).state = .suspect ∧ ∀ k, k ≠ m → peer t k = peer s k) ∧
    (∀ (s : State) (m t0 : Nat), (peer s m).state = .suspect → (peer s m).hbAt = some t0 → t0 + ms 50 ≤ s.core.t →
      witnessed s m = true →
      ∃ t, exec (.peerLostTimeout m) s = .next t ∧ (peer t m).state = .lost ∧ ∀ k, k ≠ m → peer t k = peer s k) ∧
    (∀ (s : State) (h : MsgHead) (m : Nat), s.pwr.state = .run → msgBad s h = false → m ≠ h.sender →
      s.dom.members.has m = true →
      ∃ t, exec (.suspectReceive h m) s = .next t ∧ (peer t m).witness = some s.core.t ∧ (∀ k, k ≠ m → peer t k = peer s k) ∧
        t = { s with dom := { s.dom with peers := t.dom.peers } }) ∧
    (∀ (s : State) (h : MsgHead) (force : Bool), s.pwr.state = .run → msgBad s h = false →
      ∃ t, exec (.leaveReceive h force) s = .next t ∧ (peer t h.sender).state = .left) ∧
    (∀ (s : State) (t0 : Nat), s.dom.dupAt = some t0 → t0 + ms 50 ≤ s.core.t →
      exec .duplicateClearTimeout s = .next { s with dom := { s.dom with dupAt := none } })

/-- Commands between members, their replies and time limits, and time suspicion (R361 to R364, R371, R374). Clauses here rest on
the model's own choices, log entries 22, 87. -/
def Obligations.ForwardingAndTime : Prop :=
  (∀ (s : State) (h : MsgHead) (fn : Nat) (pkt : List Word) (env : Option Envelope) (data : List Byte), s.pwr.state = .run →
      msgBad s h = false → quarantined s h.sender = false →
      exec (.commandReceive h fn pkt env data none) s = .next (arrive (.domain h.sender fn) 0 pkt env data s)) ∧
    (∀ (s : State) (h : MsgHead) (fn : Nat) (pkt : List Word) (env : Option Envelope) (data : List Byte), s.pwr.state = .run →
      msgBad s h = false → quarantined s h.sender = true →
      exec (.commandReceive h fn pkt env data none) s =
        .next (sendMsg h.sender (.reply fn { tag := pktTag pkt, status := .peerQuarantined, result2 := h.sender }) s)) ∧
    (∀ (s : State) (h : MsgHead) (fn : Nat) (pkt : List Word) (env : Option Envelope) (data : List Byte) (seq index count : Nat),
      s.pwr.state = .run → s.dom.reasm = [] → 1 < count →
      exec (.commandReceive h fn pkt env data (some (seq, index, count))) s = .next { s with dom := { s.dom with
        reasm := [{ src := h.src, seq, count, got := [index], since := s.core.t }] } }) ∧
    (∀ (s : State) (src : Source) (seq : Nat) (r : Reasm), s.dom.reasm = [r] → r.src = src → r.seq = seq →
      r.since + ms 10 ≤ s.core.t →
      exec (.reassemblyTimeout src seq) s = .next { s with dom := { s.dom with
        reasm := [], drops := sat 0xFFFFFFFF (s.dom.drops + 1) } }) ∧
    (∀ (s : State) (h : MsgHead) (fn tag status result result2 : Nat) (retained : Bool) (c : Cmd) (n : Nat), s.pwr.state = .run →
      msgBad s h = false → findCmd s ⟨.pcie fn, tag⟩ = some c → c.phase = .forwarded n →
      exec (.replyReceive h fn tag status result result2 retained) s = .next (completeK c
        { tag, status := Status.ofCode status, result := result % 2 ^ 32, result2 := result2 % 2 ^ 32, retained }
        (noteRecord c h.sender (Status.ofCode status) result2 s))) ∧
    (∀ (s : State) (id : CmdId) (c : Cmd) (n : Nat), findCmd s id = some c → c.phase = .forwarded n → n + ms 100 ≤ s.core.t →
      Completes (exec (.forwardTimeout id) s) c .timeout 0 0 fun u =>
        u = { s with dom := { s.dom with fwdTimeouts := sat 0xFFFFFFFF (s.dom.fwdTimeouts + 1) } }) ∧
    (∀ s : State, s.dom.masterAt + sec 1 ≤ s.core.t → s.dom.noMaster = false →
      ∃ t, exec .noMasterTimeout s = .next t ∧ t.dom.noMaster = true ∧ t.dom.synced = false ∧ t.dom.timeSuspect = true ∧
        Told { s with dom := t.dom } t) ∧
    (∀ (s : State) (t0 : Nat), s.core.holdover = true → s.dom.holdAt = some t0 → t0 + sec 10 ≤ s.core.t →
      s.dom.holdLong = false →
      ∃ t, exec .holdoverSuspectTimeout s = .next t ∧ t.dom.holdLong = true ∧ t.dom.timeSuspect = true ∧
        Told { s with dom := t.dom } t)

/-- A message that fails a check of R361 is dropped and counted, whatever it is. Clauses here rest on the model's own choices,
log entry 22. -/
def Obligations.BadMessages : Prop :=
  ∀ (s : State) (h : MsgHead), s.pwr.state = .run → msgBad s h = true →
    (∀ b, exec (.heartbeatReceive h b) s = .next (dropMsg s)) ∧ (∀ m, exec (.suspectReceive h m) s = .next (dropMsg s)) ∧
    (∀ f, exec (.leaveReceive h f) s = .next (dropMsg s)) ∧
    (∀ fn pkt env data, exec (.commandReceive h fn pkt env data none) s = .next (dropMsg s)) ∧
    (∀ fn tag st r r2 k, exec (.replyReceive h fn tag st r r2 k) s = .next (dropMsg s)) ∧
    (∀ n, exec (.sleepProposeReceive h n) s = .next (dropMsg s)) ∧ (∀ n v, exec (.sleepVoteMessage h n v) s = .next (dropMsg s)) ∧
    (∀ n c, exec (.sleepAgreedReceive h n c) s = .next (dropMsg s)) ∧ (∀ n, exec (.sleepAbortReceive h n) s = .next (dropMsg s)) ∧
    exec (.sleepAwakeReceive h) s = .next (dropMsg s)

/-- PORT_MODE and the Millwright's port request set the mode and train the port (R237, R238, R260). Clauses here rest on the
model's own choices, log entries 64, 118. -/
def Obligations.PortModes : Prop :=
  (∀ (s : State) (id : CmdId) (c : Cmd) (n : Nat) (m : PortMode), Runs s .portMode id c → n = bits c.context 2 0 →
      m = PortMode.ofCode (fld c.pkt 2 1 0) → fld c.pkt 2 1 0 < 3 → fld c.pkt 2 31 4 = 0 → fbit c.pkt 2 3 = false →
      (port s n).state ≠ .up → (port s n).mode ≠ m →
      ∃ u, exec (.portMode id) s = .next (complete c .success (port u n).stateCode 0 u) ∧ (port u n).mode = m ∧
        (port u n).state = (if m = .disabled ∨ s.pwr.up = false ∨ hasRole s = false then .down else .training) ∧ (port u n).since = s.core.t ∧
        (∀ k, k ≠ n → port u k = port s k) ∧ u = { s with prt := u.prt, pwr := { s.pwr with doms := u.pwr.doms } }) ∧
    (∀ (s : State) (id : CmdId) (c : Cmd) (n : Nat), Runs s .portMode id c → n = bits c.context 2 0 →
      fld c.pkt 2 1 0 < 3 → fld c.pkt 2 31 4 = 0 → fbit c.pkt 2 3 = false →
      (port s n).state ≠ .failed → (port s n).mode = PortMode.ofCode (fld c.pkt 2 1 0) →
      Completes (exec (.portMode id) s) c .success (port s n).stateCode 0 fun u => u = s) ∧
    (∀ (s : State) (id : CmdId) (c : Cmd) (n : Nat) (m : PortMode), Runs s .portMode id c → n = bits c.context 2 0 →
      m = PortMode.ofCode (fld c.pkt 2 1 0) → fld c.pkt 2 1 0 < 3 → fld c.pkt 2 31 4 = 0 → fbit c.pkt 2 3 = true →
      (port s n).state ≠ .up →
      ∃ u, exec (.portRetrain id) s = .next (complete c .success (port u n).stateCode 0 u) ∧ (port u n).mode = m ∧
        (port u n).state = (if m = .disabled ∨ s.pwr.up = false ∨ hasRole s = false then .down else .training) ∧
        u = { s with prt := u.prt, pwr := { s.pwr with doms := u.pwr.doms } }) ∧
    (∀ (s : State) (n mode : Nat) (retrain : Bool), s.mwr.running = true → n < 8 → mode < 3 →
      exec (.portModeRequest (some n) mode retrain) s = .next (postDat (.portMode n mode retrain) (mwAct s))) ∧
    (∀ (s : State) (n mode b : Nat) (retrain r : Bool), s.pwr.up = true → s.core.datReset = false →
      s.mail.mwToDat.front = some (.portMode n mode retrain) → (port s n).state ≠ .up →
      (port s n).mode ≠ PortMode.ofCode mode →
      ∃ t, exec (.portModeRequest none b r) s = .next t ∧ (port t n).mode = PortMode.ofCode mode ∧
        (port t n).state = (if PortMode.ofCode mode = .disabled ∨ hasRole s = false then .down else .training) ∧
        (∀ k, k ≠ n → port t k = port s k) ∧
        t = { popDat s with prt := t.prt, pwr := { s.pwr with doms := t.pwr.doms } })

/-- Flits go out and come in, and what a missing flit and a long retry do (R246 to R259). Clauses here rest on the model's own
choices, log entries 61, 111. -/
def Obligations.Flits : Prop :=
  (∀ (s : State) (p : Nat), (port s p).mode = .flume → (port s p).state = .up → s.core.datReset = false →
      (port s p).flm.toReplay = [] → nextVc (port s p).flm = none →
      ∃ t, exec (.flitSend p []) s = .next t ∧ t.out = s.out ++ [.flit p (mkFlit (port s p).flm.txSeq
          (outCtl (port s p).flm 0 0 0xFF) (List.replicate 240 0))] ∧ (port t p).flm.txSeq = (port s p).flm.txSeq ∧
        (port t p).flm.crVc = ((port s p).flm.crVc + 1) % 4) ∧
    (∀ (s : State) (p v : Nat), (port s p).mode = .flume → (port s p).state = .up → s.core.datReset = false →
      (port s p).flm.toReplay = [] → nextVc (port s p).flm = some v → (port s p).flm.buffer.length < 512 →
      ∃ t, exec (.flitSend p []) s = .next t ∧ (port t p).flm.txSeq = ((port s p).flm.txSeq + 1) % 4096 ∧
        (port t p).flm.buffer.length = (port s p).flm.buffer.length + 1 ∧
        ((port t p).flm.tx.getD v {}).avail = ((port s p).flm.tx.getD v {}).avail - 1 ∧ t.out.length = s.out.length + 1) ∧
    (∀ (s : State) (p : Nat) (lanes : List (List Byte)), (port s p).mode = .flume → (port s p).state = .up →
      s.core.datReset = false → (∀ i, i < 4 → chunkGood i (lanes.getD i []) = true) →
      (∀ i, i < 4 → chunkSeq (lanes.getD i []) = (port s p).flm.n) →
      (Ctl.ofWord (num (lanes.getD 0 []) 2 8)).type = 0 → (Ctl.ofWord (num (lanes.getD 0 []) 2 8)).nak = none →
      exec (.flitReceive p lanes) s =
        .next (judgeRetry p (applyCtl p (Ctl.ofWord (num (lanes.getD 0 []) 2 8)) s))) ∧
    (∀ (s : State) (p : Nat) (lanes : List (List Byte)) (c : Ctl), (port s p).mode = .flume → (port s p).state = .up →
      s.core.datReset = false → (∀ i, i < 4 → chunkGood i (lanes.getD i []) = true) →
      (∀ i, i < 4 → chunkSeq (lanes.getD i []) = (port s p).flm.n) → c = Ctl.ofWord (num (lanes.getD 0 []) 2 8) →
      c.type = 1 → c.nak = none → c.start = 0xFF → (port s p).flm.m = [] → ((port s p).flm.rx.getD c.vc {}).part = [] →
      ((port s p).flm.rx.getD c.vc {}).used < 4 * (port s p).flm.allocNow.getD c.vc 0 →
      ∃ t, exec (.flitReceive p lanes) s = .next t ∧ (port t p).flm.n = ((port s p).flm.n + 1) % 4096 ∧
        (port t p).flm.m = [] ∧ (port t p).state = .up) ∧
    (∀ (s : State) (p : Nat) (lanes : List (List Byte)), (port s p).mode = .flume → (port s p).state = .up →
      s.core.datReset = false → (∀ i, i < 4 → chunkGood i (lanes.getD i []) = false) →
      ∃ t, exec (.flitReceive p lanes) s = .next t ∧ (port t p).state = .hold ∧ (port t p).downCause = 1 ∧
        (port t p).flm.bad = sat 0xFFFFFFFF ((port s p).flm.bad + 1)) ∧
    (∀ (s : State) (p seq n a : Nat), (port s p).flm.m = [⟨seq, n, some a⟩] → a + 320 ≤ s.core.t →
      ∃ t, exec (.nakResendTimeout p seq) s = .next t ∧ (port t p).flm.m = [⟨seq, n, none⟩] ∧ ∀ k, k ≠ p → port t k = port s k) ∧
    (∀ (s : State) (p a : Nat), (port s p).mode = .flume → (port s p).state = .up → (port s p).flm.retryAt = some a →
      a + 4000 ≤ s.core.t →
      ∃ t, exec (.retryWindowExpiry p) s = .next t ∧ (port t p).state = .hold ∧ (port t p).downCause = 6 ∧
        (port t p).downSeq = (port s p).flm.e)

/-- Links go down, train, come up and fail (R240, R244, R260 to R264). Clauses here rest on the model's own choices, log entries
64, 66. -/
def Obligations.Links : Prop :=
  (∀ (s : State) (p : Nat), (port s p).state = .up →
      ∃ t, exec (.lossOfSignal p) s = .next t ∧ (port t p).state = (if (port s p).mode = .flume then .hold else .training) ∧
        (port t p).downCause = 9 ∧ (port t p).downCount = sat 0xFFFF ((port s p).downCount + 1)) ∧
    (∀ (s : State) (p : Nat), (port s p).state = .up → (port s p).mode = .ethernet →
      ∃ t, exec (.ethLinkFault p) s = .next t ∧ (port t p).state = .training ∧ (port t p).downCause = 10) ∧
    (∀ (s : State) (p : Nat), (port s p).mode = .flume → (port s p).state = .training →
      (port s p).since + ms 100 ≤ s.core.t → s.core.t < (port s p).since + ms 150 → s.core.datReset = false →
      ∃ t, exec (.trainingPrbsPass p) s = .next t ∧
        port t p = { port s p with
          state := .param, since := s.core.t, flm := { (port s p).flm with allocNow := (port s p).flm.alloc } } ∧
        t = { s with
          prt := t.prt
          out := s.out ++ [.params p (ownMember s) s.core.role.code 1 (port s p).flm.alloc (s.core.t % 2 ^ 16)] }) ∧
    (∀ (s : State) (p : Nat), (port s p).mode = .flume → (port s p).state = .training →
      (port s p).since + ms 150 ≤ s.core.t → (port s p).failedAt = [] →
      ∃ t, exec (.trainingTimeout p) s = .next t ∧ (port t p).state = .hold ∧ (port t p).failReason = 5 ∧
        (port t p).failedAt = [s.core.t] ∧ t = { s with prt := t.prt }) ∧
    (∀ (s : State) (p : Nat) (x : FlumeParams), (port s p).mode = .flume → (port s p).state = .param →
      s.core.datReset = false → paramRefusal s x = none →
      ∃ t, exec (.paramExchange p x) s = .next t ∧ (port t p).state = .up ∧ (port t p).flm.peer = x.member ∧
        (port t p).flm.peerRole = x.role ∧ (port t p).flm.valid = true ∧ (port t p).flm.n = 0 ∧ (port t p).flm.txSeq = 0 ∧
        ∃ l, t.out = s.out ++ .loopEcho p x.marker :: l) ∧
    (∀ (s : State) (p r : Nat) (x : FlumeParams), (port s p).mode = .flume → (port s p).state = .param →
      s.core.datReset = false → paramRefusal s x = some r → (port s p).failedAt = [] →
      ∃ t, exec (.paramExchange p x) s = .next t ∧ (port t p).state = .hold ∧ (port t p).failReason = r) ∧
    (∀ (s : State) (p : Nat), (port s p).state = .hold → (port s p).since + ms 1 ≤ s.core.t → (port s p).failedAt = [] →
      ∃ t, exec (.holdExpiry p) s = .next t ∧ port t p = { port s p with state := .training, since := s.core.t } ∧
        t = { s with prt := t.prt }) ∧
    (∀ (s : State) (p : Nat), (port s p).mode = .ethernet → (port s p).state = .training → s.core.datReset = false →
      ∃ t, exec (.ethLinkUp p) s = .next t ∧ (port t p).state = .up ∧ (port t p).since = s.core.t)

/-- Frames, CNPs and PTP messages at the ports (R240 to R243, R251, R372 to R374). Clauses here rest on the model's own choices,
log entry 64. -/
def Obligations.EthernetEvents : Prop :=
  (∀ (s : State) (p : Nat) (x : EthFrame), s.pwr.state = .run → (port s p).mode = .ethernet → (port s p).state = .up →
      s.core.datReset = false → x.uncorrectable = 0 → x.fcs = true → x.pause = false → x.tags < 2 → 64 ≤ x.len → x.len ≤ 4352 →
      x.pfc = [] →
      ∃ t, exec (.ethFrameReceive p x) s = .next t ∧ (port t p).fecCorr = sat 0xFFFFFFFF ((port s p).fecCorr + x.corrected) ∧
        (port t p).drops = (port s p).drops ∧ t = { s with prt := t.prt }) ∧
    (∀ (s : State) (p : Nat) (x : EthFrame), (port s p).mode = .ethernet → (port s p).state = .up →
      s.core.datReset = false → x.uncorrectable = 0 → (x.fcs = false ∨ x.pause = true ∨ 2 ≤ x.tags ∨ x.len < 64 ∨ 4352 < x.len) →
      ∃ t, exec (.ethFrameReceive p x) s = .next t ∧ (port t p).drops = sat 0xFFFFFFFF ((port s p).drops + 1) ∧
        t = { s with prt := t.prt }) ∧
    (∀ (s : State) (p k n : Nat) (x : EthFrame), (port s p).mode = .ethernet → (port s p).state = .up →
      s.core.datReset = false → x.uncorrectable = 0 → x.fcs = true → x.pause = false → x.tags < 2 → 64 ≤ x.len → x.len ≤ 4352 →
      x.pfc = [(k, n)] → k < 8 → bit (port s p).ethCfg k = true →
      ∃ t, exec (.ethFrameReceive p x) s = .next t ∧
        (port t p).paused = (port s p).paused.set k (s.core.t + ceilDiv (n * 128) 100) ∧ t = { s with prt := t.prt }) ∧
    (∀ (s : State) (q : Nat) (x : Qp), s.pwr.state = .run → qpOf s q = some x →
      ∃ t, exec (.cnpReceive q) s = .next t ∧ qpOf t q = some { x with
        rate := max 1000000000 (x.rate * (256 - feature s 0x50 0 32) / 256), ccAt := s.core.t } ∧
        (∀ k, k ≠ q → qpOf t k = qpOf s k) ∧ t = { s with rdm := t.rdm }) ∧
    (∀ (s : State) (q : Nat) (x : Qp), qpOf s q = some x → x.ccAt + us (feature s 0x52 0 55) ≤ s.core.t →
      ∃ t, exec (.ccPeriodExpiry q) s = .next t ∧ qpOf t q = some { x with
        rate := min 400000000000 (x.rate + 100000000 * feature s 0x51 0 50), ccAt := s.core.t } ∧
        (∀ k, k ≠ q → qpOf t k = qpOf s k) ∧ t = { s with rdm := t.rdm }) ∧
    (∀ (s : State) (p raw : Nat), s.pwr.state = .run → (port s p).state = .up → s.core.datReset = false →
      exec (.ptpMessage p raw false) s = .next { s with out := s.out ++ [.ptp p ((raw : Int) + signed 32 (port s p).tsAsym)] }) ∧
    (∀ (s : State) (p raw : Nat), s.pwr.state = .run → (port s p).state = .up → s.core.datReset = false →
      ∃ t, exec (.ptpMessage p raw true) s = .next t ∧ t.dom.masterAt = s.core.t ∧ t.dom.noMaster = false)

/-- MAP, UNMAP and XLATE_INVALIDATE change the address space at once where no descriptor is in flight (R193 to R200, R202).
Clauses here rest on the model's own choices, log entries 53, 97, 109. -/
def Obligations.MapAndUnmap : Prop :=
  (∀ (s : State) (id : CmdId) (c : Cmd) (page : PageSize) (target : Target3) (va addr len : Nat) (old new : List Extent),
      Runs s .map id c → PageSize.ofCode (fld c.pkt 8 1 0) = some page → Target3.ofCode (fld c.pkt 8 3 2) = some target →
      va = qw c.pkt 2 → addr = qw c.pkt 4 → len = qw c.pkt 6 % 2 ^ 44 → fld c.pkt 7 31 12 = 0 → fld c.pkt 8 31 7 = 0 →
      va < 2 ^ 57 → addr < 2 ^ 57 → c.context ≤ 1023 → ownsAsid s c.fn c.context = true → va % page.bytes = 0 →
      addr % page.bytes = 0 → 0 < len → len % page.bytes = 0 → len ≤ 2 ^ 43 → va + len ≤ 2 ^ 57 →
      targetPast s target addr len = false → (target = .ddr → isGranary s = false) →
      old = (s.mem.spaces.getD c.context { fn := c.fn }).extents → (fbit c.pkt 8 5 = true ∨ rangeMapped old va (va + len) = false) →
      new = insertExtent { va, page, count := len / page.bytes, target, addr, w := fbit c.pkt 8 4 } (dropPages old va (va + len)) →
      holderOf s c.context va (va + len) = none → ptsUsed s - tableBytes old + tableBytes new ≤ mib s.mem.sizes.pt →
      Completes (exec (.map id) s) c .success 0 0 fun u =>
        u.mem.spaces.get c.context = some { fn := c.fn, extents := new } ∧
        (∀ a, a ≠ c.context → u.mem.spaces.get a = s.mem.spaces.get a) ∧
        u = { s with mem := { s.mem with spaces := u.mem.spaces, leafCache := u.mem.leafCache, walkCache := u.mem.walkCache } }) ∧
    (∀ (s : State) (id : CmdId) (c : Cmd) (va hi : Nat) (sp : Space), Runs s .unmap id c → fld c.pkt 6 31 2 = 0 →
      fbit c.pkt 6 0 = false → va = qw c.pkt 2 → hi = va + qw c.pkt 4 % 2 ^ 44 → va < 2 ^ 57 → fld c.pkt 5 31 12 = 0 →
      c.context ≤ 1023 → ownsAsid s c.fn c.context = true → s.mem.spaces.get c.context = some sp →
      splitsPage sp.extents va hi = false → holderOf s c.context va hi = none → s.mem.copies = [] → s.chk.engines = [] →
      s.rdm.qps = [] → s.rdm.srqs = [] → s.mem.fills = [] →
      Completes (exec (.unmap id) s) c .success 0 0 fun u =>
        u.mem.spaces.get c.context = some { sp with extents := unmapRange sp.extents va hi } ∧
        (∀ a, a ≠ c.context → u.mem.spaces.get a = s.mem.spaces.get a) ∧ u.mem.cells = s.mem.cells) ∧
    (∀ (s : State) (id : CmdId) (c : Cmd), Runs s .unmap id c → fld c.pkt 6 31 2 = 0 → fbit c.pkt 6 0 = true →
      qw c.pkt 2 = 0 → qw c.pkt 4 = 0 → c.context ≤ 1023 → ownsAsid s c.fn c.context = true →
      holderOf s c.context 0 (2 ^ 57) = none → s.mem.copies = [] → s.chk.engines = [] → s.rdm.qps = [] → s.rdm.srqs = [] →
      s.mem.fills = [] →
      Completes (exec (.unmapDestroy id) s) c .success 0 0 fun u => u.mem.spaces.get c.context = none ∧
        (∀ a, a ≠ c.context → u.mem.spaces.get a = s.mem.spaces.get a) ∧ u.mem.cells = s.mem.cells) ∧
    (∀ (s : State) (id : CmdId) (c : Cmd), Runs s .xlateInvalidate id c → fld c.pkt 6 31 1 = 0 → fld c.pkt 5 31 12 = 0 →
      qw c.pkt 2 < 2 ^ 57 → qw c.pkt 4 % 2 ^ 44 = 0 → c.context ≤ 1023 → ownsAsid s c.fn c.context = true →
      holderOf s c.context 0 (2 ^ 57) = none → s.mem.copies = [] → s.chk.engines = [] → s.rdm.qps = [] → s.rdm.srqs = [] →
      s.mem.fills = [] →
      Completes (exec (.xlateInvalidate id) s) c .success 0 0 fun u => u.mem.spaces = s.mem.spaces ∧
        u.mem.cells = s.mem.cells ∧ ∀ l ∈ u.mem.leafCache, l.1 = c.context → 2 ^ 57 ≤ l.2) ∧
    (∀ (s : State) (id : CmdId) (d : Drain) (c : Cmd), s.mem.drains.find? (fun d => d.id = id) = some d → drainOver s d = true →
      findCmd s d.id = some c → Completes (exec (.invalidateDrainEnd id) s) c .success d.waited d.cancelled fun u =>
        u.mem.drains = s.mem.drains.filter (fun x => x.id ≠ d.id) ∧
        (d.destroy = true → u.mem.spaces.get d.asid = none) ∧ (d.destroy = false → u.mem.spaces = s.mem.spaces))

/-- COPY is queued and done, BAR4 reads and writes through its window; hopper fills land, DDR5 pairs fail and are filled again,
scrubs count and the probe answers (R191, R192, R203, R204, R206, R209, R212). Clauses here rest on the model's own choices,
log entries 54, 55, 57, 108, 118. -/
def Obligations.CopiesAndMemory : Prop :=
  (∀ (s : State) (id : CmdId) (c : Cmd) (dst : Held), Runs s .copy id c → c.context ≤ 1023 → ownsAsid s c.fn c.context = true →
      qw c.pkt 2 < 2 ^ 57 → qw c.pkt 4 < 2 ^ 57 → asidBad s c.fn (fld c.pkt 6 9 0) = false → fld c.pkt 6 31 10 = 0 →
      0 < qw c.pkt 7 % 2 ^ 41 → qw c.pkt 7 % 2 ^ 41 ≤ 2 ^ 40 → fld c.pkt 8 31 9 = 0 → dw c.pkt 9 = 1 →
      translate s { write := true } (fld c.pkt 6 9 0) (qw c.pkt 4) (qw c.pkt 7) = .ok dst →
      ∃ u, exec (.copy id) s = .next (accept c u) ∧ u.mem.copies = s.mem.copies ++ [{ id, sq := c.sq, src := none, dst }] ∧
        u = { s with mem :=
          { s.mem with copies := u.mem.copies, leafCache := u.mem.leafCache, walkCache := u.mem.walkCache, walks := u.mem.walks } }) ∧
    (∀ (s : State) (id : CmdId) (c : Cmd) (src dst : Held), Runs s .copy id c → c.context ≤ 1023 →
      ownsAsid s c.fn c.context = true → qw c.pkt 2 < 2 ^ 57 → qw c.pkt 4 < 2 ^ 57 → asidBad s c.fn (fld c.pkt 6 9 0) = false →
      fld c.pkt 6 31 10 = 0 → 0 < qw c.pkt 7 % 2 ^ 41 → qw c.pkt 7 % 2 ^ 41 ≤ 2 ^ 40 → fld c.pkt 8 31 9 = 0 → dw c.pkt 9 = 0 →
      translate s {} c.context (qw c.pkt 2) (qw c.pkt 7) = .ok src →
      translate s { write := true } (fld c.pkt 6 9 0) (qw c.pkt 4) (qw c.pkt 7) = .ok dst → segsOverlap src.segs dst.segs = false →
      ∃ u, exec (.copy id) s = .next (accept c u) ∧ u.mem.copies = s.mem.copies ++ [{ id, sq := c.sq, src := some src, dst }] ∧
        u = { s with mem :=
          { s.mem with copies := u.mem.copies, leafCache := u.mem.leafCache, walkCache := u.mem.walkCache, walks := u.mem.walks } }) ∧
    (∀ (s : State) (id : CmdId) (bus : Bus) (c : Cmd) (d : CopyDesc) (a n f : Nat), s.mem.copies = [d] → d.id = id →
      d.src = none → d.dst.len = n → d.dst.segs = [{ target := .hbm, addr := a, len := n, fn := f }] → s.core.datReset = false →
      findCmd s id = some c →
      Completes (exec (.copyDone id bus) s) c .success 0 0 fun u => u.mem.copies = [] ∧
        u.mem.cells = writeCells s.mem.cells a (List.replicate n 0) ∧ u.mem.spaces = s.mem.spaces) ∧
    (∀ (s : State) (fn off : Nat) (data : List Byte) (h : Held) (a f : Nat), bar4Range s fn off data.length true = .ok h →
      h.segs = [{ target := .hbm, addr := a, len := data.length, fn := f }] →
      ∃ t, exec (.bar4Write fn off data) s = .next t ∧ t.mem.cells = writeCells s.mem.cells a data ∧ t.out = s.out) ∧
    (∀ (s : State) (fn off : Nat) (data : List Byte) (f : XFault), bar4Range s fn off data.length true = .error f →
      ∃ t, exec (.bar4Write fn off data) s = .next t ∧ t.mem.cells = s.mem.cells ∧
        t.mem.xfaults = sat 0xFFFFFFFF (s.mem.xfaults + 1)) ∧
    (∀ (s : State) (fn off n : Nat) (bus : Bus) (h : Held) (a f : Nat), bar4Range s fn off n false = .ok h →
      h.segs = [{ target := .hbm, addr := a, len := n, fn := f }] → s.mem.bad = [] → s.mem.weak = [] →
      ∃ t, exec (.bar4Read fn off n bus) s = .next t ∧ t.mem.cells = s.mem.cells ∧
        t.out = s.out ++ [.answer ((List.range n).map fun i => readCell s.mem.cells (a + i)) false]) ∧
    (∀ (s : State) (fn off n : Nat) (bus : Bus) (f : XFault), bar4Range s fn off n false = .error f →
      ∃ u : State, exec (.bar4Read fn off n bus) s = .next { u with out := u.out ++ [.answer (List.replicate n 0xFF) false] } ∧
        u.mem.cells = s.mem.cells ∧ u.mem.xfaults = sat 0xFFFFFFFF (s.mem.xfaults + 1)) ∧
    (∀ (s : State) (race slot off n : Nat) (data : List Byte) (f : Fill), s.mem.fills.get (race * 16 + slot) = some f →
      f.out = [(off, n)] → f.failed = none → f.len ≤ f.posted →
      ∃ u, exec (.hopperReadComplete race slot off (.ok data)) s = .next (endFill (race * 16 + slot)
          { f with out := [], landed := f.landed + n } u) ∧
        u.mem.cells = (writeSegs (subSegs f.hopper.segs off n) ((data.take n).map fun b => (b, false)) s).mem.cells) ∧
    (∀ (s : State) (pair reason : Nat), (pairOf s pair).state = .up → isGranary s = false →
      ∃ t, exec (.ddrPairFault pair reason) s = .next t ∧ pairOf t pair = { pairOf s pair with state := .down, reason } ∧
        (∀ p, p ≠ pair → pairOf t p = pairOf s p) ∧ Told { s with mem := t.mem } t) ∧
    (∀ (s : State) (pair : Nat), s.mwr.running = true → pair < 8 →
      exec (.dimmBistRequest (some pair)) s = .next (postDat (.dimmBist pair) (mwAct s))) ∧
    (∀ (s : State) (pair : Nat), s.pwr.up = true → s.core.datReset = false → s.mail.mwToDat.front = some (.dimmBist pair) →
      (pairOf s pair).state = .down → (pairOf s pair).refused = false →
      ∃ t, exec (.dimmBistRequest none) s = .next t ∧ pairOf t pair = { pairOf s pair with state := .fill } ∧
        (pdom t 25).mw = true ∧ (∀ p, p ≠ pair → pairOf t p = pairOf s p) ∧
        t = { popDat s with mem := t.mem, pwr := { s.pwr with doms := t.pwr.doms } }) ∧
    (∀ (s : State) (pair : Nat), (pairOf s pair).state = .fill →
      ∃ t, exec (.ddrBistFillEnd pair true) s = .next t ∧ (pairOf t pair).state = .up ∧
        ∀ a, ddrBase ≤ a → ddrPair s (a - ddrBase) = pair → readCell t.mem.cells a = 0) ∧
    (∀ (s : State) (pair : Nat), (pairOf s pair).state = .fill →
      ∃ t, exec (.ddrBistFillEnd pair false) s = .next t ∧ (pairOf t pair).state = .down ∧ (pairOf t pair).reason = 4) ∧
    (∀ (s : State) (ch : Nat), (pairOf s (ch / 2)).state = .up → s.mem.weak = [] →
      ∃ t, exec (.patrolScrub ch []) s = .next t ∧ t.mem = s.mem ∧ t = { s with pwr := { s.pwr with doms := t.pwr.doms } }) ∧
    (∀ (s : State) (ch k : Nat) (b : Bool), (pairOf s (ch / 2)).state = .up → s.mem.weak = [(k, b)] → ddrBase ≤ 64 * k →
      cellChannel s (64 * k) = ch →
      exec (.patrolScrub ch []) s = .next (scrubFound (useDdr { s with mem := { s.mem with weak := [] } }) (64 * k, b))) ∧
    (∀ (s : State) (ch a : Nat), (pairOf s (ch / 2)).state = .up → s.mem.weak = [] →
      ∃ t, exec (.patrolScrub ch [(a, false)]) s = .next t ∧ t.mem.errAddr = a ∧ t.mem.cells = s.mem.cells ∧
        t.mem.errLast = 5 + 8 * ddrChannel s a ∧
        (pairOf t (ddrPair s a)).ce = sat 0xFFFF ((pairOf s (ddrPair s a)).ce + 1)) ∧
    (∀ (s : State) (val : Nat), bit val 31 = true → s.mem.spaces.get (bits val 9 0) = none →
      ∃ t, exec (.memProbe val) s = .next t ∧ t.mem.probeStatus = 1 + 4 * 2 + 6 * 16 ∧ t.mem.probeAsid = bits val 9 0 ∧
        t = { s with mem := t.mem }) ∧
    (∀ (s : State) (val : Nat) (sp : Space) (e : Extent), bit val 31 = true → s.mem.spaces.get (bits val 9 0) = some sp →
      leafOf sp.extents (s.mem.probeVa % 2 ^ 57) = some e →
      badTable s (bits val 9 0) (s.mem.probeVa % 2 ^ 57) e.page.level = none →
      ∃ t, exec (.memProbe val) s = .next t ∧ t.mem.probeStatus = 1 + e.page.level * 2 ∧ t.mem.probeE.length = 5 ∧
        t.mem.walks = sat 0xFFFFFFFF (s.mem.walks + 1) ∧ t.mem.leafCache = s.mem.leafCache ∧ t.mem.walkCache = s.mem.walkCache) ∧
    (∀ (s : State) (val l k : Nat) (sp : Space) (e : Extent), bit val 31 = true → s.mem.spaces.get (bits val 9 0) = some sp →
      leafOf sp.extents (s.mem.probeVa % 2 ^ 57) = some e →
      badTable s (bits val 9 0) (s.mem.probeVa % 2 ^ 57) e.page.level = some (l, k) →
      ∃ t, exec (.memProbe val) s = .next t ∧ t.mem.probeStatus = 1 + l * 2 + 5 * 16 ∧ bits t.mem.errLast 1 0 = 3 ∧
        t.mem.walks = sat 0xFFFFFFFF (s.mem.walks + 1) ∧ t = { s with mem := t.mem })

/-- Doorbells, and queues created, deleted and assigned (R55 to R60, R83). Clauses here rest on the model's own choices, log
entries 16, 100. -/
def Obligations.QueueControl : Prop :=
  (∀ (s : State) (fn idx val q : Nat) (sq : Sq), s.pwr.state = .run → globalQ s fn idx = some q → s.hif.sqs.get q = some sq →
      sq.state = .active → val < sq.depth →
      ∃ t, exec (.sqTailDoorbell fn idx val) s = .next t ∧ t.hif.sqs.get q = some { sq with tail := val } ∧
        (∀ k, k ≠ q → t.hif.sqs.get k = s.hif.sqs.get k) ∧ t = { s with hif := { s.hif with sqs := t.hif.sqs } }) ∧
    (∀ (s : State) (fn idx val q : Nat) (sq : Sq), s.pwr.state = .run → globalQ s fn idx = some q → s.hif.sqs.get q = some sq →
      sq.state = .active → sq.depth ≤ val →
      ∃ t, exec (.sqTailDoorbell fn idx val) s = .next t ∧ t.hif.sqs.get q = some { sq with state := .error, err := 1 } ∧
        (win t fn).err = (win s fn).err ||| 1 ∧ (win t fn).errQid = idx) ∧
    (∀ (s : State) (fn idx val q : Nat) (cq : Cq), s.pwr.state = .run → globalQ s fn idx = some q → s.hif.cqs.get q = some cq →
      cq.state = .active → cq.waiting = [] → val < cq.depth → (val + cq.depth - cq.head) % cq.depth ≤ cq.used →
      ∃ t, exec (.cqHeadDoorbell fn idx val) s = .next t ∧ t.hif.cqs.get q = some { cq with
          head := val, used := cq.used - (val + cq.depth - cq.head) % cq.depth } ∧
        (∀ k, k ≠ q → t.hif.cqs.get k = s.hif.cqs.get k) ∧ t = { s with hif := { s.hif with cqs := t.hif.cqs } }) ∧
    (∀ (s : State) (fn q : Nat), globalQ s fn (bits (win s fn).qsel 7 0) = some q → bit (win s fn).qsel 8 = true →
      2 ≤ bits (win s fn).qcfg0 12 0 → bits (win s fn).qcfg0 12 0 ≤ 4096 → (s.hif.cqs.getD q {}).state = .free →
      bits (bits (win s fn).qcfg0 31 24) 5 0 < (if fn = 0 then 64 else 8) → 1 ≤ bits (win s fn).qcfg1 7 0 →
      bits (win s fn).qcfg1 25 16 ≤ 1000 →
      ∃ t, exec (.queueCreate fn) s = .next t ∧ t.hif.cqs.get q = some {
          state := .active, depth := bits (win s fn).qcfg0 12 0, base := (win s fn).qbase
          vector := bits (bits (win s fn).qcfg0 31 24) 5 0, coalCnt := bits (win s fn).qcfg1 7 0
          coalUs := bits (win s fn).qcfg1 25 16, fn } ∧ t = { s with hif := { s.hif with cqs := t.hif.cqs } }) ∧
    (∀ (s : State) (fn q cq : Nat), globalQ s fn (bits (win s fn).qsel 7 0) = some q → bit (win s fn).qsel 8 = false →
      globalQ s fn (bits (win s fn).qcfg0 31 24) = some cq → 2 ≤ bits (win s fn).qcfg0 12 0 →
      bits (win s fn).qcfg0 12 0 ≤ 4096 → (s.hif.sqs.getD q {}).state = .free → (s.hif.cqs.getD cq {}).state = .active →
      ∃ t, exec (.queueCreate fn) s = .next t ∧ t.hif.sqs.get q = some {
          state := .active, depth := bits (win s fn).qcfg0 12 0, base := (win s fn).qbase, env := (win s fn).qenv
          fast := bit (win s fn).qcfg0 16, weight := bits (win s fn).qcfg0 23 20 + 1, cq, fn } ∧
        t = { s with hif := { s.hif with sqs := t.hif.sqs } }) ∧
    (∀ (s : State) (fn q : Nat), globalQ s fn (bits (win s fn).qsel 7 0) = some q → bit (win s fn).qsel 8 = false →
      (s.hif.sqs.getD q {}).state ≠ .free → sqBusy s q = false →
      ∃ t, exec (.queueDelete fn) s = .next t ∧ t.hif.sqs.get q = none ∧ (∀ k, k ≠ q → t.hif.sqs.get k = s.hif.sqs.get k) ∧
        t = { s with hif := { s.hif with sqs := t.hif.sqs } }) ∧
    (∀ (s : State) (q : Nat), (s.hif.sqs.getD q {}).state = .deleting → sqBusy s q = false →
      ∃ t, exec (.sqDeleteDone q) s = .next t ∧ t.hif.sqs.get q = none ∧ (∀ k, k ≠ q → t.hif.sqs.get k = s.hif.sqs.get k) ∧
        t = { s with hif := { s.hif with sqs := t.hif.sqs } }) ∧
    (∀ (s : State) (n val : Nat), 1 ≤ n → n ≤ 15 → bits val 12 8 ≤ 16 → bits val 7 0 + bits val 12 8 ≤ 256 →
      s.hif.sqs = [] → s.hif.cqs = [] → s.hif.ranges = [] →
      exec (.vfQrangeWrite 0 n val) s = .next { s with hif := { s.hif with
        ranges := [(n, { base := bits val 7 0, count := bits val 12 8 })] } })

/-- Fetch, FENCE, STALL and coalescing go on (R60 to R65). Clauses here rest on the model's own choices, log entries 16, 21, 98,
100, 101. -/
def Obligations.FetchAndWaits : Prop :=
  (∀ (s : State) (sq : Nat) (q : Sq) (f : Fetched) (att : List Byte) (p : List Word), takesCommands s = true →
      fetchChoice s = some sq → s.hif.sqs.get sq = some q → f.packet = some p →
      ∃ u, exec (.commandFetch sq f att) s = .next (arrive (.pcie q.fn) sq p (if q.env = 0 then none else f.envelope) att u) ∧
        u.hif.sqs.get sq = some { q with head := (q.head + 1) % q.depth } ∧ u.hif.cmds = s.hif.cmds ∧
        u.hif.retained = s.hif.retained ∧ u.core = s.core) ∧
    (∀ (s : State) (sq : Nat) (q : Sq) (f : Fetched) (att : List Byte), takesCommands s = true → fetchChoice s = some sq →
      s.hif.sqs.get sq = some q → f.packet = none →
      ∃ t, exec (.commandFetch sq f att) s = .next t ∧ t.hif.sqs.get sq = some { q with state := .error, err := 3 } ∧
        t.hif.cmds = s.hif.cmds) ∧
    (∀ (s : State) (id : CmdId) (c : Cmd), findCmd s id = some c → c.phase = .fenced → s.core.ctlReset = false →
      mayStart s c = true → exec (.fencedCommandStart id) s = .next (startCmd c s)) ∧
    (∀ (s : State) (id : CmdId) (c : Cmd), findCmd s id = some c → c.phase = .stalled → s.core.ctlReset = false →
      ∃ t, exec (.stallResume id) s = .next t ∧ findCmd t id = some { c with phase := .ready } ∧
        t = { s with hif := { s.hif with cmds := t.hif.cmds } }) ∧
    (∀ (s : State) (id : CmdId) (c : Cmd) (t0 : Nat), findCmd s id = some c → c.phase = .stalled → c.stallAt = some t0 →
      s.core.ctlReset = false → t0 + ms 10 ≤ s.core.t → Completes (exec (.stallTimeout id) s) c .timeout 0 0 fun u => u = s) ∧
    (∀ (s : State) (q : Nat) (cq : Cq), s.hif.cqs.get q = some cq → 0 < cq.unsig → cq.oldest + us cq.coalUs ≤ s.core.t →
      ∃ t, exec (.cqCoalesceTimeout q) s = .next t ∧ t.out = s.out ++ [.msix cq.fn cq.vector] ∧
        t.hif.cqs.get q = some { cq with unsig := 0 })

/-- NOP, IDENTIFY, ABORT and GET_LOG complete, and a waiting read ends (R74 to R79, R488, R489). Clauses here rest on the
model's own choices, log entries 72, 84, 103. -/
def Obligations.DeviceCommands : Prop :=
  (∀ (s : State) (id : CmdId) (c : Cmd), Runs s .nop id c → Completes (exec (.nop id) s) c .success 0 0 fun u => u = s) ∧
    (∀ (s : State) (id : CmdId) (c : Cmd), Runs s .identify id c →
      Completes (exec (.identify id) s) c .success 0 0 fun u => u = emitData c (qw c.pkt 2) (identifyPage s c.fn) s) ∧
    (∀ (s : State) (id : CmdId) (c d : Cmd), Runs s .abort id c → fld c.pkt 2 31 16 = 0 →
      findCmd s { c.id with tag := fld c.pkt 2 15 0 } = some d → d.accepted = false → { c.id with tag := fld c.pkt 2 15 0 } ≠ c.id →
      Completes (exec (.abort id) s) c .success 0 0 fun u => ∃ v, u = complete d .aborted 0 0 v ∧
        v = { s with grn := v.grn, tly := v.tly }) ∧
    (∀ (s : State) (id : CmdId) (c d : Cmd), Runs s .abort id c → fld c.pkt 2 31 16 = 0 →
      findCmd s { c.id with tag := fld c.pkt 2 15 0 } = some d → d.accepted = true →
      Completes (exec (.abort id) s) c .success 1 0 fun u => u = s) ∧
    (∀ (s : State) (id : CmdId) (c : Cmd), Runs s .abort id c → fld c.pkt 2 31 16 = 0 →
      findCmd s { c.id with tag := fld c.pkt 2 15 0 } = none → endedUnder s { c.id with tag := fld c.pkt 2 15 0 } = false →
      Completes (exec (.abort id) s) c .success 2 0 fun u => u = s) ∧
    (∀ (s : State) (id : CmdId) (c : Cmd), Runs s .getLog id c → dw c.pkt 2 = 3 → fld c.pkt 6 31 1 = 0 →
      Completes (exec (.getLog id) s) c .success ((s.core.causes.flatMap CauseRec.bytes).take (dw c.pkt 5)).length 0 fun u =>
        u = emitData c (qw c.pkt 3) ((s.core.causes.flatMap CauseRec.bytes).take (dw c.pkt 5)) s) ∧
    (∀ (s : State) (id : CmdId) (c : Cmd), Runs s .getLog id c → dw c.pkt 2 = 2 → fld c.pkt 6 31 1 = 0 →
      exec (.getLog id) s = .next (answerRing c s)) ∧
    (∀ (s : State) (id : CmdId) (c : Cmd) (l : Nat), findCmd s id = some c → c.phase = .waitRead (some l) → l ≤ s.core.t →
      Completes (exec (.eventWaitTimeout id) s) c .success 0 0 fun u => u = s)

/-- Features are set and read, and function level and hot resets take the queues away (R71 to R73, R80). Clauses here rest on
the model's own choices, log entries 70, 85, 103. -/
def Obligations.FeaturesAndFlr : Prop :=
  (∀ (s : State) (id : CmdId) (c : Cmd) (n : Nat) (f : FeatRule), Runs s .setFeature id c → n = fld c.pkt 2 7 0 →
      fld c.pkt 2 31 8 = 0 → featRule s c.fn n (dw c.pkt 3) (qw c.pkt 4) = some f → (f.pf = true → c.fn = 0) → f.target = true →
      f.value = true → n ≠ 0x61 → n ≠ 0x80 → n ≠ 0x44 → n ≠ 0x81 → n ≠ 0x82 →
      Completes (exec (.setFeature id) s) c .success 0 0 fun u => feature u n f.key f.default = qw c.pkt 4 ∧
        u = { s with hif := { s.hif with feats := u.hif.feats } }) ∧
    (∀ (s : State) (id : CmdId) (c : Cmd) (n : Nat) (f : FeatRule), Runs s .getFeature id c → n = fld c.pkt 2 7 0 →
      fld c.pkt 2 31 8 = 0 → featRule s c.fn n (dw c.pkt 3) 0 = some f → f.target = true → n ≠ 0x44 → n ≠ 0x80 →
      Completes (exec (.getFeature id) s) c .success (feature s n f.key f.default % 2 ^ 32)
        (feature s n f.key f.default / 2 ^ 32) fun u => u = s) ∧
    (∀ (s : State) (n : Nat), 1 ≤ n → n ≤ 15 → s.pwr.pll = true → feature s 0x01 n 0 = 0 → s.hif.freeing = [] →
      ∃ t, exec (.flrVf n) s = .next t ∧ (∀ e ∈ t.hif.sqs, e.2.fn ≠ n) ∧ (∀ e ∈ t.hif.cqs, e.2.fn ≠ n) ∧
        (∀ d ∈ t.hif.cmds, d.id.origin = .pcie n → d.detached = true ∨ d.orphan = true) ∧ t.mem = s.mem ∧ t.trn = s.trn ∧ t.brk = s.brk) ∧
    (∀ s : State, s.pwr.pll = true → (∀ n, feature s 0x01 n 0 = 0) → s.hif.freeing = [] →
      ∃ t, exec .flrPf s = .next t ∧ (∀ e ∈ t.hif.sqs, 16 ≤ e.2.fn) ∧ (∀ e ∈ t.hif.cqs, 16 ≤ e.2.fn) ∧ t.mem = s.mem ∧
        t.brk = s.brk ∧ exec .pcieHotReset s = .next t)

/-- Register writes by kind of field, by function and by range; the USB service port takes, answers and forgets commands (R20,
R21, R83, R150, R417, R441 to R443, R492). Clauses here rest on the model's own choices, log entries 89, 90, 116, 117. -/
def Obligations.RegistersAndUsb : Prop :=
  (∀ (s : State) (val : Nat), s.pwr.pll = true →
      exec (.registerWrite (some 0) 0x900060 (some val)) s = .next { s with evt := { s.evt with
        evtDrops := s.evt.evtDrops &&& (0xFFFFFFFF ^^^ val % 2 ^ 32) } }) ∧
    (∀ (s : State) (val : Nat), s.pwr.pll = true →
      exec (.registerWrite (some 0) 0x100010 (some val)) s = .next { s with whl := { s.whl with rsel := val % 2 ^ 11 } }) ∧
    (∀ (s : State) (fn val : Nat), s.pwr.pll = true → fn < 16 →
      ∃ t, exec (.registerWrite (some fn) 0x20 (some val)) s = .next t ∧ win t fn = { win s fn with qsel := val % 2 ^ 9 } ∧
        ∀ k, k ≠ fn → win t k = win s k) ∧
    (∀ (s : State) (fn off val : Nat), s.pwr.pll = true → fn < 16 → fn ≠ 0 → 0x100 ≤ off →
      exec (.registerWrite (some fn) off (some val)) s = .next s) ∧
    (∀ (s : State) (val : Nat), s.mwr.running = true → 10 ≤ bits val 13 0 → bits val 13 0 ≤ 10000 →
      exec (.registerWrite none 0xA00010 (some val)) s = .next { mwAct s with mwr := { (mwAct s).mwr with wdtMs := bits val 13 0 } }) ∧
    (∀ (s : State) (val : Nat), s.mwr.running = true → bits val 13 0 < 10 →
      exec (.registerWrite none 0xA00010 (some val)) s = .next (mwAct s)) ∧
    (∀ s : State, s.pwr.pll = true → s.hif.latch.get 0x900004 = none → exec (.registerWrite (some 0) 0x900004 none) s = .next { s with
        out := s.out ++ [.answer (leBytes 4 s.evt.monSel) false] }) ∧
    (∀ (s : State) (fn off : Nat), s.pwr.pll = true → fn < 16 → fn ≠ 0 → 0x100 ≤ off →
      exec (.registerWrite (some fn) off none) s = .next { s with out := s.out ++ [.answer (leBytes 4 0) false] }) ∧
    (∀ (s : State) (r : Race), s.pwr.pll = true → raceOf s s.whl.rsel = some r → s.hif.latch.get 0x100018 = none →
      ∃ t, exec (.registerWrite (some 0) 0x100018 none) s = .next t ∧ t.out = s.out ++ [.answer (leBytes 4 (r.h % 2 ^ 32)) false] ∧
        t.hif.latch.get 0x10001C = some (r.h / 2 ^ 32 % 2 ^ 32) ∧
        t = { s with out := t.out, hif := { s.hif with latch := t.hif.latch } }) ∧
    (∀ (s : State) (v : Nat), s.pwr.pll = true → s.hif.latch.get 0x10001C = some v →
      exec (.registerWrite (some 0) 0x10001C none) s = .next { s with out := s.out ++ [.answer (leBytes 4 v) false] }) ∧
    (∀ s : State, s.mwr.running = true → exec (.registerWrite none 0xA00010 none) s = .next { mwAct s with
        out := s.out ++ [.answer (leBytes 4 s.mwr.wdtMs) false] }) ∧
    (∀ (s : State) (pkt : List Word) (input : List Byte), s.pwr.state = .run → s.usb.attached = true → s.usb.enable = true →
      s.mwr.serves = true → pkt.length = 16 → input.length ≤ 4096 → s.usb.done.length < 16 →
      exec (.usbSubmit (pktTag pkt) pkt input) s =
        .next (arrive .usb 0 pkt none input { s with usb := { s.usb with dev := 3 } })) ∧
    (∀ (s : State) (tag m : Nat) (d : UsbDone), s.usb.attached = true → s.usb.enable = true → s.mwr.serves = true → m ≤ 4096 →
      s.usb.done = [d] → d.k.tag = tag →
      exec (.usbFetch tag m) s = .next { s with
        usb := { s.usb with done := [], dev := 3 }
        out := s.out ++ [.answer (leBytes 4 2 ++ d.k.bytes 0 0xFFFF ++ d.output.take m) false] }) ∧
    (∀ (s : State) (tag m : Nat), s.usb.attached = true → s.usb.enable = true → s.mwr.serves = true → m ≤ 4096 →
      s.usb.done = [] → s.hif.cmds = [] →
      exec (.usbFetch tag m) s = .next { s with
        usb := { s.usb with dev := 3 }, out := s.out ++ [.answer (leBytes 4 0) false] }) ∧
    (∀ s : State, s.usb.attached = true → s.mwr.serves = true → s.usb.done = [] →
      ∃ u, exec .usbBusReset s = .next (raisePf 0xE009 0 0 u) ∧
        u = { s with hif := { s.hif with cmds := u.hif.cmds }, usb := { s.usb with dev := 1 } } ∧
        ∀ c ∈ u.hif.cmds, c.id.origin = .usb → c.orphan = true) ∧
    (∀ (s : State) (val : Nat), s.pwr.pll = true →
      exec (.usbEnableWrite val) s = .next { s with usb := { s.usb with
        enable := bit val 0, attached := s.usb.attached && bit val 0, dev := if bit val 0 then s.usb.dev else 0 } })

/-- RACE_OPEN, RACE_CLOSE, RACE_ANCHOR, PLAYOUT_REPORT and RACE_QUERY complete (R84 to R88, R101 to R105, R118). Clauses here
rest on the model's own choices, log entries 33, 43. -/
def Obligations.RaceCommands : Prop :=
  (∀ (s : State) (id : CmdId) (c : Cmd) (a b : Held), Runs s .raceOpen id c → raceOf s c.context = none →
      fld c.pkt 2 7 4 ≤ 8 → fld c.pkt 2 15 8 = 0 → fld c.pkt 2 31 20 = 0 → dw c.pkt 3 ≤ rateOf (fld c.pkt 2 3 2) / 2 →
      qw c.pkt 4 ≤ 0x7FFFFFFFFFFF → qw c.pkt 6 ≤ 0x7FFFFFFFFFFF → qw c.pkt 8 < 2 ^ 57 → qw c.pkt 8 % 65536 = 0 →
      4 ≤ fld c.pkt 10 3 0 → fld c.pkt 10 3 0 ≤ 12 → 4 ≤ fld c.pkt 10 7 4 → fld c.pkt 10 7 4 ≤ 12 → fld c.pkt 10 31 8 = 0 →
      qw c.pkt 11 < 2 ^ 57 → qw c.pkt 11 % 65536 = 0 → asidBad s c.fn (fld c.pkt 13 15 0) = false → fld c.pkt 13 31 16 = 0 →
      racesOf s c.fn < quotaOf s 0x02 c.fn 2048 →
      translate s { write := true } (fld c.pkt 13 15 0) (qw c.pkt 8) (ringBytes (fld c.pkt 10 3 0)) = .ok a →
      translate s { write := true } (fld c.pkt 13 15 0) (qw c.pkt 11) (ringBytes (fld c.pkt 10 7 4)) = .ok b →
      ringFault s a b = none →
      Completes (exec (.raceOpen id) s) c .success 0 0 fun u => ∃ r, raceOf u c.context = some r ∧ r.fn = c.fn ∧
        r.h = qw c.pkt 4 ∧ r.w = qw c.pkt 6 ∧ r.tailStart = qw c.pkt 6 ∧ r.v = 0 ∧ r.gap = 0 ∧ r.anchor = s.core.time ∧
        r.tstate = .idle ∧ r.inRing = a ∧ r.outRing = b ∧ (∀ k, k ≠ c.context → raceOf u k = raceOf s k)) ∧
    (∀ (s : State) (id : CmdId) (c : Cmd) (r : Race), Runs s .raceClose id c → raceOf s c.context = some r → r.fn = c.fn →
      Completes (exec (.raceClose id) s) c .success 0 0 fun u => u = closeRace c.context 5 s ∧ raceOf u c.context = none ∧
        ∀ e ∈ u.whl.cogs, e.1 / 16 ≠ c.context) ∧
    (∀ (s : State) (id : CmdId) (c : Cmd) (r : Race), Runs s .raceAnchor id c → raceOf s c.context = some r → r.fn = c.fn →
      Completes (exec (.raceAnchor id) s) c .success 0 0 fun u => raceOf u c.context = some { r with anchor := qw c.pkt 2 } ∧
        (∀ k, k ≠ c.context → raceOf u k = raceOf s k) ∧ u = { s with whl := u.whl }) ∧
    (∀ (s : State) (id : CmdId) (c : Cmd) (r : Race), Runs s .playoutReport id c → raceOf s c.context = some r → r.fn = c.fn →
      fld c.pkt 3 31 16 = 0 → dw c.pkt 6 = 0 → s.dom.timeSuspect = false → reportReason s r false (qw c.pkt 2) (qw c.pkt 4) = 0 →
      Completes (exec (.playoutReport id) s) c .success 0
        (sat 0xFFFFFFFF (slackOf { r with real := some (qw c.pkt 2, qw c.pkt 4) } s.core.time)) fun u =>
        raceOf u c.context = some { r with real := some (qw c.pkt 2, qw c.pkt 4), playoutLocal := false } ∧
        u = { s with whl := u.whl }) ∧
    (∀ (s : State) (id : CmdId) (c : Cmd) (r : Race), Runs s .playoutReport id c → raceOf s c.context = some r → r.fn = c.fn →
      fld c.pkt 3 31 16 = 0 → dw c.pkt 6 = 0 → s.dom.timeSuspect = true → r.playoutLocal = true →
      reportReason s r true (qw c.pkt 2) s.core.time = 0 →
      Completes (exec (.playoutReport id) s) c .success 0
        (sat 0xFFFFFFFF (slackOf { r with real := some (qw c.pkt 2, s.core.time) } s.core.time)) fun u =>
        raceOf u c.context = some { r with real := some (qw c.pkt 2, s.core.time) } ∧ u = { s with whl := u.whl }) ∧
    (∀ (s : State) (id : CmdId) (c : Cmd) (r : Race), Runs s .playoutReport id c → raceOf s c.context = some r → r.fn = c.fn →
      fld c.pkt 3 31 16 = 0 → dw c.pkt 6 = 0 → s.dom.timeSuspect = false → reportReason s r false (qw c.pkt 2) (qw c.pkt 4) ≠ 0 →
      Completes (exec (.playoutReport id) s) c .success (reportReason s r false (qw c.pkt 2) (qw c.pkt 4))
        (sat 0xFFFFFFFF (slackOf r s.core.time)) fun u => raceOf u c.context = some { r with
          repRej := sat 0xFFFF (r.repRej + 1), repReason := reportReason s r false (qw c.pkt 2) (qw c.pkt 4) }) ∧
    (∀ (s : State) (id : CmdId) (c : Cmd) (r : Race), Runs s .raceQuery id c → raceOf s c.context = some r → r.fn = c.fn →
      Completes (exec (.raceQuery id) s) c .success 0 0 fun u => u = emitData c (qw c.pkt 2) (raceRecord s c.context r) s)

/-- Landings, READ_SEQ and the report slot move a race on (R93 to R97, R102, R103). Clauses here rest on the model's own
choices, log entries 30, 42. -/
def Obligations.RaceWrites : Prop :=
  (∀ (s u : State) (race slot seq : Nat) (r : Race) (d : List Byte), s.pwr.state = .run → s.core.datReset = false →
      raceOf s race = some r → slot < 2 ^ r.inLog → seq = r.inSeq → seq < 2 ^ 32 →
      u = putHeld r.inRing (slotOff slot + 28) (leBytes 4 seq) s → d = (getHeld r.inRing (slotOff slot) 28 u).1.map (·.1) →
      frameReason r d = 0 →
      ∃ t x, exec (.ingressSeqWrite race slot seq) s = .next t ∧ raceOf t race = some x ∧ x.h = num d 0 8 + num d 8 2 ∧
        x.gap = r.gap + (num d 0 8 - r.h) ∧ x.inSeq = (seq + 1) % 2 ^ 32 ∧ x.rejects = r.rejects ∧ x.w = r.w ∧
        ∀ k, k ≠ race → raceOf t k = raceOf s k) ∧
    (∀ (s : State) (race slot seq : Nat) (r : Race), s.pwr.state = .run → s.core.datReset = false → raceOf s race = some r →
      slot < 2 ^ r.inLog → seq < 2 ^ 32 → seq ≠ r.inSeq →
      ∃ t, exec (.ingressSeqWrite race slot seq) s = .next t ∧ t.whl = s.whl) ∧
    (∀ (s : State) (race seq : Nat) (r : Race), s.pwr.state = .run → raceOf s race = some r → r.markers = [] →
      ∃ t x, exec (.tailReadSeqWrite race seq) s = .next t ∧ raceOf t race = some x ∧ x.readSeq = seq % 2 ^ 32 ∧ x.w = r.w ∧
        x.outSeq = r.outSeq ∧ ∀ k, k ≠ race → raceOf t k = raceOf s k) ∧
    (∀ (s : State) (race rseq : Nat) (qp : Option Nat) (r : Race), s.pwr.state = .run → raceOf s race = some r →
      rseq % 2 ^ 32 = (r.rseq + 1) % 2 ^ 32 →
      ∃ t x, exec (.reportSlotWrite race ⟨rseq, qp⟩) s = .next t ∧ raceOf t race = some x ∧ x.rseq = rseq % 2 ^ 32 ∧ x.h = r.h ∧
        x.w = r.w) ∧
    (∀ (s : State) (race rseq : Nat) (qp : Option Nat) (r : Race), raceOf s race = some r → rseq % 2 ^ 32 ≠ (r.rseq + 1) % 2 ^ 32 →
      ∃ t, exec (.reportSlotWrite race ⟨rseq, qp⟩) s = .next t ∧ t.whl = s.whl)

/-- Cogs are set, cleared and trip, and a race runs dry (R107, R109 to R117). Clauses here rest on the model's own choices, log
entry 41. -/
def Obligations.CogsAndTicks : Prop :=
  (∀ (s : State) (id : CmdId) (c : Cmd) (r : Race), Runs s .cogSet id c → raceOf s c.context = some r → r.fn = c.fn →
      (∀ e ∈ cogFields s c.fn c.pkt, e.1 = false) → fld c.pkt 2 19 16 ≠ 3 →
      Completes (exec (.cogSet id) s) c .success 0 0 fun u =>
        u.whl.cogs.get (c.context * 16 + fld c.pkt 2 3 0) = some {
          cfg := fld c.pkt 2 19 0, thr := (thrOf r s.core.time c.pkt).1, pos := (thrOf r s.core.time c.pkt).2
          step := qw c.pkt 5, args := (List.range 7).map (fun i => dw c.pkt (7 + i)), vref := r.v, hopper := none } ∧
        (∀ k, k ≠ c.context * 16 + fld c.pkt 2 3 0 → u.whl.cogs.get k = s.whl.cogs.get k) ∧ u = { s with whl := u.whl }) ∧
    (∀ (s : State) (id : CmdId) (c : Cmd) (r : Race) (k : Nat) (g : Cog), Runs s .cogClear id c →
      raceOf s c.context = some r → r.fn = c.fn → dw c.pkt 2 = 2 ^ k → k < 16 → s.whl.cogs.get (c.context * 16 + k) = some g →
      Completes (exec (.cogClear id) s) c .success (if g.tripped then 2 ^ k else 0) 0 fun u =>
        u.whl.cogs.get (c.context * 16 + k) = some { g with armed := false, lit := false, hopper := none } ∧
        (∀ j, j ≠ c.context * 16 + k → u.whl.cogs.get j = s.whl.cogs.get j) ∧ u = { s with whl := u.whl }) ∧
    (∀ s : State, wheelOn s = true → isMill s = true → s.whl.cogs = [] → s.whl.dirty = [] → s.trn.items = [] →
      exec (.wheelhouseTick none) s = .next { s with whl := { s.whl with
        dirty := [], late := [], lateEvals := sat 0xFFFF s.whl.lateEvals } }) ∧
    (∀ (s : State) (k : Nat) (g : Cog) (r : Race), wheelOn s = true → isMill s = true → s.whl.cogs = [(k, g)] →
      s.whl.dirty = [] → s.whl.late = [] → s.trn.items = [] → raceOf s (k / 16) = some r → g.armed = true → g.lit = false →
      g.timed r = true → g.cond r s.core.time = true → g.action = 0 →
      ∃ t x, exec (.wheelhouseTick none) s = .next t ∧ t.whl.cogs.get k = some x ∧ x.tripped = true ∧
        x.trips = sat 0xFFFFFFFF (g.trips + 1) ∧ x.rec_.time = s.core.time ∧ x.rec_.h = r.h) ∧
    (∀ (s : State) (race slot : Nat) (g : Cog) (r : Race), wheelOn s = true → slot < 16 → raceOf s race = some r →
      s.whl.cogs.get (race * 16 + slot) = some g → g.armed = true → g.lit = false → g.timed r = true →
      g.cond r s.core.time = true → g.action = 0 →
      ∃ t x, exec (.cogDueExpiry race slot) s = .next t ∧ t.whl.cogs.get (race * 16 + slot) = some x ∧ x.tripped = true ∧
        x.trips = sat 0xFFFFFFFF (g.trips + 1) ∧ (g.mode = 0 → x.armed = false)) ∧
    (∀ (s : State) (race : Nat) (r : Race), wheelOn s = true → raceOf s race = some r → r.tstate = .live → r.real ≠ none →
      slackOf r s.core.time = 0 → r.final = false →
      ∃ t x, exec (.dryDueExpiry race) s = .next t ∧ raceOf t race = some x ∧ x.tstate = .dry ∧ x.w = r.w) ∧
    (∀ (s : State) (race : Nat) (r : Race), wheelOn s = true → raceOf s race = some r → r.tstate = .live → r.real ≠ none →
      slackOf r s.core.time = 0 → r.final = true →
      ∃ t, exec (.dryDueExpiry race) s = .next t ∧ raceOf t race = some { r with tstate := .idle })

/-- The Turn commands complete (R121 to R134). Clauses here rest on the model's own choices, log entries 24, 25. -/
def Obligations.TurnCommands : Prop :=
  (∀ (s : State) (id : CmdId) (c : Cmd) (r : Race), Runs s .turnBegin id c → (turnOf s c.context).state = .free →
      raceOf s (fld c.pkt 2 10 0) = some r → r.fn = c.fn → fld c.pkt 2 31 11 = 0 → (dw c.pkt 3 = 0 ∨ 1000 ≤ dw c.pkt 3) →
      dw c.pkt 3 ≤ 1000000 → fld c.pkt 4 2 0 ≤ 4 → fld c.pkt 4 31 3 = 0 → liveTurn s (fld c.pkt 2 10 0) = none →
      turnsOf s c.fn < quotaOf s 0x03 c.fn 64 →
      Completes (exec (.turnBegin id) s) c .success 0 0 fun u => u.trn.turns.get c.context = some {
          state := .listening, fn := c.fn, race := fld c.pkt 2 10 0
          target := if dw c.pkt 3 = 0 then 1000 * feature s 0x20 c.fn 60 else dw c.pkt 3
          maxSails := if fld c.pkt 4 2 0 = 0 then 4 else fld c.pkt 4 2 0, sails := (turnOf s c.context).sails } ∧
        u = { s with trn := { s.trn with turns := u.trn.turns } }) ∧
    (∀ (s : State) (id : CmdId) (c : Cmd), Runs s .turnEnd id c → (turnOf s c.context).state = .retiring →
      (turnOf s c.context).fn = c.fn → fld c.pkt 2 31 1 = 0 →
      Completes (exec (.turnEnd id) s) c .success (turnItems s c.context) 0 fun u => u = s) ∧
    (∀ (s : State) (id : CmdId) (c : Cmd), Runs s .turnEnd id c → (turnOf s c.context).state = .listening →
      (turnOf s c.context).fn = c.fn → fld c.pkt 2 31 1 = 0 → (turnOf s c.context).sails = [] → turnItems s c.context = 0 →
      ∃ t, exec (.turnEnd id) s = .next t ∧ t.trn.turns = s.trn.turns.erase c.context) ∧
    (∀ (s v : State) (id : CmdId) (c : Cmd), Runs s .sailRaise id c → turnForeign s c = false → fld c.pkt 5 31 1 = 0 →
      fbit c.pkt 5 0 = false → qw c.pkt 3 < 2 ^ 48 →
      raiseSail { turn := ctxTurn c, slot := ctxSail c, chain := fld c.pkt 2 15 0, stage := fld c.pkt 2 23 16,
                  gang := fld c.pkt 2 31 24, hyp := qw c.pkt 3, cmd := some id } s = .ok v →
      exec (.sailRaise id) s = .next (accept c v) ∧ (sailOf v (ctxTurn c) (ctxSail c)).state = .raised ∧
        (turnOf v (ctxTurn c)).state = .speculating ∧ (sailOf v (ctxTurn c) (ctxSail c)).hyp = qw c.pkt 3) ∧
    (∀ (s : State) (id : CmdId) (c : Cmd), Runs s .sailSet id c → turnForeign s c = false →
      (sailOf s (ctxTurn c) (ctxSail c)).state = .raised → (sailOf s (ctxTurn c) (ctxSail c)).done = false →
      (turnOf s (ctxTurn c)).sailsIn .raised = [ctxSail c] →
      Completes (exec (.sailSet id) s) c .success (heldSmp (sailOf s (ctxTurn c) (ctxSail c)).audio) 0 fun u =>
        u = setSail (ctxTurn c) (ctxSail c) s ∧ (sailOf u (ctxTurn c) (ctxSail c)).state = .set ∧
        (turnOf u (ctxTurn c)).state = .committed) ∧
    (∀ (s : State) (id : CmdId) (c : Cmd), Runs s .sailFurl id c → turnForeign s c = false →
      (sailOf s (ctxTurn c) (ctxSail c)).state = .raised → s.trn.items = [] →
      ∃ t, exec (.sailFurl id) s = .next t ∧ (sailOf t (ctxTurn c) (ctxSail c)).state = .draining ∧
        (sailOf t (ctxTurn c) (ctxSail c)).cause = 1 ∧ (sailOf t (ctxTurn c) (ctxSail c)).audio = [] ∧
        (sailOf t (ctxTurn c) (ctxSail c)).writes = [])

/-- Furls and drains end, arenas return, and the gate releases frames and writes (R97, R126, R138 to R140, R207). Clauses here
rest on the model's own choices, log entries 27, 45, 49. -/
def Obligations.GateReleases : Prop :=
  (∀ (s : State) (turn k : Nat), (sailOf s turn k).state = .furling → s.trn.items = [] →
      ∃ t, exec (.furlStonesIdle turn (some k)) s = .next t ∧ (sailOf t turn k).state = .draining ∧
        (sailOf t turn k).furlCmds = []) ∧
    (∀ (s : State) (turn k : Nat), (sailOf s turn k).state = .draining →
      ∃ t, exec (.sailDrainEnd turn k) s = .next t ∧ (sailOf t turn k).state = .free) ∧
    (∀ (s : State) (o : Nat) (a : Arena), s.mem.arenas.get o = some a → a.filling = true →
      ∃ t, exec (.arenaZeroFillEnd o) s = .next t ∧ t.mem.arenas.get o = none ∧
        (∀ i, i < a.len → readCell t.mem.cells (arenaBase s + o + i) = 0) ∧
        (∀ b, b < arenaBase s + o ∨ arenaBase s + o + a.len ≤ b → readCell t.mem.cells b = readCell s.mem.cells b) ∧
        t = { s with mem := t.mem }) ∧
    (∀ (s : State) (turn k : Nat) (r : Race) (f : HeldFrame) (rest : List HeldFrame), (sailOf s turn k).state = .set →
      leavingOf s turn k = none → audioBefore s (turnOf s turn).race = false →
      (sailOf s turn k).audio = f :: rest → raceOf s (turnOf s turn).race = some r →
      r.markers = [] → s.core.datReset = false → ringFull r = false → r.checks = false → r.w + f.nsmp ≤ posLimit →
      ∃ t x, exec (.tailFrameRelease turn k) s = .next t ∧ raceOf t (turnOf s turn).race = some x ∧ x.w = r.w + f.nsmp ∧
        x.outSeq = (r.outSeq + 1) % 2 ^ 32 ∧ (sailOf t turn k).audio = rest ∧ (turnOf t turn).first = true) ∧
    (∀ (s : State) (turn k : Nat) (r : Race) (f : HeldFrame) (rest : List HeldFrame), (sailOf s turn k).state = .set →
      leavingOf s turn k = none → audioBefore s (turnOf s turn).race = false →
      (sailOf s turn k).audio = f :: rest → raceOf s (turnOf s turn).race = some r → s.core.datReset = false →
      r.checks = true → frameGoes s r = true →
      ∃ t x, exec (.tailFrameRelease turn k) s = .next t ∧ raceOf t (turnOf s turn).race = some x ∧ x.w = r.w ∧
        x.checking = r.checking + 1 ∧ (sailOf t turn k).audio = rest ∧ (turnOf t turn).first = true) ∧
    (∀ (s : State) (turn k : Nat) (l : Leaving) (r : Race) (f g : HeldFrame) (rest : List HeldFrame),
      leavingOf s turn k = some l → l.v.audio = f :: g :: rest → raceOf s l.race = some r → s.core.datReset = false →
      r.checks = false → frameGoes s r = true → r.w + f.nsmp ≤ posLimit →
      ∃ t x, exec (.tailFrameRelease turn k) s = .next t ∧ raceOf t l.race = some x ∧ x.w = r.w + f.nsmp ∧
        x.outSeq = (r.outSeq + 1) % 2 ^ 32) ∧
    (∀ (s : State) (turn k : Nat) (r : Race) (f : HeldFrame) (rest : List HeldFrame), (sailOf s turn k).state = .set →
      leavingOf s turn k = none → audioBefore s (turnOf s turn).race = false →
      (sailOf s turn k).audio = f :: rest → raceOf s (turnOf s turn).race = some r → r.markers = [] → s.core.datReset = false →
      ringFull r = true →
      ∃ t x, exec (.tailFrameRelease turn k) s = .next t ∧ raceOf t (turnOf s turn).race = some x ∧ x.fullTold = true ∧
        x.w = r.w ∧ t.trn = s.trn) ∧
    (∀ (s : State) (turn k a f : Nat) (w : HeldWrite) (rest : List HeldWrite), (sailOf s turn k).state = .set →
      leavingOf s turn k = none → (sailOf s turn k).writes = w :: rest → s.core.datReset = false →
      w.dest = .mem [{ target := .hbm, addr := a, len := w.data.length, fn := f }] →
      ∃ t, exec (.heldWriteRelease turn k none) s = .next t ∧ (sailOf t turn k).writes = rest ∧
        t.mem.cells = writeCells s.mem.cells a (w.data.map (·.1))) ∧
    (∀ (s : State) (turn k st : Nat) (w : HeldWrite) (rest : List HeldWrite), (sailOf s turn k).state = .set →
      leavingOf s turn k = none → (sailOf s turn k).writes = w :: rest → s.core.datReset = false →
      ∃ t, exec (.heldWriteRelease turn k (some st)) s = .next t ∧ (sailOf t turn k).writes = rest ∧ t.mem = s.mem)

/-- Images are loaded, unloaded and read, and chains bound and unbound (R175, R177 to R179). Clauses here rest on the model's
own choices, log entries 50, 51, 106. -/
def Obligations.ImagesAndChains : Prop :=
  (∀ (s : State) (id : CmdId) (bus : Bus) (c : Cmd) (h b : Held) (d e : List PByte × State),
      Runs s .imageLoad id c → c.context ≤ 1023 →
      s.stn.images.has c.context = false → qw c.pkt 2 < 2 ^ 57 → asidBad s c.fn (fld c.pkt 4 15 0) = false →
      fld c.pkt 4 31 16 = 0 → 128 ≤ dw c.pkt 5 → engineOwned s (fld c.pkt 6 3 0) c.fn = true → fld c.pkt 6 31 4 = 0 →
      qw c.pkt 7 < 2 ^ 57 → translate s {} (fld c.pkt 4 15 0) (qw c.pkt 2) (dw c.pkt 5) = .ok h →
      translate s {} (fld c.pkt 4 15 0) (qw c.pkt 7) 128 = .ok b → d = readRuns bus h.segs (noteWalks b (noteWalks h s)) →
      e = readRuns bus b.segs d.2 → anyPoison d.1 = false → anyPoison e.1 = false →
      ∃ ld : Loading, exec (.imageLoad id bus) s = .next (pushLoadJob ld 0 (accept c { e.2 with
          stn := { e.2.stn with loading := e.2.stn.loading ++ [ld] } })) ∧ ld.id = id ∧ ld.engine = fld c.pkt 6 3 0 ∧
        ld.bytes = d.1.map (·.1) ∧ ld.block = (List.range 16).map (fun i => num (e.1.map (·.1)) (8 * i) 8) ∧
        e.2.stn = s.stn ∧ e.2.mem.cells = s.mem.cells ∧ e.2.chk = s.chk) ∧
    (∀ (s : State) (id : CmdId) (bus : Bus) (c : Cmd) (h b : Held) (d : List PByte × State),
      Runs s .imageLoad id c → c.context ≤ 1023 → s.stn.images.has c.context = false → qw c.pkt 2 < 2 ^ 57 →
      asidBad s c.fn (fld c.pkt 4 15 0) = false → fld c.pkt 4 31 16 = 0 → 128 ≤ dw c.pkt 5 →
      engineOwned s (fld c.pkt 6 3 0) c.fn = true → fld c.pkt 6 31 4 = 0 → qw c.pkt 7 < 2 ^ 57 →
      translate s {} (fld c.pkt 4 15 0) (qw c.pkt 2) (dw c.pkt 5) = .ok h →
      translate s {} (fld c.pkt 4 15 0) (qw c.pkt 7) 128 = .ok b → d = readRuns bus h.segs (noteWalks b (noteWalks h s)) →
      anyPoison d.1 = true →
      exec (.imageLoad id bus) s = .next (complete c .poisoned 0 (lastErrIndex d.2) d.2)) ∧
    (∀ (s : State) (id : CmdId) (c : Cmd) (m : Image), Runs s .imageUnload id c → imageOf s c.context = some m → m.fn = c.fn →
      (∀ e ∈ s.stn.chains, c.context ∉ e.2.images) →
      Completes (exec (.imageUnload id) s) c .success 0 0 fun u =>
        u = { s with stn := { s.stn with images := s.stn.images.erase c.context } }) ∧
    (∀ (s : State) (id : CmdId) (c : Cmd) (m : Image), Runs s .imageQuery id c → imageOf s c.context = some m → m.fn = c.fn →
      Completes (exec (.imageQuery id) s) c .success 0 0 fun u =>
        u = emitData c (qw c.pkt 2) (imageRecord c.context (some m)) s) ∧
    (∀ (s : State) (id : CmdId) (c : Cmd), Runs s .imageQuery id c → imageOf s c.context = none →
      Completes (exec (.imageQuery id) s) c .success 0 0 fun u =>
        u = emitData c (qw c.pkt 2) (leBytes 2 0xFFFF ++ leBytes 254 0) s) ∧
    (∀ (s : State) (id : CmdId) (bus : Bus) (c : Cmd) (n : Nat) (ids : List Nat) (ms : List Image) (b : Held) (addr : List Nat)
      (binds : List Binding) (held : Tbl Held) (d : List PByte × State), Runs s .chainBind id c → n = fld c.pkt 2 3 0 → 1 ≤ n → n ≤ 8 → c.context ≤ 255 →
      chainForeign s c = false → fld c.pkt 2 31 4 = 0 → qw c.pkt 7 < 2 ^ 57 → asidBad s c.fn (fld c.pkt 9 15 0) = false →
      fld c.pkt 9 31 16 = 0 → ids = (List.range n).map (stageField c.pkt) → ids.map (imageOf s) = ms.map some →
      (∀ m ∈ ms, m.fn = c.fn ∧ (isGranary s = true → m.flags = 0)) → bindsClash ms = false → chainBusy s c.context = false →
      binds = (ms.flatMap (·.binds)).eraseDups → translate s {} (fld c.pkt 9 15 0) (qw c.pkt 7) 128 = .ok b →
      d = readRuns bus b.segs s → anyPoison d.1 = false →
      addr = (List.range 16).map (fun i => num (d.1.map (·.1)) (8 * i) 8) →
      binds.filter (fun b => decide (b.kind = 2 ∨ b.kind = 5)) ≠ [] →
      resolveBinds d.2 (fld c.pkt 9 15 0) addr (fun i => ms.any fun m => writesThrough m i) (binds.filter fun b => decide (b.kind = 2)) =
        .ok held →
      Completes (exec (.chainBind id bus) s) c .success 0 0 fun u =>
        u = { d.2 with stn := { d.2.stn with chains := d.2.stn.chains.set c.context {
          fn := c.fn, images := ids, held, arena := (ms.map (·.arenaBytes)).foldl max 0
          bins := (binds.filter fun b => decide (b.kind = 5)).foldl (fun (t : Tbl Nat) x => t.set x.index (addr.getD x.index 0)) [] } } }) ∧
    (∀ (s : State) (id : CmdId) (c : Cmd), Runs s .chainBind id c → fld c.pkt 2 3 0 = 0 → fld c.pkt 2 31 4 = 0 →
      s.stn.chains.has c.context = true → chainForeign s c = false → chainBusy s c.context = false →
      Completes (exec (.chainUnbind id) s) c .success 0 0 fun u =>
        u = { s with stn := { s.stn with chains := s.stn.chains.erase c.context } })

/-- Stones are fenced, asked to yield, tested and reinstated (R181, R183). Clauses here rest on the model's own choices, log
entry 60. -/
def Obligations.FencesAndTests : Prop :=
  (∀ (s : State) (id : CmdId) (c : Cmd) (l : List Nat) (floor : Bool), Runs s .stoneFence id c → c.context ≤ 255 →
      dw c.pkt 2 = flag floor → l = namedStones c.context floor → s.stn.stones = [] → s.stn.fences = [] → (∀ n ∈ l, itemOn s n = none) →
      ∃ u d : State, exec (.stoneFence id) s = .next d ∧ d = settleVotes (complete { c with phase := .waiting } .success 0 0 u) ∧
        (∀ n ∈ l, (stoneOf d n).state = .fenced) ∧ (∀ n, n ∉ l → stoneOf d n = stoneOf s n) ∧ d.stn.fences = [] ∧
        d.stn.floorFence = (if floor then s.stn.floorFence ||| 2 ^ (c.context / 16) else s.stn.floorFence) ∧ d.trn = s.trn) ∧
    (∀ (s : State) (id : CmdId) (c : Cmd) (n k : Nat) (i : Item), Runs s .stoneFence id c → n = c.context → n ≤ 255 → dw c.pkt 2 = 0 →
      s.stn.stones = [] → s.stn.fences = [] → itemOn s n = some (k, i) → itemOf s k = some i → i.state = .running →
      i.yieldAt = none →
      ∃ t, exec (.stoneFence id) s = .next t ∧ (stoneOf t n).state = .fencing ∧ t.stn.fences = [{ id := some id, stones := [n], yields := 0 }] ∧
        itemOf t k = some { i with yieldAt := some s.core.t, preempt := false, yieldFor := none } ∧ findCmd t id = some { c with phase := .waiting }) ∧
    (∀ (s : State) (id : CmdId) (c : Cmd) (l : List Nat) (floor : Bool), Runs s .stoneReinstate id c → c.context ≤ 255 →
      dw c.pkt 2 = flag floor → stonesBusy s (namedStones c.context floor) = false → l ≠ [] →
      l = (namedStones c.context floor).filter (fun n => decide ((stoneOf s n).state = .fenced)) →
      ∃ t, exec (.stoneReinstate id) s = .next t ∧ (∀ n ∈ l, (stoneOf t n).state = .testing ∧ (ocpInst t n).words = []) ∧
        t.stn.tests = s.stn.tests ++ [{ id, stones := l, floor := if floor then some (c.context / 16) else none }] ∧
        findCmd t id = some { c with phase := .waiting }) ∧
    (∀ (s : State) (id : CmdId) (c : Cmd) (n : Nat), s.stn.tests = [{ id, stones := [n], floor := none }] → findCmd s id = some c →
      (∀ d ∈ s.hif.cmds, d.id = id → d.phase = .waiting) →
      ∃ u : State, exec (.reinstateBistEnd n true) s = .next (settleVotes (complete c .success 0 0 u)) ∧
        (stoneOf u n).state = .inService ∧ (stoneOf u n).bistFail = false ∧ u.stn.tests = [] ∧ (ocpInst u n).words = []) ∧
    (∀ (s : State) (id : CmdId) (n : Nat), s.stn.tests = [{ id, stones := [n], floor := none }] →
      ∃ t : State, exec (.reinstateBistEnd n false) s = .next t ∧
        stoneOf t n = { stoneOf s n with state := .fenced, bistFail := true } ∧ t.stn.tests = [])

/-- Check engines are claimed, configured, run and released (R341 to R345, R348, R350, R351). -/
def Obligations.CheckEngines : Prop :=
  (∀ (s : State) (id : CmdId) (c : Cmd) (n : Nat), Runs s .chkClaim id c → s.core.datReset = false → dw c.pkt 2 = 0 →
      n = c.context → n ≤ 15 → (engineOf s n).owner = none →
      Completes (exec (.chkClaim id) s) c .success 0 0 fun u => engineOf u n = { engineOf s n with
          owner := some c.fn, cfg := {}, seq := 0, seen := none, release := none } ∧
        (∀ k, k ≠ n → engineOf u k = engineOf s k) ∧ u = { s with chk := { s.chk with engines := u.chk.engines } }) ∧
    (∀ (s : State) (id : CmdId) (c : Cmd) (n : Nat), Runs s .chkClaim id c → s.core.datReset = false → dw c.pkt 2 = 1 → n ≤ 15 →
      (engineOf s n).owner = none → (∀ k, k < n → (engineOf s k).owner ≠ none) →
      Completes (exec (.chkClaim id) s) c .success n 0 fun u => (engineOf u n).owner = some c.fn) ∧
    (∀ (s : State) (id : CmdId) (c : Cmd), Runs s .chkConfig id c → c.context ≤ 15 → (engineOf s c.context).owner = some c.fn →
      (∀ e ∈ chkCfgBad c.pkt, e.1 = false) →
      Completes (exec (.chkConfig id) s) c .success 0 0 fun u => engineOf u c.context = { engineOf s c.context with
          cfg := chkCfgOf c.pkt, seen := none, seq := if fld c.pkt 2 17 16 = 3 then qw c.pkt 9 else (engineOf s c.context).seq } ∧
        u = { s with chk := { s.chk with engines := u.chk.engines } }) ∧
    (∀ (s : State) (id : CmdId) (c : Cmd) (n len : Nat) (h : Held) (e : Engine), Runs s .chkRun id c → n = c.context → n ≤ 15 →
      e = engineOf s n → e.owner = some c.fn → len = dw c.pkt 5 → qw c.pkt 2 < 2 ^ 57 → asidBad s c.fn (fld c.pkt 4 9 0) = false →
      fld c.pkt 4 31 10 = 0 → fld c.pkt 8 31 1 = 0 → (len = 0 → e.cfg.fold ≠ 0) → (e.cfg.alive ≠ 0 → e.cfg.ofs < len) →
      e.run = none → e.hostQ = [] → e.intQ = [] → translate s {} (fld c.pkt 4 9 0) (qw c.pkt 2) len = .ok h →
      ∃ t, exec (.chkRun id) s = .next t ∧ findCmd t id = some { c with phase := .waiting } ∧ engineOf t n = { e with
        run := some { id := some id, cfg := e.cfg, held := h, len, expected := qw c.pkt 6, compare := fbit c.pkt 8 0, foldValue := qw c.pkt 9
                      num := s.chk.next } } ∧ t.mem.cells = s.mem.cells) ∧
    (∀ (s : State) (id : CmdId) (c : Cmd) (n : Nat), Runs s .chkRelease id c → n = c.context → n ≤ 15 →
      (engineOf s n).owner = some c.fn → tcheckRace s n = none → (engineOf s n).run = none → (engineOf s n).hostQ = [] →
      (engineOf s n).intQ = [] →
      Completes (exec (.chkRelease id) s) { c with phase := .waiting } .success 0 0 fun u => engineOf u n = { engineOf s n with
          owner := none, release := none, cfg := {}, seq := 0, seen := none } ∧ ∀ k, k ≠ n → engineOf u k = engineOf s k) ∧
    (∀ (s : State) (n : Nat) (bus : Bus) (j : Job) (id : CmdId) (c : Cmd) (r : Nat) (e : Engine) (d : List PByte × State),
      s.core.datReset = false → e = engineOf s n → e.run = some j → j.image = none → j.frame = none → e.hostQ = [] → e.intQ = [] →
      e.release = none → j.cfg.alive = 0 → j.id = some id → d = readRuns bus j.held.segs s → findCmd d.2 id = some c →
      anyPoison d.1 = false → r = crc j.cfg.crc (foldBytes e j ++ d.1.map (·.1)) →
      (j.compare = true → r % 2 ^ j.cfg.crc.width = j.expected % 2 ^ j.cfg.crc.width) →
      ∃ t v : State, exec (.chkJobEnd n bus) s = .next t ∧
        t = { complete c .success (r % 2 ^ 32) (r / 2 ^ 32) v with chk := t.chk } ∧ engineOf t n = { e with
          run := none, result := r, runs := sat 0xFFFFFFFF (e.runs + 1)
          seq := if j.cfg.fold = 3 then (e.seq + 1) % 2 ^ 64 else e.seq } ∧ t.mem = d.2.mem)

/-- Bundles issue, the runner runs, descriptors start and end (R136, R137, R154 to R156, R160, R173). Clauses here rest on the
model's own choices, log entries 32, 48, 105, 107, 108. -/
def Obligations.GangsIssue : Prop :=
  (∀ (s u : State) (n k j v : Nat) (fx : BundleFx) (i : Item) (m : Image) (b : Bed) (reg : Scalar) (p q : Bool × State),
      itemOf s n = some i → imageOf s i.image = some m → i.issues m s.core.t = true → b = i.bed k → b.atSite = none →
      b.halted = false → (bundleAt m k j).isSome = true → (fx.afterRun = true → b.runnerBusy s.core.t = false) →
      b.bundle j = some v → bundleBad v = false → (∀ r ∈ fx.control, (b.scalar.getD r {}).bad = false) →
      reg = b.scalar.getD (bits (bits v 223 160) 24 20) {} → p = opPoisoned b (i.stone k) fx.scalar (firstBundle n i s) →
      q = opPoisoned b (i.stone k) fx.vector p.2 →
      u = modBed n k (Bed.issued i k j s.core.t v reg.val) (bundleResults n k (i.stone k) b fx (firstBundle n i s)) →
      (slotOp (bits v 223 160) = 3 → reg.bad = false ∧ issueFault u i m (bits v 223 160) reg.val = none) →
      ∃ x : Item, exec (.bundleIssue n k j fx) s = .next u ∧ itemOf u n = some x ∧
        x.bed k = Bed.issued i k j s.core.t v reg.val ((b.write fx.scalar p.1).write fx.vector q.1) ∧
        (∀ l, l ≠ n → itemOf u l = itemOf s l) ∧ u.mem = s.mem) ∧
    (∀ (s : State) (n k j v : Nat) (fx : BundleFx) (i : Item) (m : Image), itemOf s n = some i → imageOf s i.image = some m →
      i.issues m s.core.t = true → (i.bed k).atSite = none → (i.bed k).halted = false → (bundleAt m k j).isSome = true →
      (fx.afterRun = true → (i.bed k).runnerBusy s.core.t = false) → (i.bed k).bundle j = some v → bundleBad v = true →
      exec (.bundleIssue n k j fx) s = .next (gangFault n 11 k (firstBundle n i s))) ∧
    (∀ (s : State) (n k j : Nat) (fx : BundleFx) (i : Item) (m : Image), itemOf s n = some i → imageOf s i.image = some m →
      i.issues m s.core.t = true → (i.bed k).atSite = none → (i.bed k).halted = false → (bundleAt m k j).isSome = true →
      fx.afterRun = false → (i.bed k).bundle j = none →
      exec (.bundleIssue n k j fx) s = .next (modBed n k (Bed.want j) s)) ∧
    (∀ (s : State) (n k j : Nat) (fx : BundleFx) (i : Item) (m : Image), itemOf s n = some i → imageOf s i.image = some m →
      i.issues m s.core.t = true → (i.bed k).atSite = none → (i.bed k).halted = false → (bundleAt m k j).isSome = true →
      fx.afterRun = true → (i.bed k).runnerBusy s.core.t = true →
      exec (.bundleIssue n k j fx) s = .next (modBed n k (fun b => { b with need := .runner }) s)) ∧
    (∀ (s : State) (n k op : Nat) (v : RunSlot) (fx : RunnerFx) (i : Item) (m : Image), itemOf s n = some i →
      imageOf s i.image = some m → i.state = .running → op = 1 ∨ op = 2 →
      (i.bed k).slots.find? (fun v => decide (slotOp v.word = 1 ∨ slotOp v.word = 2)) = some v → slotOp v.word = op →
      bits v.word 63 47 = fx.oper → matmulCycles v.word ≤ 8192 → (i.bed k).microIn m = true →
      ∃ (t : State) (x : Item), exec (if op = 1 then .matmul n k fx else .matmulAcc n k fx) s = .next t ∧ itemOf t n = some x ∧
        (x.bed k).slots = (i.bed k).slots.erase v ∧ t.freeCtr = s.freeCtr + fx.words ∧ ∃ o, (x.bed k).runner =
          ((i.bed k).runner.filter fun o => decide (s.core.t < o.end_)) ++ [o] ∧
          o.end_ = o.start + cyclesNs s (matmulCycles v.word)) ∧
    (∀ (s : State) (n k : Nat) (slot : RunSlot) (bus : Bus) (bin : BinReply) (x : Issue) (segs : List Seg) (i : Item) (m : Image),
      itemOf s n = some i → imageOf s i.image = some m → i.state = .running → dmaStart s i m k = some (slot, x) → x.tmpl.op = 1 →
      (x.bound = .mem segs ∨ x.bound = .arena segs ∨ ∃ h data, x.bound = .bin h ∧ isGranary s = false ∧ bin = .ok data) →
      ∃ (t : State) (y : Item), exec (.dmaRead n k bus bin) s = .next t ∧ itemOf t n = some y ∧
        (y.bed k).slots = (i.bed k).slots.erase slot ∧ y.dmas = i.dmas ++ [{ stone := k, op := 1 }] ∧ t.mem.cells = s.mem.cells) ∧
    (∀ (s : State) (n k t w : Nat) (slot : RunSlot) (bin : BinReply) (x : Issue) (segs : List Seg) (i : Item) (m : Image) (recs : List HeldWrite),
      itemOf s n = some i → imageOf s i.image = some m → i.state = .running → dmaStart s i m k = some (slot, x) → x.tmpl.op = 2 →
      x.bound = .mem segs → i.owner = .sail t w → (sailOf s t w).state ≠ .set →
      recs = ((writeRows (i.stone k) x s).1.flatMap fun r =>
        recordsOf (fun o n => .mem (subSegs segs (r.1 + o) n)) r.2) → heldBytes (sailOf s t w).writes + heldBytes recs ≤ 262144 →
      (sailOf s t w).writes.length + recs.length ≤ 1024 → s.trn.turns.has t = true →
      ∃ u : State, exec (.dmaWrite n k bin) s = .next u ∧ (sailOf u t w).writes = (sailOf s t w).writes ++ recs ∧ u.mem = s.mem) ∧
    (∀ (s : State) (n k t w : Nat) (slot : RunSlot) (last : Bool) (x : Issue) (data : List PByte) (i : Item) (m : Image)
      (r : Race),
      itemOf s n = some i → imageOf s i.image = some m → i.state = .running → dmaStart s i m k = some (slot, x) → x.tmpl.op = 3 →
      i.owner = .sail t w → data = (readScratch (i.stone k) x.tmpl.scratch x.tmpl.len s).1 → (∀ b ∈ data, b.2 = false) →
      raceOf s (turnOf s t).race = some r → frameFits r x.tmpl.len last = true →
      (sailOf s t w).audio.length < 512 → heldSmp (sailOf s t w).audio + x.tmpl.len / 2 ≤ 96000 → s.trn.turns.has t = true →
      ∃ u : State, exec (.dmaTailFrame n k last) s = .next u ∧
        (sailOf u t w).audio = (sailOf s t w).audio ++ [{ nsmp := x.tmpl.len / 2, data := data.map (·.1), last }]) ∧
    (∀ (s : State) (n k t : Nat) (slot : RunSlot) (x : Issue) (l : List Byte) (i : Item) (m : Image) (r : Race), itemOf s n = some i →
      imageOf s i.image = some m → i.state = .running → dmaStart s i m k = some (slot, x) → x.tmpl.op = 4 → i.turn? = some t →
      (readScratch (i.stone k) x.tmpl.scratch 16 s).1 = l.map (fun b => (b, false)) → raceOf s (turnOf s t).race = some r →
      ∃ u : State, exec (.dmaVoiced n k) s = .next u ∧ raceOf u (turnOf s t).race = some { r with
        v := min (num l 0 8 % 2 ^ 48) r.h, voiced := bit (num l 8 1) 0, gap := 0 }) ∧
    (∀ (s : State) (n k : Nat) (i : Item) (d : Dma), itemOf s n = some i → i.dmas = [d] → d.stone = k →
      s.tly.tokens = [] → (∀ v ∈ (i.bed k).slots, slotOp v.word ≠ 3) →
      ∃ (t : State) (x : Item), exec (.dmaDescriptorDone n k) s = .next t ∧ itemOf t n = some x ∧ x.dmas = [] ∧
        x.bed k = { i.bed k with waitDma := false } ∧ t = { s with trn := t.trn })

/-- The mesh, boundaries, yields, the ends of stages and of faulted gangs (R158, R161 to R167). Clauses here rest on the model's
own choices, log entries 44, 47, 106, 107, 118. -/
def Obligations.GangsAdvance : Prop :=
  (∀ (s : State) (n k : Nat) (sp : Spur) (i : Item) (m : Image) (links : List (Nat × Nat)), itemOf s n = some i →
      imageOf s i.image = some m → i.issues m s.core.t = true → sp.site = i.site → sp.cycle ≤ i.adv → i.adv ≤ sp.cycle + 1 →
      sp.dest < 16 * i.floors → k < 16 * i.floors → (i.bed k).spurIn m k = true →
      links = ((routeOf k sp.dest sp.yx).zipIdx.map fun e => (e.1, sp.cycle + e.2)) →
      (∀ fl ∈ i.flights, ∀ a ∈ links, linkClash a sp.beats fl = false) →
      ∃ (t : State) (x : Item), exec (.spurSend n k sp) s = .next t ∧ itemOf t n = some x ∧ x.flights = i.flights ++
        [{ links, beats := sp.beats, src := k, dest := sp.dest, first := sp.cycle + links.length
           data := (readScratch (i.stone k) (64 * sp.src) (512 * sp.beats) s).1 }] ∧ t.mem = s.mem) ∧
    (∀ (s : State) (n k : Nat) (sp : Spur) (i : Item) (m : Image), itemOf s n = some i → imageOf s i.image = some m →
      i.issues m s.core.t = true → sp.site = i.site → sp.cycle ≤ i.adv → i.adv ≤ sp.cycle + 1 → 16 * i.floors ≤ sp.dest →
      exec (.spurSend n k sp) s = .next (gangFault n 5 k s)) ∧
    (∀ (s : State) (n site : Nat) (i : Item) (m : Image), itemOf s n = some i → imageOf s i.image = some m → i.state = .running →
      activeStones m ≠ [] → (∀ k ∈ activeStones m, (i.bed k).atSite = some site) → (∀ fl ∈ i.flights, fl.beats ≤ fl.landed) →
      i.yieldAt = none →
      ∃ t, exec (.gristBoundary n site) s = .next t ∧ itemOf t n = some { i with
        beds := i.beds.mapVal fun _ b => { b with atSite := none }, site, adv := 0, flights := [], resumed := false } ∧
        t = { s with trn := t.trn }) ∧
    (∀ (s : State) (n site y : Nat) (i : Item) (m : Image), itemOf s n = some i → imageOf s i.image = some m → i.state = .running →
      activeStones m ≠ [] → (∀ k ∈ activeStones m, (i.bed k).atSite = some site) → (∀ fl ∈ i.flights, fl.beats ≤ fl.landed) →
      i.yieldAt = some y → (∀ b ∈ i.beds, b.2.atSite = none ∨ y < b.2.atSince) → i.preempt = false →
      ∃ (t : State) (x : Item), exec (.gristBoundary n site) s = .next t ∧ itemOf t n = some x ∧ x.state = .yielding ∧
        x.site = site ∧ x.saved.map (·.beds) = some x.beds) ∧
    (∀ (s : State) (n : Nat) (i : Item), itemOf s n = some i → i.state = .yielding →
      ∃ (t : State) (x : Item), exec (.yieldSaveDone n) s = .next t ∧ itemOf t n = some x ∧ x = { i with
        state := .ready, yieldAt := none, preempt := false, yieldFor := none, beds := [], dmas := [] } ∧ ∀ k, k < i.floors → ∀ c, c < 16 →
          (ocpInst t (16 * (i.base + k) + c)).words = []) ∧
    (∀ (s : State) (n : Nat) (i : Item), itemOf s n = some i → i.state = .running → 16384 ≤ i.adv →
      exec (.gristOverdue n) s = .next (gangFault n 2 0 s)) ∧
    (∀ (s : State) (n t : Nat) (i : Item) (m : Image), itemOf s n = some i → imageOf s i.image = some m → i.state = .running →
      activeStones m ≠ [] → (∀ k ∈ activeStones m, (i.bed k).halted = true) → i.owner = .turn t →
      ∃ u, exec (.stageHalt n) s = .next u ∧ itemOf u n = none ∧ (∀ q, q ≠ n → itemOf u q = itemOf s q)) ∧
    (∀ (s : State) (n t k : Nat) (i : Item) (m : Image), itemOf s n = some i → imageOf s i.image = some m → i.state = .running →
      activeStones m ≠ [] → (∀ k ∈ activeStones m, (i.bed k).halted = true) → i.owner = .sail t k → s.trn.turns.has t = true →
      (sailOf s t k).state ≠ .set → hasNext s i = false →
      ∃ u, exec (.stageHalt n) s = .next u ∧ itemOf u n = none ∧ (sailOf u t k).done = true ∧
        (sailOf u t k).stage = i.stage + 1) ∧
    (∀ (s : State) (n t k : Nat) (i : Item), itemOf s n = some i → i.state = .faulted → i.runnersAt s.core.t = 0 → i.owner = .sail t k →
      ∃ u, exec (.gangFaultDrainEnd n) s = .next u ∧ itemOf u n = none ∧ (∀ q, q ≠ n → itemOf u q = itemOf s q) ∧
        u.trn.saveUsed = s.trn.saveUsed - i.saveBytes) ∧
    (∀ (s : State) (n code k : Nat) (i : Item) (m : Image), itemOf s n = some i → i.state = .running → imageOf s i.image = some m →
      ∃ j, itemOf (gangFault n code k s) n = some j ∧ j.state = .faulted ∧ imageOf (gangFault n code k s) i.image =
          some { m with faults := m.faults + 1, lastFault := code } ∧
        (gangFault n code k s).stn.faultCount = sat 0xFFFF (s.stn.faultCount + 1))

/-- A read of a VALID word is classed by its syndrome, the data returned is as the class says, and one address bit wrong is
never taken for a single-bit error (R217). -/
def Obligations.CodeCorrects : Prop :=
  (∀ n, classOf n = .clean ↔ n = 0) ∧ (∀ i, i < 64 → classOf (ocpCol i) = .ceData i) ∧ (∀ j, j < 8 → classOf (2 ^ j) = .ceCheck j) ∧
    (∀ k, k ≤ 20 → classOf (ocpF k) = .ueAddress) ∧
    (∀ n, n ≠ 0 → (∀ i, i < 64 → n ≠ ocpCol i) → (∀ j, j < 8 → n ≠ 2 ^ j) → (∀ k, k ≤ 20 → n ≠ ocpF k) → classOf n = .ueMulti) ∧
    (OClass.clean.code = 0 ∧ (∀ i, (OClass.ceData i).code = 1) ∧ (∀ j, (OClass.ceCheck j).code = 2) ∧ OClass.ueAddress.code = 3 ∧
      OClass.ueMulti.code = 4) ∧
    (∀ (w : OWord) (a : Nat), w.bad = false → w.classAt a = (classOf (w.check ^^^ ocpCheck w.data a), w.check ^^^ ocpCheck w.data a)) ∧
    (∀ (s : State) (i word cons : Nat) (w : OWord), (ocpInst s i).words.get word = some w → w.bad = false →
      (∀ m ∈ (ocpGroup s i (groupOf i word)).merge, m.word ≠ word) →
      ((w.classAt word).1 = .clean → (readWord i word cons s).1 = (w.data, false)) ∧
      (∀ b, (w.classAt word).1 = .ceData b → (readWord i word cons s).1 = (w.data ^^^ 2 ^ b, false)) ∧
      (∀ j, (w.classAt word).1 = .ceCheck j → (readWord i word cons s).1 = (w.data, false)) ∧
      ((w.classAt word).1 = .ueAddress ∨ (w.classAt word).1 = .ueMulti → (readWord i word cons s).1.2 = true)) ∧
    (∀ d a a' : Nat, ((OWord.mk d (ocpCheck d a) false).classAt a').2 = ocpFold a ^^^ ocpFold a') ∧
    (∀ d a k : Nat, k ≤ 20 → (OWord.mk d (ocpCheck d a) false).classAt (a ^^^ 2 ^ k) = (.ueAddress, ocpF k) ∧ weight8 (ocpF k) % 2 = 0) ∧
    (∀ d a i j : Nat, i < j → j < 64 → (∃ k, k ≤ 20 ∧ ocpCol i ^^^ ocpCol j = ocpF k) →
      ((OWord.mk (d ^^^ 2 ^ i ^^^ 2 ^ j) (ocpCheck d a) false).classAt a).1 = .ueAddress)

/-- Words are written whole, entered into merge buffers and flushed; hard words move to spares, scrubbers visit and correct,
laps are limited (R216, R223 to R226, R228 to R233). Clauses here rest on the model's own choices, log entries 28, 29. -/
def Obligations.WordsAndSpares : Prop :=
  (∀ (s : State) (i word data : Nat), wordExists s i word = true → injection s i word = none →
      ∃ t, exec (.fullWordWrite i word data) s = .next t ∧
        (ocpInst t i).words.get word = some ⟨data % 2 ^ 64, ocpCheck (data % 2 ^ 64) word, false⟩ ∧
        (∀ w, w ≠ word → (ocpInst t i).words.get w = (ocpInst s i).words.get w) ∧ (∀ k, k ≠ i → ocpInst t k = ocpInst s k) ∧
        (∀ m ∈ (ocpGroup t i (groupOf i word)).merge, m.word ≠ word) ∧ t = { s with ocp := t.ocp }) ∧
    (∀ (s : State) (i word data dx cx : Nat), wordExists s i word = true → injection s i word = some (dx, cx) →
      ∃ t, exec (.fullWordWrite i word data) s = .next t ∧
        (ocpInst t i).words.get word = some ⟨data % 2 ^ 64 ^^^ dx, ocpCheck (data % 2 ^ 64) word ^^^ cx, false⟩ ∧
        bit t.ocp.inject 16 = false ∧ t = { s with ocp := t.ocp }) ∧
    (∀ (s : State) (i word en data : Nat) (who : Option CmdId), wordExists s i word = true → en % 256 ≠ 0 → en % 256 ≠ 255 →
      (ocpGroup s i (groupOf i word)).merge.length < 8 → (∀ m ∈ (ocpGroup s i (groupOf i word)).merge, m.word ≠ word) →
      ∃ t, exec (.partialWrite i word ⟨en, data⟩ who) s = .next t ∧ (ocpGroup t i (groupOf i word)).merge =
          (ocpGroup s i (groupOf i word)).merge ++ [{ word, mask := en % 256, data := mergeBytes (en % 256) data 0, since := s.core.t, writers := who.toList }] ∧
        (ocpInst t i).words = (ocpInst s i).words ∧ t = { s with ocp := t.ocp }) ∧
    (∀ (s : State) (i word en data : Nat) (who : Option CmdId) (m : Merge), wordExists s i word = true → en % 256 ≠ 0 →
      (ocpGroup s i (groupOf i word)).merge = [m] → m.word = word → m.mask ||| en % 256 = 255 → injection s i word = none →
      ∃ t, exec (.partialWrite i word ⟨en, data⟩ who) s = .next t ∧ (ocpGroup t i (groupOf i word)).merge = [] ∧ ∃ d,
        d = mergeBytes (en % 256) data m.data % 2 ^ 64 ∧ (ocpInst t i).words.get word = some ⟨d, ocpCheck d word, false⟩) ∧
    (∀ (s : State) (i g : Nat) (m : Merge) (r : List Merge) (w : OWord), (ocpGroup s i g).merge = m :: r → m.mask ≠ 255 →
      (ocpInst s i).words.get m.word = some w → w.classAt m.word = (.clean, 0) → injection s i m.word = none →
      ∃ (t : State) (d : Nat), exec (.mergeIdleFlush i g) s = .next t ∧ (ocpGroup t i g).merge = r ∧
        d = mergeBytes m.mask m.data w.data % 2 ^ 64 ∧ (ocpInst t i).words.get m.word = some ⟨d, ocpCheck d m.word, false⟩ ∧
        (m.since + mergeAge s i ≤ s.core.t → exec (.mergeAgeFlush i g) s = .next t)) ∧
    (∀ (s : State) (val : Nat), exec (.ocpInjectArm 0 val) s = .next { s with ocp := { s.ocp with inject := val % 2 ^ 17 } }) ∧
    (∀ (s : State) (i g word : Nat) (x : OGroup) (rest : List Nat), x = ocpGroup s i g → x.hard = word :: rest → x.spares < 32 →
      ∃ t, exec (.spareRemap i g) s = .next t ∧ Told { s with ocp := t.ocp } t ∧ ocpGroup t i g = { x with
        hard := rest, spares := x.spares + 1, moved := x.moved.filter (· ≠ word) ++ [word] }) ∧
    (∀ (s : State) (i g word : Nat) (x : OGroup) (rest : List Nat), x = ocpGroup s i g → x.hard = word :: rest → 32 ≤ x.spares → x.full = false →
      ∃ t, exec (.spareRemap i g) s = .next t ∧ Told { s with ocp := t.ocp } t ∧ ocpGroup t i g = { x with
        hard := rest, full := true, degraded := true, reason := 2 } ∧ bit t.ocp.alarm 5 = true ∧ bit t.ocp.alarm 6 = true) ∧
    (∀ (s : State) (i g : Nat) (d c : List (Nat × Nat)) (o : List Nat), i ≤ 259 → g < groupCount i → clocked s i = true →
      ∃ t, exec (.scrubVisit i g d c o) s = .next t ∧ t.mem = s.mem ∧ t.brk = s.brk ∧ (ocpGroup t i g).pos =
        if (ocpGroup s i g).pos + 1 = groupWords i then 0 else (ocpGroup s i g).pos + 1) ∧
    (∀ (s : State) (i g k word : Nat) (w : OWord), i ≤ 259 → g < groupCount i → clocked s i = true → k < 64 →
      word = g * groupWords i + (ocpGroup s i g).pos → groupOf i word = g → (ocpGroup s i g).merge = [] →
      (ocpInst s i).words.get word = some w → w.bad = false → w.data < 2 ^ 64 → word < 2 ^ 21 → w.check = ocpCheck w.data word →
      injection s i word = none → word ∉ (ocpInst s i).odd →
      ∃ t, exec (.scrubVisit i g [(word, 2 ^ k)] [] []) s = .next t ∧ (ocpInst t i).words.get word = some w ∧
        (ocpInst t i).ce = sat 0xFFFF ((ocpInst s i).ce + 1)) ∧
    (∀ (s : State) (i : Nat), i ≤ 259 → clocked s i = true → (ocpInst s i).slow = false →
      (ocpInst s i).lapAt + scrubLimit s i < clockedTime s i →
      ∃ t, exec (.scrubLapLimitExpiry i) s = .next t ∧ Told { s with ocp := t.ocp } t ∧
        ocpInst t i = { ocpInst s i with slow := true } ∧ t.ocp.alarm = s.ocp.alarm ||| 2 ^ instClass i) ∧
    (∀ (s : State) (i g val : Nat), i = s.ocp.remapInst → g = bits val 25 21 → bit val 31 = true → s.mwr.running = true → i ≤ 259 →
      g < groupCount i → (ocpGroup s i g).spares < 32 →
      ∃ t, exec (.ocpRemapLoad val) s = .next t ∧ (ocpGroup t i g).spares = (ocpGroup s i g).spares + 1 ∧
        (ocpInst t i).words.get (bits val 20 0) = none ∧ bits val 20 0 ∈ (ocpGroup t i g).moved ∧ t = { s with ocp := t.ocp })

/-- RDMA objects are created and destroyed (R267, R269, R274, R276, R277, R281, R282). Clauses here rest on the model's own
choices, log entries 36, 88, 110. -/
def Obligations.RdmaObjects : Prop :=
  (∀ (s : State) (id : CmdId) (c : Cmd) (use : Bool) (asid sk rk : Nat) (h : Held) (rring : Option Held), Runs s .qpCreate id c →
      s.rdm.qps.length < 16384 → c.context ≤ 16383 → s.rdm.qps.has c.context = false → fld c.pkt 2 1 0 ≠ 3 → use = fbit c.pkt 2 5 → fld c.pkt 2 15 6 = 0 → asid = fld c.pkt 2 25 16 →
      ownsAsid s c.fn asid = true → fld c.pkt 2 31 26 = 0 → cqForeign s c.fn (fld c.pkt 3 12 0) = false →
      cqForeign s c.fn (fld c.pkt 3 28 16) = false → fld c.pkt 3 15 13 = 0 → fld c.pkt 3 31 29 = 0 →
      (if use then ∃ x, s.rdm.srqs.get (fld c.pkt 4 8 0) = some x ∧ x.fn = c.fn else dw c.pkt 4 = 0) → fld c.pkt 4 31 9 = 0 →
      sk = fld c.pkt 5 3 0 → rk = fld c.pkt 5 7 4 → 4 ≤ sk → (if use then rk = 0 else 4 ≤ rk) → fld c.pkt 5 31 8 = 0 →
      qw c.pkt 6 < 2 ^ 57 → qw c.pkt 6 % 4096 = 0 → qw c.pkt 8 < 2 ^ 57 → (use = false → qw c.pkt 8 % 4096 = 0) →
      qpsOf s c.fn < (if c.fn = 0 then 16384 else feature s 0x04 c.fn 0) → translate s {} asid (qw c.pkt 6) (64 * 2 ^ sk) = .ok h →
      (if use then rring = none else ∃ r, rring = some r ∧ translate s {} asid (qw c.pkt 8) (64 * 2 ^ rk) = .ok r) →
      Completes (exec (.qpCreate id) s) c .success 0 0 fun u => u.rdm.qps = s.rdm.qps.set c.context {
          fn := c.fn, mode := fld c.pkt 2 1 0, port := fld c.pkt 2 4 2, asid, sendCq := fld c.pkt 3 12 0, recvCq := fld c.pkt 3 28 16
          srq := if use then some (fld c.pkt 4 8 0) else none, sk, rk, sring := h, rring } ∧ u.mem.cells = s.mem.cells) ∧
    (∀ (s : State) (id : CmdId) (c : Cmd) (q : Qp), Runs s .qpDestroy id c → qpOf s c.context = some q → q.fn = c.fn → q.move = none →
      Completes (exec (.qpDestroy id) s) c .success 0 0 fun u => u.rdm = { s.rdm with qps := s.rdm.qps.erase c.context }) ∧
    (∀ (s : State) (id : CmdId) (c : Cmd) (h : Held), Runs s .srqCreate id c → s.rdm.srqs.has c.context = false →
      s.rdm.srqs.length < 512 → c.context ≤ 511 →
      qw c.pkt 2 < 2 ^ 57 → qw c.pkt 2 % 4096 = 0 → 4 ≤ fld c.pkt 4 3 0 → fld c.pkt 4 15 4 = 0 →
      ownsAsid s c.fn (fld c.pkt 4 25 16) = true → fld c.pkt 4 31 26 = 0 → cqForeign s c.fn (fld c.pkt 5 12 0) = false →
      fld c.pkt 5 31 13 = 0 → fld c.pkt 6 31 16 = 0 →
      translate s {} (fld c.pkt 4 25 16) (qw c.pkt 2) (64 * 2 ^ fld c.pkt 4 3 0) = .ok h →
      Completes (exec (.srqCreate id) s) c .success 0 0 fun u => u.rdm = { s.rdm with srqs := s.rdm.srqs.set c.context {
        fn := c.fn, k := fld c.pkt 4 3 0, ring := h, asid := fld c.pkt 4 25 16, cq := fld c.pkt 5 12 0, limit := fld c.pkt 6 15 0 } }) ∧
    (∀ (s : State) (id : CmdId) (c : Cmd) (x : Srq), Runs s .srqCreate id c → s.rdm.srqs.get c.context = some x →
      fld c.pkt 4 3 0 = 0 → x.fn = c.fn → fld c.pkt 6 31 16 = 0 →
      Completes (exec (.srqSetLimit id) s) c .success 0 0 fun u =>
        u = { s with rdm := { s.rdm with srqs := s.rdm.srqs.set c.context { x with limit := fld c.pkt 6 15 0 } } }) ∧
    (∀ (s : State) (id : CmdId) (c : Cmd) (h : Held), Runs s .cqCreate id c → s.rdm.cqs.has c.context = false →
      s.rdm.cqs.length < 8192 → c.context ≤ 8191 → (c.fn ≠ 0 → fld c.pkt 5 5 0 ≤ 7) →
      qw c.pkt 2 < 2 ^ 57 → qw c.pkt 2 % 4096 = 0 → 4 ≤ fld c.pkt 4 3 0 → fld c.pkt 4 15 4 = 0 →
      ownsAsid s c.fn (fld c.pkt 4 25 16) = true → fld c.pkt 4 31 26 = 0 → fld c.pkt 5 7 6 = 0 → fld c.pkt 5 31 9 = 0 →
      (fbit c.pkt 5 8 = true → ∀ x ∈ s.rdm.cqs, x.2.eventq = true → x.2.fn ≠ c.fn) →
      translate s { write := true } (fld c.pkt 4 25 16) (qw c.pkt 2) (32 * 2 ^ fld c.pkt 4 3 0) = .ok h →
      Completes (exec (.cqCreate id) s) c .success 0 0 fun u => u.rdm = { s.rdm with cqs := s.rdm.cqs.set c.context {
        fn := c.fn, k := fld c.pkt 4 3 0, ring := h, vector := fld c.pkt 5 5 0, eventq := fbit c.pkt 5 8 } }) ∧
    (∀ (s : State) (id : CmdId) (c : Cmd) (x : RCq), Runs s .cqCreate id c → s.rdm.cqs.get c.context = some x → fld c.pkt 4 3 0 = 0 →
      x.fn = c.fn → qpsOnCq s c.context = [] → (∀ q ∈ s.rdm.srqs, q.2.cq ≠ c.context) →
      Completes (exec (.cqDestroy id) s) c .success 0 0 fun u => u = { s with rdm := { s.rdm with cqs := s.rdm.cqs.erase c.context } }) ∧
    (∀ (s : State) (id : CmdId) (c : Cmd), Runs s .mrRegister id c → s.rdm.keys.has c.context = false → qw c.pkt 2 < 2 ^ 57 →
      s.rdm.keys.length < 65536 → c.context ≤ 65535 →
      bits (qw c.pkt 4) 39 0 ≠ 0 → fld c.pkt 5 31 8 = 0 → fld c.pkt 6 7 2 = 0 → fld c.pkt 6 31 16 = 0 →
      ownsAsid s c.fn (fld c.pkt 7 9 0) = true → fld c.pkt 7 31 10 = 0 →
      Completes (exec (.mrRegister id) s) c .success (c.context * 2 ^ 8 + fld c.pkt 6 15 8) 0 fun u =>
        u = { s with rdm := { s.rdm with keys := s.rdm.keys.set c.context {
          fn := c.fn, va := qw c.pkt 2, len := qw c.pkt 4, rd := fbit c.pkt 6 0, wr := fbit c.pkt 6 1, tag := fld c.pkt 6 15 8
          asid := fld c.pkt 7 9 0 } } }) ∧
    (∀ (s : State) (id : CmdId) (c : Cmd) (k : MemKey), Runs s .mrRegister id c → s.rdm.keys.get c.context = some k →
      bits (qw c.pkt 4) 39 0 = 0 → k.fn = c.fn →
      Completes (exec (.mrDeregister id) s) c .success 0 0 fun u =>
        u = { s with rdm := { s.rdm with keys := s.rdm.keys.erase c.context } }) ∧
    (∀ (s : State) (id : CmdId) (bus : Bus) (c : Cmd) (n : Nat) (h : Held) (l : List (Nat × Nat)) (d : List PByte × State),
      Runs s .windowBind id c → isGranary s = true → s.rdm.windows.length < 4096 → c.context ≤ 4095 → s.rdm.windows.get c.context = none → n = fld c.pkt 2 15 0 → 1 ≤ n → n ≤ 32768 → fld c.pkt 2 31 24 = 0 →
      qw c.pkt 3 < 2 ^ 57 → ownsAsid s c.fn (fld c.pkt 5 9 0) = true → fld c.pkt 5 31 10 = 0 →
      (fbit c.pkt 6 8 = true → fld c.pkt 6 7 0 = 0) → fld c.pkt 6 31 9 = 0 → n + windowUsed s ≤ windowStore →
      translate s {} (fld c.pkt 5 9 0) (qw c.pkt 3) (16 * n) = .ok h → d = readRuns bus h.segs (noteWalks h s) →
      anyPoison d.1 = false → l = windowEntries (d.1.map (·.1)) n →
      (∀ e ∈ l, e.2 % 2 ^ 21 = 0 ∧ handleGranary e.1 = ownMember s) →
      Completes (exec (.windowBind id bus) s) c .success (2 ^ 31 + c.context * 2 ^ 8 + fld c.pkt 2 23 16) 0 fun u =>
        u.rdm = { s.rdm with windows := s.rdm.windows.set c.context {
          fn := c.fn, tag := fld c.pkt 2 23 16, entries := l, member := if fbit c.pkt 6 8 then none else some (fld c.pkt 6 7 0) } }) ∧
    (∀ (s : State) (id : CmdId) (c : Cmd) (w : Window), Runs s .windowBind id c → isGranary s = true →
      s.rdm.windows.get c.context = some w → w.fn = c.fn → fld c.pkt 2 15 0 = 0 →
      Completes (exec (.windowUnbind id) s) c .success (2 ^ 31 + c.context * 2 ^ 8 + fld c.pkt 2 23 16) 0 fun u =>
        u = { s with rdm := { s.rdm with windows := s.rdm.windows.erase c.context } })

/-- The states of a queue pair (R283 to R285). Clauses here rest on the model's own choices, log entries 36, 110. -/
def Obligations.QpStates : Prop :=
  (∀ (s : State) (id : CmdId) (c : Cmd) (q : Qp), Runs s .qpModify id c → qpOf s c.context = some q → q.fn = c.fn →
      fld c.pkt 2 2 0 = 0 → fbit c.pkt 2 7 = false → fld c.pkt 2 31 16 = 0 → q.state = .error →
      Completes (exec (.qpModifyReset id) s) c .success 0 0 fun u => ∃ p, qpOf u c.context = some p ∧ p.state = .reset ∧ p.sent = [] ∧
        p.posted = [] ∧ p.recvs = [] ∧ p.sprod = 0 ∧ p.scons = 0 ∧ p.fn = q.fn ∧ p.sring = q.sring ∧ (∀ k, k ≠ c.context → qpOf u k = qpOf s k)) ∧
    (∀ (s : State) (id : CmdId) (c : Cmd) (q : Qp), Runs s .qpModify id c → qpOf s c.context = some q → q.fn = c.fn →
      fld c.pkt 2 2 0 = 1 → fbit c.pkt 2 7 = false → fld c.pkt 2 31 16 = 0 → q.state = .reset →
      Completes (exec (.qpModifyInit id) s) c .success 0 0 fun u => qpOf u c.context = some { q with state := .init } ∧
        (∀ k, k ≠ c.context → qpOf u k = qpOf s k) ∧ u = { s with rdm := { s.rdm with qps := u.rdm.qps } }) ∧
    (∀ (s : State) (id : CmdId) (c : Cmd) (q : Qp) (m n : Nat), Runs s .qpModify id c → qpOf s c.context = some q → q.fn = c.fn →
      fld c.pkt 2 2 0 = 2 → fbit c.pkt 2 7 = false → fld c.pkt 2 31 16 = 0 → q.state = .init → m = fld c.pkt 2 15 8 →
      ((port s q.port).mode = .flume → (port s q.port).flm.valid = true → (port s q.port).flm.peer = m) →
      (q.mode = 1 → ∃ x, s.dom.members.get m = some x ∧ x.role = 2) → fld c.pkt 3 31 24 = 0 → fld c.pkt 4 31 24 = 0 →
      n = fld c.pkt 6 25 21 → 1 ≤ n → n ≤ 16 → fld c.pkt 6 31 26 = 0 →
      Completes (exec (.qpModifyRtr id) s) c .success 0 0 fun u => qpOf u c.context = some { q with
        state := .rtr, member := m, rqpn := fld c.pkt 3 23 0, rqPsn := fld c.pkt 4 23 0, minRnr := fld c.pkt 6 15 11, maxRdDest := n
        gid := if (port s q.port).mode = .ethernet then gidOf c.pkt else 0
        tclass := if (port s q.port).mode = .ethernet then fld c.pkt 11 7 0 else 0 }) ∧
    (∀ (s : State) (id : CmdId) (c : Cmd) (q : Qp) (n r : Nat), Runs s .qpModify id c → qpOf s c.context = some q → q.fn = c.fn →
      fld c.pkt 2 2 0 = 3 → fbit c.pkt 2 3 = false → fbit c.pkt 2 7 = false → fld c.pkt 2 31 16 = 0 → q.state = .rtr →
      fld c.pkt 5 31 24 = 0 → n = fld c.pkt 6 4 0 → 2 ≤ n → n ≤ 20 → r = fld c.pkt 6 20 16 → 1 ≤ r → r ≤ 16 → fld c.pkt 6 31 26 = 0 →
      Completes (exec (.qpModifyRts id) s) c .success 0 0 fun u => qpOf u c.context = some { q with
        state := .rts, sqPsn := fld c.pkt 5 23 0, timeout := n, retryCnt := fld c.pkt 6 7 5, rnrRetry := fld c.pkt 6 10 8, maxRd := r }) ∧
    (∀ (s : State) (id : CmdId) (c : Cmd) (q : Qp), Runs s .qpModify id c → qpOf s c.context = some q → q.fn = c.fn →
      fld c.pkt 2 2 0 = 3 → fbit c.pkt 2 3 = true → fbit c.pkt 2 7 = false → fld c.pkt 2 31 16 = 0 → q.state = .rts → q.sent ≠ [] →
      ∃ t, exec (.qpModifyMove id) s = .next t ∧ qpOf t c.context = some { q with
        state := .drain, move := some ⟨c.id, fld c.pkt 2 6 4, if (port s (fld c.pkt 2 6 4)).mode = .ethernet then gidOf c.pkt else 0, s.core.t⟩ }) ∧
    (∀ (s : State) (q : Nat) (p : Qp) (m : Move) (c : Cmd), qpOf s q = some p → p.state = .drain → p.move = some m → p.sent = [] →
      findCmd s m.id = some c →
      Completes (exec (.qpDrainEnd q) s) c .success ((s.core.t - m.since) / 1000) 0 fun u =>
        qpOf u q = some { p with state := .rts, port := m.port, gid := m.gid, move := none } ∧ ∀ k, k ≠ q → qpOf u k = qpOf s k) ∧
    (∀ (s : State) (id : CmdId) (c : Cmd) (q : Qp), Runs s .qpModify id c → qpOf s c.context = some q → q.fn = c.fn →
      fld c.pkt 2 2 0 = 4 → fbit c.pkt 2 7 = false → fld c.pkt 2 31 16 = 0 → q.state = .rts →
      Completes (exec (.qpModifyDrain id) s) c .success 0 0 fun u => qpOf u c.context = some { q with state := .drain }) ∧
    (∀ (s : State) (id : CmdId) (c : Cmd) (q : Qp), Runs s .qpModify id c → qpOf s c.context = some q → q.fn = c.fn →
      fld c.pkt 2 2 0 = 5 → fbit c.pkt 2 7 = false → fld c.pkt 2 31 16 = 0 → q.state ≠ .reset → q.state ≠ .error →
      Completes (exec (.qpModifyError id) s) c .success 0 0 fun u => ∃ p, qpOf u c.context = some p ∧ p.state = .error ∧ p.sent = [] ∧
        p.posted = [] ∧ p.recvs = [] ∧ p.rposted = [] ∧ p.scons = q.sprod ∧ p.rcons = q.rprod) ∧
    (∀ (s : State) (id : CmdId) (c : Cmd) (q : Qp), Runs s .qpModify id c → qpOf s c.context = some q → q.fn = c.fn →
      fld c.pkt 2 2 0 = 1 → q.state ≠ .reset → fbit c.pkt 2 7 = false → fld c.pkt 2 31 16 = 0 →
      exec (.qpModifyInit id) s = .next (invalid c 8 s))

/-- Doorbells make entries visible, and the engine takes them in order (R270 to R272, R279, R286). Clauses here rest on the
model's own choices, log entries 36, 110, 111. -/
def Obligations.DoorbellsAndRequests : Prop :=
  (∀ (s : State) (fn val q index n : Nat) (bus : Bus) (p : Qp) (d : List (List Byte) × State), s.pwr.state = .run →
      d = ringEntries bus p.sring p.sk p.sprod n s → dbParts val 0 = some (q, index) → qpOf s q = some p →
      p.fn = fn → indexStep p.sprod p.scons p.sk index = some n → p.state ≠ .reset → p.state ≠ .init → p.state ≠ .error →
      ∃ t, exec (.rdmaSqDoorbell fn val bus) s = .next t ∧ qpOf t q = some { p with
          sprod := p.sprod + n, posted := p.posted ++ d.1.map fun e => (s.core.t, e) } ∧
        (∀ k, k ≠ q → qpOf t k = qpOf s k) ∧ t = { d.2 with rdm := { s.rdm with qps := t.rdm.qps } }) ∧
    (∀ (s : State) (fn val : Nat) (bus : Bus), s.pwr.state = .run → dbParts val 0 = none →
      exec (.rdmaSqDoorbell fn val bus) s = .next { s with rdm := { s.rdm with dbRefused := sat 0xFFFFFFFF (s.rdm.dbRefused + 1) } }) ∧
    (∀ (s : State) (fn val q index n : Nat) (bus : Bus) (p : Qp) (ring : Held) (d : List (List Byte) × State), s.pwr.state = .run →
      d = ringEntries bus ring p.rk p.rprod n s → dbParts val 1 = some (q, index) →
      qpOf s q = some p → p.fn = fn → p.rring = some ring → indexStep p.rprod p.rcons p.rk index = some n → p.state ≠ .reset →
      p.state ≠ .error →
      ∃ t, exec (.rdmaRqDoorbell fn val bus) s = .next t ∧ qpOf t q = some { p with
          rprod := p.rprod + n, rposted := p.rposted ++ d.1 } ∧ t = { d.2 with rdm := { s.rdm with qps := t.rdm.qps } }) ∧
    (∀ (s : State) (fn val n index m : Nat) (bus : Bus) (x : Srq) (d : List (List Byte) × State), s.pwr.state = .run →
      d = ringEntries bus x.ring x.k x.prod m s → dbParts val 2 = some (n, index) →
      s.rdm.srqs.get n = some x → x.fn = fn → indexStep x.prod x.cons x.k index = some m →
      exec (.rdmaSrqDoorbell fn val bus) s = .next { d.2 with rdm := { s.rdm with srqs := s.rdm.srqs.set n { x with
        prod := x.prod + m, posted := x.posted ++ d.1 } } }) ∧
    (∀ (s : State) (fn val n index step : Nat) (q : RCq), s.pwr.state = .run → dbParts val 3 = some (n, index) →
      s.rdm.cqs.get n = some q → q.fn = fn → step = (index + 65536 - q.cons % 65536) % 65536 → step ≤ q.prod - q.cons →
      ∃ t, exec (.rdmaCqDoorbell fn val) s = .next t ∧ t.rdm.cqs.get n = some { q with
        cons := q.cons + step, armed := q.armed || bit val 32 } ∧ t = { s with rdm := { s.rdm with cqs := t.rdm.cqs } }) ∧
    (∀ (s : State) (q op rung len va : Nat) (bus : Bus) (p : Qp) (e : List Byte) (r : List (Nat × List Byte)) (h : Held)
      (d : List PByte × State), qpOf s q = some p → p.rnrAt = none → p.posted = (rung, e) :: r → op = num e 0 1 → 1 ≤ op → op ≤ 5 → p.state = .rts → p.sent.length < 256 →
      entryBad e = none → len = num e 24 4 → va = num e 16 8 → (p.mode = 1 → 3 ≤ op →
        handleGranary (num e 32 8) = p.member ∨ s.grn.failover.get (handleGranary (num e 32 8)) = some p.member) →
      (p.mode = 1 → 3 ≤ op → num e 40 4 < 2 ^ 30) →
      quarantined s p.member = false → (op = 5 → p.reads < p.maxRd) → (bit (num e 1 1) 1 = true → p.reads = 0) →
      (if len = 0 then h = { asid := p.asid, va, len := 0, segs := [] }
        else translate s { write := decide (op = 5) } p.asid va len = .ok h) →
      d = (if op = 5 then ([], useRuns h.segs (noteWalks h s)) else readRuns bus h.segs (noteWalks h s)) →
      (p.mode = 0 ∨ op < 3 → firstPoisoned d.1 = none) →
      ∃ (t : State) (w : Wr), exec (match op with
          | 1 => .wrSend q bus | 2 => .wrSendImm q bus | 3 => .wrWrite q bus | 4 => .wrWriteImm q bus | _ => .wrRead q bus) s = .next t ∧
        w.op = op ∧ w.len = len ∧ w.psn = p.sqPsn ∧ w.npsn = w.psns p ∧ w.wrId = entryWrId e ∧ w.remote = num e 32 8 ∧
        w.key = num e 40 4 ∧ w.held = h ∧ w.data = d.1 ∧
        qpOf t q = some { p with
          posted := r, scons := p.scons + 1, sent := p.sent ++ [w], num := p.num + 1, sqPsn := psnAdd p.sqPsn w.npsn
          ackAt := some (p.ackAt.getD s.core.t) } ∧
        t.out = d.2.out ++ (w.packets p).map (fun k => .packet q (pktHdr t q k) k) ∧ t.mem.cells = s.mem.cells) ∧
    (∀ (s : State) (n : Nat) (p : Qp) (e : List Byte) (r : List (List Byte)) (h : Held), qpOf s n = some p → p.rposted = e :: r →
      recvBad e = none → translate s { write := true } p.asid (num e 16 8) (num e 24 4) = .ok h →
      ∃ t, exec (.wrRecv false n) s = .next t ∧ qpOf t n = some { p with
        rposted := r, rcons := p.rcons + 1, recvs := p.recvs ++ [⟨entryWrId e, num e 24 4, h, p.rcons⟩] } ∧ t.mem.cells = s.mem.cells) ∧
    (∀ (s : State) (n : Nat) (x : Srq) (e : List Byte) (r : List (List Byte)) (h : Held), s.rdm.srqs.get n = some x → x.posted = e :: r →
      recvBad e = none → translate s { write := true } x.asid (num e 16 8) (num e 24 4) = .ok h →
      ∃ t, exec (.wrRecv true n) s = .next t ∧ t.rdm.srqs.get n = some { x with
        posted := r, cons := x.cons + 1, recvs := x.recvs ++ [⟨entryWrId e, num e 24 4, h, x.cons⟩] } ∧ t.mem.cells = s.mem.cells)

/-- What arrives for a queue pair, and its timers (R241, R276, R278, R280, R286). Clauses here rest on the model's own choices,
log entries 34, 36, 63, 108, 110, 111. -/
def Obligations.RdmaArrivals : Prop :=
  (∀ (s : State) (r : RoceIn) (data : List Byte) (p : Qp) (w : RecvWr) (rest : List RecvWr) (a n f : Nat), s.pwr.state = .run →
      (port s r.port).state = .up → ((port s r.port).mode = .ethernet → r.icrc = true ∧ r.rc = true) → portServes s p r.port = true →
      e2eBad s r.port r.icrc = false → (∀ x ∈ rest, x.num ≠ w.num) → qpOf s r.qpn = some p →
      p.receives = true → r.ce = false → r.known = true → r.send = some data → psnAdd r.psn (2 ^ 24 + 1 - r.npsn) = p.rqPsn →
      p.srq = none → p.recvs = w :: rest → data.length ≤ w.len → w.held.segs = [{ target := .hbm, addr := a, len := n, fn := f }] →
      data.length ≤ n →
      ∃ u, exec (.rocePacketReceive r) s = .next (wcOut p.recvCq r.qpn
          { wrId := w.wrId, len := data.length, imm := r.imm, op := 0, status := .success, recv := true } u) ∧
        u.mem.cells = writeCells s.mem.cells a data ∧ u.out = s.out ++ [.packet r.qpn (pktHdr s r.qpn (.ack r.psn)) (.ack r.psn)] ∧ qpOf u r.qpn = some { p with
          recvs := rest, rqPsn := psnAdd r.psn 1, msn := (p.msn + 1) % 2 ^ 24 }) ∧
    (∀ (s : State) (r : RoceIn), s.pwr.state = .run → (port s r.port).state = .up → (port s r.port).mode = .ethernet → r.icrc = false →
      exec (.rocePacketReceive r) s = .next (modPort r.port (fun p => { p with drops := sat 0xFFFFFFFF (p.drops + 1) })
        { s with rdm := { s.rdm with icrcErr := sat 0xFFFFFFFF (s.rdm.icrcErr + 1) } })) ∧
    (∀ (s : State) (r : RoceIn) (p : Qp), s.pwr.state = .run → (port s r.port).state = .up →
      ((port s r.port).mode = .ethernet → r.icrc = true ∧ r.rc = true) → qpOf s r.qpn = some p →
      (p.receives = false ∨ portServes s p r.port = false) →
      exec (.rocePacketReceive r) s = .next (modPort r.port (fun p => { p with drops := sat 0xFFFFFFFF (p.drops + 1) }) s)) ∧
    (∀ (s : State) (pt q psn va key len : Nat) (check : Bool) (data : List Byte) (bus : Bus) (p : Qp) (k : MemKey) (h : Held)
      (d : List PByte × State), s.pwr.state = .run →
      qpOf s q = some p → p.receives = true → p.mode = 0 → portServes s p pt = true → e2eBad s pt check = false → psn = p.rqPsn →
      keyOk s false va key len = some k → translate s {} k.asid va len = .ok h →
      packetsMapped s false k.asid va len = packetsOf len →
      d = readRuns bus h.segs (noteServed q psn (packetsOf len) va (noteWalks h s)) → firstPoisoned d.1 = none →
      ∃ t, exec (.inboundKeyRequest ⟨pt, q, check⟩ psn false va key len data none bus) s = .next t ∧ t.mem.cells = s.mem.cells ∧
        t.out = d.2.out ++ [.packet q (pktHdr s q (.response (psnAdd psn (packetsOf d.1.length - 1)) (d.1.map (·.1))))
          (.response (psnAdd psn (packetsOf d.1.length - 1)) (d.1.map (·.1)))] ∧
        qpOf t q = some { p with
          rqPsn := psnAdd psn (packetsOf len), msn := (p.msn + 1) % 2 ^ 24
          served := ((psn, packetsOf len, va) :: p.served).take 16 }) ∧
    (∀ (s : State) (pt q psn va key len a n f : Nat) (check : Bool) (data : List Byte) (bus : Bus) (p : Qp) (k : MemKey) (h : Held),
      s.pwr.state = .run → qpOf s q = some p → p.receives = true → p.mode = 0 → portServes s p pt = true → e2eBad s pt check = false →
      psn = p.rqPsn → keyOk s true va key data.length = some k →
      translate s { write := true } k.asid va data.length = .ok h →
      packetsMapped s true k.asid va data.length = packetsOf data.length →
      h.segs = [{ target := .hbm, addr := a, len := n, fn := f }] → data.length ≤ n →
      ∃ t, exec (.inboundKeyRequest ⟨pt, q, check⟩ psn true va key len data none bus) s = .next t ∧
        t.mem.cells = writeCells s.mem.cells a data ∧
        t.out = s.out ++ [.packet q (pktHdr s q (.ack (psnAdd psn (packetsOf data.length - 1))))
          (.ack (psnAdd psn (packetsOf data.length - 1)))] ∧
        qpOf t q = some { p with rqPsn := psnAdd psn (packetsOf data.length), msn := (p.msn + 1) % 2 ^ 24 }) ∧
    (∀ (s : State) (pt q psn va key len : Nat) (write check : Bool) (data : List Byte) (imm : Option Nat) (bus : Bus) (p : Qp),
      s.pwr.state = .run → qpOf s q = some p → p.receives = true → p.mode = 0 → portServes s p pt = true → e2eBad s pt check = false →
      psn = p.rqPsn → keyOk s write va key (if write then data.length else len) = none →
      ∃ t, exec (.inboundKeyRequest ⟨pt, q, check⟩ psn write va key len data imm bus) s = .next t ∧ t.mem = s.mem ∧
        t.out = s.out ++ [.packet q (pktHdr s q (.nak psn 2)) (.nak psn 2)] ∧ t.rdm.naksSent = sat 0xFFFF (s.rdm.naksSent + 1)) ∧
    (∀ (s : State) (pt q psn : Nat) (check : Bool) (p : Qp) (w : Wr), s.pwr.state = .run → qpOf s q = some p → p.state = .rts →
      portServes s p pt = true → e2eBad s pt check = false → p.sent = [w] → w.op ≠ 5 →
      w.lastPsn = psn → bit w.flags 0 = false →
      ∃ t, exec (.ackReceive ⟨pt, q, check⟩ psn .ok) s = .next t ∧ qpOf t q = some { p with sent := [], retries := 0, rnrs := 0, ackAt := none } ∧
        t = { s with rdm := { s.rdm with qps := t.rdm.qps } }) ∧
    (∀ (s : State) (pt q psn : Nat) (check : Bool) (p : Qp) (w : Wr) (k : RCq), s.pwr.state = .run → qpOf s q = some p →
      portServes s p pt = true → e2eBad s pt check = false → p.state = .rts → p.sent = [w] →
      w.op ≠ 5 → w.lastPsn = psn → bit w.flags 0 = true → s.rdm.cqs.get p.sendCq = some k → k.error = false → k.isFull = false →
      ∃ t, exec (.ackReceive ⟨pt, q, check⟩ psn .ok) s = .next t ∧ qpOf t q = some { p with sent := [], retries := 0, rnrs := 0, ackAt := none } ∧
        t.rdm.cqs.get p.sendCq = some { k with prod := k.prod + 1, armed := false }) ∧
    (∀ (s : State) (pt q psn : Nat) (check : Bool) (p : Qp) (w : Wr) (a n f : Nat) (data : List Byte), s.pwr.state = .run →
      qpOf s q = some p → portServes s p pt = true → e2eBad s pt check = false → p.state = .rts → p.sent = [w] → w.op = 5 →
      psnLe w.psn psn = true → w.lastPsn = psn → bit w.flags 0 = false →
      w.landed + data.length = min w.len (4096 * (1 + (psn + 2 ^ 24 - w.psn) % 2 ^ 24)) →
      w.held.segs = [{ target := .hbm, addr := a, len := n, fn := f }] → w.landed + data.length ≤ n →
      ∃ t, exec (.ackReceive ⟨pt, q, check⟩ psn (.response data)) s = .next t ∧
        t.mem.cells = writeCells s.mem.cells (a + w.landed) data ∧
        qpOf t q = some { p with sent := [], retries := 0, rnrs := 0, ackAt := none }) ∧
    (∀ (s : State) (pt q psn : Nat) (check : Bool) (p : Qp) (w : Wr) (a n f : Nat) (data : List Byte), s.pwr.state = .run →
      qpOf s q = some p → portServes s p pt = true → e2eBad s pt check = false → p.state = .rts → p.sent = [w] → w.op = 5 →
      psnLe w.psn psn = true → psnLe psn w.lastPsn = true → w.lastPsn ≠ psn →
      w.landed + data.length = min w.len (4096 * (1 + (psn + 2 ^ 24 - w.psn) % 2 ^ 24)) →
      w.held.segs = [{ target := .hbm, addr := a, len := n, fn := f }] → w.landed + data.length ≤ n →
      ∃ t, exec (.ackReceive ⟨pt, q, check⟩ psn (.response data)) s = .next t ∧
        t.mem.cells = writeCells s.mem.cells (a + w.landed) data ∧
        qpOf t q = some { p with sent := [{ w with landed := w.landed + data.length }], retries := 0, ackAt := some s.core.t }) ∧
    (∀ (s : State) (pt q psn code detail : Nat) (check : Bool) (st : Status) (p : Qp) (w : Wr) (k : RCq), s.pwr.state = .run → qpOf s q = some p →
      portServes s p pt = true → e2eBad s pt check = false → nakStatus code = some st → p.state = .rts → p.mode ≠ 0 → p.sent = [w] → w.psn = psn → w.lastPsn = psn → psn < 2 ^ 24 →
      s.rdm.cqs.get p.sendCq = some k → k.error = false → k.isFull = false →
      ∃ t, exec (.statusNakReceive ⟨pt, q, check⟩ psn code detail) s = .next t ∧
        qpOf t q = some { p with sent := [], retries := 0, rnrs := 0, ackAt := none, last := st.code } ∧
        t.rdm.cqs.get p.sendCq = some { k with prod := k.prod + 1, armed := false } ∧
        t.rdm.naksRecv = sat 0xFFFF (s.rdm.naksRecv + 1)) ∧
    (∀ (s : State) (q t0 : Nat) (p : Qp) (w : Wr), qpOf s q = some p → p.state = .rts → p.ackAt = some t0 → p.rnrAt = none → p.sent = [w] →
      (∀ k ∈ w.packets p, k.before w.psn = false) → 1 ≤ w.npsn → w.npsn ≤ 2 ^ 18 → w.psn < 2 ^ 24 → t0 + 4096 * 2 ^ p.timeout ≤ s.core.t → qpFrozen s p = false → p.retries < p.retryCnt →
      ∃ t, exec (.localAckTimeout q) s = .next t ∧ t.out = s.out ++ (w.packets p).map (fun k => .packet q (pktHdr s q k) k) ∧
        qpOf t q = some { p with retries := p.retries + 1, ackAt := some s.core.t }) ∧
    (∀ (s : State) (q t0 : Nat) (p : Qp) (w : Wr), qpOf s q = some p → p.state = .rts → p.ackAt = some t0 → p.rnrAt = none → p.sent = [w] →
      t0 + 4096 * 2 ^ p.timeout ≤ s.core.t → qpFrozen s p = false → p.retryCnt ≤ p.retries →
      exec (.localAckTimeout q) s = .next (wrFail q w .timeout 1 s)) ∧
    (∀ (s : State) (q t0 : Nat) (p : Qp) (w : Wr), qpOf s q = some p → p.rnrAt = some t0 → p.sent = [w] → 1 ≤ w.npsn → (∀ k ∈ w.packets p, k.before w.psn = false) →
      w.npsn ≤ 2 ^ 18 → w.psn < 2 ^ 24 → t0 ≤ s.core.t → qpFrozen s p = false →
      ∃ t, exec (.rnrTimerExpiry q) s = .next t ∧ t.out = s.out ++ (w.packets p).map (fun k => .packet q (pktHdr s q k) k) ∧
        qpOf t q = some { p with rnrAt := none, ackAt := some s.core.t })

/-- Carves, bins, maps and leases (R296, R298 to R303, R323, R333). Clauses here rest on the model's own choices, log entries
38, 83, 113. -/
def Obligations.CarvesAndMaps : Prop :=
  (∀ (s : State) (id : CmdId) (c : Cmd) (upd : Bool), Runs s .carveCreate id c → s.dom.sleep.state = .awake → upd = fbit c.pkt 3 16 →
      s.grn.carves.has c.context = upd → fld c.pkt 2 22 0 ≠ 0 → fld c.pkt 2 31 23 = 0 → 1 ≤ fld c.pkt 3 5 0 → fld c.pkt 3 5 0 ≤ 60 →
      fld c.pkt 3 15 6 = 0 → fld c.pkt 3 31 17 = 0 →
      Completes (exec (if upd then .carveUpdate id else .carveCreate id) s) c .success 0 0 fun u =>
        u.grn = { s.grn with carves := s.grn.carves.set c.context (carveOf c.pkt) }) ∧
    (∀ (s : State) (id : CmdId) (c : Cmd), Runs s .carveCreate id c → s.dom.sleep.state = .awake → s.grn.carves.has c.context = true →
      fld c.pkt 2 22 0 = 0 → fld c.pkt 2 31 23 = 0 → fbit c.pkt 3 16 = true → fld c.pkt 3 15 6 = 0 →
      fld c.pkt 3 31 17 = 0 → (∀ e ∈ s.grn.dir, e.2.state = .free ∨ e.2.carve ≠ c.context) →
      Completes (exec (.carveDelete id) s) c .success 0 0 fun u => u.grn = { s.grn with carves := s.grn.carves.erase c.context }) ∧
    (∀ (s : State) (id : CmdId) (c : Cmd) (h own cv size i pr off gen : Nat) (v : Carve) (b : Bin), Runs s .binAlloc id c →
      s.dom.sleep.state = .awake → h = pktHandle c.pkt → own = ownMember s → handleGranary h = own → handleGen h = 0 → handleBin h = 0 →
      cv = handleCarve h → s.grn.carves.get cv = some v → v.admits (requester s c) = true → size = fld c.pkt 3 4 0 → 21 ≤ size →
      size ≤ 30 → fld c.pkt 3 7 5 = 0 → fld c.pkt 3 31 12 = 0 → s.grn.servedBy = none → s.grn.ownHome = true →
      (if fbit c.pkt 3 11 then bestPair s = some pr else pr = fld c.pkt 3 10 8 ∧ pr ∈ servingPairs s) → freeEntry s = some i →
      freeBlock s pr size = some off → carveUse s cv + 2 ^ size / 2 ^ 21 ≤ v.quota → gen = nextGen (binEntry s i).gen →
      b = { state := .allocated, size, carve := cv, pair := pr, gen, owner := requester s c, base := pairBase s pr + off, home := own } →
      Completes (exec (.binAlloc id) s) c .success (bits (mkHandle own cv gen i) 31 0) (bits (mkHandle own cv gen i) 63 32) fun u =>
        u.grn.dir = s.grn.dir.set i b ∧ (tallyOf u i).state = .clear ∧ (tallyOf u i).a = {} ∧ (tallyOf u i).b = {} ∧
        ∀ k, k < 2 ^ size → readCell u.mem.cells (binCell b k) = 0) ∧
    (∀ (s : State) (id : CmdId) (c : Cmd) (i : Nat) (b : Bin), Runs s .binFree id c → s.dom.sleep.state = .awake →
      readEntry false false (pktHandle c.pkt) (quietAgain s) = quietAgain s →
      judgeHandle s (pktHandle c.pkt) = .ok (i, b) → lockedOut s i = false → b.owner = requester s c → (tallyOf s i).state ≠ .occupied →
      Completes (exec (.binFree id) s) c .success 0 0 fun u =>
        binEntry u i = { binEntry s i with state := .freeing, mstate := .none, partner := none, maps := [] } ∧
        u.mem.cells = s.mem.cells ∧ ∀ r ∈ u.grn.resilvers, r.bin ≠ i) ∧
    (∀ (s : State) (id : CmdId) (c : Cmd) (i : Nat) (b : Bin), Runs s .binFree id c → s.dom.sleep.state = .awake →
      readEntry false false (pktHandle c.pkt) (quietAgain s) = quietAgain s →
      judgeHandle s (pktHandle c.pkt) = .ok (i, b) → b.owner ≠ requester s c →
      Completes (exec (.binFree id) s) c .notPermitted 10 3 fun u => u = quietAgain s) ∧
    (∀ (s : State) (i : Nat), (binEntry s i).state = .freeing →
      ∃ t, exec (.binZeroFillEnd i) s = .next t ∧ binEntry t i = { gen := (binEntry s i).gen } ∧ (tallyOf t i).state = .clear ∧
        (∀ k, k < (binEntry s i).bytes → readCell t.mem.cells (binCell (binEntry s i) k) = 0) ∧
        ∀ a, a < binCell (binEntry s i) 0 → readCell t.mem.cells a = readCell s.mem.cells a) ∧
    (∀ (s : State) (id : CmdId) (c : Cmd) (i lease : Nat) (b : Bin) (v : Carve) (r : TRec), Runs s .binMap id c → s.dom.sleep.state = .awake →
      readEntry false false (pktHandle c.pkt) (quietAgain s) = quietAgain s →
      judgeHandle s (pktHandle c.pkt) = .ok (i, b) → r = tallyOf s i → r.state = .clear ∨ r.state = .occupied → lease = fld c.pkt 3 5 0 →
      1 ≤ lease → lease ≤ 60 → s.grn.carves.get b.carve = some v → lease ≤ v.maxLease → fld c.pkt 3 7 6 = 0 → fld c.pkt 3 31 9 = 0 →
      v.admits (requester s c) = true → liveMap s b (requester s c) = none → b.maps.length < 8 → b.mirrored = false →
      r.a = r.b → r.a.mapsOut ≤ r.a.mapsIn → r.a.mapsIn < 65535 →
      Completes (exec (.binMap id) s) c .success (lease * 1000)
          (b.partner.getD 0 + 2 ^ 8 * flag (decide (b.mstate = .inSync)) + 2 ^ 9 * flag (fbit c.pkt 3 8) + 2 ^ 10 * flag b.partner.isSome) fun u =>
        binEntry u i = { binEntry s i with maps := (binEntry s i).maps ++
          [{ member := requester s c, write := fbit c.pkt 3 8, expiry := s.core.time + sec lease, num := s.grn.mapNum }] } ∧ u.grn.mapNum = s.grn.mapNum + 1 ∧
        (tallyOf u i).state = .occupied ∧ (tallyOf u i).a.mapsIn = r.a.mapsIn + 1 ∧ (tallyOf u i).b = (tallyOf u i).a) ∧
    (∀ (s : State) (id : CmdId) (c : Cmd) (i lease : Nat) (b : Bin) (v : Carve), Runs s .binMap id c → s.dom.sleep.state = .awake →
      readEntry false false (pktHandle c.pkt) (quietAgain s) = quietAgain s →
      judgeHandle s (pktHandle c.pkt) = .ok (i, b) → lockedOut s i = false → lease = fld c.pkt 3 5 0 →
      1 ≤ lease → lease ≤ 60 → s.grn.carves.get b.carve = some v → lease ≤ v.maxLease → fld c.pkt 3 7 6 = 0 → fld c.pkt 3 31 9 = 0 →
      v.admits (requester s c) = true → liveMap s b (requester s c) = none → b.maps.length < 8 → b.mirrored = true →
      ∃ t, exec (.binMap id) s = .next t ∧ (findCmd t id).map (·.phase) = some .waiting ∧
        t.grn.mapWaits = s.grn.mapWaits ++ [{ id, bin := i, member := requester s c, result := lease * 1000
                                              result2 := b.partner.getD 0 + 2 ^ 8 * flag (decide (b.mstate = .inSync)) +
                                                2 ^ 9 * flag (fbit c.pkt 3 8) + 2 ^ 10 }] ∧
        (binEntry t i).maps = b.maps ++ [{ member := requester s c, write := fbit c.pkt 3 8, expiry := s.core.time + sec lease
                                           num := s.grn.mapNum }]) ∧
    (∀ (s : State) (id : CmdId) (c : Cmd) (i m : Nat) (b : Bin) (v : BinMap) (l l' : List BinMap) (r : TRec), Runs s .binUnmap id c →
      s.dom.sleep.state = .awake → readEntry false false (pktHandle c.pkt) (quietAgain s) = quietAgain s →
      judgeHandle s (pktHandle c.pkt) = .ok (i, b) → m = requester s c → b.maps = l ++ v :: l' → (∀ x ∈ l ++ l', x.member ≠ m) →
      liveMap s b m = some v → mapOps s i m = 0 → b.mirrored = false → r = tallyOf s i → r.a = r.b → r.a.mapsOut < r.a.mapsIn →
      ∃ u, exec (.binUnmap id) s = .next (complete { c with phase := .waiting } .success 0 0 u) ∧
        binEntry u i = { b with maps := l ++ l' }) ∧
    (∀ (s : State) (id : CmdId) (c : Cmd) (i m : Nat) (b : Bin) (v : BinMap) (l l' : List BinMap), Runs s .binUnmap id c →
      s.dom.sleep.state = .awake → readEntry false false (pktHandle c.pkt) (quietAgain s) = quietAgain s →
      judgeHandle s (pktHandle c.pkt) = .ok (i, b) → m = requester s c → b.maps = l ++ v :: l' → (∀ x ∈ l ++ l', x.member ≠ m) →
      liveMap s b m = some v → mapOps s i m ≠ 0 →
      ∃ t, exec (.binUnmap id) s = .next t ∧ (findCmd t id).map (·.phase) = some .waiting ∧
        binEntry t i = { b with maps := l ++ { v with closing := true, unmap := some id } :: l' }) ∧
    (∀ (s : State) (id : CmdId) (c : Cmd) (i m lease : Nat) (b : Bin) (v : BinMap) (l l' : List BinMap), Runs s .leaseRenew id c →
      s.dom.sleep.state = .awake → readEntry false false (pktHandle c.pkt) (quietAgain s) = quietAgain s →
      judgeHandle s (pktHandle c.pkt) = .ok (i, b) → m = requester s c → lockedOut s i = false → b.maps = l ++ v :: l' →
      (∀ x ∈ l ++ l', x.member ≠ m) → lease = fld c.pkt 3 5 0 → 1 ≤ lease → lease ≤ 60 → fld c.pkt 3 31 6 = 0 →
      liveMap s b m = some v → b.mirrored = false →
      Completes (exec (.leaseRenew id) s) c .success ((max v.expiry (s.core.time + sec lease) - s.core.time) / 1000000) 0 fun u =>
        binEntry u i = { b with maps := l ++ { v with expiry := max v.expiry (s.core.time + sec lease) } :: l' }) ∧
    (∀ (s : State) (i m : Nat) (x : BinMap), (binEntry s i).maps = [x] → x.member = m → x.expiry ≤ s.core.time → mapOps s i m = 0 →
      x.unmap = none →
      ∃ t, exec (.leaseExpiry i m) s = .next t ∧ binEntry t i = { binEntry s i with maps := [] } ∧
        t.grn.lapses = sat 0xFFFFFFFF (s.grn.lapses + 1)) ∧
    (∀ (s : State) (i m : Nat) (x : BinMap), (binEntry s i).maps = [x] → x.member = m → x.expiry ≤ s.core.time → mapOps s i m ≠ 0 →
      ∃ t, exec (.leaseExpiry i m) s = .next t ∧ binEntry t i = { binEntry s i with maps := [{ x with closing := true }] } ∧
        t.grn.lapses = s.grn.lapses) ∧
    (∀ (s : State) (i m : Nat) (x : BinMap) (id : CmdId) (c : Cmd) (r : TRec), (binEntry s i).maps = [x] → x.member = m → x.closing = true →
      x.unmap = some id → mapOps s i m = 0 → (binEntry s i).mirrored = false → findCmd s id = some c → r = tallyOf s i → r.a = r.b → r.a.mapsOut < r.a.mapsIn →
      Completes (exec (.mapDrainEnd i m) s) c .success 0 0 fun u => binEntry u i = { binEntry s i with maps := [] })

/-- Mirrors and their resilvers, requests at the entry head, and homes that move (R304, R305, R308 to R316). Clauses here rest
on the model's own choices, log entries 37, 39, 74, 113, 114. -/
def Obligations.MirrorsAndHomes : Prop :=
  (∀ (s : State) (id : CmdId) (c : Cmd) (i ix p to_ : Nat) (b : Bin), Runs s .mirrorSet id c → s.dom.sleep.state = .awake →
      readEntry false false (pktHandle c.pkt) (quietAgain s) = quietAgain s →
      dw c.pkt 3 = 1 → judgeHandle s (pktHandle c.pkt) = .ok (i, b) → lockedOut s i = false → b.role = .serving →
      mirrorPartner s = some p → mirrorUp s = true → b.mstate ≠ .syncing → b.mstate ≠ .inSync → to_ = (if b.home = ownMember s then ix else b.pindex) →
      Completes (exec (.mirrorEnable id (some ix)) s) c .success to_ 0 fun u =>
        binEntry u i = { binEntry s i with partner := some p, pindex := to_, mstate := .syncing } ∧
        u.grn.resilvers = s.grn.resilvers ++ [{ bin := i, due := s.core.t }]) ∧
    (∀ (s : State) (id : CmdId) (c : Cmd) (i : Nat) (b : Bin), Runs s .mirrorSet id c → s.dom.sleep.state = .awake → dw c.pkt 3 = 0 →
      readEntry false false (pktHandle c.pkt) (quietAgain s) = quietAgain s →
      judgeHandle s (pktHandle c.pkt) = .ok (i, b) → lockedOut s i = false → b.role = .serving → (mirrorPartner s).isSome = true →
      Completes (exec (.mirrorDisable id) s) c .success 0 0 fun u =>
        binEntry u i = { binEntry s i with partner := none, mstate := .none } ∧ ∀ r ∈ u.grn.resilvers, r.bin ≠ i) ∧
    (∀ (s : State) (r : GReq) (p : Qp) (i : Nat) (v : BinMap), isGranary s = true → s.grn.ready = true → s.core.datReset = false →
      s.pwr.state = .run → qpOf s r.qpn = some p → p.receives = true → p.mode = 1 → portServes s p r.port = true →
      e2eBad s r.port r.check = false → (∀ w ∈ s.tly.waiting, w.port ≠ r.port) → s.grn.handback = none → s.dom.sleep.state = .awake →
      r.psn = p.rqPsn → r.write = false → r.dirA = false → r.dirB = false →
      readEntry false false r.va (quietAgain s) = quietAgain s → judge s r.va (some p.member) r.key r.len false = .ok i →
      liveMap s (binEntry s i) p.member = some v → (binEntry s i).role ≠ .proxy → tokenFree s = true →
      ∃ (t : State) (n : Nat), exec (.inboundGranaryRequest r) s = .next t ∧ t.tly.tokens.get n = some {
          bin := i, epoch := (tallyOf t i).epoch, kind := .read, member := p.member, map := v.num, qpn := r.qpn, first := r.psn
          psn := psnAdd r.psn (packetsOf r.len - 1), reads := true, offset := r.key, len := r.len, handle := r.va } ∧
        qpOf t r.qpn = some { p with
          rqPsn := psnAdd r.psn (packetsOf r.len)
          served := ((r.psn, packetsOf r.len, foldAddr 1 r.va r.key) :: p.served).take 16 } ∧ t.mem = s.mem) ∧
    (∀ (s w : State) (r : GReq) (p : Qp) (code detail : Nat), isGranary s = true → s.grn.ready = true → s.core.datReset = false →
      s.pwr.state = .run → qpOf s r.qpn = some p → p.receives = true → p.mode = 1 → portServes s p r.port = true →
      e2eBad s r.port r.check = false → (∀ x ∈ s.tly.waiting, x.port ≠ r.port) → s.grn.handback = none → w = sleepWake s →
      qpOf w r.qpn = some p → r.psn = p.rqPsn → r.dirA = false → r.dirB = false → readEntry false false r.va w = w →
      relayed w p.member r.va = none →
      judge w r.va (some p.member) r.key (if r.write then r.data.length else r.len) r.write = .error (code, detail) → code ≠ 2 →
      exec (.inboundGranaryRequest r) s = .next (statusNak r code detail w)) ∧
    (∀ (s : State) (h off i : Nat) (data : List Byte) (chunk : Bool) (b : Bin), s.pwr.state = .run → localBin s h = some (i, b) →
      b.role ≠ .serving → b.state = .allocated →
      ∃ t, exec (.mirrorWriteArrival h off data false chunk false) s = .next t ∧
        t.mem.cells = writeCells s.mem.cells (binCell b off) data ∧
        Output.mirror (if chunk then 3 else 1) h off data.length [] ∈ t.out) ∧
    (∀ (s : State) (n : Nat) (k : Token) (w : Bool), s.tly.tokens.get n = some k → k.kind = .write w →
      ∃ t, exec (.mirrorAck n) s = .next t ∧ t.tly.tokens.get n = some { k with kind := .write false } ∧
        t = { s with tly := { s.tly with tokens := t.tly.tokens } }) ∧
    (∀ (s : State) (i : Nat) (r : Resilver) (b : Bin), s.grn.resilvers = [r] → r.bin = i → b = binEntry s i → r.flight = none →
      r.due ≤ s.core.t → r.next < chunks b → b.state = .allocated → lockedOut s i = false → s.mem.weak = [] →
      badCell s (binCell b (r.next * 2 ^ 20)) (2 ^ 20) = none →
      ∃ t, exec (.resilverChunk i) s = .next t ∧ t.grn.resilvers = [{ r with
          flight := some r.next, due := s.core.t + 2 ^ 20 / max 1 (resilverRate s) }] ∧ t.mem = s.mem ∧
        Output.mirror 2 (b.handle (ownMember s) i) (r.next * 2 ^ 20) (2 ^ 20) (readBin s b (r.next * 2 ^ 20) (2 ^ 20)) ∈ t.out) ∧
    (∀ (s : State) (i k : Nat) (r : Resilver), s.grn.resilvers = [r] → r.bin = i → r.flight = some k → r.cause = none →
      ∃ t, exec (.resilverChunkAck i) s = .next t ∧
        (r.next + 1 < chunks (binEntry s i) → t.grn.resilvers = [{ r with flight := none, next := r.next + 1 }]) ∧
        (chunks (binEntry s i) ≤ r.next + 1 → t.grn.resilvers = [] ∧ (binEntry t i).mstate = .inSync)) ∧
    (∀ (s : State) (home k : Nat) (b : Bin), isGranary s = true → s.grn.dir = [(k, b)] → b.home = home → b.role = .standby →
      b.mstate = .inSync →
      ∃ t, exec (.promoteCopies home) s = .next t ∧ t.grn.dir = [(k, { b with role := .serving, mstate := .broken })] ∧
        home ∈ t.grn.homes ∧ t.grn.failover.get home = some (ownMember s) ∧ t.mem.cells = s.mem.cells) ∧
    (∀ (s : State) (h : MsgHead) (role x : Nat), s.pwr.state = .run → msgBad s h = false → isGranary s = false → x ≠ h.sender →
      ∃ t, exec (.announceReceive h role [x]) s = .next t ∧ t.grn.failover.get x = some h.sender ∧ (peer t h.sender).role = role) ∧
    (∀ (s : State) (h : MsgHead) (role : Nat) (homes : List Nat), s.pwr.state = .run → msgBad s h = false → isGranary s = true →
      ownMember s ∈ homes →
      ∃ t, exec (.announceReceive h role homes) s = .next t ∧ t.grn.servedBy = some h.sender ∧ t.grn.ownHome = false) ∧
    (∀ (s : State) (h : MsgHead) (a b c d : Nat), s.pwr.state = .run → msgBad s h = false →
      ∃ t, exec (.noticeReceive h 2 a b c d) s = .next t ∧ t.grn.recs = s.grn.recs.filter (fun r => r.handle ≠ a)) ∧
    (∀ (s : State) (h : MsgHead) (a b c i : Nat) (e : Bin), s.pwr.state = .run → msgBad s h = false → localBin s a = some (i, e) →
      ∃ t, exec (.noticeReceive h 3 a b c 1) s = .next t ∧ (binEntry t i).maps = e.maps ++ [{
        member := b % 256, write := bit b 8, expiry := c, num := s.grn.mapNum }]) ∧
    (∀ (s : State) (h : MsgHead) (a b i : Nat) (e : Bin) (w : MapWait) (c : Cmd), s.pwr.state = .run → msgBad s h = false →
      localBin s a = some (i, e) → s.grn.mapWaits = [w] → w.bin = i → w.member = b → findCmd s w.id = some c →
      exec (.noticeReceive h 10 a b 0 0) s = .next (complete c .success w.result w.result2 { s with grn := { s.grn with mapWaits := [] } })) ∧
    (∀ (s : State) (handle fn : Nat), exec (.mapRecordExpiry handle fn) s = .next { s with grn := { s.grn with
      recs := s.grn.recs.filter fun r => !(decide (r.handle = handle) && decide (r.fn = fn) && decide (r.expiry ≤ s.core.time)) } }) ∧
    (∀ (s : State) (t0 : Nat), s.grn.upSince = some t0 → isGranary s = true → t0 + ms 10 ≤ s.core.t → s.grn.ownHome = false →
      s.grn.servedBy = none →
      ∃ t, exec .homeClaimWaitExpiry s = .next t ∧ t.grn = { s.grn with ownHome := true }) ∧
    (∀ (s : State) (home : Nat), home ∈ s.grn.homes → s.grn.handback = none → home ≠ ownMember s →
      (∀ e ∈ promoted s home, e.2.mstate = .inSync) →
      exec (.homeHandback home) s = .next { s with grn := { s.grn with
        handback := some { home, copies := (promoted s home).length } } }) ∧
    (∀ (s : State) (home n : Nat), s.grn.handback = some { home, copies := n } → (∀ e ∈ promoted s home, openTokens s e.1 = 0) →
      ∃ t, exec .handbackDrainEnd s = .next t ∧ t.grn.handback = none ∧ home ∉ t.grn.homes ∧ t.grn.failover.get home = none ∧
        ∀ e ∈ promoted s home, (binEntry t e.1).role = .standby)

/-- The tally counts, stops, sweeps and confirms (R325 to R328, R334 to R337), and near-memory work enters by its ring (R317,
R318). Clauses here rest on the model's own choices, log entry 60. -/
def Obligations.TallyAndNearMemory : Prop :=
  (∀ (s : State) (id : CmdId) (c : Cmd) (i : Nat) (r : TRec), Runs s .tallyQuery id c → s.dom.sleep.state = .awake →
      readEntry false false (pktHandle c.pkt) (quietAgain s) = quietAgain s →
      tallyTarget s (pktHandle c.pkt) = .ok i → r = tallyOf s i → (binEntry s i).maps = [] →
      Completes (exec (.tallyQuery id) s) c .success
        (r.state.code + 8 * flag r.swept + 16 * r.cause + 2 ^ 8 * r.epoch + 2 ^ 16 * sat 255 (r.a.mapsIn - r.a.mapsOut))
        (sat 0xFFFF (opsOpen s i) + 2 ^ 16 * sat 0xFFFF (windowLeft s r)) fun u => u = quietAgain s) ∧
    (∀ (s : State) (id : CmdId) (c : Cmd) (i : Nat) (r : TRec), Runs s .tallyPrepReset id c → s.dom.sleep.state = .awake →
      readEntry false false (pktHandle c.pkt) (quietAgain s) = quietAgain s →
      tallyTarget s (pktHandle c.pkt) = .ok i → r = tallyOf s i → r.state = .disturbed → opsOpen s i = 0 →
      (∀ m ∈ (binEntry s i).maps, m.unmap = none) →
      Completes (exec (.tallyPrepReset id) s) c .success ((r.epoch + 1) % 256) 0 fun u => tallyOf u i = { r with
          a := {}, b := {}, state := .sweepPending, swept := false, epoch := (r.epoch + 1) % 256, prepared := true, prepAuth := pktAuth c.pkt
          prepMember := requester s c, suspA := false, suspB := false, sweepAt := some s.core.t } ∧ (binEntry u i).maps = []) ∧
    (∀ (s : State) (id : CmdId) (c : Cmd) (i : Nat) (r : TRec), Runs s .tallyConfirm id c → s.dom.sleep.state = .awake →
      readEntry false false (pktHandle c.pkt) (quietAgain s) = quietAgain s →
      tallyTarget s (pktHandle c.pkt) = .ok i → r = tallyOf s i → r.state = .sweeping → (r.prepared = true → pktAuth c.pkt ≠ r.prepAuth) → r.swept = true →
      fld c.pkt 3 7 0 = r.epoch → fld c.pkt 3 31 8 = 0 → arrivedAt s id < r.window →
      Completes (exec (.tallyConfirm id) s) c .success 0 0 fun u =>
        tallyOf u i = { r with a := {}, b := {}, state := .clear, swept := false, cause := 0, window := 0 } ∧
        binEntry u i = { binEntry s i with state := if (binEntry s i).state = .lost then .allocated else (binEntry s i).state }) ∧
    (∀ (s : State) (id : CmdId) (c : Cmd) (i : Nat), Runs s .tallyConfirm id c → s.dom.sleep.state = .awake →
      readEntry false false (pktHandle c.pkt) (quietAgain s) = quietAgain s →
      tallyTarget s (pktHandle c.pkt) = .ok i → (tallyOf s i).prepared = true → pktAuth c.pkt = (tallyOf s i).prepAuth →
      Completes (exec (.tallyConfirm id) s) c .notPermitted 9 0 fun u => u.tly.recs = s.tly.recs ∧ u.grn = s.grn) ∧
    (∀ (s : State) (i n : Nat) (k : Token) (r : TRec) (pk : Packet), s.tly.tokens.get n = some k → k.bin = i → k.kind = .read → k.waits = none → k.who = none →
      k.reads = true → k.got = [] → k.code = 0 → (∀ x ∈ s.tly.tokens, x.1 ≠ n → sameRequest k x.2 = false) → s.mem.weak = [] →
      badCell s (binCell (binEntry s i) k.offset) k.len = none →
      r = tallyOf s i → k.epoch = r.epoch → r.a = r.b → r.a.opsOut + 1 < r.a.opsIn →
      (∀ p ∈ readBin s (binEntry s i) k.offset k.len, p.2 = false) →
      pk = .response (psnAdd k.first (packetsOf k.len - 1)) ((readBin s (binEntry s i) k.offset k.len).map (·.1)) →
      ∃ t, exec (.operationExit i (some n) 0 none) s = .next t ∧ t.tly.tokens.get n = none ∧
        (tallyOf t i).a.opsOut = r.a.opsOut + 1 ∧ (tallyOf t i).b = (tallyOf t i).a ∧
        Output.packet k.qpn (pktHdr s k.qpn pk) pk ∈ t.out ∧ t.mem = s.mem) ∧
    (∀ (s : State) (i code : Nat) (relay : Option (List Byte)) (r : TRec), r = tallyOf s i → r.state ≠ .disturbed →
      ∃ t, exec (.operationExit i none code relay) s = .next t ∧ lockedOut t i = true ∧ tallyOf t i = { r with
        state := .disturbed, cause := 2, swept := false, sweepAt := none, window := 0 } ∧ t.grn = s.grn ∧ t.mem = s.mem) ∧
    (∀ (s : State) (r : GReq) (rest : List GReq), s.tly.waiting = r :: rest → tokenFree s = true →
      exec .tokenFreeAdmit s = .next (admitRequest r { s with tly := { s.tly with waiting := rest } })) ∧
    (∀ (s : State) (i : Nat) (r : TRec), r = tallyOf s i → r.state ≠ .disturbed →
      ∃ t, exec (.tallyBackgroundScan i true false false none) s = .next t ∧ lockedOut t i = true ∧ (tallyOf t i).suspA = true ∧
        (tallyOf t i).suspB = r.suspB ∧ (tallyOf t i).cause = 1) ∧
    (∀ (s : State) (i n : Nat), (tallyOf s i).a = (tallyOf s i).b →
      exec (.tallyBackgroundScan i false false false (some n)) s = .next { s with tly := { s.tly with scan := sat 0xFFFF n } }) ∧
    (∀ (s : State) (i t0 : Nat), (tallyOf s i).state = .sweepPending → (tallyOf s i).sweepAt = some t0 →
      ∃ (t : State) (x : Item), exec (.sweepQueue i) s = .next t ∧ itemOf t s.trn.nextItem = some x ∧ x.state = .ready ∧
        x.owner = .sweep (binEntry s i).carve i ∧ x.due = s.core.t + sec 1 ∧ x.floors = 1 ∧ (tallyOf t i).sweepAt = none) ∧
    (∀ (s : State) (i n cv : Nat) (x : Item) (r : TRec) (b : Bin), s.trn.items = [(n, x)] → x.owner = .sweep cv i → x.state = .running →
      blockAwake s x.base 1 = true → r = tallyOf s i → r.state = .sweeping → r.swept = false → r.a = {} → r.b = {} → b = binEntry s i →
      b.size ≤ 30 → (pairOf s b.pair).state = .up →
      ∃ t, exec (.sweepTokenPass i) s = .next t ∧ itemOf t n = none ∧ (tallyOf t i).swept = true ∧ (tallyOf t i).state = .sweeping ∧
        (tallyOf t i).window = s.core.time + sec 60 ∧ ∀ k, k < b.bytes → readCell t.mem.cells (binCell b k) = 0) ∧
    (∀ (s : State) (i : Nat) (r : TRec), r = tallyOf s i → r.swept = true → r.state = .sweeping → r.window ≤ s.core.time →
      s.tly.arrived = [] →
      ∃ t, exec (.confirmWindowExpiry i) s = .next t ∧ lockedOut t i = true ∧ (tallyOf t i).state = .disturbed ∧
        (tallyOf t i).cause = 8 ∧ (tallyOf t i).swept = false) ∧
    (∀ (s : State) (val : Nat) (bus : Bus), isGranary s = true → s.core.ctlReset = false → s.pwr.state = .run →
      s.grn.nmwHead = val % 2 ^ 16 → exec (.nmwTailWrite val bus) s = .next { s with grn := { s.grn with nmwTail := val % 2 ^ 16 } }) ∧
    (∀ (s : State) (val image : Nat) (bus : Bus) (h : Held) (d : List (Byte × Bool) × State) (e : List Byte) (k : Chain) (m : Image), isGranary s = true →
      s.core.ctlReset = false → s.pwr.state = .run → s.dom.sleep.state = .awake → s.grn.nmwHead < 2 ^ 16 →
      val % 2 ^ 16 = (s.grn.nmwHead + 1) % 2 ^ 16 →
      translate s {} (bits s.grn.nmwCfg 25 16) (s.grn.nmwBase + 64 * (s.grn.nmwHead % nmwDepth s)) 64 = .ok h →
      d = readRuns bus h.segs (noteWalks h (quietAgain { s with grn := { s.grn with nmwTail := val % 2 ^ 16 } })) → anyPoison d.1 = false →
      e = d.1.map (·.1) → num e 16 48 = 0 → num e 4 4 = 0 → s.stn.chains.get (num e 0 2) = some k → k.fn = 0 →
      k.images[num e 2 1]? = some image → imageOf s image = some m → gangFits (num e 3 1) m = true → bit (num e 3 1) 3 = false →
      ∃ (t : State) (x : Item), exec (.nmwTailWrite val bus) s = .next t ∧ t.grn.nmwHead = val % 2 ^ 16 ∧
        itemOf t s.trn.nextItem = some x ∧ x.state = .ready ∧ x.owner = .nearMem (s.grn.nmwHead % nmwDepth s) ∧
        x.chain = some (num e 0 2) ∧ x.stage = num e 2 1 ∧ x.image = image ∧ x.due = s.core.t + sec 1 ∧ x.user = num e 8 8)

/-- The steward verifies, re-flashes and lets go of flashes (R434 to R440), and monitors are set, read and cleared (R475 to
R484). Clauses here rest on the model's own choices, log entries 57, 77, 116. -/
def Obligations.TrayAndMonitors : Prop :=
  (∀ (s : State) (id : CmdId) (c : Cmd) (n : Nat), MailRuns s 2 id c → s.mwr.steward = true → n = dw c.pkt 3 → n ≤ 7 →
      Completes (exec (.trayStatus id) s) c .success (stwDev s n) (msSinceVerified s n) fun u => u = heard s) ∧
    (∀ (s : State) (id : CmdId) (c : Cmd) (n : Nat), MailRuns s 3 id c → s.mwr.steward = true → n = dw c.pkt 3 → n ≤ 7 →
      (posOf s n).state = .absent →
      Completes (exec (.trayVerify id) s) c .success (stwDev s n) (msSinceVerified s n) fun u => u = heard s) ∧
    (∀ (s : State) (id : CmdId) (c : Cmd) (n : Nat), MailRuns s 3 id c → s.mwr.steward = true → n = dw c.pkt 3 → n ≤ 7 →
      (posOf s n).state = .healthy →
      ∃ t, exec (.trayVerify id) s = .next t ∧ findCmd t id = some { c with phase := .waiting } ∧ posOf t n = { posOf s n with
        state := if mayTake s n && (trayBus s).isNone then .verifying else .unverified, waiters := (posOf s n).waiters ++ [c.id] } ∧
        ∀ k, k ≠ n → posOf t k = posOf s k) ∧
    (∀ (s : State) (n : Nat), n < 8 → s.mwr.running = true → s.mwr.steward = true → (posOf s n).state = .absent →
      ∃ t, exec (.positionPresentConfirm n) s = .next t ∧ t.brk = { s.brk with present := s.brk.present ||| 2 ^ n } ∧
        posOf t n = { posOf s n with state := .unverified, presentAt := some s.core.t }) ∧
    (∀ (s : State) (n : Nat) (svn : Option Nat), n < 8 → s.mwr.running = true → s.mwr.steward = true → (posOf s n).state = .unverified →
      trayBus s = none → ∃ t, exec (.positionVerify n true false svn) s = .next t ∧ posOf t n = { posOf s n with
        state := .verifying, released := true, recovery := false, svn := if svn.isSome then svn else (posOf s n).svn }) ∧
    (∀ (s : State) (n : Nat) (f : Flashes), n < 8 → s.mwr.running = true → s.mwr.steward = true → (posOf s n).state = .verifying →
      f.ptr = true → bootCode (posSvn s n) f.primary = 0 → bootCode (posSvn s n) f.golden = 0 →
      ∃ t, exec (.verifyEnd n (some f)) s = .next t ∧ posOf t n = { posOf s n with
        state := .healthy, recovery := false, primary := 0, golden := 0, verifiedAt := some s.core.t, waiters := [] }) ∧
    (∀ (s : State) (n : Nat) (f : Flashes), n < 8 → s.mwr.running = true → s.mwr.steward = true → (posOf s n).state = .verifying →
      f.ptr = true → bootCode (posSvn s n) f.primary ≠ 0 → bootCode (posSvn s n) f.golden = 0 → (posOf s n).attempts.length < 3 →
      ∃ t, exec (.verifyEnd n (some f)) s = .next t ∧ (posOf t n).state = .reflashing ∧ (posOf t n).flashPrimary = some f.golden ∧
        (posOf t n).flashGolden = none ∧ (posOf t n).attempts = aoTicks s :: (posOf s n).attempts) ∧
    (∀ (s : State) (n : Nat), n < 8 → s.mwr.running = true → s.mwr.steward = true → (posOf s n).state = .verifying →
      ∃ t, exec (.verifyEnd n none) s = .next t ∧ (posOf t n).state = .failed ∧ (posOf t n).waiters = []) ∧
    (∀ (s : State) (n : Nat) (img : FwImage), n < 8 → s.mwr.running = true → s.mwr.steward = true → (posOf s n).state = .reflashing →
      (posOf s n).flashPrimary = some img → (posOf s n).flashGolden = none →
      ∃ t, exec (.reflashEnd n (some true) none) s = .next t ∧ posOf t n = { posOf s n with
        state := .verifying, flashPrimary := none, flashGolden := none }) ∧
    (∀ (s : State) (n : Nat), n < 8 → s.mwr.running = true → s.mwr.steward = true → (posOf s n).state = .givenUp →
      (posOf s n).attempts.getLastD 0 + flashWindow ≤ aoTicks s →
      ∃ t, exec (.reflashWindowExpiry n) s = .next t ∧ posOf t n = { posOf s n with state := .unverified } ∧ t.brk = s.brk) ∧
    (∀ (s : State) (n : Nat) (r : Bool), n < 8 → s.mwr.running = true → s.mwr.steward = true → (posOf s n).state = .healthy →
      ∃ t, exec (.sidebandInBandInterrupt n r) s = .next t ∧
        posOf t n = { posOf s n with recovery := r || (posOf s n).recovery, state := .unverified } ∧ t.brk = s.brk) ∧
    (∀ s : State, s.mwr.serves = true → exec .sidebandRelease s = .next { s with mwr := { s.mwr with
      releasedAt := some s.core.t, spiFloat := true } }) ∧
    (∀ (s : State) (t0 : Nat), s.mwr.serves = true → s.mwr.releasedAt = some t0 → s.mwr.st ≠ .recovery →
      ∃ t, exec .sidebandResume s = .next t ∧ t.mwr = { s.mwr with releasedAt := none, spiFloat := false } ∧ t.core = s.core ∧
        t.brk = s.brk) ∧
    (∀ (s : State) (t0 : Nat), s.mwr.releasedAt = some t0 → t0 + sec 60 ≤ s.core.t → s.mwr.st ≠ .recovery →
      ∃ t, exec .releaseTimeout s = .next t ∧ t.mwr = { s.mwr with releasedAt := none, spiFloat := false } ∧ t.core = s.core ∧
        t.brk = s.brk) ∧
    (∀ s : State, s.mwr.serves = true → exec .sidebandStatusRead s = .next { s with out := s.out ++ [.answer (statusBlock s) false] }) ∧
    (∀ (s : State) (id : CmdId) (bus : Bus) (c : Cmd) (source : Nat), Runs s .monConfig id c → c.context ≤ 63 →
      (s.evt.mons.has c.context = true → ownsMon s c.fn c.context = true) → fld c.pkt 2 31 10 = 0 → fbit c.pkt 2 8 = true →
      source = fld c.pkt 2 3 0 → sourceBad s source = false → fld c.pkt 2 5 4 = 0 → qw c.pkt 5 ≠ 0 →
      filterABad source (qw c.pkt 10) = false → filterBBad source (qw c.pkt 12) = false → (6 ≤ source → c.fn = 0) →
      Completes (exec (.monConfig id bus) s) c .success 0 0 fun u => u = { s with evt := { s.evt with mons := s.evt.mons.set c.context {
        fn := c.fn, source, scale := 0, clearOnSnap := fbit c.pkt 2 9, lo := qw c.pkt 3, w := qw c.pkt 5, edges := []
        filtA := qw c.pkt 10, filtB := qw c.pkt 12, clearedAt := stamp s, dueAt := s.core.t + ms (qw c.pkt 12) } } }) ∧
    (∀ (s : State) (id : CmdId) (bus : Bus) (c : Cmd), Runs s .monConfig id c → c.context ≤ 63 → fld c.pkt 2 31 10 = 0 →
      fbit c.pkt 2 8 = false → ownsMon s c.fn c.context = true →
      Completes (exec (.monConfig id bus) s) c .success 0 0 fun u =>
        u = { s with evt := { s.evt with mons := s.evt.mons.erase c.context } }) ∧
    (∀ (s : State) (id : CmdId) (c : Cmd) (x : Mon), Runs s .monSnapshot id c → c.context ≤ 63 → s.evt.mons.get c.context = some x →
      x.fn = c.fn → qw c.pkt 4 = 0 → fld c.pkt 6 31 1 = 0 →
      ∃ n, Completes (exec (.monSnapshot id) s) c .success n 0 fun u => u.evt.mons.get c.context = some {
        (if x.clearOnSnap || fbit c.pkt 6 0 then (x.drain (whlCycles s)).first (stamp s) else x.drain (whlCycles s)) with ueReset := false }) ∧
    (∀ (s : State) (id : CmdId) (c : Cmd) (x : Mon), Runs s .monClear id c → c.context ≤ 63 → s.evt.mons.get c.context = some x →
      x.fn = c.fn → qw c.pkt 2 = 0 →
      Completes (exec (.monClear id) s) c .success 0 0 fun u => u.evt.mons.get c.context = some { x with
          count := 0, sum := 0, min := 0xFFFFFFFFFFFFFFFF, max := 0, bins := [], dropped := 0, clearedAt := stamp s, queued := [] } ∧
        ∀ k, k ≠ c.context → u.evt.mons.get k = s.evt.mons.get k) ∧
    (∀ (s : State) (m reading : Nat) (x : Mon), s.evt.mons.get m = some x → x.source = 9 → x.dueAt ≤ s.core.t → s.pwr.state = .run →
      s.mwr.running = true → reading < 2 ^ 31 → x.busyUntil ≤ whlCycles s →
      ∃ t y, exec (.monitorPeriodExpiry m reading) s = .next t ∧ t.evt.mons.get m = some y ∧ y.dueAt = x.dueAt + ms x.filtB ∧
        y.count = sat (2 ^ 48 - 1) (x.count + 1) ∧ y.sum = sat (2 ^ 64 - 1) (x.sum + reading) ∧ y.min = Nat.min x.min reading ∧
        y.max = Nat.max x.max reading)

/-- Leak samples, the settle window, blanking, the output, configuration and supply checks (R451 to R455, R458, R460). Clauses
here rest on the model's own choices, log entry 78. -/
def Obligations.BrakeInputs : Prop :=
  (∀ (s : State) (ch pos neg : Nat), s.pwr.aoIn = true → ch < 8 → s.brk.act.leakEn ch = true → discarded s ch = false →
      s.brk.settle = none → (leakOf s ch).state = .dry → (leakOf s ch).wet = 2 → (leakOf s ch).asym = 0 → max pos neg ≤ 2 * min pos neg →
      (pos + neg) / 2 < s.brk.act.wetTh → (pos + neg) / 2 ≤ s.brk.act.dryTh →
      ∃ u, exec (.leakSample ch pos neg true) s = .next (brakeSeen u) ∧ (leakOf u ch).state = .wet ∧ u.brk.set = true ∧
        (s.brk.set = false → u.brk.lockout = true ∧ u.brk.tripLast = 1 + ch * 16 ∧ u.brk.trips = sat 0xFFFF (s.brk.trips + 1))) ∧
    (∀ (s : State) (ch pos neg : Nat), s.pwr.aoIn = true → ch < 8 → s.brk.act.leakEn ch = true → discarded s ch = false →
      (leakOf s ch).state = .dry → (leakOf s ch).asym < 3 → max pos neg ≤ 2 * min pos neg → s.brk.act.wetTh ≤ (pos + neg) / 2 →
      s.brk.act.dryTh < (pos + neg) / 2 →
      ∃ t, exec (.leakSample ch pos neg true) s = .next t ∧ (leakOf t ch).state = .dry ∧ (leakOf t ch).wet = 0 ∧ t.brk.set = s.brk.set ∧
        t.brk.lockout = s.brk.lockout) ∧
    (∀ (s : State) (t0 : Nat), s.pwr.aoIn = true → s.brk.settle = some t0 → t0 + ms 100 ≤ s.core.t → s.brk.cls = 0 →
      (∀ n, n < 8 → s.brk.act.leakEn n = true → (leakOf s n).state = .undetermined ∧ 3 ≤ (leakOf s n).dryRun) →
      (∀ i, i < 4 → s.brk.act.ilkEn i = true → (ilkOf s i).state = .healthy) → s.brk.outPins = 0 → s.brk.ioLost = false →
      s.brk.settleTrip = false → s.brk.lockout = false →
      ∃ u, exec .settleWindowEnd s = .next (brakeSeen u) ∧ u.brk.set = false ∧ u.brk.inhibit = false ∧ u.brk.settle = none ∧
        ∀ n, n < 8 → s.brk.act.leakEn n = true → (leakOf u n).state = .dry) ∧
    (∀ (s : State) (t0 : Nat), s.pwr.aoIn = true → s.brk.settle = some t0 → t0 + ms 100 ≤ s.core.t → s.brk.cls ≠ 0 → s.brk.set = true →
      ∃ u, exec .settleWindowEnd s = .next (brakeSeen u) ∧ u.brk.set = true ∧ u.brk.settle = none ∧
        ∀ n, n < 8 → s.brk.act.leakEn n = true → (leakOf s n).state = .undetermined → (leakOf s n).dryRun < 3 → (leakOf u n).state = .wet) ∧
    (∀ s : State, s.pwr.aoIn = true → s.brk.blankIn = false → s.brk.blank = none → s.brk.guard = none → valvesIn s .pullIn = [] →
      exec .blankInRise s = .next { s with brk := { s.brk with blankIn := true, blank := some (s.core.t, s.brk.act.blankIn) } }) ∧
    (∀ (s : State) (t0 m : Nat), s.pwr.aoIn = true → s.brk.blankIn = true → s.brk.blank = some (t0, m) → valvesIn s .pullIn = [] →
      exec .blankInFall s = .next { s with brk := { s.brk with
        blankIn := false, blank := none, guard := some s.core.t, lastMask := m } }) ∧
    (∀ (s : State) (t0 m : Nat), s.pwr.aoIn = true → s.brk.blank = some (t0, m) → t0 + aoNs 1638 ≤ s.core.t →
      ∃ t, exec .blankCapExpiry s = .next t ∧ Told { s with brk := t.brk } t ∧ t.brk.blank = none ∧ t.brk.guard = some s.core.t ∧
        t.brk.lastMask = m ∧ t.brk.set = s.brk.set) ∧
    (∀ (s : State) (t0 : Nat), s.pwr.aoIn = true → s.brk.guard = some t0 → t0 + aoNs 328 ≤ s.core.t → s.brk.blank = none →
      valvesIn s .pullIn = [] →
      exec .blankGuardEnd s = .next { s with brk := { s.brk with
        guard := none, blank := if s.brk.blankIn then some (s.core.t, s.brk.act.blankIn) else none } }) ∧
    (∀ s : State, s.pwr.aoIn = true → s.brk.outPins = 0 → s.brk.set = false →
      ∃ u, exec (.outputCheckFault 1) s = .next (brakeSeen u) ∧ u.brk.outPins = 1 ∧ u.brk.set = true ∧ u.brk.lockout = true ∧
        u.brk.tripLast = 5) ∧
    (∀ s : State, s.pwr.aoIn = true → s.brk.set = false →
      ∃ u, exec .configParityError s = .next (brakeSeen u) ∧ u.brk.act = {} ∧ u.brk.pend = {} ∧ u.brk.set = true ∧ u.brk.lockout = true ∧
        u.brk.tripLast = 6) ∧
    (∀ s : State, s.pwr.aoIn = true → s.pwr.state ≠ .off → s.brk.ioLost = false → s.brk.set = false →
      ∃ u, exec (.holdSupplyLoss true) s = .next (brakeSeen u) ∧ u.brk.ioLost = true ∧ u.brk.set = true ∧ u.brk.lockout = true ∧
        u.brk.tripLast = 7)

/-- A hold of BRAKE_RST_N releases the brake or is refused, and the brake's registers answer (R449, R462, R463, R471). Clauses
here rest on the model's own choices, log entry 79. -/
def Obligations.BrakeReleases : Prop :=
  (∀ s : State, s.pwr.aoIn = true → s.brk.hold = none → exec .brakeRstFall s = .next { s with brk := { s.brk with
      rstHigh := true, hold := some { since := s.core.t, bad := !healthyPending s } } }) ∧
    (∀ (s : State) (h : RstHold), s.pwr.aoIn = true → s.brk.hold = some h → h.since + ms 100 ≤ s.core.t → s.core.t ≤ h.since + ms 2000 →
      h.bad = false → h.written = false → healthyPending s = true → s.brk.settle = none →
      ∃ t, exec .brakeRstRise s = .next t ∧ t.brk.set = false ∧ t.brk.lockout = false ∧ t.brk.inhibit = false ∧ t.brk.act = s.brk.pend ∧
        t.brk.hold = none ∧ t.brk.holds = sat 0xFFFF (s.brk.holds + 1) ∧ t.brk.stuck = false) ∧
    (∀ (s : State) (h : RstHold), s.pwr.aoIn = true → s.brk.hold = some h → s.core.t < h.since + ms 100 ∨ h.since + ms 2000 < s.core.t ∨
      h.bad = true ∨ h.written = true ∨ healthyPending s = false ∨ s.brk.settle.isSome = true →
      ∃ t, exec .brakeRstRise s = .next t ∧ t.brk.set = s.brk.set ∧ t.brk.lockout = s.brk.lockout ∧ t.brk.inhibit = s.brk.inhibit ∧
        t.brk.act = s.brk.act ∧ t.brk.hold = none ∧ t.brk.holds = s.brk.holds) ∧
    (∀ (s : State) (h : RstHold), s.pwr.aoIn = true → s.brk.hold = some h → h.since + ms 2000 < s.core.t →
      exec .brakeRstStuck s = .next { s with brk := { s.brk with stuck := true } }) ∧
    (∀ (s : State) (id : CmdId) (c : Cmd), MailRuns s 0x100 id c →
      Completes (exec (.brakeStatus id) s) c .success (brkStatus s) s.brk.tripLast fun u => u = heard s) ∧
    (∀ (s : State) (id : CmdId) (c : Cmd) (off : Nat) (p : BrkCfg), MailRuns s 0x101 id c → s.mwr.steward = true → off = dw c.pkt 3 →
      off = 0xB00080 ∨ off = 0xB00084 ∨ off = 0xB00088 → s.brk.pend.write off (dw c.pkt 4) = some p →
      Completes (exec (.brakePending id) s) c .success 0 0 fun u => u = { heard s with brk := { s.brk with
        pend := p, leaksP := leaksUnder s.brk.pend p s.brk.leaksP, hold := s.brk.hold.map fun h => { h with written := true } } }) ∧
    (∀ (s : State) (id : CmdId) (c : Cmd) (off : Nat), MailRuns s 0x101 id c → s.mwr.steward = true → off = dw c.pkt 3 →
      off = 0xB00080 ∨ off = 0xB00084 ∨ off = 0xB00088 → s.brk.pend.write off (dw c.pkt 4) = none →
      Completes (exec (.brakePending id) s) c .invalidField 16 0 fun u => u = { heard s with brk := { s.brk with
        refused := sat 0xFFFFFFFF (s.brk.refused + 1) } }) ∧
    (∀ (v : Nat) (p : BrkCfg), p.write 0xB00084 v = none ↔ ¬ (50 ≤ bits v 9 0 ∧ bits v 9 0 ≤ 500 ∧ 300 ≤ bits v 27 16 ∧
      bits v 27 16 ≤ 4000 ∧ bits v 9 0 + 100 ≤ bits v 27 16)) ∧
    (∀ (v : Nat) (p : BrkCfg), p.write 0xB00088 v = none ↔ ¬ (10 ≤ bits v 8 0 ∧ bits v 8 0 ≤ 500))

/-- Valves are driven on and off, and their faults and limits hold (R466 to R468, R471). Clauses here rest on the model's own
choices, log entry 81. -/
def Obligations.Valves : Prop :=
  (∀ (s : State) (id : CmdId) (c : Cmd) (n : Nat), MailRuns s 0x110 id c → s.mwr.steward = true → n = fld c.pkt 3 2 0 →
      fld c.pkt 3 7 3 = 0 → fld c.pkt 3 31 9 = 0 → fbit c.pkt 3 8 = true → (valveOf s n).state = .off → startAllowed s n = true →
      ∃ t, exec (.valveSet id) s = .next t ∧ valveOf t n =
          { state := .pullIn, since := s.core.t, waiters := (valveOf s n).waiters ++ [c.id] } ∧ (∀ k, k ≠ n → valveOf t k = valveOf s k) ∧
        t.brk.set = s.brk.set) ∧
    (∀ (s : State) (id : CmdId) (c : Cmd) (n : Nat), MailRuns s 0x110 id c → s.mwr.steward = true → n = fld c.pkt 3 2 0 →
      fld c.pkt 3 7 3 = 0 → fld c.pkt 3 31 9 = 0 → fbit c.pkt 3 8 = true → (valveOf s n).state = .hold →
      (s.brk.set = true → s.brk.act.drops n = false) →
      Completes (exec (.valveSet id) s) c .success 0 0 fun u => u = heard s) ∧
    (∀ (s : State) (id : CmdId) (c : Cmd) (n : Nat), MailRuns s 0x110 id c → s.mwr.steward = true → n = fld c.pkt 3 2 0 →
      fld c.pkt 3 7 3 = 0 → fld c.pkt 3 31 9 = 0 → fbit c.pkt 3 8 = true → s.brk.set = true → s.brk.act.drops n = true →
      Completes (exec (.valveSet id) s) c .notPermitted 10 12 fun u => u = heard s) ∧
    (∀ (s : State) (id : CmdId) (c : Cmd) (n : Nat), MailRuns s 0x110 id c → s.mwr.steward = true → n = fld c.pkt 3 2 0 →
      fld c.pkt 3 7 3 = 0 → fld c.pkt 3 31 9 = 0 → fbit c.pkt 3 8 = false → (valveOf s n).state ≠ .off →
      ∃ u t, exec (.valveSet id) s = .next t ∧ t = startDeferred (settleBlank (complete c .success 0 0 u)) ∧
        (valveOf t n).state = .off ∧ t.brk.set = s.brk.set) ∧
    (∀ (s : State) (id : CmdId) (c : Cmd), MailRuns s 0x111 id c →
      Completes (exec (.valveQuery id) s) c .success (brkValve s) 0 fun u => u = heard s) ∧
    (∀ (s : State) (id : CmdId) (c : Cmd), MailRuns s 0x112 id c → s.mwr.steward = true → fld c.pkt 3 31 23 = 0 →
      valveCfgOk (dw c.pkt 3) = true → groupInUse s (dw c.pkt 3) = false →
      Completes (exec (.valveConfig id) s) c .success 0 0 fun u => u.brk.valveCfg = bits (dw c.pkt 3) 22 0 ∧ u.brk.set = s.brk.set) ∧
    (∀ (s : State) (n : Nat), s.pwr.aoIn = true → (valveOf s n).state = .pullIn → (valveOf s n).since + aoNs 2622 ≤ s.core.t →
      ∃ t, exec (.valvePullinEnd n) s = .next t ∧ valveOf t n = { state := .hold, since := s.core.t, waiters := [] }) ∧
    (∀ (s : State) (n : Nat), s.pwr.aoIn = true → (valveOf s n).state = .deferred → (valveOf s n).since + ms 200 ≤ s.core.t →
      (∀ k ∈ s.brk.deferOrder, startAllowed s k = false) →
      ∃ t, exec (.valveDeferTimeout n) s = .next t ∧ valveOf t n = { state := .off, since := s.core.t, waiters := [] }) ∧
    (∀ (s : State) (g : Nat), s.pwr.aoIn = true → g < 4 → bit s.brk.hsFault g = false →
      ∃ t, exec (.hsFault g) s = .next t ∧ t.brk.hsFault = s.brk.hsFault ||| 2 ^ g ∧ ∀ n, n < 8 → groupOfValve s.brk.valveCfg n = g →
        (valveOf s n).state ≠ .off → (valveOf t n).state = .fault) ∧
    (∀ (s : State) (g : Nat), s.pwr.aoIn = true → g < 4 → bit s.brk.hsFault g = true →
      ∃ t, exec (.hsFaultClear g) s = .next t ∧ t.brk.hsFault = s.brk.hsFault ^^^ 2 ^ g ∧ t.brk.set = s.brk.set)

/-- Slots are powered, cut and watched (R469 to R471). Clauses here rest on the model's own choices, log entries 82, 116. -/
def Obligations.Slots : Prop :=
  (∀ (s : State) (id : CmdId) (c : Cmd) (n : Nat), MailRuns s 0x120 id c → s.mwr.steward = true → n = fld c.pkt 3 2 0 →
      fld c.pkt 3 7 3 = 0 → fld c.pkt 3 31 9 = 0 → fbit c.pkt 3 8 = true → (slotOf s n).state = .off →
      (∀ k, k < 8 → k ≠ n → (slotOf s k).state ≠ .powering) → s.brk.set = false → (posOf s n).state = .healthy → s.mwr.self ≠ some n →
      ∃ t, exec (.slotSetEnable id) s = .next t ∧ slotOf t n = { slotOf s n with
          state := .powering, since := s.core.t, waiters := (slotOf s n).waiters ++ [(c.id, true, s.core.t)] } ∧
        (∀ k, k ≠ n → slotOf t k = slotOf s k) ∧ t.brk.set = false) ∧
    (∀ (s : State) (id : CmdId) (c : Cmd) (n : Nat), MailRuns s 0x120 id c → s.mwr.steward = true → n = fld c.pkt 3 2 0 →
      fld c.pkt 3 7 3 = 0 → fld c.pkt 3 31 9 = 0 → fbit c.pkt 3 8 = true → (slotOf s n).state = .off →
      (∀ k, k < 8 → k ≠ n → (slotOf s k).state ≠ .powering) → s.brk.set = true →
      Completes (exec (.slotSetEnable id) s) c .notPermitted 10 12 fun u => u = heard s) ∧
    (∀ (s : State) (id : CmdId) (c : Cmd) (n : Nat), MailRuns s 0x120 id c → s.mwr.steward = true → n = fld c.pkt 3 2 0 →
      fld c.pkt 3 7 3 = 0 → fld c.pkt 3 31 9 = 0 → fbit c.pkt 3 8 = false → (slotOf s n).pg = false →
      Completes (exec (.slotSetDisable id) s) c .success 0 0 fun u => (slotOf u n).state = .off ∧ u.brk.set = s.brk.set) ∧
    (∀ (s : State) (id : CmdId) (c : Cmd) (n : Nat), MailRuns s 0x120 id c → s.mwr.steward = true → n = fld c.pkt 3 2 0 →
      fld c.pkt 3 7 3 = 0 → fld c.pkt 3 31 9 = 0 → fbit c.pkt 3 8 = false → (slotOf s n).pg = true → (slotOf s n).waiters = [] →
      ∃ t, exec (.slotSetDisable id) s = .next t ∧ (slotOf t n).state = .off ∧ (slotOf t n).waiters = [(c.id, false, s.core.t)]) ∧
    (∀ (s : State) (n : Nat), s.pwr.aoIn = true → n < 8 → (slotOf s n).state = .powering →
      ∃ t, exec (.slotPgRise n) s = .next t ∧ (slotOf t n).state = .on ∧ (slotOf t n).pg = true ∧ t.brk.set = s.brk.set) ∧
    (∀ (s : State) (n : Nat), s.pwr.aoIn = true → n < 8 →
      ∃ t, exec (.slotPgFall n) s = .next t ∧ (slotOf t n).state = (slotOf s n).state ∧ (slotOf t n).pg = false ∧ t.brk.set = s.brk.set) ∧
    (∀ (s : State) (n : Nat), s.pwr.aoIn = true → (slotOf s n).state = .powering → (slotOf s n).since + ms 100 ≤ s.core.t →
      ∃ t, exec (.slotPoweringTimeout n) s = .next t ∧ (slotOf t n).state = .fault ∧ t.brk.set = s.brk.set) ∧
    (∀ (s : State) (n t0 : Nat) (id : CmdId) (c : Cmd), s.pwr.aoIn = true → (slotOf s n).pg = true → ms 100 ≤ s.core.t →
      (slotOf s n).waiters = [(id, false, t0)] → t0 + ms 100 ≤ s.core.t → findCmd s id = some c →
      Completes (exec (.slotDisableTimeout n) s) c .timeout 0 0 fun u => slotOf u n = { slotOf s n with waiters := [] }) ∧
    (∀ (s : State) (n : Nat), s.pwr.aoIn = true → (slotOf s n).state = .on →
      ∃ t, exec (.slotPgLoss n) s = .next t ∧ (slotOf t n).state = .fault ∧ (slotOf t n).pg = false ∧ t.brk.set = s.brk.set) ∧
    (∀ (s : State) (n : Nat), s.pwr.aoIn = true → n < 8 →
      ∃ t, exec (.slotPrsntLoss n) s = .next t ∧ (slotOf t n).state = .off ∧ bit t.brk.present n = false ∧
        posOf t n = { attempts := (posOf s n).attempts } ∧ t.brk.set = s.brk.set) ∧
    (∀ (s : State) (id : CmdId) (c : Cmd), MailRuns s 0x121 id c →
      Completes (exec (.slotQuery id) s) c .success (brkSlot s) 0 fun u => u = heard s) ∧
    (∀ (s : State) (id : CmdId) (c : Cmd), MailRuns s 0x122 id c → s.mwr.steward = true → fld c.pkt 3 31 3 = 0 →
      Completes (exec (.slotSelf id) s) c .success 0 0 fun u => u = { heard s with
        mwr := { (heard s).mwr with self := some (fld c.pkt 3 2 0) } })

/-- A step takes the command at the front of the queue with the queue's rest; with no command a nanosecond passes, the model's
choice (log entry 1). Clauses here rest on the model's own choices, log entry 1. -/
def Obligations.FrontOfQueue : Prop :=
  (∀ (c : Instr) (r : List Instr) (s : State), s.pending = c :: r → step s = exec c { s with pending := r }) ∧
    (∀ s : State, s.pending = [] → step s = .next (tick s) ∧ (tick s).core.t = s.core.t + 1 ∧
      (s.mwr.steward = false → (tick s).brk = s.brk) ∧ (tick s).pending = [])

/-- Every command answers a next state, whatever the state, and leaves the waiting commands as they are. Clauses here rest on
the model's own choices, log entry 2. -/
def Obligations.EveryCommandAnswers : Prop :=
  ∀ (c : Instr) (s : State), ∃ t, exec c s = .next t ∧ t.pending = s.pending

/-- State.reset holds what R35, R37, R44, R387, R404, R453, R461, R487 and R489 say of a cold reset that has begun: the brake
set and inhibited and not locked out, every slot and valve off, one reset cause, no command, no memory written, an empty
error log. Clauses here rest on the model's own choices, log entries 1, 5, 7, 69. -/
def Obligations.ResetValues : Prop :=
  State.reset.pending = [] ∧ State.reset.brk.set = true ∧ State.reset.brk.inhibit = true ∧ State.reset.brk.lockout = false ∧
    State.reset.brk.trips = 0 ∧ State.reset.brk.settle = some 0 ∧
    (∀ n, (slotOf State.reset n).state = .off ∧ (valveOf State.reset n).state = .off) ∧
    State.reset.core.causes = [⟨0x01, 0, true⟩] ∧ State.reset.core.time = 0 ∧ State.reset.core.roleStat = .none ∧
    State.reset.pwr.state = .exiting ∧ State.reset.pwr.pll = false ∧ State.reset.hif.cmds = [] ∧ State.reset.mem.cells = [] ∧
    State.reset.evt.elog = [] ∧ State.reset.evt.elogNext = 0

/-- The brake path is safe at State.reset: no slot is powered while the brake is set, and lock-out stands only with it set. -/
def Obligations.BrakeSafeAtReset : Prop :=
  State.reset.brk.safe

/-- Every step keeps the brake path safe: lock-out only with the brake set, and no slot powered while it is set (R461, R469).
Clauses here rest on the model's own choices, log entry 80. -/
def Obligations.BrakeSafeKept : Prop :=
  ∀ s t : State, s.brk.safe → step s = .next t → t.brk.safe

/-- A cause trips a released brake, is counted under lock-out and latches nothing under inhibit (R458, R461). -/
def Obligations.Trips : Prop :=
  (∀ (s : State) (code idx : Nat), s.brk.set = false →
      (brakeCause code idx s).brk.set = true ∧ (brakeCause code idx s).brk.lockout = true ∧
        (brakeCause code idx s).brk.tripLast = code + idx * 16 ∧ (brakeCause code idx s).brk.tripTime = aoTicks s ∧
        (brakeCause code idx s).brk.trips = sat 0xFFFF (s.brk.trips + 1) ∧
        (∀ n, n < 8 → s.brk.act.drops n = true → (valveOf (brakeCause code idx s) n).state = .off) ∧
        (∀ n, n < 8 → (slotOf (brakeCause code idx s) n).state = .off ∨ (slotOf (brakeCause code idx s) n).state = .fault)) ∧
    (∀ (s : State) (code idx : Nat), s.brk.set = true → s.brk.lockout = true → s.brk.settle = none → s.brk.tripTime = aoTicks s →
      brakeCause code idx s = { s with brk := { s.brk with
        tripLast := if code < bits s.brk.tripLast 3 0 then code + idx * 16 else s.brk.tripLast } }) ∧
    (∀ (s : State) (code idx : Nat), s.brk.set = true → s.brk.lockout = true → s.brk.settle = none → s.brk.tripTime ≠ aoTicks s →
      brakeCause code idx s = { s with brk := { s.brk with trips := sat 0xFFFF (s.brk.trips + 1) } }) ∧
    (∀ (s : State) (code idx : Nat), s.brk.set = true → s.brk.lockout = false → s.brk.settle = none → brakeCause code idx s = s) ∧
    (∀ (s : State) (code idx t0 : Nat), s.brk.set = true → s.brk.lockout = false → s.brk.settle = some t0 →
      brakeCause code idx s = { s with brk := { s.brk with settleTrip := true } }) ∧
    (∀ (s : State) (t0 : Nat), s.pwr.aoIn = true → s.brk.settle = some t0 → t0 + ms 100 ≤ s.core.t → s.brk.set = true →
      s.brk.lockout = true → ∃ u, exec .settleWindowEnd s = .next (brakeSeen u) ∧ u.brk.set = true ∧ u.brk.lockout = true) ∧
    (∀ s : State, healthy s = true ↔ (∀ n, n < 8 → s.brk.act.leakEn n = true → (leakOf s n).state = .dry) ∧
      (∀ i, i < 4 → s.brk.act.ilkEn i = true → (ilkOf s i).state = .healthy) ∧ s.brk.outPins = 0 ∧ s.brk.ioLost = false)

/-- An enabled interlock moves as the table of R457 says, and the brake acts on the first contact to open. -/
def Obligations.InterlockMoves : Prop :=
  (∀ (s : State) (i : Nat) (second closed a b : Bool) (st : IlkState), s.pwr.aoIn = true → i < 4 → s.brk.act.ilkEn i = true →
      (if second then (ilkOf s i).b else (ilkOf s i).a) ≠ closed →
      a = (if second then (ilkOf s i).a else closed) → b = (if second then closed else (ilkOf s i).b) →
      ((ilkOf s i).state = .healthy ∧ (ilkOf s i).inPlace (s.brk.act.ilkAnti i) = true ∧ st = .discrepant) ∨
        ((ilkOf s i).state = .discrepant ∧ s.core.t < (ilkOf s i).since + ms s.brk.act.discMs ∧ a = false ∧ b = s.brk.act.ilkAnti i ∧
          st = .open_) ∨
        ((ilkOf s i).state = .discrepant ∧ s.core.t < (ilkOf s i).since + ms s.brk.act.discMs ∧ a = true ∧ b = !s.brk.act.ilkAnti i ∧
          st = .healthy) ∨
        ((ilkOf s i).state = .open_ ∧ (ilkOf s i).a = false ∧ (ilkOf s i).b = s.brk.act.ilkAnti i ∧ st = .returning) ∨
        ((ilkOf s i).state = .returning ∧ s.core.t < (ilkOf s i).since + ms s.brk.act.discMs ∧ a = true ∧ b = !s.brk.act.ilkAnti i ∧
          st = .healthy) ∨
        ((ilkOf s i).state = .returning ∧ s.core.t < (ilkOf s i).since + ms s.brk.act.discMs ∧ a = false ∧ b = s.brk.act.ilkAnti i ∧
          st = .open_) →
      ∃ u, exec (.interlockContactChange i second closed) s = .next (brakeSeen u) ∧ (ilkOf u i).state = st ∧ (ilkOf u i).a = a ∧
        (ilkOf u i).b = b ∧ (st = .discrepant → u.brk.set = true ∧ (s.brk.set = false → u.brk.lockout = true ∧
          u.brk.tripLast = 2 + i * 16)) ∧ (st ≠ .discrepant → u.brk.set = s.brk.set)) ∧
    (∀ (s : State) (i : Nat), s.pwr.aoIn = true → i < 4 → s.brk.act.ilkEn i = true →
      (ilkOf s i).state = .discrepant ∨ (ilkOf s i).state = .returning → (ilkOf s i).since + ms s.brk.act.discMs ≤ s.core.t →
      ∃ u, exec (.discrepancyTimeout i) s = .next (brakeSeen u) ∧ (ilkOf u i).state = .fault ∧ u.brk.set = true ∧
        (s.brk.set = false → u.brk.lockout = true ∧ u.brk.tripLast = 3 + i * 16)) ∧
    (∀ (s : State) (i : Nat), s.pwr.aoIn = true → i < 4 → s.brk.act.ilkEn i = true → (ilkOf s i).state = .fault →
      (ilkOf s i).inPlace (s.brk.act.ilkAnti i) = true → (ilkOf s i).since + ms s.brk.act.discMs ≤ s.core.t →
      ∃ u, exec (.interlockFaultClear i) s = .next (brakeSeen u) ∧ (ilkOf u i).state = .healthy ∧ u.brk.set = s.brk.set ∧
        u.brk.lockout = s.brk.lockout) ∧
    (∀ (s : State) (i : Nat), i < 4 → s.brk.act.ilkEn i = true → (ilkOf s i).state ≠ .healthy → healthy s = false)

/-- An event ring takes records in order, counts what it cannot store and says so first, and a read gives whole records (R485 to
R488). Clauses here rest on the model's own choices, log entry 11. -/
def Obligations.EventRings : Prop :=
  (∀ (g : EvRing) (e : EventRec), g.recs.length < 1024 → g.dropped = 0 →
      g.put e = ({ g with recs := g.recs ++ [{ e with seq := g.seq }], seq := g.seq + 1 }, true)) ∧
    (∀ (g : EvRing) (e : EventRec), g.recs.length = 1024 → g.put e = ({ g with dropped := g.dropped + 1 }, false)) ∧
    (∀ (g : EvRing) (e : EventRec), g.recs.length ≤ 1022 → 0 < g.dropped →
      ∃ o : EventRec, o.code = 0x0001 ∧ o.arg = g.dropped ∧ o.seq = g.seq ∧ (g.put e).1.recs =
        g.recs ++ [o, { e with overflowBefore := true, seq := g.seq + 1 }] ∧ (g.put e).1.dropped = 0 ∧ (g.put e).2 = true) ∧
    (∀ (g : EvRing) (e : EventRec), g.recs.length ≤ 1024 → (g.put e).1.recs.length ≤ 1024 ∧ g.recs <+: (g.put e).1.recs) ∧
    (∀ (code fn obj0 obj1 pos arg arg2 : Nat) (s : State), waitReaders s fn = [] →
      ∃ e : EventRec, e.code = code ∧ e.fn = fn ∧ e.sev = severityOf code ∧ e.time = stamp s ∧ e.arg = arg % 2 ^ 64 ∧
        (raise code fn obj0 obj1 pos arg arg2 s).evt.rings.getD fn {} = ((s.evt.rings.getD fn {}).put e).1 ∧
        ∀ m, m ≠ fn → (raise code fn obj0 obj1 pos arg arg2 s).evt.rings.getD m {} = s.evt.rings.getD m {}) ∧
    (∀ (g : EvRing) (len : Nat), ringRead g len <+: g.recs ∧ 64 * (ringRead g len).length ≤ len)

/-- Checks 1 to 5 of R48 are made in order, and the first failure decides the status (R48, R49, R58, R398). Clauses here rest on
the model's own choices, log entries 12, 18, 20, 40, 100, 103. -/
def Obligations.PacketChecks : Prop :=
  (∀ (s : State) (o : Origin) (env : Option Envelope) (fast : Bool) (p : List Word), Opc.ofCode (pktOpcode p) = none →
      checkPacket s o env fast p = .error (.invalidOpcode, 0, 0)) ∧
    (∀ (s : State) (o : Origin) (env : Option Envelope) (fast : Bool) (p : List Word) (op : Opc) (off : Nat),
      Opc.ofCode (pktOpcode p) = some op → reservedAt p op = some off → checkPacket s o env fast p = .error (.invalidField, off, 0)) ∧
    (∀ (s : State) (o : Origin) (env : Option Envelope) (fast : Bool) (p : List Word) (op : Opc), Opc.ofCode (pktOpcode p) = some op →
      reservedAt p op = none → roleRefuses s op = true → checkPacket s o env fast p = .error (.notPermitted, 1, 0)) ∧
    (∀ (s : State) (o : Origin) (env : Option Envelope) (fast : Bool) (p : List Word) (op : Opc) (r : Nat),
      Opc.ofCode (pktOpcode p) = some op → reservedAt p op = none → roleRefuses s op = false → carrierRefuses o env p op = some r →
      checkPacket s o env fast p = .error (.notPermitted, r, 0)) ∧
    (∀ (s : State) (o : Origin) (env : Option Envelope) (fast : Bool) (p : List Word) (op : Opc) (r : Nat),
      Opc.ofCode (pktOpcode p) = some op → reservedAt p op = none → roleRefuses s op = false → carrierRefuses o env p op = none → pktAuth p ≠ 3 →
      issuerRefuses (originFn o) p op = some r → checkPacket s o env fast p = .error (.notPermitted, r, 0)) ∧
    (∀ (s : State) (o : Origin) (env : Option Envelope) (fast : Bool) (p : List Word) (op : Opc), Opc.ofCode (pktOpcode p) = some op →
      reservedAt p op = none → roleRefuses s op = false → carrierRefuses o env p op = none →
      pktAuth p = 3 ∨ (issuerRefuses (originFn o) p op = none ∧ (fast = true → fastOpcode op = true) ∧
        (sleepRule s = true → sleepOpcode op = true)) → checkPacket s o env fast p = .ok op) ∧
    (∀ (s : State) (op : Opc), s.core.fill = false → (s.core.role = .mill → roleRefuses s op = !op.row.mill) ∧
      (s.core.role = .granary → roleRefuses s op = !op.row.granary)) ∧
    (∀ (s : State) (o : Origin) (sq : Nat) (p : List Word) (env : Option Envelope) (input : List Byte) (st : Status) (r r2 : Nat),
      findCmd s ⟨o, pktTag p⟩ = none → s.hif.retained.getD (retKey o) {} = {} → (∀ fn, o ≠ .pcie fn) →
      checkPacket s o env false p = .error (st, r, r2) → pktOpcode p ≠ 0xA2 → Told s (arrive o sq p env input s) ∧
        (arrive o sq p env input s).hif.cmds = s.hif.cmds) ∧
    (∀ (s : State) (o : Origin) (sq : Nat) (p : List Word) (env : Option Envelope) (input : List Byte) (st : Status) (r r2 : Nat),
      findCmd s ⟨o, pktTag p⟩ = none → s.hif.retained.getD (retKey o) {} = {} → (∀ fn, o ≠ .pcie fn) →
      checkPacket s o env false p = .error (st, r, r2) → pktOpcode p = 0xA2 → (arrive o sq p env input s).store.attempts =
        s.store.attempts ++ [{ setting := fld p 2 7 0, value := dw p 3, auth := pktAuth p, outcome := st, time := stamp s
                               ticks := stampTicks s }] ∧ (arrive o sq p env input s).hif.cmds = s.hif.cmds) ∧
    (∀ (s : State) (o : Origin) (sq : Nat) (p : List Word) (env : Option Envelope) (input : List Byte) (c : Cmd),
      findCmd s ⟨o, pktTag p⟩ = some c → Told s (arrive o sq p env input s) ∧ (arrive o sq p env input s).hif.cmds = s.hif.cmds)
end

