-- ==== Sys2Proof/Laws/State.lean ====
section
/-! SUPPORT. What each update of one field of State leaves in each field. -/

namespace Sys2Proof.Machine

variable (s : State)

section
variable (f : Core → Core)
@[simp] theorem State.modCore_core : (s.modCore f).core = f s.core := rfl
@[simp] theorem State.modCore_mail : (s.modCore f).mail = s.mail := rfl
@[simp] theorem State.modCore_hif : (s.modCore f).hif = s.hif := rfl
@[simp] theorem State.modCore_usb : (s.modCore f).usb = s.usb := rfl
@[simp] theorem State.modCore_evt : (s.modCore f).evt = s.evt := rfl
@[simp] theorem State.modCore_store : (s.modCore f).store = s.store := rfl
@[simp] theorem State.modCore_mwr : (s.modCore f).mwr = s.mwr := rfl
@[simp] theorem State.modCore_prt : (s.modCore f).prt = s.prt := rfl
@[simp] theorem State.modCore_dom : (s.modCore f).dom = s.dom := rfl
@[simp] theorem State.modCore_pwr : (s.modCore f).pwr = s.pwr := rfl
@[simp] theorem State.modCore_mem : (s.modCore f).mem = s.mem := rfl
@[simp] theorem State.modCore_whl : (s.modCore f).whl = s.whl := rfl
@[simp] theorem State.modCore_trn : (s.modCore f).trn = s.trn := rfl
@[simp] theorem State.modCore_stn : (s.modCore f).stn = s.stn := rfl
@[simp] theorem State.modCore_ocp : (s.modCore f).ocp = s.ocp := rfl
@[simp] theorem State.modCore_rdm : (s.modCore f).rdm = s.rdm := rfl
@[simp] theorem State.modCore_grn : (s.modCore f).grn = s.grn := rfl
@[simp] theorem State.modCore_tly : (s.modCore f).tly = s.tly := rfl
@[simp] theorem State.modCore_chk : (s.modCore f).chk = s.chk := rfl
@[simp] theorem State.modCore_brk : (s.modCore f).brk = s.brk := rfl
@[simp] theorem State.modCore_out : (s.modCore f).out = s.out := rfl
@[simp] theorem State.modCore_freeCtr : (s.modCore f).freeCtr = s.freeCtr := rfl
@[simp] theorem State.modCore_pending : (s.modCore f).pending = s.pending := rfl
end

section
variable (f : Mail → Mail)
@[simp] theorem State.modMail_core : (s.modMail f).core = s.core := rfl
@[simp] theorem State.modMail_mail : (s.modMail f).mail = f s.mail := rfl
@[simp] theorem State.modMail_hif : (s.modMail f).hif = s.hif := rfl
@[simp] theorem State.modMail_usb : (s.modMail f).usb = s.usb := rfl
@[simp] theorem State.modMail_evt : (s.modMail f).evt = s.evt := rfl
@[simp] theorem State.modMail_store : (s.modMail f).store = s.store := rfl
@[simp] theorem State.modMail_mwr : (s.modMail f).mwr = s.mwr := rfl
@[simp] theorem State.modMail_prt : (s.modMail f).prt = s.prt := rfl
@[simp] theorem State.modMail_dom : (s.modMail f).dom = s.dom := rfl
@[simp] theorem State.modMail_pwr : (s.modMail f).pwr = s.pwr := rfl
@[simp] theorem State.modMail_mem : (s.modMail f).mem = s.mem := rfl
@[simp] theorem State.modMail_whl : (s.modMail f).whl = s.whl := rfl
@[simp] theorem State.modMail_trn : (s.modMail f).trn = s.trn := rfl
@[simp] theorem State.modMail_stn : (s.modMail f).stn = s.stn := rfl
@[simp] theorem State.modMail_ocp : (s.modMail f).ocp = s.ocp := rfl
@[simp] theorem State.modMail_rdm : (s.modMail f).rdm = s.rdm := rfl
@[simp] theorem State.modMail_grn : (s.modMail f).grn = s.grn := rfl
@[simp] theorem State.modMail_tly : (s.modMail f).tly = s.tly := rfl
@[simp] theorem State.modMail_chk : (s.modMail f).chk = s.chk := rfl
@[simp] theorem State.modMail_brk : (s.modMail f).brk = s.brk := rfl
@[simp] theorem State.modMail_out : (s.modMail f).out = s.out := rfl
@[simp] theorem State.modMail_freeCtr : (s.modMail f).freeCtr = s.freeCtr := rfl
@[simp] theorem State.modMail_pending : (s.modMail f).pending = s.pending := rfl
end

section
variable (f : Hif → Hif)
@[simp] theorem State.modHif_core : (s.modHif f).core = s.core := rfl
@[simp] theorem State.modHif_mail : (s.modHif f).mail = s.mail := rfl
@[simp] theorem State.modHif_hif : (s.modHif f).hif = f s.hif := rfl
@[simp] theorem State.modHif_usb : (s.modHif f).usb = s.usb := rfl
@[simp] theorem State.modHif_evt : (s.modHif f).evt = s.evt := rfl
@[simp] theorem State.modHif_store : (s.modHif f).store = s.store := rfl
@[simp] theorem State.modHif_mwr : (s.modHif f).mwr = s.mwr := rfl
@[simp] theorem State.modHif_prt : (s.modHif f).prt = s.prt := rfl
@[simp] theorem State.modHif_dom : (s.modHif f).dom = s.dom := rfl
@[simp] theorem State.modHif_pwr : (s.modHif f).pwr = s.pwr := rfl
@[simp] theorem State.modHif_mem : (s.modHif f).mem = s.mem := rfl
@[simp] theorem State.modHif_whl : (s.modHif f).whl = s.whl := rfl
@[simp] theorem State.modHif_trn : (s.modHif f).trn = s.trn := rfl
@[simp] theorem State.modHif_stn : (s.modHif f).stn = s.stn := rfl
@[simp] theorem State.modHif_ocp : (s.modHif f).ocp = s.ocp := rfl
@[simp] theorem State.modHif_rdm : (s.modHif f).rdm = s.rdm := rfl
@[simp] theorem State.modHif_grn : (s.modHif f).grn = s.grn := rfl
@[simp] theorem State.modHif_tly : (s.modHif f).tly = s.tly := rfl
@[simp] theorem State.modHif_chk : (s.modHif f).chk = s.chk := rfl
@[simp] theorem State.modHif_brk : (s.modHif f).brk = s.brk := rfl
@[simp] theorem State.modHif_out : (s.modHif f).out = s.out := rfl
@[simp] theorem State.modHif_freeCtr : (s.modHif f).freeCtr = s.freeCtr := rfl
@[simp] theorem State.modHif_pending : (s.modHif f).pending = s.pending := rfl
end

section
variable (f : Usb → Usb)
@[simp] theorem State.modUsb_core : (s.modUsb f).core = s.core := rfl
@[simp] theorem State.modUsb_mail : (s.modUsb f).mail = s.mail := rfl
@[simp] theorem State.modUsb_hif : (s.modUsb f).hif = s.hif := rfl
@[simp] theorem State.modUsb_usb : (s.modUsb f).usb = f s.usb := rfl
@[simp] theorem State.modUsb_evt : (s.modUsb f).evt = s.evt := rfl
@[simp] theorem State.modUsb_store : (s.modUsb f).store = s.store := rfl
@[simp] theorem State.modUsb_mwr : (s.modUsb f).mwr = s.mwr := rfl
@[simp] theorem State.modUsb_prt : (s.modUsb f).prt = s.prt := rfl
@[simp] theorem State.modUsb_dom : (s.modUsb f).dom = s.dom := rfl
@[simp] theorem State.modUsb_pwr : (s.modUsb f).pwr = s.pwr := rfl
@[simp] theorem State.modUsb_mem : (s.modUsb f).mem = s.mem := rfl
@[simp] theorem State.modUsb_whl : (s.modUsb f).whl = s.whl := rfl
@[simp] theorem State.modUsb_trn : (s.modUsb f).trn = s.trn := rfl
@[simp] theorem State.modUsb_stn : (s.modUsb f).stn = s.stn := rfl
@[simp] theorem State.modUsb_ocp : (s.modUsb f).ocp = s.ocp := rfl
@[simp] theorem State.modUsb_rdm : (s.modUsb f).rdm = s.rdm := rfl
@[simp] theorem State.modUsb_grn : (s.modUsb f).grn = s.grn := rfl
@[simp] theorem State.modUsb_tly : (s.modUsb f).tly = s.tly := rfl
@[simp] theorem State.modUsb_chk : (s.modUsb f).chk = s.chk := rfl
@[simp] theorem State.modUsb_brk : (s.modUsb f).brk = s.brk := rfl
@[simp] theorem State.modUsb_out : (s.modUsb f).out = s.out := rfl
@[simp] theorem State.modUsb_freeCtr : (s.modUsb f).freeCtr = s.freeCtr := rfl
@[simp] theorem State.modUsb_pending : (s.modUsb f).pending = s.pending := rfl
end

section
variable (f : Evt → Evt)
@[simp] theorem State.modEvt_core : (s.modEvt f).core = s.core := rfl
@[simp] theorem State.modEvt_mail : (s.modEvt f).mail = s.mail := rfl
@[simp] theorem State.modEvt_hif : (s.modEvt f).hif = s.hif := rfl
@[simp] theorem State.modEvt_usb : (s.modEvt f).usb = s.usb := rfl
@[simp] theorem State.modEvt_evt : (s.modEvt f).evt = f s.evt := rfl
@[simp] theorem State.modEvt_store : (s.modEvt f).store = s.store := rfl
@[simp] theorem State.modEvt_mwr : (s.modEvt f).mwr = s.mwr := rfl
@[simp] theorem State.modEvt_prt : (s.modEvt f).prt = s.prt := rfl
@[simp] theorem State.modEvt_dom : (s.modEvt f).dom = s.dom := rfl
@[simp] theorem State.modEvt_pwr : (s.modEvt f).pwr = s.pwr := rfl
@[simp] theorem State.modEvt_mem : (s.modEvt f).mem = s.mem := rfl
@[simp] theorem State.modEvt_whl : (s.modEvt f).whl = s.whl := rfl
@[simp] theorem State.modEvt_trn : (s.modEvt f).trn = s.trn := rfl
@[simp] theorem State.modEvt_stn : (s.modEvt f).stn = s.stn := rfl
@[simp] theorem State.modEvt_ocp : (s.modEvt f).ocp = s.ocp := rfl
@[simp] theorem State.modEvt_rdm : (s.modEvt f).rdm = s.rdm := rfl
@[simp] theorem State.modEvt_grn : (s.modEvt f).grn = s.grn := rfl
@[simp] theorem State.modEvt_tly : (s.modEvt f).tly = s.tly := rfl
@[simp] theorem State.modEvt_chk : (s.modEvt f).chk = s.chk := rfl
@[simp] theorem State.modEvt_brk : (s.modEvt f).brk = s.brk := rfl
@[simp] theorem State.modEvt_out : (s.modEvt f).out = s.out := rfl
@[simp] theorem State.modEvt_freeCtr : (s.modEvt f).freeCtr = s.freeCtr := rfl
@[simp] theorem State.modEvt_pending : (s.modEvt f).pending = s.pending := rfl
end

section
variable (f : Store → Store)
@[simp] theorem State.modStore_core : (s.modStore f).core = s.core := rfl
@[simp] theorem State.modStore_mail : (s.modStore f).mail = s.mail := rfl
@[simp] theorem State.modStore_hif : (s.modStore f).hif = s.hif := rfl
@[simp] theorem State.modStore_usb : (s.modStore f).usb = s.usb := rfl
@[simp] theorem State.modStore_evt : (s.modStore f).evt = s.evt := rfl
@[simp] theorem State.modStore_store : (s.modStore f).store = f s.store := rfl
@[simp] theorem State.modStore_mwr : (s.modStore f).mwr = s.mwr := rfl
@[simp] theorem State.modStore_prt : (s.modStore f).prt = s.prt := rfl
@[simp] theorem State.modStore_dom : (s.modStore f).dom = s.dom := rfl
@[simp] theorem State.modStore_pwr : (s.modStore f).pwr = s.pwr := rfl
@[simp] theorem State.modStore_mem : (s.modStore f).mem = s.mem := rfl
@[simp] theorem State.modStore_whl : (s.modStore f).whl = s.whl := rfl
@[simp] theorem State.modStore_trn : (s.modStore f).trn = s.trn := rfl
@[simp] theorem State.modStore_stn : (s.modStore f).stn = s.stn := rfl
@[simp] theorem State.modStore_ocp : (s.modStore f).ocp = s.ocp := rfl
@[simp] theorem State.modStore_rdm : (s.modStore f).rdm = s.rdm := rfl
@[simp] theorem State.modStore_grn : (s.modStore f).grn = s.grn := rfl
@[simp] theorem State.modStore_tly : (s.modStore f).tly = s.tly := rfl
@[simp] theorem State.modStore_chk : (s.modStore f).chk = s.chk := rfl
@[simp] theorem State.modStore_brk : (s.modStore f).brk = s.brk := rfl
@[simp] theorem State.modStore_out : (s.modStore f).out = s.out := rfl
@[simp] theorem State.modStore_freeCtr : (s.modStore f).freeCtr = s.freeCtr := rfl
@[simp] theorem State.modStore_pending : (s.modStore f).pending = s.pending := rfl
end

section
variable (f : Mwr → Mwr)
@[simp] theorem State.modMwr_core : (s.modMwr f).core = s.core := rfl
@[simp] theorem State.modMwr_mail : (s.modMwr f).mail = s.mail := rfl
@[simp] theorem State.modMwr_hif : (s.modMwr f).hif = s.hif := rfl
@[simp] theorem State.modMwr_usb : (s.modMwr f).usb = s.usb := rfl
@[simp] theorem State.modMwr_evt : (s.modMwr f).evt = s.evt := rfl
@[simp] theorem State.modMwr_store : (s.modMwr f).store = s.store := rfl
@[simp] theorem State.modMwr_mwr : (s.modMwr f).mwr = f s.mwr := rfl
@[simp] theorem State.modMwr_prt : (s.modMwr f).prt = s.prt := rfl
@[simp] theorem State.modMwr_dom : (s.modMwr f).dom = s.dom := rfl
@[simp] theorem State.modMwr_pwr : (s.modMwr f).pwr = s.pwr := rfl
@[simp] theorem State.modMwr_mem : (s.modMwr f).mem = s.mem := rfl
@[simp] theorem State.modMwr_whl : (s.modMwr f).whl = s.whl := rfl
@[simp] theorem State.modMwr_trn : (s.modMwr f).trn = s.trn := rfl
@[simp] theorem State.modMwr_stn : (s.modMwr f).stn = s.stn := rfl
@[simp] theorem State.modMwr_ocp : (s.modMwr f).ocp = s.ocp := rfl
@[simp] theorem State.modMwr_rdm : (s.modMwr f).rdm = s.rdm := rfl
@[simp] theorem State.modMwr_grn : (s.modMwr f).grn = s.grn := rfl
@[simp] theorem State.modMwr_tly : (s.modMwr f).tly = s.tly := rfl
@[simp] theorem State.modMwr_chk : (s.modMwr f).chk = s.chk := rfl
@[simp] theorem State.modMwr_brk : (s.modMwr f).brk = s.brk := rfl
@[simp] theorem State.modMwr_out : (s.modMwr f).out = s.out := rfl
@[simp] theorem State.modMwr_freeCtr : (s.modMwr f).freeCtr = s.freeCtr := rfl
@[simp] theorem State.modMwr_pending : (s.modMwr f).pending = s.pending := rfl
end

section
variable (f : Prt → Prt)
@[simp] theorem State.modPrt_core : (s.modPrt f).core = s.core := rfl
@[simp] theorem State.modPrt_mail : (s.modPrt f).mail = s.mail := rfl
@[simp] theorem State.modPrt_hif : (s.modPrt f).hif = s.hif := rfl
@[simp] theorem State.modPrt_usb : (s.modPrt f).usb = s.usb := rfl
@[simp] theorem State.modPrt_evt : (s.modPrt f).evt = s.evt := rfl
@[simp] theorem State.modPrt_store : (s.modPrt f).store = s.store := rfl
@[simp] theorem State.modPrt_mwr : (s.modPrt f).mwr = s.mwr := rfl
@[simp] theorem State.modPrt_prt : (s.modPrt f).prt = f s.prt := rfl
@[simp] theorem State.modPrt_dom : (s.modPrt f).dom = s.dom := rfl
@[simp] theorem State.modPrt_pwr : (s.modPrt f).pwr = s.pwr := rfl
@[simp] theorem State.modPrt_mem : (s.modPrt f).mem = s.mem := rfl
@[simp] theorem State.modPrt_whl : (s.modPrt f).whl = s.whl := rfl
@[simp] theorem State.modPrt_trn : (s.modPrt f).trn = s.trn := rfl
@[simp] theorem State.modPrt_stn : (s.modPrt f).stn = s.stn := rfl
@[simp] theorem State.modPrt_ocp : (s.modPrt f).ocp = s.ocp := rfl
@[simp] theorem State.modPrt_rdm : (s.modPrt f).rdm = s.rdm := rfl
@[simp] theorem State.modPrt_grn : (s.modPrt f).grn = s.grn := rfl
@[simp] theorem State.modPrt_tly : (s.modPrt f).tly = s.tly := rfl
@[simp] theorem State.modPrt_chk : (s.modPrt f).chk = s.chk := rfl
@[simp] theorem State.modPrt_brk : (s.modPrt f).brk = s.brk := rfl
@[simp] theorem State.modPrt_out : (s.modPrt f).out = s.out := rfl
@[simp] theorem State.modPrt_freeCtr : (s.modPrt f).freeCtr = s.freeCtr := rfl
@[simp] theorem State.modPrt_pending : (s.modPrt f).pending = s.pending := rfl
end

section
variable (f : Dom → Dom)
@[simp] theorem State.modDom_core : (s.modDom f).core = s.core := rfl
@[simp] theorem State.modDom_mail : (s.modDom f).mail = s.mail := rfl
@[simp] theorem State.modDom_hif : (s.modDom f).hif = s.hif := rfl
@[simp] theorem State.modDom_usb : (s.modDom f).usb = s.usb := rfl
@[simp] theorem State.modDom_evt : (s.modDom f).evt = s.evt := rfl
@[simp] theorem State.modDom_store : (s.modDom f).store = s.store := rfl
@[simp] theorem State.modDom_mwr : (s.modDom f).mwr = s.mwr := rfl
@[simp] theorem State.modDom_prt : (s.modDom f).prt = s.prt := rfl
@[simp] theorem State.modDom_dom : (s.modDom f).dom = f s.dom := rfl
@[simp] theorem State.modDom_pwr : (s.modDom f).pwr = s.pwr := rfl
@[simp] theorem State.modDom_mem : (s.modDom f).mem = s.mem := rfl
@[simp] theorem State.modDom_whl : (s.modDom f).whl = s.whl := rfl
@[simp] theorem State.modDom_trn : (s.modDom f).trn = s.trn := rfl
@[simp] theorem State.modDom_stn : (s.modDom f).stn = s.stn := rfl
@[simp] theorem State.modDom_ocp : (s.modDom f).ocp = s.ocp := rfl
@[simp] theorem State.modDom_rdm : (s.modDom f).rdm = s.rdm := rfl
@[simp] theorem State.modDom_grn : (s.modDom f).grn = s.grn := rfl
@[simp] theorem State.modDom_tly : (s.modDom f).tly = s.tly := rfl
@[simp] theorem State.modDom_chk : (s.modDom f).chk = s.chk := rfl
@[simp] theorem State.modDom_brk : (s.modDom f).brk = s.brk := rfl
@[simp] theorem State.modDom_out : (s.modDom f).out = s.out := rfl
@[simp] theorem State.modDom_freeCtr : (s.modDom f).freeCtr = s.freeCtr := rfl
@[simp] theorem State.modDom_pending : (s.modDom f).pending = s.pending := rfl
end

section
variable (f : Pwr → Pwr)
@[simp] theorem State.modPwr_core : (s.modPwr f).core = s.core := rfl
@[simp] theorem State.modPwr_mail : (s.modPwr f).mail = s.mail := rfl
@[simp] theorem State.modPwr_hif : (s.modPwr f).hif = s.hif := rfl
@[simp] theorem State.modPwr_usb : (s.modPwr f).usb = s.usb := rfl
@[simp] theorem State.modPwr_evt : (s.modPwr f).evt = s.evt := rfl
@[simp] theorem State.modPwr_store : (s.modPwr f).store = s.store := rfl
@[simp] theorem State.modPwr_mwr : (s.modPwr f).mwr = s.mwr := rfl
@[simp] theorem State.modPwr_prt : (s.modPwr f).prt = s.prt := rfl
@[simp] theorem State.modPwr_dom : (s.modPwr f).dom = s.dom := rfl
@[simp] theorem State.modPwr_pwr : (s.modPwr f).pwr = f s.pwr := rfl
@[simp] theorem State.modPwr_mem : (s.modPwr f).mem = s.mem := rfl
@[simp] theorem State.modPwr_whl : (s.modPwr f).whl = s.whl := rfl
@[simp] theorem State.modPwr_trn : (s.modPwr f).trn = s.trn := rfl
@[simp] theorem State.modPwr_stn : (s.modPwr f).stn = s.stn := rfl
@[simp] theorem State.modPwr_ocp : (s.modPwr f).ocp = s.ocp := rfl
@[simp] theorem State.modPwr_rdm : (s.modPwr f).rdm = s.rdm := rfl
@[simp] theorem State.modPwr_grn : (s.modPwr f).grn = s.grn := rfl
@[simp] theorem State.modPwr_tly : (s.modPwr f).tly = s.tly := rfl
@[simp] theorem State.modPwr_chk : (s.modPwr f).chk = s.chk := rfl
@[simp] theorem State.modPwr_brk : (s.modPwr f).brk = s.brk := rfl
@[simp] theorem State.modPwr_out : (s.modPwr f).out = s.out := rfl
@[simp] theorem State.modPwr_freeCtr : (s.modPwr f).freeCtr = s.freeCtr := rfl
@[simp] theorem State.modPwr_pending : (s.modPwr f).pending = s.pending := rfl
end

section
variable (f : Mem → Mem)
@[simp] theorem State.modMem_core : (s.modMem f).core = s.core := rfl
@[simp] theorem State.modMem_mail : (s.modMem f).mail = s.mail := rfl
@[simp] theorem State.modMem_hif : (s.modMem f).hif = s.hif := rfl
@[simp] theorem State.modMem_usb : (s.modMem f).usb = s.usb := rfl
@[simp] theorem State.modMem_evt : (s.modMem f).evt = s.evt := rfl
@[simp] theorem State.modMem_store : (s.modMem f).store = s.store := rfl
@[simp] theorem State.modMem_mwr : (s.modMem f).mwr = s.mwr := rfl
@[simp] theorem State.modMem_prt : (s.modMem f).prt = s.prt := rfl
@[simp] theorem State.modMem_dom : (s.modMem f).dom = s.dom := rfl
@[simp] theorem State.modMem_pwr : (s.modMem f).pwr = s.pwr := rfl
@[simp] theorem State.modMem_mem : (s.modMem f).mem = f s.mem := rfl
@[simp] theorem State.modMem_whl : (s.modMem f).whl = s.whl := rfl
@[simp] theorem State.modMem_trn : (s.modMem f).trn = s.trn := rfl
@[simp] theorem State.modMem_stn : (s.modMem f).stn = s.stn := rfl
@[simp] theorem State.modMem_ocp : (s.modMem f).ocp = s.ocp := rfl
@[simp] theorem State.modMem_rdm : (s.modMem f).rdm = s.rdm := rfl
@[simp] theorem State.modMem_grn : (s.modMem f).grn = s.grn := rfl
@[simp] theorem State.modMem_tly : (s.modMem f).tly = s.tly := rfl
@[simp] theorem State.modMem_chk : (s.modMem f).chk = s.chk := rfl
@[simp] theorem State.modMem_brk : (s.modMem f).brk = s.brk := rfl
@[simp] theorem State.modMem_out : (s.modMem f).out = s.out := rfl
@[simp] theorem State.modMem_freeCtr : (s.modMem f).freeCtr = s.freeCtr := rfl
@[simp] theorem State.modMem_pending : (s.modMem f).pending = s.pending := rfl
end

section
variable (f : Whl → Whl)
@[simp] theorem State.modWhl_core : (s.modWhl f).core = s.core := rfl
@[simp] theorem State.modWhl_mail : (s.modWhl f).mail = s.mail := rfl
@[simp] theorem State.modWhl_hif : (s.modWhl f).hif = s.hif := rfl
@[simp] theorem State.modWhl_usb : (s.modWhl f).usb = s.usb := rfl
@[simp] theorem State.modWhl_evt : (s.modWhl f).evt = s.evt := rfl
@[simp] theorem State.modWhl_store : (s.modWhl f).store = s.store := rfl
@[simp] theorem State.modWhl_mwr : (s.modWhl f).mwr = s.mwr := rfl
@[simp] theorem State.modWhl_prt : (s.modWhl f).prt = s.prt := rfl
@[simp] theorem State.modWhl_dom : (s.modWhl f).dom = s.dom := rfl
@[simp] theorem State.modWhl_pwr : (s.modWhl f).pwr = s.pwr := rfl
@[simp] theorem State.modWhl_mem : (s.modWhl f).mem = s.mem := rfl
@[simp] theorem State.modWhl_whl : (s.modWhl f).whl = f s.whl := rfl
@[simp] theorem State.modWhl_trn : (s.modWhl f).trn = s.trn := rfl
@[simp] theorem State.modWhl_stn : (s.modWhl f).stn = s.stn := rfl
@[simp] theorem State.modWhl_ocp : (s.modWhl f).ocp = s.ocp := rfl
@[simp] theorem State.modWhl_rdm : (s.modWhl f).rdm = s.rdm := rfl
@[simp] theorem State.modWhl_grn : (s.modWhl f).grn = s.grn := rfl
@[simp] theorem State.modWhl_tly : (s.modWhl f).tly = s.tly := rfl
@[simp] theorem State.modWhl_chk : (s.modWhl f).chk = s.chk := rfl
@[simp] theorem State.modWhl_brk : (s.modWhl f).brk = s.brk := rfl
@[simp] theorem State.modWhl_out : (s.modWhl f).out = s.out := rfl
@[simp] theorem State.modWhl_freeCtr : (s.modWhl f).freeCtr = s.freeCtr := rfl
@[simp] theorem State.modWhl_pending : (s.modWhl f).pending = s.pending := rfl
end

section
variable (f : Trn → Trn)
@[simp] theorem State.modTrn_core : (s.modTrn f).core = s.core := rfl
@[simp] theorem State.modTrn_mail : (s.modTrn f).mail = s.mail := rfl
@[simp] theorem State.modTrn_hif : (s.modTrn f).hif = s.hif := rfl
@[simp] theorem State.modTrn_usb : (s.modTrn f).usb = s.usb := rfl
@[simp] theorem State.modTrn_evt : (s.modTrn f).evt = s.evt := rfl
@[simp] theorem State.modTrn_store : (s.modTrn f).store = s.store := rfl
@[simp] theorem State.modTrn_mwr : (s.modTrn f).mwr = s.mwr := rfl
@[simp] theorem State.modTrn_prt : (s.modTrn f).prt = s.prt := rfl
@[simp] theorem State.modTrn_dom : (s.modTrn f).dom = s.dom := rfl
@[simp] theorem State.modTrn_pwr : (s.modTrn f).pwr = s.pwr := rfl
@[simp] theorem State.modTrn_mem : (s.modTrn f).mem = s.mem := rfl
@[simp] theorem State.modTrn_whl : (s.modTrn f).whl = s.whl := rfl
@[simp] theorem State.modTrn_trn : (s.modTrn f).trn = f s.trn := rfl
@[simp] theorem State.modTrn_stn : (s.modTrn f).stn = s.stn := rfl
@[simp] theorem State.modTrn_ocp : (s.modTrn f).ocp = s.ocp := rfl
@[simp] theorem State.modTrn_rdm : (s.modTrn f).rdm = s.rdm := rfl
@[simp] theorem State.modTrn_grn : (s.modTrn f).grn = s.grn := rfl
@[simp] theorem State.modTrn_tly : (s.modTrn f).tly = s.tly := rfl
@[simp] theorem State.modTrn_chk : (s.modTrn f).chk = s.chk := rfl
@[simp] theorem State.modTrn_brk : (s.modTrn f).brk = s.brk := rfl
@[simp] theorem State.modTrn_out : (s.modTrn f).out = s.out := rfl
@[simp] theorem State.modTrn_freeCtr : (s.modTrn f).freeCtr = s.freeCtr := rfl
@[simp] theorem State.modTrn_pending : (s.modTrn f).pending = s.pending := rfl
end

section
variable (f : Stn → Stn)
@[simp] theorem State.modStn_core : (s.modStn f).core = s.core := rfl
@[simp] theorem State.modStn_mail : (s.modStn f).mail = s.mail := rfl
@[simp] theorem State.modStn_hif : (s.modStn f).hif = s.hif := rfl
@[simp] theorem State.modStn_usb : (s.modStn f).usb = s.usb := rfl
@[simp] theorem State.modStn_evt : (s.modStn f).evt = s.evt := rfl
@[simp] theorem State.modStn_store : (s.modStn f).store = s.store := rfl
@[simp] theorem State.modStn_mwr : (s.modStn f).mwr = s.mwr := rfl
@[simp] theorem State.modStn_prt : (s.modStn f).prt = s.prt := rfl
@[simp] theorem State.modStn_dom : (s.modStn f).dom = s.dom := rfl
@[simp] theorem State.modStn_pwr : (s.modStn f).pwr = s.pwr := rfl
@[simp] theorem State.modStn_mem : (s.modStn f).mem = s.mem := rfl
@[simp] theorem State.modStn_whl : (s.modStn f).whl = s.whl := rfl
@[simp] theorem State.modStn_trn : (s.modStn f).trn = s.trn := rfl
@[simp] theorem State.modStn_stn : (s.modStn f).stn = f s.stn := rfl
@[simp] theorem State.modStn_ocp : (s.modStn f).ocp = s.ocp := rfl
@[simp] theorem State.modStn_rdm : (s.modStn f).rdm = s.rdm := rfl
@[simp] theorem State.modStn_grn : (s.modStn f).grn = s.grn := rfl
@[simp] theorem State.modStn_tly : (s.modStn f).tly = s.tly := rfl
@[simp] theorem State.modStn_chk : (s.modStn f).chk = s.chk := rfl
@[simp] theorem State.modStn_brk : (s.modStn f).brk = s.brk := rfl
@[simp] theorem State.modStn_out : (s.modStn f).out = s.out := rfl
@[simp] theorem State.modStn_freeCtr : (s.modStn f).freeCtr = s.freeCtr := rfl
@[simp] theorem State.modStn_pending : (s.modStn f).pending = s.pending := rfl
end

section
variable (f : Ocp → Ocp)
@[simp] theorem State.modOcp_core : (s.modOcp f).core = s.core := rfl
@[simp] theorem State.modOcp_mail : (s.modOcp f).mail = s.mail := rfl
@[simp] theorem State.modOcp_hif : (s.modOcp f).hif = s.hif := rfl
@[simp] theorem State.modOcp_usb : (s.modOcp f).usb = s.usb := rfl
@[simp] theorem State.modOcp_evt : (s.modOcp f).evt = s.evt := rfl
@[simp] theorem State.modOcp_store : (s.modOcp f).store = s.store := rfl
@[simp] theorem State.modOcp_mwr : (s.modOcp f).mwr = s.mwr := rfl
@[simp] theorem State.modOcp_prt : (s.modOcp f).prt = s.prt := rfl
@[simp] theorem State.modOcp_dom : (s.modOcp f).dom = s.dom := rfl
@[simp] theorem State.modOcp_pwr : (s.modOcp f).pwr = s.pwr := rfl
@[simp] theorem State.modOcp_mem : (s.modOcp f).mem = s.mem := rfl
@[simp] theorem State.modOcp_whl : (s.modOcp f).whl = s.whl := rfl
@[simp] theorem State.modOcp_trn : (s.modOcp f).trn = s.trn := rfl
@[simp] theorem State.modOcp_stn : (s.modOcp f).stn = s.stn := rfl
@[simp] theorem State.modOcp_ocp : (s.modOcp f).ocp = f s.ocp := rfl
@[simp] theorem State.modOcp_rdm : (s.modOcp f).rdm = s.rdm := rfl
@[simp] theorem State.modOcp_grn : (s.modOcp f).grn = s.grn := rfl
@[simp] theorem State.modOcp_tly : (s.modOcp f).tly = s.tly := rfl
@[simp] theorem State.modOcp_chk : (s.modOcp f).chk = s.chk := rfl
@[simp] theorem State.modOcp_brk : (s.modOcp f).brk = s.brk := rfl
@[simp] theorem State.modOcp_out : (s.modOcp f).out = s.out := rfl
@[simp] theorem State.modOcp_freeCtr : (s.modOcp f).freeCtr = s.freeCtr := rfl
@[simp] theorem State.modOcp_pending : (s.modOcp f).pending = s.pending := rfl
end

section
variable (f : Rdm → Rdm)
@[simp] theorem State.modRdm_core : (s.modRdm f).core = s.core := rfl
@[simp] theorem State.modRdm_mail : (s.modRdm f).mail = s.mail := rfl
@[simp] theorem State.modRdm_hif : (s.modRdm f).hif = s.hif := rfl
@[simp] theorem State.modRdm_usb : (s.modRdm f).usb = s.usb := rfl
@[simp] theorem State.modRdm_evt : (s.modRdm f).evt = s.evt := rfl
@[simp] theorem State.modRdm_store : (s.modRdm f).store = s.store := rfl
@[simp] theorem State.modRdm_mwr : (s.modRdm f).mwr = s.mwr := rfl
@[simp] theorem State.modRdm_prt : (s.modRdm f).prt = s.prt := rfl
@[simp] theorem State.modRdm_dom : (s.modRdm f).dom = s.dom := rfl
@[simp] theorem State.modRdm_pwr : (s.modRdm f).pwr = s.pwr := rfl
@[simp] theorem State.modRdm_mem : (s.modRdm f).mem = s.mem := rfl
@[simp] theorem State.modRdm_whl : (s.modRdm f).whl = s.whl := rfl
@[simp] theorem State.modRdm_trn : (s.modRdm f).trn = s.trn := rfl
@[simp] theorem State.modRdm_stn : (s.modRdm f).stn = s.stn := rfl
@[simp] theorem State.modRdm_ocp : (s.modRdm f).ocp = s.ocp := rfl
@[simp] theorem State.modRdm_rdm : (s.modRdm f).rdm = f s.rdm := rfl
@[simp] theorem State.modRdm_grn : (s.modRdm f).grn = s.grn := rfl
@[simp] theorem State.modRdm_tly : (s.modRdm f).tly = s.tly := rfl
@[simp] theorem State.modRdm_chk : (s.modRdm f).chk = s.chk := rfl
@[simp] theorem State.modRdm_brk : (s.modRdm f).brk = s.brk := rfl
@[simp] theorem State.modRdm_out : (s.modRdm f).out = s.out := rfl
@[simp] theorem State.modRdm_freeCtr : (s.modRdm f).freeCtr = s.freeCtr := rfl
@[simp] theorem State.modRdm_pending : (s.modRdm f).pending = s.pending := rfl
end

section
variable (f : Grn → Grn)
@[simp] theorem State.modGrn_core : (s.modGrn f).core = s.core := rfl
@[simp] theorem State.modGrn_mail : (s.modGrn f).mail = s.mail := rfl
@[simp] theorem State.modGrn_hif : (s.modGrn f).hif = s.hif := rfl
@[simp] theorem State.modGrn_usb : (s.modGrn f).usb = s.usb := rfl
@[simp] theorem State.modGrn_evt : (s.modGrn f).evt = s.evt := rfl
@[simp] theorem State.modGrn_store : (s.modGrn f).store = s.store := rfl
@[simp] theorem State.modGrn_mwr : (s.modGrn f).mwr = s.mwr := rfl
@[simp] theorem State.modGrn_prt : (s.modGrn f).prt = s.prt := rfl
@[simp] theorem State.modGrn_dom : (s.modGrn f).dom = s.dom := rfl
@[simp] theorem State.modGrn_pwr : (s.modGrn f).pwr = s.pwr := rfl
@[simp] theorem State.modGrn_mem : (s.modGrn f).mem = s.mem := rfl
@[simp] theorem State.modGrn_whl : (s.modGrn f).whl = s.whl := rfl
@[simp] theorem State.modGrn_trn : (s.modGrn f).trn = s.trn := rfl
@[simp] theorem State.modGrn_stn : (s.modGrn f).stn = s.stn := rfl
@[simp] theorem State.modGrn_ocp : (s.modGrn f).ocp = s.ocp := rfl
@[simp] theorem State.modGrn_rdm : (s.modGrn f).rdm = s.rdm := rfl
@[simp] theorem State.modGrn_grn : (s.modGrn f).grn = f s.grn := rfl
@[simp] theorem State.modGrn_tly : (s.modGrn f).tly = s.tly := rfl
@[simp] theorem State.modGrn_chk : (s.modGrn f).chk = s.chk := rfl
@[simp] theorem State.modGrn_brk : (s.modGrn f).brk = s.brk := rfl
@[simp] theorem State.modGrn_out : (s.modGrn f).out = s.out := rfl
@[simp] theorem State.modGrn_freeCtr : (s.modGrn f).freeCtr = s.freeCtr := rfl
@[simp] theorem State.modGrn_pending : (s.modGrn f).pending = s.pending := rfl
end

section
variable (f : Tly → Tly)
@[simp] theorem State.modTly_core : (s.modTly f).core = s.core := rfl
@[simp] theorem State.modTly_mail : (s.modTly f).mail = s.mail := rfl
@[simp] theorem State.modTly_hif : (s.modTly f).hif = s.hif := rfl
@[simp] theorem State.modTly_usb : (s.modTly f).usb = s.usb := rfl
@[simp] theorem State.modTly_evt : (s.modTly f).evt = s.evt := rfl
@[simp] theorem State.modTly_store : (s.modTly f).store = s.store := rfl
@[simp] theorem State.modTly_mwr : (s.modTly f).mwr = s.mwr := rfl
@[simp] theorem State.modTly_prt : (s.modTly f).prt = s.prt := rfl
@[simp] theorem State.modTly_dom : (s.modTly f).dom = s.dom := rfl
@[simp] theorem State.modTly_pwr : (s.modTly f).pwr = s.pwr := rfl
@[simp] theorem State.modTly_mem : (s.modTly f).mem = s.mem := rfl
@[simp] theorem State.modTly_whl : (s.modTly f).whl = s.whl := rfl
@[simp] theorem State.modTly_trn : (s.modTly f).trn = s.trn := rfl
@[simp] theorem State.modTly_stn : (s.modTly f).stn = s.stn := rfl
@[simp] theorem State.modTly_ocp : (s.modTly f).ocp = s.ocp := rfl
@[simp] theorem State.modTly_rdm : (s.modTly f).rdm = s.rdm := rfl
@[simp] theorem State.modTly_grn : (s.modTly f).grn = s.grn := rfl
@[simp] theorem State.modTly_tly : (s.modTly f).tly = f s.tly := rfl
@[simp] theorem State.modTly_chk : (s.modTly f).chk = s.chk := rfl
@[simp] theorem State.modTly_brk : (s.modTly f).brk = s.brk := rfl
@[simp] theorem State.modTly_out : (s.modTly f).out = s.out := rfl
@[simp] theorem State.modTly_freeCtr : (s.modTly f).freeCtr = s.freeCtr := rfl
@[simp] theorem State.modTly_pending : (s.modTly f).pending = s.pending := rfl
end

section
variable (f : Chk → Chk)
@[simp] theorem State.modChk_core : (s.modChk f).core = s.core := rfl
@[simp] theorem State.modChk_mail : (s.modChk f).mail = s.mail := rfl
@[simp] theorem State.modChk_hif : (s.modChk f).hif = s.hif := rfl
@[simp] theorem State.modChk_usb : (s.modChk f).usb = s.usb := rfl
@[simp] theorem State.modChk_evt : (s.modChk f).evt = s.evt := rfl
@[simp] theorem State.modChk_store : (s.modChk f).store = s.store := rfl
@[simp] theorem State.modChk_mwr : (s.modChk f).mwr = s.mwr := rfl
@[simp] theorem State.modChk_prt : (s.modChk f).prt = s.prt := rfl
@[simp] theorem State.modChk_dom : (s.modChk f).dom = s.dom := rfl
@[simp] theorem State.modChk_pwr : (s.modChk f).pwr = s.pwr := rfl
@[simp] theorem State.modChk_mem : (s.modChk f).mem = s.mem := rfl
@[simp] theorem State.modChk_whl : (s.modChk f).whl = s.whl := rfl
@[simp] theorem State.modChk_trn : (s.modChk f).trn = s.trn := rfl
@[simp] theorem State.modChk_stn : (s.modChk f).stn = s.stn := rfl
@[simp] theorem State.modChk_ocp : (s.modChk f).ocp = s.ocp := rfl
@[simp] theorem State.modChk_rdm : (s.modChk f).rdm = s.rdm := rfl
@[simp] theorem State.modChk_grn : (s.modChk f).grn = s.grn := rfl
@[simp] theorem State.modChk_tly : (s.modChk f).tly = s.tly := rfl
@[simp] theorem State.modChk_chk : (s.modChk f).chk = f s.chk := rfl
@[simp] theorem State.modChk_brk : (s.modChk f).brk = s.brk := rfl
@[simp] theorem State.modChk_out : (s.modChk f).out = s.out := rfl
@[simp] theorem State.modChk_freeCtr : (s.modChk f).freeCtr = s.freeCtr := rfl
@[simp] theorem State.modChk_pending : (s.modChk f).pending = s.pending := rfl
end

section
variable (f : Brk → Brk)
@[simp] theorem State.modBrk_core : (s.modBrk f).core = s.core := rfl
@[simp] theorem State.modBrk_mail : (s.modBrk f).mail = s.mail := rfl
@[simp] theorem State.modBrk_hif : (s.modBrk f).hif = s.hif := rfl
@[simp] theorem State.modBrk_usb : (s.modBrk f).usb = s.usb := rfl
@[simp] theorem State.modBrk_evt : (s.modBrk f).evt = s.evt := rfl
@[simp] theorem State.modBrk_store : (s.modBrk f).store = s.store := rfl
@[simp] theorem State.modBrk_mwr : (s.modBrk f).mwr = s.mwr := rfl
@[simp] theorem State.modBrk_prt : (s.modBrk f).prt = s.prt := rfl
@[simp] theorem State.modBrk_dom : (s.modBrk f).dom = s.dom := rfl
@[simp] theorem State.modBrk_pwr : (s.modBrk f).pwr = s.pwr := rfl
@[simp] theorem State.modBrk_mem : (s.modBrk f).mem = s.mem := rfl
@[simp] theorem State.modBrk_whl : (s.modBrk f).whl = s.whl := rfl
@[simp] theorem State.modBrk_trn : (s.modBrk f).trn = s.trn := rfl
@[simp] theorem State.modBrk_stn : (s.modBrk f).stn = s.stn := rfl
@[simp] theorem State.modBrk_ocp : (s.modBrk f).ocp = s.ocp := rfl
@[simp] theorem State.modBrk_rdm : (s.modBrk f).rdm = s.rdm := rfl
@[simp] theorem State.modBrk_grn : (s.modBrk f).grn = s.grn := rfl
@[simp] theorem State.modBrk_tly : (s.modBrk f).tly = s.tly := rfl
@[simp] theorem State.modBrk_chk : (s.modBrk f).chk = s.chk := rfl
@[simp] theorem State.modBrk_brk : (s.modBrk f).brk = f s.brk := rfl
@[simp] theorem State.modBrk_out : (s.modBrk f).out = s.out := rfl
@[simp] theorem State.modBrk_freeCtr : (s.modBrk f).freeCtr = s.freeCtr := rfl
@[simp] theorem State.modBrk_pending : (s.modBrk f).pending = s.pending := rfl
end

section
variable (f : (List Output) → (List Output))
@[simp] theorem State.modOut_core : (s.modOut f).core = s.core := rfl
@[simp] theorem State.modOut_mail : (s.modOut f).mail = s.mail := rfl
@[simp] theorem State.modOut_hif : (s.modOut f).hif = s.hif := rfl
@[simp] theorem State.modOut_usb : (s.modOut f).usb = s.usb := rfl
@[simp] theorem State.modOut_evt : (s.modOut f).evt = s.evt := rfl
@[simp] theorem State.modOut_store : (s.modOut f).store = s.store := rfl
@[simp] theorem State.modOut_mwr : (s.modOut f).mwr = s.mwr := rfl
@[simp] theorem State.modOut_prt : (s.modOut f).prt = s.prt := rfl
@[simp] theorem State.modOut_dom : (s.modOut f).dom = s.dom := rfl
@[simp] theorem State.modOut_pwr : (s.modOut f).pwr = s.pwr := rfl
@[simp] theorem State.modOut_mem : (s.modOut f).mem = s.mem := rfl
@[simp] theorem State.modOut_whl : (s.modOut f).whl = s.whl := rfl
@[simp] theorem State.modOut_trn : (s.modOut f).trn = s.trn := rfl
@[simp] theorem State.modOut_stn : (s.modOut f).stn = s.stn := rfl
@[simp] theorem State.modOut_ocp : (s.modOut f).ocp = s.ocp := rfl
@[simp] theorem State.modOut_rdm : (s.modOut f).rdm = s.rdm := rfl
@[simp] theorem State.modOut_grn : (s.modOut f).grn = s.grn := rfl
@[simp] theorem State.modOut_tly : (s.modOut f).tly = s.tly := rfl
@[simp] theorem State.modOut_chk : (s.modOut f).chk = s.chk := rfl
@[simp] theorem State.modOut_brk : (s.modOut f).brk = s.brk := rfl
@[simp] theorem State.modOut_out : (s.modOut f).out = f s.out := rfl
@[simp] theorem State.modOut_freeCtr : (s.modOut f).freeCtr = s.freeCtr := rfl
@[simp] theorem State.modOut_pending : (s.modOut f).pending = s.pending := rfl
end

section
variable (f : Nat → Nat)
@[simp] theorem State.modFreeCtr_core : (s.modFreeCtr f).core = s.core := rfl
@[simp] theorem State.modFreeCtr_mail : (s.modFreeCtr f).mail = s.mail := rfl
@[simp] theorem State.modFreeCtr_hif : (s.modFreeCtr f).hif = s.hif := rfl
@[simp] theorem State.modFreeCtr_usb : (s.modFreeCtr f).usb = s.usb := rfl
@[simp] theorem State.modFreeCtr_evt : (s.modFreeCtr f).evt = s.evt := rfl
@[simp] theorem State.modFreeCtr_store : (s.modFreeCtr f).store = s.store := rfl
@[simp] theorem State.modFreeCtr_mwr : (s.modFreeCtr f).mwr = s.mwr := rfl
@[simp] theorem State.modFreeCtr_prt : (s.modFreeCtr f).prt = s.prt := rfl
@[simp] theorem State.modFreeCtr_dom : (s.modFreeCtr f).dom = s.dom := rfl
@[simp] theorem State.modFreeCtr_pwr : (s.modFreeCtr f).pwr = s.pwr := rfl
@[simp] theorem State.modFreeCtr_mem : (s.modFreeCtr f).mem = s.mem := rfl
@[simp] theorem State.modFreeCtr_whl : (s.modFreeCtr f).whl = s.whl := rfl
@[simp] theorem State.modFreeCtr_trn : (s.modFreeCtr f).trn = s.trn := rfl
@[simp] theorem State.modFreeCtr_stn : (s.modFreeCtr f).stn = s.stn := rfl
@[simp] theorem State.modFreeCtr_ocp : (s.modFreeCtr f).ocp = s.ocp := rfl
@[simp] theorem State.modFreeCtr_rdm : (s.modFreeCtr f).rdm = s.rdm := rfl
@[simp] theorem State.modFreeCtr_grn : (s.modFreeCtr f).grn = s.grn := rfl
@[simp] theorem State.modFreeCtr_tly : (s.modFreeCtr f).tly = s.tly := rfl
@[simp] theorem State.modFreeCtr_chk : (s.modFreeCtr f).chk = s.chk := rfl
@[simp] theorem State.modFreeCtr_brk : (s.modFreeCtr f).brk = s.brk := rfl
@[simp] theorem State.modFreeCtr_out : (s.modFreeCtr f).out = s.out := rfl
@[simp] theorem State.modFreeCtr_freeCtr : (s.modFreeCtr f).freeCtr = f s.freeCtr := rfl
@[simp] theorem State.modFreeCtr_pending : (s.modFreeCtr f).pending = s.pending := rfl
end

section
variable (f : (List Instr) → (List Instr))
@[simp] theorem State.modPending_core : (s.modPending f).core = s.core := rfl
@[simp] theorem State.modPending_mail : (s.modPending f).mail = s.mail := rfl
@[simp] theorem State.modPending_hif : (s.modPending f).hif = s.hif := rfl
@[simp] theorem State.modPending_usb : (s.modPending f).usb = s.usb := rfl
@[simp] theorem State.modPending_evt : (s.modPending f).evt = s.evt := rfl
@[simp] theorem State.modPending_store : (s.modPending f).store = s.store := rfl
@[simp] theorem State.modPending_mwr : (s.modPending f).mwr = s.mwr := rfl
@[simp] theorem State.modPending_prt : (s.modPending f).prt = s.prt := rfl
@[simp] theorem State.modPending_dom : (s.modPending f).dom = s.dom := rfl
@[simp] theorem State.modPending_pwr : (s.modPending f).pwr = s.pwr := rfl
@[simp] theorem State.modPending_mem : (s.modPending f).mem = s.mem := rfl
@[simp] theorem State.modPending_whl : (s.modPending f).whl = s.whl := rfl
@[simp] theorem State.modPending_trn : (s.modPending f).trn = s.trn := rfl
@[simp] theorem State.modPending_stn : (s.modPending f).stn = s.stn := rfl
@[simp] theorem State.modPending_ocp : (s.modPending f).ocp = s.ocp := rfl
@[simp] theorem State.modPending_rdm : (s.modPending f).rdm = s.rdm := rfl
@[simp] theorem State.modPending_grn : (s.modPending f).grn = s.grn := rfl
@[simp] theorem State.modPending_tly : (s.modPending f).tly = s.tly := rfl
@[simp] theorem State.modPending_chk : (s.modPending f).chk = s.chk := rfl
@[simp] theorem State.modPending_brk : (s.modPending f).brk = s.brk := rfl
@[simp] theorem State.modPending_out : (s.modPending f).out = s.out := rfl
@[simp] theorem State.modPending_freeCtr : (s.modPending f).freeCtr = s.freeCtr := rfl
@[simp] theorem State.modPending_pending : (s.modPending f).pending = f s.pending := rfl
end

end Sys2Proof.Machine
end

