-- ==== Sys2Proof/Laws/Frame.lean ====
section
/-! SUPPORT. No shared operation outside the brake path touches the brake path's state, and none touches the queue. -/

set_option linter.unusedSimpArgs false
set_option linter.tactic.unusedName false

namespace Sys2Proof.Machine

/-- What no operation outside the brake path touches: the brake path's state and the queue of waiting commands. -/
def State.still (s : State) : Brk × List Instr := (s.brk, s.pending)
theorem State.modCore_still (s : State) (f : Core → Core) : (s.modCore f).still = s.still := rfl
theorem State.modMail_still (s : State) (f : Mail → Mail) : (s.modMail f).still = s.still := rfl
theorem State.modHif_still (s : State) (f : Hif → Hif) : (s.modHif f).still = s.still := rfl
theorem State.modUsb_still (s : State) (f : Usb → Usb) : (s.modUsb f).still = s.still := rfl
theorem State.modEvt_still (s : State) (f : Evt → Evt) : (s.modEvt f).still = s.still := rfl
theorem State.modStore_still (s : State) (f : Store → Store) : (s.modStore f).still = s.still := rfl
theorem State.modMwr_still (s : State) (f : Mwr → Mwr) : (s.modMwr f).still = s.still := rfl
theorem State.modPrt_still (s : State) (f : Prt → Prt) : (s.modPrt f).still = s.still := rfl
theorem State.modDom_still (s : State) (f : Dom → Dom) : (s.modDom f).still = s.still := rfl
theorem State.modPwr_still (s : State) (f : Pwr → Pwr) : (s.modPwr f).still = s.still := rfl
theorem State.modMem_still (s : State) (f : Mem → Mem) : (s.modMem f).still = s.still := rfl
theorem State.modWhl_still (s : State) (f : Whl → Whl) : (s.modWhl f).still = s.still := rfl
theorem State.modTrn_still (s : State) (f : Trn → Trn) : (s.modTrn f).still = s.still := rfl
theorem State.modStn_still (s : State) (f : Stn → Stn) : (s.modStn f).still = s.still := rfl
theorem State.modOcp_still (s : State) (f : Ocp → Ocp) : (s.modOcp f).still = s.still := rfl
theorem State.modRdm_still (s : State) (f : Rdm → Rdm) : (s.modRdm f).still = s.still := rfl
theorem State.modGrn_still (s : State) (f : Grn → Grn) : (s.modGrn f).still = s.still := rfl
theorem State.modTly_still (s : State) (f : Tly → Tly) : (s.modTly f).still = s.still := rfl
theorem State.modChk_still (s : State) (f : Chk → Chk) : (s.modChk f).still = s.still := rfl
theorem State.modOut_still (s : State) (f : List Output → List Output) : (s.modOut f).still = s.still := rfl
theorem State.modFreeCtr_still (s : State) (f : Nat → Nat) : (s.modFreeCtr f).still = s.still := rfl
theorem foldl_still {α : Type} (l : List α) (f : State → α → State) (s : State) (h : ∀ s a, (f s a).still = s.still) :
    (l.foldl f s).still = s.still := by
  induction l generalizing s with
  | nil => rfl
  | cons a l ih => simp only [List.foldl_cons]; rw [ih, h]
theorem forEach_still (l : List Nat) (f : Nat → State → State) (s : State) (h : ∀ n s, (f n s).still = s.still) :
    (forEach l f s).still = s.still := by
  unfold forEach; exact foldl_still _ _ _ (fun s a => h a s)
theorem checks_still {l : List (Bool × (State → State))} {k : State → State} {s : State} (hl : ∀ e ∈ l, (e.2 s).still = s.still)
    (hk : (k s).still = s.still) : (checks l k s).still = s.still := by
  induction l with
  | nil => exact hk
  | cons e l ih =>
    obtain ⟨b, f⟩ := e
    unfold checks; split
    · exact hl _ (List.mem_cons_self ..)
    · exact ih (fun e he => hl e (List.mem_cons_of_mem _ he))
theorem ite_still {c : Prop} [Decidable c] {a b x : State} (ha : a.still = x.still) (hb : b.still = x.still) : (if c then a else b).still = x.still := by split <;> assumption
theorem foldlSnd_still {α β : Type} (l : List α) (f : β × State → α → β × State) (a : β × State)
    (h : ∀ a x, (f a x).2.still = a.2.still) : (l.foldl f a).2.still = a.2.still := by
  induction l generalizing a with
  | nil => rfl
  | cons x l ih => exact (ih ..).trans (h ..)

theorem modPdom_still (d : Nat) (f : PDom → PDom) (s : State) : (modPdom d f s).still = s.still := by
  unfold modPdom; repeat' first | with_reducible rfl | with_reducible refine (State.modPwr_still ..).trans ?_ | with_reducible refine ite_still ?_ ?_ | extract_lets | intro _ | split
theorem settle_still (d : Nat) (s : State) : (settle d s).still = s.still := by
  unfold settle; repeat' first | with_reducible rfl | with_reducible refine (modPdom_still ..).trans ?_ | with_reducible refine ite_still ?_ ?_ | extract_lets | intro _ | split
theorem settleVotes_still (s : State) : (settleVotes s).still = s.still := by
  unfold settleVotes; repeat' first | with_reducible rfl | with_reducible refine (settle_still ..).trans ?_ | with_reducible refine ite_still ?_ ?_ | with_reducible refine (forEach_still _ _ _ fun _ _ => ?_).trans ?_ | extract_lets | intro _ | split
theorem modPort_still (p : Nat) (f : Port → Port) (s : State) : (modPort p f s).still = s.still := by
  unfold modPort; repeat' first | with_reducible rfl | with_reducible refine (State.modPrt_still ..).trans ?_ | with_reducible refine ite_still ?_ ?_ | extract_lets | intro _ | split
theorem retrainPorts_still (s : State) : (retrainPorts s).still = s.still := by
  unfold retrainPorts; repeat' first | with_reducible rfl | with_reducible refine (modPort_still ..).trans ?_ | with_reducible refine ite_still ?_ ?_ | with_reducible refine (forEach_still _ _ _ fun _ _ => ?_).trans ?_ | extract_lets | intro _ | split
theorem restorePorts_still (s : State) : (restorePorts s).still = s.still := by
  unfold restorePorts; repeat' first | with_reducible rfl | with_reducible refine (settleVotes_still ..).trans ?_ | with_reducible refine (retrainPorts_still ..).trans ?_ | with_reducible refine ite_still ?_ ?_ | extract_lets | intro _ | split
theorem noteLevels_still (f : State → State) (s : State) (hf : ∀ x0, (f x0).still = x0.still) : (noteLevels f s).still = s.still := by
  unfold noteLevels; repeat' first | with_reducible rfl | with_reducible refine (modPdom_still ..).trans ?_ | with_reducible refine (hf ..).trans ?_ | with_reducible refine ite_still ?_ ?_ | with_reducible refine (forEach_still _ _ _ fun _ _ => ?_).trans ?_ | extract_lets | intro _ | split
theorem updCmd_still (id : CmdId) (f : Cmd → Cmd) (s : State) : (updCmd id f s).still = s.still := by
  unfold updCmd; repeat' first | with_reducible rfl | with_reducible refine (State.modHif_still ..).trans ?_ | with_reducible refine ite_still ?_ ?_ | extract_lets | intro _ | split
theorem emit_still (o : Output) (s : State) : (emit o s).still = s.still := by
  unfold emit; repeat' first | with_reducible rfl | with_reducible refine (State.modOut_still ..).trans ?_ | with_reducible refine ite_still ?_ ?_ | extract_lets | intro _ | split
theorem sendBy_still (to_ : Nat) (b : DomBody) (p : Nat) (s : State) : (sendBy to_ b p s).still = s.still := by
  unfold sendBy; repeat' first | with_reducible rfl | with_reducible refine (emit_still ..).trans ?_ | with_reducible refine (State.modDom_still ..).trans ?_ | with_reducible refine ite_still ?_ ?_ | extract_lets | intro _ | split
theorem sendMsg_still (to_ : Nat) (b : DomBody) (s : State) : (sendMsg to_ b s).still = s.still := by
  unfold sendMsg; repeat' first | with_reducible rfl | with_reducible refine (sendBy_still ..).trans ?_ | with_reducible refine ite_still ?_ ?_ | extract_lets | intro _ | split
theorem retain_still (o : Origin) (r : RetRec) (s : State) : (retain o r s).still = s.still := by
  unfold retain; repeat' first | with_reducible rfl | with_reducible refine (State.modHif_still ..).trans ?_ | with_reducible refine ite_still ?_ ?_ | extract_lets | intro _ | split
theorem retainAll_still (fn : Nat) (l : List CqItem) (s : State) : (retainAll fn l s).still = s.still := by
  unfold retainAll; repeat' first | with_reducible rfl | with_reducible refine (retain_still ..).trans ?_ | with_reducible refine ite_still ?_ ?_ | with_reducible refine (foldl_still _ _ _ fun _ _ => ?_).trans ?_ | extract_lets | intro _ | split
theorem flagErr_still (fn : Nat) (b : Nat) (qid : Nat) (s : State) : (flagErr fn b qid s).still = s.still := by
  unfold flagErr; repeat' first | with_reducible rfl | with_reducible refine (State.modHif_still ..).trans ?_ | with_reducible refine ite_still ?_ ?_ | extract_lets | intro _ | split
theorem cqWrite_still (q : Nat) (i : CqItem) (s : State) : (cqWrite q i s).still = s.still := by
  unfold cqWrite; repeat' first | with_reducible rfl | with_reducible refine (emit_still ..).trans ?_ | with_reducible refine (State.modHif_still ..).trans ?_ | with_reducible refine ite_still ?_ ?_ | extract_lets | intro _ | split
theorem cqPut_still (fn : Nat) (q : Nat) (i : CqItem) (s : State) : (cqPut fn q i s).still = s.still := by
  unfold cqPut; repeat' first | with_reducible rfl | with_reducible refine (retain_still ..).trans ?_ | with_reducible refine (retainAll_still ..).trans ?_ | with_reducible refine (flagErr_still ..).trans ?_ | with_reducible refine (cqWrite_still ..).trans ?_ | with_reducible refine (State.modHif_still ..).trans ?_ | with_reducible refine ite_still ?_ ?_ | extract_lets | intro _ | split
theorem deliverK_still (c : Cmd) (k : Completion) (out : List Byte) (s : State) : (deliverK c k out s).still = s.still := by
  unfold deliverK; repeat' first | with_reducible rfl | with_reducible refine (sendMsg_still ..).trans ?_ | with_reducible refine (State.modUsb_still ..).trans ?_ | with_reducible refine (retain_still ..).trans ?_ | with_reducible refine (cqPut_still ..).trans ?_ | with_reducible refine ite_still ?_ ?_ | extract_lets | intro _ | split
theorem dropCmd_still (id : CmdId) (s : State) : (dropCmd id s).still = s.still := by
  unfold dropCmd; repeat' first | with_reducible rfl | with_reducible refine (State.modHif_still ..).trans ?_ | with_reducible refine ite_still ?_ ?_ | extract_lets | intro _ | split
theorem deliver_still (c : Cmd) (k : Completion) (s : State) : (deliver c k s).still = s.still := by
  unfold deliver; repeat' first | with_reducible rfl | with_reducible refine (State.modUsb_still ..).trans ?_ | with_reducible refine (deliverK_still ..).trans ?_ | with_reducible refine (dropCmd_still ..).trans ?_ | with_reducible refine ite_still ?_ ?_ | extract_lets | intro _ | split
theorem completeK_still (c : Cmd) (k : Completion) (s : State) : (completeK c k s).still = s.still := by
  unfold completeK; repeat' first | with_reducible rfl | with_reducible refine (State.modMwr_still ..).trans ?_ | with_reducible refine (State.modMail_still ..).trans ?_ | with_reducible refine (updCmd_still ..).trans ?_ | with_reducible refine (deliver_still ..).trans ?_ | with_reducible refine ite_still ?_ ?_ | extract_lets | intro _ | split
theorem complete_still (c : Cmd) (st : Status) (result : Nat) (result2 : Nat) (s : State) : (complete c st result result2 s).still = s.still := by
  unfold complete; repeat' first | with_reducible rfl | with_reducible refine (completeK_still ..).trans ?_ | with_reducible refine ite_still ?_ ?_ | extract_lets | intro _ | split
theorem emitData_still (c : Cmd) (addr : Nat) (data : List Byte) (s : State) : (emitData c addr data s).still = s.still := by
  unfold emitData; repeat' first | with_reducible rfl | with_reducible refine (State.modUsb_still ..).trans ?_ | with_reducible refine (emit_still ..).trans ?_ | with_reducible refine ite_still ?_ ?_ | extract_lets | intro _ | split
theorem answerRing_still (c : Cmd) (s : State) : (answerRing c s).still = s.still := by
  unfold answerRing; repeat' first | with_reducible rfl | with_reducible refine (complete_still ..).trans ?_ | with_reducible refine (State.modEvt_still ..).trans ?_ | with_reducible refine (emitData_still ..).trans ?_ | with_reducible refine ite_still ?_ ?_ | extract_lets | intro _ | split
theorem answerWait_still (s : State) (c : Cmd) : (answerWait s c).still = s.still := by
  unfold answerWait; repeat' first | with_reducible rfl | with_reducible refine (answerRing_still ..).trans ?_ | with_reducible refine ite_still ?_ ?_ | extract_lets | intro _ | split
theorem raiseSev_still (code : Nat) (fn : Nat) (sev : Nat) (obj0 : Nat) (obj1 : Nat) (pos : Nat) (arg : Nat) (arg2 : Nat) (s : State) : (raiseSev code fn sev obj0 obj1 pos arg arg2 s).still = s.still := by
  unfold raiseSev; repeat' first | with_reducible rfl | with_reducible refine (answerWait_still ..).trans ?_ | with_reducible refine (State.modEvt_still ..).trans ?_ | with_reducible refine ite_still ?_ ?_ | with_reducible refine (foldl_still _ _ _ fun _ _ => ?_).trans ?_ | extract_lets | intro _ | split
theorem raise_still (code : Nat) (fn : Nat) (obj0 : Nat) (obj1 : Nat) (pos : Nat) (arg : Nat) (arg2 : Nat) (s : State) : (raise code fn obj0 obj1 pos arg arg2 s).still = s.still := by
  unfold raise; repeat' first | with_reducible rfl | with_reducible refine (raiseSev_still ..).trans ?_ | with_reducible refine ite_still ?_ ?_ | extract_lets | intro _ | split
theorem raisePf_still (code : Nat) (obj0 : Nat) (arg : Nat) (s : State) : (raisePf code obj0 arg s).still = s.still := by
  unfold raisePf; repeat' first | with_reducible rfl | with_reducible refine (raise_still ..).trans ?_ | with_reducible refine ite_still ?_ ?_ | extract_lets | intro _ | split
theorem abandonEntry_still (s : State) : (abandonEntry s).still = s.still := by
  unfold abandonEntry; repeat' first | with_reducible rfl | with_reducible refine (State.modPwr_still ..).trans ?_ | with_reducible refine (State.modMwr_still ..).trans ?_ | with_reducible refine (restorePorts_still ..).trans ?_ | with_reducible refine (noteLevels_still _ _ ?_).trans ?_ | with_reducible refine (raisePf_still ..).trans ?_ | with_reducible refine ite_still ?_ ?_ | extract_lets | intro _ | split
theorem forgetCmd_still (id : CmdId) (s : State) : (forgetCmd id s).still = s.still := by
  unfold forgetCmd; repeat' first | with_reducible rfl | with_reducible refine (State.modPwr_still ..).trans ?_ | with_reducible refine (State.modTly_still ..).trans ?_ | with_reducible refine (State.modGrn_still ..).trans ?_ | with_reducible refine ite_still ?_ ?_ | extract_lets | intro _ | split
theorem renameWork_still (re : CmdId → CmdId) (s : State) : (renameWork re s).still = s.still := by
  unfold renameWork; repeat' first | with_reducible rfl | with_reducible refine (State.modRdm_still ..).trans ?_ | with_reducible refine (State.modChk_still ..).trans ?_ | with_reducible refine (State.modStn_still ..).trans ?_ | with_reducible refine (State.modGrn_still ..).trans ?_ | with_reducible refine (State.modMem_still ..).trans ?_ | with_reducible refine ite_still ?_ ?_ | extract_lets | intro _ | split
theorem modStone_still (n : Nat) (f : Stone → Stone) (s : State) : (modStone n f s).still = s.still := by
  unfold modStone; repeat' first | with_reducible rfl | with_reducible refine (State.modStn_still ..).trans ?_ | with_reducible refine ite_still ?_ ?_ | extract_lets | intro _ | split
theorem completeId_still (id : CmdId) (st : Status) (result : Nat) (result2 : Nat) (s : State) : (completeId id st result result2 s).still = s.still := by
  unfold completeId; repeat' first | with_reducible rfl | with_reducible refine (complete_still ..).trans ?_ | with_reducible refine ite_still ?_ ?_ | extract_lets | intro _ | split
theorem settleFences_still (s : State) : (settleFences s).still = s.still := by
  unfold settleFences; repeat' first | with_reducible rfl | with_reducible refine (modStone_still ..).trans ?_ | with_reducible refine (State.modStn_still ..).trans ?_ | with_reducible refine (completeId_still ..).trans ?_ | with_reducible refine (raisePf_still ..).trans ?_ | with_reducible refine ite_still ?_ ?_ | with_reducible refine (forEach_still _ _ _ fun _ _ => ?_).trans ?_ | with_reducible refine (foldl_still _ _ _ fun _ _ => ?_).trans ?_ | extract_lets | intro _ | split
theorem modInst_still (i : Nat) (f : OInst → OInst) (s : State) : (modInst i f s).still = s.still := by
  unfold modInst; repeat' first | with_reducible rfl | with_reducible refine (State.modOcp_still ..).trans ?_ | with_reducible refine ite_still ?_ ?_ | extract_lets | intro _ | split
theorem clearInst_still (i : Nat) (s : State) : (clearInst i s).still = s.still := by
  unfold clearInst; repeat' first | with_reducible rfl | with_reducible refine (modInst_still ..).trans ?_ | with_reducible refine ite_still ?_ ?_ | extract_lets | intro _ | split
theorem clearBlock_still (base : Nat) (n : Nat) (s : State) : (clearBlock base n s).still = s.still := by
  unfold clearBlock; repeat' first | with_reducible rfl | with_reducible refine (clearInst_still ..).trans ?_ | with_reducible refine ite_still ?_ ?_ | with_reducible refine (forEach_still _ _ _ fun _ _ => ?_).trans ?_ | extract_lets | intro _ | split
theorem releaseBlock_still (base : Nat) (floors : Nat) (s : State) : (releaseBlock base floors s).still = s.still := by
  unfold releaseBlock; repeat' first | with_reducible rfl | with_reducible refine (settleFences_still ..).trans ?_ | with_reducible refine (settleVotes_still ..).trans ?_ | with_reducible refine (clearBlock_still ..).trans ?_ | with_reducible refine ite_still ?_ ?_ | extract_lets | intro _ | split
theorem dropItem_still (n : Nat) (s : State) : (dropItem n s).still = s.still := by
  unfold dropItem; repeat' first | with_reducible rfl | with_reducible refine (State.modTrn_still ..).trans ?_ | with_reducible refine (releaseBlock_still ..).trans ?_ | with_reducible refine (settleVotes_still ..).trans ?_ | with_reducible refine ite_still ?_ ?_ | extract_lets | intro _ | split
theorem useDdr_still (s : State) : (useDdr s).still = s.still := by
  unfold useDdr; repeat' first | with_reducible rfl | with_reducible refine (modPdom_still ..).trans ?_ | with_reducible refine ite_still ?_ ?_ | extract_lets | intro _ | split
theorem useRuns_still (l : List Seg) (s : State) : (useRuns l s).still = s.still := by
  unfold useRuns; repeat' first | with_reducible rfl | with_reducible refine (useDdr_still ..).trans ?_ | with_reducible refine ite_still ?_ ?_ | extract_lets | intro _ | split
theorem writeSeg_still (g : Seg) (l : List PByte) (s : State) : (writeSeg g l s).still = s.still := by
  unfold writeSeg; repeat' first | with_reducible rfl | with_reducible refine (emit_still ..).trans ?_ | with_reducible refine (State.modMem_still ..).trans ?_ | with_reducible refine ite_still ?_ ?_ | extract_lets | intro _ | split
theorem writeSegs_still (a : List Seg) (b : List PByte) (s : State) : (writeSegs a b s).still = s.still := by
  induction a generalizing b s with
  | nil => rfl
  | cons g r ih => exact (ih ..).trans (writeSeg_still ..)
theorem writeHeld_still (h : Held) (l : List PByte) (s : State) : (writeHeld h l s).still = s.still := by
  unfold writeHeld; repeat' first | with_reducible rfl | with_reducible refine (useRuns_still ..).trans ?_ | with_reducible refine (writeSegs_still ..).trans ?_ | with_reducible refine ite_still ?_ ?_ | extract_lets | intro _ | split
theorem nmwComplete_still (user : Nat) (st : Status) (stages : Nat) (runtimeUs : Nat) (s : State) : (nmwComplete user st stages runtimeUs s).still = s.still := by
  unfold nmwComplete; repeat' first | with_reducible rfl | with_reducible refine (State.modGrn_still ..).trans ?_ | with_reducible refine (emit_still ..).trans ?_ | with_reducible refine (writeHeld_still ..).trans ?_ | with_reducible refine ite_still ?_ ?_ | extract_lets | intro _ | split
theorem endNearMem_still (n : Nat) (st : Status) (s : State) : (endNearMem n st s).still = s.still := by
  unfold endNearMem; repeat' first | with_reducible rfl | with_reducible refine (nmwComplete_still ..).trans ?_ | with_reducible refine (dropItem_still ..).trans ?_ | with_reducible refine ite_still ?_ ?_ | extract_lets | intro _ | split
theorem abortItems_still (s : State) : (abortItems s).still = s.still := by
  unfold abortItems; repeat' first | with_reducible rfl | with_reducible refine (State.modTrn_still ..).trans ?_ | with_reducible refine (dropItem_still ..).trans ?_ | with_reducible refine (endNearMem_still ..).trans ?_ | with_reducible refine ite_still ?_ ?_ | with_reducible refine (foldl_still _ _ _ fun _ _ => ?_).trans ?_ | extract_lets | intro _ | split
theorem endFill_still (key : Nat) (f : Fill) (s : State) : (endFill key f s).still = s.still := by
  unfold endFill; repeat' first | with_reducible rfl | with_reducible refine (State.modMem_still ..).trans ?_ | with_reducible refine (raise_still ..).trans ?_ | with_reducible refine ite_still ?_ ?_ | extract_lets | intro _ | split
theorem modEngine_still (n : Nat) (f : Engine → Engine) (s : State) : (modEngine n f s).still = s.still := by
  unfold modEngine; repeat' first | with_reducible rfl | with_reducible refine (State.modChk_still ..).trans ?_ | with_reducible refine ite_still ?_ ?_ | extract_lets | intro _ | split
theorem completeJob_still (j : Job) (st : Status) (r : Nat) (r2 : Nat) (s : State) : (completeJob j st r r2 s).still = s.still := by
  unfold completeJob; repeat' first | with_reducible rfl | with_reducible refine (completeId_still ..).trans ?_ | with_reducible refine ite_still ?_ ?_ | extract_lets | intro _ | split
theorem dropEngine_still (n : Nat) (s : State) : (dropEngine n s).still = s.still := by
  unfold dropEngine; repeat' first | with_reducible rfl | with_reducible refine (completeId_still ..).trans ?_ | with_reducible refine (modEngine_still ..).trans ?_ | with_reducible refine (completeJob_still ..).trans ?_ | with_reducible refine ite_still ?_ ?_ | with_reducible refine (foldl_still _ _ _ fun _ _ => ?_).trans ?_ | extract_lets | intro _ | split
theorem abortLocal_still (s : State) : (abortLocal s).still = s.still := by
  unfold abortLocal; repeat' first | with_reducible rfl | with_reducible refine (State.modWhl_still ..).trans ?_ | with_reducible refine (endFill_still ..).trans ?_ | with_reducible refine (State.modStn_still ..).trans ?_ | with_reducible refine (dropEngine_still ..).trans ?_ | with_reducible refine (completeId_still ..).trans ?_ | with_reducible refine (State.modMem_still ..).trans ?_ | with_reducible refine ite_still ?_ ?_ | with_reducible refine (forEach_still _ _ _ fun _ _ => ?_).trans ?_ | with_reducible refine (foldl_still _ _ _ fun _ _ => ?_).trans ?_ | extract_lets | intro _ | split
theorem abortTests_still (s : State) : (abortTests s).still = s.still := by
  unfold abortTests; repeat' first | with_reducible rfl | with_reducible refine (modStone_still ..).trans ?_ | with_reducible refine (State.modStn_still ..).trans ?_ | with_reducible refine (completeId_still ..).trans ?_ | with_reducible refine ite_still ?_ ?_ | with_reducible refine (forEach_still _ _ _ fun _ _ => ?_).trans ?_ | with_reducible refine (foldl_still _ _ _ fun _ _ => ?_).trans ?_ | extract_lets | intro _ | split
theorem modItem_still (n : Nat) (f : Item → Item) (s : State) : (modItem n f s).still = s.still := by
  unfold modItem; repeat' first | with_reducible rfl | with_reducible refine (State.modTrn_still ..).trans ?_ | with_reducible refine ite_still ?_ ?_ | extract_lets | intro _ | split
theorem cancelTurnWork_still (t : Nat) (s : State) : (cancelTurnWork t s).still = s.still := by
  unfold cancelTurnWork; repeat' first | with_reducible rfl | with_reducible refine (dropItem_still ..).trans ?_ | with_reducible refine (modItem_still ..).trans ?_ | with_reducible refine ite_still ?_ ?_ | with_reducible refine (foldl_still _ _ _ fun _ _ => ?_).trans ?_ | extract_lets | intro _ | split
theorem modTurn_still (t : Nat) (f : Turn → Turn) (s : State) : (modTurn t f s).still = s.still := by
  unfold modTurn; repeat' first | with_reducible rfl | with_reducible refine (State.modTrn_still ..).trans ?_ | with_reducible refine ite_still ?_ ?_ | extract_lets | intro _ | split
theorem freeTurn_still (t : Nat) (s : State) : (freeTurn t s).still = s.still := by
  unfold freeTurn; repeat' first | with_reducible rfl | with_reducible refine (State.modTrn_still ..).trans ?_ | with_reducible refine (modTurn_still ..).trans ?_ | with_reducible refine ite_still ?_ ?_ | extract_lets | intro _ | split
theorem modSail_still (t : Nat) (k : Nat) (f : Sail → Sail) (s : State) : (modSail t k f s).still = s.still := by
  unfold modSail; repeat' first | with_reducible rfl | with_reducible refine (modTurn_still ..).trans ?_ | with_reducible refine ite_still ?_ ?_ | extract_lets | intro _ | split
theorem touch_still (r : Nat) (s : State) : (touch r s).still = s.still := by
  unfold touch; repeat' first | with_reducible rfl | with_reducible refine (State.modWhl_still ..).trans ?_ | with_reducible refine ite_still ?_ ?_ | extract_lets | intro _ | split
theorem modRace_still (r : Nat) (f : Race → Race) (s : State) : (modRace r f s).still = s.still := by
  unfold modRace; repeat' first | with_reducible rfl | with_reducible refine (State.modWhl_still ..).trans ?_ | with_reducible refine (touch_still ..).trans ?_ | with_reducible refine ite_still ?_ ?_ | extract_lets | intro _ | split
theorem tellFull_still (rid : Nat) (s : State) : (tellFull rid s).still = s.still := by
  unfold tellFull; repeat' first | with_reducible rfl | with_reducible refine (modRace_still ..).trans ?_ | with_reducible refine (raise_still ..).trans ?_ | with_reducible refine ite_still ?_ ?_ | extract_lets | intro _ | split
theorem putHeld_still (h : Held) (off : Nat) (data : List Byte) (s : State) : (putHeld h off data s).still = s.still := by
  unfold putHeld; repeat' first | with_reducible rfl | with_reducible refine (writeSegs_still ..).trans ?_ | with_reducible refine ite_still ?_ ?_ | extract_lets | intro _ | split
theorem putTailHeader_still (rid : Nat) (s : State) : (putTailHeader rid s).still = s.still := by
  unfold putTailHeader; repeat' first | with_reducible rfl | with_reducible refine (putHeld_still ..).trans ?_ | with_reducible refine ite_still ?_ ?_ | extract_lets | intro _ | split
theorem putFrame_still (rid : Nat) (flags : Nat) (nsmp : Nat) (payload : List Byte) (check : Nat) (time : Nat) (turn : Nat) (sail : Nat) (s : State) : (putFrame rid flags nsmp payload check time turn sail s).still = s.still := by
  unfold putFrame; repeat' first | with_reducible rfl | with_reducible refine (putTailHeader_still ..).trans ?_ | with_reducible refine (putHeld_still ..).trans ?_ | with_reducible refine (modRace_still ..).trans ?_ | with_reducible refine ite_still ?_ ?_ | extract_lets | intro _ | split
theorem gapMarker_still (rid : Nat) (flags : Nat) (turn : Nat) (sail : Nat) (s : State) : (gapMarker rid flags turn sail s).still = s.still := by
  unfold gapMarker; repeat' first | with_reducible rfl | with_reducible refine (tellFull_still ..).trans ?_ | with_reducible refine (putFrame_still ..).trans ?_ | with_reducible refine (modRace_still ..).trans ?_ | with_reducible refine ite_still ?_ ?_ | extract_lets | intro _ | split
theorem drainSail_still (t : Nat) (k : Nat) (s : State) : (drainSail t k s).still = s.still := by
  unfold drainSail; repeat' first | with_reducible rfl | with_reducible refine (modSail_still ..).trans ?_ | with_reducible refine (completeId_still ..).trans ?_ | with_reducible refine ite_still ?_ ?_ | with_reducible refine (foldl_still _ _ _ fun _ _ => ?_).trans ?_ | extract_lets | intro _ | split
theorem retireTurn_still (t : Nat) (reason : Option Nat) (s : State) : (retireTurn t reason s).still = s.still := by
  unfold retireTurn; repeat' first | with_reducible rfl | with_reducible refine (freeTurn_still ..).trans ?_ | with_reducible refine (completeId_still ..).trans ?_ | with_reducible refine (raise_still ..).trans ?_ | with_reducible refine (modTurn_still ..).trans ?_ | with_reducible refine ite_still ?_ ?_ | with_reducible refine (foldl_still _ _ _ fun _ _ => ?_).trans ?_ | extract_lets | intro _ | split
theorem furlSail_still (t : Nat) (k : Nat) (cause : Nat) (st : Status) (s : State) : (furlSail t k cause st s).still = s.still := by
  unfold furlSail; repeat' first | with_reducible rfl | with_reducible refine (dropItem_still ..).trans ?_ | with_reducible refine (modSail_still ..).trans ?_ | with_reducible refine (modItem_still ..).trans ?_ | with_reducible refine (gapMarker_still ..).trans ?_ | with_reducible refine (completeId_still ..).trans ?_ | with_reducible refine (drainSail_still ..).trans ?_ | with_reducible refine (raise_still ..).trans ?_ | with_reducible refine (modTurn_still ..).trans ?_ | with_reducible refine (retireTurn_still ..).trans ?_ | with_reducible refine ite_still ?_ ?_ | with_reducible refine (foldl_still _ _ _ fun _ _ => ?_).trans ?_ | extract_lets | intro _ | split
theorem furlRaised_still (t : Nat) (cause : Nat) (st : Status) (s : State) : (furlRaised t cause st s).still = s.still := by
  unfold furlRaised; repeat' first | with_reducible rfl | with_reducible refine (furlSail_still ..).trans ?_ | with_reducible refine ite_still ?_ ?_ | with_reducible refine (forEach_still _ _ _ fun _ _ => ?_).trans ?_ | extract_lets | intro _ | split
theorem endTurn_still (t : Nat) (cause : Nat) (st : Status) (s : State) : (endTurn t cause st s).still = s.still := by
  unfold endTurn; repeat' first | with_reducible rfl | with_reducible refine (cancelTurnWork_still ..).trans ?_ | with_reducible refine (freeTurn_still ..).trans ?_ | with_reducible refine (furlSail_still ..).trans ?_ | with_reducible refine (retireTurn_still ..).trans ?_ | with_reducible refine (furlRaised_still ..).trans ?_ | with_reducible refine ite_still ?_ ?_ | with_reducible refine (forEach_still _ _ _ fun _ _ => ?_).trans ?_ | extract_lets | intro _ | split
theorem abortTurns_still (s : State) : (abortTurns s).still = s.still := by
  unfold abortTurns; repeat' first | with_reducible rfl | with_reducible refine (State.modTrn_still ..).trans ?_ | with_reducible refine (endTurn_still ..).trans ?_ | with_reducible refine (completeId_still ..).trans ?_ | with_reducible refine (modTurn_still ..).trans ?_ | with_reducible refine ite_still ?_ ?_ | with_reducible refine (foldl_still _ _ _ fun _ _ => ?_).trans ?_ | extract_lets | intro _ | split
theorem accept_still (c : Cmd) (s : State) : (accept c s).still = s.still := by
  unfold accept; repeat' first | with_reducible rfl | with_reducible refine (updCmd_still ..).trans ?_ | with_reducible refine ite_still ?_ ?_ | extract_lets | intro _ | split
theorem modRcq_still (c : Nat) (f : RCq → RCq) (s : State) : (modRcq c f s).still = s.still := by
  unfold modRcq; repeat' first | with_reducible rfl | with_reducible refine (State.modRdm_still ..).trans ?_ | with_reducible refine ite_still ?_ ?_ | extract_lets | intro _ | split
theorem rcqWrite_still (c : Nat) (e : RCqe) (s : State) : (rcqWrite c e s).still = s.still := by
  unfold rcqWrite; repeat' first | with_reducible rfl | with_reducible refine (modRcq_still ..).trans ?_ | with_reducible refine (putHeld_still ..).trans ?_ | with_reducible refine (emit_still ..).trans ?_ | with_reducible refine ite_still ?_ ?_ | extract_lets | intro _ | split
theorem eventTo_still (code : Nat) (a1 : Nat) (a2 : Nat) (fn : Nat) (s : State) : (eventTo code a1 a2 fn s).still = s.still := by
  unfold eventTo; repeat' first | with_reducible rfl | with_reducible refine (rcqWrite_still ..).trans ?_ | with_reducible refine (State.modRdm_still ..).trans ?_ | with_reducible refine (modRcq_still ..).trans ?_ | with_reducible refine ite_still ?_ ?_ | extract_lets | intro _ | split
theorem cqFail_still (c : Nat) (s : State) : (cqFail c s).still = s.still := by
  unfold cqFail; repeat' first | with_reducible rfl | with_reducible refine (modRcq_still ..).trans ?_ | with_reducible refine (eventTo_still ..).trans ?_ | with_reducible refine ite_still ?_ ?_ | extract_lets | intro _ | split
theorem modQp_still (q : Nat) (f : Qp → Qp) (s : State) : (modQp q f s).still = s.still := by
  unfold modQp; repeat' first | with_reducible rfl | with_reducible refine (State.modRdm_still ..).trans ?_ | with_reducible refine ite_still ?_ ?_ | extract_lets | intro _ | split
theorem noteStatus_still (q : Nat) (st : Status) (s : State) : (noteStatus q st s).still = s.still := by
  unfold noteStatus; repeat' first | with_reducible rfl | with_reducible refine (modQp_still ..).trans ?_ | with_reducible refine ite_still ?_ ?_ | extract_lets | intro _ | split
theorem wcPut_still (c : Nat) (q : Nat) (w : Wc) (s : State) : (wcPut c q w s).still = s.still := by
  unfold wcPut; repeat' first | with_reducible rfl | with_reducible refine (rcqWrite_still ..).trans ?_ | with_reducible refine (cqFail_still ..).trans ?_ | with_reducible refine (noteStatus_still ..).trans ?_ | with_reducible refine ite_still ?_ ?_ | extract_lets | intro _ | split
theorem failFills_still (q : Nat) (st : Status) (s : State) : (failFills q st s).still = s.still := by
  unfold failFills; repeat' first | with_reducible rfl | with_reducible refine (endFill_still ..).trans ?_ | with_reducible refine ite_still ?_ ?_ | with_reducible refine (foldl_still _ _ _ fun _ _ => ?_).trans ?_ | extract_lets | intro _ | split
theorem finishMaps_still (i : Nat) (mine : MapWait → Bool) (s : State) : (finishMaps i mine s).still = s.still := by
  unfold finishMaps; repeat' first | with_reducible rfl | with_reducible refine (State.modGrn_still ..).trans ?_ | with_reducible refine (completeId_still ..).trans ?_ | with_reducible refine ite_still ?_ ?_ | with_reducible refine (foldl_still _ _ _ fun _ _ => ?_).trans ?_ | extract_lets | intro _ | split
theorem hotDrop_still (a : Nat) (n : Nat) (s : State) : (hotDrop a n s).still = s.still := by
  unfold hotDrop; repeat' first | with_reducible rfl | with_reducible refine (State.modGrn_still ..).trans ?_ | with_reducible refine ite_still ?_ ?_ | extract_lets | intro _ | split
theorem writeBin_still (b : Bin) (off : Nat) (l : List PByte) (s : State) : (writeBin b off l s).still = s.still := by
  unfold writeBin; repeat' first | with_reducible rfl | with_reducible refine (State.modMem_still ..).trans ?_ | with_reducible refine (hotDrop_still ..).trans ?_ | with_reducible refine ite_still ?_ ?_ | extract_lets | intro _ | split
theorem landWaiting_still (i : Nat) (s : State) : (landWaiting i s).still = s.still := by
  unfold landWaiting; repeat' first | with_reducible rfl | with_reducible refine (State.modTly_still ..).trans ?_ | with_reducible refine (writeBin_still ..).trans ?_ | with_reducible refine ite_still ?_ ?_ | with_reducible refine (foldl_still _ _ _ fun _ _ => ?_).trans ?_ | extract_lets | intro _ | split
theorem healLines_still (a : Nat) (n : Nat) (s : State) : (healLines a n s).still = s.still := by
  unfold healLines; repeat' first | with_reducible rfl | with_reducible refine (State.modMem_still ..).trans ?_ | with_reducible refine ite_still ?_ ?_ | extract_lets | intro _ | split
theorem dirHeal_still (i : Nat) (s : State) : (dirHeal i s).still = s.still := by
  unfold dirHeal; repeat' first | with_reducible rfl | with_reducible refine (healLines_still ..).trans ?_ | with_reducible refine ite_still ?_ ?_ | extract_lets | intro _ | split
theorem modBin_still (i : Nat) (f : Bin → Bin) (s : State) : (modBin i f s).still = s.still := by
  unfold modBin; repeat' first | with_reducible rfl | with_reducible refine (dirHeal_still ..).trans ?_ | with_reducible refine (State.modGrn_still ..).trans ?_ | with_reducible refine ite_still ?_ ?_ | extract_lets | intro _ | split
theorem notice_still (m : Nat) (code : Nat) (a : Nat) (b : Nat) (c : Nat) (d : Nat) (s : State) : (notice m code a b c d s).still = s.still := by
  unfold notice; repeat' first | with_reducible rfl | with_reducible refine (sendMsg_still ..).trans ?_ | with_reducible refine ite_still ?_ ?_ | extract_lets | intro _ | split
theorem setMState_still (i : Nat) (st : MState) (s : State) : (setMState i st s).still = s.still := by
  unfold setMState; repeat' first | with_reducible rfl | with_reducible refine (modBin_still ..).trans ?_ | with_reducible refine (notice_still ..).trans ?_ | with_reducible refine ite_still ?_ ?_ | with_reducible refine (forEach_still _ _ _ fun _ _ => ?_).trans ?_ | extract_lets | intro _ | split
theorem breakMirror_still (i : Nat) (reason : Nat) (s : State) : (breakMirror i reason s).still = s.still := by
  unfold breakMirror; repeat' first | with_reducible rfl | with_reducible refine (finishMaps_still ..).trans ?_ | with_reducible refine (landWaiting_still ..).trans ?_ | with_reducible refine (State.modTly_still ..).trans ?_ | with_reducible refine (State.modGrn_still ..).trans ?_ | with_reducible refine (raisePf_still ..).trans ?_ | with_reducible refine (setMState_still ..).trans ?_ | with_reducible refine ite_still ?_ ?_ | extract_lets | intro _ | split
theorem breakMirrors_still (reason : Nat) (s : State) : (breakMirrors reason s).still = s.still := by
  unfold breakMirrors; repeat' first | with_reducible rfl | with_reducible refine (breakMirror_still ..).trans ?_ | with_reducible refine ite_still ?_ ?_ | with_reducible refine (forEach_still _ _ _ fun _ _ => ?_).trans ?_ | extract_lets | intro _ | split
theorem qpLeft_still (q : Nat) (s : State) : (qpLeft q s).still = s.still := by
  unfold qpLeft; repeat' first | with_reducible rfl | with_reducible refine (breakMirrors_still ..).trans ?_ | with_reducible refine ite_still ?_ ?_ | extract_lets | intro _ | split
theorem endQp_still (x : QpEnd) (s : State) : (endQp x s).still = s.still := by
  unfold endQp; repeat' first | with_reducible rfl | with_reducible refine (wcPut_still ..).trans ?_ | with_reducible refine (failFills_still ..).trans ?_ | with_reducible refine (qpLeft_still ..).trans ?_ | with_reducible refine (eventTo_still ..).trans ?_ | with_reducible refine (completeId_still ..).trans ?_ | with_reducible refine (modQp_still ..).trans ?_ | with_reducible refine ite_still ?_ ?_ | with_reducible refine (foldl_still _ _ _ fun _ _ => ?_).trans ?_ | extract_lets | intro _ | split
theorem endQps_still (n : Nat) (l : List QpEnd) (s : State) : (endQps n l s).still = s.still := by
  induction n generalizing l s with
  | zero => rfl
  | succ n ih =>
    cases l with
    | nil => rfl
    | cons x r => exact (ih ..).trans (endQp_still ..)
theorem wcOut_still (c : Nat) (q : Nat) (w : Wc) (s : State) : (wcOut c q w s).still = s.still := by
  unfold wcOut; repeat' first | with_reducible rfl | with_reducible refine (wcPut_still ..).trans ?_ | with_reducible refine (endQps_still ..).trans ?_ | with_reducible refine ite_still ?_ ?_ | extract_lets | intro _ | split
theorem wrDone_still (q : Nat) (p : Qp) (w : Wr) (st : Status) (detail : Nat) (len : Nat) (s : State) : (wrDone q p w st detail len s).still = s.still := by
  unfold wrDone; repeat' first | with_reducible rfl | with_reducible refine (wcOut_still ..).trans ?_ | with_reducible refine ite_still ?_ ?_ | extract_lets | intro _ | split
theorem ackUpTo_still (q psn n : Nat) (s : State) : (ackUpTo q psn n s).still = s.still := by
  induction n generalizing s with
  | zero => rfl
  | succ n ih => unfold ackUpTo; repeat' first | rfl | split | exact (ih ..).trans ((wrDone_still ..).trans (modQp_still ..))
theorem postReads_still (key n : Nat) (s : State) : (postReads key n s).still = s.still := by
  induction n generalizing s with
  | zero => rfl
  | succ n ih =>
    unfold postReads
    repeat' first
      | with_reducible rfl | exact endFill_still .. | exact (ih ..).trans ((emit_still ..).trans (State.modMem_still ..))
      | exact State.modMem_still .. | extract_lets | split
theorem startFill_still {rid slot fn : Nat} {c : Cog} {s t : State} (h : startFill rid slot fn c s = .ok t) : t.still = s.still := by
  unfold startFill at h; extract_lets at h; split at h
  · cases h
  · split at h
    · cases h; exact postReads_still ..
    · cases h
theorem takeArena_still {s t : State} {n a : Nat} (h : takeArena s n = some (a, t)) : t.still = s.still := by
  unfold takeArena at h; split at h <;> cases h; rfl
theorem addItem_still (i : Item) (s : State) : (addItem i s).still = s.still := by
  unfold addItem; repeat' first | with_reducible rfl | with_reducible refine (State.modTrn_still ..).trans ?_ | with_reducible refine ite_still ?_ ?_ | extract_lets | intro _ | split
theorem raiseSail_still {r : Raise} {s t : State} (h : raiseSail r s = .ok t) : t.still = s.still := by
  unfold raiseSail at h
  extract_lets x v pos at h
  clear_value pos
  repeat' first | (cases h; done) | split at h
  rename_i need made _ _ _ _ _ _ _ _ _ _
  have hm : made = if need = 0 then some (none, s) else (takeArena s need).map fun p => (some p.1, p.2) := rfl
  clear_value made
  revert h
  rcases made with _ | ⟨ar, s2⟩
  · intro h; cases h
  · intro h; cases h
    refine (raise_still ..).trans ((addItem_still ..).trans ((modTurn_still ..).trans ?_))
    split at hm
    · cases hm; rfl
    · obtain ⟨p, hp, he⟩ := Option.map_eq_some_iff.mp hm.symm
      cases he; exact takeArena_still (a := p.1) hp
theorem prewake_still (mask : Nat) (s : State) : (prewake mask s).still = s.still := by
  unfold prewake; repeat' first | with_reducible rfl | with_reducible refine (modPdom_still ..).trans ?_ | with_reducible refine (settle_still ..).trans ?_ | with_reducible refine ite_still ?_ ?_ | with_reducible refine (forEach_still _ _ _ fun _ _ => ?_).trans ?_ | extract_lets | intro _ | split
theorem gateRoom_still (t : Nat) (k : Nat) (s : State) : (gateRoom t k s).still = s.still := by
  unfold gateRoom; repeat' first | with_reducible rfl | with_reducible refine (modSail_still ..).trans ?_ | with_reducible refine (modItem_still ..).trans ?_ | with_reducible refine ite_still ?_ ?_ | with_reducible refine (foldl_still _ _ _ fun _ _ => ?_).trans ?_ | extract_lets | intro _ | split
theorem endAudio_still (l : Leaving) (s : State) : (endAudio l s).still = s.still := by
  unfold endAudio; repeat' first | with_reducible rfl | with_reducible refine (gapMarker_still ..).trans ?_ | with_reducible refine (raise_still ..).trans ?_ | with_reducible refine ite_still ?_ ?_ | extract_lets | intro _ | split
theorem leaveArena_still (o : Option Nat) (s : State) : (leaveArena o s).still = s.still := by
  unfold leaveArena; repeat' first | with_reducible rfl | with_reducible refine (State.modMem_still ..).trans ?_ | with_reducible refine ite_still ?_ ?_ | extract_lets | intro _ | split
theorem freeSail_still (t : Nat) (k : Nat) (s : State) : (freeSail t k s).still = s.still := by
  unfold freeSail; repeat' first | with_reducible rfl | with_reducible refine (freeTurn_still ..).trans ?_ | with_reducible refine (leaveArena_still ..).trans ?_ | with_reducible refine (modTurn_still ..).trans ?_ | with_reducible refine ite_still ?_ ?_ | extract_lets | intro _ | split
theorem leaveSail_still (t : Nat) (k : Nat) (s : State) : (leaveSail t k s).still = s.still := by
  unfold leaveSail; repeat' first | with_reducible rfl | with_reducible refine (State.modTrn_still ..).trans ?_ | with_reducible refine (endAudio_still ..).trans ?_ | with_reducible refine (freeSail_still ..).trans ?_ | with_reducible refine ite_still ?_ ?_ | extract_lets | intro _ | split
theorem setSail_still (t : Nat) (k : Nat) (s : State) : (setSail t k s).still = s.still := by
  unfold setSail; repeat' first | with_reducible rfl | with_reducible refine (modSail_still ..).trans ?_ | with_reducible refine (gateRoom_still ..).trans ?_ | with_reducible refine (furlSail_still ..).trans ?_ | with_reducible refine (completeId_still ..).trans ?_ | with_reducible refine (raise_still ..).trans ?_ | with_reducible refine (leaveSail_still ..).trans ?_ | with_reducible refine (modTurn_still ..).trans ?_ | with_reducible refine (retireTurn_still ..).trans ?_ | with_reducible refine ite_still ?_ ?_ | with_reducible refine (forEach_still _ _ _ fun _ _ => ?_).trans ?_ | extract_lets | intro _ | split
theorem dispatch_still {fn turn chain stage gang : Nat} {cog : Nat × Bool × Nat} {s t : State}
    (h : dispatch fn turn chain stage gang cog s = .ok t) : t.still = s.still := by
  unfold dispatch at h; extract_lets at h; split at h
  · cases h
  · split at h
    · cases h
    · split at h
      · cases h
      · cases h; exact addItem_still ..
theorem act_still {rid slot : Nat} {r : Race} {c : Cog} {at_ : Nat} {s t : State} (h : act rid slot r c at_ s = .ok t) :
    t.still = s.still := by
  unfold act at h
  extract_lets at h
  repeat' first
    | (cases h; done) | exact dispatch_still h | exact startFill_still h
    | (cases h; first | rfl | exact raise_still .. | exact prewake_still .. | exact setSail_still .. | exact furlSail_still .. | (exact raiseSail_still (by assumption)))
    | split at h
theorem modPos_still (n : Nat) (f : Position → Position) (s : State) : (modPos n f s).still = s.still := by
  unfold modPos; repeat' first | with_reducible rfl | with_reducible refine (State.modMwr_still ..).trans ?_ | with_reducible refine ite_still ?_ ?_ | extract_lets | intro _ | split
theorem actOn_still (n : Nat) (p : Nat) (g : Nat) (f : Flashes) (s : State) : (actOn n p g f s).still = s.still := by
  unfold actOn; repeat' first | with_reducible rfl | with_reducible refine (modPos_still ..).trans ?_ | with_reducible refine (raisePf_still ..).trans ?_ | with_reducible refine ite_still ?_ ?_ | extract_lets | intro _ | split
theorem judgeTime_still (s : State) : (judgeTime s).still = s.still := by
  unfold judgeTime; repeat' first | with_reducible rfl | with_reducible refine (State.modDom_still ..).trans ?_ | with_reducible refine (raisePf_still ..).trans ?_ | with_reducible refine ite_still ?_ ?_ | extract_lets | intro _ | split
theorem adjustTime_still (delta : Int) (rate : Int) (offset : Int) (synced : Bool) (s : State) : (adjustTime delta rate offset synced s).still = s.still := by
  unfold adjustTime; repeat' first | with_reducible rfl | with_reducible refine (State.modCore_still ..).trans ?_ | with_reducible refine (State.modDom_still ..).trans ?_ | with_reducible refine (judgeTime_still ..).trans ?_ | with_reducible refine ite_still ?_ ?_ | extract_lets | intro _ | split
theorem modTally_still (b : Nat) (f : TRec → TRec) (s : State) : (modTally b f s).still = s.still := by
  unfold modTally; repeat' first | with_reducible rfl | with_reducible refine (State.modTly_still ..).trans ?_ | with_reducible refine ite_still ?_ ?_ | extract_lets | intro _ | split
theorem tallyEvent_still (code : Nat) (b : Nat) (cause : Nat) (auth : Nat) (s : State) : (tallyEvent code b cause auth s).still = s.still := by
  unfold tallyEvent; repeat' first | with_reducible rfl | with_reducible refine (raisePf_still ..).trans ?_ | with_reducible refine ite_still ?_ ?_ | extract_lets | intro _ | split
theorem logError_still (e : Err) (s : State) : (logError e s).still = s.still := by
  unfold logError; repeat' first | with_reducible rfl | with_reducible refine (State.modMail_still ..).trans ?_ | with_reducible refine (State.modEvt_still ..).trans ?_ | with_reducible refine (raiseSev_still ..).trans ?_ | with_reducible refine ite_still ?_ ?_ | extract_lets | intro _ | split
theorem disturb_still (b : Nat) (cause : Nat) (s : State) : (disturb b cause s).still = s.still := by
  unfold disturb; repeat' first | with_reducible rfl | with_reducible refine (modTally_still ..).trans ?_ | with_reducible refine (State.modTly_still ..).trans ?_ | with_reducible refine (tallyEvent_still ..).trans ?_ | with_reducible refine (logError_still ..).trans ?_ | with_reducible refine ite_still ?_ ?_ | extract_lets | intro _ | split
theorem compareRec_still (b : Nat) (s : State) : (compareRec b s).still = s.still := by
  unfold compareRec; repeat' first | with_reducible rfl | with_reducible refine (modTally_still ..).trans ?_ | with_reducible refine (disturb_still ..).trans ?_ | with_reducible refine ite_still ?_ ?_ | extract_lets | intro _ | split
theorem updTally_still (b : Nat) (f : Counts → Counts) (s : State) : (updTally b f s).still = s.still := by
  unfold updTally; repeat' first | with_reducible rfl | with_reducible refine (modTally_still ..).trans ?_ | with_reducible refine (compareRec_still ..).trans ?_ | with_reducible refine ite_still ?_ ?_ | extract_lets | intro _ | split
theorem countIn_still (b : Nat) (s : State) : (countIn b s).still = s.still := by
  unfold countIn; repeat' first | with_reducible rfl | with_reducible refine (modTally_still ..).trans ?_ | with_reducible refine (disturb_still ..).trans ?_ | with_reducible refine (updTally_still ..).trans ?_ | with_reducible refine ite_still ?_ ?_ | extract_lets | intro _ | split
theorem admitOp_still (t : Token) (s : State) : (admitOp t s).2.still = s.still := (State.modTly_still ..).trans (countIn_still ..)
theorem admitOp_still' {t : Token} {s : State} {p_ : Nat × State} (h_ : admitOp t s = p_) : p_.2.still = s.still := (congrArg (fun x : Nat × State => x.2.still) h_).symm.trans (admitOp_still ..)
theorem noteErr_still (kind : Nat) (a : Nat) (s : State) : (noteErr kind a s).still = s.still := by
  unfold noteErr; repeat' first | with_reducible rfl | with_reducible refine (State.modMem_still ..).trans ?_ | with_reducible refine ite_still ?_ ?_ | extract_lets | intro _ | split
theorem dramUe_still (a : Nat) (s : State) : (dramUe a s).still = s.still := by
  unfold dramUe; repeat' first | with_reducible rfl | with_reducible refine (noteErr_still ..).trans ?_ | with_reducible refine (State.modGrn_still ..).trans ?_ | with_reducible refine (State.modMem_still ..).trans ?_ | with_reducible refine (raisePf_still ..).trans ?_ | with_reducible refine (logError_still ..).trans ?_ | with_reducible refine ite_still ?_ ?_ | extract_lets | intro _ | split
theorem modPair_still (p : Nat) (f : Pair → Pair) (s : State) : (modPair p f s).still = s.still := by
  unfold modPair; repeat' first | with_reducible rfl | with_reducible refine (State.modMem_still ..).trans ?_ | with_reducible refine ite_still ?_ ?_ | extract_lets | intro _ | split
theorem dramCe_still (a : Nat) (s : State) : (dramCe a s).still = s.still := by
  unfold dramCe; repeat' first | with_reducible rfl | with_reducible refine (noteErr_still ..).trans ?_ | with_reducible refine (State.modMem_still ..).trans ?_ | with_reducible refine (modPair_still ..).trans ?_ | with_reducible refine ite_still ?_ ?_ | extract_lets | intro _ | split
theorem meetLine_still (s : State) (e : Nat × Bool) : (meetLine s e).still = s.still := by
  unfold meetLine; repeat' first | with_reducible rfl | with_reducible refine (dramCe_still ..).trans ?_ | with_reducible refine (State.modMem_still ..).trans ?_ | with_reducible refine ite_still ?_ ?_ | extract_lets | intro _ | split
theorem meetCells_still (a : Nat) (n : Nat) (s : State) : (meetCells a n s).still = s.still := by
  unfold meetCells; repeat' first | with_reducible rfl | with_reducible refine (meetLine_still ..).trans ?_ | with_reducible refine ite_still ?_ ?_ | with_reducible refine (foldl_still _ _ _ fun _ _ => ?_).trans ?_ | extract_lets | intro _ | split
theorem meetRange_still (a : Nat) (n : Nat) (s : State) : (meetRange a n s).still = s.still := by
  unfold meetRange; repeat' first | with_reducible rfl | with_reducible refine (dramUe_still ..).trans ?_ | with_reducible refine (meetCells_still ..).trans ?_ | with_reducible refine ite_still ?_ ?_ | extract_lets | intro _ | split
theorem hotLine_still (l : Nat) (s : State) : (hotLine l s).still = s.still := by
  unfold hotLine; repeat' first | with_reducible rfl | with_reducible refine (healLines_still ..).trans ?_ | with_reducible refine (meetRange_still ..).trans ?_ | with_reducible refine (State.modGrn_still ..).trans ?_ | with_reducible refine ite_still ?_ ?_ | extract_lets | intro _ | split
theorem hotRead_still (a : Nat) (n : Nat) (s : State) : (hotRead a n s).still = s.still := by
  unfold hotRead; repeat' first | with_reducible rfl | with_reducible refine (hotLine_still ..).trans ?_ | with_reducible refine ite_still ?_ ?_ | with_reducible refine (forEach_still _ _ _ fun _ _ => ?_).trans ?_ | extract_lets | intro _ | split
theorem writeCopy_still (i off : Nat) (l : List PByte) (s : State) : (writeCopy i off l s).2.2.still = s.still := by
  unfold writeCopy; dsimp only; repeat' first | exact (writeBin_still ..).trans (emit_still ..) | exact writeBin_still .. | exact emit_still .. | split | rfl
theorem writeCopy_still' {i : Nat} {off : Nat} {l : List PByte} {s : State} {p_ : Bool × Option (List PByte) × State} (h_ : writeCopy i off l s = p_) : p_.2.2.still = s.still := (congrArg (fun x : Bool × Option (List PByte) × State => x.2.2.still) h_).symm.trans (writeCopy_still ..)
theorem admitPart_still (r : GReq) (member i : Nat) (x : Part) (s : State) : (admitPart r member i x s).still = s.still := by
  unfold admitPart; dsimp only; refine (admitOp_still ..).trans ?_
  repeat' first | exact writeCopy_still .. | exact emit_still .. | exact hotRead_still .. | split
theorem sendPacket_still (q : Nat) (pk : Packet) (s : State) : (sendPacket q pk s).still = s.still := by
  unfold sendPacket; repeat' first | with_reducible rfl | with_reducible refine (emit_still ..).trans ?_ | with_reducible refine ite_still ?_ ?_ | extract_lets | intro _ | split
theorem answerQp_still (q : Nat) (pk : Packet) (next : Option Nat) (s : State) : (answerQp q pk next s).still = s.still := by
  unfold answerQp; repeat' first | with_reducible rfl | with_reducible refine (sendPacket_still ..).trans ?_ | with_reducible refine (modQp_still ..).trans ?_ | with_reducible refine ite_still ?_ ?_ | extract_lets | intro _ | split
theorem statusNakQp_still (q : Nat) (psn : Nat) (next : Nat) (code : Nat) (detail : Nat) (s : State) : (statusNakQp q psn next code detail s).still = s.still := by
  unfold statusNakQp; repeat' first | with_reducible rfl | with_reducible refine (State.modRdm_still ..).trans ?_ | with_reducible refine (answerQp_still ..).trans ?_ | with_reducible refine ite_still ?_ ?_ | extract_lets | intro _ | split
theorem statusNak_still (r : GReq) (code : Nat) (detail : Nat) (s : State) : (statusNak r code detail s).still = s.still := by
  unfold statusNak; repeat' first | with_reducible rfl | with_reducible refine (statusNakQp_still ..).trans ?_ | with_reducible refine ite_still ?_ ?_ | extract_lets | intro _ | split
theorem noteServed_still (q : Nat) (psn : Nat) (n : Nat) (addr : Nat) (s : State) : (noteServed q psn n addr s).still = s.still := by
  unfold noteServed; repeat' first | with_reducible rfl | with_reducible refine (modQp_still ..).trans ?_ | with_reducible refine ite_still ?_ ?_ | extract_lets | intro _ | split
theorem nakQp_still (q : Nat) (psn : Nat) (code : Nat) (s : State) : (nakQp q psn code s).still = s.still := by
  unfold nakQp; repeat' first | with_reducible rfl | with_reducible refine (State.modRdm_still ..).trans ?_ | with_reducible refine (answerQp_still ..).trans ?_ | with_reducible refine ite_still ?_ ?_ | extract_lets | intro _ | split
theorem refuseRequest_still (r : GReq) (e : Nat × Nat) (s : State) : (refuseRequest r e s).still = s.still := by
  unfold refuseRequest; repeat' first | with_reducible rfl | with_reducible refine (statusNak_still ..).trans ?_ | with_reducible refine (nakQp_still ..).trans ?_ | with_reducible refine ite_still ?_ ?_ | extract_lets | intro _ | split
theorem loseBin_still (i : Nat) (cause : Nat) (s : State) : (loseBin i cause s).still = s.still := by
  unfold loseBin; repeat' first | with_reducible rfl | with_reducible refine (modBin_still ..).trans ?_ | with_reducible refine (disturb_still ..).trans ?_ | with_reducible refine (notice_still ..).trans ?_ | with_reducible refine (raisePf_still ..).trans ?_ | with_reducible refine ite_still ?_ ?_ | with_reducible refine (forEach_still _ _ _ fun _ _ => ?_).trans ?_ | extract_lets | intro _ | split
theorem readDirectory_still (a : Bool) (b : Bool) (i : Nat) (s : State) : (readDirectory a b i s).still = s.still := by
  unfold readDirectory; repeat' first | with_reducible rfl | with_reducible refine (loseBin_still ..).trans ?_ | with_reducible refine (dirHeal_still ..).trans ?_ | with_reducible refine (dramUe_still ..).trans ?_ | with_reducible refine (meetCells_still ..).trans ?_ | with_reducible refine ite_still ?_ ?_ | extract_lets | intro _ | split
theorem readEntry_still (a : Bool) (b : Bool) (h : Nat) (s : State) : (readEntry a b h s).still = s.still := by
  unfold readEntry; repeat' first | with_reducible rfl | with_reducible refine (readDirectory_still ..).trans ?_ | with_reducible refine ite_still ?_ ?_ | extract_lets | intro _ | split
theorem judgeRequest_still (serves : Bool) (r : GReq) (s : State) : (judgeRequest serves r s).still = s.still := by
  unfold judgeRequest; repeat' first | with_reducible rfl | with_reducible refine (State.modTly_still ..).trans ?_ | with_reducible refine (statusNak_still ..).trans ?_ | with_reducible refine (State.modGrn_still ..).trans ?_ | with_reducible refine (noteServed_still ..).trans ?_ | with_reducible refine (admitPart_still ..).trans ?_ | with_reducible refine (modQp_still ..).trans ?_ | with_reducible refine (refuseRequest_still ..).trans ?_ | with_reducible refine (nakQp_still ..).trans ?_ | with_reducible refine (readEntry_still ..).trans ?_ | with_reducible refine ite_still ?_ ?_ | with_reducible refine (foldl_still _ _ _ fun _ _ => ?_).trans ?_ | dsimp only | intro _ | split
theorem admitRequest_still (r : GReq) (s : State) : (admitRequest r s).still = s.still := by
  unfold admitRequest; repeat' first | with_reducible rfl | with_reducible refine (judgeRequest_still ..).trans ?_ | with_reducible refine ite_still ?_ ?_ | extract_lets | intro _ | split
theorem idleExit_still (s : State) : (idleExit s).still = s.still := by
  unfold idleExit; repeat' first | with_reducible rfl | with_reducible refine (State.modPwr_still ..).trans ?_ | with_reducible refine (raisePf_still ..).trans ?_ | with_reducible refine ite_still ?_ ?_ | extract_lets | intro _ | split
theorem recordWake_still (code : Nat) (s : State) : (recordWake code s).still = s.still := by
  unfold recordWake; repeat' first | with_reducible rfl | with_reducible refine (State.modPwr_still ..).trans ?_ | with_reducible refine ite_still ?_ ?_ | extract_lets | intro _ | split
theorem beginAttempt_still (s : State) : (beginAttempt s).still = s.still := by
  unfold beginAttempt; repeat' first | with_reducible rfl | with_reducible refine (State.modPwr_still ..).trans ?_ | with_reducible refine ite_still ?_ ?_ | extract_lets | intro _ | split
theorem reportPairs_still (s : State) : (reportPairs s).still = s.still := by
  unfold reportPairs; repeat' first | with_reducible rfl | with_reducible refine (raisePf_still ..).trans ?_ | with_reducible refine ite_still ?_ ?_ | with_reducible refine (foldl_still _ _ _ fun _ _ => ?_).trans ?_ | extract_lets | intro _ | split
theorem enterState_still (st : DevState) (s : State) : (enterState st s).still = s.still := by
  unfold enterState; repeat' first | with_reducible rfl | with_reducible refine (State.modPwr_still ..).trans ?_ | with_reducible refine (raisePf_still ..).trans ?_ | with_reducible refine ite_still ?_ ?_ | extract_lets | intro _ | split
theorem backToRun_still (s : State) : (backToRun s).still = s.still := by
  unfold backToRun; repeat' first | with_reducible rfl | with_reducible refine (State.modPwr_still ..).trans ?_ | with_reducible refine (restorePorts_still ..).trans ?_ | with_reducible refine (noteLevels_still _ _ ?_).trans ?_ | with_reducible refine (enterState_still ..).trans ?_ | with_reducible refine (raisePf_still ..).trans ?_ | with_reducible refine ite_still ?_ ?_ | extract_lets | intro _ | split
theorem noteCause_still (code : Nat) (s : State) : (noteCause code s).still = s.still := by
  unfold noteCause; repeat' first | with_reducible rfl | with_reducible refine (State.modCore_still ..).trans ?_ | with_reducible refine ite_still ?_ ?_ | extract_lets | intro _ | split
theorem resetInst_still (i : Nat) (s : State) : (resetInst i s).still = s.still := by
  unfold resetInst; repeat' first | with_reducible rfl | with_reducible refine (clearInst_still ..).trans ?_ | with_reducible refine (modInst_still ..).trans ?_ | with_reducible refine ite_still ?_ ?_ | extract_lets | intro _ | split
theorem setHoldover_still (s : State) : (setHoldover s).still = s.still := by
  unfold setHoldover; repeat' first | with_reducible rfl | with_reducible refine (State.modCore_still ..).trans ?_ | with_reducible refine (State.modDom_still ..).trans ?_ | with_reducible refine ite_still ?_ ?_ | extract_lets | intro _ | split
theorem modGroup_still (i : Nat) (g : Nat) (f : OGroup → OGroup) (s : State) : (modGroup i g f s).still = s.still := by
  unfold modGroup; repeat' first | with_reducible rfl | with_reducible refine (modInst_still ..).trans ?_ | with_reducible refine ite_still ?_ ?_ | extract_lets | intro _ | split
theorem ocpLast_still (i : Nat) (g : Nat) (code : Nat) (word : Nat) (syn : Nat) (scrub : Bool) (s : State) : (ocpLast i g code word syn scrub s).still = s.still := by
  unfold ocpLast; repeat' first | with_reducible rfl | with_reducible refine (State.modOcp_still ..).trans ?_ | with_reducible refine ite_still ?_ ?_ | extract_lets | intro _ | split
theorem ocpCe_still (i : Nat) (word : Nat) (code : Nat) (syn : Nat) (scrub : Bool) (s : State) : (ocpCe i word code syn scrub s).still = s.still := by
  unfold ocpCe; repeat' first | with_reducible rfl | with_reducible refine (ocpLast_still ..).trans ?_ | with_reducible refine (modInst_still ..).trans ?_ | with_reducible refine (raisePf_still ..).trans ?_ | with_reducible refine (logError_still ..).trans ?_ | with_reducible refine ite_still ?_ ?_ | extract_lets | intro _ | split
theorem meetOdd_still (i : Nat) (word : Nat) (scrub : Bool) (s : State) : (meetOdd i word scrub s).still = s.still := by
  unfold meetOdd; repeat' first | with_reducible rfl | with_reducible refine (ocpCe_still ..).trans ?_ | with_reducible refine (modInst_still ..).trans ?_ | with_reducible refine ite_still ?_ ?_ | extract_lets | intro _ | split
theorem candidate_still (i : Nat) (word : Nat) (b : Option Nat) (s : State) : (candidate i word b s).still = s.still := by
  unfold candidate; repeat' first | with_reducible rfl | with_reducible refine (modGroup_still ..).trans ?_ | with_reducible refine ite_still ?_ ?_ | extract_lets | intro _ | split
theorem putWord_still (i : Nat) (word : Nat) (w : OWord) (s : State) : (putWord i word w s).still = s.still := by
  unfold putWord; repeat' first | with_reducible rfl | with_reducible refine (modInst_still ..).trans ?_ | with_reducible refine ite_still ?_ ?_ | extract_lets | intro _ | split
theorem injectWord_still (i : Nat) (word : Nat) (data : Nat) (poisoned : Bool) (s : State) : (injectWord i word data poisoned s).still = s.still := by
  unfold injectWord; repeat' first | with_reducible rfl | with_reducible refine (putWord_still ..).trans ?_ | with_reducible refine (State.modOcp_still ..).trans ?_ | with_reducible refine ite_still ?_ ?_ | extract_lets | intro _ | split
theorem storeWord_still (i : Nat) (word : Nat) (data : Nat) (s : State) : (storeWord i word data s).still = s.still := by
  unfold storeWord; repeat' first | with_reducible rfl | with_reducible refine (injectWord_still ..).trans ?_ | with_reducible refine ite_still ?_ ?_ | extract_lets | intro _ | split
theorem ocpUe_still (i : Nat) (word : Nat) (code : Nat) (syn : Nat) (cons : Nat) (scrub : Bool) (s : State) : (ocpUe i word code syn cons scrub s).still = s.still := by
  unfold ocpUe; repeat' first | with_reducible rfl | with_reducible refine (ocpLast_still ..).trans ?_ | with_reducible refine (modInst_still ..).trans ?_ | with_reducible refine (logError_still ..).trans ?_ | with_reducible refine (raiseSev_still ..).trans ?_ | with_reducible refine ite_still ?_ ?_ | extract_lets | intro _ | split
theorem ocpAlarm_still (b : Nat) (s : State) : (ocpAlarm b s).still = s.still := by
  unfold ocpAlarm; repeat' first | with_reducible rfl | with_reducible refine (State.modOcp_still ..).trans ?_ | with_reducible refine ite_still ?_ ?_ | extract_lets | intro _ | split
theorem degrade_still (i : Nat) (g : Nat) (reason : Nat) (s : State) : (degrade i g reason s).still = s.still := by
  unfold degrade; repeat' first | with_reducible rfl | with_reducible refine (modGroup_still ..).trans ?_ | with_reducible refine (raisePf_still ..).trans ?_ | with_reducible refine (ocpAlarm_still ..).trans ?_ | with_reducible refine ite_still ?_ ?_ | extract_lets | intro _ | split
theorem flushPoisoned_still (i : Nat) (m : Merge) (v : Nat) (s : State) : (flushPoisoned i m v s).still = s.still := by
  unfold flushPoisoned; repeat' first | with_reducible rfl | with_reducible refine (completeId_still ..).trans ?_ | with_reducible refine (raisePf_still ..).trans ?_ | with_reducible refine (injectWord_still ..).trans ?_ | with_reducible refine ite_still ?_ ?_ | with_reducible refine (foldl_still _ _ _ fun _ _ => ?_).trans ?_ | extract_lets | intro _ | split
theorem flushMerge_still (i : Nat) (m : Merge) (s : State) : (flushMerge i m s).still = s.still := by
  unfold flushMerge; repeat' first | with_reducible rfl | with_reducible refine (meetOdd_still ..).trans ?_ | with_reducible refine (ocpCe_still ..).trans ?_ | with_reducible refine (candidate_still ..).trans ?_ | with_reducible refine (storeWord_still ..).trans ?_ | with_reducible refine (ocpUe_still ..).trans ?_ | with_reducible refine (degrade_still ..).trans ?_ | with_reducible refine (flushPoisoned_still ..).trans ?_ | with_reducible refine ite_still ?_ ?_ | extract_lets | intro _ | split
theorem flushWord_still (i : Nat) (word : Nat) (s : State) : (flushWord i word s).still = s.still := by
  unfold flushWord; repeat' first | with_reducible rfl | with_reducible refine (modGroup_still ..).trans ?_ | with_reducible refine (flushMerge_still ..).trans ?_ | with_reducible refine ite_still ?_ ?_ | extract_lets | intro _ | split
theorem flushInst_still (i : Nat) (s : State) : (flushInst i s).still = s.still := by
  unfold flushInst; repeat' first | with_reducible rfl | with_reducible refine (flushWord_still ..).trans ?_ | with_reducible refine ite_still ?_ ?_ | with_reducible refine (foldl_still _ _ _ fun _ _ => ?_).trans ?_ | extract_lets | intro _ | split
theorem flushKept_still (keeps : Nat → Bool) (s : State) : (flushKept keeps s).still = s.still := by
  unfold flushKept; repeat' first | with_reducible rfl | with_reducible refine (flushInst_still ..).trans ?_ | with_reducible refine ite_still ?_ ?_ | with_reducible refine (forEach_still _ _ _ fun _ _ => ?_).trans ?_ | extract_lets | intro _ | split
theorem agentVote_still (place : Bool) (s : State) : (agentVote place s).still = s.still := by
  unfold agentVote; repeat' first | with_reducible rfl | with_reducible refine (modPdom_still ..).trans ?_ | with_reducible refine (settle_still ..).trans ?_ | with_reducible refine ite_still ?_ ?_ | extract_lets | intro _ | split
theorem setSleep_still (st : SleepState) (f : Sleep → Sleep) (s : State) : (setSleep st f s).still = s.still := by
  unfold setSleep; repeat' first | with_reducible rfl | with_reducible refine (State.modDom_still ..).trans ?_ | with_reducible refine (raisePf_still ..).trans ?_ | with_reducible refine ite_still ?_ ?_ | extract_lets | intro _ | split
theorem sendAll_still (l : List Nat) (b : DomBody) (s : State) : (sendAll l b s).still = s.still := by
  unfold sendAll; repeat' first | with_reducible rfl | with_reducible refine (sendMsg_still ..).trans ?_ | with_reducible refine ite_still ?_ ?_ | with_reducible refine (forEach_still _ _ _ fun _ _ => ?_).trans ?_ | extract_lets | intro _ | split
theorem agree_still (s : State) : (agree s).still = s.still := by
  unfold agree; repeat' first | with_reducible rfl | with_reducible refine (setSleep_still ..).trans ?_ | with_reducible refine (sendAll_still ..).trans ?_ | with_reducible refine ite_still ?_ ?_ | extract_lets | intro _ | split
theorem answerEvents_still (c : Cmd) (s : State) : (answerEvents c s).still = s.still := by
  unfold answerEvents; repeat' first | with_reducible rfl | with_reducible refine (complete_still ..).trans ?_ | with_reducible refine (updCmd_still ..).trans ?_ | with_reducible refine (answerRing_still ..).trans ?_ | with_reducible refine ite_still ?_ ?_ | extract_lets | intro _ | split
theorem answerPage_still (c : Cmd) (data : List Byte) (s : State) : (answerPage c data s).still = s.still := by
  unfold answerPage; repeat' first | with_reducible rfl | with_reducible refine (complete_still ..).trans ?_ | with_reducible refine (emitData_still ..).trans ?_ | with_reducible refine ite_still ?_ ?_ | extract_lets | intro _ | split
theorem lateNak_still (q : Nat) (psn : Nat) (code : Nat) (detail : Nat) (s : State) : (lateNak q psn code detail s).still = s.still := by
  unfold lateNak; repeat' first | with_reducible rfl | with_reducible refine (State.modRdm_still ..).trans ?_ | with_reducible refine (answerQp_still ..).trans ?_ | with_reducible refine ite_still ?_ ?_ | extract_lets | intro _ | split
theorem answerRequest_still (t : Token) (got : List (Nat × Nat × List PByte)) (code : Nat) (s : State) :
    (answerRequest t got code s).still = s.still := by
  unfold answerRequest
  refine ite_still (lateNak_still ..) (ite_still (answerQp_still ..) ?_)
  dsimp only; split
  · exact answerQp_still ..
  · exact (lateNak_still ..).trans (ite_still rfl (answerQp_still ..))
theorem answerRetained_still (c : Cmd) (s : State) : (answerRetained c s).still = s.still := by
  unfold answerRetained; repeat' first | with_reducible rfl | with_reducible refine (answerPage_still ..).trans ?_ | with_reducible refine (State.modHif_still ..).trans ?_ | with_reducible refine ite_still ?_ ?_ | extract_lets | intro _ | split
theorem readHealed_still (i off n : Nat) (d : Option (List Byte)) (s : State) : (readHealed i off n d s).2.still = s.still := by
  unfold readHealed; extract_lets b sp s1 s2 s3
  have h1 : s1.still = s.still := meetRange_still ..
  have h2 : s2.still = s.still := (emit_still ..).trans h1
  unfold s3; dsimp only
  repeat' first
    | exact h1 | exact h2 | split
    | exact (forEach_still _ _ _ fun _ _ => ite_still (writeBin_still ..) rfl).trans h2
theorem readHealed_still' {i : Nat} {off : Nat} {n : Nat} {standby : Option (List Byte)} {s : State} {p_ : List PByte × State} (h_ : readHealed i off n standby s = p_) : p_.2.still = s.still := (congrArg (fun x : List PByte × State => x.2.still) h_).symm.trans (readHealed_still ..)
theorem answerToken_still (t : Token) (code : Nat) (relay : Option (List Byte)) (s : State) : (answerToken t code relay s).still = s.still := by
  unfold answerToken; repeat' first | with_reducible rfl | with_reducible refine (State.modTly_still ..).trans ?_ | with_reducible refine (readHealed_still' (by assumption)).trans ?_ | with_reducible refine (readHealed_still ..).trans ?_ | with_reducible refine (answerRequest_still ..).trans ?_ | with_reducible refine ite_still ?_ ?_ | dsimp only | intro _ | split
theorem modFlm_still (p : Nat) (f : Flm → Flm) (s : State) : (modFlm p f s).still = s.still := by
  unfold modFlm; repeat' first | with_reducible rfl | with_reducible refine (modPort_still ..).trans ?_ | with_reducible refine ite_still ?_ ?_ | extract_lets | intro _ | split
theorem sample_still (source : Nat) (x : Nat) (p : Mon → Bool) (s : State) : (sample source x p s).still = s.still := by
  unfold sample; repeat' first | with_reducible rfl | with_reducible refine (State.modEvt_still ..).trans ?_ | with_reducible refine ite_still ?_ ?_ | extract_lets | intro _ | split
theorem endEpisode_still (p : Nat) (since : Nat) (s : State) : (endEpisode p since s).still = s.still := by
  unfold endEpisode; repeat' first | with_reducible rfl | with_reducible refine (modFlm_still ..).trans ?_ | with_reducible refine (sample_still ..).trans ?_ | with_reducible refine ite_still ?_ ?_ | extract_lets | intro _ | split
theorem eventAll_still (code : Nat) (a1 : Nat) (a2 : Nat) (s : State) : (eventAll code a1 a2 s).still = s.still := by
  unfold eventAll; repeat' first | with_reducible rfl | with_reducible refine (eventTo_still ..).trans ?_ | with_reducible refine ite_still ?_ ?_ | with_reducible refine (forEach_still _ _ _ fun _ _ => ?_).trans ?_ | extract_lets | intro _ | split
theorem qpError_still (q : Nat) (flight : Status) (rest : Status) (tell : Option Status) (s : State) : (qpError q flight rest tell s).still = s.still := by
  unfold qpError; repeat' first | with_reducible rfl | with_reducible refine (endQps_still ..).trans ?_ | with_reducible refine ite_still ?_ ?_ | extract_lets | intro _ | split
theorem portQpsError_still (p : Nat) (flight : Status) (s : State) : (portQpsError p flight s).still = s.still := by
  unfold portQpsError; repeat' first | with_reducible rfl | with_reducible refine (qpError_still ..).trans ?_ | with_reducible refine ite_still ?_ ?_ | with_reducible refine (foldl_still _ _ _ fun _ _ => ?_).trans ?_ | extract_lets | intro _ | split
theorem linkDown_still (p : Nat) (cause : Nat) (seq : Nat) (flight : Status) (s : State) : (linkDown p cause seq flight s).still = s.still := by
  unfold linkDown; repeat' first | with_reducible rfl | with_reducible refine (modPort_still ..).trans ?_ | with_reducible refine (endEpisode_still ..).trans ?_ | with_reducible refine (raisePf_still ..).trans ?_ | with_reducible refine (eventAll_still ..).trans ?_ | with_reducible refine (portQpsError_still ..).trans ?_ | with_reducible refine ite_still ?_ ?_ | extract_lets | intro _ | split
theorem noteNak_still (p : Nat) (s : State) : (noteNak p s).still = s.still := by
  unfold noteNak; repeat' first | with_reducible rfl | with_reducible refine (modFlm_still ..).trans ?_ | with_reducible refine ite_still ?_ ?_ | extract_lets | intro _ | split
theorem applyCtl_still (p : Nat) (c : Ctl) (s : State) : (applyCtl p c s).still = s.still := by
  unfold applyCtl; repeat' first | with_reducible rfl | with_reducible refine (linkDown_still ..).trans ?_ | with_reducible refine (noteNak_still ..).trans ?_ | with_reducible refine (modFlm_still ..).trans ?_ | with_reducible refine ite_still ?_ ?_ | extract_lets | intro _ | split
theorem applyMode_still (p : Nat) (m : PortMode) (retrain : Bool) (s : State) : (applyMode p m retrain s).still = s.still := by
  unfold applyMode; repeat' first | with_reducible rfl | with_reducible refine (modPort_still ..).trans ?_ | with_reducible refine (linkDown_still ..).trans ?_ | with_reducible refine (noteLevels_still _ _ ?_).trans ?_ | with_reducible refine ite_still ?_ ?_ | extract_lets | intro _ | split
theorem applyReport_still (rid pr tr : Nat) (f g : Bool) (s : State) : (applyReport rid pr tr f g s).2.still = s.still := by
  unfold applyReport; split
  · rfl
  · extract_lets local_ tr' s1 reason base
    have h1 : s1.still = s.still := by
      unfold s1; split
      · exact (raise_still ..).trans (modRace_still ..)
      · rfl
    repeat' first | exact h1 | exact (modRace_still ..).trans h1 | split
theorem applyReport_still' {rid : Nat} {pr : Nat} {tr : Nat} {flushed : Bool} {fromSuspect : Bool} {s : State} {p_ : Nat × State} (h_ : applyReport rid pr tr flushed fromSuspect s = p_) : p_.2.still = s.still := (congrArg (fun x : Nat × State => x.2.still) h_).symm.trans (applyReport_still ..)
theorem quietAgain_still (s : State) : (quietAgain s).still = s.still := by
  unfold quietAgain; repeat' first | with_reducible rfl | with_reducible refine (State.modDom_still ..).trans ?_ | with_reducible refine ite_still ?_ ?_ | extract_lets | intro _ | split
theorem upCheck_still (s : State) : (upCheck s).still = s.still := by
  unfold upCheck; repeat' first | with_reducible rfl | with_reducible refine (State.modGrn_still ..).trans ?_ | with_reducible refine ite_still ?_ ?_ | extract_lets | intro _ | split
theorem applyTable_still (t : MTable) (bytes : List Byte) (s : State) : (applyTable t bytes s).still = s.still := by
  unfold applyTable; repeat' first | with_reducible rfl | with_reducible refine (quietAgain_still ..).trans ?_ | with_reducible refine (upCheck_still ..).trans ?_ | with_reducible refine (State.modDom_still ..).trans ?_ | with_reducible refine (raisePf_still ..).trans ?_ | with_reducible refine ite_still ?_ ?_ | extract_lets | intro _ | split
theorem applyStored_still (s : State) : (applyStored s).still = s.still := by
  unfold applyStored; repeat' first | with_reducible rfl | with_reducible refine (applyTable_still ..).trans ?_ | with_reducible refine ite_still ?_ ?_ | extract_lets | intro _ | split
theorem logAttempt_still (c : Cmd) (outcome : Status) (s : State) : (logAttempt c outcome s).still = s.still := by
  unfold logAttempt; repeat' first | with_reducible rfl | with_reducible refine (State.modStore_still ..).trans ?_ | with_reducible refine ite_still ?_ ?_ | extract_lets | intro _ | split
theorem logRefused_still (c : Cmd) (outcome : Status) (s : State) : (logRefused c outcome s).still = s.still := by
  unfold logRefused; repeat' first | with_reducible rfl | with_reducible refine (logAttempt_still ..).trans ?_ | with_reducible refine ite_still ?_ ?_ | extract_lets | intro _ | split
theorem sendForward_still (c : Cmd) (member : Nat) (s : State) : (sendForward c member s).still = s.still := by
  unfold sendForward; repeat' first | with_reducible rfl | with_reducible refine (sendMsg_still ..).trans ?_ | with_reducible refine (State.modGrn_still ..).trans ?_ | with_reducible refine (complete_still ..).trans ?_ | with_reducible refine (updCmd_still ..).trans ?_ | with_reducible refine ite_still ?_ ?_ | extract_lets | intro _ | split
theorem launch_still (c : Cmd) (s : State) : (launch c s).still = s.still := by
  unfold launch; repeat' first | with_reducible rfl | with_reducible refine (State.modMail_still ..).trans ?_ | with_reducible refine (logRefused_still ..).trans ?_ | with_reducible refine (complete_still ..).trans ?_ | with_reducible refine (updCmd_still ..).trans ?_ | with_reducible refine ite_still ?_ ?_ | extract_lets | intro _ | split
theorem startCmd_still (c : Cmd) (s : State) : (startCmd c s).still = s.still := by
  unfold startCmd; repeat' first | with_reducible rfl | with_reducible refine (sendForward_still ..).trans ?_ | with_reducible refine (launch_still ..).trans ?_ | with_reducible refine ite_still ?_ ?_ | extract_lets | intro _ | split
theorem arrive_still (o : Origin) (sq : Nat) (p : List Word) (env : Option Envelope) (input : List Byte) (s : State) : (arrive o sq p env input s).still = s.still := by
  unfold arrive; repeat' first | with_reducible rfl | with_reducible refine (logRefused_still ..).trans ?_ | with_reducible refine (State.modTly_still ..).trans ?_ | with_reducible refine (deliverK_still ..).trans ?_ | with_reducible refine (startCmd_still ..).trans ?_ | with_reducible refine (logError_still ..).trans ?_ | with_reducible refine (State.modHif_still ..).trans ?_ | with_reducible refine ite_still ?_ ?_ | dsimp only | intro _ | split
theorem askPromotion_still (s : State) : (askPromotion s).still = s.still := by
  unfold askPromotion; repeat' first | with_reducible rfl | with_reducible refine (notice_still ..).trans ?_ | with_reducible refine (State.modGrn_still ..).trans ?_ | with_reducible refine ite_still ?_ ?_ | extract_lets | intro _ | split
theorem askYield_still (n : Nat) (for_ : Option Nat) (s : State) : (askYield n for_ s).still = s.still := by
  unfold askYield; repeat' first | with_reducible rfl | with_reducible refine (modItem_still ..).trans ?_ | with_reducible refine ite_still ?_ ?_ | extract_lets | intro _ | split
theorem badFlit_still (p : Nat) (seq : Nat) (s : State) : (badFlit p seq s).still = s.still := by
  unfold badFlit; repeat' first | with_reducible rfl | with_reducible refine (linkDown_still ..).trans ?_ | with_reducible refine (modFlm_still ..).trans ?_ | with_reducible refine ite_still ?_ ?_ | extract_lets | intro _ | split
theorem noteFault_still (f : XFault) (s : State) : (noteFault f s).still = s.still := by
  unfold noteFault; repeat' first | with_reducible rfl | with_reducible refine (noteErr_still ..).trans ?_ | with_reducible refine (State.modMem_still ..).trans ?_ | with_reducible refine ite_still ?_ ?_ | extract_lets | intro _ | split
theorem bar4Fault_still (fn : Nat) (off : Nat) (f : XFault) (s : State) : (bar4Fault fn off f s).still = s.still := by
  unfold bar4Fault; repeat' first | with_reducible rfl | with_reducible refine (noteFault_still ..).trans ?_ | with_reducible refine (raise_still ..).trans ?_ | with_reducible refine ite_still ?_ ?_ | extract_lets | intro _ | split
theorem restoreWords_still (base : Nat) (words : Tbl (Tbl OWord)) (s : State) : (restoreWords base words s).still = s.still := by
  unfold restoreWords; repeat' first | with_reducible rfl | with_reducible refine (modInst_still ..).trans ?_ | with_reducible refine ite_still ?_ ?_ | with_reducible refine (foldl_still _ _ _ fun _ _ => ?_).trans ?_ | extract_lets | intro _ | split
theorem beginItem_still (n : Nat) (s : State) : (beginItem n s).still = s.still := by
  unfold beginItem; repeat' first | with_reducible rfl | with_reducible refine (modItem_still ..).trans ?_ | with_reducible refine (restoreWords_still ..).trans ?_ | with_reducible refine ite_still ?_ ?_ | extract_lets | intro _ | split
theorem binEntries_still (s : State) (i : Item) (m : Image) : (binEntries s i m).still = s.still := by
  unfold binEntries; repeat' first | with_reducible rfl | with_reducible refine (readEntry_still ..).trans ?_ | with_reducible refine ite_still ?_ ?_ | with_reducible refine (foldl_still _ _ _ fun _ _ => ?_).trans ?_ | extract_lets | intro _ | split
theorem bootMw_still (s : State) : (bootMw s).still = s.still := by
  unfold bootMw; repeat' first | with_reducible rfl | with_reducible refine (State.modMwr_still ..).trans ?_ | with_reducible refine ite_still ?_ ?_ | extract_lets | intro _ | split
theorem regionSizes_still (s : State) : (regionSizes s).still = s.still := by
  unfold regionSizes; repeat' first | with_reducible rfl | with_reducible refine (State.modMem_still ..).trans ?_ | with_reducible refine ite_still ?_ ?_ | extract_lets | intro _ | split
theorem broughtUp_still (s : State) : (broughtUp s).still = s.still := by
  unfold broughtUp; repeat' first | with_reducible rfl | with_reducible refine (State.modPwr_still ..).trans ?_ | with_reducible refine (modPdom_still ..).trans ?_ | with_reducible refine (noteLevels_still _ _ ?_).trans ?_ | with_reducible refine (State.modCore_still ..).trans ?_ | with_reducible refine (State.modGrn_still ..).trans ?_ | with_reducible refine (settleVotes_still ..).trans ?_ | with_reducible refine (regionSizes_still ..).trans ?_ | with_reducible refine (raisePf_still ..).trans ?_ | with_reducible refine (State.modHif_still ..).trans ?_ | with_reducible refine ite_still ?_ ?_ | extract_lets | intro _ | split
theorem modBed_still (n : Nat) (k : Nat) (f : Bed → Bed) (s : State) : (modBed n k f s).still = s.still := by
  unfold modBed; repeat' first | with_reducible rfl | with_reducible refine (modItem_still ..).trans ?_ | with_reducible refine ite_still ?_ ?_ | extract_lets | intro _ | split
theorem readWord_still (i w c : Nat) (s : State) : (readWord i w c s).2.still = s.still := by
  unfold readWord; extract_lets s1
  have h1 : s1.still = s.still := (meetOdd_still ..).trans (flushWord_still ..)
  clear_value s1
  split; split <;> dsimp only
  · exact h1
  · with_reducible exact (candidate_still ..).trans ((ocpCe_still ..).trans ((storeWord_still ..).trans h1))
  · with_reducible exact (candidate_still ..).trans ((ocpCe_still ..).trans ((storeWord_still ..).trans h1))
  · with_reducible exact (degrade_still ..).trans ((ocpUe_still ..).trans h1)
  · with_reducible exact (candidate_still ..).trans ((ocpUe_still ..).trans h1)
  · with_reducible exact (ocpUe_still ..).trans h1
theorem readWord_still' {i : Nat} {word : Nat} {cons : Nat} {s : State} {p_ : (Nat × Bool) × State} (h_ : readWord i word cons s = p_) : p_.2.still = s.still := (congrArg (fun x : (Nat × Bool) × State => x.2.still) h_).symm.trans (readWord_still ..)
theorem readScratch_still (a b n : Nat) (s : State) : (readScratch a b n s).2.still = s.still := by
  unfold readScratch; extract_lets first count r
  refine foldlSnd_still _ _ _ fun acc k => ?_
  exact readWord_still ..
theorem readScratch_still' {stone : Nat} {off : Nat} {n : Nat} {s : State} {p_ : List PByte × State} (h_ : readScratch stone off n s = p_) : p_.2.still = s.still := (congrArg (fun x : List PByte × State => x.2.still) h_).symm.trans (readScratch_still ..)
theorem readRanges_still (stone : Nat) (l : List (Nat × Nat)) (s : State) : (readRanges stone l s).2.still = s.still := by
  unfold readRanges; exact foldlSnd_still _ _ _ fun _ _ => readScratch_still ..
theorem readRanges_still' {stone : Nat} {l : List (Nat × Nat)} {s : State} {p_ : Bool × State} (h_ : readRanges stone l s = p_) : p_.2.still = s.still := (congrArg (fun x : Bool × State => x.2.still) h_).symm.trans (readRanges_still ..)
theorem opPoisoned_still (b : Bed) (n : Nat) (o : OpFx) (s : State) : (opPoisoned b n o s).2.still = s.still := readRanges_still ..
theorem opPoisoned_still' {b : Bed} {stone : Nat} {o : OpFx} {s : State} {p_ : Bool × State} (h_ : opPoisoned b stone o s = p_) : p_.2.still = s.still := (congrArg (fun x : Bool × State => x.2.still) h_).symm.trans (opPoisoned_still ..)
theorem poisonWord_still (i : Nat) (word : Nat) (data : Nat) (s : State) : (poisonWord i word data s).still = s.still := by
  unfold poisonWord; repeat' first | with_reducible rfl | with_reducible refine (putWord_still ..).trans ?_ | with_reducible refine ite_still ?_ ?_ | extract_lets | intro _ | split
theorem flushOldest_still (i : Nat) (g : Nat) (s : State) : (flushOldest i g s).still = s.still := by
  unfold flushOldest; repeat' first | with_reducible rfl | with_reducible refine (modGroup_still ..).trans ?_ | with_reducible refine (flushMerge_still ..).trans ?_ | with_reducible refine ite_still ?_ ?_ | extract_lets | intro _ | split
theorem partialWrite_still (i : Nat) (word : Nat) (mask : Nat) (data : Nat) (who : Option CmdId) (s : State) : (partialWrite i word mask data who s).still = s.still := by
  unfold partialWrite; repeat' first | with_reducible rfl | with_reducible refine (flushOldest_still ..).trans ?_ | with_reducible refine (modGroup_still ..).trans ?_ | with_reducible refine (flushWord_still ..).trans ?_ | with_reducible refine ite_still ?_ ?_ | dsimp only | intro _ | split
theorem fullWrite_still (i : Nat) (word : Nat) (data : Nat) (s : State) : (fullWrite i word data s).still = s.still := by
  unfold fullWrite; repeat' first | with_reducible rfl | with_reducible refine (modGroup_still ..).trans ?_ | with_reducible refine (storeWord_still ..).trans ?_ | with_reducible refine ite_still ?_ ?_ | extract_lets | intro _ | split
theorem putScratchWord_still (stone : Nat) (off : Nat) (l : List PByte) (word : Nat) (s : State) : (putScratchWord stone off l word s).still = s.still := by
  unfold putScratchWord; repeat' first | with_reducible rfl | with_reducible refine (flushWord_still ..).trans ?_ | with_reducible refine (poisonWord_still ..).trans ?_ | with_reducible refine (partialWrite_still ..).trans ?_ | with_reducible refine (fullWrite_still ..).trans ?_ | with_reducible refine ite_still ?_ ?_ | with_reducible refine (foldl_still _ _ _ fun _ _ => ?_).trans ?_ | extract_lets | intro _ | split
theorem writeScratch_still (stone : Nat) (off : Nat) (l : List PByte) (s : State) : (writeScratch stone off l s).still = s.still := by
  unfold writeScratch; repeat' first | with_reducible rfl | with_reducible refine (putScratchWord_still ..).trans ?_ | with_reducible refine ite_still ?_ ?_ | with_reducible refine (forEach_still _ _ _ fun _ _ => ?_).trans ?_ | extract_lets | intro _ | split
theorem opStores_still (stone : Nat) (o : OpFx) (bad : Bool) (s : State) : (opStores stone o bad s).still = s.still := by
  unfold opStores; repeat' first | with_reducible rfl | with_reducible refine (writeScratch_still ..).trans ?_ | with_reducible refine ite_still ?_ ?_ | with_reducible refine (foldl_still _ _ _ fun _ _ => ?_).trans ?_ | extract_lets | intro _ | split
theorem bundleResults_still (n : Nat) (k : Nat) (stone : Nat) (b : Bed) (fx : BundleFx) (s : State) : (bundleResults n k stone b fx s).still = s.still := by
  unfold bundleResults; repeat' first | with_reducible rfl | with_reducible refine (modBed_still ..).trans ?_ | with_reducible refine (opPoisoned_still' (by assumption)).trans ?_ | with_reducible refine (opPoisoned_still ..).trans ?_ | with_reducible refine (opStores_still ..).trans ?_ | with_reducible refine ite_still ?_ ?_ | extract_lets | intro _ | split
theorem dropRecv_still (srq : Bool) (n : Nat) (k : Nat) (s : State) : (dropRecv srq n k s).still = s.still := by
  unfold dropRecv; repeat' first | with_reducible rfl | with_reducible refine (State.modRdm_still ..).trans ?_ | with_reducible refine (modQp_still ..).trans ?_ | with_reducible refine ite_still ?_ ?_ | extract_lets | intro _ | split
theorem srqLimit_still (n : Nat) (s : State) : (srqLimit n s).still = s.still := by
  unfold srqLimit; repeat' first | with_reducible rfl | with_reducible refine (State.modRdm_still ..).trans ?_ | with_reducible refine (eventTo_still ..).trans ?_ | with_reducible refine ite_still ?_ ?_ | extract_lets | intro _ | split
theorem recvFail_still (srq : Bool) (n : Nat) (wrId : Nat) (st : Status) (detail : Nat) (s : State) : (recvFail srq n wrId st detail s).still = s.still := by
  unfold recvFail; repeat' first | with_reducible rfl | with_reducible refine (qpError_still ..).trans ?_ | with_reducible refine (srqLimit_still ..).trans ?_ | with_reducible refine (wcOut_still ..).trans ?_ | with_reducible refine ite_still ?_ ?_ | with_reducible refine (forEach_still _ _ _ fun _ _ => ?_).trans ?_ | extract_lets | intro _ | split
theorem cancelRecv_still (leaves : List Extent) (lo : Nat) (w : Bool × Nat × Nat) (s : State) : (cancelRecv leaves lo w s).still = s.still := by
  unfold cancelRecv; repeat' first | with_reducible rfl | with_reducible refine (noteFault_still ..).trans ?_ | with_reducible refine (dropRecv_still ..).trans ?_ | with_reducible refine (recvFail_still ..).trans ?_ | with_reducible refine ite_still ?_ ?_ | extract_lets | intro _ | split
theorem xlateFault_still (c : Cmd) (f : XFault) (item : Nat) (s : State) : (xlateFault c f item s).still = s.still := by
  unfold xlateFault; repeat' first | with_reducible rfl | with_reducible refine (noteFault_still ..).trans ?_ | with_reducible refine (complete_still ..).trans ?_ | with_reducible refine ite_still ?_ ?_ | extract_lets | intro _ | split
theorem cancelled_still (leaves : List Extent) (lo : Nat) (id : CmdId) (h : Held) (s : State) : (cancelled leaves lo id h s).still = s.still := by
  unfold cancelled; repeat' first | with_reducible rfl | with_reducible refine (xlateFault_still ..).trans ?_ | with_reducible refine ite_still ?_ ?_ | extract_lets | intro _ | split
theorem clearScratch_still (s : State) : (clearScratch s).still = s.still := by
  unfold clearScratch; repeat' first | with_reducible rfl | with_reducible refine (resetInst_still ..).trans ?_ | with_reducible refine ite_still ?_ ?_ | with_reducible refine (forEach_still _ _ _ fun _ _ => ?_).trans ?_ | extract_lets | intro _ | split
theorem dropFrames_still (rid : Nat) (s : State) : (dropFrames rid s).still = s.still := by
  unfold dropFrames; repeat' first | with_reducible rfl | with_reducible refine (State.modChk_still ..).trans ?_ | with_reducible refine ite_still ?_ ?_ | extract_lets | intro _ | split
theorem closeRace_still (rid : Nat) (cause : Nat) (s : State) : (closeRace rid cause s).still = s.still := by
  unfold closeRace; repeat' first | with_reducible rfl | with_reducible refine (State.modTrn_still ..).trans ?_ | with_reducible refine (State.modWhl_still ..).trans ?_ | with_reducible refine (dropFrames_still ..).trans ?_ | with_reducible refine (endTurn_still ..).trans ?_ | with_reducible refine ite_still ?_ ?_ | with_reducible refine (forEach_still _ _ _ fun _ _ => ?_).trans ?_ | extract_lets | intro _ | split
theorem modPeer_still (m : Nat) (f : Peer → Peer) (s : State) : (modPeer m f s).still = s.still := by
  unfold modPeer; repeat' first | with_reducible rfl | with_reducible refine (State.modDom_still ..).trans ?_ | with_reducible refine ite_still ?_ ?_ | extract_lets | intro _ | split
theorem comesUp_still (m : Nat) (told : Bool) (s : State) : (comesUp m told s).still = s.still := by
  unfold comesUp; repeat' first | with_reducible rfl | with_reducible refine (sendMsg_still ..).trans ?_ | with_reducible refine (modPeer_still ..).trans ?_ | with_reducible refine (upCheck_still ..).trans ?_ | with_reducible refine (raisePf_still ..).trans ?_ | with_reducible refine ite_still ?_ ?_ | extract_lets | intro _ | split
theorem failInternal_still (id : CmdId) (e : Err) (s : State) : (failInternal id e s).still = s.still := by
  unfold failInternal; repeat' first | with_reducible rfl | with_reducible refine (completeId_still ..).trans ?_ | with_reducible refine (logError_still ..).trans ?_ | with_reducible refine ite_still ?_ ?_ | extract_lets | intro _ | split
theorem commitFails_still (c : Cmd) (code : Nat) (s : State) : (commitFails c code s).still = s.still := by
  unfold commitFails; repeat' first | with_reducible rfl | with_reducible refine (State.modMwr_still ..).trans ?_ | with_reducible refine (failInternal_still ..).trans ?_ | with_reducible refine (complete_still ..).trans ?_ | with_reducible refine ite_still ?_ ?_ | extract_lets | intro _ | split
theorem configured_still (s : State) : (configured s).still = s.still := by
  unfold configured; repeat' first | with_reducible rfl | with_reducible refine (State.modUsb_still ..).trans ?_ | with_reducible refine ite_still ?_ ?_ | extract_lets | intro _ | split
theorem recLost_still (r : MapRec) (s : State) : (recLost r s).still = s.still := by
  unfold recLost; repeat' first | with_reducible rfl | with_reducible refine (eventTo_still ..).trans ?_ | with_reducible refine ite_still ?_ ?_ | extract_lets | intro _ | split
theorem correctRecords_still (h : Nat) (from_ : Nat) (st : Status) (detail : Nat) (s : State) : (correctRecords h from_ st detail s).still = s.still := by
  unfold correctRecords; repeat' first | with_reducible rfl | with_reducible refine (State.modGrn_still ..).trans ?_ | with_reducible refine (recLost_still ..).trans ?_ | with_reducible refine ite_still ?_ ?_ | with_reducible refine (foldl_still _ _ _ fun _ _ => ?_).trans ?_ | extract_lets | intro _ | split
theorem countBad_still (p : Nat) (s : State) : (countBad p s).still = s.still := by
  unfold countBad; repeat' first | with_reducible rfl | with_reducible refine (raisePf_still ..).trans ?_ | with_reducible refine (modFlm_still ..).trans ?_ | with_reducible refine ite_still ?_ ?_ | extract_lets | intro _ | split
theorem countMapIn_still (b : Nat) (s : State) : (countMapIn b s).still = s.still := by
  unfold countMapIn; repeat' first | with_reducible rfl | with_reducible refine (modTally_still ..).trans ?_ | with_reducible refine (disturb_still ..).trans ?_ | with_reducible refine (updTally_still ..).trans ?_ | with_reducible refine ite_still ?_ ?_ | extract_lets | intro _ | split
theorem countMapOut_still (b : Nat) (s : State) : (countMapOut b s).still = s.still := by
  unfold countMapOut; repeat' first | with_reducible rfl | with_reducible refine (disturb_still ..).trans ?_ | with_reducible refine (updTally_still ..).trans ?_ | with_reducible refine ite_still ?_ ?_ | extract_lets | intro _ | split
theorem countOut_still (b : Nat) (s : State) : (countOut b s).still = s.still := by
  unfold countOut; repeat' first | with_reducible rfl | with_reducible refine (disturb_still ..).trans ?_ | with_reducible refine (updTally_still ..).trans ?_ | with_reducible refine ite_still ?_ ?_ | extract_lets | intro _ | split
theorem startCtlReset_still (code : Nat) (s : State) : (startCtlReset code s).still = s.still := by
  unfold startCtlReset; repeat' first | with_reducible rfl | with_reducible refine (State.modMail_still ..).trans ?_ | with_reducible refine (State.modCore_still ..).trans ?_ | with_reducible refine (noteCause_still ..).trans ?_ | with_reducible refine (resetInst_still ..).trans ?_ | with_reducible refine (State.modMem_still ..).trans ?_ | with_reducible refine (flushKept_still ..).trans ?_ | with_reducible refine ite_still ?_ ?_ | extract_lets | intro _ | split
theorem noteFatal_still (cause : Nat) (s : State) : (noteFatal cause s).still = s.still := by
  unfold noteFatal; repeat' first | with_reducible rfl | with_reducible refine (State.modEvt_still ..).trans ?_ | with_reducible refine ite_still ?_ ?_ | extract_lets | intro _ | split
theorem ctlFatal_still (s : State) : (ctlFatal s).still = s.still := by
  unfold ctlFatal; repeat' first | with_reducible rfl | with_reducible refine (startCtlReset_still ..).trans ?_ | with_reducible refine (logError_still ..).trans ?_ | with_reducible refine (noteFatal_still ..).trans ?_ | with_reducible refine ite_still ?_ ?_ | extract_lets | intro _ | split
theorem tellMwDat_still (m : Msg) (s : State) : (tellMwDat m s).still = s.still := by
  unfold tellMwDat; repeat' first | with_reducible rfl | with_reducible refine (State.modMail_still ..).trans ?_ | with_reducible refine ite_still ?_ ?_ | extract_lets | intro _ | split
theorem loseCounts_still (s : State) : (loseCounts s).still = s.still := by
  unfold loseCounts; repeat' first | with_reducible rfl | with_reducible refine (disturb_still ..).trans ?_ | with_reducible refine (State.modTly_still ..).trans ?_ | with_reducible refine (State.modGrn_still ..).trans ?_ | with_reducible refine ite_still ?_ ?_ | with_reducible refine (forEach_still _ _ _ fun _ _ => ?_).trans ?_ | extract_lets | intro _ | split
theorem startDatReset_still (code : Nat) (s : State) : (startDatReset code s).still = s.still := by
  unfold startDatReset; repeat' first | with_reducible rfl | with_reducible refine (qpError_still ..).trans ?_ | with_reducible refine (settleFences_still ..).trans ?_ | with_reducible refine (State.modMail_still ..).trans ?_ | with_reducible refine (clearScratch_still ..).trans ?_ | with_reducible refine (State.modCore_still ..).trans ?_ | with_reducible refine (abortItems_still ..).trans ?_ | with_reducible refine (settleVotes_still ..).trans ?_ | with_reducible refine (noteCause_still ..).trans ?_ | with_reducible refine (abortLocal_still ..).trans ?_ | with_reducible refine (abortTests_still ..).trans ?_ | with_reducible refine (retrainPorts_still ..).trans ?_ | with_reducible refine (abortTurns_still ..).trans ?_ | with_reducible refine (loseCounts_still ..).trans ?_ | with_reducible refine (flushKept_still ..).trans ?_ | with_reducible refine ite_still ?_ ?_ | with_reducible refine (foldl_still _ _ _ fun _ _ => ?_).trans ?_ | extract_lets | intro _ | split
theorem datFatal_still (source : Nat) (s : State) : (datFatal source s).still = s.still := by
  unfold datFatal; repeat' first | with_reducible rfl | with_reducible refine (tellMwDat_still ..).trans ?_ | with_reducible refine (logError_still ..).trans ?_ | with_reducible refine (noteFatal_still ..).trans ?_ | with_reducible refine (startDatReset_still ..).trans ?_ | with_reducible refine ite_still ?_ ?_ | extract_lets | intro _ | split
theorem dbRefuse_still (s : State) : (dbRefuse s).still = s.still := by
  unfold dbRefuse; repeat' first | with_reducible rfl | with_reducible refine (State.modRdm_still ..).trans ?_ | with_reducible refine ite_still ?_ ?_ | extract_lets | intro _ | split
theorem wrFail_still (q : Nat) (w : Wr) (st : Status) (detail : Nat) (s : State) : (wrFail q w st detail s).still = s.still := by
  unfold wrFail; repeat' first | with_reducible rfl | with_reducible refine (qpError_still ..).trans ?_ | with_reducible refine (modQp_still ..).trans ?_ | with_reducible refine (wrDone_still ..).trans ?_ | with_reducible refine ite_still ?_ ?_ | extract_lets | intro _ | split
theorem reissueRead_still (q : Nat) (psn : Nat) (p : Qp) (w : Wr) (s : State) : (reissueRead q psn p w s).still = s.still := by
  unfold reissueRead; repeat' first | with_reducible rfl | with_reducible refine (sendPacket_still ..).trans ?_ | with_reducible refine (wrFail_still ..).trans ?_ | with_reducible refine (modQp_still ..).trans ?_ | with_reducible refine ite_still ?_ ?_ | extract_lets | intro _ | split
theorem e2eEvent_still (q : Nat) (s : State) : (e2eEvent q s).still = s.still := by
  unfold e2eEvent; repeat' first | with_reducible rfl | with_reducible refine (eventTo_still ..).trans ?_ | with_reducible refine (modQp_still ..).trans ?_ | with_reducible refine ite_still ?_ ?_ | extract_lets | intro _ | split
theorem e2eDrop_still (port : Nat) (q : Nat) (psn : Nat) (requester : Bool) (response : Bool) (s : State) : (e2eDrop port q psn requester response s).still = s.still := by
  unfold e2eDrop; repeat' first | with_reducible rfl | with_reducible refine (State.modRdm_still ..).trans ?_ | with_reducible refine (reissueRead_still ..).trans ?_ | with_reducible refine (e2eEvent_still ..).trans ?_ | with_reducible refine (nakQp_still ..).trans ?_ | with_reducible refine ite_still ?_ ?_ | extract_lets | intro _ | split
theorem e2eFail_still (port : Nat) (b : List Byte) (s : State) : (e2eFail port b s).still = s.still := by
  unfold e2eFail; repeat' first | with_reducible rfl | with_reducible refine (e2eDrop_still ..).trans ?_ | with_reducible refine ite_still ?_ ?_ | extract_lets | intro _ | split
theorem handUp_still (port : Nat) (pk : List Byte) (s : State) : (handUp port pk s).still = s.still := by
  unfold handUp; repeat' first | with_reducible rfl | with_reducible refine (idleExit_still ..).trans ?_ | with_reducible refine (emit_still ..).trans ?_ | with_reducible refine (e2eFail_still ..).trans ?_ | with_reducible refine (modQp_still ..).trans ?_ | with_reducible refine (modFlm_still ..).trans ?_ | with_reducible refine ite_still ?_ ?_ | extract_lets | intro _ | split
theorem deliverFlit_still (p : Nat) (b : FlitBody) (s : State) : (deliverFlit p b s).1.still = s.still := by
  unfold deliverFlit; extract_lets; split
  · rfl
  · exact (foldl_still _ _ _ fun _ _ => handUp_still ..).trans (modFlm_still ..)
theorem deliverFlit_still' {p : Nat} {b : FlitBody} {s : State} {p_ : State × Bool} (h_ : deliverFlit p b s = p_) : p_.1.still = s.still := (congrArg (fun x : State × Bool => x.1.still) h_).symm.trans (deliverFlit_still ..)
theorem deliverHeld_still (p n e : Nat) (s : State) : (deliverHeld p n e s).still = s.still := by
  induction n generalizing e s with
  | zero => rfl
  | succ n ih =>
    unfold deliverHeld; extract_lets; split
    · rfl
    · split <;> rename_i h <;> (have h2 := (congrArg (fun x => x.1.still) h).symm.trans ((deliverFlit_still ..).trans (modFlm_still ..)))
      · exact (ih ..).trans h2
      · exact (linkDown_still ..).trans h2
theorem noteWalks_still (h : Held) (s : State) : (noteWalks h s).still = s.still := by
  unfold noteWalks; repeat' first | with_reducible rfl | with_reducible refine (State.modMem_still ..).trans ?_ | with_reducible refine ite_still ?_ ?_ | with_reducible refine (foldl_still _ _ _ fun _ _ => ?_).trans ?_ | extract_lets | intro _ | split
theorem fetchRecv_still (srq : Bool) (n : Nat) (s : State) : (fetchRecv srq n s).still = s.still := by
  unfold fetchRecv; repeat' first | with_reducible rfl | with_reducible refine (State.modRdm_still ..).trans ?_ | with_reducible refine (noteFault_still ..).trans ?_ | with_reducible refine (recvFail_still ..).trans ?_ | with_reducible refine (modQp_still ..).trans ?_ | with_reducible refine (noteWalks_still ..).trans ?_ | with_reducible refine ite_still ?_ ?_ | dsimp only | intro _ | split
theorem takeRecv_still (q : Nat) (s : State) : (takeRecv q s).2.still = s.still := by
  unfold takeRecv; split
  · rfl
  · extract_lets srq n held s1
    have h1 : s1.still = s.still := ite_still (fetchRecv_still ..) rfl
    split
    · exact h1
    · extract_lets s2
      have h2 : s2.still = s.still := (dropRecv_still ..).trans h1
      exact ite_still ((srqLimit_still ..).trans h2) h2
theorem takeRecv_still' {q : Nat} {s : State} {p_ : Option RecvWr × State} (h_ : takeRecv q s = p_) : p_.2.still = s.still := (congrArg (fun x : Option RecvWr × State => x.2.still) h_).symm.trans (takeRecv_still ..)
theorem deliverSend_still (q psn next : Nat) (data : List Byte) (imm : Option Nat) (s : State) :
    (deliverSend q psn next data imm s).still = s.still := by
  unfold deliverSend; split
  · rfl
  · split <;> rename_i heq <;> have h := takeRecv_still' heq
    · exact ite_still ((answerQp_still ..).trans h) h
    · split
      · exact (nakQp_still ..).trans h
      · exact (wcOut_still ..).trans ((answerQp_still ..).trans ((writeHeld_still ..).trans h))
theorem dropDom_still (d : Nat) (s : State) : (dropDom d s).still = s.still := by
  unfold dropDom; repeat' first | with_reducible rfl | with_reducible refine (modPdom_still ..).trans ?_ | with_reducible refine ite_still ?_ ?_ | extract_lets | intro _ | split
theorem domainsDown_still (s : State) : (domainsDown s).still = s.still := by
  unfold domainsDown; repeat' first | with_reducible rfl | with_reducible refine (modPdom_still ..).trans ?_ | with_reducible refine (dropDom_still ..).trans ?_ | with_reducible refine ite_still ?_ ?_ | with_reducible refine (forEach_still _ _ _ fun _ _ => ?_).trans ?_ | extract_lets | intro _ | split
theorem drainCheck_still (q : Nat) (s : State) : (drainCheck q s).still = s.still := by
  unfold drainCheck; repeat' first | with_reducible rfl | with_reducible refine (completeId_still ..).trans ?_ | with_reducible refine (modQp_still ..).trans ?_ | with_reducible refine ite_still ?_ ?_ | extract_lets | intro _ | split
theorem drainMons_still (s : State) : (drainMons s).still = s.still := by
  unfold drainMons; repeat' first | with_reducible rfl | with_reducible refine (State.modEvt_still ..).trans ?_ | with_reducible refine ite_still ?_ ?_ | extract_lets | intro _ | split
theorem dropCached_still (leaves : List Extent) (asid : Nat) (lo : Nat) (hi : Nat) (s : State) : (dropCached leaves asid lo hi s).still = s.still := by
  unfold dropCached; repeat' first | with_reducible rfl | with_reducible refine (State.modMem_still ..).trans ?_ | with_reducible refine ite_still ?_ ?_ | extract_lets | intro _ | split
theorem dropMsg_still (s : State) : (dropMsg s).still = s.still := by
  unfold dropMsg; repeat' first | with_reducible rfl | with_reducible refine (State.modDom_still ..).trans ?_ | with_reducible refine ite_still ?_ ?_ | extract_lets | intro _ | split
theorem dryCheck_still (rid : Nat) (s : State) : (dryCheck rid s).still = s.still := by
  unfold dryCheck; repeat' first | with_reducible rfl | with_reducible refine (gapMarker_still ..).trans ?_ | with_reducible refine (putTailHeader_still ..).trans ?_ | with_reducible refine (modRace_still ..).trans ?_ | with_reducible refine (raise_still ..).trans ?_ | with_reducible refine ite_still ?_ ?_ | extract_lets | intro _ | split
theorem rebuildTurns_still (s : State) : (rebuildTurns s).still = s.still := by
  unfold rebuildTurns; repeat' first | with_reducible rfl | with_reducible refine (modTurn_still ..).trans ?_ | with_reducible refine (furlRaised_still ..).trans ?_ | with_reducible refine ite_still ?_ ?_ | with_reducible refine (foldl_still _ _ _ fun _ _ => ?_).trans ?_ | extract_lets | intro _ | split
theorem issue_still (key : Nat) (at_ : Nat) (s : State) : (issue key at_ s).still = s.still := by
  unfold issue; repeat' first | with_reducible rfl | with_reducible refine (act_still (by assumption)).trans ?_ | with_reducible refine (raise_still ..).trans ?_ | with_reducible refine ite_still ?_ ?_ | extract_lets | intro _ | split
theorem evalCog_still (k : Nat) (s : State) : (evalCog k s).2.still = s.still := by
  unfold evalCog; split <;> rfl
theorem evalCog_still' {key : Nat} {s : State} {p_ : Option Nat × State} (h_ : evalCog key s = p_) : p_.2.still = s.still := (congrArg (fun x : Option Nat × State => x.2.still) h_).symm.trans (evalCog_still ..)
theorem evalAllCogs_still (s : State) : (evalAllCogs s).still = s.still := by
  unfold evalAllCogs; extract_lets l s1 ev s2 s3
  have h1 : ev.2.still = s.still := by
    refine (foldlSnd_still _ _ _ fun a k => ?_).trans rfl
    have := evalCog_still k a.2
    split <;> rename_i h <;> (rw [h] at this; exact this)
  have h2 : s2.still = s.still := (forEach_still _ _ _ fun _ _ => dryCheck_still ..).trans h1
  have h3 : s3.still = s.still := (foldl_still _ _ _ fun _ _ => issue_still ..).trans h2
  exact (forEach_still _ _ _ fun _ _ => ite_still (touch_still ..) rfl).trans h3
theorem rebuildItems_still (s : State) : (rebuildItems s).still = s.still := by
  unfold rebuildItems; repeat' first | with_reducible rfl | with_reducible refine (State.modTrn_still ..).trans ?_ | with_reducible refine (dropItem_still ..).trans ?_ | with_reducible refine (modTally_still ..).trans ?_ | with_reducible refine (freeTurn_still ..).trans ?_ | with_reducible refine ite_still ?_ ?_ | with_reducible refine (foldl_still _ _ _ fun _ _ => ?_).trans ?_ | extract_lets | intro _ | split
theorem flushMarkers_still (rid n : Nat) (s : State) : (flushMarkers rid n s).still = s.still := by
  induction n generalizing s with
  | zero => rfl
  | succ n ih => unfold flushMarkers; repeat' first | rfl | split | exact (ih ..).trans ((putFrame_still ..).trans (modRace_still ..))
theorem endDatReset_still (s : State) : (endDatReset s).still = s.still := by
  unfold endDatReset; repeat' first | with_reducible rfl | with_reducible refine (State.modCore_still ..).trans ?_ | with_reducible refine (askPromotion_still ..).trans ?_ | with_reducible refine (modRace_still ..).trans ?_ | with_reducible refine (modEngine_still ..).trans ?_ | with_reducible refine (flushMarkers_still ..).trans ?_ | with_reducible refine (eventAll_still ..).trans ?_ | with_reducible refine ite_still ?_ ?_ | with_reducible refine (foldl_still _ _ _ fun _ _ => ?_).trans ?_ | extract_lets | intro _ | split
theorem endDrain_still (d : Drain) (s : State) : (endDrain d s).still = s.still := by
  unfold endDrain; repeat' first | with_reducible rfl | with_reducible refine (completeId_still ..).trans ?_ | with_reducible refine (State.modMem_still ..).trans ?_ | with_reducible refine ite_still ?_ ?_ | extract_lets | intro _ | split
theorem sampleFrame_still (rid : Nat) (f : FrameJob) (s : State) : (sampleFrame rid f s).still = s.still := by
  unfold sampleFrame; repeat' first | with_reducible rfl | with_reducible refine (sample_still ..).trans ?_ | with_reducible refine ite_still ?_ ?_ | extract_lets | intro _ | split
theorem landFrameOut_still (rid : Nat) (f : FrameJob) (check : Nat) (s : State) : (landFrameOut rid f check s).still = s.still := by
  unfold landFrameOut; repeat' first | with_reducible rfl | with_reducible refine (putFrame_still ..).trans ?_ | with_reducible refine (sampleFrame_still ..).trans ?_ | with_reducible refine (raise_still ..).trans ?_ | with_reducible refine ite_still ?_ ?_ | extract_lets | intro _ | split
theorem endFrameJob_still (f : FrameJob) (s : State) : (endFrameJob f s).still = s.still := by
  unfold endFrameJob; repeat' first | with_reducible rfl | with_reducible refine (modRace_still ..).trans ?_ | with_reducible refine (landFrameOut_still ..).trans ?_ | with_reducible refine (flushMarkers_still ..).trans ?_ | with_reducible refine ite_still ?_ ?_ | extract_lets | intro _ | split
theorem pushJob_still (n : Nat) (internal : Bool) (j : Job) (s : State) : (pushJob n internal j s).still = s.still := by
  unfold pushJob; repeat' first | with_reducible rfl | with_reducible refine (State.modChk_still ..).trans ?_ | with_reducible refine (modEngine_still ..).trans ?_ | with_reducible refine ite_still ?_ ?_ | extract_lets | intro _ | split
theorem pushLoadJob_still (ld : Loading) (n : Nat) (s : State) : (pushLoadJob ld n s).still = s.still := by
  unfold pushLoadJob; repeat' first | with_reducible rfl | with_reducible refine (pushJob_still ..).trans ?_ | with_reducible refine ite_still ?_ ?_ | extract_lets | intro _ | split
theorem invalid_still (c : Cmd) (off : Nat) (s : State) : (invalid c off s).still = s.still := by
  unfold invalid; repeat' first | with_reducible rfl | with_reducible refine (complete_still ..).trans ?_ | with_reducible refine ite_still ?_ ?_ | extract_lets | intro _ | split
theorem finishLoad_still (ld : Loading) (s : State) : (finishLoad ld s).still = s.still := by
  unfold finishLoad; repeat' first | with_reducible rfl | with_reducible refine (State.modStn_still ..).trans ?_ | with_reducible refine (invalid_still ..).trans ?_ | with_reducible refine (complete_still ..).trans ?_ | with_reducible refine (xlateFault_still ..).trans ?_ | with_reducible refine (logError_still ..).trans ?_ | with_reducible refine ite_still ?_ ?_ | extract_lets | intro _ | split
theorem endLoadJob_still (n : Nat) (j : Job) (k : Nat) (s : State) : (endLoadJob n j k s).still = s.still := by
  unfold endLoadJob; repeat' first | with_reducible rfl | with_reducible refine (pushLoadJob_still ..).trans ?_ | with_reducible refine (finishLoad_still ..).trans ?_ | with_reducible refine (State.modStn_still ..).trans ?_ | with_reducible refine (completeJob_still ..).trans ?_ | with_reducible refine ite_still ?_ ?_ | extract_lets | intro _ | split
theorem endMap_still (i : Nat) (member : Nat) (s : State) : (endMap i member s).still = s.still := by
  unfold endMap; repeat' first | with_reducible rfl | with_reducible refine (modBin_still ..).trans ?_ | with_reducible refine (countMapOut_still ..).trans ?_ | with_reducible refine (notice_still ..).trans ?_ | with_reducible refine (State.modGrn_still ..).trans ?_ | with_reducible refine (completeId_still ..).trans ?_ | with_reducible refine (raisePf_still ..).trans ?_ | with_reducible refine ite_still ?_ ?_ | dsimp only | intro _ | split
theorem endProposal_still (s : State) : (endProposal s).still = s.still := by
  unfold endProposal; repeat' first | with_reducible rfl | with_reducible refine (setSleep_still ..).trans ?_ | with_reducible refine ite_still ?_ ?_ | extract_lets | intro _ | split
theorem meetWeak_still (l : List Seg) (s : State) : (meetWeak l s).still = s.still := by
  unfold meetWeak; repeat' first | with_reducible rfl | with_reducible refine (meetCells_still ..).trans ?_ | with_reducible refine ite_still ?_ ?_ | with_reducible refine (foldl_still _ _ _ fun _ _ => ?_).trans ?_ | extract_lets | intro _ | split
theorem weaken_still (bus : Bus) (s : State) : (weaken bus s).still = s.still := by
  unfold weaken; repeat' first | with_reducible rfl | with_reducible refine (State.modMem_still ..).trans ?_ | with_reducible refine ite_still ?_ ?_ | with_reducible refine (foldl_still _ _ _ fun _ _ => ?_).trans ?_ | extract_lets | intro _ | split
theorem meetPoison_still (l : List Seg) (s : State) : (meetPoison l s).still = s.still := by
  unfold meetPoison; repeat' first | with_reducible rfl | with_reducible refine (dramUe_still ..).trans ?_ | with_reducible refine ite_still ?_ ?_ | extract_lets | intro _ | split
theorem readMem_still (bus : Bus) (l : List Seg) (s : State) : (readMem bus l s).2.still = s.still := by
  unfold readMem; extract_lets s1 d
  have h : s1.still = s.still := (meetWeak_still ..).trans (weaken_still ..)
  exact ite_still ((meetPoison_still ..).trans h) h
theorem readMem_still' {bus : Bus} {l : List Seg} {s : State} {p_ : List PByte × State} (h_ : readMem bus l s = p_) : p_.2.still = s.still := (congrArg (fun x : List PByte × State => x.2.still) h_).symm.trans (readMem_still ..)
theorem readRuns_still (bus : Bus) (l : List Seg) (s : State) : (readRuns bus l s).2.still = s.still :=
  (readMem_still ..).trans (useRuns_still ..)
theorem readRuns_still' {bus : Bus} {l : List Seg} {s : State} {p_ : List PByte × State} (h_ : readRuns bus l s = p_) : p_.2.still = s.still := (congrArg (fun x : List PByte × State => x.2.still) h_).symm.trans (readRuns_still ..)
theorem endRun_still (n : Nat) (j : Job) (bus : Bus) (s : State) : (endRun n j bus s).still = s.still := by
  unfold endRun; repeat' first | with_reducible rfl | with_reducible refine (State.modChk_still ..).trans ?_ | with_reducible refine (modEngine_still ..).trans ?_ | with_reducible refine (completeJob_still ..).trans ?_ | with_reducible refine (raise_still ..).trans ?_ | with_reducible refine (readRuns_still' (by assumption)).trans ?_ | with_reducible refine (readRuns_still ..).trans ?_ | with_reducible refine ite_still ?_ ?_ | extract_lets | intro _ | split
theorem nextStage_still (n : Nat) (i : Item) (s : State) : (nextStage n i s).still = s.still := by
  unfold nextStage; repeat' first | with_reducible rfl | with_reducible refine (State.modTrn_still ..).trans ?_ | with_reducible refine (dropItem_still ..).trans ?_ | with_reducible refine (addItem_still ..).trans ?_ | with_reducible refine ite_still ?_ ?_ | extract_lets | intro _ | split
theorem modImage_still (i : Nat) (f : Image → Image) (s : State) : (modImage i f s).still = s.still := by
  unfold modImage; repeat' first | with_reducible rfl | with_reducible refine (State.modStn_still ..).trans ?_ | with_reducible refine ite_still ?_ ?_ | extract_lets | intro _ | split
theorem sailDone_still (t : Nat) (k : Nat) (s : State) : (sailDone t k s).still = s.still := by
  unfold sailDone; repeat' first | with_reducible rfl | with_reducible refine (modSail_still ..).trans ?_ | with_reducible refine (leaveSail_still ..).trans ?_ | with_reducible refine (retireTurn_still ..).trans ?_ | with_reducible refine ite_still ?_ ?_ | extract_lets | intro _ | split
theorem endStage_still (n : Nat) (i : Item) (s : State) : (endStage n i s).still = s.still := by
  unfold endStage; repeat' first | with_reducible rfl | with_reducible refine (dropItem_still ..).trans ?_ | with_reducible refine (modSail_still ..).trans ?_ | with_reducible refine (modItem_still ..).trans ?_ | with_reducible refine (nextStage_still ..).trans ?_ | with_reducible refine (modImage_still ..).trans ?_ | with_reducible refine (endNearMem_still ..).trans ?_ | with_reducible refine (freeTurn_still ..).trans ?_ | with_reducible refine (sailDone_still ..).trans ?_ | with_reducible refine (modRace_still ..).trans ?_ | with_reducible refine (sample_still ..).trans ?_ | with_reducible refine ite_still ?_ ?_ | dsimp only | intro _ | split
theorem endVerifies_still (n : Nat) (s : State) : (endVerifies n s).still = s.still := by
  unfold endVerifies; repeat' first | with_reducible rfl | with_reducible refine (modPos_still ..).trans ?_ | with_reducible refine (completeId_still ..).trans ?_ | with_reducible refine ite_still ?_ ?_ | with_reducible refine (foldl_still _ _ _ fun _ _ => ?_).trans ?_ | extract_lets | intro _ | split
theorem postCtl_still (m : Msg) (s : State) : (postCtl m s).still = s.still := by
  unfold postCtl; repeat' first | with_reducible rfl | with_reducible refine (State.modMail_still ..).trans ?_ | with_reducible refine ite_still ?_ ?_ | extract_lets | intro _ | split
theorem sleepExit_still (s : State) : (sleepExit s).still = s.still := by
  unfold sleepExit; repeat' first | with_reducible rfl | with_reducible refine (State.modPwr_still ..).trans ?_ | with_reducible refine (postCtl_still ..).trans ?_ | with_reducible refine (setSleep_still ..).trans ?_ | with_reducible refine ite_still ?_ ?_ | extract_lets | intro _ | split
theorem sleepWake_still (s : State) : (sleepWake s).still = s.still := by
  unfold sleepWake; repeat' first | with_reducible rfl | with_reducible refine (quietAgain_still ..).trans ?_ | with_reducible refine (State.modDom_still ..).trans ?_ | with_reducible refine (setSleep_still ..).trans ?_ | with_reducible refine (sendAll_still ..).trans ?_ | with_reducible refine (sleepExit_still ..).trans ?_ | with_reducible refine ite_still ?_ ?_ | extract_lets | intro _ | split
theorem enterRequest_still (r : GReq) (s : State) : (enterRequest r s).still = s.still := by
  unfold enterRequest; repeat' first | with_reducible rfl | with_reducible refine (judgeRequest_still ..).trans ?_ | with_reducible refine (sleepWake_still ..).trans ?_ | with_reducible refine (State.modTly_still ..).trans ?_ | with_reducible refine (State.modGrn_still ..).trans ?_ | with_reducible refine (e2eDrop_still ..).trans ?_ | with_reducible refine ite_still ?_ ?_ | extract_lets | intro _ | split
theorem entryFail_still (q : Nat) (e : List Byte) (st : Status) (detail : Nat) (s : State) : (entryFail q e st detail s).still = s.still := by
  unfold entryFail; repeat' first | with_reducible rfl | with_reducible refine (qpError_still ..).trans ?_ | with_reducible refine (modQp_still ..).trans ?_ | with_reducible refine (wcOut_still ..).trans ?_ | with_reducible refine ite_still ?_ ?_ | extract_lets | intro _ | split
theorem settleRelease_still (n : Nat) (s : State) : (settleRelease n s).still = s.still := by
  unfold settleRelease; repeat' first | with_reducible rfl | with_reducible refine (completeId_still ..).trans ?_ | with_reducible refine (modEngine_still ..).trans ?_ | with_reducible refine ite_still ?_ ?_ | extract_lets | intro _ | split
theorem ranInternal_still (n : Nat) (s : State) : (ranInternal n s).still = s.still := by
  unfold ranInternal; repeat' first | with_reducible rfl | with_reducible refine (modEngine_still ..).trans ?_ | with_reducible refine ite_still ?_ ?_ | extract_lets | intro _ | split
theorem popDat_still (s : State) : (popDat s).still = s.still := by
  unfold popDat; repeat' first | with_reducible rfl | with_reducible refine (State.modMail_still ..).trans ?_ | with_reducible refine ite_still ?_ ?_ | extract_lets | intro _ | split
theorem fenceStones_still (id : Option CmdId) (n : Nat) (floor : Bool) (s : State) : (fenceStones id n floor s).still = s.still := by
  unfold fenceStones; repeat' first | with_reducible rfl | with_reducible refine (settleFences_still ..).trans ?_ | with_reducible refine (askYield_still ..).trans ?_ | with_reducible refine (modStone_still ..).trans ?_ | with_reducible refine (State.modStn_still ..).trans ?_ | with_reducible refine (settleVotes_still ..).trans ?_ | with_reducible refine ite_still ?_ ?_ | with_reducible refine (forEach_still _ _ _ fun _ _ => ?_).trans ?_ | extract_lets | intro _ | split
theorem takeFence_still (stone : Nat) (floor : Bool) (s : State) : (takeFence stone floor s).still = s.still := by
  unfold takeFence; repeat' first | with_reducible rfl | with_reducible refine (fenceStones_still ..).trans ?_ | with_reducible refine ite_still ?_ ?_ | extract_lets | intro _ | split
theorem postDat_still (m : Msg) (s : State) : (postDat m s).still = s.still := by
  unfold postDat; repeat' first | with_reducible rfl | with_reducible refine (State.modMail_still ..).trans ?_ | with_reducible refine ite_still ?_ ?_ | extract_lets | intro _ | split
theorem mwAct_still (s : State) : (mwAct s).still = s.still := by
  unfold mwAct; repeat' first | with_reducible rfl | with_reducible refine (State.modMwr_still ..).trans ?_ | with_reducible refine (noteLevels_still _ _ ?_).trans ?_ | with_reducible refine ite_still ?_ ?_ | extract_lets | intro _ | split
theorem flashFails_still (n : Nat) (s : State) : (flashFails n s).still = s.still := by
  unfold flashFails; repeat' first | with_reducible rfl | with_reducible refine (modPos_still ..).trans ?_ | with_reducible refine (raisePf_still ..).trans ?_ | with_reducible refine (endVerifies_still ..).trans ?_ | with_reducible refine ite_still ?_ ?_ | extract_lets | intro _ | split
theorem reflashed_still (n : Nat) (flash : Nat) (img : Option FwImage) (ok : Bool) (s : State) : (reflashed n flash img ok s).still = s.still := by
  unfold reflashed; repeat' first | with_reducible rfl | with_reducible refine (raisePf_still ..).trans ?_ | with_reducible refine ite_still ?_ ?_ | extract_lets | intro _ | split
theorem succeed_still (c : Cmd) (s : State) : (succeed c s).still = s.still := by
  unfold succeed; repeat' first | with_reducible rfl | with_reducible refine (complete_still ..).trans ?_ | with_reducible refine ite_still ?_ ?_ | extract_lets | intro _ | split
theorem noteRecord_still (c : Cmd) (from_ : Nat) (st : Status) (result2 : Nat) (s : State) : (noteRecord c from_ st result2 s).still = s.still := by
  unfold noteRecord; repeat' first | with_reducible rfl | with_reducible refine (correctRecords_still ..).trans ?_ | with_reducible refine (State.modGrn_still ..).trans ?_ | with_reducible refine ite_still ?_ ?_ | extract_lets | intro _ | split
theorem modCq_still (q : Nat) (f : Cq → Cq) (s : State) : (modCq q f s).still = s.still := by
  unfold modCq; repeat' first | with_reducible rfl | with_reducible refine (State.modHif_still ..).trans ?_ | with_reducible refine ite_still ?_ ?_ | extract_lets | intro _ | split
theorem retainWaiting_still (acceptedOnly : Bool) (q : Nat) (s : State) : (retainWaiting acceptedOnly q s).still = s.still := by
  unfold retainWaiting; repeat' first | with_reducible rfl | with_reducible refine (retainAll_still ..).trans ?_ | with_reducible refine (modCq_still ..).trans ?_ | with_reducible refine ite_still ?_ ?_ | extract_lets | intro _ | split
theorem settleCleared_still (s : State) : (settleCleared s).still = s.still := by
  unfold settleCleared; repeat' first | with_reducible rfl | with_reducible refine (State.modStore_still ..).trans ?_ | with_reducible refine ite_still ?_ ?_ | extract_lets | intro _ | split
theorem takeBack_still (s : State) : (takeBack s).still = s.still := by
  unfold takeBack; repeat' first | with_reducible rfl | with_reducible refine (State.modMwr_still ..).trans ?_ | with_reducible refine (settleCleared_still ..).trans ?_ | with_reducible refine ite_still ?_ ?_ | extract_lets | intro _ | split
theorem takeDat_still (s : State) : (takeDat s).still = s.still := by
  unfold takeDat; repeat' first | with_reducible rfl | with_reducible refine (State.modMwr_still ..).trans ?_ | with_reducible refine (State.modMail_still ..).trans ?_ | with_reducible refine ite_still ?_ ?_ | extract_lets | intro _ | split
theorem stallOr_still (c : Cmd) (st : Status) (retryUs : Nat) (s : State) : (stallOr c st retryUs s).still = s.still := by
  unfold stallOr; repeat' first | with_reducible rfl | with_reducible refine (complete_still ..).trans ?_ | with_reducible refine (updCmd_still ..).trans ?_ | with_reducible refine ite_still ?_ ?_ | extract_lets | intro _ | split
theorem withTally_still (c : Cmd) (k : Nat → State → State) (s : State) (hk : ∀ x0 x1, (k x0 x1).still = x1.still) :
    (withTally c k s).still = s.still := by
  unfold withTally; extract_lets s1
  have h : s1.still = s.still := readEntry_still ..
  split
  · exact ite_still ((complete_still ..).trans h) ((invalid_still ..).trans h)
  · exact (hk ..).trans h
theorem refuse_still (c : Cmd) (reason : Nat) (cond : Nat) (s : State) : (refuse c reason cond s).still = s.still := by
  unfold refuse; repeat' first | with_reducible rfl | with_reducible refine (complete_still ..).trans ?_ | with_reducible refine ite_still ?_ ?_ | extract_lets | intro _ | split
theorem popCtl_still (s : State) : (popCtl s).still = s.still := by
  unfold popCtl; repeat' first | with_reducible rfl | with_reducible refine (State.modMail_still ..).trans ?_ | with_reducible refine ite_still ?_ ?_ | extract_lets | intro _ | split
theorem ringEntries_still (bus : Bus) (ring : Held) (k i n : Nat) (s : State) : (ringEntries bus ring k i n s).2.still = s.still := by
  unfold ringEntries; exact foldlSnd_still _ _ _ fun _ _ => readRuns_still ..
theorem ringEntries_still' {bus : Bus} {ring : Held} {k : Nat} {from_ : Nat} {n : Nat} {s : State} {p_ : List (List Byte) × State} (h_ : ringEntries bus ring k from_ n s = p_) : p_.2.still = s.still := (congrArg (fun x : List (List Byte) × State => x.2.still) h_).symm.trans (ringEntries_still ..)
theorem runCogs_still (s : State) : (runCogs s).still = s.still := by
  unfold runCogs; extract_lets due now rest changed s1 ev s2 s3
  have h1 : ev.2.still = s.still := by
    refine (foldlSnd_still _ _ _ fun a k => ?_).trans rfl
    have := evalCog_still k a.2
    split <;> rename_i h <;> (rw [h] at this; exact this)
  have h2 : s2.still = s.still := (forEach_still _ _ _ fun _ _ => dryCheck_still ..).trans h1
  have h3 : s3.still = s.still := (foldl_still _ _ _ fun _ _ => issue_still ..).trans h2
  exact (forEach_still _ _ _ fun _ _ => ite_still (touch_still ..) rfl).trans h3
theorem firstUse_still (d : Nat) (s : State) : (firstUse d s).still = s.still := by
  unfold firstUse; repeat' first | with_reducible rfl | with_reducible refine (modPdom_still ..).trans ?_ | with_reducible refine ite_still ?_ ?_ | extract_lets | intro _ | split
theorem startItem_still (n : Nat) (base : Nat) (s : State) : (startItem n base s).still = s.still := by
  unfold startItem; repeat' first | with_reducible rfl | with_reducible refine (State.modTrn_still ..).trans ?_ | with_reducible refine (modItem_still ..).trans ?_ | with_reducible refine (binEntries_still ..).trans ?_ | with_reducible refine (modTally_still ..).trans ?_ | with_reducible refine (firstUse_still ..).trans ?_ | with_reducible refine (endNearMem_still ..).trans ?_ | with_reducible refine (settleVotes_still ..).trans ?_ | with_reducible refine (clearBlock_still ..).trans ?_ | with_reducible refine (beginItem_still ..).trans ?_ | with_reducible refine ite_still ?_ ?_ | with_reducible refine (forEach_still _ _ _ fun _ _ => ?_).trans ?_ | extract_lets | intro _ | split
theorem tellUnplaceable_still (n : Nat) (i : Item) (m : Image) (s : State) : (tellUnplaceable n i m s).still = s.still := by
  unfold tellUnplaceable; repeat' first | with_reducible rfl | with_reducible refine (modItem_still ..).trans ?_ | with_reducible refine (modImage_still ..).trans ?_ | with_reducible refine (raise_still ..).trans ?_ | with_reducible refine ite_still ?_ ?_ | extract_lets | intro _ | split
theorem preemptFor_still (n : Nat) (x : Item) (m : Image) (s : State) : (preemptFor n x m s).still = s.still := by
  unfold preemptFor; repeat' first | with_reducible rfl | with_reducible refine (askYield_still ..).trans ?_ | with_reducible refine ite_still ?_ ?_ | with_reducible refine (foldl_still _ _ _ fun _ _ => ?_).trans ?_ | extract_lets | intro _ | split
theorem reserveFor_still (n : Nat) (i : Item) (m : Image) (s : State) : (reserveFor n i m s).still = s.still := by
  unfold reserveFor; repeat' first | with_reducible rfl | with_reducible refine (State.modTrn_still ..).trans ?_ | with_reducible refine (settleVotes_still ..).trans ?_ | with_reducible refine (preemptFor_still ..).trans ?_ | with_reducible refine ite_still ?_ ?_ | extract_lets | intro _ | split
theorem placeAll_still (l : List Nat) (b : Bool) (s : State) : (placeAll l b s).still = s.still := by
  induction l generalizing b s with
  | nil => rfl
  | cons n r ih =>
    unfold placeAll; repeat' first | split | exact ih .. | refine (ih ..).trans ?_ | exact startItem_still .. | exact tellUnplaceable_still .. | exact reserveFor_still .. | rfl
theorem placeItems_still (s : State) : (placeItems s).still = s.still := by
  unfold placeItems; repeat' first | with_reducible rfl | with_reducible refine (placeAll_still ..).trans ?_ | with_reducible refine ite_still ?_ ?_ | extract_lets | intro _ | split
theorem wheelUe_still (u : WheelUe) (s : State) : (wheelUe u s).still = s.still := by
  unfold wheelUe; repeat' first | with_reducible rfl | with_reducible refine (State.modWhl_still ..).trans ?_ | with_reducible refine (closeRace_still ..).trans ?_ | with_reducible refine (State.modMwr_still ..).trans ?_ | with_reducible refine (modImage_still ..).trans ?_ | with_reducible refine (candidate_still ..).trans ?_ | with_reducible refine (startCtlReset_still ..).trans ?_ | with_reducible refine (State.modEvt_still ..).trans ?_ | with_reducible refine (ocpUe_still ..).trans ?_ | with_reducible refine (degrade_still ..).trans ?_ | with_reducible refine (State.modMem_still ..).trans ?_ | with_reducible refine (noteFatal_still ..).trans ?_ | with_reducible refine ite_still ?_ ?_ | extract_lets | intro _ | split
theorem getHeld_still (h : Held) (off n : Nat) (s : State) : (getHeld h off n s).2.still = s.still := readMem_still ..
theorem getHeld_still' {h : Held} {off : Nat} {n : Nat} {s : State} {p_ : List PByte × State} (h_ : getHeld h off n s = p_) : p_.2.still = s.still := (congrArg (fun x : List PByte × State => x.2.still) h_).symm.trans (getHeld_still ..)
theorem landFrame_still (rid : Nat) (slot : Nat) (seq : Nat) (r : Race) (s : State) : (landFrame rid slot seq r s).still = s.still := by
  unfold landFrame; repeat' first | with_reducible rfl | with_reducible refine (getHeld_still' (by assumption)).trans ?_ | with_reducible refine (getHeld_still ..).trans ?_ | with_reducible refine (modRace_still ..).trans ?_ | with_reducible refine (raise_still ..).trans ?_ | with_reducible refine ite_still ?_ ?_ | dsimp only | intro _ | split
theorem putHeadHeader_still (rid : Nat) (s : State) : (putHeadHeader rid s).still = s.still := by
  unfold putHeadHeader; repeat' first | with_reducible rfl | with_reducible refine (putHeld_still ..).trans ?_ | with_reducible refine ite_still ?_ ?_ | extract_lets | intro _ | split
theorem sendMap_still (i : Nat) (m : BinMap) (new : Bool) (s : State) : (sendMap i m new s).still = s.still := by
  unfold sendMap; repeat' first | with_reducible rfl | with_reducible refine (notice_still ..).trans ?_ | with_reducible refine ite_still ?_ ?_ | extract_lets | intro _ | split
theorem finishMap_still (c : Cmd) (i : Nat) (m : BinMap) (new : Bool) (result : Nat) (result2 : Nat) (s : State) : (finishMap c i m new result result2 s).still = s.still := by
  unfold finishMap; repeat' first | with_reducible rfl | with_reducible refine (accept_still ..).trans ?_ | with_reducible refine (State.modGrn_still ..).trans ?_ | with_reducible refine (complete_still ..).trans ?_ | with_reducible refine (sendMap_still ..).trans ?_ | with_reducible refine ite_still ?_ ?_ | extract_lets | intro _ | split
theorem withBin_still (c : Cmd) (k : Nat → Bin → State → State) (s : State) (hk : ∀ x0 x1 x2, (k x0 x1 x2).still = x2.still) :
    (withBin c k s).still = s.still := by
  unfold withBin; extract_lets s1
  have h : s1.still = s.still := readEntry_still ..
  split
  · exact ite_still ((complete_still ..).trans h) ((invalid_still ..).trans h)
  · exact (hk ..).trans h
theorem firstBundle_still (n : Nat) (i : Item) (s : State) : (firstBundle n i s).still = s.still := by
  unfold firstBundle; repeat' first | with_reducible rfl | with_reducible refine (modItem_still ..).trans ?_ | with_reducible refine (sample_still ..).trans ?_ | with_reducible refine ite_still ?_ ?_ | extract_lets | intro _ | split
theorem stopGang_still (n : Nat) (s : State) : (stopGang n s).still = s.still := by
  unfold stopGang; repeat' first | with_reducible rfl | with_reducible refine (modItem_still ..).trans ?_ | with_reducible refine ite_still ?_ ?_ | extract_lets | intro _ | split
theorem scratchPoison_still (i : Item) (k : Nat) (s : State) : (scratchPoison i k s).still = s.still := by
  unfold scratchPoison; repeat' first | with_reducible rfl | with_reducible refine (raise_still ..).trans ?_ | with_reducible refine ite_still ?_ ?_ | extract_lets | intro _ | split
theorem poisonStop_still (n : Nat) (k : Nat) (s : State) : (poisonStop n k s).still = s.still := by
  unfold poisonStop; repeat' first | with_reducible rfl | with_reducible refine (stopGang_still ..).trans ?_ | with_reducible refine (scratchPoison_still ..).trans ?_ | with_reducible refine ite_still ?_ ?_ | extract_lets | intro _ | split
theorem gangFault_still (n : Nat) (code : Nat) (k : Nat) (s : State) : (gangFault n code k s).still = s.still := by
  unfold gangFault; repeat' first | with_reducible rfl | with_reducible refine (modImage_still ..).trans ?_ | with_reducible refine (State.modStn_still ..).trans ?_ | with_reducible refine (stopGang_still ..).trans ?_ | with_reducible refine (raise_still ..).trans ?_ | with_reducible refine (logError_still ..).trans ?_ | with_reducible refine ite_still ?_ ?_ | extract_lets | intro _ | split
theorem issueBundle_still (item : Nat) (stone : Nat) (j : Nat) (v : Nat) (fx : BundleFx) (i : Item) (m : Image) (s : State) : (issueBundle item stone j v fx i m s).still = s.still := by
  unfold issueBundle; repeat' first | with_reducible rfl | with_reducible refine (firstBundle_still ..).trans ?_ | with_reducible refine (poisonStop_still ..).trans ?_ | with_reducible refine (gangFault_still ..).trans ?_ | with_reducible refine (modBed_still ..).trans ?_ | with_reducible refine (bundleResults_still ..).trans ?_ | with_reducible refine ite_still ?_ ?_ | extract_lets | intro _ | split
theorem runCommand_still (h : MsgHead) (fn : Nat) (pkt : List Word) (env : Option Envelope) (data : List Byte) (s : State) : (runCommand h fn pkt env data s).still = s.still := by
  unfold runCommand; repeat' first | with_reducible rfl | with_reducible refine (sendMsg_still ..).trans ?_ | with_reducible refine (arrive_still ..).trans ?_ | with_reducible refine (dropMsg_still ..).trans ?_ | with_reducible refine ite_still ?_ ?_ | extract_lets | intro _ | split
theorem withRace_still (c : Cmd) (k : Race → State → State) (s : State) (hk : ∀ x0 x1, (k x0 x1).still = x1.still) : (withRace c k s).still = s.still := by
  unfold withRace; repeat' first | with_reducible rfl | with_reducible refine (invalid_still ..).trans ?_ | with_reducible refine (hk ..).trans ?_ | with_reducible refine ite_still ?_ ?_ | extract_lets | intro _ | split
theorem tellMw_still (m : Msg) (s : State) : (tellMw m s).still = s.still := by
  unfold tellMw; repeat' first | with_reducible rfl | with_reducible refine (State.modMail_still ..).trans ?_ | with_reducible refine ite_still ?_ ?_ | extract_lets | intro _ | split
theorem resetHostIf_still (fns : List Nat) (s : State) : (resetHostIf fns s).still = s.still := by
  unfold resetHostIf; repeat' first | with_reducible rfl | with_reducible refine (retainWaiting_still ..).trans ?_ | with_reducible refine (State.modTly_still ..).trans ?_ | with_reducible refine (State.modGrn_still ..).trans ?_ | with_reducible refine (State.modHif_still ..).trans ?_ | with_reducible refine ite_still ?_ ?_ | with_reducible refine (forEach_still _ _ _ fun _ _ => ?_).trans ?_ | extract_lets | intro _ | split
theorem releaseObjects_still (fn : Nat) (s : State) : (releaseObjects fn s).still = s.still := by
  unfold releaseObjects; repeat' first | with_reducible rfl | with_reducible refine (State.modPwr_still ..).trans ?_ | with_reducible refine (closeRace_still ..).trans ?_ | with_reducible refine (State.modRdm_still ..).trans ?_ | with_reducible refine (qpLeft_still ..).trans ?_ | with_reducible refine (State.modStn_still ..).trans ?_ | with_reducible refine (settleVotes_still ..).trans ?_ | with_reducible refine (endTurn_still ..).trans ?_ | with_reducible refine (State.modDom_still ..).trans ?_ | with_reducible refine (State.modEvt_still ..).trans ?_ | with_reducible refine (dropEngine_still ..).trans ?_ | with_reducible refine (State.modMem_still ..).trans ?_ | with_reducible refine ite_still ?_ ?_ | with_reducible refine (forEach_still _ _ _ fun _ _ => ?_).trans ?_ | extract_lets | intro _ | split
theorem releaseDue_still (s : State) : (releaseDue s).still = s.still := by
  unfold releaseDue; repeat' first | with_reducible rfl | with_reducible refine (releaseObjects_still ..).trans ?_ | with_reducible refine (State.modHif_still ..).trans ?_ | with_reducible refine ite_still ?_ ?_ | with_reducible refine (forEach_still _ _ _ fun _ _ => ?_).trans ?_ | extract_lets | intro _ | split
theorem flr_still (fns : List Nat) (s : State) : (flr fns s).still = s.still := by
  unfold flr; repeat' first | with_reducible rfl | with_reducible refine (resetHostIf_still ..).trans ?_ | with_reducible refine (releaseDue_still ..).trans ?_ | with_reducible refine (State.modHif_still ..).trans ?_ | with_reducible refine ite_still ?_ ?_ | extract_lets | intro _ | split
theorem flrPf_still (s : State) : (flrPf s).still = s.still := by
  unfold flrPf; repeat' first | with_reducible rfl | with_reducible refine (flr_still ..).trans ?_ | with_reducible refine ite_still ?_ ?_ | extract_lets | intro _ | split
theorem takeFree_still (s : State) : (takeFree s).2.still = s.still := rfl
theorem takeFree_still' {s : State} {p_ : Nat × State} (h_ : takeFree s = p_) : p_.2.still = s.still := (congrArg (fun x : Nat × State => x.2.still) h_).symm.trans (takeFree_still ..)
theorem freeWords_still (n : Nat) (s : State) : (freeWords n s).2.still = s.still := by
  induction n generalizing s with
  | zero => rfl
  | succ n ih => exact (ih ..).trans rfl
theorem freeWords_still' {n : Nat} {s : State} {p_ : List Nat × State} (h_ : freeWords n s = p_) : p_.2.still = s.still := (congrArg (fun x : List Nat × State => x.2.still) h_).symm.trans (freeWords_still ..)
theorem modSq_still (q : Nat) (f : Sq → Sq) (s : State) : (modSq q f s).still = s.still := by
  unfold modSq; repeat' first | with_reducible rfl | with_reducible refine (State.modHif_still ..).trans ?_ | with_reducible refine ite_still ?_ ?_ | extract_lets | intro _ | split
theorem redigest_still (s : State) : (redigest s).still = s.still := by
  unfold redigest; repeat' first | with_reducible rfl | with_reducible refine (State.modDom_still ..).trans ?_ | with_reducible refine ite_still ?_ ?_ | extract_lets | intro _ | split
theorem setFeature_still (id : Nat) (target : Nat) (v : Nat) (s : State) : (setFeature id target v s).still = s.still := by
  unfold setFeature; repeat' first | with_reducible rfl | with_reducible refine (State.modHif_still ..).trans ?_ | with_reducible refine ite_still ?_ ?_ | extract_lets | intro _ | split
theorem putFeature_still (c : Cmd) (n : Nat) (target : Nat) (v : Nat) (key : Nat) (s : State) : (putFeature c n target v key s).still = s.still := by
  unfold putFeature; repeat' first | with_reducible rfl | with_reducible refine (modSq_still ..).trans ?_ | with_reducible refine (redigest_still ..).trans ?_ | with_reducible refine (setFeature_still ..).trans ?_ | with_reducible refine ite_still ?_ ?_ | extract_lets | intro _ | split
theorem granaryLost_still (g : Nat) (s : State) : (granaryLost g s).still = s.still := by
  unfold granaryLost; repeat' first | with_reducible rfl | with_reducible refine (State.modGrn_still ..).trans ?_ | with_reducible refine (recLost_still ..).trans ?_ | with_reducible refine (eventAll_still ..).trans ?_ | with_reducible refine ite_still ?_ ?_ | with_reducible refine (foldl_still _ _ _ fun _ _ => ?_).trans ?_ | extract_lets | intro _ | split
theorem lost_still (m : Nat) (arg : Nat) (s : State) : (lost m arg s).still = s.still := by
  unfold lost; repeat' first | with_reducible rfl | with_reducible refine (breakMirrors_still ..).trans ?_ | with_reducible refine (modPeer_still ..).trans ?_ | with_reducible refine (granaryLost_still ..).trans ?_ | with_reducible refine (upCheck_still ..).trans ?_ | with_reducible refine (raisePf_still ..).trans ?_ | with_reducible refine ite_still ?_ ?_ | extract_lets | intro _ | split
theorem setSeen_still (m : Nat) (st : SleepState) (s : State) : (setSeen m st s).still = s.still := by
  unfold setSeen; repeat' first | with_reducible rfl | with_reducible refine (State.modDom_still ..).trans ?_ | with_reducible refine (raisePf_still ..).trans ?_ | with_reducible refine ite_still ?_ ?_ | extract_lets | intro _ | split
theorem resendFrom_still (q : Nat) (psn : Nat) (s : State) : (resendFrom q psn s).still = s.still := by
  unfold resendFrom; repeat' first | with_reducible rfl | with_reducible refine (sendPacket_still ..).trans ?_ | with_reducible refine (modQp_still ..).trans ?_ | with_reducible refine ite_still ?_ ?_ | with_reducible refine (foldl_still _ _ _ fun _ _ => ?_).trans ?_ | extract_lets | intro _ | split
theorem wakeFailed_still (cause : Nat) (s : State) : (wakeFailed cause s).still = s.still := by
  unfold wakeFailed; repeat' first | with_reducible rfl | with_reducible refine (State.modPwr_still ..).trans ?_ | with_reducible refine ite_still ?_ ?_ | extract_lets | intro _ | split
theorem removeRails_still (s : State) : (removeRails s).still = s.still := by
  unfold removeRails; repeat' first | with_reducible rfl | with_reducible refine (State.modPwr_still ..).trans ?_ | with_reducible refine ite_still ?_ ?_ | extract_lets | intro _ | split
theorem failAttempt_still (cause : Nat) (s : State) : (failAttempt cause s).still = s.still := by
  unfold failAttempt; repeat' first | with_reducible rfl | with_reducible refine (State.modPwr_still ..).trans ?_ | with_reducible refine (wakeFailed_still ..).trans ?_ | with_reducible refine (removeRails_still ..).trans ?_ | with_reducible refine ite_still ?_ ?_ | extract_lets | intro _ | split
theorem promote_still (home : Nat) (s : State) : (promote home s).still = s.still := by
  unfold promote; repeat' first | with_reducible rfl | with_reducible refine (modBin_still ..).trans ?_ | with_reducible refine (State.modGrn_still ..).trans ?_ | with_reducible refine (sendAll_still ..).trans ?_ | with_reducible refine (raisePf_still ..).trans ?_ | with_reducible refine (setMState_still ..).trans ?_ | with_reducible refine ite_still ?_ ?_ | with_reducible refine (forEach_still _ _ _ fun _ _ => ?_).trans ?_ | extract_lets | intro _ | split
theorem promoteHeld_still (home : Nat) (s : State) : (promoteHeld home s).still = s.still := by
  unfold promoteHeld; repeat' first | with_reducible rfl | with_reducible refine (promote_still ..).trans ?_ | with_reducible refine ite_still ?_ ?_ | extract_lets | intro _ | split
theorem holdCopy_still (from_ : Nat) (h : Nat) (size : Nat) (owner : Nat) (s : State) : (holdCopy from_ h size owner s).still = s.still := by
  unfold holdCopy; repeat' first | with_reducible rfl | with_reducible refine (modBin_still ..).trans ?_ | with_reducible refine (modTally_still ..).trans ?_ | with_reducible refine (notice_still ..).trans ?_ | with_reducible refine (State.modGrn_still ..).trans ?_ | with_reducible refine ite_still ?_ ?_ | extract_lets | intro _ | split
theorem zeroBin_still (b : Bin) (s : State) : (zeroBin b s).still = s.still := by
  unfold zeroBin; repeat' first | with_reducible rfl | with_reducible refine (State.modMem_still ..).trans ?_ | with_reducible refine (hotDrop_still ..).trans ?_ | with_reducible refine ite_still ?_ ?_ | extract_lets | intro _ | split
theorem setLeaving_still (l : Leaving) (l' : Leaving) (s : State) : (setLeaving l l' s).still = s.still := by
  unfold setLeaving; repeat' first | with_reducible rfl | with_reducible refine (State.modTrn_still ..).trans ?_ | with_reducible refine ite_still ?_ ?_ | extract_lets | intro _ | split
theorem putWrite_still (fn : Nat) (w : HeldWrite) (s : State) : (putWrite fn w s).still = s.still := by
  unfold putWrite; repeat' first | with_reducible rfl | with_reducible refine (emit_still ..).trans ?_ | with_reducible refine (useRuns_still ..).trans ?_ | with_reducible refine (writeSegs_still ..).trans ?_ | with_reducible refine ite_still ?_ ?_ | extract_lets | intro _ | split
theorem releaseWrite_still (fn : Nat) (turn : Nat) (sail : Nat) (failure : Option Nat) (w : HeldWrite) (s : State) : (releaseWrite fn turn sail failure w s).still = s.still := by
  unfold releaseWrite; repeat' first | with_reducible rfl | with_reducible refine (putWrite_still ..).trans ?_ | with_reducible refine (raise_still ..).trans ?_ | with_reducible refine ite_still ?_ ?_ | extract_lets | intro _ | split
theorem keyFault_still (q : Nat) (psn : Nat) (k : Nat) (write : Bool) (asid : Nat) (va : Nat) (n : Nat) (s : State) : (keyFault q psn k write asid va n s).still = s.still := by
  unfold keyFault; repeat' first | with_reducible rfl | with_reducible refine (noteFault_still ..).trans ?_ | with_reducible refine (modQp_still ..).trans ?_ | with_reducible refine (nakQp_still ..).trans ?_ | with_reducible refine ite_still ?_ ?_ | extract_lets | intro _ | split
theorem keyRead_still (q : Nat) (psn : Nat) (next : Nat) (bus : Bus) (h : Held) (s : State) : (keyRead q psn next bus h s).still = s.still := by
  unfold keyRead; repeat' first | with_reducible rfl | with_reducible refine (statusNakQp_still ..).trans ?_ | with_reducible refine (answerQp_still ..).trans ?_ | with_reducible refine (readRuns_still' (by assumption)).trans ?_ | with_reducible refine (readRuns_still ..).trans ?_ | with_reducible refine ite_still ?_ ?_ | extract_lets | intro _ | split
theorem zeroPair_still (p : Nat) (s : State) : (zeroPair p s).still = s.still := by
  unfold zeroPair; repeat' first | with_reducible rfl | with_reducible refine (State.modMem_still ..).trans ?_ | with_reducible refine ite_still ?_ ?_ | extract_lets | intro _ | split
theorem forwardWaiting_still (bin : Nat) (s : State) : (forwardWaiting bin s).still = s.still := by
  unfold forwardWaiting; repeat' first | with_reducible rfl | with_reducible refine (State.modTly_still ..).trans ?_ | with_reducible refine (emit_still ..).trans ?_ | with_reducible refine (writeBin_still ..).trans ?_ | with_reducible refine ite_still ?_ ?_ | with_reducible refine (foldl_still _ _ _ fun _ _ => ?_).trans ?_ | extract_lets | intro _ | split
theorem resilverDone_still (cause : Option Nat) (s : State) : (resilverDone cause s).still = s.still := by
  unfold resilverDone; repeat' first | with_reducible rfl | with_reducible refine (raisePf_still ..).trans ?_ | with_reducible refine ite_still ?_ ?_ | extract_lets | intro _ | split
theorem synced_still (i : Nat) (s : State) : (synced i s).still = s.still := by
  unfold synced; repeat' first | with_reducible rfl | with_reducible refine (modBin_still ..).trans ?_ | with_reducible refine (raisePf_still ..).trans ?_ | with_reducible refine (setMState_still ..).trans ?_ | with_reducible refine ite_still ?_ ?_ | extract_lets | intro _ | split
theorem takeEntry_still (index : Nat) (l : List PByte) (s : State) : (takeEntry index l s).still = s.still := by
  unfold takeEntry; repeat' first | with_reducible rfl | with_reducible refine (nmwComplete_still ..).trans ?_ | with_reducible refine (addItem_still ..).trans ?_ | with_reducible refine ite_still ?_ ?_ | extract_lets | intro _ | split
theorem fetchEntries_still (bus : Bus) (n : Nat) (s : State) : (fetchEntries bus n s).still = s.still := by
  induction n generalizing s with
  | zero => rfl
  | succ n ih =>
    unfold fetchEntries; extract_lets; split
    · exact noteFault_still ..
    · exact (ih ..).trans ((takeEntry_still ..).trans ((State.modGrn_still ..).trans ((readRuns_still ..).trans (noteWalks_still ..))))
theorem saveWords_still (i : Item) (m : Image) (site : Nat) (s : State) : (saveWords i m site s).2.still = s.still := by
  unfold saveWords; exact foldl_still _ _ _ fun _ _ => flushInst_still ..
theorem saveWords_still' {i : Item} {m : Image} {site : Nat} {s : State} {p_ : Tbl (Tbl OWord) × State} (h_ : saveWords i m site s = p_) : p_.2.still = s.still := (congrArg (fun x : Tbl (Tbl OWord) × State => x.2.still) h_).symm.trans (saveWords_still ..)
theorem passBoundary_still (n : Nat) (i : Item) (m : Image) (site : Nat) (s : State) : (passBoundary n i m site s).still = s.still := by
  unfold passBoundary; extract_lets yields beds s1 e s2
  clear_value yields
  have h1 : s1.still = s.still := modItem_still ..
  have h2 : s2.still = s.still := (modItem_still ..).trans ((saveWords_still ..).trans h1)
  split
  · exact ite_still ((raise_still ..).trans h2) h2
  · exact h1
theorem seeSleep_still (m : Nat) (asleep : Bool) (s : State) : (seeSleep m asleep s).still = s.still := by
  unfold seeSleep; repeat' first | with_reducible rfl | with_reducible refine (State.modDom_still ..).trans ?_ | with_reducible refine (raisePf_still ..).trans ?_ | with_reducible refine ite_still ?_ ?_ | extract_lets | intro _ | split
theorem memberQpsError_still (m : Nat) (s : State) : (memberQpsError m s).still = s.still := by
  unfold memberQpsError; repeat' first | with_reducible rfl | with_reducible refine (qpError_still ..).trans ?_ | with_reducible refine ite_still ?_ ?_ | with_reducible refine (foldl_still _ _ _ fun _ _ => ?_).trans ?_ | extract_lets | intro _ | split
theorem quarantine_still (m : Nat) (reason : Nat) (s : State) : (quarantine m reason s).still = s.still := by
  unfold quarantine; repeat' first | with_reducible rfl | with_reducible refine (modPeer_still ..).trans ?_ | with_reducible refine (memberQpsError_still ..).trans ?_ | with_reducible refine (upCheck_still ..).trans ?_ | with_reducible refine (eventAll_still ..).trans ?_ | with_reducible refine ite_still ?_ ?_ | extract_lets | intro _ | split
theorem judgeOffset_still (m : Nat) (b : HbBody) (t4 : Nat) (s : State) : (judgeOffset m b t4 s).still = s.still := by
  unfold judgeOffset; repeat' first | with_reducible rfl | with_reducible refine (modPeer_still ..).trans ?_ | with_reducible refine (raisePf_still ..).trans ?_ | with_reducible refine ite_still ?_ ?_ | extract_lets | intro _ | split
theorem remapFull_still (i : Nat) (g : Nat) (s : State) : (remapFull i g s).still = s.still := by
  unfold remapFull; repeat' first | with_reducible rfl | with_reducible refine (modGroup_still ..).trans ?_ | with_reducible refine (raisePf_still ..).trans ?_ | with_reducible refine (ocpAlarm_still ..).trans ?_ | with_reducible refine ite_still ?_ ?_ | extract_lets | intro _ | split
theorem sequenceNak_still (q : Nat) (psn : Nat) (s : State) : (sequenceNak q psn s).still = s.still := by
  unfold sequenceNak; repeat' first | with_reducible rfl | with_reducible refine (wrFail_still ..).trans ?_ | with_reducible refine (modQp_still ..).trans ?_ | with_reducible refine (resendFrom_still ..).trans ?_ | with_reducible refine ite_still ?_ ?_ | extract_lets | intro _ | split
theorem samplePool_still (q : Nat) (p : Qp) (w : Wr) (s : State) : (samplePool q p w s).still = s.still := by
  unfold samplePool; repeat' first | with_reducible rfl | with_reducible refine (sample_still ..).trans ?_ | with_reducible refine ite_still ?_ ?_ | extract_lets | intro _ | split
theorem landResponse_still (q : Nat) (psn : Nat) (data : List Byte) (s : State) : (landResponse q psn data s).still = s.still := by
  unfold landResponse; repeat' first | with_reducible rfl | with_reducible refine (writeHeld_still ..).trans ?_ | with_reducible refine (modQp_still ..).trans ?_ | with_reducible refine (drainCheck_still ..).trans ?_ | with_reducible refine (samplePool_still ..).trans ?_ | with_reducible refine (wrDone_still ..).trans ?_ | with_reducible refine ite_still ?_ ?_ | extract_lets | intro _ | split
theorem passOp_still (b : Nat) (s : State) : (passOp b s).still = s.still := by
  unfold passOp; repeat' first | with_reducible rfl | with_reducible refine (countOut_still ..).trans ?_ | with_reducible refine (countIn_still ..).trans ?_ | with_reducible refine ite_still ?_ ?_ | extract_lets | intro _ | split
theorem lateAnswer_still (c : Cmd) (s t : State) : (lateAnswer c s t).still = t.still := by
  unfold lateAnswer; split
  · exact refuse_still ..
  · rfl
theorem startVerify_still (n : Nat) (s : State) : (startVerify n s).still = s.still := by
  unfold startVerify; repeat' first | with_reducible rfl | with_reducible refine (modPos_still ..).trans ?_ | with_reducible refine ite_still ?_ ?_ | extract_lets | intro _ | split
theorem startBist_still (pair : Nat) (s : State) : (startBist pair s).still = s.still := by
  unfold startBist; repeat' first | with_reducible rfl | with_reducible refine (modPdom_still ..).trans ?_ | with_reducible refine (settle_still ..).trans ?_ | with_reducible refine (modPair_still ..).trans ?_ | with_reducible refine ite_still ?_ ?_ | extract_lets | intro _ | split
theorem queuePacket_still (p : Nat) (x : FlumeOut) (s : State) : (queuePacket p x s).still = s.still := by
  unfold queuePacket; repeat' first | with_reducible rfl | with_reducible refine (modQp_still ..).trans ?_ | with_reducible refine (modFlm_still ..).trans ?_ | with_reducible refine ite_still ?_ ?_ | extract_lets | intro _ | split
theorem resumeTimers_still (p : Nat) (since : Nat) (s : State) : (resumeTimers p since s).still = s.still := by
  unfold resumeTimers; repeat' first | with_reducible rfl | with_reducible refine (State.modRdm_still ..).trans ?_ | with_reducible refine ite_still ?_ ?_ | extract_lets | intro _ | split
theorem judgeRetry_still (p : Nat) (s : State) : (judgeRetry p s).still = s.still := by
  unfold judgeRetry; repeat' first | with_reducible rfl | with_reducible refine (resumeTimers_still ..).trans ?_ | with_reducible refine (endEpisode_still ..).trans ?_ | with_reducible refine (modFlm_still ..).trans ?_ | with_reducible refine ite_still ?_ ?_ | extract_lets | intro _ | split
theorem pausePrios_still (p : Nat) (l : List (Nat × Nat)) (s : State) : (pausePrios p l s).still = s.still := by
  unfold pausePrios; repeat' first | with_reducible rfl | with_reducible refine (modPort_still ..).trans ?_ | with_reducible refine ite_still ?_ ?_ | with_reducible refine (foldl_still _ _ _ fun _ _ => ?_).trans ?_ | extract_lets | intro _ | split
theorem ringAt_still (c : Cmd) (asid : Nat) (va : Nat) (bytes : Nat) (write : Bool) (k : Held → State → State) (s : State) (hk : ∀ x0 x1, (k x0 x1).still = x1.still) : (ringAt c asid va bytes write k s).still = s.still := by
  unfold ringAt; repeat' first | with_reducible rfl | with_reducible refine (xlateFault_still ..).trans ?_ | with_reducible refine (noteWalks_still ..).trans ?_ | with_reducible refine (hk ..).trans ?_ | with_reducible refine ite_still ?_ ?_ | extract_lets | intro _ | split
theorem takeCompletion_still (id : CmdId) (k : Completion) (s : State) : (takeCompletion id k s).still = s.still := by
  unfold takeCompletion; repeat' first | with_reducible rfl | with_reducible refine (deliver_still ..).trans ?_ | with_reducible refine ite_still ?_ ?_ | extract_lets | intro _ | split
theorem failTraining_still (p : Nat) (reason : Nat) (s : State) : (failTraining p reason s).still = s.still := by
  unfold failTraining; repeat' first | with_reducible rfl | with_reducible refine (modPort_still ..).trans ?_ | with_reducible refine (raisePf_still ..).trans ?_ | with_reducible refine ite_still ?_ ?_ | extract_lets | intro _ | split
theorem scrubCheck_still (i : Nat) (word : Nat) (s : State) : (scrubCheck i word s).still = s.still := by
  unfold scrubCheck; repeat' first | with_reducible rfl | with_reducible refine (meetOdd_still ..).trans ?_ | with_reducible refine (ocpCe_still ..).trans ?_ | with_reducible refine (flushWord_still ..).trans ?_ | with_reducible refine (candidate_still ..).trans ?_ | with_reducible refine (poisonWord_still ..).trans ?_ | with_reducible refine (storeWord_still ..).trans ?_ | with_reducible refine (ocpUe_still ..).trans ?_ | with_reducible refine (degrade_still ..).trans ?_ | with_reducible refine ite_still ?_ ?_ | extract_lets | intro _ | split
theorem lapEnd_still (i : Nat) (s : State) : (lapEnd i s).still = s.still := by
  unfold lapEnd; repeat' first | with_reducible rfl | with_reducible refine (modInst_still ..).trans ?_ | with_reducible refine (sample_still ..).trans ?_ | with_reducible refine ite_still ?_ ?_ | extract_lets | intro _ | split
theorem upset_still (i : Nat) (dflips cflips : List (Nat × Nat)) (copies : List Nat) (s : State) : (upset i dflips cflips copies s).still = s.still := by
  unfold upset; repeat' first | with_reducible rfl | with_reducible refine (modInst_still ..).trans ?_ | with_reducible refine ite_still ?_ ?_ | extract_lets | intro _ | split
theorem sweepPass_still (bin : Nat) (s : State) : (sweepPass bin s).still = s.still := by
  unfold sweepPass; repeat' first | with_reducible rfl | with_reducible refine (zeroBin_still ..).trans ?_ | with_reducible refine (modTally_still ..).trans ?_ | with_reducible refine (disturb_still ..).trans ?_ | with_reducible refine (passOp_still ..).trans ?_ | with_reducible refine (tallyEvent_still ..).trans ?_ | with_reducible refine ite_still ?_ ?_ | with_reducible refine (forEach_still _ _ _ fun _ _ => ?_).trans ?_ | extract_lets | intro _ | split
theorem invalidate_still (c : Cmd) (leaves : List Extent) (asid : Nat) (lo : Nat) (hi : Nat) (cancel : Bool) (destroy : Bool) (s : State) : (invalidate c leaves asid lo hi cancel destroy s).still = s.still := by
  unfold invalidate; repeat' first | with_reducible rfl | with_reducible refine (cancelRecv_still ..).trans ?_ | with_reducible refine (accept_still ..).trans ?_ | with_reducible refine (cancelled_still ..).trans ?_ | with_reducible refine (endDrain_still ..).trans ?_ | with_reducible refine (dropCached_still ..).trans ?_ | with_reducible refine (modEngine_still ..).trans ?_ | with_reducible refine (State.modMem_still ..).trans ?_ | with_reducible refine ite_still ?_ ?_ | with_reducible refine (foldl_still _ _ _ fun _ _ => ?_).trans ?_ | extract_lets | intro _ | split
theorem refuseQueue_still (fn : Nat) (s : State) : (refuseQueue fn s).still = s.still := by
  unfold refuseQueue; repeat' first | with_reducible rfl | with_reducible refine (flagErr_still ..).trans ?_ | with_reducible refine (State.modHif_still ..).trans ?_ | with_reducible refine ite_still ?_ ?_ | extract_lets | intro _ | split
theorem reversed_still (bin : Nat) (s : State) : (reversed bin s).still = s.still := by
  unfold reversed; repeat' first | with_reducible rfl | with_reducible refine (disturb_still ..).trans ?_ | with_reducible refine ite_still ?_ ?_ | extract_lets | intro _ | split
theorem noteFirst_still (t : Nat) (s : State) : (noteFirst t s).still = s.still := by
  unfold noteFirst; repeat' first | with_reducible rfl | with_reducible refine (modTurn_still ..).trans ?_ | with_reducible refine ite_still ?_ ?_ | extract_lets | intro _ | split
theorem releaseFrame_still (rid : Nat) (turn : Nat) (sail : Nat) (first : Bool) (v : Sail) (f : HeldFrame) (s : State) : (releaseFrame rid turn sail first v f s).still = s.still := by
  unfold releaseFrame; repeat' first | with_reducible rfl | with_reducible refine (pushJob_still ..).trans ?_ | with_reducible refine (modRace_still ..).trans ?_ | with_reducible refine (landFrameOut_still ..).trans ?_ | with_reducible refine ite_still ?_ ?_ | extract_lets | intro _ | split
theorem noteStart_still (n : Nat) (k : Nat) (slot : RunSlot) (op : Nat) (s : State) : (noteStart n k slot op s).still = s.still := by
  unfold noteStart; repeat' first | with_reducible rfl | with_reducible refine (modItem_still ..).trans ?_ | with_reducible refine ite_still ?_ ?_ | extract_lets | intro _ | split
theorem stallSail_still (n : Nat) (t : Nat) (k : Nat) (which : Nat) (need : Nat) (recs : Nat) (s : State) : (stallSail n t k which need recs s).still = s.still := by
  unfold stallSail; repeat' first | with_reducible rfl | with_reducible refine (modSail_still ..).trans ?_ | with_reducible refine (modItem_still ..).trans ?_ | with_reducible refine (raise_still ..).trans ?_ | with_reducible refine ite_still ?_ ?_ | extract_lets | intro _ | split
theorem nearRead_still (n : Nat) (x : Issue) (h i : Nat) (b : BinReply) (s : State) : (nearRead n x h i b s).still = s.still := by
  unfold nearRead; extract_lets e given
  refine foldlSnd_still _ _ _ fun a r => ?_
  extract_lets len n' e'
  split
  · exact (passOp_still ..).trans ((writeScratch_still ..).trans (emit_still ..))
  · exact (passOp_still ..).trans ((writeScratch_still ..).trans ((readHealed_still ..).trans (hotRead_still ..)))
theorem refuseBin_still (n : Nat) (status : Nat) (s : State) : (refuseBin n status s).still = s.still := by
  unfold refuseBin; repeat' first | with_reducible rfl | with_reducible refine (stopGang_still ..).trans ?_ | with_reducible refine (logError_still ..).trans ?_ | with_reducible refine ite_still ?_ ?_ | extract_lets | intro _ | split
theorem refuseNear_still (n : Nat) (st : Status) (s : State) : (refuseNear n st s).still = s.still := by
  unfold refuseNear; repeat' first | with_reducible rfl | with_reducible refine (modItem_still ..).trans ?_ | with_reducible refine (stopGang_still ..).trans ?_ | with_reducible refine ite_still ?_ ?_ | extract_lets | intro _ | split
theorem losePair_still (p : Nat) (s : State) : (losePair p s).still = s.still := by
  unfold losePair; repeat' first | with_reducible rfl | with_reducible refine (loseBin_still ..).trans ?_ | with_reducible refine ite_still ?_ ?_ | with_reducible refine (forEach_still _ _ _ fun _ _ => ?_).trans ?_ | extract_lets | intro _ | split
theorem pairDown_still (p : Nat) (reason : Nat) (s : State) : (pairDown p reason s).still = s.still := by
  unfold pairDown; repeat' first | with_reducible rfl | with_reducible refine (losePair_still ..).trans ?_ | with_reducible refine (modPair_still ..).trans ?_ | with_reducible refine (raisePf_still ..).trans ?_ | with_reducible refine ite_still ?_ ?_ | extract_lets | intro _ | split
theorem writeRows_still (n : Nat) (x : Issue) (s : State) : (writeRows n x s).2.still = s.still := by
  unfold writeRows; exact foldlSnd_still _ _ _ fun _ _ => readScratch_still ..
theorem writeRows_still' {stone : Nat} {x : Issue} {s : State} {p_ : List (Nat × List PByte) × State} (h_ : writeRows stone x s = p_) : p_.2.still = s.still := (congrArg (fun x : List (Nat × List PByte) × State => x.2.still) h_).symm.trans (writeRows_still ..)
theorem nearWrite_still (item : Nat) (stone : Nat) (i : Nat) (h : Nat) (l : List (Nat × List PByte)) (s : State) : (nearWrite item stone i h l s).still = s.still := by
  unfold nearWrite; repeat' first | with_reducible rfl | with_reducible refine (admitOp_still' (by assumption)).trans ?_ | with_reducible refine (admitOp_still ..).trans ?_ | with_reducible refine (passOp_still ..).trans ?_ | with_reducible refine (writeCopy_still' (by assumption)).trans ?_ | with_reducible refine (writeCopy_still ..).trans ?_ | with_reducible refine ite_still ?_ ?_ | with_reducible refine (foldl_still _ _ _ fun _ _ => ?_).trans ?_ | extract_lets | intro _ | split
theorem takeCtl_still (m : Msg) (s : State) : (takeCtl m s).still = s.still := by
  unfold takeCtl; repeat' first | with_reducible rfl | with_reducible refine (State.modMail_still ..).trans ?_ | with_reducible refine ite_still ?_ ?_ | extract_lets | intro _ | split
theorem withImage_still (c : Cmd) (k : Image → State → State) (s : State) (hk : ∀ x0 x1, (k x0 x1).still = x1.still) : (withImage c k s).still = s.still := by
  unfold withImage; repeat' first | with_reducible rfl | with_reducible refine (invalid_still ..).trans ?_ | with_reducible refine (hk ..).trans ?_ | with_reducible refine ite_still ?_ ?_ | extract_lets | intro _ | split
theorem setBoost_still (b : Bool) (reason : Nat) (s : State) : (setBoost b reason s).still = s.still := by
  unfold setBoost; repeat' first | with_reducible rfl | with_reducible refine (State.modPwr_still ..).trans ?_ | with_reducible refine (raisePf_still ..).trans ?_ | with_reducible refine ite_still ?_ ?_ | extract_lets | intro _ | split
theorem trainDdr_still (pop : List PairPop) (s : State) : (trainDdr pop s).still = s.still := by
  unfold trainDdr; repeat' first | with_reducible rfl | with_reducible refine (reportPairs_still ..).trans ?_ | with_reducible refine (State.modMem_still ..).trans ?_ | with_reducible refine ite_still ?_ ?_ | extract_lets | intro _ | split
theorem takeGrant_still (s : State) : (takeGrant s).still = s.still := by
  unfold takeGrant; repeat' first | with_reducible rfl | with_reducible refine (State.modPwr_still ..).trans ?_ | with_reducible refine (setBoost_still ..).trans ?_ | with_reducible refine ite_still ?_ ?_ | extract_lets | intro _ | split
theorem verifyAdmin_still (c : Cmd) (s : State) : (verifyAdmin c s).still = s.still := by
  unfold verifyAdmin; repeat' first | with_reducible rfl | with_reducible refine (State.modDom_still ..).trans ?_ | with_reducible refine (updCmd_still ..).trans ?_ | with_reducible refine (refuse_still ..).trans ?_ | with_reducible refine ite_still ?_ ?_ | with_reducible refine checks_still (by simp [bad, deny, busy, noRes, fields, invalid, refuse, complete_still, stallOr_still]) ?_ | extract_lets | intro _ | split
theorem takeHome_still (s : State) : (takeHome s).still = s.still := by
  unfold takeHome; repeat' first | with_reducible rfl | with_reducible refine (modBin_still ..).trans ?_ | with_reducible refine (State.modGrn_still ..).trans ?_ | with_reducible refine (sendAll_still ..).trans ?_ | with_reducible refine (raisePf_still ..).trans ?_ | with_reducible refine (setMState_still ..).trans ?_ | with_reducible refine ite_still ?_ ?_ | with_reducible refine (forEach_still _ _ _ fun _ _ => ?_).trans ?_ | extract_lets | intro _ | split
theorem writeMem_still (off : Nat) (v : Nat) (s : State) : (writeMem off v s).still = s.still := by
  unfold writeMem; repeat' first | with_reducible rfl | with_reducible refine (State.modMem_still ..).trans ?_ | with_reducible refine ite_still ?_ ?_ | extract_lets | intro _ | split
theorem writeStn_still (off : Nat) (v : Nat) (s : State) : (writeStn off v s).still = s.still := by
  unfold writeStn; repeat' first | with_reducible rfl | with_reducible refine (modStone_still ..).trans ?_ | with_reducible refine (State.modStn_still ..).trans ?_ | with_reducible refine ite_still ?_ ?_ | extract_lets | intro _ | split
theorem writeTly_still (off : Nat) (v : Nat) (s : State) : (writeTly off v s).still = s.still := by
  unfold writeTly; repeat' first | with_reducible rfl | with_reducible refine (State.modTly_still ..).trans ?_ | with_reducible refine ite_still ?_ ?_ | extract_lets | intro _ | split
theorem writeOcp_still (off : Nat) (v : Nat) (s : State) : (writeOcp off v s).still = s.still := by
  unfold writeOcp; repeat' first | with_reducible rfl | with_reducible refine (modGroup_still ..).trans ?_ | with_reducible refine (modInst_still ..).trans ?_ | with_reducible refine (State.modOcp_still ..).trans ?_ | with_reducible refine ite_still ?_ ?_ | extract_lets | intro _ | split
theorem writeGrn_still (off : Nat) (v : Nat) (s : State) : (writeGrn off v s).still = s.still := by
  unfold writeGrn; repeat' first | with_reducible rfl | with_reducible refine (State.modGrn_still ..).trans ?_ | with_reducible refine ite_still ?_ ?_ | extract_lets | intro _ | split
theorem writeMon_still (off : Nat) (v : Nat) (s : State) : (writeMon off v s).still = s.still := by
  unfold writeMon; repeat' first | with_reducible rfl | with_reducible refine (State.modEvt_still ..).trans ?_ | with_reducible refine ite_still ?_ ?_ | extract_lets | intro _ | split
theorem writePwr_still (off : Nat) (v : Nat) (s : State) : (writePwr off v s).still = s.still := by
  unfold writePwr; repeat' first | with_reducible rfl | with_reducible refine (State.modPwr_still ..).trans ?_ | with_reducible refine ite_still ?_ ?_ | extract_lets | intro _ | split
theorem writeWhl_still (off : Nat) (v : Nat) (s : State) : (writeWhl off v s).still = s.still := by
  unfold writeWhl; repeat' first | with_reducible rfl | with_reducible refine (State.modTrn_still ..).trans ?_ | with_reducible refine (State.modWhl_still ..).trans ?_ | with_reducible refine ite_still ?_ ?_ | extract_lets | intro _ | split
theorem writeDom_still (off : Nat) (v : Nat) (s : State) : (writeDom off v s).still = s.still := by
  unfold writeDom; repeat' first | with_reducible rfl | with_reducible refine (State.modDom_still ..).trans ?_ | with_reducible refine ite_still ?_ ?_ | extract_lets | intro _ | split
theorem portRefused_still (p : Nat) (s : State) : (portRefused p s).still = s.still := by
  unfold portRefused; repeat' first | with_reducible rfl | with_reducible refine (modPort_still ..).trans ?_ | with_reducible refine ite_still ?_ ?_ | extract_lets | intro _ | split
theorem writePort_still (p : Nat) (off : Nat) (v : Nat) (s : State) : (writePort p off v s).still = s.still := by
  unfold writePort; repeat' first | with_reducible rfl | with_reducible refine (modPort_still ..).trans ?_ | with_reducible refine (portRefused_still ..).trans ?_ | with_reducible refine ite_still ?_ ?_ | with_reducible refine (foldl_still _ _ _ fun _ _ => ?_).trans ?_ | extract_lets | intro _ | split
theorem writeChk_still (off : Nat) (v : Nat) (s : State) : (writeChk off v s).still = s.still := by
  unfold writeChk; repeat' first | with_reducible rfl | with_reducible refine (State.modChk_still ..).trans ?_ | with_reducible refine (modEngine_still ..).trans ?_ | with_reducible refine ite_still ?_ ?_ | extract_lets | intro _ | split
theorem writeRdm_still (off : Nat) (v : Nat) (s : State) : (writeRdm off v s).still = s.still := by
  unfold writeRdm; repeat' first | with_reducible rfl | with_reducible refine (State.modRdm_still ..).trans ?_ | with_reducible refine ite_still ?_ ?_ | extract_lets | intro _ | split
theorem hostReadReg_still (fn off : Nat) (s : State) : (hostReadReg fn off s).2.still = s.still := by
  unfold hostReadReg; exact ite_still rfl rfl
theorem hostReadReg_still' {fn : Nat} {off : Nat} {s : State} {p_ : Nat × State} (h_ : hostReadReg fn off s = p_) : p_.2.still = s.still := (congrArg (fun x : Nat × State => x.2.still) h_).symm.trans (hostReadReg_still ..)
theorem goodFlit_still (p seq : Nat) (c : Ctl) (data : List Byte) (s : State) : (goodFlit p seq c data s).still = s.still := by
  unfold goodFlit
  repeat' first
    | with_reducible rfl | exact modFlm_still .. | exact linkDown_still .. | exact (deliverHeld_still ..).trans (modFlm_still ..)
    | (rename_i h; exact (congrArg (fun x => x.1.still) h).symm.trans ((deliverFlit_still ..).trans (modFlm_still ..)))
    | (rename_i h; exact (linkDown_still ..).trans ((congrArg (fun x => x.1.still) h).symm.trans ((deliverFlit_still ..).trans (modFlm_still ..))))
    | extract_lets | split
theorem scrubFound_still (s : State) (e : Nat × Bool) : (scrubFound s e).still = s.still := by
  unfold scrubFound; repeat' first | with_reducible rfl | with_reducible refine (dramCe_still ..).trans ?_ | with_reducible refine (dramUe_still ..).trans ?_ | with_reducible refine ite_still ?_ ?_ | extract_lets | intro _ | split
theorem woken_still (s : State) : (woken s).still = s.still := by
  unfold woken; repeat' first | with_reducible rfl | with_reducible refine (State.modPwr_still ..).trans ?_ | with_reducible refine (State.modMwr_still ..).trans ?_ | with_reducible refine (backToRun_still ..).trans ?_ | with_reducible refine (State.modHif_still ..).trans ?_ | with_reducible refine ite_still ?_ ?_ | extract_lets | intro _ | split
theorem warmRest_still (s : State) : (warmRest s).still = s.still := by
  unfold warmRest; repeat' first | with_reducible rfl | with_reducible refine (State.modTrn_still ..).trans ?_ | with_reducible refine (State.modPwr_still ..).trans ?_ | with_reducible refine (settleFences_still ..).trans ?_ | with_reducible refine (State.modWhl_still ..).trans ?_ | with_reducible refine (State.modRdm_still ..).trans ?_ | with_reducible refine (State.modChk_still ..).trans ?_ | with_reducible refine (State.modUsb_still ..).trans ?_ | with_reducible refine (State.modMail_still ..).trans ?_ | with_reducible refine (clearScratch_still ..).trans ?_ | with_reducible refine (State.modCore_still ..).trans ?_ | with_reducible refine (State.modStn_still ..).trans ?_ | with_reducible refine (State.modTly_still ..).trans ?_ | with_reducible refine (State.modGrn_still ..).trans ?_ | with_reducible refine (settleVotes_still ..).trans ?_ | with_reducible refine (regionSizes_still ..).trans ?_ | with_reducible refine (resetInst_still ..).trans ?_ | with_reducible refine (State.modEvt_still ..).trans ?_ | with_reducible refine (retrainPorts_still ..).trans ?_ | with_reducible refine (State.modMem_still ..).trans ?_ | with_reducible refine (State.modOcp_still ..).trans ?_ | with_reducible refine (State.modHif_still ..).trans ?_ | with_reducible refine (loseCounts_still ..).trans ?_ | with_reducible refine (flushKept_still ..).trans ?_ | with_reducible refine ite_still ?_ ?_ | extract_lets | intro _ | split
theorem linkUp_still (p : Nat) (s : State) : (linkUp p s).still = s.still := by
  unfold linkUp; repeat' first | with_reducible rfl | with_reducible refine (modPort_still ..).trans ?_ | with_reducible refine (askPromotion_still ..).trans ?_ | with_reducible refine (sendAll_still ..).trans ?_ | with_reducible refine (raisePf_still ..).trans ?_ | with_reducible refine (eventAll_still ..).trans ?_ | with_reducible refine ite_still ?_ ?_ | extract_lets | intro _ | split
theorem portsOff_still (s : State) : (portsOff s).still = s.still := by
  unfold portsOff; repeat' first | with_reducible rfl | with_reducible refine (modPort_still ..).trans ?_ | with_reducible refine (linkDown_still ..).trans ?_ | with_reducible refine ite_still ?_ ?_ | with_reducible refine (forEach_still _ _ _ fun _ _ => ?_).trans ?_ | extract_lets | intro _ | split
theorem firstBoot_still (s : State) : (firstBoot s).still = s.still := by
  unfold firstBoot; repeat' first | with_reducible rfl | with_reducible refine (State.modMwr_still ..).trans ?_ | with_reducible refine (applyStored_still ..).trans ?_ | with_reducible refine (State.modDom_still ..).trans ?_ | with_reducible refine (raisePf_still ..).trans ?_ | with_reducible refine ite_still ?_ ?_ | extract_lets | intro _ | split
theorem settleJournal_still (s : State) : (settleJournal s).still = s.still := by
  unfold settleJournal; repeat' first | with_reducible rfl | with_reducible refine (State.modMwr_still ..).trans ?_ | with_reducible refine (completeK_still ..).trans ?_ | with_reducible refine (failInternal_still ..).trans ?_ | with_reducible refine (complete_still ..).trans ?_ | with_reducible refine ite_still ?_ ?_ | extract_lets | intro _ | split
theorem holdGated_still (s : State) : (holdGated s).still = s.still := by
  unfold holdGated; repeat' first | with_reducible rfl | with_reducible refine (State.modOcp_still ..).trans ?_ | with_reducible refine ite_still ?_ ?_ | with_reducible refine (foldl_still _ _ _ fun _ _ => ?_).trans ?_ | extract_lets | intro _ | split
theorem landFlight_still (n : Nat) (j : Nat) (s : State) : (landFlight n j s).still = s.still := by
  unfold landFlight; repeat' first | with_reducible rfl | with_reducible refine (modItem_still ..).trans ?_ | with_reducible refine (gangFault_still ..).trans ?_ | with_reducible refine (writeScratch_still ..).trans ?_ | with_reducible refine ite_still ?_ ?_ | extract_lets | intro _ | split
theorem meshAt_still (n : Nat) (s : State) : (meshAt n s).still = s.still := by
  unfold meshAt; repeat' first | with_reducible rfl | with_reducible refine (landFlight_still ..).trans ?_ | with_reducible refine (gangFault_still ..).trans ?_ | with_reducible refine ite_still ?_ ?_ | with_reducible refine (forEach_still _ _ _ fun _ _ => ?_).trans ?_ | extract_lets | intro _ | split
theorem runItem_still (n : Nat) (t : Nat) (k : Nat) (s : State) : (runItem n t k s).still = s.still := by
  unfold runItem; repeat' first | with_reducible rfl | with_reducible refine (modItem_still ..).trans ?_ | with_reducible refine (meshAt_still ..).trans ?_ | with_reducible refine ite_still ?_ ?_ | extract_lets | intro _ | split

end Sys2Proof.Machine
end

