-- ==== Sys2Proof/Laws/Tbl.lean ====
section
/-! SUPPORT. What a lookup in a table reads after each operation on it, and that the operations keep it sorted. -/

namespace Sys2Proof

theorem Tbl.get_set {α : Type} (t : Tbl α) (i j : Nat) (x : α) : (t.set i x).get j = if j = i then some x else t.get j := by
  induction t with
  | nil => simp [Tbl.set, Tbl.get, eq_comm]
  | cons e r ih =>
    obtain ⟨k, v⟩ := e
    unfold Tbl.set
    split
    · by_cases h : j = i
      · simp [Tbl.get, h]
      · simp [Tbl.get, h, Ne.symm h]
    · split
      · rename_i h; subst h
        by_cases h : j = i
        · simp [Tbl.get, h]
        · simp [Tbl.get, h, Ne.symm h]
      · simp only [Tbl.get, ih]
        by_cases hk : k = j
        · subst hk; simp; omega
        · simp [hk]
theorem Tbl.getD_set {α : Type} (t : Tbl α) (i j : Nat) (x d : α) : (t.set i x).getD j d = if j = i then x else t.getD j d := by
  unfold Tbl.getD; rw [Tbl.get_set]; split <;> rfl
theorem Tbl.getD_alter {α : Type} (t : Tbl α) (i j : Nat) (d : α) (f : α → α) :
    (t.alter i d f).getD j d = if j = i then f (t.getD i d) else t.getD j d := Tbl.getD_set ..
theorem Tbl.get_modify {α : Type} (t : Tbl α) (i j : Nat) (f : α → α) : (t.modify i f).get j = if j = i then (t.get j).map f else t.get j := by
  induction t with
  | nil => simp [Tbl.modify, Tbl.get]
  | cons e r ih =>
    obtain ⟨k, v⟩ := e
    unfold Tbl.modify
    by_cases h : k = i
    · subst h; by_cases hj : k = j
      · subst hj; simp [Tbl.get]
      · simp [Tbl.get, hj, ih, Ne.symm hj]
    · by_cases hj : k = j
      · subst hj; simp [Tbl.get, h]
      · simp [Tbl.get, h, hj, ih]
theorem Tbl.get_mapVal {α : Type} (t : Tbl α) (j : Nat) (f : Nat → α → α) : (t.mapVal f).get j = (t.get j).map (f j) := by
  induction t with
  | nil => simp [Tbl.mapVal, Tbl.get]
  | cons e r ih =>
    obtain ⟨k, v⟩ := e
    simp only [Tbl.mapVal, List.map_cons, Tbl.get] at ih ⊢
    by_cases h : k = j
    · subst h; simp
    · simp [h]; exact ih
/-- Keys of a sorted table lie above a bound. -/
def Tbl.above {α : Type} (b : Nat) : Tbl α → Prop
  | [] => True
  | (k, _) :: r => b < k ∧ Tbl.above k r

theorem Tbl.wf_cons {α : Type} (k : Nat) (v : α) (t : Tbl α) : Tbl.wf ((k, v) :: t) = true ↔ Tbl.above k t := by
  induction t generalizing k v with
  | nil => simp [Tbl.wf, Tbl.above]
  | cons e r ih => obtain ⟨j, w⟩ := e; simp [Tbl.wf, Tbl.above, ih]

theorem Tbl.above_set {α : Type} (b : Nat) (t : Tbl α) (i : Nat) (x : α) (hb : b < i) (h : Tbl.above b t) :
    Tbl.above b (t.set i x) := by
  induction t generalizing b with
  | nil => exact ⟨hb, trivial⟩
  | cons e r ih =>
    obtain ⟨k, v⟩ := e
    unfold Tbl.set
    split
    · exact ⟨hb, ‹i < k›, h.2⟩
    · split
      · rename_i hk; subst hk; exact h
      · exact ⟨h.1, ih k (by omega) h.2⟩

theorem Tbl.wf_set {α : Type} (t : Tbl α) (i : Nat) (x : α) (h : t.wf = true) : (t.set i x).wf = true := by
  cases t with
  | nil => rfl
  | cons e r =>
    obtain ⟨k, v⟩ := e
    rw [Tbl.wf_cons] at h
    unfold Tbl.set
    split
    · rw [Tbl.wf_cons]; exact ⟨‹i < k›, h⟩
    · split
      · rename_i hk; subst hk; rw [Tbl.wf_cons]; exact h
      · rw [Tbl.wf_cons]; exact Tbl.above_set k r i x (by omega) h

end Sys2Proof
end

