-- ==== Sys2Proof/Laws/Brake.lean ====
section
/-! SUPPORT. Every shared operation keeps the brake path safe (R458, R461) and the queue of waiting commands. -/

set_option linter.unusedSimpArgs false
set_option linter.unusedVariables false

namespace Sys2Proof.Machine

/-- The queue stays, and a safe brake path stays safe. -/
def Calm (s t : State) : Prop := t.pending = s.pending ∧ (s.brk.safe → t.brk.safe)

theorem Calm.refl (s : State) : Calm s s := ⟨rfl, id⟩
theorem Calm.trans {a b c : State} (h : Calm a b) (k : Calm b c) : Calm a c := ⟨k.1.trans h.1, fun x => k.2 (h.2 x)⟩
theorem Calm.still {s t : State} (h : t.still = s.still) : Calm s t := by
  have h1 : t.brk = s.brk := congrArg Prod.fst h
  exact ⟨congrArg Prod.snd h, fun x => h1 ▸ x⟩

theorem safe_congr {a b : Brk} (h1 : b.set = a.set) (h2 : b.lockout = a.lockout)
    (h3 : ∀ n, (b.slots.getD n {}).state = (a.slots.getD n {}).state) (h : a.safe) : b.safe := by
  unfold Brk.safe at *; simp only [h1, h2, h3]; exact h
/-- A change of the brake path that leaves set, lock-out and the slot states alone. -/
theorem calm_modBrk {s : State} {f : Brk → Brk} (h1 : (f s.brk).set = s.brk.set) (h2 : (f s.brk).lockout = s.brk.lockout)
    (h3 : ∀ n, ((f s.brk).slots.getD n {}).state = (s.brk.slots.getD n {}).state) : Calm s (s.modBrk f) :=
  ⟨rfl, safe_congr h1 h2 h3⟩
theorem calm_modBrk_same {s : State} {f : Brk → Brk} (h1 : (f s.brk).set = s.brk.set) (h2 : (f s.brk).lockout = s.brk.lockout)
    (h3 : (f s.brk).slots = s.brk.slots) : Calm s (s.modBrk f) := calm_modBrk h1 h2 (fun n => by rw [h3])

theorem foldl_calm {α : Type} (l : List α) (f : State → α → State) (s : State) (h : ∀ s a, Calm s (f s a)) : Calm s (l.foldl f s) := by
  induction l generalizing s with
  | nil => exact .refl s
  | cons a l ih => exact (h s a).trans (ih _)
theorem foldl_calm' {α : Type} {l : List α} {f : State → α → State} {x s : State} (h0 : Calm x s) (h : ∀ s a, Calm s (f s a)) :
    Calm x (l.foldl f s) := h0.trans (foldl_calm _ _ _ h)
theorem forEach_calm (l : List Nat) (f : Nat → State → State) (s : State) (h : ∀ n s, Calm s (f n s)) : Calm s (forEach l f s) :=
  foldl_calm _ _ _ fun s a => h a s
theorem ite_calm {c : Prop} [Decidable c] {a b x : State} (ha : Calm x a) (hb : Calm x b) : Calm x (if c then a else b) := by
  split <;> assumption

theorem brkEvent_calm (code obj arg : Nat) (s : State) : Calm s (brkEvent code obj arg s) := by
  unfold brkEvent; extract_lets s1
  have h : Calm s s1 := calm_modBrk_same rfl rfl rfl
  exact ite_calm (h.trans (.still (raise_still ..))) h
theorem setValve_calm (n : Nat) (st : ValveState) (s : State) : Calm s (setValve n st s) :=
  (calm_modBrk_same rfl rfl rfl).trans (brkEvent_calm ..)
theorem openBlank_calm (s : State) : Calm s (openBlank s) := by
  unfold openBlank; extract_lets; repeat' first | exact .refl _ | exact calm_modBrk_same rfl rfl rfl | split
theorem closeBlank_calm (s : State) : Calm s (closeBlank s) := by
  unfold closeBlank; repeat' first | exact .refl _ | exact calm_modBrk_same rfl rfl rfl | split
theorem settleBlank_calm (s : State) : Calm s (settleBlank s) := by
  unfold settleBlank; exact ite_calm (.refl _) (closeBlank_calm _)
theorem startValve_calm (n : Nat) (s : State) : Calm s (startValve n s) := (setValve_calm ..).trans (openBlank_calm _)
theorem startDeferred_calm (s : State) : Calm s (startDeferred s) := by
  unfold startDeferred; exact foldl_calm _ _ _ fun _ _ => ite_calm (startValve_calm ..) (.refl _)
theorem answerValve_calm (n : Nat) (st : Status) (r r2 : Nat) (s : State) : Calm s (answerValve n st r r2 s) := by
  unfold answerValve; extract_lets l
  exact (calm_modBrk_same rfl rfl rfl).trans (foldl_calm _ _ _ fun _ _ => .still (completeId_still ..))
theorem waitValve_calm (n : Nat) (c : Cmd) (s : State) : Calm s (waitValve n c s) :=
  (calm_modBrk_same rfl rfl rfl).trans (.still (accept_still ..))
theorem waitSlot_calm (n : Nat) (e : Bool) (c : Cmd) (s : State) : Calm s (waitSlot n e c s) := by
  refine (calm_modBrk rfl rfl fun k => ?_).trans (.still (accept_still ..))
  simp only [Tbl.getD_alter]; split
  · rename_i h; subst h; rfl
  · rfl
theorem answerSlots_calm (n : Nat) (e : Bool) (u : Nat) (st : Status) (r r2 : Nat) (s : State) : Calm s (answerSlots n e u st r r2 s) := by
  unfold answerSlots; extract_lets mine l
  refine foldl_calm' ?_ fun a w => .still (completeId_still w.1 st r r2 a)
  refine calm_modBrk rfl rfl fun k => ?_
  have e : ∀ (t : Tbl Slot) (f : Slot → Slot), (∀ x, (f x).state = x.state) → ((t.modify n f).getD k {}).state = (t.getD k {}).state := by
    intro t f hf
    simp only [Tbl.getD, Tbl.get_modify]; split
    · cases h : Tbl.get t k
      · rfl
      · exact hf _
    · rfl
  exact e _ _ fun _ => rfl
theorem answerSlot_calm (n : Nat) (e : Bool) (st : Status) (r r2 : Nat) (s : State) : Calm s (answerSlot n e st r r2 s) := answerSlots_calm ..
theorem setSlot_calm {n : Nat} {st : SlotState} {s : State}
    (h : st = .off ∨ st = .fault ∨ (s.brk.safe → n < 8 → s.brk.set = false)) : Calm s (setSlot n st s) := by
  unfold setSlot; split
  · exact .refl _
  · extract_lets s1
    refine Calm.trans (b := s1) ⟨rfl, fun hs => ⟨hs.1, fun hset k hk => ?_⟩⟩ (brkEvent_calm ..)
    have e : (s1.brk.slots.getD k {}).state = if k = n then st else (s.brk.slots.getD k {}).state := by
      unfold s1; simp only [State.modBrk_brk, Tbl.getD_alter]; split <;> rfl
    rw [e]; split
    · rename_i hkn; subst hkn
      rcases h with h | h | h
      · exact .inl h
      · exact .inr h
      · exact absurd hset (Bool.eq_false_iff.mp (h hs hk))
    · exact hs.2 hset k hk
theorem watchHold_calm (s : State) : Calm s (watchHold s) := by
  unfold watchHold; exact ite_calm (calm_modBrk_same rfl rfl rfl) (.refl _)
theorem releaseBrake_calm (how : Nat) (s : State) : Calm s (releaseBrake how s) := by
  refine Calm.trans (Calm.trans ?_ (brkEvent_calm ..)) (startDeferred_calm _)
  exact ⟨rfl, fun _ => ⟨fun h => (nomatch h), fun h => (nomatch h)⟩⟩

/-- What stays of the slots and the brake under an operation that changes neither. -/
def SameBrake (s t : State) : Prop :=
  t.brk.set = s.brk.set ∧ t.brk.lockout = s.brk.lockout ∧ ∀ n, (t.brk.slots.getD n {}).state = (s.brk.slots.getD n {}).state
theorem SameBrake.refl (s : State) : SameBrake s s := ⟨rfl, rfl, fun _ => rfl⟩
theorem SameBrake.trans {a b c : State} (h : SameBrake a b) (k : SameBrake b c) : SameBrake a c :=
  ⟨k.1.trans h.1, k.2.1.trans h.2.1, fun n => (k.2.2 n).trans (h.2.2 n)⟩
theorem SameBrake.still {s t : State} (h : t.still = s.still) : SameBrake s t := by
  have h1 : t.brk = s.brk := congrArg Prod.fst h
  unfold SameBrake; rw [h1]; exact SameBrake.refl s
theorem foldl_same {α : Type} (l : List α) (f : State → α → State) (s : State) (h : ∀ s a, SameBrake s (f s a)) : SameBrake s (l.foldl f s) := by
  induction l generalizing s with
  | nil => exact .refl s
  | cons a l ih => exact (h s a).trans (ih _)
theorem foldl_same' {α : Type} {l : List α} {f : State → α → State} {x s : State} (h0 : SameBrake x s) (h : ∀ s a, SameBrake s (f s a)) :
    SameBrake x (l.foldl f s) := h0.trans (foldl_same _ _ _ h)
theorem brkEvent_same (code obj arg : Nat) (s : State) : SameBrake s (brkEvent code obj arg s) := by
  unfold brkEvent; extract_lets s1
  have h : SameBrake s s1 := ⟨rfl, rfl, fun _ => rfl⟩
  split
  · exact h.trans (.still (raise_still ..))
  · exact h
theorem setValve_same (n : Nat) (st : ValveState) (s : State) : SameBrake s (setValve n st s) :=
  SameBrake.trans ⟨rfl, rfl, fun _ => rfl⟩ (brkEvent_same ..)
theorem openBlank_same (s : State) : SameBrake s (openBlank s) := by
  unfold openBlank; extract_lets; repeat' first | exact .refl _ | exact ⟨rfl, rfl, fun _ => rfl⟩ | split
theorem closeBlank_same (s : State) : SameBrake s (closeBlank s) := by
  unfold closeBlank; repeat' first | exact .refl _ | exact ⟨rfl, rfl, fun _ => rfl⟩ | split
theorem settleBlank_same (s : State) : SameBrake s (settleBlank s) := by
  unfold settleBlank; split; exact .refl _; exact closeBlank_same _
theorem startDeferred_same (s : State) : SameBrake s (startDeferred s) := by
  unfold startDeferred; refine foldl_same _ _ _ fun _ _ => ?_
  split
  · exact (setValve_same ..).trans (openBlank_same _)
  · exact .refl _
theorem answerValve_same (n : Nat) (st : Status) (r r2 : Nat) (s : State) : SameBrake s (answerValve n st r r2 s) := by
  unfold answerValve; extract_lets l
  exact SameBrake.trans ⟨rfl, rfl, fun _ => rfl⟩ (foldl_same _ _ _ fun _ _ => .still (completeId_still ..))
theorem answerSlot_same (n : Nat) (e : Bool) (st : Status) (r r2 : Nat) (s : State) : SameBrake s (answerSlot n e st r r2 s) := by
  unfold answerSlot answerSlots; extract_lets mine l
  refine foldl_same' ?_ fun a w => .still (completeId_still w.1 st r r2 a)
  refine ⟨rfl, rfl, fun k => ?_⟩
  have e : ∀ (t : Tbl Slot) (f : Slot → Slot), (∀ x, (f x).state = x.state) → ((t.modify n f).getD k {}).state = (t.getD k {}).state := by
    intro t f hf
    simp only [Tbl.getD, Tbl.get_modify]; split
    · cases h : Tbl.get t k
      · rfl
      · exact hf _
    · rfl
  exact e _ _ fun _ => rfl
theorem setSlot_off (n : Nat) (s : State) :
    (setSlot n .off s).brk.set = s.brk.set ∧ (setSlot n .off s).brk.lockout = s.brk.lockout ∧
      ∀ k, ((setSlot n .off s).brk.slots.getD k {}).state = if k = n then .off else (s.brk.slots.getD k {}).state := by
  unfold setSlot; split
  · rename_i h; refine ⟨rfl, rfl, fun k => ?_⟩; split
    · rename_i hk; subst hk; exact h
    · rfl
  · extract_lets s1
    obtain ⟨h1, h2, h3⟩ := brkEvent_same 0xF009 n (n + SlotState.code .off * 2 ^ 4) s1
    refine ⟨h1, h2, fun k => (h3 k).trans ?_⟩
    unfold s1; simp only [State.modBrk_brk, Tbl.getD_alter]; split <;> rfl
theorem slotsOff (l : List Nat) (a : State) :
    (forEach l (fun n s => answerSlot n true .notPermitted 10 12 (setSlot n .off s)) a).brk.set = a.brk.set ∧
      (forEach l (fun n s => answerSlot n true .notPermitted 10 12 (setSlot n .off s)) a).brk.lockout = a.brk.lockout ∧
      ∀ n, ((forEach l (fun n s => answerSlot n true .notPermitted 10 12 (setSlot n .off s)) a).brk.slots.getD n {}).state =
        if n ∈ l then .off else (a.brk.slots.getD n {}).state := by
  induction l generalizing a with
  | nil => exact ⟨rfl, rfl, fun n => by simp [forEach]⟩
  | cons x l ih =>
    obtain ⟨i1, i2, i3⟩ := ih (answerSlot x true .notPermitted 10 12 (setSlot x .off a))
    obtain ⟨a1, a2, a3⟩ := answerSlot_same x true .notPermitted 10 12 (setSlot x .off a)
    obtain ⟨o1, o2, o3⟩ := setSlot_off x a
    refine ⟨i1.trans (a1.trans o1), i2.trans (a2.trans o2), fun n => (i3 n).trans ?_⟩
    rw [a3, o3]
    by_cases h : n ∈ l <;> by_cases hx : n = x <;> simp [h, hx]
theorem cutPower_eq (s : State) : cutPower s = startDeferred (settleBlank
    (forEach (List.range 8) (fun n s => answerSlot n true .notPermitted 10 12 (setSlot n .off s))
      (forEach (List.range 8) (fun n s =>
        if s.brk.act.drops n ∧ (valveOf s n).state ≠ .off then answerValve n .notPermitted 10 12 (setValve n .off s) else s) s))) := rfl
theorem cutValves_same (s : State) : SameBrake s (forEach (List.range 8) (fun n s =>
        if s.brk.act.drops n ∧ (valveOf s n).state ≠ .off then answerValve n .notPermitted 10 12 (setValve n .off s) else s) s) := by
  refine foldl_same _ _ _ fun a n => ?_
  show SameBrake a (if _ then _ else _)
  split
  · exact (setValve_same ..).trans (answerValve_same ..)
  · exact .refl _
theorem cutPower_brake (s : State) : (cutPower s).brk.set = s.brk.set ∧ (cutPower s).brk.lockout = s.brk.lockout ∧
    ∀ n, n < 8 → ((cutPower s).brk.slots.getD n {}).state = .off := by
  rw [cutPower_eq]
  have h1 := cutValves_same s
  generalize forEach (List.range 8) (fun n s =>
        if s.brk.act.drops n ∧ (valveOf s n).state ≠ .off then answerValve n .notPermitted 10 12 (setValve n .off s) else s) s = s1 at h1 ⊢
  have k := slotsOff (List.range 8) s1
  generalize forEach (List.range 8) (fun n s => answerSlot n true .notPermitted 10 12 (setSlot n .off s)) s1 = s2 at k ⊢
  have e := (settleBlank_same s2).trans (startDeferred_same _)
  refine ⟨e.1.trans (k.1.trans h1.1), e.2.1.trans (k.2.1.trans h1.2.1), fun n hn => (e.2.2 n).trans ((k.2.2 n).trans ?_)⟩
  simp [hn]
theorem cutPower_pending (s : State) : (cutPower s).pending = s.pending := by
  rw [cutPower_eq]
  refine ((settleBlank_calm _).trans (startDeferred_calm _)).1.trans ?_
  refine (forEach_calm _ _ _ fun n s => (setSlot_calm (.inl rfl)).trans (answerSlot_calm ..)).1.trans ?_
  exact (forEach_calm _ _ _ fun n s => ite_calm ((setValve_calm ..).trans (answerValve_calm ..)) (.refl _)).1
theorem brakeCause_calm (code idx : Nat) (s : State) : Calm s (brakeCause code idx s) := by
  unfold brakeCause; extract_lets b word s1 b1 b2; split
  · have h1 : s1.brk.set = true ∧ s1.pending = s.pending := ⟨rfl, rfl⟩
    clear_value s1
    have e := brkEvent_same 0xF001 idx word s1
    have p := (brkEvent_calm 0xF001 idx word s1).1
    generalize brkEvent 0xF001 idx word s1 = s2 at e p ⊢
    have c := cutPower_brake s2
    refine ⟨(cutPower_pending s2).trans (p.trans h1.2), fun _ => ⟨fun _ => c.1.trans (e.1.trans h1.1), fun _ n hn => .inl (c.2.2 n hn)⟩⟩
  · have h1 : b1.set = b.set ∧ b1.lockout = b.lockout ∧ b1.slots = b.slots := by unfold b1; split <;> exact ⟨rfl, rfl, rfl⟩
    have h2 : b2.set = b1.set ∧ b2.lockout = b1.lockout ∧ b2.slots = b1.slots := by
      unfold b2; split
      · exact ⟨rfl, rfl, rfl⟩
      · split <;> exact ⟨rfl, rfl, rfl⟩
    clear_value b2 b1
    exact calm_modBrk_same (h2.1.trans h1.1) (h2.2.1.trans h1.2.1) (h2.2.2.trans h1.2.2)
theorem detach_calm (id : CmdId) (s : State) : Calm s (detach id s) := by
  unfold detach; extract_lets free new re s1 s2 s3 s4
  have h3 : Calm s s3 := .still ((State.modMwr_still ..).trans ((State.modMail_still ..).trans (updCmd_still ..)))
  clear_value s3
  refine h3.trans (Calm.trans (b := s4) (calm_modBrk rfl rfl fun n => ?_) (.still ((renameWork_still ..).trans (State.modTly_still ..))))
  simp only [Tbl.getD, Tbl.get_mapVal]; cases Tbl.get s3.brk.slots n <;> rfl
theorem coldStart_calm (a : Bool) (c : Option Nat) (s : State) : Calm s (coldStart a c s) := by
  refine ⟨rfl, fun _ => ?_⟩
  show (coldBrake a s).safe
  unfold coldBrake
  cases a <;> exact ⟨fun h => (nomatch h), fun _ n _ => .inl rfl⟩
theorem coldReset_calm (a : Bool) (c : Option Nat) (s : State) : Calm s (coldReset a c s) :=
  (coldStart_calm a c s).trans (.still (reportPairs_still _))
theorem loseRails_calm (s : State) : Calm s (loseRails s) :=
  ⟨rfl, fun h => ⟨h.1, fun _ n _ => .inl rfl⟩⟩
theorem startMgtReset_calm (code : Nat) (s : State) : Calm s (startMgtReset code s) := by
  unfold startMgtReset; split
  · exact .refl _
  · extract_lets s1 s2 s3 s4
    have h1 : Calm s s1 :=
      .still ((resetInst_still ..).trans ((setHoldover_still ..).trans ((noteCause_still ..).trans (flushKept_still ..))))
    clear_value s1
    have h3 : Calm s1 s3 := .still ((State.modHif_still ..).trans (State.modStore_still ..))
    clear_value s3
    have h4 : Calm s3 s4 := by
      refine calm_modBrk rfl rfl fun n => ?_
      simp only [Tbl.getD, Tbl.get_mapVal]; cases Tbl.get s3.brk.slots n <;> rfl
    exact h1.trans (h3.trans (h4.trans (.still (noteLevels_still _ _ fun _ => rfl))))
theorem adopt_calm (c : BrkCfg) (l : Tbl Leak) (s : State) : Calm s (adopt c l s) := by
  unfold adopt; extract_lets old s1
  refine Calm.trans (b := s1) (calm_modBrk_same rfl rfl rfl) (forEach_calm _ _ _ fun _ _ => ite_calm (calm_modBrk_same rfl rfl rfl) (.refl _))
theorem acceptHold_calm (s : State) : Calm s (acceptHold s) := by
  unfold acceptHold; extract_lets s1
  exact (adopt_calm ..).trans (Calm.trans (b := s1.modBrk _) (calm_modBrk_same rfl rfl rfl) (releaseBrake_calm ..))
theorem setIlk_calm (i : Nat) (st : IlkState) (s : State) : Calm s (setIlk i st s) := by
  unfold setIlk; extract_lets old s1 s2; split
  · exact .refl _
  · have h : Calm s s2 := Calm.trans (b := s1) (calm_modBrk_same rfl rfl rfl) (brkEvent_calm ..)
    clear_value s2
    exact ite_calm (h.trans (brakeCause_calm ..)) (ite_calm (h.trans (brakeCause_calm ..)) h)
theorem writePending_calm (off v : Nat) (s : State) : Calm s (writePending off v s).2 := by
  unfold writePending; split <;> exact calm_modBrk_same rfl rfl rfl
theorem writeValveCfg_calm (v : Nat) (s : State) : Calm s (writeValveCfg v s).2 := by
  unfold writeValveCfg; split
  · exact calm_modBrk_same rfl rfl rfl
  · exact Calm.trans (b := s.modBrk _) (calm_modBrk_same rfl rfl rfl) (startDeferred_calm _)
theorem cutPower_calm (s : State) : Calm s (cutPower s) := by
  rw [cutPower_eq]
  refine Calm.trans ?_ ((settleBlank_calm _).trans (startDeferred_calm _))
  refine Calm.trans ?_ (forEach_calm _ _ _ fun n s => (setSlot_calm (.inl rfl)).trans (answerSlot_calm ..))
  exact forEach_calm _ _ _ fun n s => ite_calm ((setValve_calm ..).trans (answerValve_calm ..)) (.refl _)

/-- The same of an outcome. -/
def CalmOut (s : State) (o : Out) : Prop := ∀ t, o = .next t → Calm s t
theorem CalmOut.next {s t : State} (h : Calm s t) : CalmOut s (.next t) := by intro u hu; cases hu; exact h
theorem onEvent_calm {p : Bool} {s : State} {f : State → State} (h : p = true → Calm s (f s)) : CalmOut s (onEvent p s f) := by
  unfold onEvent; split
  · rename_i hp; exact .next (h hp)
  · exact .next (.refl _)
theorem checks_calm {l : List (Bool × (State → State))} {k : State → State} {x s : State} (h0 : Calm x s) (hl : ∀ e ∈ l, Calm s (e.2 s))
    (hk : Calm s (k s)) : Calm x (checks l k s) := by
  refine h0.trans ?_
  induction l with
  | nil => exact hk
  | cons e l ih =>
    obtain ⟨b, f⟩ := e
    unfold checks; split
    · exact hl _ (List.mem_cons_self ..)
    · exact ih (fun e he => hl e (List.mem_cons_of_mem _ he))

theorem noteLevels_calm (f : State → State) (s : State) (hf : ∀ x0, Calm x0 (f x0)) : Calm s (noteLevels f s) := by
  unfold noteLevels; repeat' first | with_reducible exact .refl _ | with_reducible assumption | with_reducible refine Calm.trans ?_ (.still (modPdom_still ..)) | with_reducible refine Calm.trans ?_ (hf ..) | with_reducible refine ite_calm ?_ ?_ | with_reducible refine Calm.trans ?_ (forEach_calm _ _ _ fun _ _ => ?_) | extract_lets | split | intro _
theorem abortCmd_calm (s : State) (c : Cmd) : Calm s (abortCmd s c) := by
  unfold abortCmd; split
  · exact .refl _
  · extract_lets k; split
    · exact (detach_calm ..).trans (.still (deliverK_still ..))
    · exact .still (deliver_still ..)
theorem startExit_calm (s : State) : Calm s (startExit s) := by
  unfold startExit; repeat' first | with_reducible exact .refl _ | with_reducible assumption | with_reducible refine Calm.trans ?_ (.still (State.modPwr_still ..)) | with_reducible refine Calm.trans ?_ (.still (beginAttempt_still ..)) | with_reducible refine Calm.trans ?_ (coldReset_calm ..) | with_reducible refine ite_calm ?_ ?_ | extract_lets | split | intro _
theorem wake_calm (code : Nat) (s : State) : Calm s (wake code s) := by
  unfold wake; repeat' first | with_reducible exact .refl _ | with_reducible assumption | with_reducible refine Calm.trans ?_ (.still (State.modPwr_still ..)) | with_reducible refine Calm.trans ?_ (.still (idleExit_still ..)) | with_reducible refine Calm.trans ?_ (.still (recordWake_still ..)) | with_reducible refine Calm.trans ?_ (startExit_calm ..) | with_reducible refine Calm.trans ?_ (.still (abandonEntry_still ..)) | with_reducible refine Calm.trans ?_ (.still (backToRun_still ..)) | with_reducible refine ite_calm ?_ ?_ | extract_lets | split | intro _
theorem brakeSeen_calm (s : State) : Calm s (brakeSeen s) := by
  unfold brakeSeen; repeat' first | with_reducible exact .refl _ | with_reducible assumption | with_reducible refine Calm.trans ?_ (watchHold_calm ..) | with_reducible refine Calm.trans ?_ (wake_calm ..) | with_reducible refine ite_calm ?_ ?_ | extract_lets | split | intro _
theorem afterCause_calm (was : Bool) (s : State) : Calm s (afterCause was s) := by
  unfold afterCause; repeat' first | with_reducible exact .refl _ | with_reducible assumption | with_reducible refine Calm.trans ?_ (watchHold_calm ..) | with_reducible refine Calm.trans ?_ (brakeSeen_calm ..) | with_reducible refine ite_calm ?_ ?_ | extract_lets | split | intro _
theorem afterCommit_calm (activate : Bool) (s : State) : Calm s (afterCommit activate s) := by
  unfold afterCommit; repeat' first | with_reducible exact .refl _ | with_reducible assumption | with_reducible refine Calm.trans ?_ (startMgtReset_calm ..) | with_reducible refine ite_calm ?_ ?_ | extract_lets | split | intro _
theorem detachAll_calm (l : List Cmd) (s : State) : Calm s (l.foldl (fun s c => detach c.id s) s) := by
  induction l generalizing s with
  | nil => exact .refl s
  | cons c l ih => exact (detach_calm c.id s).trans (ih _)
theorem clearCmds_calm (s : State) : Calm s (clearCmds s) := by
  unfold clearCmds; extract_lets s1
  have h : Calm s s1 := detachAll_calm _ s
  clear_value s1
  exact h.trans (.still (State.modHif_still ..))
theorem discTimeout_calm (i : Nat) (s : State) : Calm s (discTimeout i s) := by
  unfold discTimeout; extract_lets x; exact ite_calm (setIlk_calm ..) (.refl _)
theorem contactChange_calm (i : Nat) (second closed : Bool) (s : State) : Calm s (contactChange i second closed s) := by
  unfold contactChange; extract_lets was s1 s2 s3
  have h1 : Calm s s1 := ite_calm (discTimeout_calm ..) (.refl _)
  have h2 : Calm s1 s2 := calm_modBrk_same rfl rfl rfl
  have h3 : Calm s2 s3 := ite_calm (setIlk_calm ..) (.refl _)
  have h := h1.trans (h2.trans h3)
  clear_value s3
  exact ite_calm (h.trans (watchHold_calm _)) (h.trans (brakeSeen_calm _))
theorem enableSlots_calm (s : State) : Calm s (enableSlots s) := by
  unfold enableSlots; split
  · rename_i h
    split
    · exact setSlot_calm (.inr (.inr fun _ _ => by simp only [Bool.and_eq_true, Bool.not_eq_true'] at h; exact h.1.2))
    · exact .refl _
  · exact .refl _
theorem endCtlReset_calm (s : State) : Calm s (endCtlReset s) := by
  unfold endCtlReset; repeat' first | with_reducible exact .refl _ | with_reducible assumption | with_reducible refine Calm.trans ?_ (.still (State.modCore_still ..)) | with_reducible refine Calm.trans ?_ (.still (State.modStn_still ..)) | with_reducible refine Calm.trans ?_ (.still (rebuildTurns_still ..)) | with_reducible refine Calm.trans ?_ (.still (settleVotes_still ..)) | with_reducible refine Calm.trans ?_ (.still (evalAllCogs_still ..)) | with_reducible refine Calm.trans ?_ (.still (rebuildItems_still ..)) | with_reducible refine Calm.trans ?_ (abortCmd_calm ..) | with_reducible refine ite_calm ?_ ?_ | with_reducible refine Calm.trans ?_ (foldl_calm _ _ _ fun _ _ => ?_) | extract_lets | split | intro _
theorem onDatMail_calm (f : Msg → Option (State → State)) (s : State) (hf : ∀ m k, f m = some k → ∀ x, Calm x (k x)) :
    CalmOut s (onDatMail f s) := by
  unfold onDatMail; split
  · rename_i k h
    obtain ⟨m, _, hm⟩ := Option.bind_eq_some_iff.mp h
    exact onEvent_calm fun _ => (Calm.still (popDat_still ..)).trans (hf m k hm _)
  · exact .next (.refl _)
theorem onMw_calm (p : Bool) (s : State) (f : State → State) (hf : ∀ x0, Calm x0 (f x0)) : CalmOut s (onMw p s f) := by
  unfold onMw; repeat' first | with_reducible refine CalmOut.next ?_ | with_reducible refine onEvent_calm fun _ => ?_ | with_reducible exact .refl _ | with_reducible assumption | with_reducible refine Calm.trans ?_ (.still (mwAct_still ..)) | with_reducible refine Calm.trans ?_ (hf ..) | with_reducible refine ite_calm ?_ ?_ | extract_lets | split | intro _
theorem onPost_calm (p : Bool) (post : State → State) (s : State) (hpost : ∀ x0, Calm x0 (post x0)) : CalmOut s (onPost p post s) := by
  unfold onPost; repeat' first | with_reducible refine CalmOut.next ?_ | with_reducible refine onMw_calm _ _ _ ?_ | with_reducible exact .refl _ | with_reducible assumption | with_reducible refine Calm.trans ?_ (hpost ..) | with_reducible refine ite_calm ?_ ?_ | extract_lets | split | intro _
theorem onTray_calm (n : Nat) (p : Bool) (s : State) (f : State → State) (hf : ∀ x0, Calm x0 (f x0)) : CalmOut s (onTray n p s f) := by
  unfold onTray; repeat' first | with_reducible refine CalmOut.next ?_ | with_reducible refine onMw_calm _ _ _ ?_ | with_reducible exact .refl _ | with_reducible assumption | with_reducible refine Calm.trans ?_ (hf ..) | with_reducible refine ite_calm ?_ ?_ | extract_lets | split | intro _
theorem onCmd_calm (op : Opc) (id : CmdId) (s : State) (f : Cmd → State → State) (hf : ∀ x0 x1, Calm x1 (f x0 x1)) : CalmOut s (onCmd op id s f) := by
  unfold onCmd; repeat' first | with_reducible refine CalmOut.next ?_ | with_reducible exact .refl _ | with_reducible assumption | with_reducible refine Calm.trans ?_ (hf ..) | with_reducible refine ite_calm ?_ ?_ | extract_lets | split | intro _
theorem qpModify_calm (target : Nat) (also : Nat → Bool) (id : CmdId) (s : State) (f : Cmd → Qp → State → State) (hf : ∀ x0 x1 x2, Calm x2 (f x0 x1 x2)) : CalmOut s (qpModify target also id s f) := by
  unfold qpModify; repeat' first | with_reducible refine CalmOut.next ?_ | with_reducible exact .refl _ | with_reducible assumption | with_reducible refine Calm.trans ?_ (.still (invalid_still ..)) | with_reducible refine Calm.trans ?_ (hf ..) | with_reducible refine ite_calm ?_ ?_ | with_reducible refine checks_calm ?_ (by simp only [List.mem_cons, List.not_mem_nil, or_false, forall_eq_or_imp, forall_eq, List.mem_append, bad, deny, busy, noRes, fields, carveChecks, monsBad, heldCheck, or_imp, forall_and]; repeat' first | (apply And.intro) | exact .still (invalid_still ..) | exact .still (complete_still ..) | exact .still (refuse_still ..) | exact .still (stallOr_still ..) | exact .still (commitFails_still ..)) ?_ | extract_lets | split | intro _
theorem grnCmd_calm (op : Opc) (id : CmdId) (mine : Cmd → Bool) (s : State) (f : Cmd → State → State) (hf : ∀ x0 x1, Calm x1 (f x0 x1)) : CalmOut s (grnCmd op id mine s f) := by
  unfold grnCmd; repeat' first | with_reducible refine CalmOut.next ?_ | with_reducible exact .refl _ | with_reducible assumption | with_reducible refine Calm.trans ?_ (.still (sleepWake_still ..)) | with_reducible refine Calm.trans ?_ (.still (stallOr_still ..)) | with_reducible refine Calm.trans ?_ (hf ..) | with_reducible refine ite_calm ?_ ?_ | extract_lets | split | intro _
theorem withTally_calm (c : Cmd) (k : Nat → State → State) (s : State) (hk : ∀ x0 x1, Calm x1 (k x0 x1)) : Calm s (withTally c k s) := by
  unfold withTally; repeat' first | with_reducible exact .refl _ | with_reducible assumption | with_reducible refine Calm.trans ?_ (.still (invalid_still ..)) | with_reducible refine Calm.trans ?_ (.still (complete_still ..)) | with_reducible refine Calm.trans ?_ (.still (readEntry_still ..)) | with_reducible refine Calm.trans ?_ (hk ..) | with_reducible refine ite_calm ?_ ?_ | extract_lets | split | intro _
theorem fwUpdate_calm (op : Nat) (golden : Option Bool) (id : CmdId) (s : State) (k : Cmd → State → State) (hk : ∀ x0 x1, Calm x1 (k x0 x1)) : CalmOut s (fwUpdate op golden id s k) := by
  unfold fwUpdate; repeat' first | with_reducible refine CalmOut.next ?_ | with_reducible refine onCmd_calm _ _ _ _ ?_ | with_reducible exact .refl _ | with_reducible assumption | with_reducible refine Calm.trans ?_ (.still (mwAct_still ..)) | with_reducible refine Calm.trans ?_ (hk ..) | with_reducible refine ite_calm ?_ ?_ | with_reducible refine checks_calm ?_ (by simp only [List.mem_cons, List.not_mem_nil, or_false, forall_eq_or_imp, forall_eq, List.mem_append, bad, deny, busy, noRes, fields, carveChecks, monsBad, heldCheck, or_imp, forall_and]; repeat' first | (apply And.intro) | exact .still (invalid_still ..) | exact .still (complete_still ..) | exact .still (refuse_still ..) | exact .still (stallOr_still ..) | exact .still (commitFails_still ..)) ?_ | extract_lets | split | intro _
theorem onCtlMail_calm (f : Msg → Option (State → State)) (s : State) (hf : ∀ m k, f m = some k → ∀ x, Calm x (k x)) :
    CalmOut s (onCtlMail f s) := by
  unfold onCtlMail; split
  · rename_i k h
    obtain ⟨m, _, hm⟩ := Option.bind_eq_some_iff.mp h
    exact onEvent_calm fun _ => (Calm.still (popCtl_still ..)).trans (hf m k hm _)
  · exact .next (.refl _)
theorem onAo_calm (p : Bool) (s : State) (f : State → State) (hf : ∀ x0, Calm x0 (f x0)) : CalmOut s (onAo p s f) := by
  unfold onAo; repeat' first | with_reducible refine CalmOut.next ?_ | with_reducible refine onEvent_calm fun _ => ?_ | with_reducible exact .refl _ | with_reducible assumption | with_reducible refine Calm.trans ?_ (hf ..) | with_reducible refine ite_calm ?_ ?_ | extract_lets | split | intro _
theorem withBin_calm (c : Cmd) (k : Nat → Bin → State → State) (s : State) (hk : ∀ x0 x1 x2, Calm x2 (k x0 x1 x2)) : Calm s (withBin c k s) := by
  unfold withBin; repeat' first | with_reducible exact .refl _ | with_reducible assumption | with_reducible refine Calm.trans ?_ (.still (invalid_still ..)) | with_reducible refine Calm.trans ?_ (.still (complete_still ..)) | with_reducible refine Calm.trans ?_ (.still (readEntry_still ..)) | with_reducible refine Calm.trans ?_ (hk ..) | with_reducible refine ite_calm ?_ ?_ | extract_lets | split | intro _
theorem withRace_calm (c : Cmd) (k : Race → State → State) (s : State) (hk : ∀ x0 x1, Calm x1 (k x0 x1)) : Calm s (withRace c k s) := by
  unfold withRace; repeat' first | with_reducible exact .refl _ | with_reducible assumption | with_reducible refine Calm.trans ?_ (.still (invalid_still ..)) | with_reducible refine Calm.trans ?_ (hk ..) | with_reducible refine ite_calm ?_ ?_ | extract_lets | split | intro _
theorem fwCommit_calm (golden : Bool) (id : CmdId) (s : State) (k : Cmd → FwImage → State → State) (hk : ∀ x0 x1 x2, Calm x2 (k x0 x1 x2)) : CalmOut s (fwCommit golden id s k) := by
  unfold fwCommit; repeat' first | with_reducible refine CalmOut.next ?_ | with_reducible refine fwUpdate_calm _ _ _ _ _ ?_ | with_reducible exact .refl _ | with_reducible assumption | with_reducible refine Calm.trans ?_ (.still (State.modMwr_still ..)) | with_reducible refine Calm.trans ?_ (.still (commitFails_still ..)) | with_reducible refine Calm.trans ?_ (hk ..) | with_reducible refine ite_calm ?_ ?_ | with_reducible refine checks_calm ?_ (by simp only [List.mem_cons, List.not_mem_nil, or_false, forall_eq_or_imp, forall_eq, List.mem_append, bad, deny, busy, noRes, fields, carveChecks, monsBad, heldCheck, or_imp, forall_and]; repeat' first | (apply And.intro) | exact .still (invalid_still ..) | exact .still (complete_still ..) | exact .still (refuse_still ..) | exact .still (stallOr_still ..) | exact .still (commitFails_still ..)) ?_ | extract_lets | split | intro _
theorem powerVote_calm (action : Nat) (id : CmdId) (s : State) (k : Nat → Cmd → State → State) (hk : ∀ x0 x1 x2, Calm x2 (k x0 x1 x2)) : CalmOut s (powerVote action id s k) := by
  unfold powerVote; repeat' first | with_reducible refine CalmOut.next ?_ | with_reducible refine onCmd_calm _ _ _ _ ?_ | with_reducible exact .refl _ | with_reducible assumption | with_reducible refine Calm.trans ?_ (hk ..) | with_reducible refine ite_calm ?_ ?_ | with_reducible refine checks_calm ?_ (by simp only [List.mem_cons, List.not_mem_nil, or_false, forall_eq_or_imp, forall_eq, List.mem_append, bad, deny, busy, noRes, fields, carveChecks, monsBad, heldCheck, or_imp, forall_and]; repeat' first | (apply And.intro) | exact .still (invalid_still ..) | exact .still (complete_still ..) | exact .still (refuse_still ..) | exact .still (stallOr_still ..) | exact .still (commitFails_still ..)) ?_ | extract_lets | split | intro _
theorem runMatmul_calm (item : Nat) (stone : Nat) (op : Nat) (fx : RunnerFx) (s : State) : CalmOut s (runMatmul item stone op fx s) := by
  unfold runMatmul; repeat' first | with_reducible refine CalmOut.next ?_ | with_reducible exact .refl _ | with_reducible assumption | with_reducible refine Calm.trans ?_ (.still (readRanges_still' (by assumption))) | with_reducible refine Calm.trans ?_ (.still (readRanges_still ..)) | with_reducible refine Calm.trans ?_ (.still (gangFault_still ..)) | with_reducible refine Calm.trans ?_ (.still (writeScratch_still ..)) | with_reducible refine Calm.trans ?_ (.still (modBed_still ..)) | with_reducible refine Calm.trans ?_ (.still (freeWords_still' (by assumption))) | with_reducible refine Calm.trans ?_ (.still (freeWords_still ..)) | with_reducible refine ite_calm ?_ ?_ | with_reducible refine Calm.trans ?_ (foldl_calm _ _ _ fun _ _ => ?_) | extract_lets | split | intro _
theorem slotSet_calm (enable : Bool) (id : CmdId) (s : State) (k : Cmd → Nat → State → State) (hk : ∀ x0 x1 x2, Calm x2 (k x0 x1 x2)) : CalmOut s (slotSet enable id s k) := by
  unfold slotSet; repeat' first | with_reducible refine CalmOut.next ?_ | with_reducible refine onCmd_calm _ _ _ _ ?_ | with_reducible exact .refl _ | with_reducible assumption | with_reducible refine Calm.trans ?_ (.still (mwAct_still ..)) | with_reducible refine Calm.trans ?_ (hk ..) | with_reducible refine ite_calm ?_ ?_ | with_reducible refine checks_calm ?_ (by simp only [List.mem_cons, List.not_mem_nil, or_false, forall_eq_or_imp, forall_eq, List.mem_append, bad, deny, busy, noRes, fields, carveChecks, monsBad, heldCheck, or_imp, forall_and]; repeat' first | (apply And.intro) | exact .still (invalid_still ..) | exact .still (complete_still ..) | exact .still (refuse_still ..) | exact .still (stallOr_still ..) | exact .still (commitFails_still ..)) ?_ | extract_lets | split | intro _
theorem mailbox_calm (cls : Nat) (id : CmdId) (s : State) (k : Cmd → State → State) (hk : ∀ x0 x1, Calm x1 (k x0 x1)) : CalmOut s (mailbox cls id s k) := by
  unfold mailbox; repeat' first | with_reducible refine CalmOut.next ?_ | with_reducible refine onCmd_calm _ _ _ _ ?_ | with_reducible exact .refl _ | with_reducible assumption | with_reducible refine Calm.trans ?_ (.still (mwAct_still ..)) | with_reducible refine Calm.trans ?_ (.still (invalid_still ..)) | with_reducible refine Calm.trans ?_ (hk ..) | with_reducible refine ite_calm ?_ ?_ | extract_lets | split | intro _
theorem trayMail_calm (cls : Nat) (id : CmdId) (s : State) (k : Cmd → Nat → State → State) (hk : ∀ x0 x1 x2, Calm x2 (k x0 x1 x2)) : CalmOut s (trayMail cls id s k) := by
  unfold trayMail; repeat' first | with_reducible refine CalmOut.next ?_ | with_reducible refine mailbox_calm _ _ _ _ ?_ | with_reducible exact .refl _ | with_reducible assumption | with_reducible refine Calm.trans ?_ (hk ..) | with_reducible refine ite_calm ?_ ?_ | with_reducible refine checks_calm ?_ (by simp only [List.mem_cons, List.not_mem_nil, or_false, forall_eq_or_imp, forall_eq, List.mem_append, bad, deny, busy, noRes, fields, carveChecks, monsBad, heldCheck, or_imp, forall_and]; repeat' first | (apply And.intro) | exact .still (invalid_still ..) | exact .still (complete_still ..) | exact .still (refuse_still ..) | exact .still (stallOr_still ..) | exact .still (commitFails_still ..)) ?_ | extract_lets | split | intro _
theorem portMode_calm (retrain : Bool) (id : CmdId) (s : State) : CalmOut s (portMode retrain id s) := by
  unfold portMode; repeat' first | with_reducible refine CalmOut.next ?_ | with_reducible refine onCmd_calm _ _ _ _ ?_ | with_reducible exact .refl _ | with_reducible assumption | with_reducible refine Calm.trans ?_ (.still (applyMode_still ..)) | with_reducible refine Calm.trans ?_ (.still (complete_still ..)) | with_reducible refine ite_calm ?_ ?_ | with_reducible refine checks_calm ?_ (by simp only [List.mem_cons, List.not_mem_nil, or_false, forall_eq_or_imp, forall_eq, List.mem_append, bad, deny, busy, noRes, fields, carveChecks, monsBad, heldCheck, or_imp, forall_and]; repeat' first | (apply And.intro) | exact .still (invalid_still ..) | exact .still (complete_still ..) | exact .still (refuse_still ..) | exact .still (stallOr_still ..) | exact .still (commitFails_still ..)) ?_ | extract_lets | split | intro _
theorem sleepVote_calm (action : Nat) (id : CmdId) (s : State) (f : Nat → Nat → State → State) (hf : ∀ x0 x1 x2, Calm x2 (f x0 x1 x2)) : CalmOut s (sleepVote action id s f) := by
  unfold sleepVote; repeat' first | with_reducible refine CalmOut.next ?_ | with_reducible refine onCmd_calm _ _ _ _ ?_ | with_reducible exact .refl _ | with_reducible assumption | with_reducible refine Calm.trans ?_ (.still (invalid_still ..)) | with_reducible refine Calm.trans ?_ (.still (complete_still ..)) | with_reducible refine Calm.trans ?_ (hf ..) | with_reducible refine ite_calm ?_ ?_ | with_reducible refine checks_calm ?_ (by simp only [List.mem_cons, List.not_mem_nil, or_false, forall_eq_or_imp, forall_eq, List.mem_append, bad, deny, busy, noRes, fields, carveChecks, monsBad, heldCheck, or_imp, forall_and]; repeat' first | (apply And.intro) | exact .still (invalid_still ..) | exact .still (complete_still ..) | exact .still (refuse_still ..) | exact .still (stallOr_still ..) | exact .still (commitFails_still ..)) ?_ | extract_lets | split | intro _
theorem ringAt_calm (c : Cmd) (asid : Nat) (va : Nat) (bytes : Nat) (write : Bool) (k : Held → State → State) (s : State) (hk : ∀ x0 x1, Calm x1 (k x0 x1)) : Calm s (ringAt c asid va bytes write k s) := by
  unfold ringAt; repeat' first | with_reducible exact .refl _ | with_reducible assumption | with_reducible refine Calm.trans ?_ (.still (xlateFault_still ..)) | with_reducible refine Calm.trans ?_ (.still (noteWalks_still ..)) | with_reducible refine Calm.trans ?_ (hk ..) | with_reducible refine ite_calm ?_ ?_ | extract_lets | split | intro _
theorem planeReset_calm (fn : Nat) (val : Nat) (s : State) : Calm s (planeReset fn val s) := by
  unfold planeReset; repeat' first | with_reducible exact .refl _ | with_reducible assumption | with_reducible refine Calm.trans ?_ (.still (startCtlReset_still ..)) | with_reducible refine Calm.trans ?_ (.still (logError_still ..)) | with_reducible refine Calm.trans ?_ (.still (startDatReset_still ..)) | with_reducible refine Calm.trans ?_ (.still (State.modHif_still ..)) | with_reducible refine Calm.trans ?_ (startMgtReset_calm ..) | with_reducible refine ite_calm ?_ ?_ | extract_lets | split | intro _
theorem leakChanged_calm (n : Nat) (old : LeakState) (b : Bool) (s : State) : Calm s (leakChanged n old b s) := by
  unfold leakChanged; dsimp only; split
  · exact .refl _
  · split
    · split
      · exact brkEvent_calm ..
      · exact (brkEvent_calm ..).trans (brakeCause_calm ..)
    · exact (brkEvent_calm ..).trans (brakeCause_calm ..)
    · exact brkEvent_calm ..
theorem takeSample_calm (ch p n : Nat) (rb : Bool) (s : State) : Calm s (takeSample ch p n rb s) := by
  unfold takeSample; extract_lets b settling old inP s1 s2
  have h1 : Calm s s1 := calm_modBrk_same rfl rfl rfl
  have h : Calm s s2 := h1.trans (.still (sample_still ..))
  clear_value s2
  exact ite_calm (h.trans (watchHold_calm _)) (h.trans ((leakChanged_calm ..).trans (brakeSeen_calm _)))
theorem startDma_calm (item : Nat) (stone : Nat) (op : Nat) (s : State) (f : Item → Image → RunSlot → Issue → State → State) (hf : ∀ x0 x1 x2 x3 x4, Calm x4 (f x0 x1 x2 x3 x4)) : CalmOut s (startDma item stone op s f) := by
  unfold startDma; repeat' first | with_reducible refine CalmOut.next ?_ | with_reducible exact .refl _ | with_reducible assumption | with_reducible refine Calm.trans ?_ (hf ..) | with_reducible refine ite_calm ?_ ?_ | extract_lets | split | intro _
theorem powerState_calm (target : Target) (id : CmdId) (s : State) (k : Cmd → State → State) (hk : ∀ x0 x1, Calm x1 (k x0 x1)) : CalmOut s (powerState target id s k) := by
  unfold powerState; repeat' first | with_reducible refine CalmOut.next ?_ | with_reducible refine onCmd_calm _ _ _ _ ?_ | with_reducible exact .refl _ | with_reducible assumption | with_reducible refine Calm.trans ?_ (hk ..) | with_reducible refine ite_calm ?_ ?_ | with_reducible refine checks_calm ?_ (by simp only [List.mem_cons, List.not_mem_nil, or_false, forall_eq_or_imp, forall_eq, List.mem_append, bad, deny, busy, noRes, fields, carveChecks, monsBad, heldCheck, or_imp, forall_and]; repeat' first | (apply And.intro) | exact .still (invalid_still ..) | exact .still (complete_still ..) | exact .still (refuse_still ..) | exact .still (stallOr_still ..) | exact .still (commitFails_still ..)) ?_ | extract_lets | split | intro _
theorem powerEntry_calm (target : Target) (id : CmdId) (s : State) : CalmOut s (powerEntry target id s) := by
  unfold powerEntry; repeat' first | with_reducible refine CalmOut.next ?_ | with_reducible refine powerState_calm _ _ _ _ ?_ | with_reducible exact .refl _ | with_reducible assumption | with_reducible refine Calm.trans ?_ (.still (State.modPwr_still ..)) | with_reducible refine Calm.trans ?_ (.still (complete_still ..)) | with_reducible refine ite_calm ?_ ?_ | with_reducible refine checks_calm ?_ (by simp only [List.mem_cons, List.not_mem_nil, or_false, forall_eq_or_imp, forall_eq, List.mem_append, bad, deny, busy, noRes, fields, carveChecks, monsBad, heldCheck, or_imp, forall_and]; repeat' first | (apply And.intro) | exact .still (invalid_still ..) | exact .still (complete_still ..) | exact .still (refuse_still ..) | exact .still (stallOr_still ..) | exact .still (commitFails_still ..)) ?_ | extract_lets | split | intro _
theorem valveOn_calm (n : Nat) (c : Cmd) (s : State) : Calm s (valveOn n c s) := by
  unfold valveOn; extract_lets g
  split
  · exact .still (refuse_still ..)
  · split
    · exact .still (refuse_still ..)
    · exact .still (succeed_still ..)
    · exact waitValve_calm ..
    · exact waitValve_calm ..
    · exact ite_calm ((waitValve_calm ..).trans (startValve_calm ..))
        (ite_calm (.still (stallOr_still ..)) ((waitValve_calm ..).trans (setValve_calm ..)))
theorem valveOff_calm (n : Nat) (c : Cmd) (s : State) : Calm s (valveOff n c s) := by
  unfold valveOff; repeat' first | with_reducible exact .refl _ | with_reducible assumption | with_reducible refine Calm.trans ?_ (settleBlank_calm ..) | with_reducible refine Calm.trans ?_ (setValve_calm ..) | with_reducible refine Calm.trans ?_ (answerValve_calm ..) | with_reducible refine Calm.trans ?_ (.still (succeed_still ..)) | with_reducible refine Calm.trans ?_ (startDeferred_calm ..) | with_reducible refine ite_calm ?_ ?_ | extract_lets | split | intro _
theorem mgtFatal_calm (code : Nat) (s : State) : Calm s (mgtFatal code s) := by
  unfold mgtFatal; repeat' first | with_reducible exact .refl _ | with_reducible assumption | with_reducible refine Calm.trans ?_ (.still (logError_still ..)) | with_reducible refine Calm.trans ?_ (.still (noteFatal_still ..)) | with_reducible refine Calm.trans ?_ (startMgtReset_calm ..) | with_reducible refine ite_calm ?_ ?_ | extract_lets | split | intro _
theorem withImage_calm (c : Cmd) (k : Image → State → State) (s : State) (hk : ∀ x0 x1, Calm x1 (k x0 x1)) : Calm s (withImage c k s) := by
  unfold withImage; repeat' first | with_reducible exact .refl _ | with_reducible assumption | with_reducible refine Calm.trans ?_ (.still (invalid_still ..)) | with_reducible refine Calm.trans ?_ (hk ..) | with_reducible refine ite_calm ?_ ?_ | extract_lets | split | intro _
theorem powerOn_calm (pop : List PairPop) (s : State) : Calm s (powerOn pop s) := by
  unfold powerOn
  exact Calm.trans (Calm.trans (b := _) ⟨rfl, id⟩ (coldStart_calm true none { s with
    core := { State.reset.core with t := 0, causes := [⟨0x01, 0, true⟩] }
    pwr := { perst := s.pwr.perst }
    mwr := { copying := s.mwr.copying } })) (.still (trainDdr_still ..))
theorem mgtWriteReg_calm (off : Nat) (v : Nat) (s : State) : Calm s (mgtWriteReg off v s) := by
  unfold mgtWriteReg; repeat' first | with_reducible exact .refl _ | with_reducible assumption | with_reducible refine Calm.trans ?_ (.still (State.modMwr_still ..)) | with_reducible refine Calm.trans ?_ (writeValveCfg_calm ..) | with_reducible refine Calm.trans ?_ (.still (State.modOcp_still ..)) | with_reducible refine Calm.trans ?_ (writePending_calm ..) | with_reducible refine ite_calm ?_ ?_ | extract_lets | split | intro _
theorem mgtAccess_calm (off : Nat) (val : Option Nat) (s : State) : Calm s (mgtAccess off val s) := by
  unfold mgtAccess; repeat' first | with_reducible exact .refl _ | with_reducible assumption | with_reducible refine Calm.trans ?_ (.still (emit_still ..)) | with_reducible refine Calm.trans ?_ (mgtWriteReg_calm ..) | with_reducible refine ite_calm ?_ ?_ | extract_lets | split | intro _
theorem writeWin_calm (fn : Nat) (off : Nat) (v : Nat) (s : State) : Calm s (writeWin fn off v s) := by
  unfold writeWin; repeat' first | with_reducible exact .refl _ | with_reducible assumption | with_reducible refine Calm.trans ?_ (planeReset_calm ..) | with_reducible refine Calm.trans ?_ (.still (State.modHif_still ..)) | with_reducible refine ite_calm ?_ ?_ | extract_lets | split | intro _
theorem hostWriteReg_calm (fn : Nat) (off : Nat) (v : Nat) (s : State) : Calm s (hostWriteReg fn off v s) := by
  unfold hostWriteReg; repeat' first | with_reducible exact .refl _ | with_reducible assumption | with_reducible refine Calm.trans ?_ (.still (writeMem_still ..)) | with_reducible refine Calm.trans ?_ (.still (writeStn_still ..)) | with_reducible refine Calm.trans ?_ (.still (State.modMwr_still ..)) | with_reducible refine Calm.trans ?_ (.still (writeTly_still ..)) | with_reducible refine Calm.trans ?_ (writeWin_calm ..) | with_reducible refine Calm.trans ?_ (.still (writeOcp_still ..)) | with_reducible refine Calm.trans ?_ (.still (writeGrn_still ..)) | with_reducible refine Calm.trans ?_ (.still (writeMon_still ..)) | with_reducible refine Calm.trans ?_ (.still (writePwr_still ..)) | with_reducible refine Calm.trans ?_ (.still (writeWhl_still ..)) | with_reducible refine Calm.trans ?_ (.still (writeDom_still ..)) | with_reducible refine Calm.trans ?_ (.still (writePort_still ..)) | with_reducible refine Calm.trans ?_ (.still (writeChk_still ..)) | with_reducible refine Calm.trans ?_ (.still (writeRdm_still ..)) | with_reducible refine ite_calm ?_ ?_ | extract_lets | split | intro _
theorem hostAccess_calm (fn : Nat) (off : Nat) (val : Option Nat) (s : State) : Calm s (hostAccess fn off val s) := by
  unfold hostAccess; repeat' first | with_reducible exact .refl _ | with_reducible assumption | with_reducible refine Calm.trans ?_ (hostWriteReg_calm ..) | with_reducible refine Calm.trans ?_ (.still (emit_still ..)) | with_reducible refine Calm.trans ?_ (.still (hostReadReg_still' (by assumption))) | with_reducible refine Calm.trans ?_ (.still (hostReadReg_still ..)) | with_reducible refine ite_calm ?_ ?_ | extract_lets | split | intro _
theorem warmClear_calm (s : State) : Calm s (warmClear s) :=
  Calm.trans (.still (forEach_still _ _ _ fun _ _ => qpLeft_still ..)) ((clearCmds_calm _).trans (.still (warmRest_still ..)))
theorem warmReset_calm (s : State) : Calm s (warmReset s) := by
  unfold warmReset; repeat' first | with_reducible exact .refl _ | with_reducible assumption | with_reducible refine Calm.trans ?_ (.still (noteCause_still ..)) | with_reducible refine Calm.trans ?_ (warmClear_calm ..) | with_reducible refine ite_calm ?_ ?_ | extract_lets | split | intro _
theorem thenWarm_calm (s : State) : Calm s (thenWarm s) := by
  unfold thenWarm; repeat' first | with_reducible exact .refl _ | with_reducible assumption | with_reducible refine Calm.trans ?_ (.still (State.modPwr_still ..)) | with_reducible refine Calm.trans ?_ (warmReset_calm ..) | with_reducible refine ite_calm ?_ ?_ | extract_lets | split | intro _
theorem finishWake_calm (s : State) : Calm s (finishWake s) := by
  unfold finishWake; repeat' first | with_reducible exact .refl _ | with_reducible assumption | with_reducible refine Calm.trans ?_ (.still (woken_still ..)) | with_reducible refine Calm.trans ?_ (thenWarm_calm ..) | with_reducible refine ite_calm ?_ ?_ | extract_lets | split | intro _
theorem finishCold_calm (s : State) : Calm s (finishCold s) := by
  unfold finishCold; repeat' first | with_reducible exact .refl _ | with_reducible assumption | with_reducible refine Calm.trans ?_ (thenWarm_calm ..) | with_reducible refine Calm.trans ?_ (.still (broughtUp_still ..)) | with_reducible refine ite_calm ?_ ?_ | extract_lets | split | intro _
theorem perstLow_calm (s : State) : Calm s (perstLow s) := by
  unfold perstLow; repeat' first | with_reducible exact .refl _ | with_reducible assumption | with_reducible refine Calm.trans ?_ (.still (State.modPwr_still ..)) | with_reducible refine Calm.trans ?_ (warmReset_calm ..) | with_reducible refine Calm.trans ?_ (wake_calm ..) | with_reducible refine ite_calm ?_ ?_ | extract_lets | split | intro _
theorem tick_calm (s : State) : Calm s (tick s) := by
  unfold tick; extract_lets t s1 s2 n s3 s4 s5 s6
  have h3 : s3.still = s.still :=
    (ite_still rfl (forEach_still _ _ _ fun _ _ => runItem_still ..)).trans (ite_still (State.modMwr_still ..) rfl)
  clear_value s3
  have h5 : s5.still = s3.still := (ite_still rfl (State.modPwr_still ..)).trans (ite_still rfl (State.modEvt_still ..))
  clear_value s5
  have h6 : Calm s5 s6 := (ite_calm (enableSlots_calm _) (.refl _)).trans (.still (holdGated_still _))
  clear_value s6
  exact (Calm.still (h5.trans h3)).trans (h6.trans (ite_calm (.refl _) (.still (releaseDue_still _))))

end Sys2Proof.Machine
end

