-- ==== Sys2Proof/Laws/Memory.lean ====
section
/-! SUPPORT. What a byte of memory reads after each write, and that every memory operation keeps the canonical form. -/

namespace Sys2Proof

theorem Tbl.get_erase {α : Type} (t : Tbl α) (i j : Nat) : (t.erase i).get j = if j = i then none else t.get j := by
  induction t with
  | nil => simp [Tbl.erase, Tbl.get]
  | cons e r ih =>
    obtain ⟨k, v⟩ := e
    unfold Tbl.erase
    by_cases hk : k = i
    · subst hk; rw [if_pos rfl, ih]; by_cases hj : j = k
      · simp [hj]
      · simp [Tbl.get, hj, Ne.symm hj]
    · rw [if_neg hk]; by_cases hj : k = j
      · subst hj; simp [Tbl.get, hk]
      · simp [Tbl.get, hj, ih]

theorem Tbl.above_mono {α : Type} {a b : Nat} (t : Tbl α) (h : Tbl.above b t) (hab : a ≤ b) : Tbl.above a t := by
  cases t with
  | nil => trivial
  | cons e r => exact ⟨Nat.lt_of_le_of_lt hab h.1, h.2⟩

theorem Tbl.above_filter {α : Type} (p : Nat × α → Bool) (b : Nat) (t : Tbl α) (h : Tbl.above b t) :
    Tbl.above b (t.filter p) := by
  induction t generalizing b with
  | nil => trivial
  | cons e r ih =>
    obtain ⟨k, v⟩ := e
    rw [List.filter_cons]
    split
    · exact ⟨h.1, ih k h.2⟩
    · exact ih b (Tbl.above_mono r h.2 (Nat.le_of_lt h.1))

theorem Tbl.wf_filter {α : Type} (p : Nat × α → Bool) (t : Tbl α) (h : t.wf = true) : Tbl.wf (t.filter p) = true := by
  induction t with
  | nil => rfl
  | cons e r ih =>
    obtain ⟨k, v⟩ := e
    rw [Tbl.wf_cons] at h
    rw [List.filter_cons]
    split
    · rw [Tbl.wf_cons]; exact Tbl.above_filter p k r h
    · refine ih ?_
      cases r with
      | nil => rfl
      | cons f q => exact (Tbl.wf_cons _ _ _).2 h.2

theorem Tbl.erase_eq {α : Type} (t : Tbl α) (i : Nat) : t.erase i = t.filter fun p => decide (p.1 ≠ i) := by
  induction t with
  | nil => rfl
  | cons e r ih =>
    obtain ⟨k, v⟩ := e
    unfold Tbl.erase
    by_cases hk : k = i <;> simp [hk, ih]

theorem Tbl.mem_set {α : Type} (t : Tbl α) (i : Nat) (x : α) (e : Nat × α) (h : e ∈ t.set i x) : e = (i, x) ∨ e ∈ t := by
  induction t with
  | nil => simpa [Tbl.set] using h
  | cons f r ih =>
    obtain ⟨k, v⟩ := f
    unfold Tbl.set at h
    split at h
    · simpa using h
    · split at h
      · simp only [List.mem_cons] at h ⊢
        rcases h with h | h
        · exact .inl h
        · exact .inr (.inr h)
      · simp only [List.mem_cons] at h ⊢
        rcases h with h | h
        · exact .inr (.inl h)
        · rcases ih h with h | h
          · exact .inl h
          · exact .inr (.inr h)

namespace Machine

/-! ### The canonical form -/

theorem wf_iff (m : List Host.Cell) : Memory.wf m = true ↔ Tbl.wf m = true ∧ ∀ e ∈ m, e.2 ≠ unlistedByte := by
  simp [Memory.wf]

theorem filter_wf (p : Host.Cell → Bool) (m : List Host.Cell) (h : Memory.wf m = true) : Memory.wf (m.filter p) = true := by
  rw [wf_iff] at h ⊢
  exact ⟨Tbl.wf_filter p m h.1, fun e he => h.2 e (List.mem_filter.1 he).1⟩

theorem writeCell_wf (m : List Host.Cell) (a : Nat) (b : Byte) (h : Memory.wf m = true) : Memory.wf (writeCell m a b) = true := by
  unfold writeCell
  split
  · rw [Tbl.erase_eq]; exact filter_wf _ m h
  · rename_i hb
    rw [wf_iff] at h ⊢
    refine ⟨Tbl.wf_set m a b h.1, fun e he => ?_⟩
    rcases Tbl.mem_set m a b e he with rfl | he
    · exact hb
    · exact h.2 e he

theorem writeCells_wf (m : List Host.Cell) (a : Nat) (l : List Byte) (h : Memory.wf m = true) :
    Memory.wf (writeCells m a l) = true := by
  induction l generalizing m a with
  | nil => exact h
  | cons b r ih => exact ih _ _ (writeCell_wf m a b h)

theorem writeP_wf (m : Mem) (a : Nat) (l : List PByte) (h : Memory.wf m.cells = true) : Memory.wf (writeP m a l).cells = true :=
  writeCells_wf _ _ _ h

theorem zeroRange_wf (m : Mem) (a n : Nat) (h : Memory.wf m.cells = true) : Memory.wf (zeroRange m a n).cells = true :=
  filter_wf _ _ h

theorem zeroPair_wf (p : Nat) (s : State) (h : Memory.wf s.mem.cells = true) : Memory.wf (zeroPair p s).mem.cells = true :=
  filter_wf _ _ h

theorem reset_wf : Memory.wf State.reset.mem.cells = true := rfl

/-! ### Reading back -/

theorem readCell_writeCell (m : List Host.Cell) (a x : Nat) (b : Byte) :
    readCell (writeCell m a b) x = if x = a then b else readCell m x := by
  unfold readCell writeCell
  by_cases hb : b = unlistedByte
  · rw [if_pos hb, Tbl.get_erase]; split
    · simp [hb]
    · rfl
  · rw [if_neg hb, Tbl.get_set]; split <;> rfl

theorem readCell_writeCells_outside (m : List Host.Cell) (a x : Nat) (l : List Byte) (h : x < a ∨ a + l.length ≤ x) :
    readCell (writeCells m a l) x = readCell m x := by
  induction l generalizing m a with
  | nil => rfl
  | cons b r ih =>
    simp only [List.length_cons] at h
    rw [writeCells, ih _ _ (by omega), readCell_writeCell, if_neg (by omega)]

theorem readCell_writeCells_inside (m : List Host.Cell) (a i : Nat) (l : List Byte) (h : i < l.length) :
    readCell (writeCells m a l) (a + i) = l[i] := by
  induction l generalizing m a i with
  | nil => simp at h
  | cons b r ih =>
    rw [writeCells]
    cases i with
    | zero => rw [readCell_writeCells_outside _ _ _ _ (by omega), readCell_writeCell, if_pos (by omega)]; rfl
    | succ i =>
      have := ih (writeCell m a b) (a + 1) i (by simpa using h)
      rw [show a + (i + 1) = a + 1 + i by omega, this]; rfl

end Machine
end Sys2Proof
end

