-- ==== Sys2Proof/Laws/Power.lean ====
section
/-! SUPPORT. What settling a power domain can do: the table of domains changes, and nothing else. -/

namespace Sys2Proof.Machine

theorem settle_eq (n : Nat) (s : State) : ∃ d, settle n s = { s with pwr := { s.pwr with doms := d } } := by
  unfold settle; extract_lets p; split
  · exact ⟨_, rfl⟩
  · split
    · split <;> (try split) <;> first | exact ⟨_, rfl⟩ | exact ⟨s.pwr.doms, rfl⟩
    · split <;> (try split) <;> first | exact ⟨_, rfl⟩ | exact ⟨s.pwr.doms, rfl⟩

theorem forEach_doms {f : Nat → State → State}
    (hf : ∀ n s, ∃ d, f n s = { s with pwr := { s.pwr with doms := d } }) (l : List Nat) (s : State) :
    ∃ d, forEach l f s = { s with pwr := { s.pwr with doms := d } } := by
  induction l generalizing s with
  | nil => exact ⟨s.pwr.doms, rfl⟩
  | cons a l ih =>
    obtain ⟨d, h⟩ := hf a s
    obtain ⟨e, k⟩ := ih (f a s)
    refine ⟨e, ?_⟩
    show forEach l f (f a s) = _
    rw [k, h]

theorem settleVotes_eq (s : State) : ∃ d, settleVotes s = { s with pwr := { s.pwr with doms := d } } :=
  forEach_doms settle_eq _ s

end Sys2Proof.Machine
end

