-- ==== Sys2Proof/Laws/Rows.lean ====
section
/-! SUPPORT. How a row's guard, its command and its checks decide what it answers. -/

namespace Sys2Proof.Machine

theorem onEvent_holds {p : Bool} {s : State} {f : State → State} (h : p = true) : onEvent p s f = .next (f s) := by
  unfold onEvent; rw [if_pos h]

theorem onEvent_idle {p : Bool} {s : State} {f : State → State} (h : p = false) : onEvent p s f = .next s := by
  unfold onEvent; rw [h]; rfl

theorem onCmd_runs {op : Opc} {id : CmdId} {s : State} {f : Cmd → State → State} {c : Cmd} (h : Runs s op id c) :
    onCmd op id s f = .next (f c s) := by
  unfold onCmd; rw [show runnable s op id = some c from h]

theorem checks_pass {l : List (Bool × (State → State))} {k : State → State} {s : State} (h : passes l = true) :
    checks l k s = k s := by
  induction l with
  | nil => rfl
  | cons e l ih =>
    obtain ⟨b, f⟩ := e
    simp only [passes, List.all_cons, Bool.and_eq_true, Bool.not_eq_true'] at h
    unfold checks
    rw [h.1]
    exact ih h.2

theorem checks_first {b : Bool} {f : State → State} {l : List (Bool × (State → State))} {k : State → State} {s : State}
    (h : b = true) : checks ((b, f) :: l) k s = f s := by
  unfold checks; rw [if_pos h]

theorem mailbox_runs {cls : Nat} {id : CmdId} {s : State} {k : Cmd → State → State} {c : Cmd} (h : MailRuns s cls id c) :
    mailbox cls id s k = .next (k c (heard s)) := by
  unfold mailbox; rw [onCmd_runs h.1]; simp [h.2, heard]

theorem onMw_holds {p : Bool} {s : State} {f : State → State} (hr : s.mwr.running = true) (h : p = true) :
    onMw p s f = .next (f (mwAct s)) := by
  unfold onMw; exact onEvent_holds (by simp [hr, h])

theorem onAo_holds {p : Bool} {s : State} {f : State → State} (ha : s.pwr.aoIn = true) (h : p = true) :
    onAo p s f = .next (f s) := by
  unfold onAo; exact onEvent_holds (by simp [ha, h])

theorem onPost_holds {p : Bool} {post : State → State} {s : State} (hr : s.mwr.running = true) (h : p = true) :
    onPost p post s = .next (post (mwAct s)) := onMw_holds hr h

theorem onCtlMail_takes {f : Msg → Option (State → State)} {s : State} {m : Msg} {k : State → State}
    (hm : s.mail.mwToCtl.front = some m) (hk : f m = some k) (h : ctlTakes s = true) : onCtlMail f s = .next (k (popCtl s)) := by
  unfold onCtlMail; rw [hm]; simp [hk, onEvent_holds h]

theorem onDatMail_takes {f : Msg → Option (State → State)} {s : State} {m : Msg} {k : State → State}
    (hm : s.mail.mwToDat.front = some m) (hk : f m = some k) (h : datTakes s = true) : onDatMail f s = .next (k (popDat s)) := by
  unfold onDatMail; rw [hm]; simp [hk, onEvent_holds h]

/-- Noting levels changes the power domains alone. -/
theorem noteLevels_eq (f : State → State) (s : State) :
    ∃ d, noteLevels f s = { f s with pwr := { (f s).pwr with doms := d } } := by
  unfold noteLevels
  extract_lets s'
  have key : ∀ (l : List Nat) (a : State) (d : Tbl PDom), a = { s' with pwr := { s'.pwr with doms := d } } →
      ∃ d, forEach l (fun d a =>
        if d ≠ 25 ∧ levelOf s d ≠ levelOf a d then modPdom d (fun p => { p with since := a.core.t }) a else a) a =
          { s' with pwr := { s'.pwr with doms := d } } := by
    intro l
    induction l with
    | nil => intro a d h; exact ⟨d, h⟩
    | cons n l ih =>
      intro a d h
      refine ih _ (if n ≠ 25 ∧ levelOf s n ≠ levelOf a n then a.pwr.doms.alter n {} (fun p => { p with since := a.core.t })
        else a.pwr.doms) ?_
      subst h
      dsimp only
      split <;> rfl
  exact key _ _ s'.pwr.doms rfl

/-- The firmware acting leaves its WFI and nothing else but the levels of domains. -/
theorem mwAct_eq (s : State) :
    ∃ d, mwAct s = { s with pwr := { s.pwr with doms := d }, mwr := { s.mwr with wfi := false } } := by
  unfold mwAct
  split
  · exact noteLevels_eq _ s
  · rename_i h
    refine ⟨s.pwr.doms, ?_⟩
    have : s.mwr.wfi = false := by simpa using h
    cases s; rename_i core mail hif usb evt store mwr prt dom pwr mem whl trn stn ocp rdm grn tly chk brk out freeCtr pending
    cases mwr; cases pwr; simp_all

theorem heard_eq (s : State) : ∃ d w, heard s = { s with pwr := { s.pwr with doms := d }, mwr := { s.mwr with wfi := w } } := by
  unfold heard
  split
  · obtain ⟨d, h⟩ := mwAct_eq s; exact ⟨d, false, h⟩
  · exact ⟨s.pwr.doms, s.mwr.wfi, rfl⟩

end Sys2Proof.Machine
end

