-- ==== Sys2Proof/Laws/Told.lean ====
section
/-! SUPPORT. What completing a command, raising an event and logging an error leave alone. -/

namespace Sys2Proof.Machine

theorem Told.refl (s : State) : Told s s := by constructor <;> rfl
theorem Told.trans {a b c : State} (h : Told a b) (k : Told b c) : Told a c := by
  constructor
  case mwr => rw [← h.mwr, ← k.mwr]
  case dom => rw [← h.dom, ← k.dom]
  all_goals cases h; cases k; simp only [*]
theorem ite_told {c : Prop} [Decidable c] {x a b : State} (ha : Told x a) (hb : Told x b) : Told x (if c then a else b) := by
  split <;> assumption
theorem foldl_told {α : Type} {f : State → α → State} (hf : ∀ s a, Told s (f s a)) (l : List α) (s : State) :
    Told s (l.foldl f s) := by
  induction l generalizing s with
  | nil => exact .refl s
  | cons a l ih => exact (hf s a).trans (ih _)
theorem forEach_told {f : Nat → State → State} (hf : ∀ n s, Told s (f n s)) (l : List Nat) (s : State) :
    Told s (forEach l f s) := foldl_told (fun s n => hf n s) l s
theorem State.modOut_told (s : State) (f : List Output → List Output) : Told s (s.modOut f) := by
  constructor <;> first | rfl | assumption
theorem State.modHif_told {s : State} {f : Hif → Hif} (hfeats : (f s.hif).feats = s.hif.feats) (hsqs : (f s.hif).sqs = s.hif.sqs) (hranges : (f s.hif).ranges = s.hif.ranges) (haccept : (f s.hif).accept = s.hif.accept) (hfreeing : (f s.hif).freeing = s.hif.freeing) : Told s (s.modHif f) := by
  constructor <;> first | rfl | assumption
theorem State.modUsb_told {s : State} {f : Usb → Usb} (henable : (f s.usb).enable = s.usb.enable) (hattached : (f s.usb).attached = s.usb.attached) : Told s (s.modUsb f) := by
  constructor <;> first | rfl | assumption
theorem State.modEvt_told {s : State} {f : Evt → Evt} (hmons : (f s.evt).mons = s.evt.mons) : Told s (s.modEvt f) := by
  constructor <;> first | rfl | assumption
theorem State.modMwr_told {s : State} {f : Mwr → Mwr} (hmwr : { f s.mwr with journal := s.mwr.journal } = s.mwr) : Told s (s.modMwr f) := by
  constructor <;> first | rfl | assumption
theorem State.modDom_told {s : State} {f : Dom → Dom} (hdom : { f s.dom with msgSeq := s.dom.msgSeq } = s.dom) : Told s (s.modDom f) := by
  constructor <;> first | rfl | assumption
theorem State.modMail_told {s : State} {f : Mail → Mail} (hmwToDat : (f s.mail).mwToDat = s.mail.mwToDat) : Told s (s.modMail f) := by
  constructor <;> first | rfl | assumption
theorem updCmd_told (id : CmdId) (f : Cmd → Cmd) (s : State) : Told s (updCmd id f s) := by
  unfold updCmd; repeat' first | with_reducible exact .refl _ | with_reducible refine Told.trans ?_ (State.modHif_told rfl rfl rfl rfl rfl) | with_reducible refine ite_told ?_ ?_ | extract_lets | split
theorem emit_told (o : Output) (s : State) : Told s (emit o s) := by
  unfold emit; repeat' first | with_reducible exact .refl _ | with_reducible refine Told.trans ?_ (State.modOut_told ..) | with_reducible refine ite_told ?_ ?_ | extract_lets | split
theorem sendBy_told (to_ : Nat) (b : DomBody) (p : Nat) (s : State) : Told s (sendBy to_ b p s) := by
  unfold sendBy; repeat' first | with_reducible exact .refl _ | with_reducible refine Told.trans ?_ (emit_told ..) | with_reducible refine Told.trans ?_ (State.modDom_told rfl) | with_reducible refine ite_told ?_ ?_ | extract_lets | split
theorem sendMsg_told (to_ : Nat) (b : DomBody) (s : State) : Told s (sendMsg to_ b s) := by
  unfold sendMsg; repeat' first | with_reducible exact .refl _ | with_reducible refine Told.trans ?_ (sendBy_told ..) | with_reducible refine ite_told ?_ ?_ | extract_lets | split
theorem retain_told (o : Origin) (r : RetRec) (s : State) : Told s (retain o r s) := by
  unfold retain; repeat' first | with_reducible exact .refl _ | with_reducible refine Told.trans ?_ (State.modHif_told rfl rfl rfl rfl rfl) | with_reducible refine ite_told ?_ ?_ | extract_lets | split
theorem retainAll_told (fn : Nat) (l : List CqItem) (s : State) : Told s (retainAll fn l s) := by
  unfold retainAll; repeat' first | with_reducible exact .refl _ | with_reducible refine Told.trans ?_ (retain_told ..) | with_reducible refine ite_told ?_ ?_ | with_reducible refine Told.trans ?_ (foldl_told (fun _ _ => ?_) _ _) | extract_lets | split
theorem flagErr_told (fn : Nat) (b : Nat) (qid : Nat) (s : State) : Told s (flagErr fn b qid s) := by
  unfold flagErr; repeat' first | with_reducible exact .refl _ | with_reducible refine Told.trans ?_ (State.modHif_told rfl rfl rfl rfl rfl) | with_reducible refine ite_told ?_ ?_ | extract_lets | split
theorem cqWrite_told (q : Nat) (i : CqItem) (s : State) : Told s (cqWrite q i s) := by
  unfold cqWrite; repeat' first | with_reducible exact .refl _ | with_reducible refine Told.trans ?_ (emit_told ..) | with_reducible refine Told.trans ?_ (State.modHif_told rfl rfl rfl rfl rfl) | with_reducible refine ite_told ?_ ?_ | extract_lets | split
theorem cqPut_told (fn : Nat) (q : Nat) (i : CqItem) (s : State) : Told s (cqPut fn q i s) := by
  unfold cqPut; repeat' first | with_reducible exact .refl _ | with_reducible refine Told.trans ?_ (retain_told ..) | with_reducible refine Told.trans ?_ (retainAll_told ..) | with_reducible refine Told.trans ?_ (flagErr_told ..) | with_reducible refine Told.trans ?_ (cqWrite_told ..) | with_reducible refine Told.trans ?_ (State.modHif_told rfl rfl rfl rfl rfl) | with_reducible refine ite_told ?_ ?_ | extract_lets | split
theorem deliverK_told (c : Cmd) (k : Completion) (out : List Byte) (s : State) : Told s (deliverK c k out s) := by
  unfold deliverK; repeat' first | with_reducible exact .refl _ | with_reducible refine Told.trans ?_ (sendMsg_told ..) | with_reducible refine Told.trans ?_ (State.modUsb_told rfl rfl) | with_reducible refine Told.trans ?_ (retain_told ..) | with_reducible refine Told.trans ?_ (cqPut_told ..) | with_reducible refine ite_told ?_ ?_ | extract_lets | split
theorem dropCmd_told (id : CmdId) (s : State) : Told s (dropCmd id s) := by
  unfold dropCmd; repeat' first | with_reducible exact .refl _ | with_reducible refine Told.trans ?_ (State.modHif_told rfl rfl rfl rfl rfl) | with_reducible refine ite_told ?_ ?_ | extract_lets | split
theorem deliver_told (c : Cmd) (k : Completion) (s : State) : Told s (deliver c k s) := by
  unfold deliver; repeat' first | with_reducible exact .refl _ | with_reducible refine Told.trans ?_ (State.modUsb_told rfl rfl) | with_reducible refine Told.trans ?_ (deliverK_told ..) | with_reducible refine Told.trans ?_ (dropCmd_told ..) | with_reducible refine ite_told ?_ ?_ | extract_lets | split
theorem completeK_told (c : Cmd) (k : Completion) (s : State) : Told s (completeK c k s) := by
  unfold completeK; repeat' first | with_reducible exact .refl _ | with_reducible refine Told.trans ?_ (State.modMwr_told rfl) | with_reducible refine Told.trans ?_ (State.modMail_told rfl) | with_reducible refine Told.trans ?_ (updCmd_told ..) | with_reducible refine Told.trans ?_ (deliver_told ..) | with_reducible refine ite_told ?_ ?_ | extract_lets | split
theorem complete_told (c : Cmd) (st : Status) (result : Nat) (result2 : Nat) (s : State) : Told s (complete c st result result2 s) := by
  unfold complete; repeat' first | with_reducible exact .refl _ | with_reducible refine Told.trans ?_ (completeK_told ..) | with_reducible refine ite_told ?_ ?_ | extract_lets | split
theorem emitData_told (c : Cmd) (addr : Nat) (data : List Byte) (s : State) : Told s (emitData c addr data s) := by
  unfold emitData; repeat' first | with_reducible exact .refl _ | with_reducible refine Told.trans ?_ (State.modUsb_told rfl rfl) | with_reducible refine Told.trans ?_ (emit_told ..) | with_reducible refine ite_told ?_ ?_ | extract_lets | split
theorem answerRing_told (c : Cmd) (s : State) : Told s (answerRing c s) := by
  unfold answerRing; repeat' first | with_reducible exact .refl _ | with_reducible refine Told.trans ?_ (complete_told ..) | with_reducible refine Told.trans ?_ (State.modEvt_told rfl) | with_reducible refine Told.trans ?_ (emitData_told ..) | with_reducible refine ite_told ?_ ?_ | extract_lets | split
theorem answerWait_told (s : State) (c : Cmd) : Told s (answerWait s c) := by
  unfold answerWait; repeat' first | with_reducible exact .refl _ | with_reducible refine Told.trans ?_ (answerRing_told ..) | with_reducible refine ite_told ?_ ?_ | extract_lets | split
theorem raiseSev_told (code : Nat) (fn : Nat) (sev : Nat) (obj0 : Nat) (obj1 : Nat) (pos : Nat) (arg : Nat) (arg2 : Nat) (s : State) : Told s (raiseSev code fn sev obj0 obj1 pos arg arg2 s) := by
  unfold raiseSev; repeat' first | with_reducible exact .refl _ | with_reducible refine Told.trans ?_ (answerWait_told ..) | with_reducible refine Told.trans ?_ (State.modEvt_told rfl) | with_reducible refine ite_told ?_ ?_ | with_reducible refine Told.trans ?_ (foldl_told (fun _ _ => ?_) _ _) | extract_lets | split
theorem raise_told (code : Nat) (fn : Nat) (obj0 : Nat) (obj1 : Nat) (pos : Nat) (arg : Nat) (arg2 : Nat) (s : State) : Told s (raise code fn obj0 obj1 pos arg arg2 s) := by
  unfold raise; repeat' first | with_reducible exact .refl _ | with_reducible refine Told.trans ?_ (raiseSev_told ..) | with_reducible refine ite_told ?_ ?_ | extract_lets | split
theorem raisePf_told (code : Nat) (obj0 : Nat) (arg : Nat) (s : State) : Told s (raisePf code obj0 arg s) := by
  unfold raisePf; repeat' first | with_reducible exact .refl _ | with_reducible refine Told.trans ?_ (raise_told ..) | with_reducible refine ite_told ?_ ?_ | extract_lets | split
theorem completeId_told (id : CmdId) (st : Status) (result : Nat) (result2 : Nat) (s : State) : Told s (completeId id st result result2 s) := by
  unfold completeId; repeat' first | with_reducible exact .refl _ | with_reducible refine Told.trans ?_ (complete_told ..) | with_reducible refine ite_told ?_ ?_ | extract_lets | split
theorem completeJob_told (j : Job) (st : Status) (r : Nat) (r2 : Nat) (s : State) : Told s (completeJob j st r r2 s) := by
  unfold completeJob; repeat' first | with_reducible exact .refl _ | with_reducible refine Told.trans ?_ (completeId_told ..) | with_reducible refine ite_told ?_ ?_ | extract_lets | split
theorem accept_told (c : Cmd) (s : State) : Told s (accept c s) := by
  unfold accept; repeat' first | with_reducible exact .refl _ | with_reducible refine Told.trans ?_ (updCmd_told ..) | with_reducible refine ite_told ?_ ?_ | extract_lets | split
theorem logError_told (e : Err) (s : State) : Told s (logError e s) := by
  unfold logError; repeat' first | with_reducible exact .refl _ | with_reducible refine Told.trans ?_ (State.modMail_told rfl) | with_reducible refine Told.trans ?_ (State.modEvt_told rfl) | with_reducible refine Told.trans ?_ (raiseSev_told ..) | with_reducible refine ite_told ?_ ?_ | extract_lets | split
theorem failInternal_told (id : CmdId) (e : Err) (s : State) : Told s (failInternal id e s) := by
  unfold failInternal; repeat' first | with_reducible exact .refl _ | with_reducible refine Told.trans ?_ (completeId_told ..) | with_reducible refine Told.trans ?_ (logError_told ..) | with_reducible refine ite_told ?_ ?_ | extract_lets | split
theorem noteFatal_told (cause : Nat) (s : State) : Told s (noteFatal cause s) := by
  unfold noteFatal; repeat' first | with_reducible exact .refl _ | with_reducible refine Told.trans ?_ (State.modEvt_told rfl) | with_reducible refine ite_told ?_ ?_ | extract_lets | split
theorem invalid_told (c : Cmd) (off : Nat) (s : State) : Told s (invalid c off s) := by
  unfold invalid; repeat' first | with_reducible exact .refl _ | with_reducible refine Told.trans ?_ (complete_told ..) | with_reducible refine ite_told ?_ ?_ | extract_lets | split
theorem succeed_told (c : Cmd) (s : State) : Told s (succeed c s) := by
  unfold succeed; repeat' first | with_reducible exact .refl _ | with_reducible refine Told.trans ?_ (complete_told ..) | with_reducible refine ite_told ?_ ?_ | extract_lets | split
theorem stallOr_told (c : Cmd) (st : Status) (retryUs : Nat) (s : State) : Told s (stallOr c st retryUs s) := by
  unfold stallOr; repeat' first | with_reducible exact .refl _ | with_reducible refine Told.trans ?_ (complete_told ..) | with_reducible refine Told.trans ?_ (updCmd_told ..) | with_reducible refine ite_told ?_ ?_ | extract_lets | split
theorem refuse_told (c : Cmd) (reason : Nat) (cond : Nat) (s : State) : Told s (refuse c reason cond s) := by
  unfold refuse; repeat' first | with_reducible exact .refl _ | with_reducible refine Told.trans ?_ (complete_told ..) | with_reducible refine ite_told ?_ ?_ | extract_lets | split
theorem tellMw_told (m : Msg) (s : State) : Told s (tellMw m s) := by
  unfold tellMw; repeat' first | with_reducible exact .refl _ | with_reducible refine Told.trans ?_ (State.modMail_told rfl) | with_reducible refine ite_told ?_ ?_ | extract_lets | split

end Sys2Proof.Machine
end

