-- ==== Sys2Proof/Machine/Pins.lean ====
section
/-! DEFINITION. The package, the balls and the levels of the board pins, and the limits of the supplies, clocks and
temperatures (16 R448, R474; 18 R493 to R507). Nothing of it changes in a step. -/

namespace Sys2Proof.Machine

/-! ### Balls (R493, R494) -/

/-- The letters of a row name, in order. -/
def rowLetters : List Char := "ABCDEFGHJKLMNPTUVWY".toList

/-- The name of a row, 1 to 90. -/
def rowName (n : Nat) : String :=
  if n < 20 then String.singleton (rowLetters.getD (n - 1) 'A')
  else String.ofList [rowLetters.getD ((n - 20) / 19) 'A', rowLetters.getD ((n - 20) % 19) 'A']

/-- A position of the array, row and column, holds a ball: all but the four corners. -/
def isBall (r c : Nat) : Bool :=
  decide (1 ≤ r ∧ r ≤ 90 ∧ 1 ≤ c ∧ c ≤ 90) && !(decide (r = 1 ∨ r = 90) && decide (c = 1 ∨ c = 90))

/-- What a region of the array serves. -/
inductive BallGroup where
  | fabric | pcie | ddrLow | ddrHigh | core | hbm | board | ground
  deriving DecidableEq, Repr

/-- The region of a ball; outside every region it is ground. -/
def groupAt (r c : Nat) : BallGroup :=
  if r ≤ 8 then .fabric
  else if r ≤ 14 then (if 30 ≤ c ∧ c ≤ 61 then .pcie else .ground)
  else if 85 ≤ r then (if 30 ≤ c ∧ c ≤ 62 then .board else .ground)
  else if c ≤ 10 then .ddrLow
  else if 81 ≤ c then .ddrHigh
  else if c < 12 ∨ 79 < c then .ground
  else if 20 ≤ r ∧ r ≤ 76 then .core
  else .hbm

/-- A board pin. -/
inductive Pin where
  | leakExc (n : Nat) | leakSns (n : Nat) | ilkA (i : Nat) | ilkB (i : Nat) | valveEn (n : Nat) | hsFaultN (g : Nat)
  | slotEn (n : Nat) | slotPg (n : Nat) | slotPrsntN (n : Nat)
  | brakeAN | brakeBN | brakeRstN | blankIn | wakeN | wakeFailN | thermAlertN | perstN | steward | roleStat (i : Nat)
  | xtalMw (i : Nat) | xtalAo (i : Nat) | railEn (n : Nat) | railPg (n : Nat) | vAoOut | vddWf | i3cScl | i3cSda | usbDp | usbDm
  | vdd33Usb
  /-- SCK, IO[0] to IO[3], CS_P_N, CS_G_N, WP_G_N of SPI_MW_*. -/
  | spiMw (i : Nat)
  /-- SCK, IO[0] to IO[3], CS_P_N, CS_G_N, OE_N of SPI_TRAY_*. -/
  | spiTray (i : Nat)
  | spiTraySel (i : Nat)
  deriving DecidableEq, Repr

/-- The ball of a board pin, as row and column. -/
def Pin.ball : Pin → Nat × Nat
  | .slotPrsntN n => (85, 31 + n)
  | .railEn n => (85, 41 + n)
  | .railPg n => (85, 51 + n)
  | .spiTraySel i => (85, 59 + i)
  | .slotEn n => (86, 31 + n)
  | .slotPg n => (86, 41 + n)
  | .usbDp => (86, 51)
  | .usbDm => (86, 52)
  | .vdd33Usb => (86, 53)
  | .spiTray i => (86, 55 + i)
  | .valveEn n => (87, 31 + n)
  | .hsFaultN g => (87, 41 + g)
  | .i3cScl => (87, 51)
  | .i3cSda => (87, 52)
  | .spiMw i => (87, 55 + i)
  | .ilkA i => (88, 31 + 2 * i)
  | .ilkB i => (88, 32 + 2 * i)
  | .brakeAN => (88, 41)
  | .brakeRstN => (88, 43)
  | .brakeBN => (88, 45)
  | .leakExc n => (89, 31 + 2 * n)
  | .blankIn => (89, 49)
  | .wakeN => (89, 51)
  | .wakeFailN => (89, 53)
  | .thermAlertN => (89, 55)
  | .xtalMw i => (89, 59 + i)
  | .vddWf => (89, 62)
  | .leakSns n => (90, 31 + 2 * n)
  | .perstN => (90, 51)
  | .steward => (90, 53)
  | .roleStat i => (90, 55 + 2 * i)
  | .xtalAo i => (90, 59 + i)
  | .vAoOut => (90, 62)

/-- The board pins of the part. -/
def allPins : List Pin :=
  (List.range 8).flatMap (fun n => [.leakExc n, .leakSns n, .valveEn n, .slotEn n, .slotPg n, .slotPrsntN n, .railEn n, .railPg n, .spiMw n,
      .spiTray n]) ++
    (List.range 4).flatMap (fun i => [.ilkA i, .ilkB i, .hsFaultN i]) ++
    (List.range 3).map .spiTraySel ++ (List.range 2).flatMap (fun i => [.roleStat i, .xtalMw i, .xtalAo i]) ++
    [.brakeAN, .brakeBN, .brakeRstN, .blankIn, .wakeN, .wakeFailN, .thermAlertN, .perstN, .steward, .vAoOut, .vddWf, .i3cScl, .i3cSda,
      .usbDp, .usbDm, .vdd33Usb]

/-! ### Banks and levels (R474, R501, R502) -/

/-- The signal banks. -/
inductive Bank where
  | ao | hold | wakeFail | cmos | spi | other
  deriving DecidableEq, Repr

/-- The bank of a pin; supplies, crystals and the USB pair belong to none. -/
def Pin.bank : Pin → Bank
  | .brakeAN | .brakeBN | .valveEn _ | .slotEn _ | .roleStat _ | .thermAlertN => .hold
  | .wakeFailN => .wakeFail
  | .perstN | .steward | .i3cScl | .i3cSda => .cmos
  | .spiMw _ | .spiTray _ | .spiTraySel _ => .spi
  | .leakExc _ | .leakSns _ | .ilkA _ | .ilkB _ | .brakeRstN | .blankIn | .hsFaultN _ | .slotPg _ | .slotPrsntN _ | .wakeN | .railEn _
  | .railPg _ => .ao
  | .xtalMw _ | .xtalAo _ | .vAoOut | .vddWf | .usbDp | .usbDm | .vdd33Usb => .other

/-- The input thresholds of a bank, low and high, and its output levels, low and high, in mV, as far as R501 gives them. -/
def Bank.levels : Bank → Option (Nat × Nat) × Option Nat × Option Nat
  | .ao => (some (250, 650), some 100, some 800)
  | .hold => (none, some 200, some 1000)
  | .wakeFail => (none, some 200, some 1000)
  | .cmos => (some (350, 850), some 200, none)
  | .spi => (some (540, 1260), some 300, some 1500)
  | .other => (none, none, none)

/-- VDD_IO is present: the hold domain drives its outputs (R34, R407). -/
def holdPowered (s : State) : Bool := s.pwr.aoIn && s.pwr.railPg.getD 0 false && !s.brk.ioLost

/-- The level the device drives on a pin, and none where it drives none: an input, or an output without its supply (R407, R448,
R502). -/
def Pin.drive (s : State) : Pin → Option Bool
  | .railEn n => if s.pwr.aoIn then some (s.pwr.railEn.getD n false) else none
  | .wakeFailN => if s.pwr.aoIn then some (!s.pwr.wakeFailN) else none
  | .roleStat i => if holdPowered s then some (bit s.core.roleStat.code i) else none
  | .thermAlertN => if holdPowered s then some (!s.pwr.alert) else none
  | .brakeAN | .brakeBN => if holdPowered s then some (!s.brk.set) else none
  | .valveEn n =>
    if holdPowered s then some (decide ((s.brk.valves.getD n {}).state = .pullIn ∨ (s.brk.valves.getD n {}).state = .hold)) else none
  | .slotEn n =>
    if holdPowered s then some (decide ((s.brk.slots.getD n {}).state = .powering ∨ (s.brk.slots.getD n {}).state = .on)) else none
  | _ => none

/-- The level a pin stands at by the board's pulls while nothing drives it (R474, R501, R502). -/
def Pin.pull : Pin → Option Bool
  | .railEn _ | .brakeAN | .brakeBN | .valveEn _ | .slotEn _ | .blankIn => some false
  | .wakeFailN | .thermAlertN | .wakeN | .railPg _ | .perstN | .ilkA _ | .ilkB _ | .brakeRstN | .hsFaultN _ | .slotPg _ | .slotPrsntN _ =>
    some true
  | _ => none

/-- The level of an output as the board sees it. -/
def Pin.level (s : State) (p : Pin) : Option Bool := p.drive s <|> p.pull

/-! ### Supplies (R495, R496, R507) -/

/-- A supply: its nominal voltage in mV, its tolerance in tenths of a percent, its largest current in µA without its external
load, and its absolute maximum in mV where R507 gives one. -/
structure Supply where
  /-- Nominal, mV. -/
  mv : Nat
  /-- Tolerance, tenths of a percent. -/
  tol : Nat
  /-- Current, µA. -/
  ua : Nat
  /-- Absolute maximum, mV. -/
  peak : Option Nat := none
  deriving DecidableEq, Repr

/-- The rails in the order of their enables, RAIL_EN_0 to RAIL_EN_7: VDD_IO, VDD_SRAM, VDD_CORE, VPP_HBM, VDD_HBM, VDDQ_HBM, VPP_DDR,
VDDQ_DDR. -/
def railSupplies : List Supply :=
  [⟨1200, 50, 12000000, some 1320⟩, ⟨800, 30, 90000000, some 900⟩, ⟨750, 25, 780000000, some 950⟩, ⟨1800, 50, 4000000, some 1980⟩,
    ⟨1100, 30, 72000000, none⟩, ⟨400, 30, 96000000, none⟩, ⟨1800, 50, 2000000, some 1980⟩, ⟨1100, 30, 25000000, none⟩]

/-- The supplies of the board: VDD_AO_IN, VDD_WF and VDD33_USB. -/
def boardSupplies : List Supply := [⟨1800, 50, 60000, some 1980⟩, ⟨1200, 50, 100, none⟩, ⟨3300, 50, 30000, some 3600⟩]

/-- The external load V_AO_OUT bears, in µA, and the least pull-up to it, in kΩ (R496). -/
def vAoOutLoad : Nat × Nat := (50, 1000)

/-! ### Clocks and temperatures (R410, R503, R506) -/

/-- A reference clock: its frequency in Hz and its tolerance in ppm. -/
structure RefClock where
  /-- Frequency, Hz. -/
  hz : Nat
  /-- Tolerance, ppm. -/
  ppm : Nat
  deriving DecidableEq, Repr

/-- REFCLK_PCIE, REFCLK_SERDES_0 and _1, XTAL_MW and XTAL_AO. -/
def refClocks : List RefClock := [⟨100000000, 300⟩, ⟨156250000, 50⟩, ⟨25000000, 20⟩, ⟨32768, 50⟩]

/-- The temperature limits of an ordering code, in °C: case, junction, throttle and alert. -/
structure Thermal where
  /-- Case, highest. -/
  case_ : Nat
  /-- Junction, operating maximum. -/
  junction : Nat
  /-- Throttle threshold. -/
  throttle : Nat
  /-- Alert threshold. -/
  alert : Nat
  deriving DecidableEq, Repr

/-- DR-2560-A and DR-2560-E. -/
def thermalLimits (extended : Bool) : Thermal := if extended then ⟨105, 120, 115, 125⟩ else ⟨95, 110, 105, 115⟩

/-- The bound on package power in a device state, in mW, where R410 gives one. -/
def powerBound : DevState → Option Nat
  | .run => some 820000
  | .idle => some 95000
  | .sleep => some 30000
  | .deepSleep => some 2500
  | .off => some 8
  | _ => none

end Sys2Proof.Machine
end

