-- ==== Sys2Proof/WellFormed.lean ====
section
/-! DEFINITION. Well-formed commands: every operand within the width that the manual gives it. The meanings do not lean on it;
a command that is not well-formed is one no agent can send. -/

namespace Sys2Proof

/-- A number from lo to hi. -/
def inRange (lo n hi : Nat) : Bool := decide (lo ≤ n) && decide (n ≤ hi)

/-- A number that may be absent, below a bound. -/
def optLt (o : Option Nat) (n : Nat) : Bool := match o with | some k => decide (k < n) | none => true

/-- A submitter: functions are 0 to 15 and members 0 to 255 (R45, R56, R18). -/
def Origin.wf : Origin → Bool
  | .pcie f => decide (f < 16)
  | .usb => true
  | .domain m f => decide (m < 256) && decide (f < 16)

/-- A command's name: TAG has 16 bits (R46). -/
def CmdId.wf (i : CmdId) : Bool := i.origin.wf && decide (i.tag < 65536)

/-- A fetched entry has 16 dwords (R46). -/
def Fetched.wf (f : Fetched) : Bool := match f.packet with | some p => decide (p.length = 16) | none => true

/-- The source of a message lies on one of the eight ports (R236). -/
def Source.wf : Source → Bool
  | .flume p => decide (p < 8)
  | .udp p a u => decide (p < 8) && decide (a < 2 ^ 128) && decide (u < 65536)

/-- The header of a message (R361). -/
def MsgHead.wf (h : MsgHead) : Bool := h.src.wf && decide (h.sender < 256) && decide (h.domain < 2 ^ 32) && decide (h.inc < 2 ^ 32)

/-- A write of HIF_PLANE_RESET (R83). -/
def ResetBy.wf : ResetBy → Bool
  | .host fn val => decide (fn < 16) && decide (val < 2 ^ 32)
  | .millwright => true
  | .fatal => true

/-- A request at a granary (R267, R271, R279). -/
def GReq.wf (r : GReq) : Bool :=
  decide (r.port < 8) && decide (r.qpn < 16384) && decide (r.psn < 2 ^ 24) && decide (r.va < 2 ^ 64) && decide (r.key < 2 ^ 32) && decide (r.len ≤ 2 ^ 30)

/-- A packet that arrives (R241, R267). -/
def RoceIn.wf (r : RoceIn) : Bool := decide (r.port < 8) && decide (r.qpn < 2 ^ 24) && decide (r.psn < 2 ^ 24) && optLt r.imm (2 ^ 32)

/-- The parameters of a peer (R263). -/
def FlumeParams.wf (x : FlumeParams) : Bool :=
  decide (x.member < 256) && decide (x.role < 4) && decide (x.version < 16) && decide (x.alloc.length = 4) && decide (x.loop < 65536)

/-- A send entry: a site of at most 24 bits, 1 to 4,096 beats, a source in a scratch of 4 MiB (R158, R171, R152). -/
def Spur.wf (x : Spur) : Bool :=
  decide (x.site < 2 ^ 24) && decide (x.src < 65536) && decide (x.dest < 256) && decide (1 ≤ x.beats) && decide (x.beats ≤ 4096)

/-- A packet to send: KIND and length within the packet header (R250). -/
def FlumeOut.wf (x : FlumeOut) : Bool := decide (x.kind < 256) && decide (x.body.length ≤ 4344)

/-- Where a packet came in: a port, and a QPN of 24 bits (R236, R267). -/
def Via.wf (v : Via) : Bool := decide (v.port < 8) && decide (v.q < 2 ^ 24)

/-- A write of RSEQ (R102). -/
def RseqWrite.wf (w : RseqWrite) : Bool := decide (w.rseq < 2 ^ 32) && optLt w.qp (2 ^ 24)

/-- The bytes of a partial write (R223). -/
def Lanes.wf (x : Lanes) : Bool := decide (x.en < 256) && decide (x.data < 2 ^ 64)

/-- Bits that upsets invert in words of an instance (R213, R217). -/
def flipsWf (bits : Nat) (l : List (Nat × Nat)) : Bool := l.all fun e => decide (e.1 < 2 ^ 21) && decide (e.2 < 2 ^ bits)

/-- A command is well-formed. -/
def Instr.wf (i : Instr) : Bool :=
  match i with
  | .coldReset pop => decide (pop.length = 8)
  | .roleFillEnd => true
  | .warmReset => true
  | .perstNDeassert => true
  | .ctlPlaneReset by_ => by_.wf
  | .datPlaneReset by_ => by_.wf
  | .mgtPlaneReset by_ => by_.wf
  | .ctlResetEnd => true
  | .datResetEnd => true
  | .mwRestart => true
  | .recoverySpiRelease => true
  | .lockstepMismatch cls => inRange 1 cls 7
  | .watchdogExpiry => true
  | .watchdogKick val => decide (val < 2 ^ 32)
  | .datNoProgressTimeout source => inRange 2 source 10
  | .mwForwardedCommand => true
  | .forwardedCompletion => true
  | .powerNotice => true
  | .whlHeartbeatSend => true
  | .whlHeartbeatReceive => true
  | .ctlHeartbeatLost => true
  | .headroomGrant => true
  | .grantLapse => true
  | .domainTimeAdjustment _ _ _ => true
  | .domainAgentSleepVote _ => true
  | .errorRecordMessage => true
  | .planeFatalNotice => true
  | .sensorRequest _ => true
  | .stoneFenceRequest stone _ => optLt stone 256
  | .portModeRequest p mode _ => optLt p 8 && decide (mode < 3)
  | .dimmBistRequest pair => optLt pair 8
  | .sqTailDoorbell fn idx val => decide (fn < 16) && decide (idx < 256) && decide (val < 2 ^ 32)
  | .cqHeadDoorbell fn idx val => decide (fn < 16) && decide (idx < 256) && decide (val < 2 ^ 32)
  | .commandFetch sq f attachment => decide (sq < 256) && f.wf && decide (attachment.length ≤ 4096)
  | .fencedCommandStart id => id.wf
  | .stallResume id => id.wf
  | .stallTimeout id => id.wf
  | .cqCoalesceTimeout cq => decide (cq < 256)
  | .queueCreate fn => decide (fn < 16)
  | .queueDelete fn => decide (fn < 16)
  | .sqDeleteDone sq => decide (sq < 256)
  | .vfQrangeWrite fn n val => decide (fn < 16) && inRange 1 n 15 && decide (val < 2 ^ 32)
  | .registerWrite by_ off val => optLt by_ 16 && decide (off < 2 ^ 24) && decide (off % 4 = 0) && optLt val (2 ^ 32)
  | .flrVf n => inRange 1 n 15
  | .flrPf => true
  | .pcieHotReset => true
  | .nop id => id.wf
  | .identify id => id.wf
  | .getLog id => id.wf
  | .eventWaitTimeout id => id.wf
  | .setFeature id => id.wf
  | .getFeature id => id.wf
  | .abort id => id.wf
  | .raceOpen id => id.wf
  | .raceClose id => id.wf
  | .raceAnchor id => id.wf
  | .playoutReport id => id.wf
  | .cogSet id => id.wf
  | .cogClear id => id.wf
  | .raceQuery id => id.wf
  | .ingressSeqWrite race slot seq => decide (race < 2048) && decide (slot < 4096) && decide (seq < 2 ^ 64)
  | .reportSlotWrite race w => decide (race < 2048) && w.wf
  | .tailReadSeqWrite race seq => decide (race < 2048) && decide (seq < 2 ^ 64)
  | .wheelhouseTick _ => true
  | .cogDueExpiry race slot => decide (race < 2048) && decide (slot < 16)
  | .dryDueExpiry race => decide (race < 2048)
  | .turnBegin id => id.wf
  | .sailRaise id => id.wf
  | .sailSet id => id.wf
  | .sailFurl id => id.wf
  | .turnEnd id => id.wf
  | .furlStonesIdle turn sail => decide (turn < 64) && optLt sail 4
  | .sailDrainEnd turn sail => decide (turn < 64) && decide (sail < 4)
  | .arenaZeroFillEnd offset => decide (offset < 2 ^ 38)
  | .tailFrameRelease turn sail => decide (turn < 64) && decide (sail < 5)
  | .heldWriteRelease turn sail failure => decide (turn < 64) && decide (sail < 5) && optLt failure 256
  | .imageLoad id _ => id.wf
  | .imageUnload id => id.wf
  | .imageQuery id => id.wf
  | .chainBind id _ => id.wf
  | .chainUnbind id => id.wf
  | .stoneFence id => id.wf
  | .stoneReinstate id => id.wf
  | .reinstateBistEnd stone _ => decide (stone < 256)
  | .matmul _ stone _ => decide (stone < 256)
  | .matmulAcc _ stone _ => decide (stone < 256)
  | .gangFaultDrainEnd _ => true
  | .dmaRead _ stone _ _ => decide (stone < 256)
  | .dmaWrite _ stone _ => decide (stone < 256)
  | .dmaTailFrame _ stone _ => decide (stone < 256)
  | .dmaVoiced _ stone => decide (stone < 256)
  | .dmaDescriptorDone _ stone => decide (stone < 256)
  | .spurSend _ stone send => decide (stone < 256) && send.wf
  | .gristBoundary _ site => decide (site < 2 ^ 24)
  | .yieldSaveDone _ => true
  | .gristOverdue _ => true
  | .stageHalt _ => true
  | .map id => id.wf
  | .unmap id => id.wf
  | .unmapDestroy id => id.wf
  | .xlateInvalidate id => id.wf
  | .invalidateDrainEnd id => id.wf
  | .copy id => id.wf
  | .copyDone id _ => id.wf
  | .bar4Write fn off data => decide (fn < 16) && decide (off < 2 ^ 36) && decide (0 < data.length)
  | .bar4Read fn off n _ => decide (fn < 16) && decide (off < 2 ^ 36) && decide (0 < n)
  | .hopperReadComplete race slot off _ => decide (race < 2048) && decide (slot < 16) && decide (off < 2 ^ 30)
  | .ddrPairFault pair reason => decide (pair < 8) && decide (reason < 16)
  | .ddrBistFillEnd pair _ => decide (pair < 8)
  | .patrolScrub ch errs => decide (ch < 144) && errs.all fun e => decide (e.1 < 2 ^ 61)
  | .memProbe val => decide (val < 2 ^ 32)
  | .partialWrite inst word lanes _ => decide (inst < 260) && decide (word < 2 ^ 21) && lanes.wf
  | .mergeAgeFlush inst group => decide (inst < 260) && decide (group < 32)
  | .mergeIdleFlush inst group => decide (inst < 260) && decide (group < 32)
  | .fullWordWrite inst word data => decide (inst < 260) && decide (word < 2 ^ 21) && decide (data < 2 ^ 64)
  | .spareRemap inst group => decide (inst < 260) && decide (group < 32)
  | .scrubVisit inst group dflips cflips copies => decide (inst < 260) && decide (group < 32) && flipsWf 64 dflips && flipsWf 8 cflips && copies.all fun w => decide (w < 2 ^ 21)
  | .scrubLapLimitExpiry inst => decide (inst < 260)
  | .ocpInjectArm fn val => decide (fn < 16) && decide (val < 2 ^ 32)
  | .ocpRemapLoad val => decide (val < 2 ^ 32)
  | .portMode id => id.wf
  | .portRetrain id => id.wf
  | .flitSend p packets => decide (p < 8) && packets.all FlumeOut.wf
  | .flitReceive p lanes => decide (p < 8) && decide (lanes.length = 4) && lanes.all fun l => decide (l.length = 64)
  | .nakResendTimeout p seq => decide (p < 8) && decide (seq < 4096)
  | .retryWindowExpiry p => decide (p < 8)
  | .lossOfSignal p => decide (p < 8)
  | .ethLinkFault p => decide (p < 8)
  | .trainingPrbsPass p => decide (p < 8)
  | .trainingTimeout p => decide (p < 8)
  | .paramExchange p x => decide (p < 8) && x.wf
  | .holdExpiry p => decide (p < 8)
  | .ethLinkUp p => decide (p < 8)
  | .ethFrameReceive p x => decide (p < 8) && x.pfc.all fun y => decide (y.1 < 8) && decide (y.2 < 2 ^ 16)
  | .rocePacketReceive r => r.wf
  | .cnpReceive q => decide (q < 16384)
  | .ccPeriodExpiry q => decide (q < 16384)
  | .ptpMessage p rawStamp _ => decide (p < 8) && decide (rawStamp < 2 ^ 68)
  | .qpCreate id => id.wf
  | .qpModifyReset id => id.wf
  | .qpModifyInit id => id.wf
  | .qpModifyRtr id => id.wf
  | .qpModifyRts id => id.wf
  | .qpModifyMove id => id.wf
  | .qpModifyDrain id => id.wf
  | .qpModifyError id => id.wf
  | .qpDrainEnd q => decide (q < 16384)
  | .qpDestroy id => id.wf
  | .srqCreate id => id.wf
  | .srqSetLimit id => id.wf
  | .cqCreate id => id.wf
  | .cqDestroy id => id.wf
  | .mrRegister id => id.wf
  | .mrDeregister id => id.wf
  | .windowBind id _ => id.wf
  | .windowUnbind id => id.wf
  | .rdmaSqDoorbell fn val _ => decide (fn < 16) && decide (val < 2 ^ 64)
  | .rdmaRqDoorbell fn val _ => decide (fn < 16) && decide (val < 2 ^ 64)
  | .rdmaSrqDoorbell fn val _ => decide (fn < 16) && decide (val < 2 ^ 64)
  | .rdmaCqDoorbell fn val => decide (fn < 16) && decide (val < 2 ^ 64)
  | .wrSend q _ => decide (q < 16384)
  | .wrSendImm q _ => decide (q < 16384)
  | .wrWrite q _ => decide (q < 16384)
  | .wrWriteImm q _ => decide (q < 16384)
  | .wrRead q _ => decide (q < 16384)
  | .wrRecv _ n => decide (n < 16384)
  | .inboundKeyRequest via psn _ va _ len data _ _ => via.wf && decide (psn < 2 ^ 24) && decide (va < 2 ^ 64) && decide (len ≤ 2 ^ 30) && decide (data.length ≤ 2 ^ 30)
  | .ackReceive via psn _ => via.wf && decide (psn < 2 ^ 24)
  | .statusNakReceive via psn _ _ => via.wf && decide (psn < 2 ^ 24)
  | .localAckTimeout q => decide (q < 16384)
  | .rnrTimerExpiry q => decide (q < 16384)
  | .carveCreate id => id.wf
  | .carveUpdate id => id.wf
  | .carveDelete id => id.wf
  | .binAlloc id => id.wf
  | .binFree id => id.wf
  | .binZeroFillEnd bin => decide (bin < 4194304)
  | .binMap id => id.wf
  | .binUnmap id => id.wf
  | .leaseRenew id => id.wf
  | .leaseExpiry bin member => decide (bin < 4194304) && decide (member < 256)
  | .mapDrainEnd bin member => decide (bin < 4194304) && decide (member < 256)
  | .mirrorEnable id index => id.wf && optLt index 4194304
  | .mirrorDisable id => id.wf
  | .inboundGranaryRequest r => r.wf
  | .mirrorWriteArrival handle off _ _ _ _ => decide (handle < 2 ^ 64) && decide (off < 2 ^ 30)
  | .mirrorAck token => decide (token < 131072)
  | .resilverChunk bin => decide (bin < 4194304)
  | .resilverChunkAck bin => decide (bin < 4194304)
  | .promoteCopies home => decide (home < 256)
  | .announceReceive h role homes => h.wf && inRange 1 role 2 && homes.all fun m => decide (m < 256)
  | .noticeReceive h code _ _ _ _ => h.wf && decide (code < 256)
  | .mapRecordExpiry handle fn => decide (handle < 2 ^ 64) && decide (fn < 16)
  | .homeClaimWaitExpiry => true
  | .homeHandback home => decide (home < 256)
  | .handbackDrainEnd => true
  | .nmwTailWrite val _ => decide (val < 2 ^ 32)
  | .tallyQuery id => id.wf
  | .tallyPrepReset id => id.wf
  | .tallyConfirm id => id.wf
  | .operationExit bin token code _ => decide (bin < 4194304) && optLt token 131072 && decide (code < 256)
  | .tokenFreeAdmit => true
  | .tallyBackgroundScan bin _ _ _ lap => decide (bin < 4194304) && optLt lap 65536
  | .sweepQueue bin => decide (bin < 4194304)
  | .sweepTokenPass bin => decide (bin < 4194304)
  | .confirmWindowExpiry bin => decide (bin < 4194304)
  | .chkClaim id => id.wf
  | .chkConfig id => id.wf
  | .chkRun id => id.wf
  | .chkRelease id => id.wf
  | .chkJobEnd engine _ => decide (engine < 16)
  | .domainJoin id _ => id.wf
  | .domainLeave id => id.wf
  | .domainStatus id => id.wf
  | .sleepVoteObject id => id.wf
  | .sleepVoteWithdraw id => id.wf
  | .sleepVoteWake id => id.wf
  | .heartbeatSend => true
  | .heartbeatReceive h _ => h.wf
  | .peerSuspectTimeout m => decide (m < 256)
  | .peerLostTimeout m => decide (m < 256)
  | .suspectReceive h member => h.wf && decide (member < 256)
  | .leaveReceive h _ => h.wf
  | .commandReceive h fn pkt _ _ _ => h.wf && decide (fn < 16) && decide (pkt.length = 16)
  | .replyReceive h fn tag status result result2 _ => h.wf && decide (fn < 16) && decide (tag < 65536) && decide (status < 32) && decide (result < 2 ^ 32) && decide (result2 < 2 ^ 32)
  | .forwardTimeout id => id.wf
  | .reassemblyTimeout src seq => src.wf && decide (seq < 2 ^ 32)
  | .duplicateClearTimeout => true
  | .noMasterTimeout => true
  | .holdoverSuspectTimeout => true
  | .sleepQuietExpiry => true
  | .sleepProposeReceive h n => h.wf && decide (n < 2 ^ 32)
  | .sleepVoteMessage h n value => h.wf && decide (n < 2 ^ 32) && decide (value < 3)
  | .sleepVoteTimeout => true
  | .sleepAgreedReceive h n commit => h.wf && decide (n < 2 ^ 32) && decide (commit < 2 ^ 64)
  | .sleepAbortReceive h n => h.wf && decide (n < 2 ^ 32)
  | .sleepAwakeReceive h => h.wf
  | .sleepCommit => true
  | .sleepEntryEnd => true
  | .sleepExitEnd => true
  | .powerVotePlace id => id.wf
  | .powerVoteWithdraw id => id.wf
  | .powerQuery id => id.wf
  | .powerStateRun id => id.wf
  | .powerStateSleep id => id.wf
  | .powerStateDeepSleep id => id.wf
  | .powerStateOff id => id.wf
  | .powerEntryFetchStop => true
  | .mwWfi => true
  | .powerEntryMwTimeout => true
  | .powerEntryEnd => true
  | .idleEnter => true
  | .voteIdleHoldExpiry d => decide (d < 30)
  | .prewakeHoldExpiry d => decide (d < 30)
  | .domainWakeDone d => decide (d < 30)
  | .wakeNEdge => true
  | .aoWakeTimerExpiry => true
  | .usbAttach => true
  | .i3cIbiWake => true
  | .pgoodTimeout => true
  | .xtalMwTimeout => true
  | .pllLockTimeout => true
  | .wakeRetryDelayEnd => true
  | .railPgRise n _ => decide (n < 8)
  | .railPgFall n => decide (n < 8)
  | .aoBrownout => true
  | .vddAoInLow => true
  | .xtalAoSwitch => true
  | .thermalThrottle => true
  | .thermalThrottleClear => true
  | .thermalAlert => true
  | .thermalAlertClear => true
  | .fwStage id => id.wf
  | .fwCommit id => id.wf
  | .fwCommitGolden id => id.wf
  | .goldenCopyEnd _ => true
  | .fwAbandon id => id.wf
  | .budgetWrite id _ => id.wf
  | .budgetQuery id => id.wf
  | .sensorRead id _ => id.wf
  | .trayStatus id => id.wf
  | .trayVerify id => id.wf
  | .grantPolicy id => id.wf
  | .brakeStatus id => id.wf
  | .brakePending id => id.wf
  | .valveSet id => id.wf
  | .valveQuery id => id.wf
  | .valveConfig id => id.wf
  | .slotSetEnable id => id.wf
  | .slotSetDisable id => id.wf
  | .slotQuery id => id.wf
  | .slotSelf id => id.wf
  | .positionPresentConfirm n => decide (n < 8)
  | .positionVerify n _ _ svn => decide (n < 8) && optLt svn 65536
  | .verifyEnd n _ => decide (n < 8)
  | .reflashEnd n _ _ => decide (n < 8)
  | .reflashWindowExpiry n => decide (n < 8)
  | .sidebandRelease => true
  | .sidebandResume => true
  | .releaseTimeout => true
  | .sidebandStatusRead => true
  | .usbSubmit tag pkt input => decide (tag < 65536) && decide (pkt.length = 16) && decide (input.length ≤ 4096)
  | .usbFetch tag m => decide (tag < 65536) && decide (m < 65516)
  | .usbBusReset => true
  | .usbEnableWrite val => decide (val < 2 ^ 32)
  | .leakSample ch _ _ _ => decide (ch < 8)
  | .settleWindowEnd => true
  | .blankInRise => true
  | .blankInFall => true
  | .blankCapExpiry => true
  | .blankGuardEnd => true
  | .interlockContactChange ilk _ _ => decide (ilk < 4)
  | .discrepancyTimeout ilk => decide (ilk < 4)
  | .outputCheckFault pins => decide (pins < 4)
  | .configParityError => true
  | .holdSupplyLoss _ => true
  | .brakeRstFall => true
  | .brakeRstRise => true
  | .brakeRstStuck => true
  | .valvePullinEnd n => decide (n < 8)
  | .valveDeferTimeout n => decide (n < 8)
  | .hsFault g => decide (g < 4)
  | .slotPgRise n => decide (n < 8)
  | .slotPgFall n => decide (n < 8)
  | .slotPoweringTimeout n => decide (n < 8)
  | .slotDisableTimeout n => decide (n < 8)
  | .slotPgLoss n => decide (n < 8)
  | .slotPrsntLoss n => decide (n < 8)
  | .monConfig id _ => id.wf
  | .monSnapshot id => id.wf
  | .monClear id => id.wf
  | .monitorPeriodExpiry m reading => decide (m < 64) && decide (reading < 2 ^ 32)
  | .xtalMwReady => true
  | .pllLock => true
  | .interlockFaultClear ilk => decide (ilk < 4)
  | .hsFaultClear g => decide (g < 4)
  | .sidebandInBandInterrupt n _ => decide (n < 8)
  | .bundleIssue _ stone index _ => decide (stone < 256) && decide (index < 2 ^ 32)

end Sys2Proof
end

