-- ==== Sys2Proof/Tests/Slice0.lean ====
section
/-! SUPPORT. The model's own tests: small states, ill-formed commands that the checks refuse, the manual's worked examples,
and a witness for the hypotheses of every clause of every statement. -/

set_option Elab.async false
set_option maxRecDepth 20000
set_option linter.unusedVariables false

open Sys2Proof.Machine

/-! ### Small states and commands -/

namespace Sys2Proof.Tests

/-- The command the witnesses run: tag 1 of the PF. -/
def I : CmdId := ⟨.pcie 0, 1⟩

/-- A command of an opcode with its dwords. -/
def K (op : Opc) (p : List Nat) : Cmd := { id := I, op, pkt := p.map (BitVec.ofNat 32) }

/-- A mill in RUN with its firmware awake and its host interface open, 1,000 s after reset. -/
def B : State :=
  { State.reset with
    core := { t := 1000000000000, time := 1000, timeValid := true, role := .mill, roleStat := .mill, member := some 5 }
    hif := { accept := true }
    pwr := { state := .run, pll := true, perst := false, endpoint := true,
             railEn := [true, true, true, true, true, true, true, true] }
    mwr := { st := .primary } }

/-- The same device as a granary. -/
def G : State := { B with core := { B.core with role := .granary, roleStat := .granary }, grn := { ready := true } }

/-- A state with a command to run. -/
def on (s : State) (c : Cmd) : State := { s with hif := { s.hif with cmds := [c] } }

/-- The state with its model clock at a time. -/
def at_ (t : Nat) (s : State) : State := { s with core := { s.core with t } }

/-- A domain of this member, 5, and a granary, 9, that is UP. -/
def Dm : Dom :=
  { join := .member, id := 77, members := [(5, ⟨1, 0⟩), (9, ⟨2, 0⟩)], peers := [(9, { state := .up, role := 2 })] }

/-- A message head of member 9. -/
def Hd : MsgHead := { src := .flume 0, sender := 9, domain := 77, inc := 1, crcOk := true }

/-- A domain held by a mill with its own member table. -/
def Hb : HbBody :=
  { digest := 0, major := 0, minor := 0, patch := 0, role := 2, timeSuspect := false, asleep := false, leaving := false,
    t3 := 0, t1 := 0, t2 := 0 }

/-- A port. -/
def port_ (p : Port) : State := { B with prt := { ports := [(7, p)] } }

/-- A Flume port that is UP. -/
def Fl : Port := { mode := .flume, state := .up }

/-- The control word of an idle flit. -/
def Cw : Ctl := { type := 0, vc := 0, start := 255, ack := 0, nak := none, crVc := 0, crTotal := 0 }

/-- A queue pair of the PF. -/
def Q : Qp :=
  { fn := 0, mode := 0, port := 0, asid := 7, sendCq := 3, recvCq := 3, srq := none, sk := 6, rk := 6,
    sring := ⟨7, 0, 4096, [⟨.hbm, 0, 4096, 0⟩]⟩, rring := none }

/-- An address space of the PF with four pages of HBM. -/
def Sp : Space := { fn := 0, extents := [⟨0, .p2M, 4, .hbm, 0, true⟩] }

/-- The base state with that address space, and the PF's BAR4 window in it. -/
def Bm : State := { B with mem := { spaces := [(7, Sp)] }, hif := { B.hif with feats := [(0x44 * 2 ^ 32, 8)] } }

/-- A run of HBM, translated. -/
def Hm (a n : Nat) : Held := ⟨7, a, n, [⟨.hbm, a, n, 0⟩]⟩

/-- The generator of P-384 (FIPS 186-4), as an admin key. -/
def P384x : Nat := 0xAA87CA22BE8B05378EB1C71EF320AD746E1D3B628BA79B9859F741E082542A385502F25DBF55296C3A545E3872760AB7
/-- Its y. -/
def P384y : Nat := 0x3617DE4A96262C6F5D9E98BF9292DC29F8F41DBD289A147CE9DA3113B5F0B8C00A60B1CE1D7E819D7A431D7C90EA0E5F

/-- A member table of one mill, this device, at bus address 0. -/
def Tb : Bus :=
  { host := ((leBytes 4 77 ++ leBytes 2 1 ++ leBytes 10 0 ++ beBytes 48 P384x ++ beBytes 48 P384y ++ leBytes 1 5 ++ leBytes 1 1 ++
    leBytes 30 0).zipIdx.filter fun p => decide (p.1 ≠ 0)).map fun p => (p.2, p.1) }

/-- A result of a function that may refuse, from its value. -/
theorem ok_of {α β : Type} {e : Except α β} {b : β} (h : e.toOption = some b) : e = .ok b := by
  cases e <;> simp_all [Except.toOption]

/-- A refusal, from its value. -/
theorem error_of {α β : Type} {e : Except α β} {a : α} (h : (match e with | .error x => some x | .ok _ => none) = some a) :
    e = .error a := by
  cases e <;> simp_all

/-- The base state whose level 4 table of address space 7 is poisoned. -/
def Bp : State := { Bm with mem := { Bm.mem with bad := [(tableLine Bm 7 4 0, true)] } }

theorem bad_table_of_Bp : badTable Bp 7 0 1 = some (4, tableLine Bm 7 4 0) := by
  have h : tableLine Bp 7 4 0 = tableLine Bm 7 4 0 := rfl
  have g : Bp.mem.bad = [(tableLine Bm 7 4 0, true)] := rfl
  simp [badTable, h, g, Tbl.has, Tbl.get]

/-- A race of the PF with rings of 16 slots in HBM. -/
def Rc : Race :=
  { fn := 0, hrate := 3, trate := 3, tframe := 1, tcheck := false, engine := 0, tailStart := 0, jitter := 0,
    inRing := Hm 0x100000 36864, inLog := 4, outRing := Hm 0x120000 36864, outLog := 4, anchor := 0, h := 0, w := 0 }

/-- The base state with that race as race 2,047. -/
def Br (r : Race) : State := { B with whl := { races := [(2047, r)] }, dom := { timeSuspect := false } }

/-- An image of one floor whose stone 0 has two bundles, the second of which sets a reserved bit. -/
def Im : Image :=
  { fn := 0
    bytes := Bus.bytes { host := [(0x0C, 2), (0x80, 1), (0x89, 1), (0x91, 1), (0xA0, 2), (0xA9, 2), (0xB0, 64), (0x108, 2), (0x220, 8)] } 0 0x240
    kib := 1, gang := 0, flags := 3, useMask := 1, version := 1, saveBytes := 0, wc := 100, arenaBytes := 0, segs := [],
    binds := [⟨0, 1, 64⟩, ⟨1, 4, 96000⟩]
    descs := [⟨1, 0, 0, 64, 0, 1, 0⟩, ⟨2, 0, 0, 64, 0, 1, 0⟩, ⟨3, 1, 0, 64, 0, 1, 0⟩, ⟨4, 9, 0, 16, 0, 1, 0⟩]
    static := [(0, Hm 0 64)] }

/-- A running item of sail 3 of turn 63 on that image, with one DMA slot. -/
def It (slot : Nat) : Item :=
  { fn := 0, owner := .sail 63 3, chain := some 255, image := 1023, gang := 7, due := 0, state := .running, floors := 1,
    beds := [(0, { slots := [⟨slot, 0⟩] })] }

/-- A bundle whose runner slot issues the audio descriptor. -/
def Vb : Nat := 0x203 * 2 ^ 160

/-- A bed whose buffer holds that bundle. -/
def Bb : Bed := { buf := [Vb] }

/-- The item with that bed. -/
def Ii : Item := { It 0 with beds := [(0, Bb)] }

/-- What a bundle that writes scalar register 3 does. -/
def Fx : BundleFx := { scalar := ⟨[2], [], [], [(3, 7)], [], []⟩, vector := ⟨[], [], [], [], [], []⟩, control := [], afterRun := false }

/-- A bed to which its part of the spur schedule of the image has come. -/
def Bq : Bed := { spur := (spurPart Im 0).2 }

theorem spur_in_Bq : Bq.spurIn Im 0 = true := by simp [Bed.spurIn, Bq]

/-- A turn of race 2,047 with a sail. -/
def Tn (st : TurnState) (v : Sail) : Turn := { state := st, fn := 0, race := 2047, sails := [(3, v)] }

/-- A state with the image, its chain, the race, the turn and an item. -/
def Bi (i : Item) (x : Turn) : State :=
  { Br Rc with
    stn := { images := [(1023, Im)], chains := [(255, ⟨0, [1023], [], [], 0⟩)] }
    trn := { turns := [(63, x)], items := [(5, i)], nextItem := 6 } }

/-- The same without items. -/
def Bt (x : Turn) : State := { Bi (It 0) x with trn := { turns := [(63, x)] } }

/-- A completion queue of the PF. -/
def Cr : RCq := { fn := 0, k := 4, ring := Hm 0 512, vector := 0, eventq := false }

/-- A shared receive queue of the PF. -/
def Sr : Srq := { fn := 0, k := 4, ring := Hm 0 1024, asid := 7, cq := 3, limit := 0 }

/-- A registered region of the PF. -/
def Mk : MemKey := { fn := 0, va := 0, len := 4096, rd := true, wr := true, tag := 0, asid := 7 }

/-- The base state with an RDMA engine and the PF's address space. -/
def Rb (r : Rdm) : State := { Bm with rdm := r, prt := { ports := [(7, { mode := .ethernet, state := .up })] } }

/-- The base state with queue pair 16,383. -/
def Qb (q : Qp) : State := Rb { qps := [(16383, q)], cqs := [(3, Cr)] }

/-- A posted work request of 64 bytes, its packet the last of the sequence space. -/
def Wk : Wr :=
  { op := 1, flags := 0, imm := 0, wrId := 0, len := 64, remote := 0, key := 0, held := Hm 0 64, num := 0,
    psn := 0xFFFFFF, npsn := 1, rung := 0 }

/-- Work request entry bytes: an operation and 64 bytes at address 0. -/
def We (op : Nat) : List Byte := leBytes 24 op ++ leBytes 4 64 ++ leBytes 36 0

/-- A SEND arriving on port 7 for queue pair 16,383. -/
def Rq : RoceIn :=
  { port := 7, rc := true, icrc := true, known := true, ce := false, qpn := 16383, psn := 0xFFFFFF, npsn := 1,
    send := some [1], imm := none, solicited := false }

/-- A bin of 2 MB in carve 63, generation 1, held by this device. -/
def Bn : Bin := { state := .allocated, size := 21, carve := 63, pair := 7, gen := 1, owner := 5, home := 5 }

/-- A granary with a DDR5 pair, carve 63, and a bin and its tally record at the last index. -/
def Gs (b : Bin) (r : TRec) : State :=
  { G with
    mem := { pairs := [(7, { state := .up, dpc := 1 })], spaces := [(7, Sp)] }
    grn := { ready := true, ownHome := true, dir := [(4194303, b)], carves := [(63, ⟨1024, 60, 32⟩)] }
    tly := { recs := [(4194303, r)] } }

/-- A tally record whose two copies agree. -/
def Tr (c : Counts) : TRec := { a := c, b := c }

/-- A map of a member. -/
def Mp (m : Nat) : BinMap := ⟨m, false, 2000, false, none, 0⟩

/-- A bin command's packet: the handle of the last bin, and the dwords from 12 on. -/
def Hk (op : Opc) (p : List Nat) : Cmd := K op ([0, 0x3FFFFF, 0x05FC0004] ++ p)

/-- A request of queue pair 16,383 to a granary. -/
def Gq : GReq :=
  { port := 7, check := true, qpn := 16383, psn := 5, write := false, va := 0x05FC0004003FFFFF, key := 0, len := 64, stall := false,
    poison := false, data := [], dirA := false, dirB := false }

/-- Member 9's hopper queue pair. -/
def Hp : Qp := { Q with mode := 1, member := 9, state := .rtr, rqPsn := 5 }

/-- An Ethernet port 7 that is UP. -/
def Pe : Prt := { ports := [(7, { mode := .ethernet, state := .up })] }

/-- A tray steward whose position 7 has a state. -/
def St (p : Position) : State := { B with mwr := { st := .primary, steward := true, pos := [(7, p)] } }

/-- The base state with a brake path. -/
def Bk (b : Brk) : State := { B with brk := b }

/-- The same of a tray steward. -/
def Bs (b : Brk) : State := { St { state := .healthy } with brk := b }

/-- A MW_MAILBOX command of a class. -/
def Mb (p : List Nat) : Cmd := K .mwMailbox ([0, 0] ++ p)

/-- A monitor of the PF on a sensor. -/
def Mo : Mon := { fn := 0, source := 9, scale := 0, clearOnSnap := false, lo := 0, w := 1, edges := [], filtA := 8, filtB := 1 }

/-- Eight leak channels of one state. -/
def L8 (l : Leak) : Tbl Leak := (List.range 8).map fun n => (n, l)

/-! ### The manual's worked examples -/

/-- The nine ASCII bytes of R346. -/
def nine : List Byte := [0x31, 0x32, 0x33, 0x34, 0x35, 0x36, 0x37, 0x38, 0x39]

/-- The check values of the table of R346. -/
theorem test_crc_fixed :
    crc (fixedCrc 0) nine = 0x29B1 ∧ crc (fixedCrc 1) nine = 0xCBF43926 ∧ crc (fixedCrc 2) nine = 0xE3069283 ∧
      crc (fixedCrc 3) nine = 0x995DC9BBDF1939FA := by decide +kernel

/-- The free-mode example after R347. -/
theorem test_crc_free : crc ⟨8, 7, 0, false, false, 0⟩ nine = 0xF4 := by decide +kernel

/-- The handle of 00, "a help-line agent's figures". -/
theorem test_handle : mkHandle 3 5 0x0102 0xA4C = 0x0314040800000A4C := by decide

/-- The conversions of 03, "a 24 kHz help-line race": positions to times and back. -/
theorem test_race_times :
    timeOf 5000000000000 16000 1600000 = 5100000000000 ∧ timeOf 5000000000000 24000 1 = 5000000041667 ∧
      posAt 5000000000000 24000 5000000041667 = 1 := by decide

/-- The reports of the same case: P is 960 at 120 ms and 22,080 at 1 s, so the slack is 15,840 and 1,920. -/
theorem test_race_slack :
    slackOf { Rc with trate := 2, w := 16800, real := some (480, 100000000), tstate := .live } 120000000 = 15840 ∧
      slackOf { Rc with trate := 2, w := 24000, real := some (480, 100000000), tstate := .live } 1000000000 = 1920 := by
  decide

/-- The example after R156: M = N = 512, in FP8 and BF16. -/
theorem test_matmul_cycles :
    matmulCycles (1 + 511 * 2 ^ 8 + 511 * 2 ^ 21 + 255 * 2 ^ 34) = 8192 ∧
      matmulCycles (1 + 511 * 2 ^ 8 + 511 * 2 ^ 21 + 511 * 2 ^ 34) = 16384 ∧
      matmulCycles (1 + 3 * 2 ^ 4 + 511 * 2 ^ 8 + 511 * 2 ^ 21 + 255 * 2 ^ 34) = 16384 := by decide

/-- The example after R158: stone 0 to stone 35 in XY order, three hops east and then two north. -/
theorem test_spur_route :
    routeOf 0 35 false = [0 * 4, 1 * 4, 2 * 4, 3 * 4 + 2, 19 * 4 + 2] := by decide

/-- The worked word of 07: its check byte, the corrected bit, the merged word and the decoder fault. -/
theorem test_ocp_word :
    ocpCheck 1 5 = 0x02 ∧ (OWord.mk 3 0x02 false).classAt 5 = (.ceData 1, 0x0B) ∧ ocpCheck 0xAB01 5 = 0x24 ∧
      (OWord.mk 1 0x01 false).classAt 5 = (.ueAddress, 0x03) := by decide +kernel

/-- The example after R375: the granary runs 800 ns ahead. -/
theorem test_offset : hbOffset { Hb with t1 := 1000000, t2 := 1000900, t3 := 1001000 } 1000300 = 800 := by decide

/-- The fold of 09's worked case: response 37 of a read of bin 0xA4C from offset 0x10_0000. -/
theorem test_fold : foldAddr 1 0x0314040800000A4C 0x100000 + 4096 * 37 = 0x29300125000 := by decide

/-- The release of 16's worked case, 0.6 s and 0.8 s presses: both lie between 100 ms and 2 s, and the first is refused since a
rope is not dry, reason 3 (R462). -/
theorem test_brake_press :
    holdRefusal ⟨999400000000, false, false⟩ (Bk { lockout := true, settle := none, leaksP := L8 { state := .wet } }) = 3 ∧
    (match execBrakeRstRise (Bk
        { lockout := true, settle := none, leaksP := L8 { state := .dry }, hold := some ⟨999200000000, false, false⟩ }) with
      | .next t => !t.brk.set | _ => false) = true := by decide +kernel

/-! ### The queue and the words -/

/-- Commands leave the queue first in, first out (log entry 1). -/
theorem test_queue :
    (match step { B with pending := [.brakeRstFall, .perstNDeassert] } with
      | .next t => decide (t.pending = [.perstNDeassert]) && t.brk.hold.isSome | _ => false) = true := by decide +kernel

/-- With no command waiting a nanosecond passes (log entry 1). -/
theorem test_idle : (match step B with | .next t => decide (t.core.t = B.core.t + 1) | _ => false) = true := by decide +kernel

/-- No word spells a command. -/
theorem test_no_words : decodeTableWord 16 5 = none ∧ B.withFetchWord 16 5 = B := by decide +kernel

/-! ### The package -/

/-- No two board pins share a ball, and every one is a ball of the board rows (R493, R494). -/
theorem test_pins :
    (allPins.map Pin.ball).Nodup ∧ (allPins.all fun p => isBall p.ball.1 p.ball.2 && decide (groupAt p.ball.1 p.ball.2 = .board)) = true := by
  decide +kernel

/-- Row 20 is AA and row 90 is DP: the letters leave out I, O, Q, R, S, X and Z (R493). -/
theorem test_rows : rowName 19 = "Y" ∧ rowName 20 = "AA" ∧ rowName 90 = "DP" := by decide +kernel

/-! ### Ill-formed commands: one for each check of each row, all else in order -/

theorem test_wf_refuses_1 :
    ([ .coldReset [], .ctlPlaneReset (.host 16 0), .datPlaneReset (.host 16 0), .mgtPlaneReset (.host 16 0),
      .lockstepMismatch 0, .lockstepMismatch 8, .watchdogKick (2 ^ 32), .datNoProgressTimeout 1,
      .datNoProgressTimeout 11, .stoneFenceRequest (some 256) false, .portModeRequest (some 8) 0 false,
      .portModeRequest none 3 false, .dimmBistRequest (some 8), .sqTailDoorbell 16 0 0, .sqTailDoorbell 0 256 0,
      .sqTailDoorbell 0 0 (2 ^ 32), .cqHeadDoorbell 16 0 0, .cqHeadDoorbell 0 256 0, .cqHeadDoorbell 0 0 (2 ^ 32),
      .commandFetch 256 ⟨none, none, true⟩ [], .commandFetch 0 ⟨some [], none, true⟩ [], .commandFetch 0 ⟨none, none,
      true⟩ (List.replicate 4097 0), .fencedCommandStart ⟨.usb, 65536⟩, .stallResume ⟨.usb, 65536⟩, .stallTimeout
      ⟨.usb, 65536⟩, .cqCoalesceTimeout 256, .queueCreate 16, .queueDelete 16, .sqDeleteDone 256, .vfQrangeWrite 16 1
      0, .vfQrangeWrite 0 0 0, .vfQrangeWrite 0 16 0, .vfQrangeWrite 0 1 (2 ^ 32), .registerWrite (some 16) 0 none,
      .registerWrite none (2 ^ 24) none, .registerWrite none 2 none, .registerWrite none 0 (some (2 ^ 32)), .flrVf 0,
      .flrVf 16, .nop ⟨.usb, 65536⟩ ] : List Instr).all (fun i => !i.wf) = true := by decide +kernel

theorem test_wf_refuses_2 :
    ([ .identify ⟨.usb, 65536⟩, .getLog ⟨.usb, 65536⟩, .eventWaitTimeout ⟨.usb, 65536⟩, .setFeature ⟨.usb, 65536⟩,
      .getFeature ⟨.usb, 65536⟩, .abort ⟨.usb, 65536⟩, .raceOpen ⟨.usb, 65536⟩, .raceClose ⟨.usb, 65536⟩, .raceAnchor
      ⟨.usb, 65536⟩, .playoutReport ⟨.usb, 65536⟩, .cogSet ⟨.usb, 65536⟩, .cogClear ⟨.usb, 65536⟩, .raceQuery ⟨.usb,
      65536⟩, .ingressSeqWrite 2048 0 0, .ingressSeqWrite 0 4096 0, .ingressSeqWrite 0 0 (2 ^ 64), .reportSlotWrite
      2048 ⟨0, none⟩, .reportSlotWrite 0 ⟨2 ^ 32, none⟩, .reportSlotWrite 0 ⟨0, some (2 ^ 24)⟩, .tailReadSeqWrite
      2048 0, .tailReadSeqWrite 0 (2 ^ 64), .cogDueExpiry 2048 0, .cogDueExpiry 0 16, .dryDueExpiry 2048, .turnBegin
      ⟨.usb, 65536⟩, .sailRaise ⟨.usb, 65536⟩, .sailSet ⟨.usb, 65536⟩, .sailFurl ⟨.usb, 65536⟩, .turnEnd ⟨.usb,
      65536⟩, .furlStonesIdle 64 none, .furlStonesIdle 0 (some 4), .sailDrainEnd 64 0, .sailDrainEnd 0 4,
      .arenaZeroFillEnd (2 ^ 38), .tailFrameRelease 64 0, .tailFrameRelease 0 5, .heldWriteRelease 64 0 none,
      .heldWriteRelease 0 5 none, .heldWriteRelease 0 0 (some 256), .imageLoad ⟨.usb, 65536⟩ {} ] : List Instr).all
      (fun i => !i.wf) = true := by decide +kernel

theorem test_wf_refuses_3 :
    ([ .imageUnload ⟨.usb, 65536⟩, .imageQuery ⟨.usb, 65536⟩, .chainBind ⟨.usb, 65536⟩ {}, .chainUnbind ⟨.usb,
      65536⟩, .stoneFence ⟨.usb, 65536⟩, .stoneReinstate ⟨.usb, 65536⟩, .reinstateBistEnd 256 false, .matmul 0 256
      ⟨0, [], 0, 0⟩, .matmulAcc 0 256 ⟨0, [], 0, 0⟩, .dmaRead 0 256 {} (.ok []), .dmaWrite 0 256 (.ok []),
      .dmaTailFrame 0 256 false, .dmaVoiced 0 256, .dmaDescriptorDone 0 256, .spurSend 0 256 ⟨0, 0, 0, false, 1, 0⟩,
      .spurSend 0 0 ⟨0, 0, 256, false, 1, 0⟩, .gristBoundary 0 (2 ^ 24), .map ⟨.usb, 65536⟩, .unmap ⟨.usb, 65536⟩,
      .unmapDestroy ⟨.usb, 65536⟩, .xlateInvalidate ⟨.usb, 65536⟩, .invalidateDrainEnd ⟨.usb, 65536⟩, .copy ⟨.usb,
      65536⟩, .copyDone ⟨.usb, 65536⟩ {}, .bar4Write 16 0 [0], .bar4Write 0 (2 ^ 36) [0], .bar4Write 0 0 [],
      .bar4Read 16 0 1 {}, .bar4Read 0 (2 ^ 36) 1 {}, .bar4Read 0 0 0 {}, .hopperReadComplete 2048 0 0 (.ok []),
      .hopperReadComplete 0 16 0 (.ok []), .hopperReadComplete 0 0 (2 ^ 30) (.ok []), .ddrPairFault 8 0,
      .ddrPairFault 0 16, .ddrBistFillEnd 8 false, .patrolScrub 144 [], .patrolScrub 0 [(2 ^ 61, false)], .memProbe
      (2 ^ 32), .partialWrite 260 0 ⟨0, 0⟩ none ] : List Instr).all (fun i => !i.wf) = true := by decide +kernel

theorem test_wf_refuses_4 :
    ([ .partialWrite 0 (2 ^ 21) ⟨0, 0⟩ none, .partialWrite 0 0 ⟨256, 0⟩ none, .partialWrite 0 0 ⟨0, 2 ^ 64⟩ none,
      .mergeAgeFlush 260 0, .mergeAgeFlush 0 32, .mergeIdleFlush 260 0, .mergeIdleFlush 0 32, .fullWordWrite 260 0 0,
      .fullWordWrite 0 (2 ^ 21) 0, .fullWordWrite 0 0 (2 ^ 64), .spareRemap 260 0, .spareRemap 0 32, .scrubVisit 260
      0 [] [] [], .scrubVisit 0 32 [] [] [], .scrubVisit 0 0 [(2 ^ 21, 0)] [] [], .scrubVisit 0 0 [(0, 2 ^ 64)] []
      [], .scrubVisit 0 0 [] [(2 ^ 21, 0)] [], .scrubVisit 0 0 [] [(0, 2 ^ 8)] [], .scrubVisit 0 0 [] [] [2 ^ 21],
      .scrubLapLimitExpiry 260, .ocpInjectArm 16 0, .ocpInjectArm 0 (2 ^ 32), .ocpRemapLoad (2 ^ 32), .portMode
      ⟨.usb, 65536⟩, .portRetrain ⟨.usb, 65536⟩, .flitSend 8 [], .flitSend 0 [⟨256, false, []⟩], .flitReceive 8
      (List.replicate 4 (List.replicate 64 0)), .flitReceive 0 [], .flitReceive 0 [[], [], [], []], .nakResendTimeout
      8 0, .nakResendTimeout 0 4096, .retryWindowExpiry 8, .lossOfSignal 8, .ethLinkFault 8, .trainingPrbsPass 8,
      .trainingTimeout 8, .paramExchange 8 ⟨0, 0, 0, [0, 0, 0, 0], 0, 0, none⟩, .paramExchange 0 ⟨256, 0, 0, [0, 0,
      0, 0], 0, 0, none⟩, .holdExpiry 8 ] : List Instr).all (fun i => !i.wf) = true := by decide +kernel

theorem test_wf_refuses_5 :
    ([ .ethLinkUp 8, .ethFrameReceive 8 ⟨64, 0, false, [], 0, 0, true⟩, .ethFrameReceive 0 ⟨64, 0, false, [(8, 0)],
      0, 0, true⟩, .rocePacketReceive { Rq with port := 8 }, .cnpReceive 16384, .ccPeriodExpiry 16384, .ptpMessage 8
      0 false, .ptpMessage 0 (2 ^ 68) false, .qpCreate ⟨.usb, 65536⟩, .qpModifyReset ⟨.usb, 65536⟩, .qpModifyInit
      ⟨.usb, 65536⟩, .qpModifyRtr ⟨.usb, 65536⟩, .qpModifyRts ⟨.usb, 65536⟩, .qpModifyMove ⟨.usb, 65536⟩,
      .qpModifyDrain ⟨.usb, 65536⟩, .qpModifyError ⟨.usb, 65536⟩, .qpDrainEnd 16384, .qpDestroy ⟨.usb, 65536⟩,
      .srqCreate ⟨.usb, 65536⟩, .srqSetLimit ⟨.usb, 65536⟩, .cqCreate ⟨.usb, 65536⟩, .cqDestroy ⟨.usb, 65536⟩,
      .mrRegister ⟨.usb, 65536⟩, .mrDeregister ⟨.usb, 65536⟩, .windowBind ⟨.usb, 65536⟩ {}, .windowUnbind ⟨.usb,
      65536⟩, .rdmaSqDoorbell 16 0 {}, .rdmaSqDoorbell 0 (2 ^ 64) {}, .rdmaRqDoorbell 16 0 {}, .rdmaRqDoorbell 0 (2 ^
      64) {}, .rdmaSrqDoorbell 16 0 {}, .rdmaSrqDoorbell 0 (2 ^ 64) {}, .rdmaCqDoorbell 16 0, .rdmaCqDoorbell 0 (2 ^
      64), .wrSend 16384 {}, .wrSendImm 16384 {}, .wrWrite 16384 {}, .wrWriteImm 16384 {}, .wrRead 16384 {}, .wrRecv
      false 16384 ] : List Instr).all (fun i => !i.wf) = true := by decide +kernel

theorem test_wf_refuses_6 :
    ([ .inboundKeyRequest ⟨8, 0, true⟩ 0 false 0 0 0 [] none {}, .inboundKeyRequest ⟨0, 2 ^ 24, true⟩ 0 false 0 0 0
      [] none {}, .inboundKeyRequest ⟨0, 0, true⟩ (2 ^ 24) false 0 0 0 [] none {}, .inboundKeyRequest ⟨0, 0, true⟩ 0
      false (2 ^ 64) 0 0 [] none {}, .inboundKeyRequest ⟨0, 0, true⟩ 0 false 0 0 (2 ^ 30 + 1) [] none {}, .ackReceive
      ⟨8, 0, true⟩ 0 .ok, .ackReceive ⟨0, 2 ^ 24, true⟩ 0 .ok, .ackReceive ⟨0, 0, true⟩ (2 ^ 24) .ok,
      .statusNakReceive ⟨8, 0, true⟩ 0 0 0, .statusNakReceive ⟨0, 2 ^ 24, true⟩ 0 0 0, .statusNakReceive ⟨0, 0, true⟩
      (2 ^ 24) 0 0, .localAckTimeout 16384, .rnrTimerExpiry 16384, .carveCreate ⟨.usb, 65536⟩, .carveUpdate ⟨.usb,
      65536⟩, .carveDelete ⟨.usb, 65536⟩, .binAlloc ⟨.usb, 65536⟩, .binFree ⟨.usb, 65536⟩, .binZeroFillEnd 4194304,
      .binMap ⟨.usb, 65536⟩, .binUnmap ⟨.usb, 65536⟩, .leaseRenew ⟨.usb, 65536⟩, .leaseExpiry 4194304 0, .leaseExpiry
      0 256, .mapDrainEnd 4194304 0, .mapDrainEnd 0 256, .mirrorEnable ⟨.usb, 65536⟩ none, .mirrorEnable I (some
      4194304), .mirrorDisable ⟨.usb, 65536⟩, .inboundGranaryRequest { Gq with qpn := 16384 }, .mirrorWriteArrival (2
      ^ 64) 0 [] false false false, .mirrorWriteArrival 0 (2 ^ 30) [] false false false, .mirrorAck 131072,
      .resilverChunk 4194304, .resilverChunkAck 4194304, .promoteCopies 256, .announceReceive
      { Hd with sender := 256 } 1 [], .announceReceive Hd 0 [], .announceReceive Hd 3 [], .announceReceive Hd 1 [256]
      ] : List Instr).all (fun i => !i.wf) = true := by decide +kernel

theorem test_wf_refuses_7 :
    ([ .noticeReceive { Hd with sender := 256 } 0 0 0 0 0, .noticeReceive Hd 256 0 0 0 0, .mapRecordExpiry (2 ^ 64)
      0, .mapRecordExpiry 0 16, .homeHandback 256, .nmwTailWrite (2 ^ 32) {}, .tallyQuery ⟨.usb, 65536⟩,
      .tallyPrepReset ⟨.usb, 65536⟩, .tallyConfirm ⟨.usb, 65536⟩, .operationExit 4194304 none 0 none, .operationExit
      0 (some 131072) 0 none, .operationExit 0 none 256 none, .tallyBackgroundScan 4194304 false false false none,
      .tallyBackgroundScan 0 false false false (some 65536), .sweepQueue 4194304, .sweepTokenPass 4194304,
      .confirmWindowExpiry 4194304, .chkClaim ⟨.usb, 65536⟩, .chkConfig ⟨.usb, 65536⟩, .chkRun ⟨.usb, 65536⟩,
      .chkRelease ⟨.usb, 65536⟩, .chkJobEnd 16 {}, .domainJoin ⟨.usb, 65536⟩ {}, .domainLeave ⟨.usb, 65536⟩,
      .domainStatus ⟨.usb, 65536⟩, .sleepVoteObject ⟨.usb, 65536⟩, .sleepVoteWithdraw ⟨.usb, 65536⟩, .sleepVoteWake
      ⟨.usb, 65536⟩, .heartbeatReceive { Hd with sender := 256 } Hb, .peerSuspectTimeout 256, .peerLostTimeout 256,
      .suspectReceive { Hd with sender := 256 } 0, .suspectReceive Hd 256, .leaveReceive { Hd with sender := 256 }
      false, .commandReceive { Hd with sender := 256 } 0 (List.replicate 16 0) none [] none, .commandReceive Hd 16
      (List.replicate 16 0) none [] none, .commandReceive Hd 0 [] none [] none, .replyReceive
      { Hd with sender := 256 } 0 0 0 0 0 false, .replyReceive Hd 16 0 0 0 0 false, .replyReceive Hd 0 65536 0 0 0
      false ] : List Instr).all (fun i => !i.wf) = true := by decide +kernel

theorem test_wf_refuses_8 :
    ([ .replyReceive Hd 0 0 32 0 0 false, .replyReceive Hd 0 0 0 (2 ^ 32) 0 false, .replyReceive Hd 0 0 0 0 (2 ^ 32)
      false, .forwardTimeout ⟨.usb, 65536⟩, .reassemblyTimeout (.flume 8) 0, .reassemblyTimeout (.flume 0) (2 ^ 32),
      .sleepProposeReceive { Hd with sender := 256 } 0, .sleepProposeReceive Hd (2 ^ 32), .sleepVoteMessage
      { Hd with sender := 256 } 0 0, .sleepVoteMessage Hd (2 ^ 32) 0, .sleepVoteMessage Hd 0 3, .sleepAgreedReceive
      { Hd with sender := 256 } 0 0, .sleepAgreedReceive Hd (2 ^ 32) 0, .sleepAgreedReceive Hd 0 (2 ^ 64),
      .sleepAbortReceive { Hd with sender := 256 } 0, .sleepAbortReceive Hd (2 ^ 32), .sleepAwakeReceive
      { Hd with sender := 256 }, .powerVotePlace ⟨.usb, 65536⟩, .powerVoteWithdraw ⟨.usb, 65536⟩, .powerQuery ⟨.usb,
      65536⟩, .powerStateRun ⟨.usb, 65536⟩, .powerStateSleep ⟨.usb, 65536⟩, .powerStateDeepSleep ⟨.usb, 65536⟩,
      .powerStateOff ⟨.usb, 65536⟩, .voteIdleHoldExpiry 30, .prewakeHoldExpiry 30, .domainWakeDone 30, .railPgRise 8
      false, .railPgFall 8, .fwStage ⟨.usb, 65536⟩, .fwCommit ⟨.usb, 65536⟩, .fwCommitGolden ⟨.usb, 65536⟩,
      .fwAbandon ⟨.usb, 65536⟩, .budgetWrite ⟨.usb, 65536⟩ false, .budgetQuery ⟨.usb, 65536⟩, .sensorRead ⟨.usb,
      65536⟩ 0, .trayStatus ⟨.usb, 65536⟩, .trayVerify ⟨.usb, 65536⟩, .grantPolicy ⟨.usb, 65536⟩, .brakeStatus ⟨.usb,
      65536⟩ ] : List Instr).all (fun i => !i.wf) = true := by decide +kernel

theorem test_wf_refuses_9 :
    ([ .brakePending ⟨.usb, 65536⟩, .valveSet ⟨.usb, 65536⟩, .valveQuery ⟨.usb, 65536⟩, .valveConfig ⟨.usb, 65536⟩,
      .slotSetEnable ⟨.usb, 65536⟩, .slotSetDisable ⟨.usb, 65536⟩, .slotQuery ⟨.usb, 65536⟩, .slotSelf ⟨.usb, 65536⟩,
      .positionPresentConfirm 8, .positionVerify 8 false false none, .positionVerify 0 false false (some 65536),
      .verifyEnd 8 none, .reflashEnd 8 none none, .reflashWindowExpiry 8, .usbSubmit 65536 (List.replicate 16 0) [],
      .usbSubmit 0 [] [], .usbSubmit 0 (List.replicate 16 0) (List.replicate 4097 0), .usbFetch 65536 0, .usbFetch 0
      65516, .usbEnableWrite (2 ^ 32), .leakSample 8 0 0 false, .interlockContactChange 4 false false,
      .discrepancyTimeout 4, .outputCheckFault 4, .valvePullinEnd 8, .valveDeferTimeout 8, .hsFault 4, .slotPgRise 8,
      .slotPgFall 8, .slotPoweringTimeout 8, .slotDisableTimeout 8, .slotPgLoss 8, .slotPrsntLoss 8, .monConfig
      ⟨.usb, 65536⟩ {}, .monSnapshot ⟨.usb, 65536⟩, .monClear ⟨.usb, 65536⟩, .monitorPeriodExpiry 64 0,
      .monitorPeriodExpiry 0 (2 ^ 32), .interlockFaultClear 4, .hsFaultClear 4 ] : List Instr).all (fun i => !i.wf) =
      true := by decide +kernel

theorem test_wf_refuses_10 :
    ([ .sidebandInBandInterrupt 8 false, .bundleIssue 0 256 0 Fx, .bundleIssue 0 0 (2 ^ 32) Fx ] : List Instr).all
      (fun i => !i.wf) = true := by decide +kernel

theorem test_wf_accepts_1 :
    ([ .coldReset (List.replicate 8 ⟨[], [], false, false⟩), .ctlPlaneReset .millwright, .datPlaneReset .millwright,
      .mgtPlaneReset .millwright, .lockstepMismatch 1, .watchdogKick 0, .datNoProgressTimeout 2, .stoneFenceRequest
      none false, .portModeRequest none 0 false, .dimmBistRequest none, .sqTailDoorbell 0 0 0, .cqHeadDoorbell 0 0 0,
      .commandFetch 0 ⟨none, none, true⟩ [], .fencedCommandStart I, .stallResume I, .stallTimeout I,
      .cqCoalesceTimeout 0, .queueCreate 0, .queueDelete 0, .sqDeleteDone 0, .vfQrangeWrite 0 1 0, .registerWrite
      none 0 none, .flrVf 1, .nop I, .identify I, .getLog I, .eventWaitTimeout I, .setFeature I, .getFeature I,
      .abort I, .raceOpen I, .raceClose I, .raceAnchor I, .playoutReport I, .cogSet I, .cogClear I, .raceQuery I,
      .ingressSeqWrite 0 0 0, .reportSlotWrite 0 ⟨0, none⟩, .tailReadSeqWrite 0 0, .cogDueExpiry 0 0, .dryDueExpiry
      0, .turnBegin I, .sailRaise I, .sailSet I, .sailFurl I, .turnEnd I, .furlStonesIdle 0 none, .sailDrainEnd 0 0,
      .arenaZeroFillEnd 0, .tailFrameRelease 0 0, .heldWriteRelease 0 0 none, .imageLoad I {}, .imageUnload I,
      .imageQuery I, .chainBind I {}, .chainUnbind I, .stoneFence I, .stoneReinstate I, .reinstateBistEnd 0 false ] :
      List Instr).all (fun i => i.wf) = true := by decide +kernel

theorem test_wf_accepts_2 :
    ([ .matmul 0 0 ⟨0, [], 0, 0⟩, .matmulAcc 0 0 ⟨0, [], 0, 0⟩, .dmaRead 0 0 {} (.ok []), .dmaWrite 0 0 (.ok []),
      .dmaTailFrame 0 0 false, .dmaVoiced 0 0, .dmaDescriptorDone 0 0, .spurSend 0 0 ⟨0, 0, 0, false, 1, 0⟩,
      .gristBoundary 0 0, .map I, .unmap I, .unmapDestroy I, .xlateInvalidate I, .invalidateDrainEnd I, .copy I,
      .copyDone I {}, .bar4Write 0 0 [0], .bar4Read 0 0 1 {}, .hopperReadComplete 0 0 0 (.ok []), .ddrPairFault 0 0,
      .ddrBistFillEnd 0 false, .patrolScrub 0 [], .memProbe 0, .partialWrite 0 0 ⟨0, 0⟩ none, .mergeAgeFlush 0 0,
      .mergeIdleFlush 0 0, .fullWordWrite 0 0 0, .spareRemap 0 0, .scrubVisit 0 0 [] [] [], .scrubLapLimitExpiry 0,
      .ocpInjectArm 0 0, .ocpRemapLoad 0, .portMode I, .portRetrain I, .flitSend 0 [], .flitReceive 0 (List.replicate
      4 (List.replicate 64 0)), .nakResendTimeout 0 0, .retryWindowExpiry 0, .lossOfSignal 0, .ethLinkFault 0,
      .trainingPrbsPass 0, .trainingTimeout 0, .paramExchange 0 ⟨0, 0, 0, [0, 0, 0, 0], 0, 0, none⟩, .holdExpiry 0,
      .ethLinkUp 0, .ethFrameReceive 0 ⟨64, 0, false, [], 0, 0, true⟩, .rocePacketReceive Rq, .cnpReceive 0,
      .ccPeriodExpiry 0, .ptpMessage 0 0 false, .qpCreate I, .qpModifyReset I, .qpModifyInit I, .qpModifyRtr I,
      .qpModifyRts I, .qpModifyMove I, .qpModifyDrain I, .qpModifyError I, .qpDrainEnd 0, .qpDestroy I ] : List
      Instr).all (fun i => i.wf) = true := by decide +kernel

theorem test_wf_accepts_3 :
    ([ .srqCreate I, .srqSetLimit I, .cqCreate I, .cqDestroy I, .mrRegister I, .mrDeregister I, .windowBind I {},
      .windowUnbind I, .rdmaSqDoorbell 0 0 {}, .rdmaRqDoorbell 0 0 {}, .rdmaSrqDoorbell 0 0 {}, .rdmaCqDoorbell 0 0,
      .wrSend 0 {}, .wrSendImm 0 {}, .wrWrite 0 {}, .wrWriteImm 0 {}, .wrRead 0 {}, .wrRecv false 0,
      .inboundKeyRequest ⟨0, 0, true⟩ 0 false 0 0 0 [] none {}, .ackReceive ⟨0, 0, true⟩ 0 .ok, .statusNakReceive ⟨0,
      0, true⟩ 0 0 0, .localAckTimeout 0, .rnrTimerExpiry 0, .carveCreate I, .carveUpdate I, .carveDelete I,
      .binAlloc I, .binFree I, .binZeroFillEnd 0, .binMap I, .binUnmap I, .leaseRenew I, .leaseExpiry 0 0,
      .mapDrainEnd 0 0, .mirrorEnable I none, .mirrorDisable I, .inboundGranaryRequest Gq, .mirrorWriteArrival 0 0 []
      false false false, .mirrorAck 0, .resilverChunk 0, .resilverChunkAck 0, .promoteCopies 0, .announceReceive Hd 1
      [], .noticeReceive Hd 0 0 0 0 0, .mapRecordExpiry 0 0, .homeHandback 0, .nmwTailWrite 0 {}, .tallyQuery I,
      .tallyPrepReset I, .tallyConfirm I, .operationExit 0 none 0 none, .tallyBackgroundScan 0 false false false
      none, .sweepQueue 0, .sweepTokenPass 0, .confirmWindowExpiry 0, .chkClaim I, .chkConfig I, .chkRun I,
      .chkRelease I, .chkJobEnd 0 {} ] : List Instr).all (fun i => i.wf) = true := by decide +kernel

theorem test_wf_accepts_4 :
    ([ .domainJoin I {}, .domainLeave I, .domainStatus I, .sleepVoteObject I, .sleepVoteWithdraw I, .sleepVoteWake I,
      .heartbeatReceive Hd Hb, .peerSuspectTimeout 0, .peerLostTimeout 0, .suspectReceive Hd 0, .leaveReceive Hd
      false, .commandReceive Hd 0 (List.replicate 16 0) none [] none, .replyReceive Hd 0 0 0 0 0 false,
      .forwardTimeout I, .reassemblyTimeout (.flume 0) 0, .sleepProposeReceive Hd 0, .sleepVoteMessage Hd 0 0,
      .sleepAgreedReceive Hd 0 0, .sleepAbortReceive Hd 0, .sleepAwakeReceive Hd, .powerVotePlace I,
      .powerVoteWithdraw I, .powerQuery I, .powerStateRun I, .powerStateSleep I, .powerStateDeepSleep I,
      .powerStateOff I, .voteIdleHoldExpiry 0, .prewakeHoldExpiry 0, .domainWakeDone 0, .railPgRise 0 false,
      .railPgFall 0, .fwStage I, .fwCommit I, .fwCommitGolden I, .fwAbandon I, .budgetWrite I false, .budgetQuery I,
      .sensorRead I 0, .trayStatus I, .trayVerify I, .grantPolicy I, .brakeStatus I, .brakePending I, .valveSet I,
      .valveQuery I, .valveConfig I, .slotSetEnable I, .slotSetDisable I, .slotQuery I, .slotSelf I,
      .positionPresentConfirm 0, .positionVerify 0 false false none, .verifyEnd 0 none, .reflashEnd 0 none none,
      .reflashWindowExpiry 0, .usbSubmit 0 (List.replicate 16 0) [], .usbFetch 0 0, .usbEnableWrite 0, .leakSample 0
      0 0 false ] : List Instr).all (fun i => i.wf) = true := by decide +kernel

theorem test_wf_accepts_5 :
    ([ .interlockContactChange 0 false false, .discrepancyTimeout 0, .outputCheckFault 0, .valvePullinEnd 0,
      .valveDeferTimeout 0, .hsFault 0, .slotPgRise 0, .slotPgFall 0, .slotPoweringTimeout 0, .slotDisableTimeout 0,
      .slotPgLoss 0, .slotPrsntLoss 0, .monConfig I {}, .monSnapshot I, .monClear I, .monitorPeriodExpiry 0 0,
      .interlockFaultClear 0, .hsFaultClear 0, .sidebandInBandInterrupt 0 false, .bundleIssue 0 0 0 Fx ] : List
      Instr).all (fun i => i.wf) = true := by decide +kernel

/-! ### A witness for each clause that has hypotheses, in the order of the statement's clauses -/

theorem test_wit_HostResets :
    (∃ (s : State), s.pwr.perst = false ∧ s.pwr.state = .run) ∧
    (∃ (s : State), s.pwr.perst = true) ∧
    (∃ (s : State), s.core.fill = true ∧ s.hif.accept = true) :=
  ⟨⟨B, by decide +kernel⟩,
    ⟨{B with pwr := {B.pwr with perst := true}}, by decide +kernel⟩,
    ⟨{B with core := {B.core with fill := true}}, by decide +kernel⟩⟩

theorem test_wit_PlaneResets :
    (∃ (s : State), s.pwr.pll = true ∧ s.mwr.running = true ∧ s.core.ctlReset = false) ∧
    (∃ (s : State) (val : Nat), s.pwr.pll = true ∧ bits val 31 16 = 0x5A5A ∧ bits val 2 0 = 1 ∧ s.core.ctlReset =
      false) ∧
    (∃ (s : State) (val : Nat), s.pwr.pll = true ∧ bits val 31 16 ≠ 0x5A5A ∧ bits val 2 0 ≠ 0) ∧
    (∃ (s : State), s.core.ctlReset = true) ∧
    (∃ (s : State) (val : Nat), s.pwr.pll = true ∧ bits val 31 16 = 0x5A5A ∧ bits val 2 0 = 2 ∧ s.core.datReset =
      false) ∧
    (∃ (s : State), s.pwr.pll = true ∧ s.mwr.running = true ∧ s.core.datReset = false) ∧
    (∃ (s : State), s.core.datReset = true ∧ s.core.datFatal = false) ∧
    (∃ (s : State) (val : Nat), s.pwr.pll = true ∧ bits val 31 16 = 0x5A5A ∧ bits val 2 0 = 4 ∧ s.mwr.st ≠ .reset) ∧
    (∃ (s : State) (source : Nat), s.pwr.pll = true ∧ s.core.datReset = false) ∧
    (∃ (s : State) (stone : Nat) (floor : Bool), s.mwr.running = true ∧ stone < 256) ∧
    (∃ (s : State) (stone : Nat) (floor : Bool) (f : Bool), s.pwr.up = true ∧ s.core.datReset = false ∧
      s.mail.mwToDat.front = some (.stoneFence stone floor) ∧ stonesBusy s (namedStones stone floor) = false) ∧
    (∃ (s : State) (stone : Nat) (floor : Bool) (f : Bool), s.pwr.up = true ∧ s.core.datReset = false ∧
      s.mail.mwToDat.front = some (.stoneFence stone floor) ∧ stonesBusy s (namedStones stone floor) = true) :=
  ⟨⟨B, by decide +kernel⟩,
    ⟨B, 0x5A5A0001, by decide +kernel⟩,
    ⟨B, 0x5A590007, by decide +kernel⟩,
    ⟨{B with core := {B.core with ctlReset := true}}, by decide +kernel⟩,
    ⟨B, 0x5A5A0002, by decide +kernel⟩,
    ⟨B, by decide +kernel⟩,
    ⟨{B with core := {B.core with datReset := true}}, by decide +kernel⟩,
    ⟨B, 0x5A5A0004, by decide +kernel⟩,
    ⟨B, 2, by decide +kernel⟩,
    ⟨B, 255, true, by decide +kernel⟩,
    ⟨{B with mail := {mwToDat := {items := [.stoneFence 255 false]}}}, 255, false, true, by decide +kernel⟩,
    ⟨{Bi (It 0) (Tn .speculating {}) with stn := {stones := [(255, {state := .fencing})]}, mail := {mwToDat := {items := [.stoneFence 255 false]}}},
      255, false, false, by decide +kernel⟩⟩

theorem test_wit_MillwrightMessages :
    (∃ (s : State), s.mwr.st = .reset ∧ s.pwr.pll = true) ∧
    (∃ (s : State), s.mwr.st = .recovery ∧ s.mwr.spiFloat = false ∧ s.mwr.bootAt + sec 1 ≤ s.core.t) ∧
    (∃ (s : State) (cls : Nat), s.mwr.st ≠ .reset ∧ s.mwr.wfi = false ∧ 1 ≤ cls ∧ cls ≤ 7) ∧
    (∃ (s : State), s.mwr.running = true ∧ s.mwr.kickAt + ms s.mwr.wdtMs ≤ s.core.t) ∧
    (∃ (s : State), s.mwr.running = true) ∧
    (∃ (s : State), monsOn s = true ∧ s.core.ctlReset = false ∧ s.mwr.whlAt + ms 10 ≤ s.core.t) ∧
    (∃ (s : State) (n : Nat) (races : Nat) (turns : Nat) (cmds : Nat), s.mwr.running = true ∧ ctlNext s = some
      (.heartbeat n races turns cmds)) ∧
    (∃ (s : State), s.mwr.running = true ∧ s.mwr.hbLost = false ∧ s.mwr.resetOnLoss = false ∧ max s.mwr.hbSeen
      s.mwr.bootAt + ms 100 ≤ s.core.t) ∧
    (∃ (s : State) (delta : Int) (rate : Int) (offset : Int) (synced : Bool), s.mwr.running = true) ∧
    (∃ (s : State) (delta : Int) (rate : Int) (offset : Int) (o : Int) (b : Bool), s.mail.mwToCtl.front = some
      (.timeAdjust delta rate offset true) ∧ ctlTakes s = true) ∧
    (∃ (s : State) (i : Nat), s.mwr.running = true ∧ s.mail.datToMw.front = some (.errorRecord i)) ∧
    (∃ (s : State) (i : Nat), s.mwr.running = true ∧ s.mail.datToMw.front = some (.planeFatal i)) ∧
    (∃ (s : State), s.pwr.up = true ∧ s.core.datReset = false) ∧
    (∃ (s : State), s.mwr.running = true ∧ s.mail.datToMw.front = some .sensorRequest) ∧
    (∃ (s : State) (id : CmdId) (c : Cmd), ctlNext s = some (.command id) ∧ findCmd s id = some c ∧ c.durable = false
      ∧ s.mwr.running = true ∧ pktAuth c.pkt ≠ 3 ∧ s.mwr.st ≠ .recovery) ∧
    (∃ (s : State) (id : CmdId) (k : Completion) (c : Cmd), s.mail.mwToCtl.front = some (.completion id k) ∧ ctlTakes
      s = true ∧ findCmd s id = some c) :=
  ⟨⟨{B with mwr := {}}, by decide +kernel⟩,
    ⟨{B with mwr := {st := .recovery, bootAt := 999000000000}}, by decide +kernel⟩,
    ⟨B, 7, by decide +kernel⟩,
    ⟨B, by decide +kernel⟩,
    ⟨B, by decide +kernel⟩,
    ⟨B, by decide +kernel⟩,
    ⟨{B with mail := {ctlToMw := {items := [.heartbeat 3 0 0 0]}}}, 3, 0, 0, 0, by decide +kernel⟩,
    ⟨B, by decide +kernel⟩,
    ⟨B, -5, 1, 2, true, by decide +kernel⟩,
    ⟨{B with mail := {mwToCtl := {items := [.timeAdjust (-5) 2 7 true]}}}, -5, 2, 7, 0, false, by decide +kernel⟩,
    ⟨{B with mail := {datToMw := {items := [.errorRecord 3]}}}, 3, by decide +kernel⟩,
    ⟨{B with mail := {datToMw := {items := [.planeFatal 9]}}}, 9, by decide +kernel⟩,
    ⟨B, by decide +kernel⟩,
    ⟨{B with mail := {datToMw := {items := [.sensorRequest]}}}, by decide +kernel⟩,
    ⟨{on B {K .powerQuery [] with phase := .mailbox} with mail := {ctlToMw := {items := [.command I]}}}, I,
      {K .powerQuery [] with phase := .mailbox}, by decide +kernel⟩,
    ⟨{on B {K .powerQuery [] with phase := .mwDone} with mail := {mwToCtl := {items := [.completion I {tag := 1, status := .success}]}}},
      I, {tag := 1, status := .success}, {K .powerQuery [] with phase := .mwDone}, by decide +kernel⟩⟩

theorem test_wit_UpdatesAndBudget :
    (∃ (s : State) (id : CmdId) (c : Cmd), Runs s .fwUpdate id c ∧ fld c.pkt 2 1 0 = 1 ∧ fld c.pkt 2 31 4 = 0 ∧ dw
      c.pkt 3 = 0 ∧ 0 < dw c.pkt 4 ∧ dw c.pkt 4 ≤ 4096 ∧ s.mwr.staging = none ∧ flashReleased s = false) ∧
    (∃ (s : State) (id : CmdId) (c : Cmd) (img : List Byte), Runs s .fwUpdate id c ∧ fld c.pkt 2 2 0 = 2 ∧ fld c.pkt
      2 31 4 = 0 ∧ fbit c.pkt 2 3 = false ∧ s.mwr.st ≠ .recovery ∧ flashReleased s = false ∧ s.mwr.staging = some
      { owner := c.id.origin, image := img } ∧ dw c.pkt 4 = img.length) ∧
    (∃ (s : State) (id : CmdId) (c : Cmd) (img : List Byte), Runs s .fwUpdate id c ∧ fld c.pkt 2 2 0 = 6 ∧ fld c.pkt
      2 31 4 = 0 ∧ flashReleased s = false ∧ s.mwr.staging = some { owner := c.id.origin, image := img } ∧ dw c.pkt 4
      = img.length) ∧
    (∃ (s : State) (g : GoldenCopy), s.mwr.copying = some g ∧ s.mwr.serves = true) ∧
    (∃ (s : State) (id : CmdId) (c : Cmd), Runs s .fwUpdate id c ∧ fld c.pkt 2 1 0 = 3 ∧ fld c.pkt 2 31 4 = 0 ∧
      otherSession s c = false) ∧
    (∃ (s : State) (id : CmdId) (c : Cmd), Runs s .budgetWrite id c ∧ fld c.pkt 2 31 0 ≤ 4 ∧ budRefusal s c = none ∧
      s.dom.key = none ∧ budInvalid s (fld c.pkt 2 7 0) (dw c.pkt 3) = false ∧ inForce (budSlots s.store (fld c.pkt 2
      7 0)) ≠ some (dw c.pkt 3) ∧ slotsLeft s (fld c.pkt 2 7 0) ≠ 0) ∧
    (∃ (s : State) (id : CmdId) (c : Cmd), Runs s .budgetQuery id c ∧ fld c.pkt 2 31 0 ≤ 4 ∧ dw c.pkt 5 = 0) ∧
    (∃ (s : State) (id : CmdId) (c : Cmd) (reading : Int), MailRuns s 1 id c ∧ sensorUnit (dw c.pkt 3) ≠ 0) ∧
    (∃ (s : State) (id : CmdId) (c : Cmd), MailRuns s 4 id c) :=
  ⟨⟨on B (K .fwUpdate [0,0,1,0,4096]), I, K .fwUpdate [0,0,1,0,4096], by decide +kernel⟩,
    ⟨{on B (K .fwUpdate [0,0,2,0,1]) with mwr := {B.mwr with staging := some ⟨.pcie 0, [0]⟩}}, I, K .fwUpdate
      [0,0,2,0,1], [0], by decide +kernel⟩,
    ⟨{on B (K .fwUpdate [0,0,6,0,1]) with mwr := {B.mwr with staging := some ⟨.pcie 0, [0]⟩}}, I, K .fwUpdate
      [0,0,6,0,1], [0], by decide +kernel⟩,
    ⟨{B with mwr := {B.mwr with copying := some ⟨I, 0, {}⟩}}, ⟨I, 0, {}⟩, by decide +kernel⟩,
    ⟨on B (K .fwUpdate [0,0,3]), I, K .fwUpdate [0,0,3], by decide +kernel⟩,
    ⟨on B {K .budgetWrite [0,0,2,1] with id := ⟨.usb, 1⟩}, ⟨.usb, 1⟩,
      {K .budgetWrite [0,0,2,1] with id := ⟨.usb, 1⟩}, by decide +kernel⟩,
    ⟨on B (K .budgetQuery [0,0,4]), I, K .budgetQuery [0,0,4], by decide +kernel⟩,
    ⟨on B (K .mwMailbox [0,0,1,8]), I, K .mwMailbox [0,0,1,8], -3, by decide +kernel⟩,
    ⟨on B (K .mwMailbox [0,0,4]), I, K .mwMailbox [0,0,4], by decide +kernel⟩⟩

theorem test_wit_PowerVotes :
    (∃ (s : State) (id : CmdId) (c : Cmd), Runs s .powerVote id c ∧ fld c.pkt 2 0 0 = 0 ∧ fld c.pkt 2 31 1 = 0 ∧
      (c.context < 16 ∧ bit s.stn.floorFence c.context = false ∨ c.context = 25 ∧ layoutPairs s ≠ []) ∧ isGranary s =
      false ∧ (pdom s c.context).level = .active) ∧
    (∃ (s : State) (id : CmdId) (c : Cmd), Runs s .powerVote id c ∧ fld c.pkt 2 0 0 = 0 ∧ fld c.pkt 2 31 1 = 0 ∧
      c.context < 16 ∧ bit s.stn.floorFence c.context = false ∧ isGranary s = false ∧ powered s = true ∧ (pdom s
      c.context).level = .off ∧ (pdom s c.context).host = [] ∧ (pdom s c.context).wakeAt = none) ∧
    (∃ (s : State) (id : CmdId) (c : Cmd), Runs s .powerVote id c ∧ fld c.pkt 2 0 0 = 1 ∧ fld c.pkt 2 31 1 = 0 ∧
      (c.context < 16 ∧ bit s.stn.floorFence c.context = false ∨ c.context = 25 ∧ layoutPairs s ≠ [])) ∧
    (∃ (s : State) (id : CmdId) (c : Cmd), Runs s .powerQuery id c ∧ c.context = 0xFF) ∧
    (∃ (s : State) (id : CmdId) (c : Cmd), Runs s .powerQuery id c ∧ c.context < 30) :=
  ⟨⟨{on B (K .powerVote [0,15]) with pwr := {B.pwr with doms := [(15, {level := .active})]}}, I, K .powerVote
      [0,15], by decide +kernel⟩,
    ⟨on B (K .powerVote [0,15]), I, K .powerVote [0,15], by decide +kernel⟩,
    ⟨on B (K .powerVote [0,15,1]), I, K .powerVote [0,15,1], by decide +kernel⟩,
    ⟨on B (K .powerQuery [0,0xFF]), I, K .powerQuery [0,0xFF], by decide +kernel⟩,
    ⟨on B (K .powerQuery [0,29]), I, K .powerQuery [0,29], by decide +kernel⟩⟩

theorem test_wit_PowerStates :
    (∃ (s : State) (id : CmdId) (c : Cmd), Runs s .powerState id c ∧ c.context = 0xFF ∧ dw c.pkt 2 = 0 ∧ s.pwr.state
      = .run ∧ s.pwr.entry = none) ∧
    (∃ (s : State) (id : CmdId) (c : Cmd), Runs s .powerState id c ∧ c.context = 0xFF ∧ dw c.pkt 2 = 0 ∧ s.pwr.state
      = .run ∧ s.pwr.entry ≠ none ∧ s.pwr.aoIn = true) ∧
    (∃ (s : State) (id : CmdId) (c : Cmd), Runs s .powerState id c ∧ c.context = 0xFF ∧ dw c.pkt 2 = 2 ∧ s.pwr.state
      = .run ∧ s.pwr.entry = none ∧ sleepRefusal c s = 0 ∧ dw c.pkt 3 = 0) ∧
    (∃ (s : State) (id : CmdId) (c : Cmd), Runs s .powerState id c ∧ c.context = 0xFF ∧ dw c.pkt 2 = 3 ∧ s.pwr.state
      = .run ∧ s.pwr.entry = none ∧ sleepRefusal c s = 0 ∧ dw c.pkt 3 ≠ 0) ∧
    (∃ (s : State) (id : CmdId) (c : Cmd), Runs s .powerState id c ∧ c.context = 0xFF ∧ dw c.pkt 2 = 4 ∧ s.pwr.state
      = .run ∧ s.pwr.entry = none ∧ sleepRefusal c s = 0 ∧ dw c.pkt 3 = 0) :=
  ⟨⟨on B (K .powerState [0,0xFF]), I, K .powerState [0,0xFF], by decide +kernel⟩,
    ⟨{on B (K .powerState [0,0xFF]) with pwr := {B.pwr with entry := some ⟨.sleep, 0, false, none, false, none, false⟩}},
      I, K .powerState [0,0xFF], by decide +kernel⟩,
    ⟨on B (K .powerState [0,0xFF,2]), I, K .powerState [0,0xFF,2], by decide +kernel⟩,
    ⟨on B (K .powerState [0,0xFF,3,1]), I, K .powerState [0,0xFF,3,1], by decide +kernel⟩,
    ⟨on B (K .powerState [0,0xFF,4]), I, K .powerState [0,0xFF,4], by decide +kernel⟩⟩

theorem test_wit_EntrySteps :
    (∃ (s : State) (e : Entry), s.pwr.entry = some e ∧ e.committed = false ∧ e.noticeAt = none ∧ e.since + ms 1 ≤
      s.core.t ∧ e.target = .sleep) ∧
    (∃ (s : State) (e : Entry), s.pwr.entry = some e ∧ e.committed = false ∧ e.noticeAt = none ∧ e.since + ms 1 ≤
      s.core.t ∧ e.target ≠ .sleep) ∧
    (∃ (s : State), s.mwr.running = true ∧ ctlNext s = some .powerNotice) ∧
    (∃ (s : State), s.mwr.running = true ∧ s.mwr.wfi = false ∧ s.mwr.pwrmode < 2) ∧
    (∃ (s : State) (e : Entry) (n : Nat), s.mwr.running = true ∧ s.mwr.wfi = false ∧ s.mwr.pwrmode = 2 ∧
      (s.pwr.target = .deepSleep ∨ s.pwr.target = .off) ∧ s.pwr.entry = some e ∧ e.noticeAt = some n) ∧
    (∃ (s : State) (e : Entry) (n : Nat), s.pwr.entry = some e ∧ e.committed = false ∧ e.noticeAt = some n ∧ n + ms
      100 ≤ s.core.t ∧ e.fromSleep = false) ∧
    (∃ (s : State) (e : Entry), s.pwr.entry = some e ∧ e.committed = true ∧ e.wake = none ∧ e.target = .sleep) ∧
    (∃ (s : State) (e : Entry), s.pwr.entry = some e ∧ e.committed = true ∧ e.wake = none ∧ e.target = .deepSleep) ∧
    (∃ (s : State) (e : Entry), s.pwr.entry = some e ∧ e.committed = true ∧ e.wake = none ∧ e.target = .off) :=
  ⟨⟨{B with pwr := {B.pwr with entry := some {target := .sleep, since := 0}}}, {target := .sleep, since := 0},
      by decide +kernel⟩,
    ⟨{B with pwr := {B.pwr with entry := some {target := .off, since := 0}}}, {target := .off, since := 0},
      by decide +kernel⟩,
    ⟨{B with mail := {ctlToMw := {items := [.powerNotice]}}}, by decide +kernel⟩,
    ⟨{B with mwr := {B.mwr with pwrmode := 1}}, by decide +kernel⟩,
    ⟨{B with mwr := {B.mwr with pwrmode := 2}, pwr := {B.pwr with target := .off, entry := some {target := .off, since := 0, noticeAt := some 0}}},
      {target := .off, since := 0, noticeAt := some 0}, 0, by decide +kernel⟩,
    ⟨{B with pwr := {B.pwr with entry := some {target := .off, since := 0, noticeAt := some 0}}},
      {target := .off, since := 0, noticeAt := some 0}, 0, by decide +kernel⟩,
    ⟨{B with pwr := {B.pwr with entry := some {target := .sleep, since := 0, committed := true}}},
      {target := .sleep, since := 0, committed := true}, by decide +kernel⟩,
    ⟨{B with pwr := {B.pwr with entry := some {target := .deepSleep, since := 0, committed := true}}},
      {target := .deepSleep, since := 0, committed := true}, by decide +kernel⟩,
    ⟨{B with pwr := {B.pwr with entry := some {target := .off, since := 0, committed := true}}},
      {target := .off, since := 0, committed := true}, by decide +kernel⟩⟩

theorem test_wit_HoldsAndWakes :
    (∃ (s : State), s.pwr.state = .run ∧ s.pwr.target = .run ∧ s.pwr.entry = none ∧ s.trn.items = [] ∧ s.hif.cmds =
      []) ∧
    (∃ (s : State) (d : Nat), (d < 16 ∨ d = 25) ∧ powered s = true ∧ voted s d = false ∧ (pdom s d).level = .active ∧
      clearedAt (pdom s d) + idleHold s d ≤ s.core.t) ∧
    (∃ (s : State) (d : Nat) (e : Nat), (pdom s d).prewake = some e ∧ e ≤ s.core.t) ∧
    (∃ (s : State) (d : Nat) (w : Nat), (d < 16 ∨ d = 25) ∧ (pdom s d).wakeAt = some w ∧ s.pwr.state = .run ∧
      s.trn.items = []) ∧
    (∃ (s : State), s.pwr.aoIn = true ∧ s.pwr.state = .sleep) ∧
    (∃ (s : State) (e : Nat), s.pwr.aoIn = true ∧ s.pwr.state = .sleep ∧ s.pwr.wakeTimer = some e ∧ e ≤ s.core.t) ∧
    (∃ (s : State), s.pwr.aoIn = true ∧ s.pwr.state = .sleep) ∧
    (∃ (s : State), s.pwr.state = .run ∧ s.pwr.entry = none) ∧
    (∃ (s : State), s.pwr.aoIn = true ∧ s.pwr.state = .sleep) :=
  ⟨⟨B, by decide +kernel⟩,
    ⟨{B with pwr := {B.pwr with doms := [(15, {level := .active})]}}, 15, by decide +kernel⟩,
    ⟨{B with pwr := {B.pwr with doms := [(3, {prewake := some 5})]}}, 3, 5, by decide +kernel⟩,
    ⟨{B with pwr := {B.pwr with doms := [(25, {wakeAt := some 5})]}}, 25, 5, by decide +kernel⟩,
    ⟨{B with pwr := {B.pwr with state := .sleep}}, by decide +kernel⟩,
    ⟨{B with pwr := {B.pwr with state := .sleep, wakeTimer := some 7}}, 7, by decide +kernel⟩,
    ⟨{B with pwr := {B.pwr with state := .sleep}}, by decide +kernel⟩,
    ⟨B, by decide +kernel⟩,
    ⟨{B with pwr := {B.pwr with state := .sleep}}, by decide +kernel⟩⟩

theorem test_wit_RailSequence :
    (∃ (s : State) (n : Nat) (steward : Bool), s.pwr.wait = .pg n ∧ s.pwr.cold = true ∧ n < 7) ∧
    (∃ (s : State) (n : Nat) (steward : Bool), s.pwr.wait = .pg n ∧ s.pwr.cold = true ∧ n = 7) ∧
    (∃ (s : State) (n : Nat) (steward : Bool), s.pwr.wait = .pg n ∧ s.pwr.cold = false) ∧
    (∃ (s : State), s.pwr.wait = .xtal) ∧
    (∃ (s : State), s.pwr.wait = .pll ∧ s.pwr.cold = true ∧ s.pwr.warmAfter = false) ∧
    (∃ (s : State), s.pwr.wait = .pll ∧ s.pwr.cold = false ∧ s.pwr.warmAfter = false) ∧
    (∃ (s : State) (n : Nat), s.pwr.wait = .pg n ∧ s.pwr.waitAt + ms 2 ≤ s.core.t ∧ s.pwr.tries = 0) ∧
    (∃ (s : State), s.pwr.wait = .xtal ∧ s.pwr.waitAt + ms 5 ≤ s.core.t ∧ s.pwr.tries = 1) ∧
    (∃ (s : State), s.pwr.wait = .pll ∧ s.pwr.waitAt + us 200 ≤ s.core.t ∧ s.pwr.tries = 1) ∧
    (∃ (s : State), s.pwr.wait = .pause ∧ s.pwr.waitAt + ms 10 ≤ s.core.t) :=
  ⟨⟨{B with pwr := {B.pwr with wait := .pg 6, cold := true}}, 6, true, by decide +kernel⟩,
    ⟨{B with pwr := {B.pwr with wait := .pg 7, cold := true}}, 7, true, by decide +kernel⟩,
    ⟨{B with pwr := {B.pwr with wait := .pg 7}}, 7, true, by decide +kernel⟩,
    ⟨{B with pwr := {B.pwr with wait := .xtal}}, by decide +kernel⟩,
    ⟨{B with pwr := {B.pwr with wait := .pll, cold := true}}, by decide +kernel⟩,
    ⟨{B with pwr := {B.pwr with wait := .pll}}, by decide +kernel⟩,
    ⟨{B with pwr := {B.pwr with wait := .pg 3}}, 3, by decide +kernel⟩,
    ⟨{B with pwr := {B.pwr with wait := .xtal, tries := 1}}, by decide +kernel⟩,
    ⟨{B with pwr := {B.pwr with wait := .pll, tries := 1}}, by decide +kernel⟩,
    ⟨{B with pwr := {B.pwr with wait := .pause}}, by decide +kernel⟩⟩

theorem test_wit_SuppliesAndClocks :
    (∃ (s : State) (n : Nat) (p : Pwr), s.pwr.railPg.getD n false = true ∧ p = railsFall s.core.t
      { s.pwr with railPg := s.pwr.railPg.set n false } ∧ p.railEn.getD n false = true ∧ s.pwr.wait = .idle ∧
      s.pwr.state ≠ .wakeFailed) ∧
    (∃ (s : State) (n : Nat), s.pwr.railPg.getD n false = true ∧ s.pwr.wait ≠ .idle) ∧
    (∃ (s : State), s.pwr.aoIn = true) ∧
    (∃ (s : State), s.pwr.aoIn = true) ∧
    (∃ (s : State), s.mwr.running = true ∧ s.mwr.grants = true ∧ (s.mail.mwToCtl.front = some .headroomGrant →
      ctlTakes s = false)) ∧
    (∃ (s : State), s.mail.mwToCtl.front = some .headroomGrant ∧ ctlTakes s = true ∧ s.pwr.thermal = false ∧
      s.pwr.boost = false) ∧
    (∃ (s : State), s.mail.mwToCtl.front = some .headroomGrant ∧ ctlTakes s = true ∧ s.pwr.thermal = true) ∧
    (∃ (s : State) (e : Nat), s.pwr.grant = some e ∧ e ≤ s.core.t ∧ s.pwr.boost = true) ∧
    (∃ (s : State), s.pwr.pll = true ∧ s.pwr.boost = true) ∧
    (∃ (s : State), s.pwr.pll = true ∧ s.pwr.boost = false) ∧
    (∃ (s : State) (e : Nat), s.pwr.thermal = true ∧ s.pwr.grant = some e ∧ s.core.t < e ∧ s.pwr.boost = false) ∧
    (∃ (s : State), s.pwr.thermal = true ∧ s.pwr.grant = none) ∧
    (∃ (s : State), s.pwr.pll = true) :=
  ⟨⟨{B with pwr := {B.pwr with railPg := [true, true, true, true, true, true, true, true]}}, 7, railsFall
      1000000000000
      { ({B with pwr := {B.pwr with railPg := [true, true, true, true, true, true, true, true]}}).pwr with railPg := ({B with pwr := {B.pwr with railPg := [true, true, true, true, true, true, true, true]}}).pwr.railPg.set 7 false },
      by decide +kernel⟩,
    ⟨{B with pwr := {B.pwr with wait := .xtal, railPg := [true, true, true, true, true, true, true, true]}}, 7,
      by decide +kernel⟩,
    ⟨B, by decide +kernel⟩,
    ⟨B, by decide +kernel⟩,
    ⟨{B with mwr := {B.mwr with grants := true}}, by decide +kernel⟩,
    ⟨{B with mail := {mwToCtl := {items := [.headroomGrant]}}}, by decide +kernel⟩,
    ⟨{B with pwr := {B.pwr with thermal := true}, mail := {mwToCtl := {items := [.headroomGrant]}}},
      by decide +kernel⟩,
    ⟨{B with pwr := {B.pwr with grant := some 7, boost := true}}, 7, by decide +kernel⟩,
    ⟨{B with pwr := {B.pwr with boost := true}}, by decide +kernel⟩,
    ⟨B, by decide +kernel⟩,
    ⟨{B with pwr := {B.pwr with thermal := true, grant := some 2000000000000}}, 2000000000000, by decide +kernel⟩,
    ⟨{B with pwr := {B.pwr with thermal := true}}, by decide +kernel⟩,
    ⟨B, by decide +kernel⟩⟩

theorem test_wit_SleepVotesAndSteps :
    (∃ (s : State) (id : CmdId) (c : Cmd), Runs s .sleepVote id c ∧ dw c.pkt 2 = 0 ∧ bit c.context 8 = true ∧
      isGranary s = true) ∧
    (∃ (s : State) (id : CmdId) (c : Cmd), Runs s .sleepVote id c ∧ dw c.pkt 2 = 0 ∧ bit c.context 8 = false ∧
      isGranary s = false ∧ tableRole s (bits c.context 7 0) = 2) ∧
    (∃ (s : State) (id : CmdId) (c : Cmd), Runs s .sleepVote id c ∧ dw c.pkt 2 = 1 ∧ bit c.context 8 = true ∧
      isGranary s = true ∧ s.dom.objections.contains (voteHolder c, 256) = true) ∧
    (∃ (s : State) (id : CmdId) (c : Cmd), Runs s .sleepVote id c ∧ dw c.pkt 2 = 2 ∧ bit c.context 8 = true ∧
      isGranary s = true ∧ s.dom.sleep.state = .asleep) ∧
    (∃ (s : State) (id : CmdId) (c : Cmd), Runs s .sleepVote id c ∧ dw c.pkt 2 = 2 ∧ bit c.context 8 = false ∧
      isGranary s = false ∧ tableRole s (bits c.context 7 0) = 2) ∧
    (∃ (s : State) (h : MsgHead) (n : Nat) (commit : Nat), s.pwr.state = .run ∧ msgBad s h = false) ∧
    (∃ (s : State) (h : MsgHead) (n : Nat), s.pwr.state = .run ∧ msgBad s h = false) ∧
    (∃ (s : State) (h : MsgHead), s.pwr.state = .run ∧ msgBad s h = false) ∧
    (∃ (s : State), s.dom.sleep.state = .agreed ∧ s.dom.sleep.commitAt ≤ s.core.t) ∧
    (∃ (s : State), s.dom.sleep.state = .entering ∧ s.dom.sleep.exitPending = false ∧ (pdom s 25).level = .active ∧
      voted s 25 = false) ∧
    (∃ (s : State), s.dom.sleep.state = .entering ∧ s.dom.sleep.exitPending = true ∧ (pdom s 25).agent = false) ∧
    (∃ (s : State), s.dom.sleep.state = .exiting ∧ (pdom s 25).level = .active ∧ s.grn.asleep = []) ∧
    (∃ (s : State), s.mwr.running = true ∧ isGranary s = true) ∧
    (∃ (s : State) (place : Bool), s.mail.mwToCtl.front = some (.agentVote place) ∧ ctlTakes s = true) :=
  ⟨⟨on G (K .sleepVote [0,0x100,0]), I, K .sleepVote [0,0x100,0], by decide +kernel⟩,
    ⟨{on B (K .sleepVote [0,9,0]) with dom := Dm}, I, K .sleepVote [0,9,0], by decide +kernel⟩,
    ⟨{on G (K .sleepVote [0,0x100,1]) with dom := {objections := [(0, 256)]}}, I, K .sleepVote [0,0x100,1],
      by decide +kernel⟩,
    ⟨{on G (K .sleepVote [0,0x100,2]) with dom := {sleep := {state := .asleep}}}, I, K .sleepVote [0,0x100,2],
      by decide +kernel⟩,
    ⟨{on B (K .sleepVote [0,9,2]) with dom := Dm}, I, K .sleepVote [0,9,2], by decide +kernel⟩,
    ⟨{B with dom := Dm}, Hd, 1, 2, by decide +kernel⟩,
    ⟨{B with dom := Dm}, Hd, 1, by decide +kernel⟩,
    ⟨{B with dom := Dm}, Hd, by decide +kernel⟩,
    ⟨{G with dom := {sleep := {state := .agreed}}}, by decide +kernel⟩,
    ⟨{G with dom := {sleep := {state := .entering}}, pwr := {G.pwr with doms := [(25, {level := .active})]}},
      by decide +kernel⟩,
    ⟨{G with dom := {sleep := {state := .entering, exitPending := true}}}, by decide +kernel⟩,
    ⟨{G with dom := {sleep := {state := .exiting}}, pwr := {G.pwr with doms := [(25, {level := .active})]}},
      by decide +kernel⟩,
    ⟨G, by decide +kernel⟩,
    ⟨{G with mail := {mwToCtl := {items := [.agentVote true]}}}, true, by decide +kernel⟩⟩

theorem test_wit_SleepProposal :
    (∃ (s : State), isGranary s = true ∧ joined s = true ∧ s.grn.ready = true ∧ s.dom.sleep.state = .awake ∧ 0 <
      feature s 0x84 0 30 ∧ s.dom.sleep.quietAt + sec (feature s 0x84 0 30) ≤ s.core.t ∧ (s.dom.objections.any fun o
      => decide (o.2 = 256)) = false ∧ liveMembers s = []) ∧
    (∃ (s : State), isGranary s = true ∧ joined s = true ∧ s.grn.ready = true ∧ s.dom.sleep.state = .awake ∧ 0 <
      feature s 0x84 0 30 ∧ s.dom.sleep.quietAt + sec (feature s 0x84 0 30) ≤ s.core.t ∧ (s.dom.objections.any fun o
      => decide (o.2 = 256)) = false ∧ liveMembers s ≠ []) ∧
    (∃ (s : State) (h : MsgHead) (n : Nat), s.pwr.state = .run ∧ msgBad s h = false ∧ s.mwr.running = true) ∧
    (∃ (s : State) (h : MsgHead) (n : Nat), s.pwr.state = .run ∧ msgBad s h = false ∧ isGranary s = true ∧
      s.dom.sleep.state = .proposed ∧ n = s.dom.sleep.proposal ∧ s.dom.sleep.awaited = [h.sender]) ∧
    (∃ (s : State) (h : MsgHead) (n : Nat), s.pwr.state = .run ∧ msgBad s h = false ∧ isGranary s = true ∧
      s.dom.sleep.state = .proposed ∧ n = s.dom.sleep.proposal ∧ s.dom.sleep.awaited.contains h.sender = true) ∧
    (∃ (s : State), s.dom.sleep.state = .proposed ∧ s.dom.sleep.sentAt + ms 10 ≤ s.core.t) :=
  ⟨⟨{G with dom := {Dm with peers := []}}, by decide +kernel⟩,
    ⟨{G with dom := Dm, grn := {ready := true, dir := [(0, {state := .allocated, maps := [{member := 9, write := false, expiry := 2000}]})]}},
      by decide +kernel⟩,
    ⟨{G with dom := Dm}, Hd, 3, by decide +kernel⟩,
    ⟨{G with dom := {Dm with sleep := {state := .proposed, proposal := 3, awaited := [9]}}}, Hd, 3,
      by decide +kernel⟩,
    ⟨{G with dom := {Dm with sleep := {state := .proposed, proposal := 3, awaited := [9]}}}, Hd, 3,
      by decide +kernel⟩,
    ⟨{G with dom := {Dm with sleep := {state := .proposed}}}, by decide +kernel⟩⟩

theorem test_wit_DomainCommands :
    (∃ (s : State) (id : CmdId) (bus : Bus) (c : Cmd) (table : List Byte) (t : MTable) (e : Envelope), Runs s
      .domainJoin id c ∧ fld c.pkt 5 31 14 = 0 ∧ 144 ≤ fld c.pkt 5 13 0 ∧ fld c.pkt 5 13 0 ≤ 8304 ∧ table = (match
      c.id.origin with | .domain _ _ => c.input.take (fld c.pkt 5 13 0) | _ => Bus.bytes bus (qw c.pkt 3) (fld c.pkt
      5 13 0)) ∧ parseTable table = some t ∧ c.env = some e ∧ s.dom.seq < e.seq ∧ s.core.member ≠ none ∧ t.id = dw
      c.pkt 2 ∧ t.members.has (ownMember s) = true ∧ (t.members.getD (ownMember s) ⟨0, 0⟩).role = s.core.role.code ∧
      (joined s = true → s.dom.id = t.id)) ∧
    (∃ (s : State) (id : CmdId) (c : Cmd), Runs s .domainLeave id c ∧ fld c.pkt 2 31 2 = 0 ∧ (isGranary s = false ∨
      fbit c.pkt 2 0 = true)) ∧
    (∃ (s : State) (id : CmdId) (c : Cmd) (f : Nat), Runs s .domainStatus id c ∧ c.id.origin = .pcie f) ∧
    (∃ (s : State) (id : CmdId) (c : Cmd), Runs s .domainStatus id c ∧ c.id.origin = .usb) :=
  ⟨⟨{on B {K .domainJoin [0,0,77,0,0,144] with env := some ⟨1,0,0⟩} with core := {B.core with member := some 5}}, I,
      Tb, {K .domainJoin [0,0,77,0,0,144] with env := some ⟨1,0,0⟩}, Bus.bytes Tb 0 144, ⟨77, (P384x, P384y), [(5,
      ⟨1, 0⟩)]⟩, ⟨1,0,0⟩, by decide +kernel⟩,
    ⟨on B (K .domainLeave [0,0,3]), I, K .domainLeave [0,0,3], by decide +kernel⟩,
    ⟨on B (K .domainStatus []), I, K .domainStatus [], 0, by decide +kernel⟩,
    ⟨on B {K .domainStatus [] with id := ⟨.usb, 1⟩}, ⟨.usb, 1⟩, {K .domainStatus [] with id := ⟨.usb, 1⟩},
      by decide +kernel⟩⟩

theorem test_wit_Liveness :
    (∃ (s : State), joined s = true ∧ s.core.ctlReset = false ∧ s.dom.hbSentAt + ms 1 ≤ s.core.t) ∧
    (∃ (s : State) (h : MsgHead) (b : HbBody), s.pwr.state = .run ∧ msgBad s h = false ∧ h.sender ≠ ownMember s ∧
      (peer s h.sender).state = .up ∧ disagreement s h b = 0 ∧ h.inc ≤ (peer s h.sender).inc) ∧
    (∃ (s : State) (h : MsgHead) (b : HbBody), s.pwr.state = .run ∧ msgBad s h = false ∧ h.sender ≠ ownMember s ∧
      (peer s h.sender).state = .up ∧ disagreement s h b ≠ 0 ∧ h.inc ≤ (peer s h.sender).inc) ∧
    (∃ (s : State) (h : MsgHead) (b : HbBody), s.pwr.state = .run ∧ msgBad s h = false ∧ h.sender = ownMember s) ∧
    (∃ (s : State) (m : Nat) (t0 : Nat), (peer s m).state = .up ∧ (peer s m).hbAt = some t0 ∧ t0 + ms 25 ≤ s.core.t) ∧
    (∃ (s : State) (m : Nat) (t0 : Nat), (peer s m).state = .suspect ∧ (peer s m).hbAt = some t0 ∧ t0 + ms 50 ≤
      s.core.t ∧ witnessed s m = true) ∧
    (∃ (s : State) (h : MsgHead) (m : Nat), s.pwr.state = .run ∧ msgBad s h = false ∧ m ≠ h.sender ∧
      s.dom.members.has m = true) ∧
    (∃ (s : State) (h : MsgHead) (force : Bool), s.pwr.state = .run ∧ msgBad s h = false) ∧
    (∃ (s : State) (t0 : Nat), s.dom.dupAt = some t0 ∧ t0 + ms 50 ≤ s.core.t) :=
  ⟨⟨{B with dom := Dm}, by decide +kernel⟩,
    ⟨{B with dom := {Dm with peers := [(9, {state := .up, inc := 1})]}}, Hd, Hb, by decide +kernel⟩,
    ⟨{B with dom := {Dm with peers := [(9, {state := .up, inc := 1})]}}, Hd, {Hb with digest := 1},
      by decide +kernel⟩,
    ⟨{B with dom := Dm}, {Hd with sender := 5}, Hb, by decide +kernel⟩,
    ⟨{B with dom := {Dm with peers := [(9, {state := .up, hbAt := some 0})]}}, 9, 0, by decide +kernel⟩,
    ⟨{B with dom := {Dm with peers := [(9, {state := .suspect, hbAt := some 0})]}}, 9, 0, by decide +kernel⟩,
    ⟨{B with dom := Dm}, Hd, 5, by decide +kernel⟩,
    ⟨{B with dom := Dm}, Hd, true, by decide +kernel⟩,
    ⟨{B with dom := {Dm with dupAt := some 0}}, 0, by decide +kernel⟩⟩

theorem test_wit_ForwardingAndTime :
    (∃ (s : State) (h : MsgHead) (fn : Nat) (pkt : List Word) (env : Option Envelope) (data : List Byte), s.pwr.state
      = .run ∧ msgBad s h = false ∧ quarantined s h.sender = false) ∧
    (∃ (s : State) (h : MsgHead) (fn : Nat) (pkt : List Word) (env : Option Envelope) (data : List Byte), s.pwr.state
      = .run ∧ msgBad s h = false ∧ quarantined s h.sender = true) ∧
    (∃ (s : State) (h : MsgHead) (fn : Nat) (pkt : List Word) (env : Option Envelope) (data : List Byte) (seq : Nat)
      (index : Nat) (count : Nat), s.pwr.state = .run ∧ s.dom.reasm = [] ∧ 1 < count) ∧
    (∃ (s : State) (src : Source) (seq : Nat) (r : Reasm), s.dom.reasm = [r] ∧ r.src = src ∧ r.seq = seq ∧ r.since +
      ms 10 ≤ s.core.t) ∧
    (∃ (s : State) (h : MsgHead) (fn : Nat) (tag : Nat) (status : Nat) (result : Nat) (result2 : Nat) (retained :
      Bool) (c : Cmd) (n : Nat), s.pwr.state = .run ∧ msgBad s h = false ∧ findCmd s ⟨.pcie fn, tag⟩ = some c ∧
      c.phase = .forwarded n) ∧
    (∃ (s : State) (id : CmdId) (c : Cmd) (n : Nat), findCmd s id = some c ∧ c.phase = .forwarded n ∧ n + ms 100 ≤
      s.core.t) ∧
    (∃ (s : State), s.dom.masterAt + sec 1 ≤ s.core.t ∧ s.dom.noMaster = false) ∧
    (∃ (s : State) (t0 : Nat), s.core.holdover = true ∧ s.dom.holdAt = some t0 ∧ t0 + sec 10 ≤ s.core.t ∧
      s.dom.holdLong = false) :=
  ⟨⟨{B with dom := Dm}, Hd, 0, [], none, [], by decide +kernel⟩,
    ⟨{B with dom := {Dm with peers := [(9, {state := .quarantined})]}}, Hd, 0, [], none, [], by decide +kernel⟩,
    ⟨{B with dom := Dm}, Hd, 0, [], none, [], 3, 0, 2, by decide +kernel⟩,
    ⟨{B with dom := {Dm with reasm := [⟨.flume 0, 3, 2, [0], 0⟩]}}, .flume 0, 3, ⟨.flume 0, 3, 2, [0], 0⟩,
      by decide +kernel⟩,
    ⟨{on B {K .tallyQuery [] with phase := .forwarded 9} with dom := Dm}, Hd, 0, 1, 0, 0, 0, false,
      {K .tallyQuery [] with phase := .forwarded 9}, 9, by decide +kernel⟩,
    ⟨on B {K .tallyQuery [] with phase := .forwarded 9}, I, {K .tallyQuery [] with phase := .forwarded 9}, 9,
      by decide +kernel⟩,
    ⟨B, by decide +kernel⟩,
    ⟨{B with core := {B.core with holdover := true}, dom := {Dm with holdAt := some 0}}, 0, by decide +kernel⟩⟩

theorem test_wit_BadMessages :
    (∃ (s : State) (h : MsgHead), s.pwr.state = .run ∧ msgBad s h = true) :=
    ⟨{B with dom := Dm}, {Hd with crcOk := false}, by decide +kernel⟩

theorem test_wit_PortModes :
    (∃ (s : State) (id : CmdId) (c : Cmd) (n : Nat) (m : PortMode), Runs s .portMode id c ∧ n = bits c.context 2 0 ∧
      m = PortMode.ofCode (fld c.pkt 2 1 0) ∧ fld c.pkt 2 1 0 < 3 ∧ fld c.pkt 2 31 4 = 0 ∧ fbit c.pkt 2 3 = false ∧
      (port s n).state ≠ .up ∧ (port s n).mode ≠ m) ∧
    (∃ (s : State) (id : CmdId) (c : Cmd) (n : Nat), Runs s .portMode id c ∧ n = bits c.context 2 0 ∧ fld c.pkt 2 1 0
      < 3 ∧ fld c.pkt 2 31 4 = 0 ∧ fbit c.pkt 2 3 = false ∧ (port s n).state ≠ .failed ∧ (port s n).mode =
      PortMode.ofCode (fld c.pkt 2 1 0)) ∧
    (∃ (s : State) (id : CmdId) (c : Cmd) (n : Nat) (m : PortMode), Runs s .portMode id c ∧ n = bits c.context 2 0 ∧
      m = PortMode.ofCode (fld c.pkt 2 1 0) ∧ fld c.pkt 2 1 0 < 3 ∧ fld c.pkt 2 31 4 = 0 ∧ fbit c.pkt 2 3 = true ∧
      (port s n).state ≠ .up) ∧
    (∃ (s : State) (n : Nat) (mode : Nat) (retrain : Bool), s.mwr.running = true ∧ n < 8 ∧ mode < 3) ∧
    (∃ (s : State) (n : Nat) (mode : Nat) (b : Nat) (retrain : Bool) (r : Bool), s.pwr.up = true ∧ s.core.datReset =
      false ∧ s.mail.mwToDat.front = some (.portMode n mode retrain) ∧ (port s n).state ≠ .up ∧ (port s n).mode ≠
      PortMode.ofCode mode) :=
  ⟨⟨on B (K .portMode [0,7,1]), I, K .portMode [0,7,1], 7, .ethernet, by decide +kernel⟩,
    ⟨on B (K .portMode [0,7,0]), I, K .portMode [0,7,0], 7, by decide +kernel⟩,
    ⟨on B (K .portMode [0,7,10]), I, K .portMode [0,7,10], 7, .flume, by decide +kernel⟩,
    ⟨B, 7, 2, true, by decide +kernel⟩,
    ⟨{B with mail := {mwToDat := {items := [.portMode 7 2 false]}}}, 7, 2, 0, false, true, by decide +kernel⟩⟩

theorem test_wit_Flits :
    (∃ (s : State) (p : Nat), (port s p).mode = .flume ∧ (port s p).state = .up ∧ s.core.datReset = false ∧ (port s
      p).flm.toReplay = [] ∧ nextVc (port s p).flm = none) ∧
    (∃ (s : State) (p : Nat) (v : Nat), (port s p).mode = .flume ∧ (port s p).state = .up ∧ s.core.datReset = false ∧
      (port s p).flm.toReplay = [] ∧ nextVc (port s p).flm = some v ∧ (port s p).flm.buffer.length < 512) ∧
    (∃ (s : State) (p : Nat) (lanes : List (List Byte)), (port s p).mode = .flume ∧ (port s p).state = .up ∧
      s.core.datReset = false ∧ (∀ i, i < 4 → chunkGood i (lanes.getD i []) = true) ∧ (∀ i, i < 4 → chunkSeq
      (lanes.getD i []) = (port s p).flm.n) ∧ (Ctl.ofWord (num (lanes.getD 0 []) 2 8)).type = 0 ∧ (Ctl.ofWord (num
      (lanes.getD 0 []) 2 8)).nak = none) ∧
    (∃ (s : State) (p : Nat) (lanes : List (List Byte)) (c : Ctl), (port s p).mode = .flume ∧ (port s p).state = .up
      ∧ s.core.datReset = false ∧ (∀ i, i < 4 → chunkGood i (lanes.getD i []) = true) ∧ (∀ i, i < 4 → chunkSeq
      (lanes.getD i []) = (port s p).flm.n) ∧ c = Ctl.ofWord (num (lanes.getD 0 []) 2 8) ∧ c.type = 1 ∧ c.nak = none
      ∧ c.start = 0xFF ∧ (port s p).flm.m = [] ∧ ((port s p).flm.rx.getD c.vc {}).part = [] ∧ ((port s p).flm.rx.getD
      c.vc {}).used < 4 * (port s p).flm.allocNow.getD c.vc 0) ∧
    (∃ (s : State) (p : Nat) (lanes : List (List Byte)), (port s p).mode = .flume ∧ (port s p).state = .up ∧
      s.core.datReset = false ∧ (∀ i, i < 4 → chunkGood i (lanes.getD i []) = false)) ∧
    (∃ (s : State) (p : Nat) (seq : Nat) (n : Nat) (a : Nat), (port s p).flm.m = [⟨seq, n, some a⟩] ∧ a + 320 ≤
      s.core.t) ∧
    (∃ (s : State) (p : Nat) (a : Nat), (port s p).mode = .flume ∧ (port s p).state = .up ∧ (port s p).flm.retryAt =
      some a ∧ a + 4000 ≤ s.core.t) :=
  ⟨⟨port_ Fl, 7, by decide +kernel⟩,
    ⟨port_ {Fl with flm := {tx := [(0, {queue := [[0,0,0,0,0,0,0,0]], avail := 1})]}}, 7, 0, by decide +kernel⟩,
    ⟨port_ Fl, 7, mkFlit 0 Cw (List.replicate 240 0), by decide +kernel⟩,
    ⟨port_ Fl, 7, mkFlit 0 {Cw with type := 1} (List.replicate 240 0), {Cw with type := 1}, by decide +kernel⟩,
    ⟨port_ Fl, 7, [[], [], [], []], by decide +kernel⟩,
    ⟨port_ {Fl with flm := {m := [⟨3, 1, some 0⟩]}}, 7, 3, 1, 0, by decide +kernel⟩,
    ⟨port_ {Fl with flm := {retryAt := some 0}}, 7, 0, by decide +kernel⟩⟩

theorem test_wit_Links :
    (∃ (s : State) (p : Nat), (port s p).state = .up) ∧
    (∃ (s : State) (p : Nat), (port s p).state = .up ∧ (port s p).mode = .ethernet) ∧
    (∃ (s : State) (p : Nat), (port s p).mode = .flume ∧ (port s p).state = .training ∧ (port s p).since + ms 100 ≤
      s.core.t ∧ s.core.t < (port s p).since + ms 150 ∧ s.core.datReset = false) ∧
    (∃ (s : State) (p : Nat), (port s p).mode = .flume ∧ (port s p).state = .training ∧ (port s p).since + ms 150 ≤
      s.core.t ∧ (port s p).failedAt = []) ∧
    (∃ (s : State) (p : Nat) (x : FlumeParams), (port s p).mode = .flume ∧ (port s p).state = .param ∧
      s.core.datReset = false ∧ paramRefusal s x = none) ∧
    (∃ (s : State) (p : Nat) (r : Nat) (x : FlumeParams), (port s p).mode = .flume ∧ (port s p).state = .param ∧
      s.core.datReset = false ∧ paramRefusal s x = some r ∧ (port s p).failedAt = []) ∧
    (∃ (s : State) (p : Nat), (port s p).state = .hold ∧ (port s p).since + ms 1 ≤ s.core.t ∧ (port s p).failedAt =
      []) ∧
    (∃ (s : State) (p : Nat), (port s p).mode = .ethernet ∧ (port s p).state = .training ∧ s.core.datReset = false) :=
  ⟨⟨port_ Fl, 7, by decide +kernel⟩,
    ⟨port_ {mode := .ethernet, state := .up}, 7, by decide +kernel⟩,
    ⟨port_ {mode := .flume, state := .training, since := 999900000000}, 7, by decide +kernel⟩,
    ⟨port_ {mode := .flume, state := .training}, 7, by decide +kernel⟩,
    ⟨port_ {mode := .flume, state := .param}, 7, ⟨9, 2, 1, [32, 48, 8, 8], 7, 290, none⟩, by decide +kernel⟩,
    ⟨port_ {mode := .flume, state := .param}, 7, 3, ⟨9, 2, 1, [32, 48, 8, 8], 7, 291, none⟩, by decide +kernel⟩,
    ⟨port_ {mode := .flume, state := .hold}, 7, by decide +kernel⟩,
    ⟨port_ {mode := .ethernet, state := .training}, 7, by decide +kernel⟩⟩

theorem test_wit_EthernetEvents :
    (∃ (s : State) (p : Nat) (x : EthFrame), s.pwr.state = .run ∧ (port s p).mode = .ethernet ∧ (port s p).state =
      .up ∧ s.core.datReset = false ∧ x.uncorrectable = 0 ∧ x.fcs = true ∧ x.pause = false ∧ x.tags < 2 ∧ 64 ≤ x.len
      ∧ x.len ≤ 4352 ∧ x.pfc = []) ∧
    (∃ (s : State) (p : Nat) (x : EthFrame), (port s p).mode = .ethernet ∧ (port s p).state = .up ∧ s.core.datReset =
      false ∧ x.uncorrectable = 0 ∧ (x.fcs = false ∨ x.pause = true ∨ 2 ≤ x.tags ∨ x.len < 64 ∨ 4352 < x.len)) ∧
    (∃ (s : State) (p : Nat) (k : Nat) (n : Nat) (x : EthFrame), (port s p).mode = .ethernet ∧ (port s p).state = .up
      ∧ s.core.datReset = false ∧ x.uncorrectable = 0 ∧ x.fcs = true ∧ x.pause = false ∧ x.tags < 2 ∧ 64 ≤ x.len ∧
      x.len ≤ 4352 ∧ x.pfc = [(k, n)] ∧ k < 8 ∧ bit (port s p).ethCfg k = true) ∧
    (∃ (s : State) (q : Nat) (x : Qp), s.pwr.state = .run ∧ qpOf s q = some x) ∧
    (∃ (s : State) (q : Nat) (x : Qp), qpOf s q = some x ∧ x.ccAt + us (feature s 0x52 0 55) ≤ s.core.t) ∧
    (∃ (s : State) (p : Nat) (raw : Nat), s.pwr.state = .run ∧ (port s p).state = .up ∧ s.core.datReset = false) ∧
    (∃ (s : State) (p : Nat) (raw : Nat), s.pwr.state = .run ∧ (port s p).state = .up ∧ s.core.datReset = false) :=
  ⟨⟨port_ {mode := .ethernet, state := .up}, 7, ⟨4352, 1, false, [], 0, 0, true⟩, by decide +kernel⟩,
    ⟨port_ {mode := .ethernet, state := .up}, 7, ⟨4353, 1, false, [], 0, 0, true⟩, by decide +kernel⟩,
    ⟨port_ {mode := .ethernet, state := .up, ethCfg := 128}, 7, 7, 3, ⟨64, 0, false, [(7, 3)], 0, 0, true⟩,
      by decide +kernel⟩,
    ⟨{B with rdm := {qps := [(16383, Q)]}}, 16383, Q, by decide +kernel⟩,
    ⟨{B with rdm := {qps := [(16383, Q)]}}, 16383, Q, by decide +kernel⟩,
    ⟨port_ Fl, 7, 5, by decide +kernel⟩,
    ⟨port_ Fl, 7, 5, by decide +kernel⟩⟩

theorem test_wit_MapAndUnmap :
    (∃ (s : State) (id : CmdId) (c : Cmd) (page : PageSize) (target : Target3) (va : Nat) (addr : Nat) (len : Nat)
      (old : List Extent) (new : List Extent), Runs s .map id c ∧ PageSize.ofCode (fld c.pkt 8 1 0) = some page ∧
      Target3.ofCode (fld c.pkt 8 3 2) = some target ∧ va = qw c.pkt 2 ∧ addr = qw c.pkt 4 ∧ len = qw c.pkt 6 % 2 ^
      44 ∧ fld c.pkt 7 31 12 = 0 ∧ fld c.pkt 8 31 7 = 0 ∧ va < 2 ^ 57 ∧ addr < 2 ^ 57 ∧ c.context ≤ 1023 ∧ ownsAsid s
      c.fn c.context = true ∧ va % page.bytes = 0 ∧ addr % page.bytes = 0 ∧ 0 < len ∧ len % page.bytes = 0 ∧ len ≤ 2
      ^ 43 ∧ va + len ≤ 2 ^ 57 ∧ targetPast s target addr len = false ∧ (target = .ddr → isGranary s = false) ∧ old =
      (s.mem.spaces.getD c.context { fn := c.fn }).extents ∧ (fbit c.pkt 8 5 = true ∨ rangeMapped old va (va + len) =
      false) ∧ new = insertExtent { va, page, count := len / page.bytes, target, addr, w := fbit c.pkt 8 4 }
      (dropPages old va (va + len)) ∧ holderOf s c.context va (va + len) = none ∧ ptsUsed s - tableBytes old +
      tableBytes new ≤ mib s.mem.sizes.pt) ∧
    (∃ (s : State) (id : CmdId) (c : Cmd) (va : Nat) (hi : Nat) (sp : Space), Runs s .unmap id c ∧ fld c.pkt 6 31 2 =
      0 ∧ fbit c.pkt 6 0 = false ∧ va = qw c.pkt 2 ∧ hi = va + qw c.pkt 4 % 2 ^ 44 ∧ va < 2 ^ 57 ∧ fld c.pkt 5 31 12
      = 0 ∧ c.context ≤ 1023 ∧ ownsAsid s c.fn c.context = true ∧ s.mem.spaces.get c.context = some sp ∧ splitsPage
      sp.extents va hi = false ∧ holderOf s c.context va hi = none ∧ s.mem.copies = [] ∧ s.chk.engines = [] ∧
      s.rdm.qps = [] ∧ s.rdm.srqs = [] ∧ s.mem.fills = []) ∧
    (∃ (s : State) (id : CmdId) (c : Cmd), Runs s .unmap id c ∧ fld c.pkt 6 31 2 = 0 ∧ fbit c.pkt 6 0 = true ∧ qw
      c.pkt 2 = 0 ∧ qw c.pkt 4 = 0 ∧ c.context ≤ 1023 ∧ ownsAsid s c.fn c.context = true ∧ holderOf s c.context 0 (2
      ^ 57) = none ∧ s.mem.copies = [] ∧ s.chk.engines = [] ∧ s.rdm.qps = [] ∧ s.rdm.srqs = [] ∧ s.mem.fills = []) ∧
    (∃ (s : State) (id : CmdId) (c : Cmd), Runs s .xlateInvalidate id c ∧ fld c.pkt 6 31 1 = 0 ∧ fld c.pkt 5 31 12 =
      0 ∧ qw c.pkt 2 < 2 ^ 57 ∧ qw c.pkt 4 % 2 ^ 44 = 0 ∧ c.context ≤ 1023 ∧ ownsAsid s c.fn c.context = true ∧
      holderOf s c.context 0 (2 ^ 57) = none ∧ s.mem.copies = [] ∧ s.chk.engines = [] ∧ s.rdm.qps = [] ∧ s.rdm.srqs =
      [] ∧ s.mem.fills = []) ∧
    (∃ (s : State) (id : CmdId) (d : Drain) (c : Cmd), s.mem.drains.find? (fun d => d.id = id) = some d ∧ drainOver s
      d = true ∧ findCmd s d.id = some c) :=
  ⟨⟨on Bm (K .map [0,7,0x800000,0,0x800000,0,0x200000,0,0x11]), I, K .map
      [0,7,0x800000,0,0x800000,0,0x200000,0,0x11], .p2M, .hbm, 0x800000, 0x800000, 0x200000, Sp.extents, insertExtent
      ⟨0x800000, .p2M, 1, .hbm, 0x800000, true⟩ (dropPages Sp.extents 0x800000 0xA00000), by decide +kernel⟩,
    ⟨on Bm (K .unmap [0,7,0,0,0x200000]), I, K .unmap [0,7,0,0,0x200000], 0, 0x200000, Sp, by decide +kernel⟩,
    ⟨on Bm (K .unmap [0,7,0,0,0,0,1]), I, K .unmap [0,7,0,0,0,0,1], by decide +kernel⟩,
    ⟨on Bm (K .xlateInvalidate [0,7]), I, K .xlateInvalidate [0,7], by decide +kernel⟩,
    ⟨{on B (K .unmap []) with mem := {drains := [⟨I, 7, [], [], [], [], 0, 0, [], 0, false⟩]}}, I, ⟨I, 7, [], [], [],
      [], 0, 0, [], 0, false⟩, K .unmap [], by decide +kernel⟩⟩

theorem test_wit_CopiesAndMemory :
    (∃ (s : State) (id : CmdId) (c : Cmd) (dst : Held), Runs s .copy id c ∧ c.context ≤ 1023 ∧ ownsAsid s c.fn
      c.context = true ∧ qw c.pkt 2 < 2 ^ 57 ∧ qw c.pkt 4 < 2 ^ 57 ∧ asidBad s c.fn (fld c.pkt 6 9 0) = false ∧ fld
      c.pkt 6 31 10 = 0 ∧ 0 < qw c.pkt 7 % 2 ^ 41 ∧ qw c.pkt 7 % 2 ^ 41 ≤ 2 ^ 40 ∧ fld c.pkt 8 31 9 = 0 ∧ dw c.pkt 9
      = 1 ∧ translate s { write := true } (fld c.pkt 6 9 0) (qw c.pkt 4) (qw c.pkt 7) = .ok dst) ∧
    (∃ (s : State) (id : CmdId) (c : Cmd) (src : Held) (dst : Held), Runs s .copy id c ∧ c.context ≤ 1023 ∧ ownsAsid
      s c.fn c.context = true ∧ qw c.pkt 2 < 2 ^ 57 ∧ qw c.pkt 4 < 2 ^ 57 ∧ asidBad s c.fn (fld c.pkt 6 9 0) = false
      ∧ fld c.pkt 6 31 10 = 0 ∧ 0 < qw c.pkt 7 % 2 ^ 41 ∧ qw c.pkt 7 % 2 ^ 41 ≤ 2 ^ 40 ∧ fld c.pkt 8 31 9 = 0 ∧ dw
      c.pkt 9 = 0 ∧ translate s {} c.context (qw c.pkt 2) (qw c.pkt 7) = .ok src ∧ translate s { write := true } (fld
      c.pkt 6 9 0) (qw c.pkt 4) (qw c.pkt 7) = .ok dst ∧ segsOverlap src.segs dst.segs = false) ∧
    (∃ (s : State) (id : CmdId) (bus : Bus) (c : Cmd) (d : CopyDesc) (a : Nat) (n : Nat) (f : Nat), s.mem.copies =
      [d] ∧ d.id = id ∧ d.src = none ∧ d.dst.len = n ∧ d.dst.segs =
      [{ target := .hbm, addr := a, len := n, fn := f }] ∧ s.core.datReset = false ∧ findCmd s id = some c) ∧
    (∃ (s : State) (fn : Nat) (off : Nat) (data : List Byte) (h : Held) (a : Nat) (f : Nat), bar4Range s fn off
      data.length true = .ok h ∧ h.segs = [{ target := .hbm, addr := a, len := data.length, fn := f }]) ∧
    (∃ (s : State) (fn : Nat) (off : Nat) (data : List Byte) (f : XFault), bar4Range s fn off data.length true =
      .error f) ∧
    (∃ (s : State) (fn : Nat) (off : Nat) (n : Nat) (bus : Bus) (h : Held) (a : Nat) (f : Nat), bar4Range s fn off n
      false = .ok h ∧ h.segs = [{ target := .hbm, addr := a, len := n, fn := f }] ∧ s.mem.bad = [] ∧ s.mem.weak = []) ∧
    (∃ (s : State) (fn : Nat) (off : Nat) (n : Nat) (bus : Bus) (f : XFault), bar4Range s fn off n false = .error f) ∧
    (∃ (s : State) (race : Nat) (slot : Nat) (off : Nat) (n : Nat) (data : List Byte) (f : Fill), s.mem.fills.get
      (race * 16 + slot) = some f ∧ f.out = [(off, n)] ∧ f.failed = none ∧ f.len ≤ f.posted) ∧
    (∃ (s : State) (pair : Nat) (reason : Nat), (pairOf s pair).state = .up ∧ isGranary s = false) ∧
    (∃ (s : State) (pair : Nat), s.mwr.running = true ∧ pair < 8) ∧
    (∃ (s : State) (pair : Nat), s.pwr.up = true ∧ s.core.datReset = false ∧ s.mail.mwToDat.front = some (.dimmBist
      pair) ∧ (pairOf s pair).state = .down ∧ (pairOf s pair).refused = false) ∧
    (∃ (s : State) (pair : Nat), (pairOf s pair).state = .fill) ∧
    (∃ (s : State) (pair : Nat), (pairOf s pair).state = .fill) ∧
    (∃ (s : State) (ch : Nat), (pairOf s (ch / 2)).state = .up ∧ s.mem.weak = []) ∧
    (∃ (s : State) (ch : Nat) (k : Nat) (b : Bool), (pairOf s (ch / 2)).state = .up ∧ s.mem.weak = [(k, b)] ∧ ddrBase
      ≤ 64 * k ∧ cellChannel s (64 * k) = ch) ∧
    (∃ (s : State) (ch : Nat) (a : Nat), (pairOf s (ch / 2)).state = .up ∧ s.mem.weak = []) ∧
    (∃ (s : State) (val : Nat), bit val 31 = true ∧ s.mem.spaces.get (bits val 9 0) = none) ∧
    (∃ (s : State) (val : Nat) (sp : Space) (e : Extent), bit val 31 = true ∧ s.mem.spaces.get (bits val 9 0) = some
      sp ∧ leafOf sp.extents (s.mem.probeVa % 2 ^ 57) = some e ∧ badTable s (bits val 9 0) (s.mem.probeVa % 2 ^ 57)
      e.page.level = none) ∧
    (∃ (s : State) (val : Nat) (l : Nat) (k : Nat) (sp : Space) (e : Extent), bit val 31 = true ∧ s.mem.spaces.get
      (bits val 9 0) = some sp ∧ leafOf sp.extents (s.mem.probeVa % 2 ^ 57) = some e ∧ badTable s (bits val 9 0)
      (s.mem.probeVa % 2 ^ 57) e.page.level = some (l, k)) :=
  ⟨⟨on Bm (K .copy [0,7,0,0,0x1000,0,7,64,0,1]), I, K .copy [0,7,0,0,0x1000,0,7,64,0,1], Hm 0x1000 64,
      by and_intros <;> first | decide +kernel | exact ok_of (by decide +kernel)⟩,
    ⟨on Bm (K .copy [0,7,0,0,0x1000,0,7,64,0,0]), I, K .copy [0,7,0,0,0x1000,0,7,64,0,0], Hm 0 64, Hm 0x1000 64,
      by and_intros <;> first | decide +kernel | exact ok_of (by decide +kernel)⟩,
    ⟨{on B (K .copy []) with mem := {copies := [⟨I, 0, none, Hm 0 64⟩]}}, I, {}, K .copy [], ⟨I, 0, none, Hm 0 64⟩,
      0, 64, 0, by decide +kernel⟩,
    ⟨Bm, 0, 0x7FFFFF, [1], Hm 0x7FFFFF 1, 0x7FFFFF, 0,
      by and_intros <;> first | decide +kernel | exact ok_of (by decide +kernel)⟩,
    ⟨Bm, 0, 0x800000, [1], { va := 0x800000, level := 1, cause := 1 },
      by and_intros <;> first | decide +kernel | exact error_of (by decide +kernel)⟩,
    ⟨Bm, 0, 0x7FFFFF, 1, {}, Hm 0x7FFFFF 1, 0x7FFFFF, 0,
      by and_intros <;> first | decide +kernel | exact ok_of (by decide +kernel)⟩,
    ⟨Bm, 0, 0x800000, 1, {}, { va := 0x800000, level := 1, cause := 1 },
      by and_intros <;> first | decide +kernel | exact error_of (by decide +kernel)⟩,
    ⟨{B with mem := {fills := [(0x13, {fn := 0, qpn := 1, handle := 1, offset := 0, len := 64, hopper := Hm 0 64, posted := 64, out := [(0, 64)]})]}},
      1, 3, 0, 64, [],
      {fn := 0, qpn := 1, handle := 1, offset := 0, len := 64, hopper := Hm 0 64, posted := 64, out := [(0, 64)]},
      by decide +kernel⟩,
    ⟨{B with mem := {pairs := [(7, {state := .up})]}}, 7, 3, by decide +kernel⟩,
    ⟨B, 7, by decide +kernel⟩,
    ⟨{B with mem := {pairs := [(7, {state := .down})]}, mail := {mwToDat := {items := [.dimmBist 7]}}}, 7,
      by decide +kernel⟩,
    ⟨{B with mem := {pairs := [(7, {state := .fill})]}}, 7, by decide +kernel⟩,
    ⟨{B with mem := {pairs := [(7, {state := .fill})]}}, 7, by decide +kernel⟩,
    ⟨{B with mem := {pairs := [(7, {state := .up})]}}, 15, by decide +kernel⟩,
    ⟨{Gs Bn {} with mem := {(Gs Bn {}).mem with weak := [(ddrBase / 64, true)]}}, 14, ddrBase / 64, true,
      by decide +kernel⟩,
    ⟨{B with mem := {pairs := [(7, {state := .up})]}}, 15, 64, by decide +kernel⟩,
    ⟨B, 0x80000007, by decide +kernel⟩,
    ⟨Bm, 0x80000007, Sp, ⟨0, .p2M, 4, .hbm, 0, true⟩, by decide +kernel⟩,
    ⟨Bp, 0x80000007, 4, tableLine Bm 7 4 0, Sp, ⟨0, .p2M, 4, .hbm, 0, true⟩,
      by and_intros <;> first | decide +kernel | exact bad_table_of_Bp⟩⟩

theorem test_wit_QueueControl :
    (∃ (s : State) (fn : Nat) (idx : Nat) (val : Nat) (q : Nat) (sq : Sq), s.pwr.state = .run ∧ globalQ s fn idx =
      some q ∧ s.hif.sqs.get q = some sq ∧ sq.state = .active ∧ val < sq.depth) ∧
    (∃ (s : State) (fn : Nat) (idx : Nat) (val : Nat) (q : Nat) (sq : Sq), s.pwr.state = .run ∧ globalQ s fn idx =
      some q ∧ s.hif.sqs.get q = some sq ∧ sq.state = .active ∧ sq.depth ≤ val) ∧
    (∃ (s : State) (fn : Nat) (idx : Nat) (val : Nat) (q : Nat) (cq : Cq), s.pwr.state = .run ∧ globalQ s fn idx =
      some q ∧ s.hif.cqs.get q = some cq ∧ cq.state = .active ∧ cq.waiting = [] ∧ val < cq.depth ∧ (val + cq.depth -
      cq.head) % cq.depth ≤ cq.used) ∧
    (∃ (s : State) (fn : Nat) (q : Nat), globalQ s fn (bits (win s fn).qsel 7 0) = some q ∧ bit (win s fn).qsel 8 =
      true ∧ 2 ≤ bits (win s fn).qcfg0 12 0 ∧ bits (win s fn).qcfg0 12 0 ≤ 4096 ∧ (s.hif.cqs.getD q {}).state = .free
      ∧ bits (bits (win s fn).qcfg0 31 24) 5 0 < (if fn = 0 then 64 else 8) ∧ 1 ≤ bits (win s fn).qcfg1 7 0 ∧ bits
      (win s fn).qcfg1 25 16 ≤ 1000) ∧
    (∃ (s : State) (fn : Nat) (q : Nat) (cq : Nat), globalQ s fn (bits (win s fn).qsel 7 0) = some q ∧ bit (win s
      fn).qsel 8 = false ∧ globalQ s fn (bits (win s fn).qcfg0 31 24) = some cq ∧ 2 ≤ bits (win s fn).qcfg0 12 0 ∧
      bits (win s fn).qcfg0 12 0 ≤ 4096 ∧ (s.hif.sqs.getD q {}).state = .free ∧ (s.hif.cqs.getD cq {}).state =
      .active) ∧
    (∃ (s : State) (fn : Nat) (q : Nat), globalQ s fn (bits (win s fn).qsel 7 0) = some q ∧ bit (win s fn).qsel 8 =
      false ∧ (s.hif.sqs.getD q {}).state ≠ .free ∧ sqBusy s q = false) ∧
    (∃ (s : State) (q : Nat), (s.hif.sqs.getD q {}).state = .deleting ∧ sqBusy s q = false) ∧
    (∃ (s : State) (n : Nat) (val : Nat), 1 ≤ n ∧ n ≤ 15 ∧ bits val 12 8 ≤ 16 ∧ bits val 7 0 + bits val 12 8 ≤ 256 ∧
      s.hif.sqs = [] ∧ s.hif.cqs = [] ∧ s.hif.ranges = []) :=
  ⟨⟨{B with hif := {sqs := [(255, {state := .active, depth := 2})]}}, 0, 255, 1, 255,
      {state := .active, depth := 2}, by decide +kernel⟩,
    ⟨{B with hif := {sqs := [(255, {state := .active, depth := 2})]}}, 0, 255, 2, 255,
      {state := .active, depth := 2}, by decide +kernel⟩,
    ⟨{B with hif := {cqs := [(255, {state := .active, depth := 4, used := 2})]}}, 0, 255, 2, 255,
      {state := .active, depth := 4, used := 2}, by decide +kernel⟩,
    ⟨{B with hif := {wins := [(0, {qsel := 0x1FF, qcfg0 := 0x3F001000, qcfg1 := 0x03E80001})]}}, 0, 255,
      by decide +kernel⟩,
    ⟨{B with hif := {wins := [(0, {qsel := 0xFE, qcfg0 := 0xFF000002})], cqs := [(255, {state := .active})]}}, 0,
      254, 255, by decide +kernel⟩,
    ⟨{B with hif := {wins := [(0, {qsel := 0xFE})], sqs := [(254, {state := .active})]}}, 0, 254, by decide +kernel⟩,
    ⟨{B with hif := {sqs := [(254, {state := .deleting})]}}, 254, by decide +kernel⟩,
    ⟨B, 15, 0x10F0, by decide +kernel⟩⟩

theorem test_wit_FetchAndWaits :
    (∃ (s : State) (sq : Nat) (q : Sq) (f : Fetched) (att : List Byte) (p : List Word), takesCommands s = true ∧
      fetchChoice s = some sq ∧ s.hif.sqs.get sq = some q ∧ f.packet = some p) ∧
    (∃ (s : State) (sq : Nat) (q : Sq) (f : Fetched) (att : List Byte), takesCommands s = true ∧ fetchChoice s = some
      sq ∧ s.hif.sqs.get sq = some q ∧ f.packet = none) ∧
    (∃ (s : State) (id : CmdId) (c : Cmd), findCmd s id = some c ∧ c.phase = .fenced ∧ s.core.ctlReset = false ∧
      mayStart s c = true) ∧
    (∃ (s : State) (id : CmdId) (c : Cmd), findCmd s id = some c ∧ c.phase = .stalled ∧ s.core.ctlReset = false) ∧
    (∃ (s : State) (id : CmdId) (c : Cmd) (t0 : Nat), findCmd s id = some c ∧ c.phase = .stalled ∧ c.stallAt = some
      t0 ∧ s.core.ctlReset = false ∧ t0 + ms 10 ≤ s.core.t) ∧
    (∃ (s : State) (q : Nat) (cq : Cq), s.hif.cqs.get q = some cq ∧ 0 < cq.unsig ∧ cq.oldest + us cq.coalUs ≤
      s.core.t) :=
  ⟨⟨{B with hif := {accept := true, sqs := [(255, {state := .active, depth := 2, tail := 1})]}}, 255,
      {state := .active, depth := 2, tail := 1}, ⟨some [1], none, true⟩, [], [1], by decide +kernel⟩,
    ⟨{B with hif := {accept := true, sqs := [(255, {state := .active, depth := 2, tail := 1})]}}, 255,
      {state := .active, depth := 2, tail := 1}, ⟨none, none, true⟩, [], by decide +kernel⟩,
    ⟨on B {K .nop [] with phase := .fenced}, I, {K .nop [] with phase := .fenced}, by decide +kernel⟩,
    ⟨on B {K .nop [] with phase := .stalled}, I, {K .nop [] with phase := .stalled}, by decide +kernel⟩,
    ⟨on B {K .nop [] with phase := .stalled, stallAt := some 0}, I,
      {K .nop [] with phase := .stalled, stallAt := some 0}, 0, by decide +kernel⟩,
    ⟨{B with hif := {cqs := [(255, {state := .active, unsig := 1})]}}, 255, {state := .active, unsig := 1},
      by decide +kernel⟩⟩

theorem test_wit_DeviceCommands :
    (∃ (s : State) (id : CmdId) (c : Cmd), Runs s .nop id c) ∧
    (∃ (s : State) (id : CmdId) (c : Cmd), Runs s .identify id c) ∧
    (∃ (s : State) (id : CmdId) (c : Cmd) (d : Cmd), Runs s .abort id c ∧ fld c.pkt 2 31 16 = 0 ∧ findCmd s
      { c.id with tag := fld c.pkt 2 15 0 } = some d ∧ d.accepted = false ∧ { c.id with tag := fld c.pkt 2 15 0 } ≠
      c.id) ∧
    (∃ (s : State) (id : CmdId) (c : Cmd) (d : Cmd), Runs s .abort id c ∧ fld c.pkt 2 31 16 = 0 ∧ findCmd s
      { c.id with tag := fld c.pkt 2 15 0 } = some d ∧ d.accepted = true) ∧
    (∃ (s : State) (id : CmdId) (c : Cmd), Runs s .abort id c ∧ fld c.pkt 2 31 16 = 0 ∧ findCmd s
      { c.id with tag := fld c.pkt 2 15 0 } = none ∧ endedUnder s { c.id with tag := fld c.pkt 2 15 0 } = false) ∧
    (∃ (s : State) (id : CmdId) (c : Cmd), Runs s .getLog id c ∧ dw c.pkt 2 = 3 ∧ fld c.pkt 6 31 1 = 0) ∧
    (∃ (s : State) (id : CmdId) (c : Cmd), Runs s .getLog id c ∧ dw c.pkt 2 = 2 ∧ fld c.pkt 6 31 1 = 0) ∧
    (∃ (s : State) (id : CmdId) (c : Cmd) (l : Nat), findCmd s id = some c ∧ c.phase = .waitRead (some l) ∧ l ≤
      s.core.t) :=
  ⟨⟨on B (K .nop []), I, K .nop [], by decide +kernel⟩,
    ⟨on B (K .identify []), I, K .identify [], by decide +kernel⟩,
    ⟨{B with hif := {cmds := [K .abort [0,0,2], {K .copy [] with id := ⟨.pcie 0, 2⟩, phase := .stalled}]}}, I, K
      .abort [0,0,2], {K .copy [] with id := ⟨.pcie 0, 2⟩, phase := .stalled}, by decide +kernel⟩,
    ⟨{B with hif := {cmds := [K .abort [0,0,2], {K .copy [] with id := ⟨.pcie 0, 2⟩, phase := .waiting}]}}, I, K
      .abort [0,0,2], {K .copy [] with id := ⟨.pcie 0, 2⟩, phase := .waiting}, by decide +kernel⟩,
    ⟨on B (K .abort [0,0,2]), I, K .abort [0,0,2], by decide +kernel⟩,
    ⟨on B (K .getLog [0,0,3]), I, K .getLog [0,0,3], by decide +kernel⟩,
    ⟨on B (K .getLog [0,0,2]), I, K .getLog [0,0,2], by decide +kernel⟩,
    ⟨on B {K .getLog [] with phase := .waitRead (some 5)}, I, {K .getLog [] with phase := .waitRead (some 5)}, 5,
      by decide +kernel⟩⟩

theorem test_wit_FeaturesAndFlr :
    (∃ (s : State) (id : CmdId) (c : Cmd) (n : Nat) (f : FeatRule), Runs s .setFeature id c ∧ n = fld c.pkt 2 7 0 ∧
      fld c.pkt 2 31 8 = 0 ∧ featRule s c.fn n (dw c.pkt 3) (qw c.pkt 4) = some f ∧ (f.pf = true → c.fn = 0) ∧
      f.target = true ∧ f.value = true ∧ n ≠ 0x61 ∧ n ≠ 0x80 ∧ n ≠ 0x44 ∧ n ≠ 0x81 ∧ n ≠ 0x82) ∧
    (∃ (s : State) (id : CmdId) (c : Cmd) (n : Nat) (f : FeatRule), Runs s .getFeature id c ∧ n = fld c.pkt 2 7 0 ∧
      fld c.pkt 2 31 8 = 0 ∧ featRule s c.fn n (dw c.pkt 3) 0 = some f ∧ f.target = true ∧ n ≠ 0x44 ∧ n ≠ 0x80) ∧
    (∃ (s : State) (n : Nat), 1 ≤ n ∧ n ≤ 15 ∧ s.pwr.pll = true ∧ feature s 0x01 n 0 = 0 ∧ s.hif.freeing = []) ∧
    (∃ (s : State), s.pwr.pll = true ∧ (∀ n, feature s 0x01 n 0 = 0) ∧ s.hif.freeing = []) :=
  ⟨⟨on B (K .setFeature [0,0,0x10,0,1000]), I, K .setFeature [0,0,0x10,0,1000], 0x10, ⟨false, true, true, 10, 0⟩,
      by decide +kernel⟩,
    ⟨on B (K .getFeature [0,0,0x10]), I, K .getFeature [0,0,0x10], 0x10, ⟨false, true, true, 10, 0⟩,
      by decide +kernel⟩,
    ⟨B, 15, by decide +kernel⟩,
    ⟨B, by and_intros <;> first | decide +kernel | exact fun _ => rfl⟩⟩

theorem test_wit_RegistersAndUsb :
    (∃ (s : State) (val : Nat), s.pwr.pll = true) ∧
    (∃ (s : State) (val : Nat), s.pwr.pll = true) ∧
    (∃ (s : State) (fn : Nat) (val : Nat), s.pwr.pll = true ∧ fn < 16) ∧
    (∃ (s : State) (fn : Nat) (off : Nat) (val : Nat), s.pwr.pll = true ∧ fn < 16 ∧ fn ≠ 0 ∧ 0x100 ≤ off) ∧
    (∃ (s : State) (val : Nat), s.mwr.running = true ∧ 10 ≤ bits val 13 0 ∧ bits val 13 0 ≤ 10000) ∧
    (∃ (s : State) (val : Nat), s.mwr.running = true ∧ bits val 13 0 < 10) ∧
    (∃ (s : State), s.pwr.pll = true ∧ s.hif.latch.get 0x900004 = none) ∧
    (∃ (s : State) (fn : Nat) (off : Nat), s.pwr.pll = true ∧ fn < 16 ∧ fn ≠ 0 ∧ 0x100 ≤ off) ∧
    (∃ (s : State) (r : Race), s.pwr.pll = true ∧ raceOf s s.whl.rsel = some r ∧ s.hif.latch.get 0x100018 = none) ∧
    (∃ (s : State) (v : Nat), s.pwr.pll = true ∧ s.hif.latch.get 0x10001C = some v) ∧
    (∃ (s : State), s.mwr.running = true) ∧
    (∃ (s : State) (pkt : List Word) (input : List Byte), s.pwr.state = .run ∧ s.usb.attached = true ∧ s.usb.enable =
      true ∧ s.mwr.serves = true ∧ pkt.length = 16 ∧ input.length ≤ 4096 ∧ s.usb.done.length < 16) ∧
    (∃ (s : State) (tag : Nat) (m : Nat) (d : UsbDone), s.usb.attached = true ∧ s.usb.enable = true ∧ s.mwr.serves =
      true ∧ m ≤ 4096 ∧ s.usb.done = [d] ∧ d.k.tag = tag) ∧
    (∃ (s : State) (tag : Nat) (m : Nat), s.usb.attached = true ∧ s.usb.enable = true ∧ s.mwr.serves = true ∧ m ≤
      4096 ∧ s.usb.done = [] ∧ s.hif.cmds = []) ∧
    (∃ (s : State), s.usb.attached = true ∧ s.mwr.serves = true ∧ s.usb.done = []) ∧
    (∃ (s : State) (val : Nat), s.pwr.pll = true) :=
  ⟨⟨B, 5, by decide +kernel⟩,
    ⟨B, 5, by decide +kernel⟩,
    ⟨B, 15, 5, by decide +kernel⟩,
    ⟨B, 15, 0x100, 5, by decide +kernel⟩,
    ⟨B, 10000, by decide +kernel⟩,
    ⟨B, 9, by decide +kernel⟩,
    ⟨B, by decide +kernel⟩,
    ⟨B, 15, 0x100, by decide +kernel⟩,
    ⟨{Br Rc with whl := {races := [(2047, Rc)], rsel := 2047}}, Rc, by decide +kernel⟩,
    ⟨{B with hif := {B.hif with latch := [(0x10001C, 7)]}}, 7, by decide +kernel⟩,
    ⟨B, by decide +kernel⟩,
    ⟨{B with usb := {attached := true}}, List.replicate 16 0, [], by decide +kernel⟩,
    ⟨{B with usb := {attached := true, done := [⟨{tag := 1, status := .success}, [], 0, 0⟩]}}, 1, 4096,
      ⟨{tag := 1, status := .success}, [], 0, 0⟩, by decide +kernel⟩,
    ⟨{B with usb := {attached := true}}, 1, 4096, by decide +kernel⟩,
    ⟨{B with usb := {attached := true}}, by decide +kernel⟩,
    ⟨B, 0, by decide +kernel⟩⟩

theorem test_wit_RaceCommands :
    (∃ (s : State) (id : CmdId) (c : Cmd) (a : Held) (b : Held), Runs s .raceOpen id c ∧ raceOf s c.context = none ∧
      fld c.pkt 2 7 4 ≤ 8 ∧ fld c.pkt 2 15 8 = 0 ∧ fld c.pkt 2 31 20 = 0 ∧ dw c.pkt 3 ≤ rateOf (fld c.pkt 2 3 2) / 2
      ∧ qw c.pkt 4 ≤ 0x7FFFFFFFFFFF ∧ qw c.pkt 6 ≤ 0x7FFFFFFFFFFF ∧ qw c.pkt 8 < 2 ^ 57 ∧ qw c.pkt 8 % 65536 = 0 ∧ 4
      ≤ fld c.pkt 10 3 0 ∧ fld c.pkt 10 3 0 ≤ 12 ∧ 4 ≤ fld c.pkt 10 7 4 ∧ fld c.pkt 10 7 4 ≤ 12 ∧ fld c.pkt 10 31 8 =
      0 ∧ qw c.pkt 11 < 2 ^ 57 ∧ qw c.pkt 11 % 65536 = 0 ∧ asidBad s c.fn (fld c.pkt 13 15 0) = false ∧ fld c.pkt 13
      31 16 = 0 ∧ racesOf s c.fn < quotaOf s 0x02 c.fn 2048 ∧ translate s { write := true } (fld c.pkt 13 15 0) (qw
      c.pkt 8) (ringBytes (fld c.pkt 10 3 0)) = .ok a ∧ translate s { write := true } (fld c.pkt 13 15 0) (qw c.pkt
      11) (ringBytes (fld c.pkt 10 7 4)) = .ok b ∧ ringFault s a b = none) ∧
    (∃ (s : State) (id : CmdId) (c : Cmd) (r : Race), Runs s .raceClose id c ∧ raceOf s c.context = some r ∧ r.fn =
      c.fn) ∧
    (∃ (s : State) (id : CmdId) (c : Cmd) (r : Race), Runs s .raceAnchor id c ∧ raceOf s c.context = some r ∧ r.fn =
      c.fn) ∧
    (∃ (s : State) (id : CmdId) (c : Cmd) (r : Race), Runs s .playoutReport id c ∧ raceOf s c.context = some r ∧ r.fn
      = c.fn ∧ fld c.pkt 3 31 16 = 0 ∧ dw c.pkt 6 = 0 ∧ s.dom.timeSuspect = false ∧ reportReason s r false (qw c.pkt
      2) (qw c.pkt 4) = 0) ∧
    (∃ (s : State) (id : CmdId) (c : Cmd) (r : Race), Runs s .playoutReport id c ∧ raceOf s c.context = some r ∧ r.fn
      = c.fn ∧ fld c.pkt 3 31 16 = 0 ∧ dw c.pkt 6 = 0 ∧ s.dom.timeSuspect = true ∧ r.playoutLocal = true ∧
      reportReason s r true (qw c.pkt 2) s.core.time = 0) ∧
    (∃ (s : State) (id : CmdId) (c : Cmd) (r : Race), Runs s .playoutReport id c ∧ raceOf s c.context = some r ∧ r.fn
      = c.fn ∧ fld c.pkt 3 31 16 = 0 ∧ dw c.pkt 6 = 0 ∧ s.dom.timeSuspect = false ∧ reportReason s r false (qw c.pkt
      2) (qw c.pkt 4) ≠ 0) ∧
    (∃ (s : State) (id : CmdId) (c : Cmd) (r : Race), Runs s .raceQuery id c ∧ raceOf s c.context = some r ∧ r.fn =
      c.fn) :=
  ⟨⟨on Bm (K .raceOpen [0,2047,0x81,4000,0,0,0,0,0,0,0x44,0x10000,0,7]), I, K .raceOpen
      [0,2047,0x81,4000,0,0,0,0,0,0,0x44,0x10000,0,7], Hm 0 36864, Hm 0x10000 36864,
      by and_intros <;> first | decide +kernel | exact ok_of (by decide +kernel)⟩,
    ⟨on (Br Rc) (K .raceClose [0,2047]), I, K .raceClose [0,2047], Rc, by decide +kernel⟩,
    ⟨on (Br Rc) (K .raceAnchor [0,2047]), I, K .raceAnchor [0,2047], Rc, by decide +kernel⟩,
    ⟨on (Br {Rc with w := 480}) (K .playoutReport [0,2047,480,0,1000]), I, K .playoutReport [0,2047,480,0,1000],
      {Rc with w := 480}, by decide +kernel⟩,
    ⟨on {Br {Rc with playoutLocal := true} with dom := {timeSuspect := true}} (K .playoutReport [0,2047]), I, K
      .playoutReport [0,2047], {Rc with playoutLocal := true}, by decide +kernel⟩,
    ⟨on (Br Rc) (K .playoutReport [0,2047,1,0,1000]), I, K .playoutReport [0,2047,1,0,1000], Rc, by decide +kernel⟩,
    ⟨on (Br Rc) (K .raceQuery [0,2047]), I, K .raceQuery [0,2047], Rc, by decide +kernel⟩⟩

theorem test_wit_RaceWrites :
    (∃ (s : State) (u : State) (race : Nat) (slot : Nat) (seq : Nat) (r : Race) (d : List Byte), s.pwr.state = .run ∧
      s.core.datReset = false ∧ raceOf s race = some r ∧ slot < 2 ^ r.inLog ∧ seq = r.inSeq ∧ seq < 2 ^ 32 ∧ u =
      putHeld r.inRing (slotOff slot + 28) (leBytes 4 seq) s ∧ d = (getHeld r.inRing (slotOff slot) 28 u).1.map (·.1)
      ∧ frameReason r d = 0) ∧
    (∃ (s : State) (race : Nat) (slot : Nat) (seq : Nat) (r : Race), s.pwr.state = .run ∧ s.core.datReset = false ∧
      raceOf s race = some r ∧ slot < 2 ^ r.inLog ∧ seq < 2 ^ 32 ∧ seq ≠ r.inSeq) ∧
    (∃ (s : State) (race : Nat) (seq : Nat) (r : Race), s.pwr.state = .run ∧ raceOf s race = some r ∧ r.markers = []) ∧
    (∃ (s : State) (race : Nat) (rseq : Nat) (qp : Option Nat) (r : Race), s.pwr.state = .run ∧ raceOf s race = some
      r ∧ rseq % 2 ^ 32 = (r.rseq + 1) % 2 ^ 32) ∧
    (∃ (s : State) (race : Nat) (rseq : Nat) (qp : Option Nat) (r : Race), raceOf s race = some r ∧ rseq % 2 ^ 32 ≠
      (r.rseq + 1) % 2 ^ 32) :=
  ⟨⟨{Br Rc with mem := {cells := [(0x101008, 0xC0), (0x101009, 3)]}}, putHeld Rc.inRing (slotOff 0 + 28) (leBytes 4
      0) ({Br Rc with mem := {cells := [(0x101008, 0xC0), (0x101009, 3)]}}), 2047, 0, 0, Rc, (getHeld Rc.inRing
      (slotOff 0) 28 (putHeld Rc.inRing (slotOff 0 + 28) (leBytes 4 0)
      ({Br Rc with mem := {cells := [(0x101008, 0xC0), (0x101009, 3)]}}))).1.map (·.1), by decide +kernel⟩,
    ⟨Br Rc, 2047, 15, 1, Rc, by decide +kernel⟩,
    ⟨Br Rc, 2047, 5, Rc, by decide +kernel⟩,
    ⟨Br Rc, 2047, 1, none, Rc, by decide +kernel⟩,
    ⟨Br Rc, 2047, 2, some 5, Rc, by decide +kernel⟩⟩

theorem test_wit_CogsAndTicks :
    (∃ (s : State) (id : CmdId) (c : Cmd) (r : Race), Runs s .cogSet id c ∧ raceOf s c.context = some r ∧ r.fn = c.fn
      ∧ (∀ e ∈ cogFields s c.fn c.pkt, e.1 = false) ∧ fld c.pkt 2 19 16 ≠ 3) ∧
    (∃ (s : State) (id : CmdId) (c : Cmd) (r : Race) (k : Nat) (g : Cog), Runs s .cogClear id c ∧ raceOf s c.context
      = some r ∧ r.fn = c.fn ∧ dw c.pkt 2 = 2 ^ k ∧ k < 16 ∧ s.whl.cogs.get (c.context * 16 + k) = some g) ∧
    (∃ (s : State), wheelOn s = true ∧ isMill s = true ∧ s.whl.cogs = [] ∧ s.whl.dirty = [] ∧ s.trn.items = []) ∧
    (∃ (s : State) (k : Nat) (g : Cog) (r : Race), wheelOn s = true ∧ isMill s = true ∧ s.whl.cogs = [(k, g)] ∧
      s.whl.dirty = [] ∧ s.whl.late = [] ∧ s.trn.items = [] ∧ raceOf s (k / 16) = some r ∧ g.armed = true ∧ g.lit =
      false ∧ g.timed r = true ∧ g.cond r s.core.time = true ∧ g.action = 0) ∧
    (∃ (s : State) (race : Nat) (slot : Nat) (g : Cog) (r : Race), wheelOn s = true ∧ slot < 16 ∧ raceOf s race =
      some r ∧ s.whl.cogs.get (race * 16 + slot) = some g ∧ g.armed = true ∧ g.lit = false ∧ g.timed r = true ∧
      g.cond r s.core.time = true ∧ g.action = 0) ∧
    (∃ (s : State) (race : Nat) (r : Race), wheelOn s = true ∧ raceOf s race = some r ∧ r.tstate = .live ∧ r.real ≠
      none ∧ slackOf r s.core.time = 0 ∧ r.final = false) ∧
    (∃ (s : State) (race : Nat) (r : Race), wheelOn s = true ∧ raceOf s race = some r ∧ r.tstate = .live ∧ r.real ≠
      none ∧ slackOf r s.core.time = 0 ∧ r.final = true) :=
  ⟨⟨on (Br Rc) (K .cogSet [0,2047]), I, K .cogSet [0,2047], Rc, by decide +kernel⟩,
    ⟨{on (Br Rc) (K .cogClear [0,2047,0x8000]) with whl := {races := [(2047, Rc)], cogs := [(32767, {cfg := 0, thr := 0, args := [], step := 0})]}},
      I, K .cogClear [0,2047,0x8000], Rc, 15, {cfg := 0, thr := 0, args := [], step := 0}, by decide +kernel⟩,
    ⟨B, by decide +kernel⟩,
    ⟨{Br Rc with whl := {races := [(2047, Rc)], cogs := [(32767, {cfg := 0x40, thr := 1000, args := [], step := 0})]}},
      32767, {cfg := 0x40, thr := 1000, args := [], step := 0}, Rc, by decide +kernel⟩,
    ⟨{Br Rc with whl := {races := [(2047, Rc)], cogs := [(32767, {cfg := 0x40, thr := 1000, args := [], step := 0})]}},
      2047, 15, {cfg := 0x40, thr := 1000, args := [], step := 0}, Rc, by decide +kernel⟩,
    ⟨Br {Rc with tstate := .live, real := some (0, 0)}, 2047, {Rc with tstate := .live, real := some (0, 0)},
      by decide +kernel⟩,
    ⟨Br {Rc with tstate := .live, real := some (0, 0), final := true}, 2047,
      {Rc with tstate := .live, real := some (0, 0), final := true}, by decide +kernel⟩⟩

theorem test_wit_TurnCommands :
    (∃ (s : State) (id : CmdId) (c : Cmd) (r : Race), Runs s .turnBegin id c ∧ (turnOf s c.context).state = .free ∧
      raceOf s (fld c.pkt 2 10 0) = some r ∧ r.fn = c.fn ∧ fld c.pkt 2 31 11 = 0 ∧ (dw c.pkt 3 = 0 ∨ 1000 ≤ dw c.pkt
      3) ∧ dw c.pkt 3 ≤ 1000000 ∧ fld c.pkt 4 2 0 ≤ 4 ∧ fld c.pkt 4 31 3 = 0 ∧ liveTurn s (fld c.pkt 2 10 0) = none ∧
      turnsOf s c.fn < quotaOf s 0x03 c.fn 64) ∧
    (∃ (s : State) (id : CmdId) (c : Cmd), Runs s .turnEnd id c ∧ (turnOf s c.context).state = .retiring ∧ (turnOf s
      c.context).fn = c.fn ∧ fld c.pkt 2 31 1 = 0) ∧
    (∃ (s : State) (id : CmdId) (c : Cmd), Runs s .turnEnd id c ∧ (turnOf s c.context).state = .listening ∧ (turnOf s
      c.context).fn = c.fn ∧ fld c.pkt 2 31 1 = 0 ∧ (turnOf s c.context).sails = [] ∧ turnItems s c.context = 0) ∧
    (∃ (s : State) (v : State) (id : CmdId) (c : Cmd), Runs s .sailRaise id c ∧ turnForeign s c = false ∧ fld c.pkt 5
      31 1 = 0 ∧ fbit c.pkt 5 0 = false ∧ qw c.pkt 3 < 2 ^ 48 ∧ raiseSail
      { turn := ctxTurn c, slot := ctxSail c, chain := fld c.pkt 2 15 0, stage := fld c.pkt 2 23 16, gang := fld c.pkt 2 31 24, hyp := qw c.pkt 3, cmd := some id }
      s = .ok v) ∧
    (∃ (s : State) (id : CmdId) (c : Cmd), Runs s .sailSet id c ∧ turnForeign s c = false ∧ (sailOf s (ctxTurn c)
      (ctxSail c)).state = .raised ∧ (sailOf s (ctxTurn c) (ctxSail c)).done = false ∧ (turnOf s (ctxTurn c)).sailsIn
      .raised = [ctxSail c]) ∧
    (∃ (s : State) (id : CmdId) (c : Cmd), Runs s .sailFurl id c ∧ turnForeign s c = false ∧ (sailOf s (ctxTurn c)
      (ctxSail c)).state = .raised ∧ s.trn.items = []) :=
  ⟨⟨on (Br Rc) (K .turnBegin [0,63,2047,1000000,4]), I, K .turnBegin [0,63,2047,1000000,4], Rc, by decide +kernel⟩,
    ⟨on (Bt {state := .retiring}) (K .turnEnd [0,63]), I, K .turnEnd [0,63], by decide +kernel⟩,
    ⟨on (Bt {state := .listening}) (K .turnEnd [0,63]), I, K .turnEnd [0,63], by decide +kernel⟩,
    ⟨on (Bt {state := .listening, race := 2047}) (K .sailRaise [0,0x3003F,0x070000FF]), (match raiseSail
      {turn := 63, slot := 3, chain := 255, stage := 0, gang := 7, hyp := 0, cmd := some I} (on (Bt
      {state := .listening, race := 2047}) (K .sailRaise [0,0x3003F,0x070000FF])) with | .ok v => v | .error _ => B),
      I, K .sailRaise [0,0x3003F,0x070000FF],
      by and_intros <;> first | decide +kernel | exact ok_of (by decide +kernel)⟩,
    ⟨on (Bt (Tn .speculating {state := .raised})) (K .sailSet [0,0x3003F]), I, K .sailSet [0,0x3003F],
      by decide +kernel⟩,
    ⟨on (Bt (Tn .speculating {state := .raised})) (K .sailFurl [0,0x3003F]), I, K .sailFurl [0,0x3003F],
      by decide +kernel⟩⟩

theorem test_wit_GateReleases :
    (∃ (s : State) (turn : Nat) (k : Nat), (sailOf s turn k).state = .furling ∧ s.trn.items = []) ∧
    (∃ (s : State) (turn : Nat) (k : Nat), (sailOf s turn k).state = .draining) ∧
    (∃ (s : State) (o : Nat) (a : Arena), s.mem.arenas.get o = some a ∧ a.filling = true) ∧
    (∃ (s : State) (turn : Nat) (k : Nat) (r : Race) (f : HeldFrame) (rest : List HeldFrame), (sailOf s turn k).state
      = .set ∧ leavingOf s turn k = none ∧ audioBefore s (turnOf s turn).race = false ∧ (sailOf s turn k).audio = f
      :: rest ∧ raceOf s (turnOf s turn).race = some r ∧ r.markers = [] ∧ s.core.datReset = false ∧ ringFull r =
      false ∧ r.checks = false ∧ r.w + f.nsmp ≤ posLimit) ∧
    (∃ (s : State) (turn : Nat) (k : Nat) (r : Race) (f : HeldFrame) (rest : List HeldFrame), (sailOf s turn k).state
      = .set ∧ leavingOf s turn k = none ∧ audioBefore s (turnOf s turn).race = false ∧ (sailOf s turn k).audio = f
      :: rest ∧ raceOf s (turnOf s turn).race = some r ∧ s.core.datReset = false ∧ r.checks = true ∧ frameGoes s r =
      true) ∧
    (∃ (s : State) (turn : Nat) (k : Nat) (l : Leaving) (r : Race) (f : HeldFrame) (g : HeldFrame) (rest : List
      HeldFrame), leavingOf s turn k = some l ∧ l.v.audio = f :: g :: rest ∧ raceOf s l.race = some r ∧
      s.core.datReset = false ∧ r.checks = false ∧ frameGoes s r = true ∧ r.w + f.nsmp ≤ posLimit) ∧
    (∃ (s : State) (turn : Nat) (k : Nat) (r : Race) (f : HeldFrame) (rest : List HeldFrame), (sailOf s turn k).state
      = .set ∧ leavingOf s turn k = none ∧ audioBefore s (turnOf s turn).race = false ∧ (sailOf s turn k).audio = f
      :: rest ∧ raceOf s (turnOf s turn).race = some r ∧ r.markers = [] ∧ s.core.datReset = false ∧ ringFull r =
      true) ∧
    (∃ (s : State) (turn : Nat) (k : Nat) (a : Nat) (f : Nat) (w : HeldWrite) (rest : List HeldWrite), (sailOf s turn
      k).state = .set ∧ leavingOf s turn k = none ∧ (sailOf s turn k).writes = w :: rest ∧ s.core.datReset = false ∧
      w.dest = .mem [{ target := .hbm, addr := a, len := w.data.length, fn := f }]) ∧
    (∃ (s : State) (turn : Nat) (k : Nat) (st : Nat) (w : HeldWrite) (rest : List HeldWrite), (sailOf s turn k).state
      = .set ∧ leavingOf s turn k = none ∧ (sailOf s turn k).writes = w :: rest ∧ s.core.datReset = false) :=
  ⟨⟨Bt (Tn .speculating {state := .furling}), 63, 3, by decide +kernel⟩,
    ⟨Bt (Tn .speculating {state := .draining}), 63, 3, by decide +kernel⟩,
    ⟨{B with mem := {arenas := [(64, ⟨64, true⟩)]}}, 64, ⟨64, true⟩, by decide +kernel⟩,
    ⟨Bt (Tn .committed {state := .set, audio := [⟨480, [], true⟩]}), 63, 3, Rc, ⟨480, [], true⟩, [],
      by decide +kernel⟩,
    ⟨{Bt (Tn .committed {state := .set, audio := [⟨120, [], false⟩]}) with whl := {races := [(2047, {Rc with tcheck := true})]}},
      63, 3, {Rc with tcheck := true}, ⟨120, [], false⟩, [], by decide +kernel⟩,
    ⟨{Bt (Tn .committed {}) with trn := {leaving := [⟨63, 3, 0, 2047, false, {state := .set, audio := [⟨120, [], false⟩, ⟨120, [], true⟩]}⟩]}},
      63, 3, ⟨63, 3, 0, 2047, false, {state := .set, audio := [⟨120, [], false⟩, ⟨120, [], true⟩]}⟩, Rc, ⟨120, [],
      false⟩, ⟨120, [], true⟩, [], by decide +kernel⟩,
    ⟨{Bt (Tn .committed {state := .set, audio := [⟨480, [], true⟩]}) with whl := {races := [(2047, {Rc with outSeq := 16})]}},
      63, 3, {Rc with outSeq := 16}, ⟨480, [], true⟩, [], by decide +kernel⟩,
    ⟨Bt (Tn .committed {state := .set, writes := [⟨.mem [⟨.hbm, 0, 1, 0⟩], [(1, false)]⟩]}), 63, 3, 0, 0, ⟨.mem
      [⟨.hbm, 0, 1, 0⟩], [(1, false)]⟩, [], by decide +kernel⟩,
    ⟨Bt (Tn .committed {state := .set, writes := [⟨.bin 0 0, [(1, false)]⟩]}), 63, 3, 4, ⟨.bin 0 0, [(1, false)]⟩,
      [], by decide +kernel⟩⟩

theorem test_wit_ImagesAndChains :
    (∃ (s : State) (id : CmdId) (bus : Bus) (c : Cmd) (h : Held) (b : Held) (d : List PByte × State) (e : List PByte
      × State), Runs s .imageLoad id c ∧ c.context ≤ 1023 ∧ s.stn.images.has c.context = false ∧ qw c.pkt 2 < 2 ^ 57
      ∧ asidBad s c.fn (fld c.pkt 4 15 0) = false ∧ fld c.pkt 4 31 16 = 0 ∧ 128 ≤ dw c.pkt 5 ∧ engineOwned s (fld
      c.pkt 6 3 0) c.fn = true ∧ fld c.pkt 6 31 4 = 0 ∧ qw c.pkt 7 < 2 ^ 57 ∧ translate s {} (fld c.pkt 4 15 0) (qw
      c.pkt 2) (dw c.pkt 5) = .ok h ∧ translate s {} (fld c.pkt 4 15 0) (qw c.pkt 7) 128 = .ok b ∧ d = readRuns bus
      h.segs (noteWalks b (noteWalks h s)) ∧ e = readRuns bus b.segs d.2 ∧ anyPoison d.1 = false ∧ anyPoison e.1 =
      false) ∧
    (∃ (s : State) (id : CmdId) (bus : Bus) (c : Cmd) (h : Held) (b : Held) (d : List PByte × State), Runs s
      .imageLoad id c ∧ c.context ≤ 1023 ∧ s.stn.images.has c.context = false ∧ qw c.pkt 2 < 2 ^ 57 ∧ asidBad s c.fn
      (fld c.pkt 4 15 0) = false ∧ fld c.pkt 4 31 16 = 0 ∧ 128 ≤ dw c.pkt 5 ∧ engineOwned s (fld c.pkt 6 3 0) c.fn =
      true ∧ fld c.pkt 6 31 4 = 0 ∧ qw c.pkt 7 < 2 ^ 57 ∧ translate s {} (fld c.pkt 4 15 0) (qw c.pkt 2) (dw c.pkt 5)
      = .ok h ∧ translate s {} (fld c.pkt 4 15 0) (qw c.pkt 7) 128 = .ok b ∧ d = readRuns bus h.segs (noteWalks b
      (noteWalks h s)) ∧ anyPoison d.1 = true) ∧
    (∃ (s : State) (id : CmdId) (c : Cmd) (m : Image), Runs s .imageUnload id c ∧ imageOf s c.context = some m ∧ m.fn
      = c.fn ∧ (∀ e ∈ s.stn.chains, c.context ∉ e.2.images)) ∧
    (∃ (s : State) (id : CmdId) (c : Cmd) (m : Image), Runs s .imageQuery id c ∧ imageOf s c.context = some m ∧ m.fn
      = c.fn) ∧
    (∃ (s : State) (id : CmdId) (c : Cmd), Runs s .imageQuery id c ∧ imageOf s c.context = none) ∧
    (∃ (s : State) (id : CmdId) (bus : Bus) (c : Cmd) (n : Nat) (ids : List Nat) (ms : List Image) (b : Held) (addr :
      List Nat) (binds : List Binding) (held : Tbl Held) (d : List PByte × State), Runs s .chainBind id c ∧ n = fld
      c.pkt 2 3 0 ∧ 1 ≤ n ∧ n ≤ 8 ∧ c.context ≤ 255 ∧ chainForeign s c = false ∧ fld c.pkt 2 31 4 = 0 ∧ qw c.pkt 7 <
      2 ^ 57 ∧ asidBad s c.fn (fld c.pkt 9 15 0) = false ∧ fld c.pkt 9 31 16 = 0 ∧ ids = (List.range n).map
      (stageField c.pkt) ∧ ids.map (imageOf s) = ms.map some ∧ (∀ m ∈ ms, m.fn = c.fn ∧ (isGranary s = true → m.flags
      = 0)) ∧ bindsClash ms = false ∧ chainBusy s c.context = false ∧ binds = (ms.flatMap (·.binds)).eraseDups ∧
      translate s {} (fld c.pkt 9 15 0) (qw c.pkt 7) 128 = .ok b ∧ d = readRuns bus b.segs s ∧ anyPoison d.1 = false
      ∧ addr = (List.range 16).map (fun i => num (d.1.map (·.1)) (8 * i) 8) ∧ (binds.filter (fun b => decide (b.kind
      = 2 ∨ b.kind = 5)) ≠ []) ∧ resolveBinds d.2 (fld c.pkt 9 15 0) addr (fun i => ms.any fun m => writesThrough m
      i) (binds.filter fun b => decide (b.kind = 2)) = .ok held) ∧
    (∃ (s : State) (id : CmdId) (c : Cmd), Runs s .chainBind id c ∧ fld c.pkt 2 3 0 = 0 ∧ fld c.pkt 2 31 4 = 0 ∧
      s.stn.chains.has c.context = true ∧ chainForeign s c = false ∧ chainBusy s c.context = false) :=
  ⟨⟨{on Bm (K .imageLoad [0,1023,0,0,7,128,15]) with chk := {engines := [(15, {owner := some 0})]}}, I, {}, K
      .imageLoad [0,1023,0,0,7,128,15], Hm 0 128, Hm 0 128, readRuns {} (Hm 0 128).segs (noteWalks (Hm 0 128)
      (noteWalks (Hm 0 128)
      ({on Bm (K .imageLoad [0,1023,0,0,7,128,15]) with chk := {engines := [(15, {owner := some 0})]}}))), readRuns
      {} (Hm 0 128).segs (readRuns {} (Hm 0 128).segs (noteWalks (Hm 0 128) (noteWalks (Hm 0 128)
      ({on Bm (K .imageLoad [0,1023,0,0,7,128,15]) with chk := {engines := [(15, {owner := some 0})]}})))).2,
      by and_intros <;> first | decide +kernel | exact ok_of (by decide +kernel)⟩,
    ⟨{on Bm (K .imageLoad [0,1023,0,0,7,128,15]) with chk := {engines := [(15, {owner := some 0})]}}, I,
      { errs := [(0, true)] }, K .imageLoad [0,1023,0,0,7,128,15], Hm 0 128, Hm 0 128, readRuns
      { errs := [(0, true)] } (Hm 0 128).segs (noteWalks (Hm 0 128) (noteWalks (Hm 0 128)
      ({on Bm (K .imageLoad [0,1023,0,0,7,128,15]) with chk := {engines := [(15, {owner := some 0})]}}))),
      by and_intros <;> first | decide +kernel | exact ok_of (by decide +kernel)⟩,
    ⟨on {B with stn := {images := [(1023, Im)]}} (K .imageUnload [0,1023]), I, K .imageUnload [0,1023], Im,
      by decide +kernel⟩,
    ⟨on {B with stn := {images := [(1023, Im)]}} (K .imageQuery [0,1023]), I, K .imageQuery [0,1023], Im,
      by decide +kernel⟩,
    ⟨on B (K .imageQuery [0,1023]), I, K .imageQuery [0,1023], by decide +kernel⟩,
    ⟨{on Bm (K .chainBind [0,255,1,1023,0,0,0,0,0,7]) with stn := {images := [(1023, {Im with binds := [⟨2, 2, 64⟩]})]}},
      I, {}, K .chainBind [0,255,1,1023,0,0,0,0,0,7], 1, [1023], [{Im with binds := [⟨2, 2, 64⟩]}], Hm 0 128,
      List.replicate 16 0, [⟨2, 2, 64⟩], [(2, Hm 0 64)], readRuns {} (Hm 0 128).segs
      ({on Bm (K .chainBind [0,255,1,1023,0,0,0,0,0,7]) with stn := {images := [(1023, {Im with binds := [⟨2, 2, 64⟩]})]}}),
      by and_intros <;> first | decide +kernel | exact ok_of (by decide +kernel)⟩,
    ⟨{on B (K .chainBind [0,255,0]) with stn := {chains := [(255, ⟨0, [1023], [], [], 0⟩)]}}, I, K .chainBind
      [0,255,0], by decide +kernel⟩⟩

theorem test_wit_FencesAndTests :
    (∃ (s : State) (id : CmdId) (c : Cmd) (l : List Nat) (floor : Bool), Runs s .stoneFence id c ∧ c.context ≤ 255 ∧
      dw c.pkt 2 = flag floor ∧ l = namedStones c.context floor ∧ s.stn.stones = [] ∧ s.stn.fences = [] ∧ (∀ n ∈ l,
      itemOn s n = none)) ∧
    (∃ (s : State) (id : CmdId) (c : Cmd) (n : Nat) (k : Nat) (i : Item), Runs s .stoneFence id c ∧ n = c.context ∧ n
      ≤ 255 ∧ dw c.pkt 2 = 0 ∧ s.stn.stones = [] ∧ s.stn.fences = [] ∧ itemOn s n = some (k, i) ∧ itemOf s k = some i
      ∧ i.state = .running ∧ i.yieldAt = none) ∧
    (∃ (s : State) (id : CmdId) (c : Cmd) (l : List Nat) (floor : Bool), Runs s .stoneReinstate id c ∧ c.context ≤
      255 ∧ dw c.pkt 2 = flag floor ∧ stonesBusy s (namedStones c.context floor) = false ∧ l ≠ [] ∧ l = (namedStones
      c.context floor).filter (fun n => decide ((stoneOf s n).state = .fenced))) ∧
    (∃ (s : State) (id : CmdId) (c : Cmd) (n : Nat), s.stn.tests = [{ id, stones := [n], floor := none }] ∧ findCmd s
      id = some c ∧ (∀ d ∈ s.hif.cmds, d.id = id → d.phase = .waiting)) ∧
    (∃ (s : State) (id : CmdId) (n : Nat), s.stn.tests = [{ id, stones := [n], floor := none }]) :=
  ⟨⟨on B (K .stoneFence [0,255,1]), I, K .stoneFence [0,255,1], namedStones 255 true, true, by decide +kernel⟩,
    ⟨on (Bi (It 0) (Tn .speculating {})) (K .stoneFence [0,0]), I, K .stoneFence [0,0], 0, 5, It 0,
      by decide +kernel⟩,
    ⟨{on B (K .stoneReinstate [0,255]) with stn := {stones := [(255, {state := .fenced})]}}, I, K .stoneReinstate
      [0,255], [255], false, by decide +kernel⟩,
    ⟨{on B {K .stoneReinstate [0,255] with phase := .waiting} with stn := {tests := [⟨I, [255], none, false⟩]}}, I,
      {K .stoneReinstate [0,255] with phase := .waiting}, 255, by decide +kernel⟩,
    ⟨{on B {K .stoneReinstate [0,255] with phase := .waiting} with stn := {tests := [⟨I, [255], none, false⟩]}}, I,
      255, by decide +kernel⟩⟩

theorem test_wit_CheckEngines :
    (∃ (s : State) (id : CmdId) (c : Cmd) (n : Nat), Runs s .chkClaim id c ∧ s.core.datReset = false ∧ dw c.pkt 2 = 0
      ∧ n = c.context ∧ n ≤ 15 ∧ (engineOf s n).owner = none) ∧
    (∃ (s : State) (id : CmdId) (c : Cmd) (n : Nat), Runs s .chkClaim id c ∧ s.core.datReset = false ∧ dw c.pkt 2 = 1
      ∧ n ≤ 15 ∧ (engineOf s n).owner = none ∧ (∀ k, k < n → (engineOf s k).owner ≠ none)) ∧
    (∃ (s : State) (id : CmdId) (c : Cmd), Runs s .chkConfig id c ∧ c.context ≤ 15 ∧ (engineOf s c.context).owner =
      some c.fn ∧ (∀ e ∈ chkCfgBad c.pkt, e.1 = false)) ∧
    (∃ (s : State) (id : CmdId) (c : Cmd) (n : Nat) (len : Nat) (h : Held) (e : Engine), Runs s .chkRun id c ∧ n =
      c.context ∧ n ≤ 15 ∧ e = engineOf s n ∧ e.owner = some c.fn ∧ len = dw c.pkt 5 ∧ qw c.pkt 2 < 2 ^ 57 ∧ asidBad
      s c.fn (fld c.pkt 4 9 0) = false ∧ fld c.pkt 4 31 10 = 0 ∧ fld c.pkt 8 31 1 = 0 ∧ (len = 0 → e.cfg.fold ≠ 0) ∧
      (e.cfg.alive ≠ 0 → e.cfg.ofs < len) ∧ e.run = none ∧ e.hostQ = [] ∧ e.intQ = [] ∧ translate s {} (fld c.pkt 4 9
      0) (qw c.pkt 2) len = .ok h) ∧
    (∃ (s : State) (id : CmdId) (c : Cmd) (n : Nat), Runs s .chkRelease id c ∧ n = c.context ∧ n ≤ 15 ∧ (engineOf s
      n).owner = some c.fn ∧ tcheckRace s n = none ∧ (engineOf s n).run = none ∧ (engineOf s n).hostQ = [] ∧
      (engineOf s n).intQ = []) ∧
    (∃ (s : State) (n : Nat) (bus : Bus) (j : Job) (id : CmdId) (c : Cmd) (r : Nat) (e : Engine) (d : List PByte ×
      State), s.core.datReset = false ∧ e = engineOf s n ∧ e.run = some j ∧ j.image = none ∧ j.frame = none ∧ e.hostQ
      = [] ∧ e.intQ = [] ∧ e.release = none ∧ j.cfg.alive = 0 ∧ j.id = some id ∧ d = readRuns bus j.held.segs s ∧
      findCmd d.2 id = some c ∧ anyPoison d.1 = false ∧ r = crc j.cfg.crc (foldBytes e j ++ d.1.map (·.1)) ∧
      (j.compare = true → r % 2 ^ j.cfg.crc.width = j.expected % 2 ^ j.cfg.crc.width)) :=
  ⟨⟨on B (K .chkClaim [0,15]), I, K .chkClaim [0,15], 15, by decide +kernel⟩,
    ⟨{on B (K .chkClaim [0,0,1]) with chk := {engines := [(0, {owner := some 3})]}}, I, K .chkClaim [0,0,1], 1,
      by decide +kernel⟩,
    ⟨{on B (K .chkConfig [0,15]) with chk := {engines := [(15, {owner := some 0})]}}, I, K .chkConfig [0,15],
      by decide +kernel⟩,
    ⟨{on Bm (K .chkRun [0,15,0,0,7,64]) with chk := {engines := [(15, {owner := some 0})]}}, I, K .chkRun
      [0,15,0,0,7,64], 15, 64, Hm 0 64, {owner := some 0},
      by and_intros <;> first | decide +kernel | exact ok_of (by decide +kernel)⟩,
    ⟨{on B (K .chkRelease [0,15]) with chk := {engines := [(15, {owner := some 0})]}}, I, K .chkRelease [0,15], 15,
      by decide +kernel⟩,
    ⟨{on B {K .chkRun [0,15] with phase := .waiting} with chk := {engines := [(15, {owner := some 0, run := some {id := I, held := Hm 0 8, len := 8, num := 0}})]}},
      15, {}, {id := I, held := Hm 0 8, len := 8, num := 0}, I, {K .chkRun [0,15] with phase := .waiting}, crc
      (ChkCfg.crc {}) (foldBytes {owner := some 0, run := some {id := I, held := Hm 0 8, len := 8, num := 0}}
      {id := I, held := Hm 0 8, len := 8, num := 0} ++ List.replicate 8 0),
      {owner := some 0, run := some {id := I, held := Hm 0 8, len := 8, num := 0}}, readRuns {} (Hm 0 8).segs
      ({on B {K .chkRun [0,15] with phase := .waiting} with chk := {engines := [(15, {owner := some 0, run := some {id := I, held := Hm 0 8, len := 8, num := 0}})]}}),
      by decide +kernel⟩⟩

theorem test_wit_GangsIssue :
    (∃ (s : State) (u : State) (n : Nat) (k : Nat) (j : Nat) (v : Nat) (fx : BundleFx) (i : Item) (m : Image) (b :
      Bed) (reg : Scalar) (p : Bool × State) (q : Bool × State), itemOf s n = some i ∧ imageOf s i.image = some m ∧
      i.issues m s.core.t = true ∧ b = i.bed k ∧ b.atSite = none ∧ b.halted = false ∧ (bundleAt m k j).isSome = true
      ∧ (fx.afterRun = true → b.runnerBusy s.core.t = false) ∧ b.bundle j = some v ∧ bundleBad v = false ∧ (∀ r ∈
      fx.control, (b.scalar.getD r {}).bad = false) ∧ reg = b.scalar.getD (bits (bits v 223 160) 24 20) {} ∧ p =
      opPoisoned b (i.stone k) fx.scalar (firstBundle n i s) ∧ q = opPoisoned b (i.stone k) fx.vector p.2 ∧ u =
      modBed n k (Bed.issued i k j s.core.t v reg.val) (bundleResults n k (i.stone k) b fx (firstBundle n i s)) ∧
      (slotOp (bits v 223 160) = 3 → reg.bad = false ∧ issueFault u i m (bits v 223 160) reg.val = none)) ∧
    (∃ (s : State) (n : Nat) (k : Nat) (j : Nat) (v : Nat) (fx : BundleFx) (i : Item) (m : Image), itemOf s n = some
      i ∧ imageOf s i.image = some m ∧ i.issues m s.core.t = true ∧ (i.bed k).atSite = none ∧ (i.bed k).halted =
      false ∧ (bundleAt m k j).isSome = true ∧ (fx.afterRun = true → (i.bed k).runnerBusy s.core.t = false) ∧ (i.bed
      k).bundle j = some v ∧ bundleBad v = true) ∧
    (∃ (s : State) (n : Nat) (k : Nat) (j : Nat) (fx : BundleFx) (i : Item) (m : Image), itemOf s n = some i ∧
      imageOf s i.image = some m ∧ i.issues m s.core.t = true ∧ (i.bed k).atSite = none ∧ (i.bed k).halted = false ∧
      (bundleAt m k j).isSome = true ∧ fx.afterRun = false ∧ (i.bed k).bundle j = none) ∧
    (∃ (s : State) (n : Nat) (k : Nat) (j : Nat) (fx : BundleFx) (i : Item) (m : Image), itemOf s n = some i ∧
      imageOf s i.image = some m ∧ i.issues m s.core.t = true ∧ (i.bed k).atSite = none ∧ (i.bed k).halted = false ∧
      (bundleAt m k j).isSome = true ∧ fx.afterRun = true ∧ (i.bed k).runnerBusy s.core.t = true) ∧
    (∃ (s : State) (n : Nat) (k : Nat) (op : Nat) (v : RunSlot) (fx : RunnerFx) (i : Item) (m : Image), itemOf s n =
      some i ∧ imageOf s i.image = some m ∧ i.state = .running ∧ (op = 1 ∨ op = 2) ∧ (i.bed k).slots.find? (fun v =>
      decide (slotOp v.word = 1 ∨ slotOp v.word = 2)) = some v ∧ slotOp v.word = op ∧ bits v.word 63 47 = fx.oper ∧
      matmulCycles v.word ≤ 8192 ∧ (i.bed k).microIn m = true) ∧
    (∃ (s : State) (n : Nat) (k : Nat) (slot : RunSlot) (bus : Bus) (bin : BinReply) (x : Issue) (segs : List Seg) (i
      : Item) (m : Image), itemOf s n = some i ∧ imageOf s i.image = some m ∧ i.state = .running ∧ dmaStart s i m k =
      some (slot, x) ∧ x.tmpl.op = 1 ∧ (x.bound = .mem segs ∨ x.bound = .arena segs ∨ ∃ h data, x.bound = .bin h ∧
      isGranary s = false ∧ bin = .ok data)) ∧
    (∃ (s : State) (n : Nat) (k : Nat) (t : Nat) (w : Nat) (slot : RunSlot) (bin : BinReply) (x : Issue) (segs : List
      Seg) (i : Item) (m : Image) (recs : List HeldWrite), itemOf s n = some i ∧ imageOf s i.image = some m ∧ i.state
      = .running ∧ dmaStart s i m k = some (slot, x) ∧ x.tmpl.op = 2 ∧ x.bound = .mem segs ∧ i.owner = .sail t w ∧
      (sailOf s t w).state ≠ .set ∧ recs = ((writeRows (i.stone k) x s).1.flatMap fun r => recordsOf (fun o n => .mem
      (subSegs segs (r.1 + o) n)) r.2) ∧ heldBytes (sailOf s t w).writes + heldBytes recs ≤ 262144 ∧ (sailOf s t
      w).writes.length + recs.length ≤ 1024 ∧ s.trn.turns.has t = true) ∧
    (∃ (s : State) (n : Nat) (k : Nat) (t : Nat) (w : Nat) (slot : RunSlot) (last : Bool) (x : Issue) (data : List
      PByte) (i : Item) (m : Image) (r : Race), itemOf s n = some i ∧ imageOf s i.image = some m ∧ i.state = .running
      ∧ dmaStart s i m k = some (slot, x) ∧ x.tmpl.op = 3 ∧ i.owner = .sail t w ∧ data = (readScratch (i.stone k)
      x.tmpl.scratch x.tmpl.len s).1 ∧ (∀ b ∈ data, b.2 = false) ∧ raceOf s (turnOf s t).race = some r ∧ frameFits r
      x.tmpl.len last = true ∧ (sailOf s t w).audio.length < 512 ∧ heldSmp (sailOf s t w).audio + x.tmpl.len / 2 ≤
      96000 ∧ s.trn.turns.has t = true) ∧
    (∃ (s : State) (n : Nat) (k : Nat) (t : Nat) (slot : RunSlot) (x : Issue) (l : List Byte) (i : Item) (m : Image)
      (r : Race), itemOf s n = some i ∧ imageOf s i.image = some m ∧ i.state = .running ∧ dmaStart s i m k = some
      (slot, x) ∧ x.tmpl.op = 4 ∧ i.turn? = some t ∧ (readScratch (i.stone k) x.tmpl.scratch 16 s).1 = l.map (fun b
      => (b, false)) ∧ raceOf s (turnOf s t).race = some r) ∧
    (∃ (s : State) (n : Nat) (k : Nat) (i : Item) (d : Dma), itemOf s n = some i ∧ i.dmas = [d] ∧ d.stone = k ∧
      s.tly.tokens = [] ∧ (∀ v ∈ (i.bed k).slots, slotOp v.word ≠ 3)) :=
  ⟨⟨Bi Ii (Tn .speculating {}), modBed 5 0 (Bed.issued Ii 0 0 1000000000000 Vb 0) (bundleResults 5 0 (Ii.stone 0) Bb
      Fx (firstBundle 5 Ii (Bi Ii (Tn .speculating {})))), 5, 0, 0, Vb, Fx, Ii, Im, Bb, {}, opPoisoned Bb (Ii.stone
      0) Fx.scalar (firstBundle 5 Ii (Bi Ii (Tn .speculating {}))), opPoisoned Bb (Ii.stone 0) Fx.vector (opPoisoned
      Bb (Ii.stone 0) Fx.scalar (firstBundle 5 Ii (Bi Ii (Tn .speculating {})))).2, by decide +kernel⟩,
    ⟨Bi {It 0 with beds := [(0, {buf := [0, 8]})]} (Tn .speculating {}), 5, 0, 1, 8, Fx,
      {It 0 with beds := [(0, {buf := [0, 8]})]}, Im, by decide +kernel⟩,
    ⟨Bi (It 0) (Tn .speculating {}), 5, 0, 1, Fx, It 0, Im, by decide +kernel⟩,
    ⟨Bi {Ii with beds := [(0, {Bb with runner := [⟨0, 1000000000001⟩]})]} (Tn .speculating {}), 5, 0, 0,
      {Fx with afterRun := true}, {Ii with beds := [(0, {Bb with runner := [⟨0, 1000000000001⟩]})]}, Im,
      by decide +kernel⟩,
    ⟨Bi (It 2) (Tn .speculating {}), 5, 0, 2, ⟨2, 0⟩, ⟨0, [], 0, 0⟩, It 2, Im, by decide +kernel⟩,
    ⟨Bi (It 3) (Tn .speculating {}), 5, 0, ⟨3, 0⟩, {}, .ok [], ⟨⟨1, 0, 0, 64, 0, 1, 0⟩, 0, .mem [⟨.hbm, 0, 64, 0⟩]⟩,
      [⟨.hbm, 0, 64, 0⟩], It 3, Im,
      by and_intros <;> first | decide +kernel | exact .inl rfl | exact ok_of (by decide +kernel)⟩,
    ⟨Bi (It 0x103) (Tn .speculating {state := .raised}), 5, 0, 63, 3, ⟨0x103, 0⟩, .ok [], ⟨⟨2, 0, 0, 64, 0, 1, 0⟩, 0,
      .mem [⟨.hbm, 0, 64, 0⟩]⟩, [⟨.hbm, 0, 64, 0⟩], It 0x103, Im, [⟨.mem [⟨.hbm, 0, 64, 0⟩], List.replicate 64 (0,
      false)⟩], by decide +kernel⟩,
    ⟨Bi (It 0x203) (Tn .speculating {state := .raised}), 5, 0, 63, 3, ⟨0x203, 0⟩, true, ⟨⟨3, 1, 0, 64, 0, 1, 0⟩, 0,
      .tail⟩, List.replicate 64 (0, false), It 0x203, Im, Rc, by decide +kernel⟩,
    ⟨{Bi (It 0x303) (Tn .speculating {state := .raised}) with core := {(B).core with timeValid := true}}, 5, 0, 63,
      ⟨0x303, 0⟩, ⟨⟨4, 9, 0, 16, 0, 1, 0⟩, 0, .tail⟩, List.replicate 16 0, It 0x303, Im, Rc, by decide +kernel⟩,
    ⟨Bi {It 0 with dmas := [⟨0, 3⟩]} (Tn .speculating {}), 5, 0, {It 0 with dmas := [⟨0, 3⟩]}, ⟨0, 3⟩,
      by decide +kernel⟩⟩

theorem test_wit_GangsAdvance :
    (∃ (s : State) (n : Nat) (k : Nat) (sp : Spur) (i : Item) (m : Image) (links : List (Nat × Nat)), itemOf s n =
      some i ∧ imageOf s i.image = some m ∧ i.issues m s.core.t = true ∧ sp.site = i.site ∧ sp.cycle ≤ i.adv ∧ i.adv
      ≤ sp.cycle + 1 ∧ sp.dest < 16 * i.floors ∧ k < 16 * i.floors ∧ (i.bed k).spurIn m k = true ∧ links = ((routeOf
      k sp.dest sp.yx).zipIdx.map fun e => (e.1, sp.cycle + e.2)) ∧ (∀ fl ∈ i.flights, ∀ a ∈ links, linkClash a
      sp.beats fl = false)) ∧
    (∃ (s : State) (n : Nat) (k : Nat) (sp : Spur) (i : Item) (m : Image), itemOf s n = some i ∧ imageOf s i.image =
      some m ∧ i.issues m s.core.t = true ∧ sp.site = i.site ∧ sp.cycle ≤ i.adv ∧ i.adv ≤ sp.cycle + 1 ∧ 16 *
      i.floors ≤ sp.dest) ∧
    (∃ (s : State) (n : Nat) (site : Nat) (i : Item) (m : Image), itemOf s n = some i ∧ imageOf s i.image = some m ∧
      i.state = .running ∧ activeStones m ≠ [] ∧ (∀ k ∈ activeStones m, (i.bed k).atSite = some site) ∧ (∀ fl ∈
      i.flights, fl.beats ≤ fl.landed) ∧ i.yieldAt = none) ∧
    (∃ (s : State) (n : Nat) (site : Nat) (y : Nat) (i : Item) (m : Image), itemOf s n = some i ∧ imageOf s i.image =
      some m ∧ i.state = .running ∧ activeStones m ≠ [] ∧ (∀ k ∈ activeStones m, (i.bed k).atSite = some site) ∧ (∀
      fl ∈ i.flights, fl.beats ≤ fl.landed) ∧ i.yieldAt = some y ∧ (∀ b ∈ i.beds, b.2.atSite = none ∨ y <
      b.2.atSince) ∧ i.preempt = false) ∧
    (∃ (s : State) (n : Nat) (i : Item), itemOf s n = some i ∧ i.state = .yielding) ∧
    (∃ (s : State) (n : Nat) (i : Item), itemOf s n = some i ∧ i.state = .running ∧ 16384 ≤ i.adv) ∧
    (∃ (s : State) (n : Nat) (t : Nat) (i : Item) (m : Image), itemOf s n = some i ∧ imageOf s i.image = some m ∧
      i.state = .running ∧ activeStones m ≠ [] ∧ (∀ k ∈ activeStones m, (i.bed k).halted = true) ∧ i.owner = .turn t) ∧
    (∃ (s : State) (n : Nat) (t : Nat) (k : Nat) (i : Item) (m : Image), itemOf s n = some i ∧ imageOf s i.image =
      some m ∧ i.state = .running ∧ activeStones m ≠ [] ∧ (∀ k ∈ activeStones m, (i.bed k).halted = true) ∧ i.owner =
      .sail t k ∧ s.trn.turns.has t = true ∧ (sailOf s t k).state ≠ .set ∧ hasNext s i = false) ∧
    (∃ (s : State) (n : Nat) (t : Nat) (k : Nat) (i : Item), itemOf s n = some i ∧ i.state = .faulted ∧ i.runnersAt
      s.core.t = 0 ∧ i.owner = .sail t k) ∧
    (∃ (s : State) (n : Nat) (code : Nat) (k : Nat) (i : Item) (m : Image), itemOf s n = some i ∧ i.state = .running
      ∧ imageOf s i.image = some m) :=
  ⟨⟨Bi {It 0 with beds := [(0, Bq)]} (Tn .speculating {}), 5, 0, ⟨0, 0, 15, false, 1, 0⟩,
      {It 0 with beds := [(0, Bq)]}, Im, (routeOf 0 15 false).zipIdx.map fun e => (e.1, 0 + e.2),
      by and_intros <;> first | decide +kernel | exact rfl | exact spur_in_Bq⟩,
    ⟨Bi (It 0) (Tn .speculating {}), 5, 0, ⟨0, 0, 16, false, 1, 0⟩, It 0, Im, by decide +kernel⟩,
    ⟨Bi {It 0 with beds := [(0, {atSite := some 3})]} (Tn .speculating {}), 5, 3,
      {It 0 with beds := [(0, {atSite := some 3})]}, Im, by decide +kernel⟩,
    ⟨Bi {It 0 with beds := [(0, {atSite := some 3, atSince := 11})], yieldAt := some 10} (Tn .speculating {}), 5, 3,
      10, {It 0 with beds := [(0, {atSite := some 3, atSince := 11})], yieldAt := some 10}, Im, by decide +kernel⟩,
    ⟨Bi {It 0 with state := .yielding} (Tn .speculating {}), 5, {It 0 with state := .yielding}, by decide +kernel⟩,
    ⟨Bi {It 0 with adv := 16384} (Tn .speculating {}), 5, {It 0 with adv := 16384}, by decide +kernel⟩,
    ⟨Bi {It 0 with owner := .turn 63, beds := [(0, {halted := true})]} (Tn .speculating {}), 5, 63,
      {It 0 with owner := .turn 63, beds := [(0, {halted := true})]}, Im, by decide +kernel⟩,
    ⟨Bi {It 0 with beds := [(0, {halted := true})]} (Tn .speculating {state := .raised}), 5, 63, 3,
      {It 0 with beds := [(0, {halted := true})]}, Im, by decide +kernel⟩,
    ⟨Bi {It 0 with state := .faulted} (Tn .speculating {}), 5, 63, 3, {It 0 with state := .faulted},
      by decide +kernel⟩,
    ⟨Bi (It 0) (Tn .speculating {}), 5, 3, 0, It 0, Im, by decide +kernel⟩⟩

theorem test_wit_CodeCorrects :
    (∃ (i : Nat), i < 64) ∧
    (∃ (j : Nat), j < 8) ∧
    (∃ (k : Nat), k ≤ 20) ∧
    (∃ (n : Nat), n ≠ 0 ∧ (∀ i, i < 64 → n ≠ ocpCol i) ∧ (∀ j, j < 8 → n ≠ 2 ^ j) ∧ (∀ k, k ≤ 20 → n ≠ ocpF k)) ∧
    (∃ (w : OWord) (a : Nat), w.bad = false) ∧
    (∃ (s : State) (i : Nat) (word : Nat) (cons : Nat) (w : OWord), (ocpInst s i).words.get word = some w ∧ w.bad =
      false ∧ (∀ m ∈ (ocpGroup s i (groupOf i word)).merge, m.word ≠ word)) ∧
    (∃ (d : Nat) (a : Nat) (k : Nat), k ≤ 20) ∧
    (∃ (d : Nat) (a : Nat) (i : Nat) (j : Nat), i < j ∧ j < 64 ∧ (∃ k, k ≤ 20 ∧ ocpCol i ^^^ ocpCol j = ocpF k)) :=
  ⟨⟨63, by decide +kernel⟩,
    ⟨7, by decide +kernel⟩,
    ⟨20, by decide +kernel⟩,
    ⟨15, by decide +kernel⟩,
    ⟨⟨5, 0, false⟩, 9, by decide +kernel⟩,
    ⟨{B with ocp := {insts := [(259, {words := [(7, ⟨5, 0, false⟩)]})]}}, 259, 7, 0, ⟨5, 0, false⟩,
      by decide +kernel⟩,
    ⟨5, 9, 20, by decide +kernel⟩,
    ⟨5, 9, 0, 1, by and_intros <;> first | decide +kernel | exact ⟨5, by decide, by decide⟩⟩⟩

theorem test_wit_WordsAndSpares :
    (∃ (s : State) (i : Nat) (word : Nat) (data : Nat), wordExists s i word = true ∧ injection s i word = none) ∧
    (∃ (s : State) (i : Nat) (word : Nat) (data : Nat) (dx : Nat) (cx : Nat), wordExists s i word = true ∧ injection
      s i word = some (dx, cx)) ∧
    (∃ (s : State) (i : Nat) (word : Nat) (en : Nat) (data : Nat) (who : Option CmdId), wordExists s i word = true ∧
      en % 256 ≠ 0 ∧ en % 256 ≠ 255 ∧ (ocpGroup s i (groupOf i word)).merge.length < 8 ∧ (∀ m ∈ (ocpGroup s i
      (groupOf i word)).merge, m.word ≠ word)) ∧
    (∃ (s : State) (i : Nat) (word : Nat) (en : Nat) (data : Nat) (who : Option CmdId) (m : Merge), wordExists s i
      word = true ∧ en % 256 ≠ 0 ∧ (ocpGroup s i (groupOf i word)).merge = [m] ∧ m.word = word ∧ m.mask ||| en % 256
      = 255 ∧ injection s i word = none) ∧
    (∃ (s : State) (i : Nat) (g : Nat) (m : Merge) (r : List Merge) (w : OWord), (ocpGroup s i g).merge = m :: r ∧
      m.mask ≠ 255 ∧ (ocpInst s i).words.get m.word = some w ∧ w.classAt m.word = (.clean, 0) ∧ injection s i m.word
      = none) ∧
    (∃ (s : State) (i : Nat) (g : Nat) (word : Nat) (x : OGroup) (rest : List Nat), x = ocpGroup s i g ∧ x.hard =
      word :: rest ∧ x.spares < 32) ∧
    (∃ (s : State) (i : Nat) (g : Nat) (word : Nat) (x : OGroup) (rest : List Nat), x = ocpGroup s i g ∧ x.hard =
      word :: rest ∧ 32 ≤ x.spares ∧ x.full = false) ∧
    (∃ (s : State) (i : Nat) (g : Nat) (d : List (Nat × Nat)) (c : List (Nat × Nat)) (o : List Nat), i ≤ 259 ∧ g <
      groupCount i ∧ clocked s i = true) ∧
    (∃ (s : State) (i : Nat) (g : Nat) (k : Nat) (word : Nat) (w : OWord), i ≤ 259 ∧ g < groupCount i ∧ clocked s i =
      true ∧ k < 64 ∧ word = g * groupWords i + (ocpGroup s i g).pos ∧ groupOf i word = g ∧ (ocpGroup s i g).merge =
      [] ∧ (ocpInst s i).words.get word = some w ∧ w.bad = false ∧ w.data < 2 ^ 64 ∧ word < 2 ^ 21 ∧ w.check =
      ocpCheck w.data word ∧ injection s i word = none ∧ word ∉ (ocpInst s i).odd) ∧
    (∃ (s : State) (i : Nat), i ≤ 259 ∧ clocked s i = true ∧ (ocpInst s i).slow = false ∧ (ocpInst s i).lapAt +
      scrubLimit s i < clockedTime s i) ∧
    (∃ (s : State) (i : Nat) (g : Nat) (val : Nat), i = s.ocp.remapInst ∧ g = bits val 25 21 ∧ bit val 31 = true ∧
      s.mwr.running = true ∧ i ≤ 259 ∧ g < groupCount i ∧ (ocpGroup s i g).spares < 32) :=
  ⟨⟨B, 259, 262143, 5, by decide +kernel⟩,
    ⟨{B with ocp := {inject := 0x10303, injWord := 7, injMask := 3}}, 259, 7, 5, 3, 0, by decide +kernel⟩,
    ⟨B, 259, 7, 1, 5, some I, by decide +kernel⟩,
    ⟨{B with ocp := {insts := [(259, {groups := [(0, {merge := [⟨7, 0xFE, 0, 0, []⟩]})]})]}}, 259, 7, 1, 5, none, ⟨7,
      0xFE, 0, 0, []⟩, by decide +kernel⟩,
    ⟨{B with ocp := {insts := [(259, {words := [(7, ⟨0, ocpCheck 0 7, false⟩)], groups := [(0, {merge := [⟨7, 1, 0, 0, []⟩]})]})]}},
      259, 0, ⟨7, 1, 0, 0, []⟩, [], ⟨0, ocpCheck 0 7, false⟩, by decide +kernel⟩,
    ⟨{B with ocp := {insts := [(259, {groups := [(3, {hard := [7], spares := 31})]})]}}, 259, 3, 7,
      {hard := [7], spares := 31}, [], by decide +kernel⟩,
    ⟨{B with ocp := {insts := [(259, {groups := [(3, {hard := [7], spares := 32})]})]}}, 259, 3, 7,
      {hard := [7], spares := 32}, [], by decide +kernel⟩,
    ⟨B, 259, 3, [], [], [], by decide +kernel⟩,
    ⟨{B with ocp := {insts := [(259, {words := [(196613, ⟨5, ocpCheck 5 196613, false⟩)], groups := [(3, {pos := 5})]})]}},
      259, 3, 63, 196613, ⟨5, ocpCheck 5 196613, false⟩, by decide +kernel⟩,
    ⟨B, 259, by decide +kernel⟩,
    ⟨{B with ocp := {remapInst := 259}}, 259, 3, 0x80600000, by decide +kernel⟩⟩

theorem test_wit_RdmaObjects :
    (∃ (s : State) (id : CmdId) (c : Cmd) (use : Bool) (asid : Nat) (sk : Nat) (rk : Nat) (h : Held) (rring : Option
      Held), Runs s .qpCreate id c ∧ s.rdm.qps.length < 16384 ∧ c.context ≤ 16383 ∧ s.rdm.qps.has c.context = false ∧
      fld c.pkt 2 1 0 ≠ 3 ∧ use = fbit c.pkt 2 5 ∧ fld c.pkt 2 15 6 = 0 ∧ asid = fld c.pkt 2 25 16 ∧ ownsAsid s c.fn
      asid = true ∧ fld c.pkt 2 31 26 = 0 ∧ cqForeign s c.fn (fld c.pkt 3 12 0) = false ∧ cqForeign s c.fn (fld c.pkt
      3 28 16) = false ∧ fld c.pkt 3 15 13 = 0 ∧ fld c.pkt 3 31 29 = 0 ∧ (if use then ∃ x, s.rdm.srqs.get (fld c.pkt
      4 8 0) = some x ∧ x.fn = c.fn else dw c.pkt 4 = 0) ∧ fld c.pkt 4 31 9 = 0 ∧ sk = fld c.pkt 5 3 0 ∧ rk = fld
      c.pkt 5 7 4 ∧ 4 ≤ sk ∧ (if use then rk = 0 else 4 ≤ rk) ∧ fld c.pkt 5 31 8 = 0 ∧ qw c.pkt 6 < 2 ^ 57 ∧ qw c.pkt
      6 % 4096 = 0 ∧ qw c.pkt 8 < 2 ^ 57 ∧ (use = false → qw c.pkt 8 % 4096 = 0) ∧ qpsOf s c.fn < (if c.fn = 0 then
      16384 else feature s 0x04 c.fn 0) ∧ translate s {} asid (qw c.pkt 6) (64 * 2 ^ sk) = .ok h ∧ (if use then rring
      = none else ∃ r, rring = some r ∧ translate s {} asid (qw c.pkt 8) (64 * 2 ^ rk) = .ok r)) ∧
    (∃ (s : State) (id : CmdId) (c : Cmd) (q : Qp), Runs s .qpDestroy id c ∧ qpOf s c.context = some q ∧ q.fn = c.fn
      ∧ q.move = none) ∧
    (∃ (s : State) (id : CmdId) (c : Cmd) (h : Held), Runs s .srqCreate id c ∧ s.rdm.srqs.has c.context = false ∧
      s.rdm.srqs.length < 512 ∧ c.context ≤ 511 ∧ qw c.pkt 2 < 2 ^ 57 ∧ qw c.pkt 2 % 4096 = 0 ∧ 4 ≤ fld c.pkt 4 3 0 ∧
      fld c.pkt 4 15 4 = 0 ∧ ownsAsid s c.fn (fld c.pkt 4 25 16) = true ∧ fld c.pkt 4 31 26 = 0 ∧ cqForeign s c.fn
      (fld c.pkt 5 12 0) = false ∧ fld c.pkt 5 31 13 = 0 ∧ fld c.pkt 6 31 16 = 0 ∧ translate s {} (fld c.pkt 4 25 16)
      (qw c.pkt 2) (64 * 2 ^ fld c.pkt 4 3 0) = .ok h) ∧
    (∃ (s : State) (id : CmdId) (c : Cmd) (x : Srq), Runs s .srqCreate id c ∧ s.rdm.srqs.get c.context = some x ∧ fld
      c.pkt 4 3 0 = 0 ∧ x.fn = c.fn ∧ fld c.pkt 6 31 16 = 0) ∧
    (∃ (s : State) (id : CmdId) (c : Cmd) (h : Held), Runs s .cqCreate id c ∧ s.rdm.cqs.has c.context = false ∧
      s.rdm.cqs.length < 8192 ∧ c.context ≤ 8191 ∧ (c.fn ≠ 0 → fld c.pkt 5 5 0 ≤ 7) ∧ qw c.pkt 2 < 2 ^ 57 ∧ qw c.pkt
      2 % 4096 = 0 ∧ 4 ≤ fld c.pkt 4 3 0 ∧ fld c.pkt 4 15 4 = 0 ∧ ownsAsid s c.fn (fld c.pkt 4 25 16) = true ∧ fld
      c.pkt 4 31 26 = 0 ∧ fld c.pkt 5 7 6 = 0 ∧ fld c.pkt 5 31 9 = 0 ∧ (fbit c.pkt 5 8 = true → ∀ x ∈ s.rdm.cqs,
      x.2.eventq = true → x.2.fn ≠ c.fn) ∧ translate s { write := true } (fld c.pkt 4 25 16) (qw c.pkt 2) (32 * 2 ^
      fld c.pkt 4 3 0) = .ok h) ∧
    (∃ (s : State) (id : CmdId) (c : Cmd) (x : RCq), Runs s .cqCreate id c ∧ s.rdm.cqs.get c.context = some x ∧ fld
      c.pkt 4 3 0 = 0 ∧ x.fn = c.fn ∧ qpsOnCq s c.context = [] ∧ (∀ q ∈ s.rdm.srqs, q.2.cq ≠ c.context)) ∧
    (∃ (s : State) (id : CmdId) (c : Cmd), Runs s .mrRegister id c ∧ s.rdm.keys.has c.context = false ∧ qw c.pkt 2 <
      2 ^ 57 ∧ s.rdm.keys.length < 65536 ∧ c.context ≤ 65535 ∧ bits (qw c.pkt 4) 39 0 ≠ 0 ∧ fld c.pkt 5 31 8 = 0 ∧
      fld c.pkt 6 7 2 = 0 ∧ fld c.pkt 6 31 16 = 0 ∧ ownsAsid s c.fn (fld c.pkt 7 9 0) = true ∧ fld c.pkt 7 31 10 = 0) ∧
    (∃ (s : State) (id : CmdId) (c : Cmd) (k : MemKey), Runs s .mrRegister id c ∧ s.rdm.keys.get c.context = some k ∧
      bits (qw c.pkt 4) 39 0 = 0 ∧ k.fn = c.fn) ∧
    (∃ (s : State) (id : CmdId) (bus : Bus) (c : Cmd) (n : Nat) (h : Held) (l : List (Nat × Nat)) (d : List PByte ×
      State), Runs s .windowBind id c ∧ isGranary s = true ∧ s.rdm.windows.length < 4096 ∧ c.context ≤ 4095 ∧
      s.rdm.windows.get c.context = none ∧ n = fld c.pkt 2 15 0 ∧ 1 ≤ n ∧ n ≤ 32768 ∧ fld c.pkt 2 31 24 = 0 ∧ qw
      c.pkt 3 < 2 ^ 57 ∧ ownsAsid s c.fn (fld c.pkt 5 9 0) = true ∧ fld c.pkt 5 31 10 = 0 ∧ (fbit c.pkt 6 8 = true →
      fld c.pkt 6 7 0 = 0) ∧ fld c.pkt 6 31 9 = 0 ∧ n + windowUsed s ≤ windowStore ∧ translate s {} (fld c.pkt 5 9 0)
      (qw c.pkt 3) (16 * n) = .ok h ∧ d = readRuns bus h.segs (noteWalks h s) ∧ anyPoison d.1 = false ∧ l =
      windowEntries (d.1.map (·.1)) n ∧ (∀ e ∈ l, e.2 % 2 ^ 21 = 0 ∧ handleGranary e.1 = ownMember s)) ∧
    (∃ (s : State) (id : CmdId) (c : Cmd) (w : Window), Runs s .windowBind id c ∧ isGranary s = true ∧
      s.rdm.windows.get c.context = some w ∧ w.fn = c.fn ∧ fld c.pkt 2 15 0 = 0) :=
  ⟨⟨on (Rb {cqs := [(3, Cr)]}) (K .qpCreate [0,16383,0x70000,0x30003,0,0x44,0,0,0x1000]), I, K .qpCreate
      [0,16383,0x70000,0x30003,0,0x44,0,0,0x1000], false, 7, 4, 4, Hm 0 1024, some (Hm 0x1000 1024),
      by and_intros <;> first | decide +kernel | exact (by exact rfl) | exact (by exact (by decide : (4:Nat) ≤ 4)) | exact ⟨Hm 0x1000 1024, rfl, by rfl⟩ | exact ok_of (by decide +kernel)⟩,
    ⟨on (Qb Q) (K .qpDestroy [0,16383]), I, K .qpDestroy [0,16383], Q, by decide +kernel⟩,
    ⟨on (Rb {cqs := [(3, Cr)]}) (K .srqCreate [0,511,0,0,0x70004,3,0]), I, K .srqCreate [0,511,0,0,0x70004,3,0], Hm 0
      1024, by and_intros <;> first | decide +kernel | exact ok_of (by decide +kernel)⟩,
    ⟨on (Rb {srqs := [(511, Sr)]}) (K .srqCreate [0,511,0,0,0,0,5]), I, K .srqCreate [0,511,0,0,0,0,5], Sr,
      by decide +kernel⟩,
    ⟨on (Rb {}) (K .cqCreate [0,8191,0,0,0x70004]), I, K .cqCreate [0,8191,0,0,0x70004], Hm 0 512,
      by and_intros <;> first | decide +kernel | exact ok_of (by decide +kernel)⟩,
    ⟨on (Rb {cqs := [(8191, Cr)]}) (K .cqCreate [0,8191]), I, K .cqCreate [0,8191], Cr, by decide +kernel⟩,
    ⟨on Bm (K .mrRegister [0,65535,0,0,64,0,3,7]), I, K .mrRegister [0,65535,0,0,64,0,3,7], by decide +kernel⟩,
    ⟨on (Rb {keys := [(65535, Mk)]}) (K .mrRegister [0,65535]), I, K .mrRegister [0,65535], Mk, by decide +kernel⟩,
    ⟨on {G with mem := {spaces := [(7, Sp)], cells := [(7, 5)]}} (K .windowBind [0,0,1,0,0,7]), I, {}, K .windowBind
      [0,0,1,0,0,7], 1, Hm 0 16, [(5 * 2 ^ 56, 0)], readRuns {} (Hm 0 16).segs (noteWalks (Hm 0 16) (on
      {G with mem := {spaces := [(7, Sp)], cells := [(7, 5)]}} (K .windowBind [0,0,1,0,0,7]))),
      by and_intros <;> first | decide +kernel | exact ok_of (by decide +kernel)⟩,
    ⟨on {G with rdm := {windows := [(255, ⟨0, 0, none, []⟩)]}} (K .windowBind [0,255]), I, K .windowBind [0,255], ⟨0,
      0, none, []⟩, by decide +kernel⟩⟩

theorem test_wit_QpStates :
    (∃ (s : State) (id : CmdId) (c : Cmd) (q : Qp), Runs s .qpModify id c ∧ qpOf s c.context = some q ∧ q.fn = c.fn ∧
      fld c.pkt 2 2 0 = 0 ∧ fbit c.pkt 2 7 = false ∧ fld c.pkt 2 31 16 = 0 ∧ q.state = .error) ∧
    (∃ (s : State) (id : CmdId) (c : Cmd) (q : Qp), Runs s .qpModify id c ∧ qpOf s c.context = some q ∧ q.fn = c.fn ∧
      fld c.pkt 2 2 0 = 1 ∧ fbit c.pkt 2 7 = false ∧ fld c.pkt 2 31 16 = 0 ∧ q.state = .reset) ∧
    (∃ (s : State) (id : CmdId) (c : Cmd) (q : Qp) (m : Nat) (n : Nat), Runs s .qpModify id c ∧ qpOf s c.context =
      some q ∧ q.fn = c.fn ∧ fld c.pkt 2 2 0 = 2 ∧ fbit c.pkt 2 7 = false ∧ fld c.pkt 2 31 16 = 0 ∧ q.state = .init ∧
      m = fld c.pkt 2 15 8 ∧ ((port s q.port).mode = .flume → (port s q.port).flm.valid = true → (port s
      q.port).flm.peer = m) ∧ (q.mode = 1 → ∃ x, s.dom.members.get m = some x ∧ x.role = 2) ∧ fld c.pkt 3 31 24 = 0 ∧
      fld c.pkt 4 31 24 = 0 ∧ n = fld c.pkt 6 25 21 ∧ 1 ≤ n ∧ n ≤ 16 ∧ fld c.pkt 6 31 26 = 0) ∧
    (∃ (s : State) (id : CmdId) (c : Cmd) (q : Qp) (n : Nat) (r : Nat), Runs s .qpModify id c ∧ qpOf s c.context =
      some q ∧ q.fn = c.fn ∧ fld c.pkt 2 2 0 = 3 ∧ fbit c.pkt 2 3 = false ∧ fbit c.pkt 2 7 = false ∧ fld c.pkt 2 31
      16 = 0 ∧ q.state = .rtr ∧ fld c.pkt 5 31 24 = 0 ∧ n = fld c.pkt 6 4 0 ∧ 2 ≤ n ∧ n ≤ 20 ∧ r = fld c.pkt 6 20 16
      ∧ 1 ≤ r ∧ r ≤ 16 ∧ fld c.pkt 6 31 26 = 0) ∧
    (∃ (s : State) (id : CmdId) (c : Cmd) (q : Qp), Runs s .qpModify id c ∧ qpOf s c.context = some q ∧ q.fn = c.fn ∧
      fld c.pkt 2 2 0 = 3 ∧ fbit c.pkt 2 3 = true ∧ fbit c.pkt 2 7 = false ∧ fld c.pkt 2 31 16 = 0 ∧ q.state = .rts ∧
      q.sent ≠ []) ∧
    (∃ (s : State) (q : Nat) (p : Qp) (m : Move) (c : Cmd), qpOf s q = some p ∧ p.state = .drain ∧ p.move = some m ∧
      p.sent = [] ∧ findCmd s m.id = some c) ∧
    (∃ (s : State) (id : CmdId) (c : Cmd) (q : Qp), Runs s .qpModify id c ∧ qpOf s c.context = some q ∧ q.fn = c.fn ∧
      fld c.pkt 2 2 0 = 4 ∧ fbit c.pkt 2 7 = false ∧ fld c.pkt 2 31 16 = 0 ∧ q.state = .rts) ∧
    (∃ (s : State) (id : CmdId) (c : Cmd) (q : Qp), Runs s .qpModify id c ∧ qpOf s c.context = some q ∧ q.fn = c.fn ∧
      fld c.pkt 2 2 0 = 5 ∧ fbit c.pkt 2 7 = false ∧ fld c.pkt 2 31 16 = 0 ∧ q.state ≠ .reset ∧ q.state ≠ .error) ∧
    (∃ (s : State) (id : CmdId) (c : Cmd) (q : Qp), Runs s .qpModify id c ∧ qpOf s c.context = some q ∧ q.fn = c.fn ∧
      fld c.pkt 2 2 0 = 1 ∧ q.state ≠ .reset ∧ fbit c.pkt 2 7 = false ∧ fld c.pkt 2 31 16 = 0) :=
  ⟨⟨on (Qb {Q with state := .error}) (K .qpModify [0,16383,0]), I, K .qpModify [0,16383,0],
      {Q with state := .error}, by decide +kernel⟩,
    ⟨on (Qb Q) (K .qpModify [0,16383,1]), I, K .qpModify [0,16383,1], Q, by decide +kernel⟩,
    ⟨{on (Qb {Q with mode := 1, state := .init}) (K .qpModify [0,16383,0x902,0,0,0,0x2000000]) with dom := Dm}, I, K
      .qpModify [0,16383,0x902,0,0,0,0x2000000], {Q with mode := 1, state := .init}, 9, 16,
      by and_intros <;> first | decide +kernel | exact fun _ => ⟨⟨2, 0⟩, rfl, rfl⟩⟩,
    ⟨on (Qb {Q with state := .rtr}) (K .qpModify [0,16383,3,0,0,0,0x100014]), I, K .qpModify
      [0,16383,3,0,0,0,0x100014], {Q with state := .rtr}, 20, 16, by decide +kernel⟩,
    ⟨on (Qb {Q with state := .rts, sent := [Wk]}) (K .qpModify [0,16383,0xB]), I, K .qpModify [0,16383,0xB],
      {Q with state := .rts, sent := [Wk]}, by decide +kernel⟩,
    ⟨on (Qb {Q with state := .drain, move := some ⟨I, 0, 0, 0⟩}) (K .qpModify [0,16383,0xB]), 16383,
      {Q with state := .drain, move := some ⟨I, 0, 0, 0⟩}, ⟨I, 0, 0, 0⟩, K .qpModify [0,16383,0xB],
      by decide +kernel⟩,
    ⟨on (Qb {Q with state := .rts}) (K .qpModify [0,16383,4]), I, K .qpModify [0,16383,4], {Q with state := .rts},
      by decide +kernel⟩,
    ⟨on (Qb {Q with state := .drain}) (K .qpModify [0,16383,5]), I, K .qpModify [0,16383,5],
      {Q with state := .drain}, by decide +kernel⟩,
    ⟨on (Qb {Q with state := .rts}) (K .qpModify [0,16383,1]), I, K .qpModify [0,16383,1], {Q with state := .rts},
      by decide +kernel⟩⟩

theorem test_wit_DoorbellsAndRequests :
    (∃ (s : State) (fn : Nat) (val : Nat) (q : Nat) (index : Nat) (n : Nat) (bus : Bus) (p : Qp) (d : List (List
      Byte) × State), s.pwr.state = .run ∧ d = ringEntries bus p.sring p.sk p.sprod n s ∧ dbParts val 0 = some (q,
      index) ∧ qpOf s q = some p ∧ p.fn = fn ∧ indexStep p.sprod p.scons p.sk index = some n ∧ p.state ≠ .reset ∧
      p.state ≠ .init ∧ p.state ≠ .error) ∧
    (∃ (s : State) (fn : Nat) (val : Nat) (bus : Bus), s.pwr.state = .run ∧ dbParts val 0 = none) ∧
    (∃ (s : State) (fn : Nat) (val : Nat) (q : Nat) (index : Nat) (n : Nat) (bus : Bus) (p : Qp) (ring : Held) (d :
      List (List Byte) × State), s.pwr.state = .run ∧ d = ringEntries bus ring p.rk p.rprod n s ∧ dbParts val 1 =
      some (q, index) ∧ qpOf s q = some p ∧ p.fn = fn ∧ p.rring = some ring ∧ indexStep p.rprod p.rcons p.rk index =
      some n ∧ p.state ≠ .reset ∧ p.state ≠ .error) ∧
    (∃ (s : State) (fn : Nat) (val : Nat) (n : Nat) (index : Nat) (m : Nat) (bus : Bus) (x : Srq) (d : List (List
      Byte) × State), s.pwr.state = .run ∧ d = ringEntries bus x.ring x.k x.prod m s ∧ dbParts val 2 = some (n,
      index) ∧ s.rdm.srqs.get n = some x ∧ x.fn = fn ∧ indexStep x.prod x.cons x.k index = some m) ∧
    (∃ (s : State) (fn : Nat) (val : Nat) (n : Nat) (index : Nat) (step : Nat) (q : RCq), s.pwr.state = .run ∧
      dbParts val 3 = some (n, index) ∧ s.rdm.cqs.get n = some q ∧ q.fn = fn ∧ step = (index + 65536 - q.cons %
      65536) % 65536 ∧ step ≤ q.prod - q.cons) ∧
    (∃ (s : State) (q : Nat) (op : Nat) (rung : Nat) (len : Nat) (va : Nat) (bus : Bus) (p : Qp) (e : List Byte) (r :
      List (Nat × List Byte)) (h : Held) (d : List PByte × State), qpOf s q = some p ∧ p.rnrAt = none ∧ p.posted =
      (rung, e) :: r ∧ op = num e 0 1 ∧ 1 ≤ op ∧ op ≤ 5 ∧ p.state = .rts ∧ p.sent.length < 256 ∧ entryBad e = none ∧
      len = num e 24 4 ∧ va = num e 16 8 ∧ (p.mode = 1 → 3 ≤ op → handleGranary (num e 32 8) = p.member ∨
      s.grn.failover.get (handleGranary (num e 32 8)) = some p.member) ∧ (p.mode = 1 → 3 ≤ op → num e 40 4 < 2 ^ 30)
      ∧ quarantined s p.member = false ∧ (op = 5 → p.reads < p.maxRd) ∧ (bit (num e 1 1) 1 = true → p.reads = 0) ∧
      (if len = 0 then h = { asid := p.asid, va, len := 0, segs := [] } else translate s { write := decide (op = 5) }
      p.asid va len = .ok h) ∧ d = (if op = 5 then ([], useRuns h.segs (noteWalks h s)) else readRuns bus h.segs
      (noteWalks h s)) ∧ (p.mode = 0 ∨ op < 3 → firstPoisoned d.1 = none)) ∧
    (∃ (s : State) (n : Nat) (p : Qp) (e : List Byte) (r : List (List Byte)) (h : Held), qpOf s n = some p ∧
      p.rposted = e :: r ∧ recvBad e = none ∧ translate s { write := true } p.asid (num e 16 8) (num e 24 4) = .ok h) ∧
    (∃ (s : State) (n : Nat) (x : Srq) (e : List Byte) (r : List (List Byte)) (h : Held), s.rdm.srqs.get n = some x ∧
      x.posted = e :: r ∧ recvBad e = none ∧ translate s { write := true } x.asid (num e 16 8) (num e 24 4) = .ok h) :=
  ⟨⟨Qb {Q with state := .rts}, 0, 0x103FFF, 16383, 16, 16, {}, {Q with state := .rts}, ringEntries {}
      ({Q with state := .rts}).sring ({Q with state := .rts}).sk ({Q with state := .rts}).sprod 16 (Qb
      {Q with state := .rts}), by decide +kernel⟩,
    ⟨B, 0, 0x200000000, {}, by decide +kernel⟩,
    ⟨Qb {Q with state := .init, rring := some (Hm 0x1000 4096)}, 0, 0x107FFF, 16383, 16, 16, {},
      {Q with state := .init, rring := some (Hm 0x1000 4096)}, Hm 0x1000 4096, ringEntries {} (Hm 0x1000 4096)
      ({Q with state := .init, rring := some (Hm 0x1000 4096)}).rk
      ({Q with state := .init, rring := some (Hm 0x1000 4096)}).rprod 16 (Qb
      {Q with state := .init, rring := some (Hm 0x1000 4096)}), by decide +kernel⟩,
    ⟨Rb {srqs := [(511, Sr)]}, 0, 0x1081FF, 511, 16, 16, {}, Sr, ringEntries {} (Sr).ring (Sr).k (Sr).prod 16 (Rb
      {srqs := [(511, Sr)]}), by decide +kernel⟩,
    ⟨Rb {cqs := [(3, {Cr with prod := 1})]}, 0, 0x1C003, 3, 1, 1, {Cr with prod := 1}, by decide +kernel⟩,
    ⟨Qb {Q with state := .rts, posted := [(0, We 5)]}, 16383, 5, 0, 64, 0, {},
      {Q with state := .rts, posted := [(0, We 5)]}, We 5, [], Hm 0 64, ([], useRuns (Hm 0 64).segs (noteWalks (Hm 0
      64) (Qb {Q with state := .rts, posted := [(0, We 5)]}))),
      by and_intros <;> first | decide +kernel | exact (by exact rfl) | exact ok_of (by decide +kernel)⟩,
    ⟨Qb {Q with rposted := [We 0]}, 16383, {Q with rposted := [We 0]}, We 0, [], Hm 0 64,
      by and_intros <;> first | decide +kernel | exact ok_of (by decide +kernel)⟩,
    ⟨Rb {srqs := [(511, {Sr with posted := [We 0]})]}, 511, {Sr with posted := [We 0]}, We 0, [], Hm 0 64,
      by and_intros <;> first | decide +kernel | exact ok_of (by decide +kernel)⟩⟩

theorem test_wit_RdmaArrivals :
    (∃ (s : State) (r : RoceIn) (data : List Byte) (p : Qp) (w : RecvWr) (rest : List RecvWr) (a : Nat) (n : Nat) (f
      : Nat), s.pwr.state = .run ∧ (port s r.port).state = .up ∧ ((port s r.port).mode = .ethernet → r.icrc = true ∧
      r.rc = true) ∧ portServes s p r.port = true ∧ e2eBad s r.port r.icrc = false ∧ (∀ x ∈ rest, x.num ≠ w.num) ∧
      qpOf s r.qpn = some p ∧ p.receives = true ∧ r.ce = false ∧ r.known = true ∧ r.send = some data ∧ psnAdd r.psn
      (2 ^ 24 + 1 - r.npsn) = p.rqPsn ∧ p.srq = none ∧ p.recvs = w :: rest ∧ data.length ≤ w.len ∧ w.held.segs =
      [{ target := .hbm, addr := a, len := n, fn := f }] ∧ data.length ≤ n) ∧
    (∃ (s : State) (r : RoceIn), s.pwr.state = .run ∧ (port s r.port).state = .up ∧ (port s r.port).mode = .ethernet
      ∧ r.icrc = false) ∧
    (∃ (s : State) (r : RoceIn) (p : Qp), s.pwr.state = .run ∧ (port s r.port).state = .up ∧ ((port s r.port).mode =
      .ethernet → r.icrc = true ∧ r.rc = true) ∧ qpOf s r.qpn = some p ∧ (p.receives = false ∨ portServes s p r.port
      = false)) ∧
    (∃ (s : State) (pt : Nat) (q : Nat) (psn : Nat) (va : Nat) (key : Nat) (len : Nat) (check : Bool) (data : List
      Byte) (bus : Bus) (p : Qp) (k : MemKey) (h : Held) (d : List PByte × State), s.pwr.state = .run ∧ qpOf s q =
      some p ∧ p.receives = true ∧ p.mode = 0 ∧ portServes s p pt = true ∧ e2eBad s pt check = false ∧ psn = p.rqPsn
      ∧ keyOk s false va key len = some k ∧ translate s {} k.asid va len = .ok h ∧ packetsMapped s false k.asid va
      len = packetsOf len ∧ d = readRuns bus h.segs (noteServed q psn (packetsOf len) va (noteWalks h s)) ∧
      firstPoisoned d.1 = none) ∧
    (∃ (s : State) (pt : Nat) (q : Nat) (psn : Nat) (va : Nat) (key : Nat) (len : Nat) (a : Nat) (n : Nat) (f : Nat)
      (check : Bool) (data : List Byte) (bus : Bus) (p : Qp) (k : MemKey) (h : Held), s.pwr.state = .run ∧ qpOf s q =
      some p ∧ p.receives = true ∧ p.mode = 0 ∧ portServes s p pt = true ∧ e2eBad s pt check = false ∧ psn = p.rqPsn
      ∧ keyOk s true va key data.length = some k ∧ translate s { write := true } k.asid va data.length = .ok h ∧
      packetsMapped s true k.asid va data.length = packetsOf data.length ∧ h.segs =
      [{ target := .hbm, addr := a, len := n, fn := f }] ∧ data.length ≤ n) ∧
    (∃ (s : State) (pt : Nat) (q : Nat) (psn : Nat) (va : Nat) (key : Nat) (len : Nat) (write : Bool) (check : Bool)
      (data : List Byte) (imm : Option Nat) (bus : Bus) (p : Qp), s.pwr.state = .run ∧ qpOf s q = some p ∧ p.receives
      = true ∧ p.mode = 0 ∧ portServes s p pt = true ∧ e2eBad s pt check = false ∧ psn = p.rqPsn ∧ keyOk s write va
      key (if write then data.length else len) = none) ∧
    (∃ (s : State) (pt : Nat) (q : Nat) (psn : Nat) (check : Bool) (p : Qp) (w : Wr), s.pwr.state = .run ∧ qpOf s q =
      some p ∧ p.state = .rts ∧ portServes s p pt = true ∧ e2eBad s pt check = false ∧ p.sent = [w] ∧ w.op ≠ 5 ∧
      w.lastPsn = psn ∧ bit w.flags 0 = false) ∧
    (∃ (s : State) (pt : Nat) (q : Nat) (psn : Nat) (check : Bool) (p : Qp) (w : Wr) (k : RCq), s.pwr.state = .run ∧
      qpOf s q = some p ∧ portServes s p pt = true ∧ e2eBad s pt check = false ∧ p.state = .rts ∧ p.sent = [w] ∧ w.op
      ≠ 5 ∧ w.lastPsn = psn ∧ bit w.flags 0 = true ∧ s.rdm.cqs.get p.sendCq = some k ∧ k.error = false ∧ k.isFull =
      false) ∧
    (∃ (s : State) (pt : Nat) (q : Nat) (psn : Nat) (check : Bool) (p : Qp) (w : Wr) (a : Nat) (n : Nat) (f : Nat)
      (data : List Byte), s.pwr.state = .run ∧ qpOf s q = some p ∧ portServes s p pt = true ∧ e2eBad s pt check =
      false ∧ p.state = .rts ∧ p.sent = [w] ∧ w.op = 5 ∧ psnLe w.psn psn = true ∧ w.lastPsn = psn ∧ bit w.flags 0 =
      false ∧ w.landed + data.length = min w.len (4096 * (1 + (psn + 2 ^ 24 - w.psn) % 2 ^ 24)) ∧ w.held.segs =
      [{ target := .hbm, addr := a, len := n, fn := f }] ∧ w.landed + data.length ≤ n) ∧
    (∃ (s : State) (pt : Nat) (q : Nat) (psn : Nat) (check : Bool) (p : Qp) (w : Wr) (a : Nat) (n : Nat) (f : Nat)
      (data : List Byte), s.pwr.state = .run ∧ qpOf s q = some p ∧ portServes s p pt = true ∧ e2eBad s pt check =
      false ∧ p.state = .rts ∧ p.sent = [w] ∧ w.op = 5 ∧ psnLe w.psn psn = true ∧ psnLe psn w.lastPsn = true ∧
      w.lastPsn ≠ psn ∧ w.landed + data.length = min w.len (4096 * (1 + (psn + 2 ^ 24 - w.psn) % 2 ^ 24)) ∧
      w.held.segs = [{ target := .hbm, addr := a, len := n, fn := f }] ∧ w.landed + data.length ≤ n) ∧
    (∃ (s : State) (pt : Nat) (q : Nat) (psn : Nat) (code : Nat) (detail : Nat) (check : Bool) (st : Status) (p : Qp)
      (w : Wr) (k : RCq), s.pwr.state = .run ∧ qpOf s q = some p ∧ portServes s p pt = true ∧ e2eBad s pt check =
      false ∧ nakStatus code = some st ∧ p.state = .rts ∧ p.mode ≠ 0 ∧ p.sent = [w] ∧ w.psn = psn ∧ w.lastPsn = psn ∧
      psn < 2 ^ 24 ∧ s.rdm.cqs.get p.sendCq = some k ∧ k.error = false ∧ k.isFull = false) ∧
    (∃ (s : State) (q : Nat) (t0 : Nat) (p : Qp) (w : Wr), qpOf s q = some p ∧ p.state = .rts ∧ p.ackAt = some t0 ∧
      p.rnrAt = none ∧ p.sent = [w] ∧ (∀ k ∈ w.packets p, k.before w.psn = false) ∧ 1 ≤ w.npsn ∧ w.npsn ≤ 2 ^ 18 ∧
      w.psn < 2 ^ 24 ∧ t0 + 4096 * 2 ^ p.timeout ≤ s.core.t ∧ qpFrozen s p = false ∧ p.retries < p.retryCnt) ∧
    (∃ (s : State) (q : Nat) (t0 : Nat) (p : Qp) (w : Wr), qpOf s q = some p ∧ p.state = .rts ∧ p.ackAt = some t0 ∧
      p.rnrAt = none ∧ p.sent = [w] ∧ t0 + 4096 * 2 ^ p.timeout ≤ s.core.t ∧ qpFrozen s p = false ∧ p.retryCnt ≤
      p.retries) ∧
    (∃ (s : State) (q : Nat) (t0 : Nat) (p : Qp) (w : Wr), qpOf s q = some p ∧ p.rnrAt = some t0 ∧ p.sent = [w] ∧ 1 ≤
      w.npsn ∧ (∀ k ∈ w.packets p, k.before w.psn = false) ∧ w.npsn ≤ 2 ^ 18 ∧ w.psn < 2 ^ 24 ∧ t0 ≤ s.core.t ∧
      qpFrozen s p = false) :=
  ⟨⟨Qb {Q with state := .rts, rqPsn := 0xFFFFFF, recvs := [⟨0, 64, Hm 0 64, 0⟩]}, Rq, [1],
      {Q with state := .rts, rqPsn := 0xFFFFFF, recvs := [⟨0, 64, Hm 0 64, 0⟩]}, ⟨0, 64, Hm 0 64, 0⟩, [], 0, 64, 0,
      by decide +kernel⟩,
    ⟨port_ {mode := .ethernet, state := .up}, {Rq with icrc := false}, by decide +kernel⟩,
    ⟨{Qb Q with prt := {ports := [(7, {mode := .ethernet, state := .up})]}}, Rq, Q, by decide +kernel⟩,
    ⟨Rb {qps := [(16383, {Q with state := .rtr, rqPsn := 5})], keys := [(65535, Mk)]}, 7, 16383, 5, 0, 0xFFFF00, 64,
      true, [], {}, {Q with state := .rtr, rqPsn := 5}, Mk, Hm 0 64, readRuns {} (Hm 0 64).segs (noteServed 16383 5 1
      0 (noteWalks (Hm 0 64) (Rb {qps := [(16383, {Q with state := .rtr, rqPsn := 5})], keys := [(65535, Mk)]}))),
      by and_intros <;> first | decide +kernel | exact ok_of (by decide +kernel)⟩,
    ⟨Rb {qps := [(16383, {Q with state := .rtr, rqPsn := 5})], keys := [(65535, Mk)]}, 7, 16383, 5, 0, 0xFFFF00, 0,
      0, 1, 0, true, [1], {}, {Q with state := .rtr, rqPsn := 5}, Mk, Hm 0 1,
      by and_intros <;> first | decide +kernel | exact ok_of (by decide +kernel)⟩,
    ⟨Qb {Q with state := .rtr, rqPsn := 5}, 7, 16383, 5, 0, 0, 64, false, true, [], none, {},
      {Q with state := .rtr, rqPsn := 5}, by decide +kernel⟩,
    ⟨Qb {Q with state := .rts, sent := [Wk]}, 7, 16383, 0xFFFFFF, true, {Q with state := .rts, sent := [Wk]}, Wk,
      by decide +kernel⟩,
    ⟨Qb {Q with state := .rts, sent := [{Wk with flags := 1}]}, 7, 16383, 0xFFFFFF, true,
      {Q with state := .rts, sent := [{Wk with flags := 1}]}, {Wk with flags := 1}, Cr, by decide +kernel⟩,
    ⟨Qb {Q with state := .rts, sent := [{Wk with op := 5}]}, 7, 16383, 0xFFFFFF, true,
      {Q with state := .rts, sent := [{Wk with op := 5}]}, {Wk with op := 5}, 0, 64, 0, List.replicate 64 1,
      by decide +kernel⟩,
    ⟨Qb {Q with state := .rts, sent := [{Wk with op := 5, npsn := 2}]}, 7, 16383, 0xFFFFFF, true,
      {Q with state := .rts, sent := [{Wk with op := 5, npsn := 2}]}, {Wk with op := 5, npsn := 2}, 0, 64, 0,
      List.replicate 64 1, by decide +kernel⟩,
    ⟨Qb {Q with mode := 1, state := .rts, sent := [Wk]}, 7, 16383, 0xFFFFFF, 0x10, 0, true, .staleHandle,
      {Q with mode := 1, state := .rts, sent := [Wk]}, Wk, Cr, by decide +kernel⟩,
    ⟨Qb {Q with state := .rts, ackAt := some 0, sent := [Wk], retryCnt := 1}, 16383, 0,
      {Q with state := .rts, ackAt := some 0, sent := [Wk], retryCnt := 1}, Wk, by decide +kernel⟩,
    ⟨Qb {Q with state := .rts, ackAt := some 0, sent := [Wk]}, 16383, 0,
      {Q with state := .rts, ackAt := some 0, sent := [Wk]}, Wk, by decide +kernel⟩,
    ⟨Qb {Q with state := .rts, rnrAt := some 0, sent := [Wk]}, 16383, 0,
      {Q with state := .rts, rnrAt := some 0, sent := [Wk]}, Wk, by decide +kernel⟩⟩

theorem test_wit_CarvesAndMaps :
    (∃ (s : State) (id : CmdId) (c : Cmd) (upd : Bool), Runs s .carveCreate id c ∧ s.dom.sleep.state = .awake ∧ upd =
      fbit c.pkt 3 16 ∧ s.grn.carves.has c.context = upd ∧ fld c.pkt 2 22 0 ≠ 0 ∧ fld c.pkt 2 31 23 = 0 ∧ 1 ≤ fld
      c.pkt 3 5 0 ∧ fld c.pkt 3 5 0 ≤ 60 ∧ fld c.pkt 3 15 6 = 0 ∧ fld c.pkt 3 31 17 = 0) ∧
    (∃ (s : State) (id : CmdId) (c : Cmd), Runs s .carveCreate id c ∧ s.dom.sleep.state = .awake ∧ s.grn.carves.has
      c.context = true ∧ fld c.pkt 2 22 0 = 0 ∧ fld c.pkt 2 31 23 = 0 ∧ fbit c.pkt 3 16 = true ∧ fld c.pkt 3 15 6 = 0
      ∧ fld c.pkt 3 31 17 = 0 ∧ (∀ e ∈ s.grn.dir, e.2.state = .free ∨ e.2.carve ≠ c.context)) ∧
    (∃ (s : State) (id : CmdId) (c : Cmd) (h : Nat) (own : Nat) (cv : Nat) (size : Nat) (i : Nat) (pr : Nat) (off :
      Nat) (gen : Nat) (v : Carve) (b : Bin), Runs s .binAlloc id c ∧ s.dom.sleep.state = .awake ∧ h = pktHandle
      c.pkt ∧ own = ownMember s ∧ handleGranary h = own ∧ handleGen h = 0 ∧ handleBin h = 0 ∧ cv = handleCarve h ∧
      s.grn.carves.get cv = some v ∧ v.admits (requester s c) = true ∧ size = fld c.pkt 3 4 0 ∧ 21 ≤ size ∧ size ≤ 30
      ∧ fld c.pkt 3 7 5 = 0 ∧ fld c.pkt 3 31 12 = 0 ∧ s.grn.servedBy = none ∧ s.grn.ownHome = true ∧ (if fbit c.pkt 3
      11 then bestPair s = some pr else pr = fld c.pkt 3 10 8 ∧ pr ∈ servingPairs s) ∧ freeEntry s = some i ∧
      freeBlock s pr size = some off ∧ carveUse s cv + 2 ^ size / 2 ^ 21 ≤ v.quota ∧ gen = nextGen (binEntry s i).gen
      ∧ b =
      { state := .allocated, size, carve := cv, pair := pr, gen, owner := requester s c, base := pairBase s pr + off, home := own }) ∧
    (∃ (s : State) (id : CmdId) (c : Cmd) (i : Nat) (b : Bin), Runs s .binFree id c ∧ s.dom.sleep.state = .awake ∧
      readEntry false false (pktHandle c.pkt) (quietAgain s) = quietAgain s ∧ judgeHandle s (pktHandle c.pkt) = .ok
      (i, b) ∧ lockedOut s i = false ∧ b.owner = requester s c ∧ (tallyOf s i).state ≠ .occupied) ∧
    (∃ (s : State) (id : CmdId) (c : Cmd) (i : Nat) (b : Bin), Runs s .binFree id c ∧ s.dom.sleep.state = .awake ∧
      readEntry false false (pktHandle c.pkt) (quietAgain s) = quietAgain s ∧ judgeHandle s (pktHandle c.pkt) = .ok
      (i, b) ∧ b.owner ≠ requester s c) ∧
    (∃ (s : State) (i : Nat), (binEntry s i).state = .freeing) ∧
    (∃ (s : State) (id : CmdId) (c : Cmd) (i : Nat) (lease : Nat) (b : Bin) (v : Carve) (r : TRec), Runs s .binMap id
      c ∧ s.dom.sleep.state = .awake ∧ readEntry false false (pktHandle c.pkt) (quietAgain s) = quietAgain s ∧
      judgeHandle s (pktHandle c.pkt) = .ok (i, b) ∧ r = tallyOf s i ∧ (r.state = .clear ∨ r.state = .occupied) ∧
      lease = fld c.pkt 3 5 0 ∧ 1 ≤ lease ∧ lease ≤ 60 ∧ s.grn.carves.get b.carve = some v ∧ lease ≤ v.maxLease ∧ fld
      c.pkt 3 7 6 = 0 ∧ fld c.pkt 3 31 9 = 0 ∧ v.admits (requester s c) = true ∧ liveMap s b (requester s c) = none ∧
      b.maps.length < 8 ∧ b.mirrored = false ∧ r.a = r.b ∧ r.a.mapsOut ≤ r.a.mapsIn ∧ r.a.mapsIn < 65535) ∧
    (∃ (s : State) (id : CmdId) (c : Cmd) (i : Nat) (lease : Nat) (b : Bin) (v : Carve), Runs s .binMap id c ∧
      s.dom.sleep.state = .awake ∧ readEntry false false (pktHandle c.pkt) (quietAgain s) = quietAgain s ∧
      judgeHandle s (pktHandle c.pkt) = .ok (i, b) ∧ lockedOut s i = false ∧ lease = fld c.pkt 3 5 0 ∧ 1 ≤ lease ∧
      lease ≤ 60 ∧ s.grn.carves.get b.carve = some v ∧ lease ≤ v.maxLease ∧ fld c.pkt 3 7 6 = 0 ∧ fld c.pkt 3 31 9 =
      0 ∧ v.admits (requester s c) = true ∧ liveMap s b (requester s c) = none ∧ b.maps.length < 8 ∧ b.mirrored =
      true) ∧
    (∃ (s : State) (id : CmdId) (c : Cmd) (i : Nat) (m : Nat) (b : Bin) (v : BinMap) (l : List BinMap) (l' : List
      BinMap) (r : TRec), Runs s .binUnmap id c ∧ s.dom.sleep.state = .awake ∧ readEntry false false (pktHandle
      c.pkt) (quietAgain s) = quietAgain s ∧ judgeHandle s (pktHandle c.pkt) = .ok (i, b) ∧ m = requester s c ∧
      b.maps = l ++ v :: l' ∧ (∀ x ∈ l ++ l', x.member ≠ m) ∧ liveMap s b m = some v ∧ mapOps s i m = 0 ∧ b.mirrored
      = false ∧ r = tallyOf s i ∧ r.a = r.b ∧ r.a.mapsOut < r.a.mapsIn) ∧
    (∃ (s : State) (id : CmdId) (c : Cmd) (i : Nat) (m : Nat) (b : Bin) (v : BinMap) (l : List BinMap) (l' : List
      BinMap), Runs s .binUnmap id c ∧ s.dom.sleep.state = .awake ∧ readEntry false false (pktHandle c.pkt)
      (quietAgain s) = quietAgain s ∧ judgeHandle s (pktHandle c.pkt) = .ok (i, b) ∧ m = requester s c ∧ b.maps = l
      ++ v :: l' ∧ (∀ x ∈ l ++ l', x.member ≠ m) ∧ liveMap s b m = some v ∧ mapOps s i m ≠ 0) ∧
    (∃ (s : State) (id : CmdId) (c : Cmd) (i : Nat) (m : Nat) (lease : Nat) (b : Bin) (v : BinMap) (l : List BinMap)
      (l' : List BinMap), Runs s .leaseRenew id c ∧ s.dom.sleep.state = .awake ∧ readEntry false false (pktHandle
      c.pkt) (quietAgain s) = quietAgain s ∧ judgeHandle s (pktHandle c.pkt) = .ok (i, b) ∧ m = requester s c ∧
      lockedOut s i = false ∧ b.maps = l ++ v :: l' ∧ (∀ x ∈ l ++ l', x.member ≠ m) ∧ lease = fld c.pkt 3 5 0 ∧ 1 ≤
      lease ∧ lease ≤ 60 ∧ fld c.pkt 3 31 6 = 0 ∧ liveMap s b m = some v ∧ b.mirrored = false) ∧
    (∃ (s : State) (i : Nat) (m : Nat) (x : BinMap), (binEntry s i).maps = [x] ∧ x.member = m ∧ x.expiry ≤
      s.core.time ∧ mapOps s i m = 0 ∧ x.unmap = none) ∧
    (∃ (s : State) (i : Nat) (m : Nat) (x : BinMap), (binEntry s i).maps = [x] ∧ x.member = m ∧ x.expiry ≤
      s.core.time ∧ mapOps s i m ≠ 0) ∧
    (∃ (s : State) (i : Nat) (m : Nat) (x : BinMap) (id : CmdId) (c : Cmd) (r : TRec), (binEntry s i).maps = [x] ∧
      x.member = m ∧ x.closing = true ∧ x.unmap = some id ∧ mapOps s i m = 0 ∧ (binEntry s i).mirrored = false ∧
      findCmd s id = some c ∧ r = tallyOf s i ∧ r.a = r.b ∧ r.a.mapsOut < r.a.mapsIn) :=
  ⟨⟨on G (K .carveCreate [0,63,1,60]), I, K .carveCreate [0,63,1,60], false, by decide +kernel⟩,
    ⟨on (Gs {Bn with carve := 0} (Tr {})) (K .carveCreate [0,63,0,0x10000]), I, K .carveCreate [0,63,0,0x10000],
      by decide +kernel⟩,
    ⟨on {Gs Bn (Tr {}) with grn := {ownHome := true, carves := [(63, ⟨1, 60, 32⟩)]}} (K .binAlloc
      [0,0,0x05FC0000,0x815]), I, K .binAlloc [0,0,0x05FC0000,0x815], 0x05FC000000000000, 5, 63, 21, 0, 7, 0, 1, ⟨1,
      60, 32⟩, Bn, by decide +kernel⟩,
    ⟨on (Gs Bn (Tr {})) (Hk .binFree []), I, Hk .binFree [], 4194303, Bn,
      by and_intros <;> first | decide +kernel | exact ok_of (by decide +kernel)⟩,
    ⟨on (Gs {Bn with owner := 6} (Tr {})) (Hk .binFree []), I, Hk .binFree [], 4194303, {Bn with owner := 6},
      by and_intros <;> first | decide +kernel | exact ok_of (by decide +kernel)⟩,
    ⟨Gs {Bn with state := .freeing} (Tr {}), 4194303, by decide +kernel⟩,
    ⟨on (Gs Bn (Tr {})) (Hk .binMap [60]), I, Hk .binMap [60], 4194303, 60, Bn, ⟨1024, 60, 32⟩, Tr {},
      by and_intros <;> first | decide +kernel | exact ok_of (by decide +kernel)⟩,
    ⟨{on (Gs {Bn with mstate := .inSync, partner := some 9} (Tr {})) (Hk .binMap [60]) with dom := Dm}, I, Hk .binMap
      [60], 4194303, 60, {Bn with mstate := .inSync, partner := some 9}, ⟨1024, 60, 32⟩,
      by and_intros <;> first | decide +kernel | exact ok_of (by decide +kernel)⟩,
    ⟨on (Gs {Bn with maps := [Mp 5]} (Tr {mapsIn := 1})) (Hk .binUnmap []), I, Hk .binUnmap [], 4194303, 5,
      {Bn with maps := [Mp 5]}, Mp 5, [], [], Tr {mapsIn := 1},
      by and_intros <;> first | decide +kernel | exact ok_of (by decide +kernel)⟩,
    ⟨{on (Gs {Bn with maps := [Mp 5]} (Tr {})) (Hk .binUnmap []) with tly := {recs := [(4194303, Tr {})], tokens := [(0, {bin := 4194303, epoch := 0, kind := .read, member := 5})]}},
      I, Hk .binUnmap [], 4194303, 5, {Bn with maps := [Mp 5]}, Mp 5, [], [],
      by and_intros <;> first | decide +kernel | exact ok_of (by decide +kernel)⟩,
    ⟨on (Gs {Bn with maps := [Mp 5]} (Tr {})) (Hk .leaseRenew [60]), I, Hk .leaseRenew [60], 4194303, 5, 60,
      {Bn with maps := [Mp 5]}, Mp 5, [], [],
      by and_intros <;> first | decide +kernel | exact ok_of (by decide +kernel)⟩,
    ⟨Gs {Bn with maps := [{Mp 9 with expiry := 1000}]} (Tr {}), 4194303, 9, {Mp 9 with expiry := 1000},
      by decide +kernel⟩,
    ⟨{Gs {Bn with maps := [{Mp 9 with expiry := 1000}]} (Tr {}) with tly := {tokens := [(0, {bin := 4194303, epoch := 0, kind := .read, member := 9})]}},
      4194303, 9, {Mp 9 with expiry := 1000}, by decide +kernel⟩,
    ⟨on (Gs {Bn with maps := [{Mp 9 with closing := true, unmap := some I}]} (Tr {mapsIn := 1})) (Hk .binUnmap []),
      4194303, 9, {Mp 9 with closing := true, unmap := some I}, I, Hk .binUnmap [], Tr {mapsIn := 1},
      by decide +kernel⟩⟩

theorem test_wit_MirrorsAndHomes :
    (∃ (s : State) (id : CmdId) (c : Cmd) (i : Nat) (ix : Nat) (p : Nat) (to_ : Nat) (b : Bin), Runs s .mirrorSet id
      c ∧ s.dom.sleep.state = .awake ∧ readEntry false false (pktHandle c.pkt) (quietAgain s) = quietAgain s ∧ dw
      c.pkt 3 = 1 ∧ judgeHandle s (pktHandle c.pkt) = .ok (i, b) ∧ lockedOut s i = false ∧ b.role = .serving ∧
      mirrorPartner s = some p ∧ mirrorUp s = true ∧ b.mstate ≠ .syncing ∧ b.mstate ≠ .inSync ∧ to_ = (if b.home =
      ownMember s then ix else b.pindex)) ∧
    (∃ (s : State) (id : CmdId) (c : Cmd) (i : Nat) (b : Bin), Runs s .mirrorSet id c ∧ s.dom.sleep.state = .awake ∧
      dw c.pkt 3 = 0 ∧ readEntry false false (pktHandle c.pkt) (quietAgain s) = quietAgain s ∧ judgeHandle s
      (pktHandle c.pkt) = .ok (i, b) ∧ lockedOut s i = false ∧ b.role = .serving ∧ (mirrorPartner s).isSome = true) ∧
    (∃ (s : State) (r : GReq) (p : Qp) (i : Nat) (v : BinMap), isGranary s = true ∧ s.grn.ready = true ∧
      s.core.datReset = false ∧ s.pwr.state = .run ∧ qpOf s r.qpn = some p ∧ p.receives = true ∧ p.mode = 1 ∧
      portServes s p r.port = true ∧ e2eBad s r.port r.check = false ∧ (∀ w ∈ s.tly.waiting, w.port ≠ r.port) ∧
      s.grn.handback = none ∧ s.dom.sleep.state = .awake ∧ r.psn = p.rqPsn ∧ r.write = false ∧ r.dirA = false ∧
      r.dirB = false ∧ readEntry false false r.va (quietAgain s) = quietAgain s ∧ judge s r.va (some p.member) r.key
      r.len false = .ok i ∧ liveMap s (binEntry s i) p.member = some v ∧ (binEntry s i).role ≠ .proxy ∧ tokenFree s =
      true) ∧
    (∃ (s : State) (w : State) (r : GReq) (p : Qp) (code : Nat) (detail : Nat), isGranary s = true ∧ s.grn.ready =
      true ∧ s.core.datReset = false ∧ s.pwr.state = .run ∧ qpOf s r.qpn = some p ∧ p.receives = true ∧ p.mode = 1 ∧
      portServes s p r.port = true ∧ e2eBad s r.port r.check = false ∧ (∀ x ∈ s.tly.waiting, x.port ≠ r.port) ∧
      s.grn.handback = none ∧ w = sleepWake s ∧ qpOf w r.qpn = some p ∧ r.psn = p.rqPsn ∧ r.dirA = false ∧ r.dirB =
      false ∧ readEntry false false r.va w = w ∧ relayed w p.member r.va = none ∧ judge w r.va (some p.member) r.key
      (if r.write then r.data.length else r.len) r.write = .error (code, detail) ∧ code ≠ 2) ∧
    (∃ (s : State) (h : Nat) (off : Nat) (i : Nat) (data : List Byte) (chunk : Bool) (b : Bin), s.pwr.state = .run ∧
      localBin s h = some (i, b) ∧ b.role ≠ .serving ∧ b.state = .allocated) ∧
    (∃ (s : State) (n : Nat) (k : Token) (w : Bool), s.tly.tokens.get n = some k ∧ k.kind = .write w) ∧
    (∃ (s : State) (i : Nat) (r : Resilver) (b : Bin), s.grn.resilvers = [r] ∧ r.bin = i ∧ b = binEntry s i ∧
      r.flight = none ∧ r.due ≤ s.core.t ∧ r.next < chunks b ∧ b.state = .allocated ∧ lockedOut s i = false ∧
      s.mem.weak = [] ∧ badCell s (binCell b (r.next * 2 ^ 20)) (2 ^ 20) = none) ∧
    (∃ (s : State) (i : Nat) (k : Nat) (r : Resilver), s.grn.resilvers = [r] ∧ r.bin = i ∧ r.flight = some k ∧
      r.cause = none) ∧
    (∃ (s : State) (home : Nat) (k : Nat) (b : Bin), isGranary s = true ∧ s.grn.dir = [(k, b)] ∧ b.home = home ∧
      b.role = .standby ∧ b.mstate = .inSync) ∧
    (∃ (s : State) (h : MsgHead) (role : Nat) (x : Nat), s.pwr.state = .run ∧ msgBad s h = false ∧ isGranary s =
      false ∧ x ≠ h.sender) ∧
    (∃ (s : State) (h : MsgHead) (role : Nat) (homes : List Nat), s.pwr.state = .run ∧ msgBad s h = false ∧ isGranary
      s = true ∧ ownMember s ∈ homes) ∧
    (∃ (s : State) (h : MsgHead) (a : Nat) (b : Nat) (c : Nat) (d : Nat), s.pwr.state = .run ∧ msgBad s h = false) ∧
    (∃ (s : State) (h : MsgHead) (a : Nat) (b : Nat) (c : Nat) (i : Nat) (e : Bin), s.pwr.state = .run ∧ msgBad s h =
      false ∧ localBin s a = some (i, e)) ∧
    (∃ (s : State) (h : MsgHead) (a : Nat) (b : Nat) (i : Nat) (e : Bin) (w : MapWait) (c : Cmd), s.pwr.state = .run
      ∧ msgBad s h = false ∧ localBin s a = some (i, e) ∧ s.grn.mapWaits = [w] ∧ w.bin = i ∧ w.member = b ∧ findCmd s
      w.id = some c) ∧
    (∃ (s : State) (t0 : Nat), s.grn.upSince = some t0 ∧ isGranary s = true ∧ t0 + ms 10 ≤ s.core.t ∧ s.grn.ownHome =
      false ∧ s.grn.servedBy = none) ∧
    (∃ (s : State) (home : Nat), home ∈ s.grn.homes ∧ s.grn.handback = none ∧ home ≠ ownMember s ∧ (∀ e ∈ promoted s
      home, e.2.mstate = .inSync)) ∧
    (∃ (s : State) (home : Nat) (n : Nat), s.grn.handback = some { home, copies := n } ∧ (∀ e ∈ promoted s home,
      openTokens s e.1 = 0)) :=
  ⟨⟨{on (Gs Bn (Tr {})) (Hk .mirrorSet [1]) with hif := {G.hif with cmds := [Hk .mirrorSet [1]], feats := [(0x61 * 2 ^ 32, 0x109), (0x62 * 2 ^ 32, 16383)]}, rdm := {qps := [(16383, {Hp with state := .rts})]}},
      I, Hk .mirrorSet [1], 4194303, 3, 9, 3, Bn,
      by and_intros <;> first | decide +kernel | exact ok_of (by decide +kernel)⟩,
    ⟨{on (Gs Bn (Tr {})) (Hk .mirrorSet []) with hif := {G.hif with cmds := [Hk .mirrorSet []], feats := [(0x61 * 2 ^ 32, 0x109)]}},
      I, Hk .mirrorSet [], 4194303, Bn, by and_intros <;> first | decide +kernel | exact ok_of (by decide +kernel)⟩,
    ⟨{Gs {Bn with maps := [Mp 9]} (Tr {}) with rdm := {qps := [(16383, Hp)]}, prt := Pe}, Gq, Hp, 4194303, Mp 9,
      by and_intros <;> first | decide +kernel | exact ok_of (by decide +kernel)⟩,
    ⟨{Gs Bn (Tr {}) with rdm := {qps := [(16383, Hp)]}, prt := Pe}, sleepWake
      ({Gs Bn (Tr {}) with rdm := {qps := [(16383, Hp)]}, prt := Pe}), Gq, Hp, 0x11, 0,
      by and_intros <;> first | decide +kernel | exact error_of (by decide +kernel)⟩,
    ⟨{Gs {Bn with role := .standby, home := 9, pindex := 3} (Tr {}) with grn := {(Gs {Bn with role := .standby, home := 9, pindex := 3} (Tr {})).grn with mindex := [(3, 4194303)]}},
      0x0900000000000003, 0, 4194303, [1], false, {Bn with role := .standby, home := 9, pindex := 3},
      by decide +kernel⟩,
    ⟨{Gs Bn (Tr {}) with tly := {tokens := [(131071, {bin := 4194303, epoch := 0, kind := .write true})]}}, 131071,
      {bin := 4194303, epoch := 0, kind := .write true}, true, by decide +kernel⟩,
    ⟨{Gs Bn (Tr {}) with grn := {dir := [(4194303, Bn)], resilvers := [{bin := 4194303, next := 1}]}}, 4194303,
      {bin := 4194303, next := 1}, Bn, by decide +kernel⟩,
    ⟨{Gs Bn (Tr {}) with grn := {resilvers := [{bin := 4194303, flight := some 1}]}}, 4194303, 1,
      {bin := 4194303, flight := some 1}, by decide +kernel⟩,
    ⟨Gs {Bn with role := .standby, home := 9, mstate := .inSync} (Tr {}), 9, 4194303,
      {Bn with role := .standby, home := 9, mstate := .inSync}, by decide +kernel⟩,
    ⟨{B with dom := Dm}, Hd, 2, 5, by decide +kernel⟩,
    ⟨{G with dom := Dm}, Hd, 2, [5], by decide +kernel⟩,
    ⟨{B with dom := Dm}, Hd, 0, 0, 0, 0, by decide +kernel⟩,
    ⟨{Gs Bn (Tr {}) with dom := Dm}, Hd, 0x05FC0004003FFFFF, 0x107, 99, 4194303, Bn, by decide +kernel⟩,
    ⟨{on (Gs Bn (Tr {})) {K .binMap [] with phase := .waiting} with dom := Dm, grn := {(Gs Bn (Tr {})).grn with mapWaits := [⟨I, 4194303, 7, 1000, 0⟩]}},
      Hd, 0x05FC0004003FFFFF, 7, 4194303, Bn, ⟨I, 4194303, 7, 1000, 0⟩, {K .binMap [] with phase := .waiting},
      by decide +kernel⟩,
    ⟨{G with grn := {upSince := some 0}}, 0, by decide +kernel⟩,
    ⟨{Gs {Bn with home := 9, mstate := .inSync} (Tr {}) with grn := {homes := [9], dir := [(4194303, {Bn with home := 9, mstate := .inSync})]}},
      9, by decide +kernel⟩,
    ⟨{G with grn := {handback := some {home := 9, copies := 1}, dir := [(4194303, {Bn with home := 9})]}}, 9, 1,
      by decide +kernel⟩⟩

theorem test_wit_TallyAndNearMemory :
    (∃ (s : State) (id : CmdId) (c : Cmd) (i : Nat) (r : TRec), Runs s .tallyQuery id c ∧ s.dom.sleep.state = .awake
      ∧ readEntry false false (pktHandle c.pkt) (quietAgain s) = quietAgain s ∧ tallyTarget s (pktHandle c.pkt) = .ok
      i ∧ r = tallyOf s i ∧ (binEntry s i).maps = []) ∧
    (∃ (s : State) (id : CmdId) (c : Cmd) (i : Nat) (r : TRec), Runs s .tallyPrepReset id c ∧ s.dom.sleep.state =
      .awake ∧ readEntry false false (pktHandle c.pkt) (quietAgain s) = quietAgain s ∧ tallyTarget s (pktHandle
      c.pkt) = .ok i ∧ r = tallyOf s i ∧ r.state = .disturbed ∧ opsOpen s i = 0 ∧ (∀ m ∈ (binEntry s i).maps, m.unmap
      = none)) ∧
    (∃ (s : State) (id : CmdId) (c : Cmd) (i : Nat) (r : TRec), Runs s .tallyConfirm id c ∧ s.dom.sleep.state =
      .awake ∧ readEntry false false (pktHandle c.pkt) (quietAgain s) = quietAgain s ∧ tallyTarget s (pktHandle
      c.pkt) = .ok i ∧ r = tallyOf s i ∧ r.state = .sweeping ∧ (r.prepared = true → pktAuth c.pkt ≠ r.prepAuth) ∧
      r.swept = true ∧ fld c.pkt 3 7 0 = r.epoch ∧ fld c.pkt 3 31 8 = 0 ∧ arrivedAt s id < r.window) ∧
    (∃ (s : State) (id : CmdId) (c : Cmd) (i : Nat), Runs s .tallyConfirm id c ∧ s.dom.sleep.state = .awake ∧
      readEntry false false (pktHandle c.pkt) (quietAgain s) = quietAgain s ∧ tallyTarget s (pktHandle c.pkt) = .ok i
      ∧ (tallyOf s i).prepared = true ∧ pktAuth c.pkt = (tallyOf s i).prepAuth) ∧
    (∃ (s : State) (i : Nat) (n : Nat) (k : Token) (r : TRec) (pk : Packet), s.tly.tokens.get n = some k ∧ k.bin = i
      ∧ k.kind = .read ∧ k.waits = none ∧ k.who = none ∧ k.reads = true ∧ k.got = [] ∧ k.code = 0 ∧ (∀ x ∈
      s.tly.tokens, x.1 ≠ n → sameRequest k x.2 = false) ∧ s.mem.weak = [] ∧ badCell s (binCell (binEntry s i)
      k.offset) k.len = none ∧ r = tallyOf s i ∧ k.epoch = r.epoch ∧ r.a = r.b ∧ r.a.opsOut + 1 < r.a.opsIn ∧ (∀ p ∈
      readBin s (binEntry s i) k.offset k.len, p.2 = false) ∧ pk = .response (psnAdd k.first (packetsOf k.len - 1))
      ((readBin s (binEntry s i) k.offset k.len).map (·.1))) ∧
    (∃ (s : State) (i : Nat) (code : Nat) (relay : Option (List Byte)) (r : TRec), r = tallyOf s i ∧ r.state ≠
      .disturbed) ∧
    (∃ (s : State) (r : GReq) (rest : List GReq), s.tly.waiting = r :: rest ∧ tokenFree s = true) ∧
    (∃ (s : State) (i : Nat) (r : TRec), r = tallyOf s i ∧ r.state ≠ .disturbed) ∧
    (∃ (s : State) (i : Nat) (n : Nat), (tallyOf s i).a = (tallyOf s i).b) ∧
    (∃ (s : State) (i : Nat) (t0 : Nat), (tallyOf s i).state = .sweepPending ∧ (tallyOf s i).sweepAt = some t0) ∧
    (∃ (s : State) (i : Nat) (n : Nat) (cv : Nat) (x : Item) (r : TRec) (b : Bin), s.trn.items = [(n, x)] ∧ x.owner =
      .sweep cv i ∧ x.state = .running ∧ blockAwake s x.base 1 = true ∧ r = tallyOf s i ∧ r.state = .sweeping ∧
      r.swept = false ∧ r.a = {} ∧ r.b = {} ∧ b = binEntry s i ∧ b.size ≤ 30 ∧ (pairOf s b.pair).state = .up) ∧
    (∃ (s : State) (i : Nat) (r : TRec), r = tallyOf s i ∧ r.swept = true ∧ r.state = .sweeping ∧ r.window ≤
      s.core.time ∧ s.tly.arrived = []) ∧
    (∃ (s : State) (val : Nat) (bus : Bus), isGranary s = true ∧ s.core.ctlReset = false ∧ s.pwr.state = .run ∧
      s.grn.nmwHead = val % 2 ^ 16) ∧
    (∃ (s : State) (val : Nat) (image : Nat) (bus : Bus) (h : Held) (d : List (Byte × Bool) × State) (e : List Byte)
      (k : Chain) (m : Image), isGranary s = true ∧ s.core.ctlReset = false ∧ s.pwr.state = .run ∧ s.dom.sleep.state
      = .awake ∧ s.grn.nmwHead < 2 ^ 16 ∧ val % 2 ^ 16 = (s.grn.nmwHead + 1) % 2 ^ 16 ∧ translate s {} (bits
      s.grn.nmwCfg 25 16) (s.grn.nmwBase + 64 * (s.grn.nmwHead % nmwDepth s)) 64 = .ok h ∧ d = readRuns bus h.segs
      (noteWalks h (quietAgain { s with grn := { s.grn with nmwTail := val % 2 ^ 16 } })) ∧ anyPoison d.1 = false ∧ e
      = d.1.map (·.1) ∧ num e 16 48 = 0 ∧ num e 4 4 = 0 ∧ s.stn.chains.get (num e 0 2) = some k ∧ k.fn = 0 ∧
      k.images[num e 2 1]? = some image ∧ imageOf s image = some m ∧ gangFits (num e 3 1) m = true ∧ bit (num e 3 1)
      3 = false) :=
  ⟨⟨on (Gs Bn (Tr {})) (Hk .tallyQuery []), I, Hk .tallyQuery [], 4194303, Tr {},
      by and_intros <;> first | decide +kernel | exact ok_of (by decide +kernel)⟩,
    ⟨on (Gs Bn {state := .disturbed}) (Hk .tallyPrepReset []), I, Hk .tallyPrepReset [], 4194303,
      {state := .disturbed}, by and_intros <;> first | decide +kernel | exact ok_of (by decide +kernel)⟩,
    ⟨on (Gs Bn {state := .sweeping, swept := true, prepAuth := 2, epoch := 255, window := 1001}) (Hk .tallyConfirm
      [255,0,0,0,0,0,0,0,0,0,0,1]), I, Hk .tallyConfirm [255,0,0,0,0,0,0,0,0,0,0,1], 4194303,
      {state := .sweeping, swept := true, prepAuth := 2, epoch := 255, window := 1001},
      by and_intros <;> first | decide +kernel | exact ok_of (by decide +kernel)⟩,
    ⟨on (Gs Bn {state := .sweeping, swept := true, prepared := true, prepAuth := 1}) (Hk .tallyConfirm
      [0,0,0,0,0,0,0,0,0,0,0,1]), I, Hk .tallyConfirm [0,0,0,0,0,0,0,0,0,0,0,1], 4194303,
      by and_intros <;> first | decide +kernel | exact ok_of (by decide +kernel)⟩,
    ⟨{Gs Bn (Tr {}) with tly := {recs := [(4194303, Tr {opsIn := 2})], tokens := [(131071, {bin := 4194303, epoch := 0, kind := .read, reads := true, len := 1})]}},
      4194303, 131071, {bin := 4194303, epoch := 0, kind := .read, reads := true, len := 1}, Tr {opsIn := 2},
      .response 0 [0], by decide +kernel⟩,
    ⟨Gs Bn (Tr {}), 4194303, 3, none, Tr {}, by decide +kernel⟩,
    ⟨{Gs Bn (Tr {}) with tly := {waiting := [Gq]}}, Gq, [], by decide +kernel⟩,
    ⟨Gs Bn (Tr {}), 4194303, Tr {}, by decide +kernel⟩,
    ⟨Gs Bn (Tr {}), 4194303, 3, by decide +kernel⟩,
    ⟨Gs Bn {state := .sweepPending, sweepAt := some 0}, 4194303, 0, by decide +kernel⟩,
    ⟨{Gs Bn {state := .sweeping} with trn := {items := [(3, {fn := 0, owner := .sweep 63 4194303, image := 0, gang := 7, due := 0, state := .running, floors := 1})]}, pwr := {state := .run, doms := [(0, {level := .active})]}},
      4194303, 3, 63,
      {fn := 0, owner := .sweep 63 4194303, image := 0, gang := 7, due := 0, state := .running, floors := 1},
      {state := .sweeping}, Bn, by decide +kernel⟩,
    ⟨Gs Bn {state := .sweeping, swept := true, window := 1000}, 4194303,
      {state := .sweeping, swept := true, window := 1000}, by decide +kernel⟩,
    ⟨{G with grn := {ready := true, nmwHead := 65535}}, 65535, {}, by decide +kernel⟩,
    ⟨{G with grn := {ready := true, nmwCfg := 0x70004}, mem := {spaces := [(7, Sp)], cells := [(0, 255), (3, 7)]}, stn := {images := [(1023, Im)], chains := [(255, ⟨0, [1023], [], [], 0⟩)]}},
      1, 1023, {}, Hm 0 64, readRuns {} (Hm 0 64).segs (noteWalks (Hm 0 64) (quietAgain
      { ({G with grn := {ready := true, nmwCfg := 0x70004}, mem := {spaces := [(7, Sp)], cells := [(0, 255), (3, 7)]}, stn := {images := [(1023, Im)], chains := [(255, ⟨0, [1023], [], [], 0⟩)]}}) with grn := { ({G with grn := {ready := true, nmwCfg := 0x70004}, mem := {spaces := [(7, Sp)], cells := [(0, 255), (3, 7)]}, stn := {images := [(1023, Im)], chains := [(255, ⟨0, [1023], [], [], 0⟩)]}}).grn with nmwTail := 1 } })),
      leBytes 4 0x070000FF ++ leBytes 60 0, ⟨0, [1023], [], [], 0⟩, Im,
      by and_intros <;> first | decide +kernel | exact ok_of (by decide +kernel)⟩⟩

theorem test_wit_TrayAndMonitors :
    (∃ (s : State) (id : CmdId) (c : Cmd) (n : Nat), MailRuns s 2 id c ∧ s.mwr.steward = true ∧ n = dw c.pkt 3 ∧ n ≤
      7) ∧
    (∃ (s : State) (id : CmdId) (c : Cmd) (n : Nat), MailRuns s 3 id c ∧ s.mwr.steward = true ∧ n = dw c.pkt 3 ∧ n ≤
      7 ∧ (posOf s n).state = .absent) ∧
    (∃ (s : State) (id : CmdId) (c : Cmd) (n : Nat), MailRuns s 3 id c ∧ s.mwr.steward = true ∧ n = dw c.pkt 3 ∧ n ≤
      7 ∧ (posOf s n).state = .healthy) ∧
    (∃ (s : State) (n : Nat), n < 8 ∧ s.mwr.running = true ∧ s.mwr.steward = true ∧ (posOf s n).state = .absent) ∧
    (∃ (s : State) (n : Nat) (svn : Option Nat), n < 8 ∧ s.mwr.running = true ∧ s.mwr.steward = true ∧ (posOf s
      n).state = .unverified ∧ trayBus s = none) ∧
    (∃ (s : State) (n : Nat) (f : Flashes), n < 8 ∧ s.mwr.running = true ∧ s.mwr.steward = true ∧ (posOf s n).state =
      .verifying ∧ f.ptr = true ∧ bootCode (posSvn s n) f.primary = 0 ∧ bootCode (posSvn s n) f.golden = 0) ∧
    (∃ (s : State) (n : Nat) (f : Flashes), n < 8 ∧ s.mwr.running = true ∧ s.mwr.steward = true ∧ (posOf s n).state =
      .verifying ∧ f.ptr = true ∧ bootCode (posSvn s n) f.primary ≠ 0 ∧ bootCode (posSvn s n) f.golden = 0 ∧ (posOf s
      n).attempts.length < 3) ∧
    (∃ (s : State) (n : Nat), n < 8 ∧ s.mwr.running = true ∧ s.mwr.steward = true ∧ (posOf s n).state = .verifying) ∧
    (∃ (s : State) (n : Nat) (img : FwImage), n < 8 ∧ s.mwr.running = true ∧ s.mwr.steward = true ∧ (posOf s n).state
      = .reflashing ∧ (posOf s n).flashPrimary = some img ∧ (posOf s n).flashGolden = none) ∧
    (∃ (s : State) (n : Nat), n < 8 ∧ s.mwr.running = true ∧ s.mwr.steward = true ∧ (posOf s n).state = .givenUp ∧
      (posOf s n).attempts.getLastD 0 + flashWindow ≤ aoTicks s) ∧
    (∃ (s : State) (n : Nat) (r : Bool), n < 8 ∧ s.mwr.running = true ∧ s.mwr.steward = true ∧ (posOf s n).state =
      .healthy) ∧
    (∃ (s : State), s.mwr.serves = true) ∧
    (∃ (s : State) (t0 : Nat), s.mwr.serves = true ∧ s.mwr.releasedAt = some t0 ∧ s.mwr.st ≠ .recovery) ∧
    (∃ (s : State) (t0 : Nat), s.mwr.releasedAt = some t0 ∧ t0 + sec 60 ≤ s.core.t ∧ s.mwr.st ≠ .recovery) ∧
    (∃ (s : State), s.mwr.serves = true) ∧
    (∃ (s : State) (id : CmdId) (bus : Bus) (c : Cmd) (source : Nat), Runs s .monConfig id c ∧ c.context ≤ 63 ∧
      (s.evt.mons.has c.context = true → ownsMon s c.fn c.context = true) ∧ fld c.pkt 2 31 10 = 0 ∧ fbit c.pkt 2 8 =
      true ∧ source = fld c.pkt 2 3 0 ∧ sourceBad s source = false ∧ fld c.pkt 2 5 4 = 0 ∧ qw c.pkt 5 ≠ 0 ∧
      filterABad source (qw c.pkt 10) = false ∧ filterBBad source (qw c.pkt 12) = false ∧ (6 ≤ source → c.fn = 0)) ∧
    (∃ (s : State) (id : CmdId) (bus : Bus) (c : Cmd), Runs s .monConfig id c ∧ c.context ≤ 63 ∧ fld c.pkt 2 31 10 =
      0 ∧ fbit c.pkt 2 8 = false ∧ ownsMon s c.fn c.context = true) ∧
    (∃ (s : State) (id : CmdId) (c : Cmd) (x : Mon), Runs s .monSnapshot id c ∧ c.context ≤ 63 ∧ s.evt.mons.get
      c.context = some x ∧ x.fn = c.fn ∧ qw c.pkt 4 = 0 ∧ fld c.pkt 6 31 1 = 0) ∧
    (∃ (s : State) (id : CmdId) (c : Cmd) (x : Mon), Runs s .monClear id c ∧ c.context ≤ 63 ∧ s.evt.mons.get
      c.context = some x ∧ x.fn = c.fn ∧ qw c.pkt 2 = 0) ∧
    (∃ (s : State) (m : Nat) (reading : Nat) (x : Mon), s.evt.mons.get m = some x ∧ x.source = 9 ∧ x.dueAt ≤ s.core.t
      ∧ s.pwr.state = .run ∧ s.mwr.running = true ∧ reading < 2 ^ 31 ∧ x.busyUntil ≤ whlCycles s) :=
  ⟨⟨on (St {}) (Mb [2,7]), I, Mb [2,7], 7, by decide +kernel⟩,
    ⟨on (St {}) (Mb [3,7]), I, Mb [3,7], 7, by decide +kernel⟩,
    ⟨on (St {state := .healthy}) (Mb [3,7]), I, Mb [3,7], 7, by decide +kernel⟩,
    ⟨St {}, 7, by decide +kernel⟩,
    ⟨St {state := .unverified}, 7, none, by decide +kernel⟩,
    ⟨St {state := .verifying}, 7, ⟨{}, {}, true⟩, by decide +kernel⟩,
    ⟨St {state := .verifying, attempts := [0, 0]}, 7, ⟨{magic := false}, {}, true⟩, by decide +kernel⟩,
    ⟨St {state := .verifying}, 7, by decide +kernel⟩,
    ⟨St {state := .reflashing, flashPrimary := some {}}, 7, {}, by decide +kernel⟩,
    ⟨at_ 3600000000000 (St {state := .givenUp}), 7, by decide +kernel⟩,
    ⟨St {state := .healthy}, 7, true, by decide +kernel⟩,
    ⟨B, by decide +kernel⟩,
    ⟨{B with mwr := {st := .primary, releasedAt := some 0}}, 0, by decide +kernel⟩,
    ⟨{B with mwr := {st := .primary, releasedAt := some 0}}, 0, by decide +kernel⟩,
    ⟨B, by decide +kernel⟩,
    ⟨on B (K .monConfig [0,63,0x109,0,0,1,0,0,0,0,8,0,1000]), I, {}, K .monConfig
      [0,63,0x109,0,0,1,0,0,0,0,8,0,1000], 9, by decide +kernel⟩,
    ⟨on {B with evt := {mons := [(63, Mo)]}} (K .monConfig [0,63]), I, {}, K .monConfig [0,63], by decide +kernel⟩,
    ⟨on {B with evt := {mons := [(63, Mo)]}} (K .monSnapshot [0,63]), I, K .monSnapshot [0,63], Mo,
      by decide +kernel⟩,
    ⟨on {B with evt := {mons := [(63, Mo)]}} (K .monClear [0,63]), I, K .monClear [0,63], Mo, by decide +kernel⟩,
    ⟨{B with evt := {mons := [(63, Mo)]}}, 63, 0x7FFFFFFF, Mo, by decide +kernel⟩⟩

theorem test_wit_BrakeInputs :
    (∃ (s : State) (ch : Nat) (pos : Nat) (neg : Nat), s.pwr.aoIn = true ∧ ch < 8 ∧ s.brk.act.leakEn ch = true ∧
      discarded s ch = false ∧ s.brk.settle = none ∧ (leakOf s ch).state = .dry ∧ (leakOf s ch).wet = 2 ∧ (leakOf s
      ch).asym = 0 ∧ max pos neg ≤ 2 * min pos neg ∧ (pos + neg) / 2 < s.brk.act.wetTh ∧ (pos + neg) / 2 ≤
      s.brk.act.dryTh) ∧
    (∃ (s : State) (ch : Nat) (pos : Nat) (neg : Nat), s.pwr.aoIn = true ∧ ch < 8 ∧ s.brk.act.leakEn ch = true ∧
      discarded s ch = false ∧ (leakOf s ch).state = .dry ∧ (leakOf s ch).asym < 3 ∧ max pos neg ≤ 2 * min pos neg ∧
      s.brk.act.wetTh ≤ (pos + neg) / 2 ∧ s.brk.act.dryTh < (pos + neg) / 2) ∧
    (∃ (s : State) (t0 : Nat), s.pwr.aoIn = true ∧ s.brk.settle = some t0 ∧ t0 + ms 100 ≤ s.core.t ∧ s.brk.cls = 0 ∧
      (∀ n, n < 8 → s.brk.act.leakEn n = true → (leakOf s n).state = .undetermined ∧ 3 ≤ (leakOf s n).dryRun) ∧ (∀ i,
      i < 4 → s.brk.act.ilkEn i = true → (ilkOf s i).state = .healthy) ∧ s.brk.outPins = 0 ∧ s.brk.ioLost = false ∧
      s.brk.settleTrip = false ∧ s.brk.lockout = false) ∧
    (∃ (s : State) (t0 : Nat), s.pwr.aoIn = true ∧ s.brk.settle = some t0 ∧ t0 + ms 100 ≤ s.core.t ∧ s.brk.cls ≠ 0 ∧
      s.brk.set = true) ∧
    (∃ (s : State), s.pwr.aoIn = true ∧ s.brk.blankIn = false ∧ s.brk.blank = none ∧ s.brk.guard = none ∧ valvesIn s
      .pullIn = []) ∧
    (∃ (s : State) (t0 : Nat) (m : Nat), s.pwr.aoIn = true ∧ s.brk.blankIn = true ∧ s.brk.blank = some (t0, m) ∧
      valvesIn s .pullIn = []) ∧
    (∃ (s : State) (t0 : Nat) (m : Nat), s.pwr.aoIn = true ∧ s.brk.blank = some (t0, m) ∧ t0 + aoNs 1638 ≤ s.core.t) ∧
    (∃ (s : State) (t0 : Nat), s.pwr.aoIn = true ∧ s.brk.guard = some t0 ∧ t0 + aoNs 328 ≤ s.core.t ∧ s.brk.blank =
      none ∧ valvesIn s .pullIn = []) ∧
    (∃ (s : State), s.pwr.aoIn = true ∧ s.brk.outPins = 0 ∧ s.brk.set = false) ∧
    (∃ (s : State), s.pwr.aoIn = true ∧ s.brk.set = false) ∧
    (∃ (s : State), s.pwr.aoIn = true ∧ s.pwr.state ≠ .off ∧ s.brk.ioLost = false ∧ s.brk.set = false) :=
  ⟨⟨Bk {settle := none, leaks := [(7, {state := .dry, wet := 2})]}, 7, 199, 199, by decide +kernel⟩,
    ⟨Bk {leaks := [(7, {state := .dry, asym := 2})]}, 7, 1001, 1001, by decide +kernel⟩,
    ⟨Bk {leaks := L8 {dryRun := 3}}, 0, by decide +kernel⟩,
    ⟨Bk {cls := 1}, 0, by decide +kernel⟩,
    ⟨Bk {}, by decide +kernel⟩,
    ⟨Bk {blankIn := true, blank := some (0, 255)}, 0, 255, by decide +kernel⟩,
    ⟨Bk {blankIn := true, blank := some (0, 255)}, 0, 255, by decide +kernel⟩,
    ⟨Bk {guard := some 0}, 0, by decide +kernel⟩,
    ⟨Bk {set := false}, by decide +kernel⟩,
    ⟨Bk {set := false}, by decide +kernel⟩,
    ⟨Bk {set := false}, by decide +kernel⟩⟩

theorem test_wit_BrakeReleases :
    (∃ (s : State), s.pwr.aoIn = true ∧ s.brk.hold = none) ∧
    (∃ (s : State) (h : RstHold), s.pwr.aoIn = true ∧ s.brk.hold = some h ∧ h.since + ms 100 ≤ s.core.t ∧ s.core.t ≤
      h.since + ms 2000 ∧ h.bad = false ∧ h.written = false ∧ healthyPending s = true ∧ s.brk.settle = none) ∧
    (∃ (s : State) (h : RstHold), s.pwr.aoIn = true ∧ s.brk.hold = some h ∧ (s.core.t < h.since + ms 100 ∨ h.since +
      ms 2000 < s.core.t ∨ h.bad = true ∨ h.written = true ∨ healthyPending s = false ∨ s.brk.settle.isSome = true)) ∧
    (∃ (s : State) (h : RstHold), s.pwr.aoIn = true ∧ s.brk.hold = some h ∧ h.since + ms 2000 < s.core.t) ∧
    (∃ (s : State) (id : CmdId) (c : Cmd), MailRuns s 0x100 id c) ∧
    (∃ (s : State) (id : CmdId) (c : Cmd) (off : Nat) (p : BrkCfg), MailRuns s 0x101 id c ∧ s.mwr.steward = true ∧
      off = dw c.pkt 3 ∧ (off = 0xB00080 ∨ off = 0xB00084 ∨ off = 0xB00088) ∧ s.brk.pend.write off (dw c.pkt 4) =
      some p) ∧
    (∃ (s : State) (id : CmdId) (c : Cmd) (off : Nat), MailRuns s 0x101 id c ∧ s.mwr.steward = true ∧ off = dw c.pkt
      3 ∧ (off = 0xB00080 ∨ off = 0xB00084 ∨ off = 0xB00088) ∧ s.brk.pend.write off (dw c.pkt 4) = none) :=
  ⟨⟨Bk {}, by decide +kernel⟩,
    ⟨Bk {settle := none, leaksP := L8 {state := .dry}, hold := some ⟨999900000000, false, false⟩}, ⟨999900000000,
      false, false⟩, by decide +kernel⟩,
    ⟨Bk {settle := none, leaksP := L8 {state := .dry}, hold := some ⟨999900000000, false, true⟩}, ⟨999900000000,
      false, true⟩, by decide +kernel⟩,
    ⟨Bk {hold := some ⟨0, false, false⟩}, ⟨0, false, false⟩, by decide +kernel⟩,
    ⟨on B (Mb [0x100]), I, Mb [0x100], by decide +kernel⟩,
    ⟨on (Bs {}) (Mb [0x101,0xB00084,0x03E800C8]), I, Mb [0x101,0xB00084,0x03E800C8], 0xB00084, {}, by decide +kernel⟩,
    ⟨on (Bs {}) (Mb [0x101,0xB00088,0]), I, Mb [0x101,0xB00088,0], 0xB00088, by decide +kernel⟩⟩

theorem test_wit_Valves :
    (∃ (s : State) (id : CmdId) (c : Cmd) (n : Nat), MailRuns s 0x110 id c ∧ s.mwr.steward = true ∧ n = fld c.pkt 3 2
      0 ∧ fld c.pkt 3 7 3 = 0 ∧ fld c.pkt 3 31 9 = 0 ∧ fbit c.pkt 3 8 = true ∧ (valveOf s n).state = .off ∧
      startAllowed s n = true) ∧
    (∃ (s : State) (id : CmdId) (c : Cmd) (n : Nat), MailRuns s 0x110 id c ∧ s.mwr.steward = true ∧ n = fld c.pkt 3 2
      0 ∧ fld c.pkt 3 7 3 = 0 ∧ fld c.pkt 3 31 9 = 0 ∧ fbit c.pkt 3 8 = true ∧ (valveOf s n).state = .hold ∧
      (s.brk.set = true → s.brk.act.drops n = false)) ∧
    (∃ (s : State) (id : CmdId) (c : Cmd) (n : Nat), MailRuns s 0x110 id c ∧ s.mwr.steward = true ∧ n = fld c.pkt 3 2
      0 ∧ fld c.pkt 3 7 3 = 0 ∧ fld c.pkt 3 31 9 = 0 ∧ fbit c.pkt 3 8 = true ∧ s.brk.set = true ∧ s.brk.act.drops n =
      true) ∧
    (∃ (s : State) (id : CmdId) (c : Cmd) (n : Nat), MailRuns s 0x110 id c ∧ s.mwr.steward = true ∧ n = fld c.pkt 3 2
      0 ∧ fld c.pkt 3 7 3 = 0 ∧ fld c.pkt 3 31 9 = 0 ∧ fbit c.pkt 3 8 = false ∧ (valveOf s n).state ≠ .off) ∧
    (∃ (s : State) (id : CmdId) (c : Cmd), MailRuns s 0x111 id c) ∧
    (∃ (s : State) (id : CmdId) (c : Cmd), MailRuns s 0x112 id c ∧ s.mwr.steward = true ∧ fld c.pkt 3 31 23 = 0 ∧
      valveCfgOk (dw c.pkt 3) = true ∧ groupInUse s (dw c.pkt 3) = false) ∧
    (∃ (s : State) (n : Nat), s.pwr.aoIn = true ∧ (valveOf s n).state = .pullIn ∧ (valveOf s n).since + aoNs 2622 ≤
      s.core.t) ∧
    (∃ (s : State) (n : Nat), s.pwr.aoIn = true ∧ (valveOf s n).state = .deferred ∧ (valveOf s n).since + ms 200 ≤
      s.core.t ∧ (∀ k ∈ s.brk.deferOrder, startAllowed s k = false)) ∧
    (∃ (s : State) (g : Nat), s.pwr.aoIn = true ∧ g < 4 ∧ bit s.brk.hsFault g = false) ∧
    (∃ (s : State) (g : Nat), s.pwr.aoIn = true ∧ g < 4 ∧ bit s.brk.hsFault g = true) :=
  ⟨⟨on (Bs {set := false}) (Mb [0x110,0x107]), I, Mb [0x110,0x107], 7, by decide +kernel⟩,
    ⟨on (Bs {set := false, valves := [(7, {state := .hold})]}) (Mb [0x110,0x107]), I, Mb [0x110,0x107], 7,
      by decide +kernel⟩,
    ⟨on (Bs {}) (Mb [0x110,0x107]), I, Mb [0x110,0x107], 7, by decide +kernel⟩,
    ⟨on (Bs {valves := [(7, {state := .hold})]}) (Mb [0x110,7]), I, Mb [0x110,7], 7, by decide +kernel⟩,
    ⟨on B (Mb [0x111]), I, Mb [0x111], by decide +kernel⟩,
    ⟨on (Bs {}) (Mb [0x112,0x26FA50]), I, Mb [0x112,0x26FA50], by decide +kernel⟩,
    ⟨Bk {valves := [(7, {state := .pullIn})]}, 7, by decide +kernel⟩,
    ⟨Bk {valves := [(7, {state := .deferred})], deferOrder := [7]}, 7, by decide +kernel⟩,
    ⟨Bk {}, 3, by decide +kernel⟩,
    ⟨Bk {hsFault := 8}, 3, by decide +kernel⟩⟩

theorem test_wit_Slots :
    (∃ (s : State) (id : CmdId) (c : Cmd) (n : Nat), MailRuns s 0x120 id c ∧ s.mwr.steward = true ∧ n = fld c.pkt 3 2
      0 ∧ fld c.pkt 3 7 3 = 0 ∧ fld c.pkt 3 31 9 = 0 ∧ fbit c.pkt 3 8 = true ∧ (slotOf s n).state = .off ∧ (∀ k, k <
      8 → k ≠ n → (slotOf s k).state ≠ .powering) ∧ s.brk.set = false ∧ (posOf s n).state = .healthy ∧ s.mwr.self ≠
      some n) ∧
    (∃ (s : State) (id : CmdId) (c : Cmd) (n : Nat), MailRuns s 0x120 id c ∧ s.mwr.steward = true ∧ n = fld c.pkt 3 2
      0 ∧ fld c.pkt 3 7 3 = 0 ∧ fld c.pkt 3 31 9 = 0 ∧ fbit c.pkt 3 8 = true ∧ (slotOf s n).state = .off ∧ (∀ k, k <
      8 → k ≠ n → (slotOf s k).state ≠ .powering) ∧ s.brk.set = true) ∧
    (∃ (s : State) (id : CmdId) (c : Cmd) (n : Nat), MailRuns s 0x120 id c ∧ s.mwr.steward = true ∧ n = fld c.pkt 3 2
      0 ∧ fld c.pkt 3 7 3 = 0 ∧ fld c.pkt 3 31 9 = 0 ∧ fbit c.pkt 3 8 = false ∧ (slotOf s n).pg = false) ∧
    (∃ (s : State) (id : CmdId) (c : Cmd) (n : Nat), MailRuns s 0x120 id c ∧ s.mwr.steward = true ∧ n = fld c.pkt 3 2
      0 ∧ fld c.pkt 3 7 3 = 0 ∧ fld c.pkt 3 31 9 = 0 ∧ fbit c.pkt 3 8 = false ∧ (slotOf s n).pg = true ∧ (slotOf s
      n).waiters = []) ∧
    (∃ (s : State) (n : Nat), s.pwr.aoIn = true ∧ n < 8 ∧ (slotOf s n).state = .powering) ∧
    (∃ (s : State) (n : Nat), s.pwr.aoIn = true ∧ n < 8) ∧
    (∃ (s : State) (n : Nat), s.pwr.aoIn = true ∧ (slotOf s n).state = .powering ∧ (slotOf s n).since + ms 100 ≤
      s.core.t) ∧
    (∃ (s : State) (n : Nat) (t0 : Nat) (id : CmdId) (c : Cmd), s.pwr.aoIn = true ∧ (slotOf s n).pg = true ∧ ms 100 ≤
      s.core.t ∧ (slotOf s n).waiters = [(id, false, t0)] ∧ t0 + ms 100 ≤ s.core.t ∧ findCmd s id = some c) ∧
    (∃ (s : State) (n : Nat), s.pwr.aoIn = true ∧ (slotOf s n).state = .on) ∧
    (∃ (s : State) (n : Nat), s.pwr.aoIn = true ∧ n < 8) ∧
    (∃ (s : State) (id : CmdId) (c : Cmd), MailRuns s 0x121 id c) ∧
    (∃ (s : State) (id : CmdId) (c : Cmd), MailRuns s 0x122 id c ∧ s.mwr.steward = true ∧ fld c.pkt 3 31 3 = 0) :=
  ⟨⟨on (Bs {set := false}) (Mb [0x120,0x107]), I, Mb [0x120,0x107], 7, by decide +kernel⟩,
    ⟨on (Bs {}) (Mb [0x120,0x107]), I, Mb [0x120,0x107], 7, by decide +kernel⟩,
    ⟨on (Bs {}) (Mb [0x120,7]), I, Mb [0x120,7], 7, by decide +kernel⟩,
    ⟨on (Bs {slots := [(7, {pg := true})]}) (Mb [0x120,7]), I, Mb [0x120,7], 7, by decide +kernel⟩,
    ⟨Bk {slots := [(7, {state := .powering})]}, 7, by decide +kernel⟩,
    ⟨Bk {slots := [(7, {state := .on})]}, 7, by decide +kernel⟩,
    ⟨Bk {slots := [(7, {state := .powering})]}, 7, by decide +kernel⟩,
    ⟨on (Bs {slots := [(7, {pg := true, waiters := [(I, false, 0)]})]}) (Mb [0x120,7]), 7, 0, I, Mb [0x120,7],
      by decide +kernel⟩,
    ⟨Bk {slots := [(7, {state := .on})]}, 7, by decide +kernel⟩,
    ⟨Bk {slots := [(7, {state := .on})]}, 7, by decide +kernel⟩,
    ⟨on B (Mb [0x121]), I, Mb [0x121], by decide +kernel⟩,
    ⟨on (Bs {}) (Mb [0x122,7]), I, Mb [0x122,7], by decide +kernel⟩⟩

theorem test_wit_FrontOfQueue :
    (∃ (c : Instr) (r : List Instr) (s : State), s.pending = c :: r) ∧
    (∃ (s : State), s.pending = []) :=
  ⟨⟨.brakeRstFall, [], {B with pending := [.brakeRstFall]}, by decide +kernel⟩,
    ⟨B, by decide +kernel⟩⟩

theorem test_wit_BrakeSafeKept :
    (∃ (s : State) (t : State), s.brk.safe ∧ step s = .next t) :=
    ⟨{State.reset with pending := [.brakeRstFall]}, (match step ({State.reset with pending := [.brakeRstFall]}) with
    | .next t => t | _ => ({State.reset with pending := [.brakeRstFall]})),
    by and_intros <;> first | decide +kernel | exact ⟨fun h => (by decide : (true : Bool) = true), by decide⟩ | exact rfl⟩

theorem test_wit_Trips :
    (∃ (s : State) (code : Nat) (idx : Nat), s.brk.set = false) ∧
    (∃ (s : State) (code : Nat) (idx : Nat), s.brk.set = true ∧ s.brk.lockout = true ∧ s.brk.settle = none ∧
      s.brk.tripTime = aoTicks s) ∧
    (∃ (s : State) (code : Nat) (idx : Nat), s.brk.set = true ∧ s.brk.lockout = true ∧ s.brk.settle = none ∧
      s.brk.tripTime ≠ aoTicks s) ∧
    (∃ (s : State) (code : Nat) (idx : Nat), s.brk.set = true ∧ s.brk.lockout = false ∧ s.brk.settle = none) ∧
    (∃ (s : State) (code : Nat) (idx : Nat) (t0 : Nat), s.brk.set = true ∧ s.brk.lockout = false ∧ s.brk.settle =
      some t0) ∧
    (∃ (s : State) (t0 : Nat), s.pwr.aoIn = true ∧ s.brk.settle = some t0 ∧ t0 + ms 100 ≤ s.core.t ∧ s.brk.set = true
      ∧ s.brk.lockout = true) :=
  ⟨⟨Bk {set := false}, 1, 7, by decide +kernel⟩,
    ⟨Bk {lockout := true, settle := none, tripTime := 32768000}, 1, 7, by decide +kernel⟩,
    ⟨Bk {lockout := true, settle := none}, 1, 7, by decide +kernel⟩,
    ⟨Bk {settle := none}, 1, 7, by decide +kernel⟩,
    ⟨Bk {}, 1, 7, 0, by decide +kernel⟩,
    ⟨Bk {lockout := true}, 0, by decide +kernel⟩⟩

theorem test_wit_InterlockMoves :
    (∃ (s : State) (i : Nat) (second : Bool) (closed : Bool) (a : Bool) (b : Bool) (st : IlkState), s.pwr.aoIn = true
      ∧ i < 4 ∧ s.brk.act.ilkEn i = true ∧ (if second then (ilkOf s i).b else (ilkOf s i).a) ≠ closed ∧ a = (if
      second then (ilkOf s i).a else closed) ∧ b = (if second then closed else (ilkOf s i).b) ∧ ((ilkOf s i).state =
      .healthy ∧ (ilkOf s i).inPlace (s.brk.act.ilkAnti i) = true ∧ st = .discrepant) ∨ ((ilkOf s i).state =
      .discrepant ∧ s.core.t < (ilkOf s i).since + ms s.brk.act.discMs ∧ a = false ∧ b = s.brk.act.ilkAnti i ∧ st =
      .open_) ∨ ((ilkOf s i).state = .discrepant ∧ s.core.t < (ilkOf s i).since + ms s.brk.act.discMs ∧ a = true ∧ b
      = !s.brk.act.ilkAnti i ∧ st = .healthy) ∨ ((ilkOf s i).state = .open_ ∧ (ilkOf s i).a = false ∧ (ilkOf s i).b =
      s.brk.act.ilkAnti i ∧ st = .returning) ∨ ((ilkOf s i).state = .returning ∧ s.core.t < (ilkOf s i).since + ms
      s.brk.act.discMs ∧ a = true ∧ b = !s.brk.act.ilkAnti i ∧ st = .healthy) ∨ ((ilkOf s i).state = .returning ∧
      s.core.t < (ilkOf s i).since + ms s.brk.act.discMs ∧ a = false ∧ b = s.brk.act.ilkAnti i ∧ st = .open_)) ∧
    (∃ (s : State) (i : Nat) (second : Bool) (closed : Bool) (a : Bool) (b : Bool) (st : IlkState), s.pwr.aoIn = true
      ∧ i < 4 ∧ s.brk.act.ilkEn i = true ∧ (if second then (ilkOf s i).b else (ilkOf s i).a) ≠ closed ∧ a = (if
      second then (ilkOf s i).a else closed) ∧ b = (if second then closed else (ilkOf s i).b) ∧ ((ilkOf s i).state =
      .healthy ∧ (ilkOf s i).inPlace (s.brk.act.ilkAnti i) = true ∧ st = .discrepant) ∨ ((ilkOf s i).state =
      .discrepant ∧ s.core.t < (ilkOf s i).since + ms s.brk.act.discMs ∧ a = false ∧ b = s.brk.act.ilkAnti i ∧ st =
      .open_) ∨ ((ilkOf s i).state = .discrepant ∧ s.core.t < (ilkOf s i).since + ms s.brk.act.discMs ∧ a = true ∧ b
      = !s.brk.act.ilkAnti i ∧ st = .healthy) ∨ ((ilkOf s i).state = .open_ ∧ (ilkOf s i).a = false ∧ (ilkOf s i).b =
      s.brk.act.ilkAnti i ∧ st = .returning) ∨ ((ilkOf s i).state = .returning ∧ s.core.t < (ilkOf s i).since + ms
      s.brk.act.discMs ∧ a = true ∧ b = !s.brk.act.ilkAnti i ∧ st = .healthy) ∨ ((ilkOf s i).state = .returning ∧
      s.core.t < (ilkOf s i).since + ms s.brk.act.discMs ∧ a = false ∧ b = s.brk.act.ilkAnti i ∧ st = .open_)) ∧
    (∃ (s : State) (i : Nat) (second : Bool) (closed : Bool) (a : Bool) (b : Bool) (st : IlkState), s.pwr.aoIn = true
      ∧ i < 4 ∧ s.brk.act.ilkEn i = true ∧ (if second then (ilkOf s i).b else (ilkOf s i).a) ≠ closed ∧ a = (if
      second then (ilkOf s i).a else closed) ∧ b = (if second then closed else (ilkOf s i).b) ∧ ((ilkOf s i).state =
      .healthy ∧ (ilkOf s i).inPlace (s.brk.act.ilkAnti i) = true ∧ st = .discrepant) ∨ ((ilkOf s i).state =
      .discrepant ∧ s.core.t < (ilkOf s i).since + ms s.brk.act.discMs ∧ a = false ∧ b = s.brk.act.ilkAnti i ∧ st =
      .open_) ∨ ((ilkOf s i).state = .discrepant ∧ s.core.t < (ilkOf s i).since + ms s.brk.act.discMs ∧ a = true ∧ b
      = !s.brk.act.ilkAnti i ∧ st = .healthy) ∨ ((ilkOf s i).state = .open_ ∧ (ilkOf s i).a = false ∧ (ilkOf s i).b =
      s.brk.act.ilkAnti i ∧ st = .returning) ∨ ((ilkOf s i).state = .returning ∧ s.core.t < (ilkOf s i).since + ms
      s.brk.act.discMs ∧ a = true ∧ b = !s.brk.act.ilkAnti i ∧ st = .healthy) ∨ ((ilkOf s i).state = .returning ∧
      s.core.t < (ilkOf s i).since + ms s.brk.act.discMs ∧ a = false ∧ b = s.brk.act.ilkAnti i ∧ st = .open_)) ∧
    (∃ (s : State) (i : Nat) (second : Bool) (closed : Bool) (a : Bool) (b : Bool) (st : IlkState), s.pwr.aoIn = true
      ∧ i < 4 ∧ s.brk.act.ilkEn i = true ∧ (if second then (ilkOf s i).b else (ilkOf s i).a) ≠ closed ∧ a = (if
      second then (ilkOf s i).a else closed) ∧ b = (if second then closed else (ilkOf s i).b) ∧ ((ilkOf s i).state =
      .healthy ∧ (ilkOf s i).inPlace (s.brk.act.ilkAnti i) = true ∧ st = .discrepant) ∨ ((ilkOf s i).state =
      .discrepant ∧ s.core.t < (ilkOf s i).since + ms s.brk.act.discMs ∧ a = false ∧ b = s.brk.act.ilkAnti i ∧ st =
      .open_) ∨ ((ilkOf s i).state = .discrepant ∧ s.core.t < (ilkOf s i).since + ms s.brk.act.discMs ∧ a = true ∧ b
      = !s.brk.act.ilkAnti i ∧ st = .healthy) ∨ ((ilkOf s i).state = .open_ ∧ (ilkOf s i).a = false ∧ (ilkOf s i).b =
      s.brk.act.ilkAnti i ∧ st = .returning) ∨ ((ilkOf s i).state = .returning ∧ s.core.t < (ilkOf s i).since + ms
      s.brk.act.discMs ∧ a = true ∧ b = !s.brk.act.ilkAnti i ∧ st = .healthy) ∨ ((ilkOf s i).state = .returning ∧
      s.core.t < (ilkOf s i).since + ms s.brk.act.discMs ∧ a = false ∧ b = s.brk.act.ilkAnti i ∧ st = .open_)) ∧
    (∃ (s : State) (i : Nat) (second : Bool) (closed : Bool) (a : Bool) (b : Bool) (st : IlkState), s.pwr.aoIn = true
      ∧ i < 4 ∧ s.brk.act.ilkEn i = true ∧ (if second then (ilkOf s i).b else (ilkOf s i).a) ≠ closed ∧ a = (if
      second then (ilkOf s i).a else closed) ∧ b = (if second then closed else (ilkOf s i).b) ∧ ((ilkOf s i).state =
      .healthy ∧ (ilkOf s i).inPlace (s.brk.act.ilkAnti i) = true ∧ st = .discrepant) ∨ ((ilkOf s i).state =
      .discrepant ∧ s.core.t < (ilkOf s i).since + ms s.brk.act.discMs ∧ a = false ∧ b = s.brk.act.ilkAnti i ∧ st =
      .open_) ∨ ((ilkOf s i).state = .discrepant ∧ s.core.t < (ilkOf s i).since + ms s.brk.act.discMs ∧ a = true ∧ b
      = !s.brk.act.ilkAnti i ∧ st = .healthy) ∨ ((ilkOf s i).state = .open_ ∧ (ilkOf s i).a = false ∧ (ilkOf s i).b =
      s.brk.act.ilkAnti i ∧ st = .returning) ∨ ((ilkOf s i).state = .returning ∧ s.core.t < (ilkOf s i).since + ms
      s.brk.act.discMs ∧ a = true ∧ b = !s.brk.act.ilkAnti i ∧ st = .healthy) ∨ ((ilkOf s i).state = .returning ∧
      s.core.t < (ilkOf s i).since + ms s.brk.act.discMs ∧ a = false ∧ b = s.brk.act.ilkAnti i ∧ st = .open_)) ∧
    (∃ (s : State) (i : Nat) (second : Bool) (closed : Bool) (a : Bool) (b : Bool) (st : IlkState), s.pwr.aoIn = true
      ∧ i < 4 ∧ s.brk.act.ilkEn i = true ∧ (if second then (ilkOf s i).b else (ilkOf s i).a) ≠ closed ∧ a = (if
      second then (ilkOf s i).a else closed) ∧ b = (if second then closed else (ilkOf s i).b) ∧ ((ilkOf s i).state =
      .healthy ∧ (ilkOf s i).inPlace (s.brk.act.ilkAnti i) = true ∧ st = .discrepant) ∨ ((ilkOf s i).state =
      .discrepant ∧ s.core.t < (ilkOf s i).since + ms s.brk.act.discMs ∧ a = false ∧ b = s.brk.act.ilkAnti i ∧ st =
      .open_) ∨ ((ilkOf s i).state = .discrepant ∧ s.core.t < (ilkOf s i).since + ms s.brk.act.discMs ∧ a = true ∧ b
      = !s.brk.act.ilkAnti i ∧ st = .healthy) ∨ ((ilkOf s i).state = .open_ ∧ (ilkOf s i).a = false ∧ (ilkOf s i).b =
      s.brk.act.ilkAnti i ∧ st = .returning) ∨ ((ilkOf s i).state = .returning ∧ s.core.t < (ilkOf s i).since + ms
      s.brk.act.discMs ∧ a = true ∧ b = !s.brk.act.ilkAnti i ∧ st = .healthy) ∨ ((ilkOf s i).state = .returning ∧
      s.core.t < (ilkOf s i).since + ms s.brk.act.discMs ∧ a = false ∧ b = s.brk.act.ilkAnti i ∧ st = .open_)) ∧
    (∃ (s : State) (i : Nat), s.pwr.aoIn = true ∧ i < 4 ∧ s.brk.act.ilkEn i = true ∧ (ilkOf s i).state = .discrepant
      ∨ (ilkOf s i).state = .returning ∧ (ilkOf s i).since + ms s.brk.act.discMs ≤ s.core.t) ∧
    (∃ (s : State) (i : Nat), s.pwr.aoIn = true ∧ i < 4 ∧ s.brk.act.ilkEn i = true ∧ (ilkOf s i).state = .fault ∧
      (ilkOf s i).inPlace (s.brk.act.ilkAnti i) = true ∧ (ilkOf s i).since + ms s.brk.act.discMs ≤ s.core.t) ∧
    (∃ (s : State) (i : Nat), i < 4 ∧ s.brk.act.ilkEn i = true ∧ (ilkOf s i).state ≠ .healthy) :=
  ⟨⟨Bk {}, 3, false, false, false, true, .discrepant, by decide +kernel⟩,
    ⟨Bk {ilks := [(3, {state := .discrepant, a := true, b := false, since := 999951000000})]}, 3, false, false,
      false, false, .open_, by decide +kernel⟩,
    ⟨Bk {ilks := [(3, {state := .discrepant, a := false, b := true, since := 999951000000})]}, 3, false, true, true,
      true, .healthy, by decide +kernel⟩,
    ⟨Bk {ilks := [(3, {state := .open_, a := false, b := false})]}, 3, false, true, true, false, .returning,
      by decide +kernel⟩,
    ⟨Bk {ilks := [(3, {state := .returning, a := false, b := true, since := 999951000000})]}, 3, false, true, true,
      true, .healthy, by decide +kernel⟩,
    ⟨Bk {ilks := [(3, {state := .returning, a := true, b := false, since := 999951000000})]}, 3, false, false, false,
      false, .open_, by decide +kernel⟩,
    ⟨Bk {ilks := [(3, {state := .returning, since := 999950000000})]}, 3, by decide +kernel⟩,
    ⟨Bk {ilks := [(3, {state := .fault, since := 999950000000})]}, 3, by decide +kernel⟩,
    ⟨Bk {ilks := [(3, {state := .fault})]}, 3, by decide +kernel⟩⟩

theorem test_wit_EventRings :
    (∃ (g : EvRing) (e : EventRec), g.recs.length < 1024 ∧ g.dropped = 0) ∧
    (∃ (g : EvRing) (e : EventRec), g.recs.length = 1024) ∧
    (∃ (g : EvRing) (e : EventRec), g.recs.length ≤ 1022 ∧ 0 < g.dropped) ∧
    (∃ (g : EvRing) (e : EventRec), g.recs.length ≤ 1024) ∧
    (∃ (code : Nat) (fn : Nat) (obj0 : Nat) (obj1 : Nat) (pos : Nat) (arg : Nat) (arg2 : Nat) (s : State),
      waitReaders s fn = []) :=
  ⟨⟨{recs := List.replicate 1023 ⟨0, 0, 0, false, false, 0, 0, 0, 0, 0, 0, 0⟩}, ⟨0, 0, 0, false, false, 0, 0, 0, 0,
      0, 0, 0⟩, by decide +kernel⟩,
    ⟨{recs := List.replicate 1024 ⟨0, 0, 0, false, false, 0, 0, 0, 0, 0, 0, 0⟩}, ⟨0, 0, 0, false, false, 0, 0, 0, 0,
      0, 0, 0⟩, by decide +kernel⟩,
    ⟨{recs := List.replicate 1022 ⟨0, 0, 0, false, false, 0, 0, 0, 0, 0, 0, 0⟩, dropped := 1}, ⟨0, 0, 0, false,
      false, 0, 0, 0, 0, 0, 0, 0⟩, by decide +kernel⟩,
    ⟨{recs := List.replicate 1024 ⟨0, 0, 0, false, false, 0, 0, 0, 0, 0, 0, 0⟩}, ⟨0, 0, 0, false, false, 0, 0, 0, 0,
      0, 0, 0⟩, by decide +kernel⟩,
    ⟨1, 15, 0, 0, 0, 0, 0, B, by decide +kernel⟩⟩

theorem test_wit_PacketChecks :
    (∃ (s : State) (o : Origin) (env : Option Envelope) (fast : Bool) (p : List Word), Opc.ofCode (pktOpcode p) =
      none) ∧
    (∃ (s : State) (o : Origin) (env : Option Envelope) (fast : Bool) (p : List Word) (op : Opc) (off : Nat),
      Opc.ofCode (pktOpcode p) = some op ∧ reservedAt p op = some off) ∧
    (∃ (s : State) (o : Origin) (env : Option Envelope) (fast : Bool) (p : List Word) (op : Opc), Opc.ofCode
      (pktOpcode p) = some op ∧ reservedAt p op = none ∧ roleRefuses s op = true) ∧
    (∃ (s : State) (o : Origin) (env : Option Envelope) (fast : Bool) (p : List Word) (op : Opc) (r : Nat),
      Opc.ofCode (pktOpcode p) = some op ∧ reservedAt p op = none ∧ roleRefuses s op = false ∧ carrierRefuses o env p
      op = some r) ∧
    (∃ (s : State) (o : Origin) (env : Option Envelope) (fast : Bool) (p : List Word) (op : Opc) (r : Nat),
      Opc.ofCode (pktOpcode p) = some op ∧ reservedAt p op = none ∧ roleRefuses s op = false ∧ carrierRefuses o env p
      op = none ∧ pktAuth p ≠ 3 ∧ issuerRefuses (originFn o) p op = some r) ∧
    (∃ (s : State) (o : Origin) (env : Option Envelope) (fast : Bool) (p : List Word) (op : Opc), Opc.ofCode
      (pktOpcode p) = some op ∧ reservedAt p op = none ∧ roleRefuses s op = false ∧ carrierRefuses o env p op = none
      ∧ (pktAuth p = 3 ∨ (issuerRefuses (originFn o) p op = none ∧ (fast = true → fastOpcode op = true) ∧ (sleepRule
      s = true → sleepOpcode op = true)))) ∧
    (∃ (s : State) (op : Opc), s.core.fill = false) ∧
    (∃ (s : State) (o : Origin) (sq : Nat) (p : List Word) (env : Option Envelope) (input : List Byte) (st : Status)
      (r : Nat) (r2 : Nat), findCmd s ⟨o, pktTag p⟩ = none ∧ s.hif.retained.getD (retKey o) {} = {} ∧ (∀ fn, o ≠
      .pcie fn) ∧ checkPacket s o env false p = .error (st, r, r2) ∧ pktOpcode p ≠ 0xA2) ∧
    (∃ (s : State) (o : Origin) (sq : Nat) (p : List Word) (env : Option Envelope) (input : List Byte) (st : Status)
      (r : Nat) (r2 : Nat), findCmd s ⟨o, pktTag p⟩ = none ∧ s.hif.retained.getD (retKey o) {} = {} ∧ (∀ fn, o ≠
      .pcie fn) ∧ checkPacket s o env false p = .error (st, r, r2) ∧ pktOpcode p = 0xA2) ∧
    (∃ (s : State) (o : Origin) (sq : Nat) (p : List Word) (env : Option Envelope) (input : List Byte) (c : Cmd),
      findCmd s ⟨o, pktTag p⟩ = some c) :=
  ⟨⟨B, .pcie 0, none, false, (K .nop [255]).pkt, by decide +kernel⟩,
    ⟨B, .pcie 0, none, false, (K .nop [0]).pkt, .nop, 56, by decide +kernel⟩,
    ⟨B, .pcie 0, none, false, (K .nop [0x60,0,0,0,0,0,0,0,0,0,0,0,0,0,1]).pkt, .carveCreate, by decide +kernel⟩,
    ⟨B, .pcie 0, none, false, (K .nop [0,0,0,0,0,0,0,0,0,0,0,0,0,0,3]).pkt, .nop, 5, by decide +kernel⟩,
    ⟨B, .pcie 15, none, false, (K .nop [0xA0,0,0,0,0,0,0,0,0,0,0,0,0,0,1]).pkt, .mwMailbox, 3, by decide +kernel⟩,
    ⟨B, .pcie 0, none, false, (K .nop (List.replicate 14 0 ++ [1, 0])).pkt, .nop, by decide +kernel⟩,
    ⟨B, .nop, by decide +kernel⟩,
    ⟨B, .usb, 0, (K .nop [255]).pkt, none, [], .invalidOpcode, 0, 0,
      by and_intros <;> first | decide +kernel | exact fun _ h => nomatch h | exact error_of (by decide +kernel)⟩,
    ⟨B, .usb, 0, (K .nop ([0xA2] ++ List.replicate 13 0 ++ [1, 0])).pkt, none, [], .notPermitted, 2, 0,
      by and_intros <;> first | decide +kernel | exact fun _ h => nomatch h | exact error_of (by decide +kernel)⟩,
    ⟨on B (K .nop []), .pcie 0, 0, (K .nop [0x10000]).pkt, none, [], K .nop [], by decide +kernel⟩⟩

end Sys2Proof.Tests
end

section
/-! PROOFS. The resets of the host and the end of the role-change fill (00 R1, R6, 01 R35, R37, R44, 16 R461, 18 R509). -/

namespace Sys2Proof.Machine

/-! ### Events of a device that holds no command -/

theorem waitReaders_of_no_cmds {s : State} (h : s.hif.cmds = []) (fn : Nat) : waitReaders s fn = [] := by
  simp [waitReaders, h]

/-- With no command there is no waiting read to answer, so an event changes the rings alone. -/
theorem raisePf_hif_of_no_cmds {s : State} (h : s.hif.cmds = []) (code obj0 arg : Nat) :
    (raisePf code obj0 arg s).hif = s.hif := by
  unfold raisePf raise raiseSev
  extract_lets e r s1
  have h1 : s1.hif = s.hif := rfl
  rw [waitReaders_of_no_cmds (h1 ▸ h)]
  exact h1

theorem reportPairs_told (s : State) : Told s (reportPairs s) := foldl_told (fun _ _ => raisePf_told ..) _ _

theorem reportPairs_no_cmds {s : State} (h : s.hif.cmds = []) : (reportPairs s).hif.cmds = [] := by
  unfold reportPairs
  generalize s.mem.pairs.filter (fun e => e.2.refused) = l
  induction l generalizing s with
  | nil => exact h
  | cons e l ih => exact ih ((congrArg Hif.cmds (raisePf_hif_of_no_cmds h ..)).trans h)

/-! ### The cold reset (R1, R35, R37, R44, R461) -/

/-- The state that a cold start meets as VDD_AO_IN rises: the AO domain's own records are new. -/
def risen (s : State) : State :=
  { s with
    core := { State.reset.core with t := 0, causes := [⟨0x01, 0, true⟩] }
    pwr := { perst := s.pwr.perst }
    mwr := { copying := s.mwr.copying } }

/-- A power-on is a cold start with the trained pairs put in, whose refused pairs are then told. -/
theorem powerOn_eq (pop : List PairPop) (s : State) : ∃ pairs slow,
    powerOn pop s = reportPairs ((coldStart true none (risen s)).modMem fun m => { m with pairs, slow }) :=
  ⟨_, _, rfl⟩

theorem powerOn_leaves (pop : List PairPop) (s : State) :
    (powerOn pop s).core.t = 0 ∧ (powerOn pop s).core.role = roleOf (inForce s.store.role) ∧
      (powerOn pop s).core.roleStat = .none ∧ (powerOn pop s).core.causes = [⟨0x01, 0, true⟩] ∧
      (powerOn pop s).brk.set = true ∧ (powerOn pop s).brk.inhibit = true ∧ (powerOn pop s).brk.lockout = false ∧
      (powerOn pop s).store.role = s.store.role ∧ (powerOn pop s).pwr.state = .exiting ∧ (powerOn pop s).pwr.pll = false ∧
      (powerOn pop s).hif.cmds = [] ∧ (powerOn pop s).mem.cells = [] ∧ (powerOn pop s).pending = s.pending := by
  obtain ⟨pairs, slow, h⟩ := powerOn_eq pop s
  have told := reportPairs_told ((coldStart true none (risen s)).modMem fun m => { m with pairs, slow })
  rw [h]
  exact ⟨congrArg Core.t told.core, congrArg Core.role told.core, congrArg Core.roleStat told.core,
    congrArg Core.causes told.core, congrArg Brk.set told.brk, congrArg Brk.inhibit told.brk, congrArg Brk.lockout told.brk,
    (congrArg Store.role told.store :), congrArg Pwr.state told.pwr, congrArg Pwr.pll told.pwr, reportPairs_no_cmds rfl,
    congrArg Mem.cells told.mem, told.pending⟩

/-! ### The warm reset (R37, R509) -/

/-- A change of the brake path that leaves set, lock-out and the slot states alone. -/
theorem modBrk_same {s : State} {f : Brk → Brk} (hset : (f s.brk).set = s.brk.set) (hlock : (f s.brk).lockout = s.brk.lockout)
    (hslots : ∀ n, ((f s.brk).slots.getD n {}).state = (s.brk.slots.getD n {}).state) : SameBrake s (s.modBrk f) :=
  ⟨hset, hlock, hslots⟩

theorem detach_same (id : CmdId) (s : State) : SameBrake s (detach id s) := by
  unfold detach
  extract_lets free new re s1 s2 s3 s4
  have before : SameBrake s s3 := .still ((State.modMwr_still ..).trans ((State.modMail_still ..).trans (updCmd_still ..)))
  clear_value s3
  have waiters : SameBrake s3 s4 := by
    refine modBrk_same rfl rfl fun n => ?_
    simp only [Tbl.getD, Tbl.get_mapVal]
    cases Tbl.get s3.brk.slots n <;> rfl
  exact before.trans (waiters.trans (.still ((renameWork_still ..).trans (State.modTly_still ..))))

theorem clearCmds_same (s : State) : SameBrake s (clearCmds s) := by
  unfold clearCmds
  extract_lets s1
  have detached : SameBrake s s1 := foldl_same _ _ _ fun _ c => detach_same c.id _
  clear_value s1
  exact detached.trans (.still (State.modHif_still ..))

theorem warmReset_same (s : State) : SameBrake s (warmReset s) := by
  unfold warmReset warmClear
  have qpsLeft (u : State) : SameBrake u (forEach (u.rdm.qps.map (·.1)) (fun q s => qpLeft q s) u) :=
    .still (forEach_still _ _ _ fun _ _ => qpLeft_still ..)
  exact (SameBrake.still (noteCause_still 0x03 s)).trans
    ((qpsLeft _).trans ((clearCmds_same _).trans (.still (warmRest_still ..))))

/-- A device that runs is warm reset at once when PERST_N falls. -/
theorem perstLow_of_run {s : State} (h : s.pwr.state = .run) :
    perstLow s = warmReset (s.modPwr fun p => { p with perst := true, endpoint := false }) := by
  simp only [perstLow, State.modPwr_pwr, h]

theorem warmReset_completes {s : State} (hp : s.pwr.perst = false) (hs : s.pwr.state = .run) :
    ∃ t, exec .warmReset s = .next t ∧ t.brk.set = s.brk.set ∧
      t = warmReset (s.modPwr fun p => { p with perst := true, endpoint := false }) := by
  refine ⟨_, ?_, ?_, rfl⟩
  · show onEvent (!s.pwr.perst) s perstLow = _
    rw [onEvent_holds (by simp [hp]), perstLow_of_run hs]
  · exact (warmReset_same _).1

/-! ### PERST_N rises, and the fill ends (R6, R35) -/

theorem perstNDeassert_completes {s : State} (h : s.pwr.perst = true) :
    ∃ t, exec .perstNDeassert s = .next t ∧ t.pwr.perst = false ∧ t.pwr.endpoint = s.pwr.pll ∧ t.hif.accept = s.pwr.pll ∧
      t = { s with pwr := { s.pwr with perst := false, endpoint := s.pwr.pll }, hif := { s.hif with accept := s.pwr.pll } } :=
  ⟨_, (show execPerstNDeassert s = _ from onEvent_holds h), rfl, rfl, rfl, rfl⟩

theorem roleFillEnd_completes {s : State} (hf : s.core.fill = true) (ha : s.hif.accept = true) :
    ∃ t, exec .roleFillEnd s = .next t ∧ t.core.fill = false ∧ t.core.roleStat = s.core.role ∧ t.mem.cells = [] ∧
      t.grn.ready = isGranary s ∧ (s.mwr.running = true → flashReleased s = false → t.store.cleared = some ⟨s.core.role, true⟩) ∧
      t = { s with core := t.core, mem := t.mem, store := t.store, grn := t.grn } := by
  refine ⟨_, (show execRoleFillEnd s = _ from onEvent_holds (by simp [hf, ha])), ?_⟩
  extract_lets s1 s2 s3
  have written : s3 = if s2.mwr.running && !flashReleased s2 then s2.modStore fun t => { t with cleared := some ⟨s2.core.role, true⟩ }
    else s2 := rfl
  split at written
  · rw [written]
    exact ⟨rfl, rfl, rfl, rfl, fun _ _ => rfl, rfl⟩
  · rename_i kept
    rw [written]
    refine ⟨rfl, rfl, rfl, rfl, fun hr hl => absurd ?_ kept, rfl⟩
    show (s.mwr.running && !flashReleased s) = true
    simp [hr, hl]

/-- Settles O1: each row runs the reset it names, and that reset's own lemma says what it leaves. -/
theorem hostResets : Obligations.HostResets :=
  ⟨fun pop s => ⟨_, rfl, powerOn_leaves pop s⟩, fun _ hp hs => warmReset_completes hp hs,
    fun _ h => perstNDeassert_completes h, fun _ hf ha => roleFillEnd_completes hf ha⟩

end Sys2Proof.Machine
end

section
/-! PROOFS. Firmware update, the budget and the sensor and grant classes (00 R14 to R17, 15 R420 to R428, R433, R436). -/

namespace Sys2Proof.Machine

/-! ### The state as the Millwright takes a command -/

section
variable (s : State)

@[simp] theorem heard_store : (heard s).store = s.store := by
  obtain ⟨d, w, h⟩ := heard_eq s
  rw [h]

@[simp] theorem heard_core : (heard s).core = s.core := by
  obtain ⟨d, w, h⟩ := heard_eq s
  rw [h]

@[simp] theorem heard_dom : (heard s).dom = s.dom := by
  obtain ⟨d, w, h⟩ := heard_eq s
  rw [h]

@[simp] theorem heard_staging : (heard s).mwr.staging = s.mwr.staging := by
  obtain ⟨d, w, h⟩ := heard_eq s
  rw [h]

@[simp] theorem heard_st : (heard s).mwr.st = s.mwr.st := by
  obtain ⟨d, w, h⟩ := heard_eq s
  rw [h]

@[simp] theorem heard_flashReleased : flashReleased (heard s) = flashReleased s := by
  obtain ⟨d, w, h⟩ := heard_eq s
  rw [h]
  rfl

theorem heard_otherSession (c : Cmd) : otherSession (heard s) c = otherSession s c := by
  unfold otherSession
  rw [heard_staging]

theorem heard_svnInForce : svnInForce (heard s) = svnInForce s := by
  unfold svnInForce
  rw [heard_store]

theorem heard_budRefusal (c : Cmd) : budRefusal (heard s) c = budRefusal s c := by
  unfold budRefusal budVerifies
  rw [heard_dom, heard_core]

theorem heard_budInvalid (n v : Nat) : budInvalid (heard s) n v = budInvalid s n v := by
  unfold budInvalid joined
  rw [heard_dom, heard_svnInForce, heard_store]

theorem heard_slotsLeft (n : Nat) : slotsLeft (heard s) n = slotsLeft s n := by
  unfold slotsLeft
  rw [heard_store]

end

/-! ### Fields of a packet -/

/-- OP in bits [1:0] and GOLDEN in bit 2, read together. -/
theorem fld_op_golden {p : List Word} {op : Nat} {golden : Bool} (hop : op < 4) (h : fld p 2 2 0 = op + 4 * flag golden) :
    fld p 2 1 0 = op ∧ fbit p 2 2 = golden := by
  unfold fld bits at h ⊢
  unfold fbit bit
  rw [Nat.shiftRight_zero] at h ⊢
  rw [Nat.testBit_eq_decide_div_mod_eq]
  cases golden <;> simp [flag] at h ⊢ <;> omega

/-- A dword of at most 4 is its own low byte, and its other bytes are 0. -/
theorem fld_setting (p : List Word) (h : fld p 2 31 0 ≤ 4) : fld p 2 31 8 = 0 ∧ fld p 2 7 0 ≤ 4 := by
  unfold fld bits at h ⊢
  rw [Nat.shiftRight_zero] at h ⊢
  rw [Nat.shiftRight_eq_div_pow]
  have small : dw p 2 < 2 ^ 32 := (p.getD 2 0).isLt
  omega

/-! ### FW_UPDATE (R420 to R424) -/

/-- A row of FW_UPDATE runs on a command of its own OP and, for a COMMIT, its own GOLDEN. -/
theorem fwUpdate_runs {op : Nat} {golden : Option Bool} {id : CmdId} {s : State} {c : Cmd} (k : Cmd → State → State)
    (hr : Runs s .fwUpdate id c) (hop : fld c.pkt 2 1 0 = op) (h0 : op ≠ 0)
    (hg : (golden.any fun g => decide (g ≠ fbit c.pkt 2 2)) = false) (hz : fld c.pkt 2 31 4 = 0) :
    fwUpdate op golden id s k = .next (k c (heard s)) := by
  unfold fwUpdate
  rw [onCmd_runs hr]
  dsimp only
  rw [if_neg (by rw [hg]; simp [hop]), checks_pass (by simp [passes, fields, rsv, hop, h0, hz])]
  rfl

/-- The chunk at offset 0 that a STAGE brings. -/
def firstChunk (c : Cmd) : List Byte := (c.input ++ List.replicate (dw c.pkt 4) 0).take (dw c.pkt 4)

/-- A session begun with the first chunk, which is programmed into the inactive slot. -/
def staged (c : Cmd) (s : State) : State :=
  (s.modMwr fun m => { m with staging := some { owner := c.id.origin, image := firstChunk c } }).modStore
    fun t => t.setSlot (1 - t.active) (parseImage (firstChunk c))

theorem fwStage_completes {s : State} {id : CmdId} {c : Cmd} (hr : Runs s .fwUpdate id c) (hop : fld c.pkt 2 1 0 = 1)
    (hz : fld c.pkt 2 31 4 = 0) (hoff : dw c.pkt 3 = 0) (hlo : 0 < dw c.pkt 4) (hhi : dw c.pkt 4 ≤ 4096)
    (hs : s.mwr.staging = none) (hf : flashReleased s = false) :
    Completes (exec (.fwStage id) s) c .success 0 0 fun u =>
      u.mwr.staging = some { owner := c.id.origin, image := firstChunk c } ∧
      u.store = s.store.setSlot (1 - s.store.active) (parseImage (firstChunk c)) ∧
      u = { heard s with mwr := u.mwr, store := u.store } := by
  have noSession : otherSession s c = false := by simp [otherSession, hs]
  refine ⟨staged c (heard s), ⟨rfl, ?_, rfl⟩, (fwUpdate_runs _ hr hop (by decide) rfl hz).trans (congrArg _ ?_)⟩
  · simp [staged]
  · dsimp only
    rw [checks_pass (by
      simp [passes, fields, busy, bad, heard_otherSession, hf, noSession, hoff]
      omega), if_pos hoff]
    rfl

/-- A COMMIT judges the image of its own session and installs one that passes. -/
theorem fwCommit_runs {golden : Bool} {s : State} {id : CmdId} {c : Cmd} {img : List Byte} (k : Cmd → FwImage → State → State)
    (hr : Runs s .fwUpdate id c) (hop : fld c.pkt 2 1 0 = 2) (hg : fbit c.pkt 2 2 = golden) (hz : fld c.pkt 2 31 4 = 0)
    (hf : flashReleased s = false) (hs : s.mwr.staging = some { owner := c.id.origin, image := img })
    (hl : dw c.pkt 4 = img.length) :
    fwCommit golden id s k = .next (if bootCode (svnInForce s) (parseImage img) = 0
      then k c (parseImage img) ((heard s).modMwr fun m => { m with staging := none })
      else commitFails c (bootCode (svnInForce s) (parseImage img)) (heard s)) := by
  have ownSession : otherSession s c = false := by simp [otherSession, hs]
  refine (fwUpdate_runs _ hr hop (by decide) (by simp [hg]) hz).trans (congrArg _ ?_)
  dsimp only
  rw [heard_flashReleased, heard_otherSession, heard_staging, heard_svnInForce, hf, ownSession, hs]
  simp only [checks, busy, bad, hl]
  by_cases h : bootCode (svnInForce s) (parseImage img) = 0 <;> simp [h]

/-- A COMMIT that succeeds without ACTIVATE and outside recovery mode restarts nothing. -/
theorem afterCommit_stays {s : State} (h : s.mwr.st ≠ .recovery) : afterCommit false s = s := by
  unfold afterCommit
  rw [if_neg (by simp [h])]

theorem Told.mwr_eq {s t : State} (h : Told s t) : ∃ j, t.mwr = { s.mwr with journal := j } := by
  refine ⟨t.mwr.journal, ?_⟩
  rw [← h.mwr]

/-- What a successful COMMIT makes of the state before its event: the session ended, the image in the inactive slot, and the
pointer on it. -/
def installed (img : FwImage) (s : State) : State :=
  (s.modMwr fun m => { m with staging := none }).modStore fun t => (t.setSlot (1 - t.active) img).point (1 - t.active)

theorem fwCommit_completes {s : State} {id : CmdId} {c : Cmd} {img : List Byte} (hr : Runs s .fwUpdate id c)
    (hop : fld c.pkt 2 2 0 = 2) (hz : fld c.pkt 2 31 4 = 0) (ha : fbit c.pkt 2 3 = false) (hst : s.mwr.st ≠ .recovery)
    (hf : flashReleased s = false) (hs : s.mwr.staging = some { owner := c.id.origin, image := img })
    (hl : dw c.pkt 4 = img.length) (pass : bootCode (svnInForce s) (parseImage img) = 0) :
    Completes (exec (.fwCommit id) s) c .success (imgResult (parseImage img)) 0 fun u => u.mwr.staging = none ∧
      u.store = (s.store.setSlot (1 - s.store.active) (parseImage img)).point (1 - s.store.active) ∧
      ∃ v, v = { heard s with mwr := v.mwr, store := v.store } ∧ u = raisePf 0xE003 0 (imgVer24 (parseImage img) * 2 ^ 8) v := by
  obtain ⟨op2, golden⟩ := fld_op_golden (golden := false) (by decide) hop
  have told := raisePf_told 0xE003 0 (imgVer24 (parseImage img) * 2 ^ 8) (installed (parseImage img) (heard s))
  obtain ⟨j, hj⟩ := told.mwr_eq
  refine ⟨raisePf 0xE003 0 (imgVer24 (parseImage img) * 2 ^ 8) (installed (parseImage img) (heard s)),
    ⟨congrArg Mwr.staging hj, ?_, _, rfl, rfl⟩, ?_⟩
  · rw [told.store, installed, State.modStore_store, State.modMwr_store, heard_store]
  · have stays : (complete c .success (imgResult (parseImage img)) 0
        (raisePf 0xE003 0 (imgVer24 (parseImage img) * 2 ^ 8) (installed (parseImage img) (heard s)))).mwr.st ≠ .recovery := by
      obtain ⟨i, hi⟩ := (told.trans (complete_told c .success (imgResult (parseImage img)) 0 _)).mwr_eq
      rw [hi]
      show (heard s).mwr.st ≠ .recovery
      rwa [heard_st]
    show execFwCommit id s = _
    unfold execFwCommit
    rw [fwCommit_runs _ hr op2 golden hz hf hs hl, if_pos pass, ha]
    exact congrArg _ (afterCommit_stays stays)

theorem fwCommit_fails {s : State} {id : CmdId} {c : Cmd} {img : List Byte} (hr : Runs s .fwUpdate id c)
    (hop : fld c.pkt 2 2 0 = 2) (hz : fld c.pkt 2 31 4 = 0) (hf : flashReleased s = false)
    (hs : s.mwr.staging = some { owner := c.id.origin, image := img }) (hl : dw c.pkt 4 = img.length)
    (fail : bootCode (svnInForce s) (parseImage img) ≠ 0) :
    exec (.fwCommit id) s = .next (commitFails c (bootCode (svnInForce s) (parseImage img)) (heard s)) := by
  obtain ⟨op2, golden⟩ := fld_op_golden (golden := false) (by decide) hop
  show execFwCommit id s = _
  unfold execFwCommit
  rw [fwCommit_runs _ hr op2 golden hz hf hs hl, if_neg fail]

theorem fwCommitGolden_copies {s : State} {id : CmdId} {c : Cmd} {img : List Byte} (hr : Runs s .fwUpdate id c)
    (hop : fld c.pkt 2 2 0 = 6) (hz : fld c.pkt 2 31 4 = 0) (hf : flashReleased s = false)
    (hs : s.mwr.staging = some { owner := c.id.origin, image := img }) (hl : dw c.pkt 4 = img.length)
    (pass : bootCode (svnInForce s) (parseImage img) = 0) :
    ∃ t, exec (.fwCommitGolden id) s = .next t ∧
      t.mwr.copying = some { id := c.id, since := s.core.t, image := parseImage img } ∧ t.store.goldenWp = false ∧
      t.mwr.staging = none := by
  obtain ⟨op2, golden⟩ := fld_op_golden (op := 2) (golden := true) (by decide) hop
  show ∃ t, execFwCommitGolden id s = _ ∧ _
  unfold execFwCommitGolden
  rw [fwCommit_runs _ hr op2 golden hz hf hs hl, if_pos pass, ← heard_core s]
  exact ⟨_, rfl, rfl, rfl, rfl⟩

theorem fwCommitGolden_fails {s : State} {id : CmdId} {c : Cmd} {img : List Byte} (hr : Runs s .fwUpdate id c)
    (hop : fld c.pkt 2 2 0 = 6) (hz : fld c.pkt 2 31 4 = 0) (hf : flashReleased s = false)
    (hs : s.mwr.staging = some { owner := c.id.origin, image := img }) (hl : dw c.pkt 4 = img.length)
    (fail : bootCode (svnInForce s) (parseImage img) ≠ 0) :
    exec (.fwCommitGolden id) s = .next (commitFails c (bootCode (svnInForce s) (parseImage img)) (heard s)) := by
  obtain ⟨op2, golden⟩ := fld_op_golden (op := 2) (golden := true) (by decide) hop
  show execFwCommitGolden id s = _
  unfold execFwCommitGolden
  rw [fwCommit_runs _ hr op2 golden hz hf hs hl, if_neg fail]

theorem goldenCopyEnd_completes {s : State} {g : GoldenCopy} (hc : s.mwr.copying = some g) (hs : s.mwr.serves = true) :
    ∃ v, exec (.goldenCopyEnd true) s = .next (afterCommit false
        (completeId g.id .success (imgResult g.image) 0 (raisePf 0xE003 0 (1 + imgVer24 g.image * 2 ^ 8) v))) ∧
      v.store = { s.store with goldenWp := true, golden := g.image } ∧ v.mwr = { s.mwr with copying := none } ∧
      v = { s with store := v.store, mwr := v.mwr } := by
  refine ⟨{ s with store := { s.store with goldenWp := true, golden := g.image }, mwr := { s.mwr with copying := none } },
    ?_, rfl, rfl, rfl⟩
  show execGoldenCopyEnd true s = _
  unfold execGoldenCopyEnd
  rw [hc]
  exact onEvent_holds hs

theorem fwAbandon_completes {s : State} {id : CmdId} {c : Cmd} (hr : Runs s .fwUpdate id c) (hop : fld c.pkt 2 1 0 = 3)
    (hz : fld c.pkt 2 31 4 = 0) (ho : otherSession s c = false) :
    Completes (exec (.fwAbandon id) s) c .success 0 0 fun u =>
      u = { heard s with mwr := { (heard s).mwr with staging := none } } := by
  refine ⟨_, rfl, (fwUpdate_runs _ hr hop (by decide) rfl hz).trans (congrArg _ ?_)⟩
  exact checks_pass (by simp [passes, busy, heard_otherSession, ho])

/-! ### The budget (R14 to R17, R425 to R428) -/

/-- A setting's slots after one of them is programmed. -/
theorem budSlots_addSlot (b : BudSlot) (t : Store) : ∀ n, budSlots (addSlot n b t) n = budSlots t n ++ [b]
  | 0 => rfl
  | 1 => rfl
  | 2 => rfl
  | 3 => rfl
  | _ + 4 => rfl

theorem addSlot_attempts (n : Nat) (b : BudSlot) (t : Store) : (addSlot n b t).attempts = t.attempts := by
  unfold addSlot
  split <;> rfl

theorem budSlots_attempts (n : Nat) (t : Store) (l : List Attempt) : budSlots { t with attempts := l } n = budSlots t n := by
  unfold budSlots
  split <;> rfl

theorem budgetWrite_completes {s : State} {id : CmdId} {c : Cmd} (hr : Runs s .budgetWrite id c) (hn : fld c.pkt 2 31 0 ≤ 4)
    (allowed : budRefusal s c = none) (hk : s.dom.key = none) (valid : budInvalid s (fld c.pkt 2 7 0) (dw c.pkt 3) = false)
    (new : inForce (budSlots s.store (fld c.pkt 2 7 0)) ≠ some (dw c.pkt 3)) (room : slotsLeft s (fld c.pkt 2 7 0) ≠ 0) :
    Completes (exec (.budgetWrite id true) s) c .success 0 0 fun u =>
      budSlots u.store (fld c.pkt 2 7 0) = budSlots s.store (fld c.pkt 2 7 0) ++ [{ value := dw c.pkt 3, ok := true }] ∧
      u.store.attempts.length = s.store.attempts.length + 1 ∧ u = { heard s with store := u.store } := by
  obtain ⟨reserved, setting⟩ := fld_setting c.pkt hn
  refine ⟨logAttempt c .success ((heard s).modStore (addSlot (fld c.pkt 2 7 0) { value := dw c.pkt 3, ok := true })),
    ⟨?_, ?_, rfl⟩, ?_⟩
  · unfold logAttempt
    rw [State.modStore_store, State.modStore_store, budSlots_attempts, budSlots_addSlot, heard_store]
  · unfold logAttempt
    rw [State.modStore_store, State.modStore_store, List.length_append, addSlot_attempts, heard_store]
    rfl
  · show execBudgetWrite id true s = _
    unfold execBudgetWrite
    rw [onCmd_runs hr]
    refine congrArg _ ?_
    show checks _ _ (heard s) = _
    rw [checks_pass (by simp [passes, fields, rsv, reserved]; omega), heard_budRefusal, allowed]
    dsimp only
    rw [heard_dom, hk]
    rw [if_neg (by simp), if_neg (by simp), checks_pass (by
      simp [passes, heard_budInvalid, heard_store, heard_slotsLeft, valid, new, room])]
    rfl

theorem budgetQuery_completes {s : State} {id : CmdId} {c : Cmd} (hr : Runs s .budgetQuery id c) (hn : fld c.pkt 2 31 0 ≤ 4)
    (hl : dw c.pkt 5 = 0) :
    Completes (exec (.budgetQuery id) s) c .success ((inForce (budSlots s.store (fld c.pkt 2 7 0))).getD 0xFFFFFFFF)
      (slotsLeft s (fld c.pkt 2 7 0)) fun u => u = heard s := by
  obtain ⟨reserved, setting⟩ := fld_setting c.pkt hn
  refine ⟨_, rfl, ?_⟩
  show execBudgetQuery id s = _
  unfold execBudgetQuery
  rw [onCmd_runs hr]
  refine congrArg _ ?_
  show checks _ _ (heard s) = _
  rw [checks_pass (by simp [passes, fields, rsv, reserved]; omega)]
  dsimp only
  rw [if_pos hl, if_neg (by omega), heard_store, heard_slotsLeft]

/-! ### The sensor and grant classes (R433) -/

theorem sensorRead_completes {s : State} {id : CmdId} {c : Cmd} (hr : MailRuns s 1 id c) (reading : Int)
    (known : sensorUnit (dw c.pkt 3) ≠ 0) :
    Completes (exec (.sensorRead id reading) s) c .success (ofSigned 32 reading) (sensorUnit (dw c.pkt 3)) fun u => u = heard s :=
  ⟨_, rfl, (mailbox_runs hr).trans (congrArg _ (checks_pass (by simp [passes, bad, known])))⟩

theorem grantPolicy_completes {s : State} {id : CmdId} {c : Cmd} (hr : MailRuns s 4 id c) :
    Completes (exec (.grantPolicy id) s) c .success 0 0 fun u =>
      u = { heard s with mwr := { (heard s).mwr with grants := fbit c.pkt 3 0 } } :=
  ⟨_, rfl, (mailbox_runs hr : execGrantPolicy id s = _)⟩

/-- Settles O4: each row's own lemma, with both judgements of a COMMIT. -/
theorem updatesAndBudget : Obligations.UpdatesAndBudget :=
  ⟨fun _ _ _ hr hop hz hoff hlo hhi hs hf => fwStage_completes hr hop hz hoff hlo hhi hs hf,
    fun _ _ _ _ hr hop hz ha hst hf hs hl => ⟨fwCommit_completes hr hop hz ha hst hf hs hl, fwCommit_fails hr hop hz hf hs hl⟩,
    fun _ _ _ _ hr hop hz hf hs hl => ⟨fwCommitGolden_copies hr hop hz hf hs hl, fwCommitGolden_fails hr hop hz hf hs hl⟩,
    fun _ _ hc hs => goldenCopyEnd_completes hc hs, fun _ _ _ hr hop hz ho => fwAbandon_completes hr hop hz ho,
    fun _ _ _ hr hn allowed hk valid new room => budgetWrite_completes hr hn allowed hk valid new room,
    fun _ _ _ hr hn hl => budgetQuery_completes hr hn hl,
    fun _ _ _ reading hr known => sensorRead_completes hr reading known,
    fun _ _ _ hr => grantPolicy_completes hr⟩

end Sys2Proof.Machine
end

section
/-! PROOFS. A BAR4 read that meets an error which comes with the row (06 R191, R206). -/

namespace Sys2Proof.Machine

/-- A translated BAR4 read answers its bytes, marked when any of them is poisoned. -/
theorem bar4Read_answers {s : State} {fn off n : Nat} {h : Held} (ht : bar4Range s fn off n false = .ok h) (bus : Bus) :
    exec (.bar4Read fn off n bus) s = .next (emit
      (.answer ((readRuns bus h.segs (noteWalks h s)).1.map (·.1)) (anyPoison (readRuns bus h.segs (noteWalks h s)).1))
      (readRuns bus h.segs (noteWalks h s)).2) := by
  show execBar4Read fn off n bus s = _
  unfold execBar4Read
  rw [ht]

/-- A device whose PF has a BAR4 window on ASID 0, with one 64 KiB page of HBM at VA 0. -/
def windowed : State := { State.reset with
  hif := { State.reset.hif with feats := [(0x44 * 2 ^ 32, 1)] }
  mem := { State.reset.mem with
    spaces := [(0, { fn := 0, extents := [{ va := 0, page := .p64K, count := 1, target := .hbm, addr := 0, w := true }] })] } }

/-- An uncorrectable error of the first byte of HBM comes with the row. -/
def firstByteBad : Bus := { errs := [(0, true)] }

/-- The translation of the first byte of the window. -/
def firstByte : Held := { asid := 0, va := 0, len := 1, segs := [{ target := .hbm, addr := 0, len := 1, fn := 0 }] }

theorem windowed_window : bar4Window windowed 0 = some (0, 0) := rfl

theorem windowed_owns : ownsAsid windowed 0 0 = true := rfl

theorem windowed_translates : bar4Range windowed 0 0 1 false = .ok firstByte := by
  have walks : translate windowed {} 0 0 1 = .ok firstByte := rfl
  unfold bar4Range
  rw [windowed_window]
  dsimp only
  rw [if_pos windowed_owns]
  exact walks

/-- Refutes O22: of the clause on a BAR4 read over HBM without errors. The clause fixes that no line is bad or weak in the state, but
not that the bus operand brings no error of its own (log entry 108): read with `firstByteBad`, the byte is marked poisoned, where
the clause wants it unmarked. -/
theorem not_copiesAndMemory : ¬ Obligations.CopiesAndMemory := by
  unfold Obligations.CopiesAndMemory
  intro h
  obtain ⟨-, -, -, -, -, unmarked, -⟩ := h
  obtain ⟨t, runs, -, sent⟩ := unmarked windowed 0 0 1 firstByteBad firstByte 0 0 windowed_translates rfl rfl rfl
  rw [bar4Read_answers windowed_translates] at runs
  cases runs
  exact absurd sent (by decide)

end Sys2Proof.Machine
end

section
/-! PROOFS. A read of MWR_WDT by the firmware (00 R20, 15 R417). -/

namespace Sys2Proof.Machine

/-- What a row's outcome has sent out. -/
def outSent (o : Out) : List Output :=
  match o with
  | .next t => t.out
  | _ => []

/-- MWR_WDT reads the period in bits [13:0] and the expiries in bits [31:16], not the period alone. -/
theorem wdt_read {s : State} (hr : s.mwr.running = true) : exec (.registerWrite none 0xA00010 none) s =
    .next (emit (.answer (leBytes 4 ((mwAct s).mwr.wdtMs + sat 0xFFFF (mwAct s).mwr.wdtExpiries * 2 ^ 16)) false) (mwAct s)) :=
  (onMw_holds hr rfl : execRegisterWrite none 0xA00010 none s = _)

/-- A device whose firmware runs after its watchdog has expired once. -/
def onceExpired : State := { State.reset with mwr := { st := .primary, wdtExpiries := 1 } }

/-- Refutes O27: of the clause that the firmware's read of MWR_WDT answers the period alone. Once the watchdog has expired, the
third byte of the answer is the count of expiries, 1 in `onceExpired` and 0 in the clause. -/
theorem not_registersAndUsb : ¬ Obligations.RegistersAndUsb := by
  unfold Obligations.RegistersAndUsb
  intro h
  obtain ⟨-, -, -, -, -, -, -, -, -, -, periodAlone, -⟩ := h
  have claimed := congrArg outSent (periodAlone onceExpired rfl)
  rw [wdt_read rfl] at claimed
  exact absurd claimed (by decide)

end Sys2Proof.Machine
end

section
/-! PROOFS. A lockstep mismatch while the Millwright is halted (07 R220, 15 R416). -/

namespace Sys2Proof.Machine

/-- Cores that are not powered compare nothing, so no mismatch is met. -/
theorem lockstepMismatch_idle {s : State} (h : coresOn s = false) (cls : Nat) : exec (.lockstepMismatch cls) s = .next s := by
  show execLockstepMismatch cls s = _
  exact onEvent_idle (by simp [h])

/-- A device whose Millwright ran its primary image until an uncorrectable SRAM word stopped both cores (R220). -/
def sramHalted : State := { State.reset with mwr := { st := .primary, halted := true } }

/-- Refutes O3: of the clause on a lockstep mismatch. The clause asks for cores out of reset and out of WFI, but not that they
still run: in `sramHalted` both are stopped by R220, the row leaves the state as it is, and no reset begins. -/
theorem not_millwrightMessages : ¬ Obligations.MillwrightMessages := by
  unfold Obligations.MillwrightMessages
  intro h
  obtain ⟨-, -, mismatchResets, -⟩ := h
  obtain ⟨t, runs, inReset, -⟩ := mismatchResets sramHalted 1 (by decide) rfl (by decide) (by decide)
  rw [lockstepMismatch_idle rfl] at runs
  cases runs
  exact absurd inReset (by decide)

end Sys2Proof.Machine
end

section
/-! PROOFS. The values of a cold reset that has begun (01 R35, R37, R44). -/

namespace Sys2Proof.Machine

/-- No slot and no valve of `State.reset` has an entry yet, so each reads as its default, off. -/
theorem reset_slot_valve_off (n : Nat) : (slotOf State.reset n).state = .off ∧ (valveOf State.reset n).state = .off := ⟨rfl, rfl⟩

/-- Settles O54: the fields of `State.reset`, read off one by one. -/
theorem resetValues : Obligations.ResetValues :=
  ⟨rfl, rfl, rfl, rfl, rfl, rfl, reset_slot_valve_off, rfl, rfl, rfl, rfl, rfl, rfl, rfl, rfl, rfl⟩

end Sys2Proof.Machine
end

section
/-! PROOFS. Rails and supplies that fail, the AO clock, the stone clock and the thermal sensor (14 R404 to R408, 18 R497 to R506). -/

namespace Sys2Proof.Machine

/-! ### The removal of the rails (R499) -/

/-- A step of the removal changes the enables and what falls, and nothing else. -/
theorem dropNext_eq (low high now : Nat) (p : Pwr) :
    dropNext low high now p =
      { p with railEn := (dropNext low high now p).railEn, falling := (dropNext low high now p).falling } := by
  unfold dropNext
  split <;> rfl

/-- Which enable goes next depends on the enables alone. -/
theorem dropNext_congr {p q : Pwr} (h : p.railEn = q.railEn) (low high now : Nat) :
    (dropNext low high now p).railEn = (dropNext low high now q).railEn ∧
      (dropNext low high now p).falling = (dropNext low high now q).falling := by
  unfold dropNext
  rw [h]
  split <;> simp

theorem railsFall_wait_state (now : Nat) (p : Pwr) :
    (railsFall now p).wait = p.wait ∧ (railsFall now p).state = p.state := by
  unfold railsFall
  split
  · exact ⟨rfl, rfl⟩
  · split
    · rw [dropNext_eq]
      exact ⟨rfl, rfl⟩
    · exact ⟨rfl, rfl⟩

/-- What the sequencer holds once the PG of a rail has gone low. -/
def pgLow (n : Nat) (s : State) : Pwr := railsFall s.core.t { s.pwr with railPg := s.pwr.railPg.set n false }

theorem pgLow_wait (n : Nat) (s : State) : (pgLow n s).wait = s.pwr.wait := (railsFall_wait_state ..).1

theorem pgLow_state (n : Nat) (s : State) : (pgLow n s).state = s.pwr.state := (railsFall_wait_state ..).2

/-- What losing every rail makes of the sequencer's state before the first enable goes. -/
def lostRails (p : Pwr) : Pwr :=
  { p with
    xtal := false, pll := false, cold := true, endpoint := false, aoLow := true, boost := false, grant := none, entry := none
    wait := .idle }

/-- The fall of a PG is met with the rails as they then stand. -/
theorem railPgFall_runs {s : State} {n : Nat} (h : s.pwr.railPg.getD n false = true) :
    exec (.railPgFall n) s = .next (if (pgLow n s).railEn.getD n false = false then { s with pwr := pgLow n s }
      else if (pgLow n s).wait = .idle ∧ (pgLow n s).state ≠ .wakeFailed
        then noteLevels (fun s => wakeFailed 1 (loseRails s)) { s with pwr := pgLow n s } else { s with pwr := pgLow n s }) :=
  (onEvent_holds h : execRailPgFall n s = _)

/-- Outside a wake or power-up, a rail that falls with its enable asserted takes every rail, and VDD_IO's valves and slots,
with it (R407, R499). -/
theorem railPgFall_removes {s : State} {n : Nat} (h : s.pwr.railPg.getD n false = true)
    (enabled : (pgLow n s).railEn.getD n false = true) (idle : s.pwr.wait = .idle) (up : s.pwr.state ≠ .wakeFailed) :
    ∃ t, exec (.railPgFall n) s = .next t ∧ t.pwr.state = .wakeFailed ∧
      t.pwr.railEn = (dropNext 0 8 s.core.t (pgLow n s)).railEn ∧ t.pwr.falling = (dropNext 0 8 s.core.t (pgLow n s)).falling ∧
      t.pwr.railPg = (pgLow n s).railPg ∧ t.pwr.failCause = 1 ∧ t.pwr.wakeFailN = true ∧
      t.brk = { s.brk with valves := [], slots := [], deferOrder := [] } := by
  rw [railPgFall_runs h, if_neg (by rw [enabled]; decide), if_pos ⟨(pgLow_wait n s).trans idle, pgLow_state n s ▸ up⟩]
  generalize pgLow n s = p
  obtain ⟨d, noted⟩ := noteLevels_eq (fun s => wakeFailed 1 (loseRails s)) { s with pwr := p }
  rw [noted]
  have enables := dropNext_congr (p := lostRails p) (q := p) rfl 0 8 s.core.t
  exact ⟨_, rfl, rfl, enables.1, enables.2, (congrArg Pwr.railPg (dropNext_eq 0 8 s.core.t (lostRails p)) :), rfl, rfl, rfl⟩

/-- A rail that the sequencer waits for falls without more. -/
theorem railPgFall_waits {s : State} {n : Nat} (h : s.pwr.railPg.getD n false = true) (waits : s.pwr.wait ≠ .idle) :
    exec (.railPgFall n) s = .next { s with pwr := pgLow n s } := by
  have waitsStill : ¬((pgLow n s).wait = .idle ∧ (pgLow n s).state ≠ .wakeFailed) :=
    fun idle => waits ((pgLow_wait n s).symm.trans idle.1)
  rw [railPgFall_runs h, if_neg waitsStill, ite_self]

/-! ### The supplies of the AO domain (R37, R407) -/

theorem pushLast_getLast? {α : Type} (n : Nat) (l : List α) (x : α) (h : 0 < n) : (pushLast n l x).getLast? = some x := by
  unfold pushLast
  rw [List.getLast?_drop]
  simp
  omega

theorem coldReset_told (aoLost : Bool) (cause : Option Nat) (s : State) :
    Told (coldStart aoLost cause s) (coldReset aoLost cause s) := reportPairs_told _

theorem aoBrownout_resets {s : State} (h : s.pwr.aoIn = true) :
    ∃ t, exec .aoBrownout s = .next t ∧ t = coldReset true (some 2) s ∧ t.brk.set = true ∧
      t.brk.inhibit = true ∧ t.brk.lockout = false ∧ t.pwr.state = .exiting ∧ t.mwr.st = .reset ∧
      t.core.causes.getLast? = some ⟨2, aoTicks s, true⟩ ∧ t.store.role = s.store.role := by
  have told := coldReset_told true (some 2) s
  obtain ⟨journal, mwr⟩ := told.mwr_eq
  refine ⟨_, (show execAoBrownout s = _ from onEvent_holds h), rfl, congrArg Brk.set told.brk, congrArg Brk.inhibit told.brk,
    congrArg Brk.lockout told.brk, congrArg Pwr.state told.pwr, congrArg Mwr.st mwr, ?_, (congrArg Store.role told.store :)⟩
  rw [told.core]
  exact pushLast_getLast? 16 _ _ (by decide)

/-- Without VDD_AO_IN every rail and enable is down at once. -/
theorem vddAoInLow_removes (s : State) :
    ∃ t, exec .vddAoInLow s = .next t ∧ t.pwr.aoIn = false ∧ t.pwr.state = .off ∧ t.pwr.railEn = noRails ∧
      t.pwr.falling = none ∧ t.pwr.wakeTimer = none ∧ t.store = s.store ∧ t.brk.slots = [] :=
  ⟨_, rfl, rfl, rfl, rfl, rfl, rfl, rfl, rfl⟩

/-! ### The headroom grant and the sensor (R408, R506) -/

theorem setBoost_same {s : State} {b : Bool} (h : s.pwr.boost = b) (reason : Nat) : setBoost b reason s = s := if_pos h

theorem setBoost_changes {s : State} {b : Bool} (h : s.pwr.boost ≠ b) (reason : Nat) :
    setBoost b reason s = raisePf 0xD003 0 (flag b + reason * 2 ^ 8) { s with pwr := { s.pwr with boost := b } } := if_neg h

/-- The Millwright grants headroom where no grant waits for the control plane. -/
theorem headroomGrant_posts {s : State} (hr : s.mwr.running = true) (hg : s.mwr.grants = true)
    (untaken : s.mail.mwToCtl.front = some .headroomGrant → ctlTakes s = false) :
    exec .headroomGrant s = .next (postCtl .headroomGrant ((mwAct s).modPwr fun p => { p with vcore := 850 })) := by
  show execHeadroomGrant s = _
  unfold execHeadroomGrant
  rw [if_neg fun taken => by simp [untaken taken.1] at taken, onPost_holds hr hg]

/-- The control plane takes a grant that is next in its queue. -/
theorem headroomGrant_taken {s : State} (hf : s.mail.mwToCtl.front = some .headroomGrant) (ht : ctlTakes s = true) :
    exec .headroomGrant s = .next (takeGrant (popCtl s)) := (if_pos ⟨hf, ht⟩ : execHeadroomGrant s = _)

/-- A grant taken under the throttle threshold raises the clock. -/
theorem takeGrant_boosts {s : State} (hth : s.pwr.thermal = false) (hb : s.pwr.boost = false) :
    takeGrant s = raisePf 0xD003 0 0x101
      { s with pwr := { s.pwr with grant := some (s.core.t + 100000000), boost := true } } := by
  unfold takeGrant
  rw [if_neg (by simp [hth]), setBoost_changes (by simp [hb])]
  rfl

theorem takeGrant_throttled {s : State} (hth : s.pwr.thermal = true) :
    takeGrant s = { s with pwr := { s.pwr with grant := some (s.core.t + 100000000) } } := by
  unfold takeGrant
  rw [if_pos (by simp [hth])]
  rfl

theorem grantLapse_ends {s : State} {e : Nat} (hg : s.pwr.grant = some e) (he : e ≤ s.core.t) (hb : s.pwr.boost = true) :
    exec .grantLapse s = .next (raisePf 0xD003 0 0x200
      { s with pwr := { s.pwr with grant := none, vcore := 750, boost := false } }) := by
  show execGrantLapse s = _
  unfold execGrantLapse
  rw [onEvent_holds (by simp [hg, he]), setBoost_changes (by simp [hb])]
  rfl

theorem thermalThrottle_runs {s : State} (h : s.pwr.pll = true) :
    exec .thermalThrottle s = .next (setBoost false 3 { s with pwr := { s.pwr with thermal := true } }) :=
  (onEvent_holds h : execThermalThrottle s = _)

theorem thermalThrottleClear_runs {s : State} (h : s.pwr.thermal = true) :
    exec .thermalThrottleClear s = .next (if still s s.pwr.grant
      then setBoost true 3 { s with pwr := { s.pwr with thermal := false } }
      else { s with pwr := { s.pwr with thermal := false } }) :=
  (onEvent_holds h : execThermalThrottleClear s = _)

theorem thermalThrottleClear_boosts {s : State} {e : Nat} (h : s.pwr.thermal = true) (hg : s.pwr.grant = some e)
    (he : s.core.t < e) (hb : s.pwr.boost = false) :
    exec .thermalThrottleClear s = .next (raisePf 0xD003 0 0x301
      { s with pwr := { s.pwr with thermal := false, boost := true } }) := by
  rw [thermalThrottleClear_runs h, if_pos (by simp [still, hg, he]), setBoost_changes (by simp [hb])]
  rfl

/-- Settles O10: each row's own lemma; a grant is taken out of its queue first, and the throttle acts on a raised clock alone. -/
theorem suppliesAndClocks : Obligations.SuppliesAndClocks := by
  refine ⟨?railRemoves, fun _ _ h waits => railPgFall_waits h waits, fun _ h => aoBrownout_resets h, vddAoInLow_removes,
    fun _ h => (onEvent_holds h : execXtalAoSwitch _ = _), fun _ hr hg untaken => headroomGrant_posts hr hg untaken,
    fun s hf ht hth hb => (headroomGrant_taken hf ht).trans (congrArg _ (takeGrant_boosts (s := popCtl s) hth hb)),
    fun s hf ht hth => (headroomGrant_taken hf ht).trans (congrArg _ (takeGrant_throttled (s := popCtl s) hth)),
    fun _ _ hg he hb => grantLapse_ends hg he hb,
    fun _ h hb => (thermalThrottle_runs h).trans (congrArg _ (setBoost_changes (by simp [hb]) 3)),
    fun s h hb => (thermalThrottle_runs h).trans
      (congrArg _ (setBoost_same (s := { s with pwr := { s.pwr with thermal := true } }) hb 3)),
    fun _ _ h hg he hb => thermalThrottleClear_boosts h hg he hb, ?clearSlow,
    fun _ h => (onEvent_holds h : execThermalAlert _ = _), fun _ => rfl⟩
  case railRemoves =>
    intro s n p h hp enabled idle up
    subst hp
    exact railPgFall_removes h enabled idle up
  case clearSlow =>
    intro s h hg
    rw [thermalThrottleClear_runs h, if_neg (by simp [still, hg])]

end Sys2Proof.Machine
end

section
/-! PROOFS. What a nanosecond, and the flushes before a reset, keep: the reset logic and the Millwright. -/

namespace Sys2Proof.Machine

/-! ### The reset logic and the Millwright but its journal -/

/-- What no operation but a reset, a bring-up or the firmware's own touches: the reset logic, and the Millwright but its journal,
from which completing a command takes its entry. -/
def State.steady (s : State) : Core × Mwr := (s.core, { s.mwr with journal := none })

section
variable (s : State)
@[simp] theorem State.modHif_steady (f : Hif → Hif) : (s.modHif f).steady = s.steady := rfl
@[simp] theorem State.modEvt_steady (f : Evt → Evt) : (s.modEvt f).steady = s.steady := rfl
@[simp] theorem State.modDom_steady (f : Dom → Dom) : (s.modDom f).steady = s.steady := rfl
@[simp] theorem State.modPwr_steady (f : Pwr → Pwr) : (s.modPwr f).steady = s.steady := rfl
@[simp] theorem State.modMem_steady (f : Mem → Mem) : (s.modMem f).steady = s.steady := rfl
@[simp] theorem State.modWhl_steady (f : Whl → Whl) : (s.modWhl f).steady = s.steady := rfl
@[simp] theorem State.modTrn_steady (f : Trn → Trn) : (s.modTrn f).steady = s.steady := rfl
@[simp] theorem State.modStn_steady (f : Stn → Stn) : (s.modStn f).steady = s.steady := rfl
@[simp] theorem State.modOcp_steady (f : Ocp → Ocp) : (s.modOcp f).steady = s.steady := rfl
@[simp] theorem State.modRdm_steady (f : Rdm → Rdm) : (s.modRdm f).steady = s.steady := rfl
@[simp] theorem State.modGrn_steady (f : Grn → Grn) : (s.modGrn f).steady = s.steady := rfl
@[simp] theorem State.modTly_steady (f : Tly → Tly) : (s.modTly f).steady = s.steady := rfl
@[simp] theorem State.modChk_steady (f : Chk → Chk) : (s.modChk f).steady = s.steady := rfl
@[simp] theorem State.modBrk_steady (f : Brk → Brk) : (s.modBrk f).steady = s.steady := rfl
end

theorem steady_core {s t : State} (h : t.steady = s.steady) : t.core = s.core := congrArg Prod.fst h

theorem steady_mwr {s t : State} (h : t.steady = s.steady) : { t.mwr with journal := none } = { s.mwr with journal := none } :=
  congrArg Prod.snd h

theorem Told.steady {s t : State} (h : Told s t) : t.steady = s.steady := by
  obtain ⟨journal, mwr⟩ := h.mwr_eq
  unfold State.steady
  rw [h.core, mwr]

@[simp] theorem ite_steady (c : Prop) [Decidable c] (a b : State) :
    (if c then a else b).steady = if c then a.steady else b.steady := apply_ite ..

theorem steady_of_ite {c : Prop} [Decidable c] {a b s : State} (ha : a.steady = s.steady) (hb : b.steady = s.steady) :
    (if c then a else b).steady = s.steady := by
  split <;> assumption

/-- Steps that each keep it keep it in a row. -/
@[simp] theorem foldl_steady {α : Type} {f : State → α → State} (h : ∀ s a, (f s a).steady = s.steady) (l : List α) (s : State) :
    (l.foldl f s).steady = s.steady := by
  induction l generalizing s with
  | nil => rfl
  | cons a l ih => exact (ih _).trans (h s a)

@[simp] theorem forEach_steady {f : Nat → State → State} (h : ∀ n s, (f n s).steady = s.steady) (l : List Nat) (s : State) :
    (forEach l f s).steady = s.steady := foldl_steady (fun s n => h n s) l s

section
variable (s : State)

/-! ### Completions, events and the error log -/

@[simp] theorem emit_steady (o : Output) : (emit o s).steady = s.steady := (emit_told ..).steady
@[simp] theorem sendMsg_steady (m : Nat) (b : DomBody) : (sendMsg m b s).steady = s.steady := (sendMsg_told ..).steady
@[simp] theorem completeId_steady (id : CmdId) (st : Status) (r r2 : Nat) : (completeId id st r r2 s).steady = s.steady :=
  (completeId_told ..).steady
@[simp] theorem completeJob_steady (j : Job) (st : Status) (r r2 : Nat) : (completeJob j st r r2 s).steady = s.steady :=
  (completeJob_told ..).steady
@[simp] theorem raiseSev_steady (code fn sev obj0 obj1 pos arg arg2 : Nat) :
    (raiseSev code fn sev obj0 obj1 pos arg arg2 s).steady = s.steady := (raiseSev_told ..).steady
@[simp] theorem raise_steady (code fn obj0 obj1 pos arg arg2 : Nat) : (raise code fn obj0 obj1 pos arg arg2 s).steady = s.steady :=
  (raise_told ..).steady
@[simp] theorem raisePf_steady (code obj0 arg : Nat) : (raisePf code obj0 arg s).steady = s.steady := (raisePf_told ..).steady
@[simp] theorem logError_steady (e : Err) : (logError e s).steady = s.steady := (logError_told ..).steady

/-! ### The protected memories (R218 to R228) -/

@[simp] theorem modInst_steady (i : Nat) (f : OInst → OInst) : (modInst i f s).steady = s.steady := rfl
@[simp] theorem modGroup_steady (i g : Nat) (f : OGroup → OGroup) : (modGroup i g f s).steady = s.steady := rfl
@[simp] theorem ocpLast_steady (i g code word syn : Nat) (scrub : Bool) :
    (ocpLast i g code word syn scrub s).steady = s.steady := by
  unfold ocpLast
  exact State.modOcp_steady ..
@[simp] theorem ocpAlarm_steady (b : Nat) : (ocpAlarm b s).steady = s.steady := rfl
@[simp] theorem candidate_steady (i word : Nat) (b : Option Nat) : (candidate i word b s).steady = s.steady :=
  modGroup_steady ..
@[simp] theorem putWord_steady (i word : Nat) (w : OWord) : (putWord i word w s).steady = s.steady := rfl
@[simp] theorem poisonWord_steady (i word data : Nat) : (poisonWord i word data s).steady = s.steady := rfl
@[simp] theorem clearInst_steady (i : Nat) : (clearInst i s).steady = s.steady := rfl
@[simp] theorem holdGated_steady : (holdGated s).steady = s.steady := rfl
@[simp] theorem clearBlock_steady (base n : Nat) : (clearBlock base n s).steady = s.steady :=
  forEach_steady (fun i s => clearInst_steady s i) _ s

@[simp] theorem ocpCe_steady (i word code syn : Nat) (scrub : Bool) : (ocpCe i word code syn scrub s).steady = s.steady := by
  simp [ocpCe]

@[simp] theorem ocpUe_steady (i word code syn cons : Nat) (scrub : Bool) :
    (ocpUe i word code syn cons scrub s).steady = s.steady := by
  simp only [ocpUe, raiseSev_steady, logError_steady, ocpLast_steady, modInst_steady]

@[simp] theorem degrade_steady (i g reason : Nat) : (degrade i g reason s).steady = s.steady := by
  simp [degrade]

@[simp] theorem injectWord_steady (i word data : Nat) (poisoned : Bool) : (injectWord i word data poisoned s).steady = s.steady := by
  unfold injectWord
  extract_lets d c
  split
  · exact putWord_steady ..
  · exact (putWord_steady ..).trans (State.modOcp_steady ..)

@[simp] theorem storeWord_steady (i word data : Nat) : (storeWord i word data s).steady = s.steady := injectWord_steady ..

@[simp] theorem meetOdd_steady (i word : Nat) (scrub : Bool) : (meetOdd i word scrub s).steady = s.steady := by
  simp [meetOdd]

@[simp] theorem flushPoisoned_steady (i : Nat) (m : Merge) (v : Nat) : (flushPoisoned i m v s).steady = s.steady := by
  simp [flushPoisoned]

@[simp] theorem flushMerge_steady (i : Nat) (m : Merge) : (flushMerge i m s).steady = s.steady := by
  unfold flushMerge
  split
  · simp
  · dsimp only
    split <;> simp

@[simp] theorem flushWord_steady (i word : Nat) : (flushWord i word s).steady = s.steady := by
  unfold flushWord
  dsimp only
  split <;> simp

@[simp] theorem flushOldest_steady (i g : Nat) : (flushOldest i g s).steady = s.steady := by
  unfold flushOldest
  split <;> simp

@[simp] theorem flushInst_steady (i : Nat) : (flushInst i s).steady = s.steady := by
  simp [flushInst]

@[simp] theorem flushKept_steady (keeps : Nat → Bool) : (flushKept keeps s).steady = s.steady := by
  simp [flushKept]

@[simp] theorem fullWrite_steady (i word data : Nat) : (fullWrite i word data s).steady = s.steady := by
  simp [fullWrite]

@[simp] theorem partialWrite_steady (i word mask data : Nat) (who : Option CmdId) :
    (partialWrite i word mask data who s).steady = s.steady := by
  unfold partialWrite
  extract_lets g room s1
  have entered : s1.steady = s.steady := by
    unfold s1 room
    split <;> simp
  clear_value s1
  split
  · exact steady_of_ite ((flushWord_steady ..).trans entered) entered
  · exact entered

@[simp] theorem putScratchWord_steady (stone off : Nat) (l : List PByte) (word : Nat) :
    (putScratchWord stone off l word s).steady = s.steady := by
  simp [putScratchWord]

@[simp] theorem writeScratch_steady (stone off : Nat) (l : List PByte) : (writeScratch stone off l s).steady = s.steady := by
  simp [writeScratch]

/-! ### Stones, items of work and the mesh (R157 to R166) -/

@[simp] theorem settleVotes_steady : (settleVotes s).steady = s.steady := by
  obtain ⟨doms, h⟩ := settleVotes_eq s
  rw [h]
  rfl

@[simp] theorem modStone_steady (n : Nat) (f : Stone → Stone) : (modStone n f s).steady = s.steady := rfl
@[simp] theorem modImage_steady (i : Nat) (f : Image → Image) : (modImage i f s).steady = s.steady := rfl
@[simp] theorem modItem_steady (n : Nat) (f : Item → Item) : (modItem n f s).steady = s.steady := rfl
@[simp] theorem stopGang_steady (n : Nat) : (stopGang n s).steady = s.steady := rfl

@[simp] theorem settleFences_steady : (settleFences s).steady = s.steady := by
  unfold settleFences
  extract_lets go s1 settled ended s2
  have fenced : s2.steady = s.steady := by simp [s2, s1]
  refine (foldl_steady (fun s w => ?_) _ _).trans fenced
  split <;> simp

@[simp] theorem releaseBlock_steady (base floors : Nat) : (releaseBlock base floors s).steady = s.steady := by
  simp [releaseBlock]

@[simp] theorem dropItem_steady (n : Nat) : (dropItem n s).steady = s.steady := by
  unfold dropItem
  split <;> simp

@[simp] theorem gangFault_steady (n code k : Nat) : (gangFault n code k s).steady = s.steady := by
  unfold gangFault
  split <;> simp

@[simp] theorem landFlight_steady (n j : Nat) : (landFlight n j s).steady = s.steady := by
  unfold landFlight
  split
  · rfl
  · split
    · rfl
    · dsimp only
      split
      · rfl
      · split <;> simp

@[simp] theorem meshAt_steady (n : Nat) : (meshAt n s).steady = s.steady := by
  unfold meshAt
  split
  · rfl
  · extract_lets s1
    have landed : s1.steady = s.steady := by simp [s1]
    split <;> simp [landed]

@[simp] theorem runItem_steady (n t k : Nat) : (runItem n t k s).steady = s.steady := by
  unfold runItem
  split <;> simp

/-! ### Slots of the tray (R463, R472) -/

@[simp] theorem brkEvent_steady (code obj arg : Nat) : (brkEvent code obj arg s).steady = s.steady := by
  simp [brkEvent]

@[simp] theorem setSlot_steady (n : Nat) (st : SlotState) : (setSlot n st s).steady = s.steady := by
  simp [setSlot]

@[simp] theorem enableSlots_steady : (enableSlots s).steady = s.steady := by
  unfold enableSlots
  split
  · split <;> simp
  · rfl

/-! ### Rings and races (R97, R139) -/

@[simp] theorem writeSeg_steady (g : Seg) (l : List PByte) : (writeSeg g l s).steady = s.steady := by
  unfold writeSeg
  split <;> simp

@[simp] theorem writeSegs_steady (gs : List Seg) (l : List PByte) : (writeSegs gs l s).steady = s.steady := by
  induction gs generalizing l s with
  | nil => rfl
  | cons g gs ih => exact (ih ..).trans (writeSeg_steady ..)

@[simp] theorem putHeld_steady (h : Held) (off : Nat) (data : List Byte) : (putHeld h off data s).steady = s.steady :=
  writeSegs_steady ..

@[simp] theorem modRace_steady (r : Nat) (f : Race → Race) : (modRace r f s).steady = s.steady := rfl

@[simp] theorem tellFull_steady (rid : Nat) : (tellFull rid s).steady = s.steady := by
  unfold tellFull
  split <;> simp

@[simp] theorem putTailHeader_steady (rid : Nat) : (putTailHeader rid s).steady = s.steady := by
  unfold putTailHeader
  split <;> simp

@[simp] theorem putFrame_steady (rid flags nsmp : Nat) (payload : List Byte) (check time turn sail : Nat) :
    (putFrame rid flags nsmp payload check time turn sail s).steady = s.steady := by
  unfold putFrame
  split <;> simp

@[simp] theorem gapMarker_steady (rid flags turn sail : Nat) : (gapMarker rid flags turn sail s).steady = s.steady := by
  unfold gapMarker
  split <;> simp

/-! ### Turns and sails (R123, R133, R134) -/

@[simp] theorem modTurn_steady (t : Nat) (f : Turn → Turn) : (modTurn t f s).steady = s.steady := rfl
@[simp] theorem modSail_steady (t k : Nat) (f : Sail → Sail) : (modSail t k f s).steady = s.steady := rfl
@[simp] theorem dropFrames_steady (rid : Nat) : (dropFrames rid s).steady = s.steady := rfl

@[simp] theorem freeTurn_steady (t : Nat) : (freeTurn t s).steady = s.steady := by
  simp [freeTurn]

@[simp] theorem retireTurn_steady (t : Nat) (reason : Option Nat) : (retireTurn t reason s).steady = s.steady := by
  unfold retireTurn
  cases reason <;> simp

@[simp] theorem drainSail_steady (t k : Nat) : (drainSail t k s).steady = s.steady := by
  simp [drainSail]

@[simp] theorem cancelTurnWork_steady (t : Nat) : (cancelTurnWork t s).steady = s.steady := by
  simp [cancelTurnWork]

@[simp] theorem furlSail_steady (t k cause : Nat) (st : Status) : (furlSail t k cause st s).steady = s.steady := by
  unfold furlSail
  extract_lets x v its on runners cancelled v' s1 s2 s3 s4 s5
  have stopped : s2.steady = s.steady := by simp [s2, s1]
  have answered : s3.steady = s2.steady := by
    unfold s3
    split <;> simp
  have drained : s5.steady = s3.steady := by simp [s5, s4]
  have furled : s5.steady = s.steady := drained.trans (answered.trans stopped)
  clear_value s5
  exact steady_of_ite rfl (steady_of_ite ((retireTurn_steady ..).trans ((gapMarker_steady ..).trans furled))
    (steady_of_ite ((modTurn_steady ..).trans furled) furled))

@[simp] theorem furlRaised_steady (t cause : Nat) (st : Status) : (furlRaised t cause st s).steady = s.steady := by
  simp [furlRaised]

@[simp] theorem endTurn_steady (t cause : Nat) (st : Status) : (endTurn t cause st s).steady = s.steady := by
  simp [endTurn]

@[simp] theorem closeRace_steady (rid cause : Nat) : (closeRace rid cause s).steady = s.steady := by
  simp [closeRace]

/-! ### Mirrors of a granary (R310) -/

@[simp] theorem modBin_steady (i : Nat) (f : Bin → Bin) : (modBin i f s).steady = s.steady := rfl
@[simp] theorem hotDrop_steady (a n : Nat) : (hotDrop a n s).steady = s.steady := rfl

@[simp] theorem setMState_steady (i : Nat) (st : MState) : (setMState i st s).steady = s.steady := by
  simp [setMState, notice]

@[simp] theorem finishMaps_steady (i : Nat) (mine : MapWait → Bool) : (finishMaps i mine s).steady = s.steady := by
  simp [finishMaps]

@[simp] theorem writeBin_steady (b : Bin) (off : Nat) (l : List PByte) : (writeBin b off l s).steady = s.steady := by
  simp [writeBin]

@[simp] theorem landWaiting_steady (i : Nat) : (landWaiting i s).steady = s.steady := by
  simp [landWaiting]

@[simp] theorem breakMirror_steady (i reason : Nat) : (breakMirror i reason s).steady = s.steady := by
  unfold breakMirror
  split <;> simp

@[simp] theorem qpLeft_steady (q : Nat) : (qpLeft q s).steady = s.steady := by
  simp [qpLeft, breakMirrors]

/-! ### The objects of a function (R72) -/

@[simp] theorem modEngine_steady (n : Nat) (f : Engine → Engine) : (modEngine n f s).steady = s.steady := rfl

@[simp] theorem dropEngine_steady (n : Nat) : (dropEngine n s).steady = s.steady := by
  unfold dropEngine
  extract_lets e jobs s1 s2
  have ended : s2.steady = s.steady := foldl_steady (fun s j => completeJob_steady ..) _ _
  split <;> simp [ended]

@[simp] theorem releaseObjects_steady (fn : Nat) : (releaseObjects fn s).steady = s.steady := by
  simp [releaseObjects]

@[simp] theorem releaseDue_steady : (releaseDue s).steady = s.steady := by
  unfold releaseDue
  split <;> simp

end

/-! ### A nanosecond (log entry 1) -/

/-- Past the clocks, a nanosecond leaves the reset logic as it is. -/
theorem tick_core (s : State) :
    (tick s).core = timeAfter { s.core with t := s.core.t + 1 } (clockSteps s (s.core.t + 1)) := by
  unfold tick
  extract_lets t s1 s2 n s3 s4 s5 s6
  have beats : s2.core = s1.core := by
    unfold s2
    split <;> rfl
  have drained : s5.steady = s2.steady := by simp [s5, s4, s3]
  have gated : s6.steady = s5.steady := by simp [s6]
  exact (steady_core (steady_of_ite gated ((releaseDue_steady s6).trans gated))).trans ((steady_core drained).trans beats)

/-- Without a steward no slot is enabled, and the brake path stays as it is. -/
theorem tick_brk {s : State} (h : s.mwr.steward = false) : (tick s).brk = s.brk := by
  unfold tick
  extract_lets t s1 s2 n s3 s4 s5 s6
  have beats : s2.mwr.steward = s.mwr.steward := by
    unfold s2
    split <;> rfl
  have drained : s5.steady = s2.steady := by simp [s5, s4, s3]
  have noSteward : s5.mwr.steward = false := (congrArg Mwr.steward (steady_mwr drained)).trans (beats.trans h)
  have ran : s3.still = s.still :=
    (ite_still rfl (forEach_still _ _ _ fun _ _ => runItem_still ..)).trans (ite_still (State.modMwr_still ..) rfl)
  have moved : s5.still = s.still := ((ite_still rfl (State.modPwr_still ..)).trans (ite_still rfl (State.modEvt_still ..))).trans ran
  have kept : s6.still = s.still := by
    unfold s6
    rw [if_neg (by simp [noSteward])]
    exact (holdGated_still _).trans moved
  exact congrArg Prod.fst (ite_still kept ((releaseDue_still _).trans kept))

/-- Settles O52: a step unfolds to the command at the front, or to the nanosecond, whose clock moves by one. -/
theorem frontOfQueue : Obligations.FrontOfQueue := by
  refine ⟨fun c r s h => ?front, fun s h => ⟨?empty, congrArg Core.t (tick_core s), tick_brk, (tick_calm s).1.trans h⟩⟩
  case front =>
    unfold step
    rw [h]
    rfl
  case empty =>
    unfold step
    rw [h]

end Sys2Proof.Machine
end

section
/-! PROOFS. The resets of the planes begin and end (01 R35, R36, R38, R39, R41). -/

namespace Sys2Proof.Machine

/-! ### The Millwright acts -/

theorem mwAct_brk (s : State) : (mwAct s).brk = s.brk := congrArg Prod.fst (mwAct_still s)

theorem mwAct_core (s : State) : (mwAct s).core = s.core := by
  obtain ⟨doms, h⟩ := mwAct_eq s
  rw [h]

/-! ### HIF_PLANE_RESET (R36, R83) -/

/-- A bit of the CTL, DAT and MGT field of HIF_PLANE_RESET. -/
theorem bit_of_planes {val planes i : Nat} (h : bits val 2 0 = planes) (hi : i < 3) : bit val i = planes.testBit i := by
  rw [← h]
  unfold bit bits
  rw [Nat.shiftRight_zero, Nat.testBit_mod_two_pow]
  simp [hi]

/-- The PF's write with the key starts the resets it names, CTL first. -/
theorem planeReset_keyed {val : Nat} (key : bits val 31 16 = 0x5A5A) (s : State) :
    planeReset 0 val s =
      let s := if bit val 0 then startCtlReset 0x04 s else s
      let s := if bit val 1 then startDatReset 0x07 s else s
      if bit val 2 then startMgtReset 0x0C s else s := by
  unfold planeReset
  rw [if_neg (by decide), if_neg (by simp [key])]

theorem planeReset_unkeyed {val : Nat} (key : bits val 31 16 ≠ 0x5A5A) (s : State) :
    planeReset 0 val s = s.modHif fun h => { h with wins := h.wins.alter 0 {} fun w => { w with err := w.err ||| 4 } } := by
  unfold planeReset
  rw [if_neg (by decide), if_pos key]

theorem ctlPlaneReset_host {s : State} {val : Nat} (hp : s.pwr.pll = true) (named : bit val 0 = true) :
    exec (.ctlPlaneReset (.host 0 val)) s = .next (planeReset 0 val s) :=
  (onEvent_holds (by simp [hp, named]) : execCtlPlaneReset (.host 0 val) s = _)

theorem datPlaneReset_host {s : State} {val : Nat} (hp : s.pwr.pll = true) (named : bit val 1 = true) :
    exec (.datPlaneReset (.host 0 val)) s = .next (planeReset 0 val s) :=
  (onEvent_holds (by simp [hp, named]) : execDatPlaneReset (.host 0 val) s = _)

theorem mgtPlaneReset_host {s : State} {val : Nat} (hp : s.pwr.pll = true) (named : bit val 2 = true) :
    exec (.mgtPlaneReset (.host 0 val)) s = .next (planeReset 0 val s) :=
  (onEvent_holds (by simp [hp, named]) : execMgtPlaneReset (.host 0 val) s = _)

/-- A write with another key flags the PF's window, whichever row it comes by. -/
theorem planeReset_discarded {s : State} {val : Nat} (hp : s.pwr.pll = true) (key : bits val 31 16 ≠ 0x5A5A) :
    ∃ t, (bit val 0 = true → exec (.ctlPlaneReset (.host 0 val)) s = .next t) ∧
      (bit val 1 = true → exec (.datPlaneReset (.host 0 val)) s = .next t) ∧
      (bit val 2 = true → exec (.mgtPlaneReset (.host 0 val)) s = .next t) ∧
      (t.hif.wins.getD 0 {}).err = (s.hif.wins.getD 0 {}).err ||| 4 ∧ t = { s with hif := t.hif } := by
  refine ⟨_, ctlPlaneReset_host hp, datPlaneReset_host hp, mgtPlaneReset_host hp, ?_⟩
  rw [planeReset_unkeyed key]
  refine ⟨?_, rfl⟩
  rw [State.modHif_hif, Tbl.getD_alter, if_pos rfl]

/-! ### The control plane (R39) -/

theorem startCtlReset_brk (code : Nat) (s : State) : (startCtlReset code s).brk = s.brk :=
  congrArg Prod.fst (startCtlReset_still code s)

/-- The Wheelhouse is held, and MW_TO_CTL and the translation caches are empty. -/
theorem startCtlReset_begins {s : State} (h : s.core.ctlReset = false) (code : Nat) :
    (startCtlReset code s).core.ctlReset = true ∧ (startCtlReset code s).mail.mwToCtl = {} ∧
      (startCtlReset code s).mem.leafCache = [] ∧ (startCtlReset code s).mem.walkCache = [] := by
  unfold startCtlReset
  rw [if_neg (by simp [h])]
  exact ⟨rfl, rfl, rfl, rfl⟩

theorem ctlReset_byMillwright {s : State} (hp : s.pwr.pll = true) (hr : s.mwr.running = true) (hc : s.core.ctlReset = false) :
    ∃ t, exec (.ctlPlaneReset .millwright) s = .next t ∧ t = startCtlReset 0x05 (mwAct s) ∧ t.core.ctlReset = true ∧
      t.mail.mwToCtl = {} ∧ t.mem.leafCache = [] ∧ t.mem.walkCache = [] ∧ t.brk = s.brk := by
  obtain ⟨held, mail, leaf, walk⟩ := startCtlReset_begins ((congrArg Core.ctlReset (mwAct_core s)).trans hc) 0x05
  exact ⟨_, (onMw_holds hr hp : execCtlPlaneReset .millwright s = _), rfl, held, mail, leaf, walk,
    (startCtlReset_brk ..).trans (mwAct_brk s)⟩

theorem ctlReset_byHost {s : State} {val : Nat} (hp : s.pwr.pll = true) (key : bits val 31 16 = 0x5A5A)
    (planes : bits val 2 0 = 1) (hc : s.core.ctlReset = false) :
    ∃ t, exec (.ctlPlaneReset (.host 0 val)) s = .next t ∧ t = startCtlReset 0x04 s ∧ t.core.ctlReset = true ∧ t.brk = s.brk := by
  have ctl : bit val 0 = true := bit_of_planes planes (by decide)
  have noDat : bit val 1 = false := bit_of_planes planes (by decide)
  have noMgt : bit val 2 = false := bit_of_planes planes (by decide)
  refine ⟨_, (ctlPlaneReset_host hp ctl).trans (congrArg _ ?_), rfl, (startCtlReset_begins hc 0x04).1, startCtlReset_brk ..⟩
  simp [planeReset_keyed key, ctl, noDat, noMgt]

/-- An aborted command is detached or delivered, and neither moves the brake. -/
theorem abortCmd_same (s : State) (c : Cmd) : SameBrake s (abortCmd s c) := by
  unfold abortCmd
  split
  · exact .refl s
  · extract_lets k
    split
    · exact (detach_same c.id s).trans (.still (deliverK_still ..))
    · exact .still ((deliver_still ..).trans (forgetCmd_still ..))

theorem endCtlReset_same (s : State) : SameBrake s (endCtlReset s) := by
  unfold endCtlReset
  extract_lets s1 s2 s3 s4
  have aborted : SameBrake s s2 := SameBrake.trans (b := s1) (.still (State.modCore_still ..)) (foldl_same _ _ _ abortCmd_same)
  have rebuilt : s4.still = s2.still := (rebuildItems_still ..).trans ((rebuildTurns_still ..).trans (State.modStn_still ..))
  exact aborted.trans (.still ((settleVotes_still _).trans
    ((ite_still (evalAllCogs_still _) rfl).trans rebuilt)))

theorem ctlReset_ends {s : State} (h : s.core.ctlReset = true) :
    ∃ t, exec .ctlResetEnd s = .next t ∧ t = endCtlReset s ∧ t.brk.set = s.brk.set ∧ t.pending = s.pending :=
  ⟨_, (onEvent_holds h : execCtlResetEnd s = _), rfl, (endCtlReset_same s).1, (endCtlReset_calm s).1⟩

/-! ### The data plane (R41, R491) -/

theorem startDatReset_brk (code : Nat) (s : State) : (startDatReset code s).brk = s.brk :=
  congrArg Prod.fst (startDatReset_still code s)

theorem datReset_byHost {s : State} {val : Nat} (hp : s.pwr.pll = true) (key : bits val 31 16 = 0x5A5A)
    (planes : bits val 2 0 = 2) :
    ∃ t, exec (.datPlaneReset (.host 0 val)) s = .next t ∧ t = startDatReset 0x07 s ∧ t.brk = s.brk := by
  have noCtl : bit val 0 = false := bit_of_planes planes (by decide)
  have dat : bit val 1 = true := bit_of_planes planes (by decide)
  have noMgt : bit val 2 = false := bit_of_planes planes (by decide)
  refine ⟨_, (datPlaneReset_host hp dat).trans (congrArg _ ?_), rfl, startDatReset_brk ..⟩
  simp [planeReset_keyed key, noCtl, dat, noMgt]

theorem datReset_byMillwright {s : State} (hp : s.pwr.pll = true) (hr : s.mwr.running = true) :
    ∃ t, exec (.datPlaneReset .millwright) s = .next t ∧ t = startDatReset 0x08 (mwAct s) ∧ t.brk = s.brk :=
  ⟨_, (onMw_holds hr hp : execDatPlaneReset .millwright s = _), rfl, (startDatReset_brk ..).trans (mwAct_brk s)⟩

theorem datReset_ends {s : State} (h : s.core.datReset = true) :
    ∃ t, exec .datResetEnd s = .next t ∧ t.brk = s.brk ∧ t = endDatReset s :=
  ⟨_, (onEvent_holds h : execDatResetEnd s = _), congrArg Prod.fst (endDatReset_still s), rfl⟩

theorem datNoProgress_fatal {s : State} (hp : s.pwr.pll = true) (source : Nat) :
    ∃ t, exec (.datNoProgressTimeout source) s = .next t ∧ t = datFatal source s ∧ t.brk = s.brk :=
  ⟨_, (onEvent_holds hp : execDatNoProgressTimeout source s = _), rfl, congrArg Prod.fst (datFatal_still source s)⟩

/-! ### The management plane (R38) -/

theorem noteLevels_mwr (f : State → State) (s : State) : (noteLevels f s).mwr = (f s).mwr := by
  obtain ⟨doms, h⟩ := noteLevels_eq f s
  rw [h]

theorem noteLevels_brk (f : State → State) (s : State) : (noteLevels f s).brk = (f s).brk := by
  obtain ⟨doms, h⟩ := noteLevels_eq f s
  rw [h]

theorem setHoldover_mwr (s : State) : (setHoldover s).mwr = s.mwr := by
  unfold setHoldover
  split <;> rfl

/-- The Millwright is in reset for a cause; whether its firmware has run since the cold reset, and the brake, stay. -/
theorem startMgtReset_begins {s : State} (h : s.mwr.st ≠ .reset) (code : Nat) :
    (startMgtReset code s).mwr.st = .reset ∧ (startMgtReset code s).mwr.cause = code ∧
      (startMgtReset code s).mwr.coldBoot = s.mwr.coldBoot ∧ (startMgtReset code s).brk.set = s.brk.set := by
  unfold startMgtReset
  rw [if_neg h]
  extract_lets s1 s2 s3 s4
  have coldBoot : s1.mwr.coldBoot = s.mwr.coldBoot :=
    (congrArg Mwr.coldBoot (setHoldover_mwr _)).trans (congrArg Mwr.coldBoot (steady_mwr (flushKept_steady s (· ≠ 259))) :)
  have brake : s1.still = s.still :=
    (resetInst_still ..).trans ((setHoldover_still ..).trans ((noteCause_still ..).trans (flushKept_still ..)))
  rw [noteLevels_mwr, noteLevels_brk]
  exact ⟨rfl, rfl, coldBoot, congrArg (fun b => b.1.set) brake⟩

theorem mgtReset_byHost {s : State} {val : Nat} (hp : s.pwr.pll = true) (key : bits val 31 16 = 0x5A5A)
    (planes : bits val 2 0 = 4) (hs : s.mwr.st ≠ .reset) :
    ∃ t, exec (.mgtPlaneReset (.host 0 val)) s = .next t ∧ t.mwr.st = .reset ∧ t.mwr.cause = 0x0C ∧
      t.mwr.coldBoot = s.mwr.coldBoot ∧ t.brk.set = s.brk.set := by
  have noCtl : bit val 0 = false := bit_of_planes planes (by decide)
  have noDat : bit val 1 = false := bit_of_planes planes (by decide)
  have mgt : bit val 2 = true := bit_of_planes planes (by decide)
  refine ⟨startMgtReset 0x0C s, (mgtPlaneReset_host hp mgt).trans (congrArg _ ?_), startMgtReset_begins hs 0x0C⟩
  simp [planeReset_keyed key, noCtl, noDat, mgt]

/-! ### The Millwright's fence request (R181) -/

theorem fenceRequest_posted {s : State} {stone : Nat} (hr : s.mwr.running = true) (hn : stone < 256) (floor : Bool) :
    exec (.stoneFenceRequest (some stone) floor) s = .next (postDat (.stoneFence stone floor) (mwAct s)) :=
  (onPost_holds hr (by simp [hn]) : execStoneFenceRequest (some stone) floor s = _)

/-- The data plane takes a request that is next in its queue, and fences what no test holds. -/
theorem fenceRequest_taken {s : State} {stone : Nat} {floor : Bool} (hu : s.pwr.up = true) (hd : s.core.datReset = false)
    (front : s.mail.mwToDat.front = some (.stoneFence stone floor)) (f : Bool) :
    exec (.stoneFenceRequest none f) s = .next
      (if stonesBusy s (namedStones stone floor) then popDat s else fenceStones none stone floor (popDat s)) :=
  (onDatMail_takes front rfl (by simp [datTakes, hu, hd]) : execStoneFenceRequest none f s = _)

theorem fenceRequest_fences {s : State} {stone : Nat} {floor : Bool} (hu : s.pwr.up = true) (hd : s.core.datReset = false)
    (front : s.mail.mwToDat.front = some (.stoneFence stone floor)) (free : stonesBusy s (namedStones stone floor) = false)
    (f : Bool) :
    ∃ t, exec (.stoneFenceRequest none f) s = .next t ∧ t = fenceStones none stone floor (popDat s) ∧ t.brk = s.brk :=
  ⟨_, (fenceRequest_taken hu hd front f).trans (by simp [free]), rfl,
    congrArg Prod.fst ((fenceStones_still ..).trans (popDat_still s))⟩

theorem fenceRequest_refused {s : State} {stone : Nat} {floor : Bool} (hu : s.pwr.up = true) (hd : s.core.datReset = false)
    (front : s.mail.mwToDat.front = some (.stoneFence stone floor)) (busy : stonesBusy s (namedStones stone floor) = true)
    (f : Bool) : exec (.stoneFenceRequest none f) s = .next (popDat s) :=
  (fenceRequest_taken hu hd front f).trans (by simp [busy])

/-- Settles O2: each row runs the begin or the end it names, and that one's own lemma says what it leaves. -/
theorem planeResets : Obligations.PlaneResets :=
  ⟨fun _ hp hr hc => ctlReset_byMillwright hp hr hc, fun _ _ hp key planes hc => ctlReset_byHost hp key planes hc,
    fun _ _ hp key _ => planeReset_discarded hp key, fun _ h => ctlReset_ends h,
    fun _ _ hp key planes _ => datReset_byHost hp key planes, fun _ hp hr _ => datReset_byMillwright hp hr,
    fun _ h _ => datReset_ends h, fun _ _ hp key planes hs => mgtReset_byHost hp key planes hs,
    fun _ source hp _ => datNoProgress_fatal hp source, fun _ _ floor hr hn => fenceRequest_posted hr hn floor,
    fun _ _ _ f hu hd front free => fenceRequest_fences hu hd front free f,
    fun _ _ _ f hu hd front busy => fenceRequest_refused hu hd front busy f⟩

end Sys2Proof.Machine
end

section
/-! PROOFS. Doorbells, and queues created, deleted and assigned (02 R55 to R60, R83). -/

namespace Sys2Proof.Machine

/-! ### A queue or a window that changes -/

section
variable {s : State} {q : Nat}

theorem modSq_get_same {sq : Sq} (h : s.hif.sqs.get q = some sq) (f : Sq → Sq) : (modSq q f s).hif.sqs.get q = some (f sq) := by
  unfold modSq
  rw [State.modHif_hif, Tbl.get_modify, if_pos rfl, h]
  rfl

theorem modSq_get_other {k : Nat} (h : k ≠ q) (f : Sq → Sq) : (modSq q f s).hif.sqs.get k = s.hif.sqs.get k :=
  (Tbl.get_modify ..).trans (if_neg h)

theorem modCq_get_same {cq : Cq} (h : s.hif.cqs.get q = some cq) (f : Cq → Cq) : (modCq q f s).hif.cqs.get q = some (f cq) := by
  unfold modCq
  rw [State.modHif_hif, Tbl.get_modify, if_pos rfl, h]
  rfl

theorem modCq_get_other {k : Nat} (h : k ≠ q) (f : Cq → Cq) : (modCq q f s).hif.cqs.get k = s.hif.cqs.get k :=
  (Tbl.get_modify ..).trans (if_neg h)

end

theorem win_flagErr (fn b qid : Nat) (s : State) :
    win (flagErr fn b qid s) fn = { win s fn with err := (win s fn).err ||| 2 ^ b, errQid := qid } := by
  unfold flagErr
  rw [win, State.modHif_hif, Tbl.getD_alter, if_pos rfl]
  rfl

/-! ### Doorbells (R55, R59, R60) -/

theorem idleExit_of_run {s : State} (h : s.pwr.state = .run) : idleExit s = s := if_neg (by simp [h])

/-- The tail doorbell of an active SQ of the function takes a value below the depth, and any other stops the queue. -/
theorem sqTailDoorbell_runs {s : State} {fn idx q : Nat} {sq : Sq} (val : Nat) (run : s.pwr.state = .run)
    (own : globalQ s fn idx = some q) (hq : s.hif.sqs.get q = some sq) (active : sq.state = .active) :
    exec (.sqTailDoorbell fn idx val) s = .next (if val < sq.depth then modSq q (fun r => { r with tail := val }) s
      else flagErr fn 0 idx (modSq q (fun r => { r with state := .error, err := 1 }) s)) := by
  show execSqTailDoorbell fn idx val s = _
  simp only [execSqTailDoorbell, own, hq, idleExit_of_run run]
  rw [if_neg (not_not_intro active), apply_ite Host.Outcome.next]

theorem sqTailDoorbell_takes {s : State} {fn idx val q : Nat} {sq : Sq} (run : s.pwr.state = .run)
    (own : globalQ s fn idx = some q) (hq : s.hif.sqs.get q = some sq) (active : sq.state = .active) (hv : val < sq.depth) :
    ∃ t, exec (.sqTailDoorbell fn idx val) s = .next t ∧ t.hif.sqs.get q = some { sq with tail := val } ∧
      (∀ k, k ≠ q → t.hif.sqs.get k = s.hif.sqs.get k) ∧ t = { s with hif := { s.hif with sqs := t.hif.sqs } } := by
  refine ⟨_, sqTailDoorbell_runs val run own hq active, ?_⟩
  rw [if_pos hv]
  exact ⟨modSq_get_same hq _, fun _ hk => modSq_get_other hk _, rfl⟩

theorem sqTailDoorbell_stops {s : State} {fn idx val q : Nat} {sq : Sq} (run : s.pwr.state = .run)
    (own : globalQ s fn idx = some q) (hq : s.hif.sqs.get q = some sq) (active : sq.state = .active) (hv : sq.depth ≤ val) :
    ∃ t, exec (.sqTailDoorbell fn idx val) s = .next t ∧ t.hif.sqs.get q = some { sq with state := .error, err := 1 } ∧
      (win t fn).err = (win s fn).err ||| 1 ∧ (win t fn).errQid = idx := by
  refine ⟨_, sqTailDoorbell_runs val run own hq active, ?_⟩
  rw [if_neg (by omega), win_flagErr]
  exact ⟨(modSq_get_same hq _ :), rfl, rfl⟩

/-- The head doorbell of an active CQ releases entries; with no completion waiting, nothing is written in their place. -/
theorem cqHeadDoorbell_releases {s : State} {fn idx val q : Nat} {cq : Cq} (run : s.pwr.state = .run)
    (own : globalQ s fn idx = some q) (hq : s.hif.cqs.get q = some cq) (active : cq.state = .active) (noneWaits : cq.waiting = [])
    (hv : val < cq.depth) (held : (val + cq.depth - cq.head) % cq.depth ≤ cq.used) :
    ∃ t, exec (.cqHeadDoorbell fn idx val) s = .next t ∧
      t.hif.cqs.get q = some { cq with head := val, used := cq.used - (val + cq.depth - cq.head) % cq.depth } ∧
      (∀ k, k ≠ q → t.hif.cqs.get k = s.hif.cqs.get k) ∧ t = { s with hif := { s.hif with cqs := t.hif.cqs } } := by
  refine ⟨modCq q (fun c => { c with head := val, used := c.used - (val + cq.depth - cq.head) % cq.depth, waiting := [] }) s,
    ?_, ?_, fun _ hk => modCq_get_other hk _, rfl⟩
  · show execCqHeadDoorbell fn idx val s = _
    simp [execCqHeadDoorbell, own, hq, active, noneWaits, hv, held, idleExit_of_run run]
  · rw [modCq_get_same hq, noneWaits]

/-! ### Creation and deletion (R57, R83) -/

theorem queueCreate_cq {s : State} {fn q : Nat} (own : globalQ s fn (bits (win s fn).qsel 7 0) = some q)
    (isCq : bit (win s fn).qsel 8 = true) (two : 2 ≤ bits (win s fn).qcfg0 12 0) (most : bits (win s fn).qcfg0 12 0 ≤ 4096)
    (free : (s.hif.cqs.getD q {}).state = .free)
    (vector : bits (bits (win s fn).qcfg0 31 24) 5 0 < (if fn = 0 then 64 else 8)) (count : 1 ≤ bits (win s fn).qcfg1 7 0)
    (time : bits (win s fn).qcfg1 25 16 ≤ 1000) :
    ∃ t, exec (.queueCreate fn) s = .next t ∧ t.hif.cqs.get q = some {
        state := .active, depth := bits (win s fn).qcfg0 12 0, base := (win s fn).qbase
        vector := bits (bits (win s fn).qcfg0 31 24) 5 0, coalCnt := bits (win s fn).qcfg1 7 0
        coalUs := bits (win s fn).qcfg1 25 16, fn } ∧ t = { s with hif := { s.hif with cqs := t.hif.cqs } } := by
  have allowed : execQueueCreate fn s = .next (s.modHif fun h => { h with cqs := h.cqs.set q {
      state := .active, depth := bits (win s fn).qcfg0 12 0, base := (win s fn).qbase
      vector := bits (bits (win s fn).qcfg0 31 24) 5 0, coalCnt := bits (win s fn).qcfg1 7 0
      coalUs := bits (win s fn).qcfg1 25 16, fn } }) := by
    simp only [execQueueCreate, own]
    rw [if_pos isCq, if_pos ⟨by simp [two, most], free, vector, count, time⟩]
  exact ⟨_, allowed, (Tbl.get_set ..).trans (if_pos rfl), rfl⟩

theorem queueCreate_sq {s : State} {fn q cq : Nat} (own : globalQ s fn (bits (win s fn).qsel 7 0) = some q)
    (isSq : bit (win s fn).qsel 8 = false) (link : globalQ s fn (bits (win s fn).qcfg0 31 24) = some cq)
    (two : 2 ≤ bits (win s fn).qcfg0 12 0) (most : bits (win s fn).qcfg0 12 0 ≤ 4096)
    (free : (s.hif.sqs.getD q {}).state = .free) (active : (s.hif.cqs.getD cq {}).state = .active) :
    ∃ t, exec (.queueCreate fn) s = .next t ∧ t.hif.sqs.get q = some {
        state := .active, depth := bits (win s fn).qcfg0 12 0, base := (win s fn).qbase, env := (win s fn).qenv
        fast := bit (win s fn).qcfg0 16, weight := bits (win s fn).qcfg0 23 20 + 1, cq, fn } ∧
      t = { s with hif := { s.hif with sqs := t.hif.sqs } } := by
  have allowed : execQueueCreate fn s = .next (s.modHif fun h => { h with sqs := h.sqs.set q {
      state := .active, depth := bits (win s fn).qcfg0 12 0, base := (win s fn).qbase, env := (win s fn).qenv
      fast := bit (win s fn).qcfg0 16, weight := bits (win s fn).qcfg0 23 20 + 1, cq, fn } }) := by
    simp only [execQueueCreate, own, link]
    rw [if_neg (by simp [isSq]), if_pos ⟨by simp [two, most], free, active⟩]
  exact ⟨_, allowed, (Tbl.get_set ..).trans (if_pos rfl), rfl⟩

/-- The state without an SQ. -/
def eraseSq (q : Nat) (s : State) : State := s.modHif fun h => { h with sqs := h.sqs.erase q }

theorem eraseSq_frees (q : Nat) (s : State) : (eraseSq q s).hif.sqs.get q = none ∧
    (∀ k, k ≠ q → (eraseSq q s).hif.sqs.get k = s.hif.sqs.get k) ∧
    eraseSq q s = { s with hif := { s.hif with sqs := (eraseSq q s).hif.sqs } } :=
  ⟨(Tbl.get_erase ..).trans (if_pos rfl), fun _ hk => (Tbl.get_erase ..).trans (if_neg hk), rfl⟩

/-- An SQ with no command in the device is free at once. -/
theorem queueDelete_sq {s : State} {fn q : Nat} (own : globalQ s fn (bits (win s fn).qsel 7 0) = some q)
    (isSq : bit (win s fn).qsel 8 = false) (used : (s.hif.sqs.getD q {}).state ≠ .free) (idle : sqBusy s q = false) :
    exec (.queueDelete fn) s = .next (eraseSq q s) := by
  show execQueueDelete fn s = _
  simp only [execQueueDelete, own]
  rw [if_neg (by simp [isSq]), if_neg used, if_neg (by simp [idle])]
  rfl

theorem sqDeleteDone_frees {s : State} {q : Nat} (deleting : (s.hif.sqs.getD q {}).state = .deleting)
    (idle : sqBusy s q = false) : exec (.sqDeleteDone q) s = .next (eraseSq q s) :=
  (onEvent_holds (by simp [deleting, idle]) : execSqDeleteDone q s = _)

/-! ### Ranges of the VFs (R56, R83) -/

/-- With no queue and no other range there is nothing that a range within the 256 queues could meet. -/
theorem vfQrangeWrite_first {s : State} {n val : Nat} (lo : 1 ≤ n) (hi : n ≤ 15) (count : bits val 12 8 ≤ 16)
    (last : bits val 7 0 + bits val 12 8 ≤ 256) (noSqs : s.hif.sqs = []) (noCqs : s.hif.cqs = []) (noRanges : s.hif.ranges = []) :
    exec (.vfQrangeWrite 0 n val) s = .next { s with hif := { s.hif with
      ranges := [(n, { base := bits val 7 0, count := bits val 12 8 })] } } := by
  show execVfQrangeWrite 0 n val s = _
  unfold execVfQrangeWrite
  rw [if_neg (by omega), if_neg]
  · simp [noRanges, Tbl.set, State.modHif]
  · simp [noSqs, noCqs, noRanges]
    omega

/-- Settles O23: each row's own lemma; a doorbell's value and a queue's work decide which one of a row applies. -/
theorem queueControl : Obligations.QueueControl :=
  ⟨fun _ _ _ _ _ _ run own hq active hv => sqTailDoorbell_takes run own hq active hv,
    fun _ _ _ _ _ _ run own hq active hv => sqTailDoorbell_stops run own hq active hv,
    fun _ _ _ _ _ _ run own hq active noneWaits hv held => cqHeadDoorbell_releases run own hq active noneWaits hv held,
    fun _ _ _ own isCq two most free vector count time => queueCreate_cq own isCq two most free vector count time,
    fun _ _ _ _ own isSq link two most free active => queueCreate_sq own isSq link two most free active,
    fun s _ q own isSq used idle => ⟨_, queueDelete_sq own isSq used idle, eraseSq_frees q s⟩,
    fun s q deleting idle => ⟨_, sqDeleteDone_frees deleting idle, eraseSq_frees q s⟩,
    fun _ _ _ lo hi count last noSqs noCqs noRanges => vfQrangeWrite_first lo hi count last noSqs noCqs noRanges⟩

end Sys2Proof.Machine
end

section
/-! PROOFS. The fetch of an entry, and commands and entries that wait for FENCE, STALL or coalescing (02 R60 to R65). -/

namespace Sys2Proof.Machine

/-! ### Fetch (R60, R61) -/

theorem tbl_getD_of_get {α : Type} {t : Tbl α} {i : Nat} {x : α} (h : t.get i = some x) (d : α) : t.getD i d = x := by
  rw [Tbl.getD, h, Option.getD_some]

/-- The turn of an SQ counted by its class's arbiter (R61). -/
def turnTaken (sq : Nat) (q : Sq) (h : Hif) : Hif :=
  if q.fast then { h with rrFast := sq }
  else
    { h with
      rrNorm := sq
      rrCount := if decide (h.rrNorm = sq) && decide (0 < h.rrCount) && decide (h.rrCount < q.weight) then h.rrCount + 1 else 1 }

theorem turnTaken_eq (sq : Nat) (q : Sq) (h : Hif) :
    ∃ rrFast rrNorm rrCount, turnTaken sq q h = { h with rrFast, rrNorm, rrCount } := by
  unfold turnTaken
  split
  · exact ⟨sq, h.rrNorm, h.rrCount, rfl⟩
  · exact ⟨h.rrFast, sq, _, rfl⟩

/-- The head of an SQ moved past the entry fetched, and what the fetch told of the CQ's memory noted. -/
def headMoved (sq : Nat) (q : Sq) (f : Fetched) (s : State) : State :=
  modSq sq (fun r => { r with head := (r.head + 1) % r.depth }) (modCq q.cq (fun c => { c with reach := f.cqReachable }) s)

/-- The state that the packet of a fetched entry meets: the head moved, the turn counted, and an envelope flagged that the packet
wants and the entry does not bring. -/
def fetched (sq : Nat) (q : Sq) (f : Fetched) (p : List Word) (s : State) : State :=
  let s := (headMoved sq q f s).modHif (turnTaken sq q)
  if q.env ≠ 0 ∧ f.envelope.isNone ∧ pktAuth p = 3 then flagErr q.fn 3 (localQ s q.fn sq) s else s

theorem fetched_leaves {sq : Nat} {q : Sq} {s : State} (hq : s.hif.sqs.get sq = some q) (f : Fetched) (p : List Word) :
    (fetched sq q f p s).hif.sqs.get sq = some { q with head := (q.head + 1) % q.depth } ∧
      (fetched sq q f p s).hif.cmds = s.hif.cmds ∧ (fetched sq q f p s).hif.retained = s.hif.retained ∧
      (fetched sq q f p s).core = s.core := by
  have moved : (headMoved sq q f s).hif.sqs.get sq = some { q with head := (q.head + 1) % q.depth } :=
    modSq_get_same (s := modCq q.cq (fun c => { c with reach := f.cqReachable }) s) hq _
  obtain ⟨rrFast, rrNorm, rrCount, counted⟩ := turnTaken_eq sq q (headMoved sq q f s).hif
  unfold fetched
  rw [State.modHif, counted]
  extract_lets s1
  split <;> exact ⟨moved, rfl, rfl, rfl⟩

section
variable {s : State} {sq : Nat} {q : Sq} {f : Fetched} (att : List Byte)
variable (takes : takesCommands s = true) (choice : fetchChoice s = some sq) (hq : s.hif.sqs.get sq = some q)
include takes choice hq

theorem commandFetch_arrives {p : List Word} (read : f.packet = some p) : exec (.commandFetch sq f att) s =
    .next (arrive (.pcie q.fn) sq p (if q.env = 0 then none else f.envelope) att (fetched sq q f p s)) := by
  show execCommandFetch sq f att s = _
  unfold execCommandFetch
  rw [if_neg (by simp [takes, choice]), tbl_getD_of_get hq, read]
  rfl

/-- An entry that cannot be read stops its SQ (R60). -/
theorem commandFetch_unread (unread : f.packet = none) :
    ∃ t, exec (.commandFetch sq f att) s = .next t ∧ t.hif.sqs.get sq = some { q with state := .error, err := 3 } ∧
      t.hif.cmds = s.hif.cmds := by
  show ∃ t, execCommandFetch sq f att s = _ ∧ _
  unfold execCommandFetch
  rw [if_neg (by simp [takes, choice]), tbl_getD_of_get hq, unread]
  exact ⟨_, rfl, modSq_get_same (s := modCq q.cq (fun c => { c with reach := f.cqReachable }) s) hq _, rfl⟩

end

/-! ### FENCE and STALL (R62, R64) -/

theorem findCmd_id {s : State} {id : CmdId} {c : Cmd} (h : findCmd s id = some c) : c.id = id := by
  simpa using List.find?_some h

/-- A command changed but in its number is found changed under that number. -/
theorem findCmd_updCmd {s : State} {id : CmdId} {c : Cmd} (h : findCmd s id = some c) {f : Cmd → Cmd}
    (kept : ∀ d, (f d).id = d.id) : findCmd (updCmd id f s) id = some (f c) := by
  have same : (fun d : Cmd => decide (d.id = id)) ∘ (fun d => if d.id = id then f d else d) = fun d => decide (d.id = id) := by
    funext d
    by_cases hd : d.id = id <;> simp [hd, kept]
  unfold findCmd updCmd at *
  rw [State.modHif_hif, List.find?_map, same, h, Option.map_some, if_pos (findCmd_id h)]

section
variable {s : State} {id : CmdId} {c : Cmd} (found : findCmd s id = some c)
include found

theorem fencedCommandStart_starts (fenced : c.phase = .fenced) (up : s.core.ctlReset = false) (mayBegin : mayStart s c = true) :
    exec (.fencedCommandStart id) s = .next (startCmd c s) := by
  show execFencedCommandStart id s = _
  simp only [execFencedCommandStart, found]
  exact if_pos ⟨fenced, up, mayBegin⟩

theorem stallResume_readies (stalled : c.phase = .stalled) (up : s.core.ctlReset = false) :
    ∃ t, exec (.stallResume id) s = .next t ∧ findCmd t id = some { c with phase := .ready } ∧
      t = { s with hif := { s.hif with cmds := t.hif.cmds } } := by
  have runs : execStallResume id s = .next (updCmd id (fun c => { c with phase := .ready }) s) := by
    simp only [execStallResume, found]
    exact if_pos ⟨stalled, up⟩
  exact ⟨_, runs, findCmd_updCmd found fun _ => rfl, rfl⟩

theorem stallTimeout_completes {since : Nat} (stalled : c.phase = .stalled) (at_ : c.stallAt = some since)
    (up : s.core.ctlReset = false) (elapsed : since + ms 10 ≤ s.core.t) :
    Completes (exec (.stallTimeout id) s) c .timeout 0 0 fun u => u = s := by
  refine ⟨s, rfl, ?_⟩
  show execStallTimeout id s = _
  simp only [execStallTimeout, found]
  exact if_pos ⟨stalled, up, by simp [passed, at_, elapsed]⟩

end

/-! ### Coalescing (R63) -/

theorem cqCoalesceTimeout_signals {s : State} {q : Nat} {cq : Cq} (hq : s.hif.cqs.get q = some cq) (unsignalled : 0 < cq.unsig)
    (elapsed : cq.oldest + us cq.coalUs ≤ s.core.t) :
    ∃ t, exec (.cqCoalesceTimeout q) s = .next t ∧ t.out = s.out ++ [.msix cq.fn cq.vector] ∧
      t.hif.cqs.get q = some { cq with unsig := 0 } := by
  have runs : execCqCoalesceTimeout q s = .next (emit (.msix cq.fn cq.vector) (modCq q (fun c => { c with unsig := 0 }) s)) := by
    simp only [execCqCoalesceTimeout, hq]
    exact if_pos ⟨unsignalled, by simp [passed, elapsed]⟩
  exact ⟨_, runs, rfl, (modCq_get_same hq _ :)⟩

/-- Settles O24: an entry read arrives, one that cannot be read stops its SQ, and each wait ends by its own lemma. -/
theorem fetchAndWaits : Obligations.FetchAndWaits :=
  ⟨fun _ _ _ f att p takes choice hq read => ⟨_, commandFetch_arrives att takes choice hq read, fetched_leaves hq f p⟩,
    fun _ _ _ _ att takes choice hq unread => commandFetch_unread att takes choice hq unread,
    fun _ _ _ found fenced up mayBegin => fencedCommandStart_starts found fenced up mayBegin,
    fun _ _ _ found stalled up => stallResume_readies found stalled up,
    fun _ _ _ _ found stalled at_ up elapsed => stallTimeout_completes found stalled at_ up elapsed,
    fun _ _ _ hq unsignalled elapsed => cqCoalesceTimeout_signals hq unsignalled elapsed⟩

end Sys2Proof.Machine
end

section
/-! PROOFS. NOP, IDENTIFY, ABORT and GET_LOG, and the end of a waiting read (02 R74 to R79, 17 R488, R489). -/

namespace Sys2Proof.Machine

section
variable {s : State} {id : CmdId} {c : Cmd}

theorem nop_completes (hr : Runs s .nop id c) : Completes (exec (.nop id) s) c .success 0 0 fun u => u = s :=
  ⟨s, rfl, (onCmd_runs hr : execNop id s = _)⟩

theorem identify_completes (hr : Runs s .identify id c) :
    Completes (exec (.identify id) s) c .success 0 0 fun u => u = emitData c (qw c.pkt 2) (identifyPage s c.fn) s :=
  ⟨_, rfl, (onCmd_runs hr : execIdentify id s = _)⟩

/-! ### ABORT (R74, R76) -/

/-- The command that an ABORT names: its own submitter's, under the tag of dword2. -/
def abortTarget (c : Cmd) : CmdId := { c.id with tag := fld c.pkt 2 15 0 }

/-- What the control plane kept for a command not accepted, forgotten as it is aborted. -/
def abortForgets (target : CmdId) (s : State) : State :=
  (s.modGrn fun g =>
    { g with
      asked := g.asked.filter fun a => a.1 ≠ target
      mapWaits := g.mapWaits.filter fun w => w.id ≠ target }).modTly fun y =>
    { y with arrived := y.arrived.filter fun a => a.1 ≠ target }

/-- What a well-formed ABORT does: it ends what it names where that is not accepted, and otherwise says what became of it. -/
def abortNamed (c : Cmd) (s : State) : State :=
  match findCmd s (abortTarget c) with
  | some d =>
    if d.accepted ∨ abortTarget c = c.id then complete c .success 1 0 s
    else complete c .success 0 0 (complete d .aborted 0 0 (abortForgets (abortTarget c) s))
  | none => complete c .success (if endedUnder s (abortTarget c) then 1 else 2) 0 s

theorem abort_runs (hr : Runs s .abort id c) (formed : fld c.pkt 2 31 16 = 0) :
    exec (.abort id) s = .next (abortNamed c s) := by
  show execAbort id s = _
  unfold execAbort
  rw [onCmd_runs hr]
  exact congrArg _ (checks_pass (by simp [passes, fields, rsv, formed]))

theorem abort_ends {d : Cmd} (hr : Runs s .abort id c) (formed : fld c.pkt 2 31 16 = 0)
    (found : findCmd s (abortTarget c) = some d) (waits : d.accepted = false) (other : abortTarget c ≠ c.id) :
    Completes (exec (.abort id) s) c .success 0 0 fun u =>
      ∃ v, u = complete d .aborted 0 0 v ∧ v = { s with grn := v.grn, tly := v.tly } := by
  refine ⟨_, ⟨abortForgets (abortTarget c) s, rfl, rfl⟩, ?_⟩
  rw [abort_runs hr formed, abortNamed, found]
  exact congrArg _ (if_neg (by simp [waits, other]))

theorem abort_tooLate {d : Cmd} (hr : Runs s .abort id c) (formed : fld c.pkt 2 31 16 = 0)
    (found : findCmd s (abortTarget c) = some d) (accepted : d.accepted = true) :
    Completes (exec (.abort id) s) c .success 1 0 fun u => u = s := by
  refine ⟨s, rfl, ?_⟩
  rw [abort_runs hr formed, abortNamed, found]
  exact congrArg _ (if_pos (.inl accepted))

theorem abort_unknown (hr : Runs s .abort id c) (formed : fld c.pkt 2 31 16 = 0) (found : findCmd s (abortTarget c) = none)
    (notEnded : endedUnder s (abortTarget c) = false) : Completes (exec (.abort id) s) c .success 2 0 fun u => u = s := by
  refine ⟨s, rfl, ?_⟩
  rw [abort_runs hr formed, abortNamed, found, notEnded]
  rfl

/-! ### GET_LOG (R78, R79, R488, R489) -/

/-- With bits [31:1] of dword6 all 0, its reserved bits [31:2] and WAIT are 0. -/
theorem fld_above_release {p : List Word} (h : fld p 6 31 1 = 0) : fld p 6 31 2 = 0 ∧ fbit p 6 1 = false := by
  unfold fld bits at h ⊢
  unfold fbit bit
  rw [Nat.shiftRight_eq_div_pow] at h ⊢
  rw [Nat.testBit_eq_decide_div_mod_eq]
  have small : dw p 6 < 2 ^ 32 := (p.getD 6 0).isLt
  simp
  omega

/-- A GET_LOG of a page that exists, with no reserved bit and no WAIT, reads its page. -/
theorem getLog_runs {page : Nat} (hr : Runs s .getLog id c) (named : dw c.pkt 2 = page) (first : page ≠ 0) (last : page ≤ 5)
    (plain : fld c.pkt 6 31 1 = 0) :
    exec (.getLog id) s = .next (
      if page = 1 then
        answerPage c ((((errFrom s (fld c.pkt 7 23 0)).filter fun r => decide (c.fn = 0) || decide (r.fn = c.fn)).take
          (dw c.pkt 5 / 64)).flatMap ErrRec.bytes) s
      else if page = 2 then answerEvents c s
      else if page = 3 then answerPage c (s.core.causes.flatMap CauseRec.bytes) s
      else if page = 4 then answerPage c (attemptPage s) s
      else answerRetained c s) := by
  obtain ⟨reserved, noWait⟩ := fld_above_release plain
  have low : fld c.pkt 2 7 0 = page := by
    simp [fld, bits, named]
    omega
  have high : fld c.pkt 2 31 8 = 0 := by
    simp [fld, bits, named, Nat.shiftRight_eq_div_pow]
    omega
  show execGetLog id s = _
  unfold execGetLog
  rw [onCmd_runs hr]
  dsimp only
  rw [checks_pass (by simp [passes, bad, fields, rsv, low, high, reserved, noWait, first, last]), low]

theorem getLog_causes (hr : Runs s .getLog id c) (named : dw c.pkt 2 = 3) (plain : fld c.pkt 6 31 1 = 0) :
    Completes (exec (.getLog id) s) c .success ((s.core.causes.flatMap CauseRec.bytes).take (dw c.pkt 5)).length 0 fun u =>
      u = emitData c (qw c.pkt 3) ((s.core.causes.flatMap CauseRec.bytes).take (dw c.pkt 5)) s :=
  ⟨_, rfl, getLog_runs hr named (by decide) (by decide) plain⟩

theorem getLog_events (hr : Runs s .getLog id c) (named : dw c.pkt 2 = 2) (plain : fld c.pkt 6 31 1 = 0) :
    exec (.getLog id) s = .next (answerRing c s) :=
  (getLog_runs hr named (by decide) (by decide) plain).trans
    (congrArg _ (if_pos (.inl (fld_above_release plain).2) : answerEvents c s = _))

theorem eventWaitTimeout_completes {limit : Nat} (found : findCmd s id = some c) (waits : c.phase = .waitRead (some limit))
    (elapsed : limit ≤ s.core.t) : Completes (exec (.eventWaitTimeout id) s) c .success 0 0 fun u => u = s := by
  refine ⟨s, rfl, ?_⟩
  show execEventWaitTimeout id s = _
  simp only [execEventWaitTimeout, found, waits]
  exact onEvent_holds (by simp [elapsed])

end

/-- Settles O25: each row's own lemma; what an ABORT names, and the page of a GET_LOG, decide which one applies. -/
theorem deviceCommands : Obligations.DeviceCommands :=
  ⟨fun _ _ _ hr => nop_completes hr, fun _ _ _ hr => identify_completes hr,
    fun _ _ _ _ hr formed found waits other => abort_ends hr formed found waits other,
    fun _ _ _ _ hr formed found accepted => abort_tooLate hr formed found accepted,
    fun _ _ _ hr formed found notEnded => abort_unknown hr formed found notEnded,
    fun _ _ _ hr named plain => getLog_causes hr named plain, fun _ _ _ hr named plain => getLog_events hr named plain,
    fun _ _ _ _ found waits elapsed => eventWaitTimeout_completes found waits elapsed⟩

end Sys2Proof.Machine
end

section
/-! PROOFS. Features, and function level and hot resets (02 R67, R71 to R73, R80). -/

namespace Sys2Proof.Machine

/-! ### SET_FEATURE and GET_FEATURE (R80) -/

section
variable {s : State} {id : CmdId} {c : Cmd} {f : FeatRule}

theorem feature_setFeature (n target v d : Nat) (s : State) : feature (setFeature n target v s) n target d = v :=
  (Tbl.getD_set ..).trans (if_pos rfl)

/-- A feature that is neither the forward member, the BAR4 window nor part of the domain's digest is its value alone. -/
theorem putFeature_plain {n : Nat} (forward : n ≠ 0x80) (bar4 : n ≠ 0x44) (digest : n ≠ 0x81) (digest' : n ≠ 0x82)
    (target v key : Nat) : putFeature c n target v key s = setFeature n key v s := by
  simp [putFeature, forward, bar4, digest, digest']

theorem setFeature_completes (hr : Runs s .setFeature id c) (formed : fld c.pkt 2 31 8 = 0)
    (rule : featRule s c.fn (fld c.pkt 2 7 0) (dw c.pkt 3) (qw c.pkt 4) = some f) (allowed : f.pf = true → c.fn = 0)
    (target : f.target = true) (value : f.value = true) (map : fld c.pkt 2 7 0 ≠ 0x61) (forward : fld c.pkt 2 7 0 ≠ 0x80)
    (bar4 : fld c.pkt 2 7 0 ≠ 0x44) (digest : fld c.pkt 2 7 0 ≠ 0x81) (digest' : fld c.pkt 2 7 0 ≠ 0x82) :
    Completes (exec (.setFeature id) s) c .success 0 0 fun u =>
      feature u (fld c.pkt 2 7 0) f.key f.default = qw c.pkt 4 ∧ u = { s with hif := { s.hif with feats := u.hif.feats } } := by
  have issuer : f.pf = false ∨ c.fn = 0 := by
    cases pf : f.pf with
    | false => exact .inl rfl
    | true => exact .inr (allowed pf)
  refine ⟨setFeature (fld c.pkt 2 7 0) f.key (qw c.pkt 4) s, ⟨feature_setFeature .., rfl⟩, ?_⟩
  show execSetFeature id s = _
  unfold execSetFeature
  rw [onCmd_runs hr]
  simp only [rule]
  rw [checks_pass (by simp [passes, fields, rsv, busy, formed, target, value, map, forward, issuer]),
    putFeature_plain forward bar4 digest digest']
  rfl

theorem getFeature_completes (hr : Runs s .getFeature id c) (formed : fld c.pkt 2 31 8 = 0)
    (rule : featRule s c.fn (fld c.pkt 2 7 0) (dw c.pkt 3) 0 = some f) (target : f.target = true)
    (bar4 : fld c.pkt 2 7 0 ≠ 0x44) (forward : fld c.pkt 2 7 0 ≠ 0x80) :
    Completes (exec (.getFeature id) s) c .success (feature s (fld c.pkt 2 7 0) f.key f.default % 2 ^ 32)
      (feature s (fld c.pkt 2 7 0) f.key f.default / 2 ^ 32) fun u => u = s := by
  have plain : featureNow s c.fn (fld c.pkt 2 7 0) (dw c.pkt 3) f = feature s (fld c.pkt 2 7 0) f.key f.default := by
    simp [featureNow, forward, bar4]
  refine ⟨s, rfl, ?_⟩
  show execGetFeature id s = _
  unfold execGetFeature
  rw [onCmd_runs hr]
  simp only [rule]
  rw [checks_pass (by simp [passes, fields, rsv, formed, target]), plain]

end

/-! ### What waits for a CQ that goes is retained (R67) -/

theorem retainAll_eq (fn : Nat) (l : List CqItem) (s : State) :
    ∃ retained, retainAll fn l s = { s with hif := { s.hif with retained } } := by
  unfold retainAll
  induction l generalizing s with
  | nil => exact ⟨s.hif.retained, rfl⟩
  | cons i l ih =>
    obtain ⟨retained, h⟩ := ih
      (retain (.pcie fn) (retRecOf (.pcie fn) i.k (s.hif.sqs.getD i.sq {}).head i.sq i.opcode i.context s) s)
    exact ⟨retained, h⟩

theorem retainWaiting_eq (acceptedOnly : Bool) (q : Nat) (s : State) :
    ∃ cqs retained, retainWaiting acceptedOnly q s = { s with hif := { s.hif with cqs, retained } } := by
  unfold retainWaiting
  split
  · exact ⟨s.hif.cqs, s.hif.retained, rfl⟩
  · rename_i cq _
    obtain ⟨retained, h⟩ := retainAll_eq cq.fn (cq.waiting.filter fun i => i.accepted || !acceptedOnly)
      (modCq q (fun c => { c with waiting := [] }) s)
    exact ⟨_, retained, h⟩

theorem forEach_retainWaiting_eq (acceptedOnly : Bool) (l : List Nat) (s : State) :
    ∃ cqs retained, forEach l (retainWaiting acceptedOnly) s = { s with hif := { s.hif with cqs, retained } } := by
  unfold forEach
  induction l generalizing s with
  | nil => exact ⟨s.hif.cqs, s.hif.retained, rfl⟩
  | cons q l ih =>
    obtain ⟨cqs, retained, first⟩ := retainWaiting_eq acceptedOnly q s
    obtain ⟨cqs', retained', rest⟩ := ih (retainWaiting acceptedOnly q s)
    exact ⟨cqs', retained', rest.trans (by rw [first])⟩

/-! ### Function level and hot reset (R71 to R73) -/

/-- The commands of the device after the host interface of some functions is reset: theirs go on as orphans where accepted. -/
def cmdsLeft (fns : List Nat) (l : List Cmd) : List Cmd :=
  (l.filter fun c => !(ofFns fns c && !c.accepted)).map fun c => if ofFns fns c then { c with orphan := true } else c

/-- The host interface alone is reset, with what the control plane kept for the commands that go. -/
theorem resetHostIf_eq (fns : List Nat) (s : State) :
    ∃ (cqs : Tbl Cq) (retained : Tbl RetSet) (grn : Grn) (tly : Tly), resetHostIf fns s =
      { s with
        hif := { s.hif with
          sqs := s.hif.sqs.filter fun e => !fns.contains e.2.fn
          cqs := cqs.filter fun e => !fns.contains e.2.fn
          cmds := cmdsLeft fns s.hif.cmds, retained }
        grn, tly } := by
  unfold resetHostIf
  extract_lets gone s1 s2 s3 cqs s4
  obtain ⟨cqs', retained, h⟩ := forEach_retainWaiting_eq true cqs s3
  have h4 : s4 = _ := h
  rw [h4]
  exact ⟨cqs', retained, s3.grn, s3.tly, rfl⟩

theorem releaseDue_none {s : State} (h : s.hif.freeing = []) : releaseDue s = s := by
  unfold releaseDue
  rw [h]
  rfl

/-- With FLR_SCOPE INTERFACE for each VF named, and no function that waits to be freed, a reset takes the host interface and no
objects. -/
theorem flr_interface {s : State} (fns : List Nat) (scope : ∀ n ∈ fns, n ≠ 0 → feature s 0x01 n 0 = 0)
    (freeing : s.hif.freeing = []) : flr fns s = resetHostIf fns s := by
  obtain ⟨cqs, retained, grn, tly, h⟩ := resetHostIf_eq fns s
  have feats (n : Nat) : feature (resetHostIf fns s) 0x01 n 0 = feature s 0x01 n 0 := by
    rw [h]
    rfl
  have noneWaits : (resetHostIf fns s).hif.freeing = [] := by
    rw [h]
    exact freeing
  have noScope : (fns.filter fun f => decide (f ≠ 0) && decide (feature (resetHostIf fns s) 0x01 f 0 = 1)) = [] := by
    rw [List.filter_eq_nil_iff]
    intro n hn
    by_cases zero : n = 0
    · simp [zero]
    · simp [feats, scope n hn zero]
  unfold flr
  extract_lets s1 l
  have waiting : (s1.hif.freeing.filter fun f => !l.contains f) ++ l = s1.hif.freeing := by
    rw [show s1.hif.freeing = [] from noneWaits, show l = [] from noScope]
    rfl
  have kept : (s1.modHif fun h => { h with freeing := (h.freeing.filter fun f => !l.contains f) ++ l }) = s1 := by
    rw [State.modHif, waiting]
  exact (congrArg releaseDue kept).trans (releaseDue_none noneWaits)

theorem mem_cmdsLeft {fns : List Nat} {l : List Cmd} {n : Nat} (hn : n ∈ fns) :
    ∀ d ∈ cmdsLeft fns l, d.id.origin = .pcie n → d.detached = true ∨ d.orphan = true := by
  intro d hd origin
  obtain ⟨c, -, rfl⟩ := List.mem_map.1 hd
  by_cases own : ofFns fns c = true
  · simp [own]
  · rw [if_neg own] at origin ⊢
    exact .inl (by simpa [ofFns, origin, hn] using own)

/-- What a reset of the host interface takes from its functions, and what it leaves. -/
theorem resetHostIf_takes (fns : List Nat) (s : State) :
    (∀ e ∈ (resetHostIf fns s).hif.sqs, e.2.fn ∉ fns) ∧ (∀ e ∈ (resetHostIf fns s).hif.cqs, e.2.fn ∉ fns) ∧
      (∀ n ∈ fns, ∀ d ∈ (resetHostIf fns s).hif.cmds, d.id.origin = .pcie n → d.detached = true ∨ d.orphan = true) ∧
      (resetHostIf fns s).mem = s.mem ∧ (resetHostIf fns s).trn = s.trn ∧ (resetHostIf fns s).brk = s.brk := by
  obtain ⟨cqs, retained, grn, tly, h⟩ := resetHostIf_eq fns s
  rw [h]
  exact ⟨fun e he => by simpa using (List.mem_filter.1 he).2, fun e he => by simpa using (List.mem_filter.1 he).2,
    fun _ hn => mem_cmdsLeft hn, rfl, rfl, rfl⟩

theorem flrVf_takes {s : State} {n : Nat} (lo : 1 ≤ n) (hi : n ≤ 15) (hp : s.pwr.pll = true) (scope : feature s 0x01 n 0 = 0)
    (freeing : s.hif.freeing = []) :
    ∃ t, exec (.flrVf n) s = .next t ∧ (∀ e ∈ t.hif.sqs, e.2.fn ≠ n) ∧ (∀ e ∈ t.hif.cqs, e.2.fn ≠ n) ∧
      (∀ d ∈ t.hif.cmds, d.id.origin = .pcie n → d.detached = true ∨ d.orphan = true) ∧ t.mem = s.mem ∧ t.trn = s.trn ∧
      t.brk = s.brk := by
  obtain ⟨sqs, cqs, cmds, mem, trn, brk⟩ := resetHostIf_takes [n] s
  have runs : execFlrVf n s = .next (resetHostIf [n] s) :=
    (onEvent_holds (by simp [lo, hi, hp])).trans (congrArg _ (flr_interface [n] (by simp [scope]) freeing))
  exact ⟨_, runs, by simpa using sqs, by simpa using cqs, cmds n (List.mem_singleton.2 rfl), mem, trn, brk⟩

/-- A reset of the PF, and a hot reset with it, takes the queues of all 16 functions. -/
theorem flrPf_takes {s : State} (hp : s.pwr.pll = true) (scope : ∀ n, feature s 0x01 n 0 = 0) (freeing : s.hif.freeing = []) :
    ∃ t, exec .flrPf s = .next t ∧ (∀ e ∈ t.hif.sqs, 16 ≤ e.2.fn) ∧ (∀ e ∈ t.hif.cqs, 16 ≤ e.2.fn) ∧ t.mem = s.mem ∧
      t.brk = s.brk ∧ exec .pcieHotReset s = .next t := by
  obtain ⟨sqs, cqs, -, mem, -, brk⟩ := resetHostIf_takes (List.range 16) s
  have runs : onEvent s.pwr.pll s flrPf = .next (resetHostIf (List.range 16) s) :=
    (onEvent_holds hp).trans (congrArg _ (flr_interface (List.range 16) (fun n _ _ => scope n) freeing))
  exact ⟨_, runs, by simpa using sqs, by simpa using cqs, mem, brk, runs⟩

/-- Settles O26: the features by their own lemmas, and each reset as the host interface's of its functions. -/
theorem featuresAndFlr : Obligations.FeaturesAndFlr := by
  refine ⟨?set, ?get, fun _ _ lo hi hp scope freeing => flrVf_takes lo hi hp scope freeing,
    fun _ hp scope freeing => flrPf_takes hp scope freeing⟩
  case set =>
    intro s id c n f hr hn
    subst hn
    exact setFeature_completes hr
  case get =>
    intro s id c n f hr hn
    subst hn
    exact getFeature_completes hr

end Sys2Proof.Machine
end

section
/-! PROOFS. The checks of a packet, their order, and a packet that fails one as it arrives (02 R48, R49, R58, R66, 14 R398). -/

namespace Sys2Proof.Machine

/-! ### The checks in their order (R48, R49) -/

section
variable {s : State} {o : Origin} {env : Option Envelope} {fast : Bool} {p : List Word} {op : Opc}

theorem checkPacket_opcode (unknown : Opc.ofCode (pktOpcode p) = none) :
    checkPacket s o env fast p = .error (.invalidOpcode, 0, 0) := by
  simp only [checkPacket, unknown]

theorem checkPacket_reserved {off : Nat} (known : Opc.ofCode (pktOpcode p) = some op) (reserved : reservedAt p op = some off) :
    checkPacket s o env fast p = .error (.invalidField, off, 0) := by
  simp only [checkPacket, known, reserved]

theorem checkPacket_role (known : Opc.ofCode (pktOpcode p) = some op) (formed : reservedAt p op = none)
    (role : roleRefuses s op = true) : checkPacket s o env fast p = .error (.notPermitted, 1, 0) := by
  simp only [checkPacket, known, formed, role, if_true]

theorem checkPacket_carrier {r : Nat} (known : Opc.ofCode (pktOpcode p) = some op) (formed : reservedAt p op = none)
    (role : roleRefuses s op = false) (carrier : carrierRefuses o env p op = some r) :
    checkPacket s o env fast p = .error (.notPermitted, r, 0) := by
  simp [checkPacket, known, formed, role, carrier]

theorem lateRefusal_issuer {r : Nat} (issuer : issuerRefuses (originFn o) p op = some r) :
    lateRefusal s (originFn o) fast p op = some (r, 0) := by
  simp only [lateRefusal, issuer]

theorem lateRefusal_none (issuer : issuerRefuses (originFn o) p op = none) (queueClass : fast = true → fastOpcode op = true)
    (sleep : sleepRule s = true → sleepOpcode op = true) : lateRefusal s (originFn o) fast p op = none := by
  simp only [lateRefusal, issuer]
  rw [if_neg (by simpa using queueClass), if_neg (by simpa using sleep)]

theorem checkPacket_issuer {r : Nat} (known : Opc.ofCode (pktOpcode p) = some op) (formed : reservedAt p op = none)
    (role : roleRefuses s op = false) (carrier : carrierRefuses o env p op = none) (auth : pktAuth p ≠ 3)
    (issuer : issuerRefuses (originFn o) p op = some r) : checkPacket s o env fast p = .error (.notPermitted, r, 0) := by
  simp [checkPacket, known, formed, role, carrier, auth, lateRefusal_issuer issuer]

theorem checkPacket_passes (known : Opc.ofCode (pktOpcode p) = some op) (formed : reservedAt p op = none)
    (role : roleRefuses s op = false) (carrier : carrierRefuses o env p op = none)
    (rest : pktAuth p = 3 ∨ (issuerRefuses (originFn o) p op = none ∧ (fast = true → fastOpcode op = true) ∧
      (sleepRule s = true → sleepOpcode op = true))) : checkPacket s o env fast p = .ok op := by
  obtain verifiedLater | ⟨issuer, queueClass, sleep⟩ := rest
  · simp [checkPacket, known, formed, role, carrier, verifiedLater]
  · simp [checkPacket, known, formed, role, carrier, lateRefusal_none issuer queueClass sleep]

/-- In a role with no fill running, check 3 reads the role's column of the catalogue. -/
theorem roleRefuses_row (op : Opc) (fill : s.core.fill = false) :
    (s.core.role = .mill → roleRefuses s op = !op.row.mill) ∧
      (s.core.role = .granary → roleRefuses s op = !op.row.granary) :=
  ⟨fun role => by simp [roleRefuses, role, fill], fun role => by simp [roleRefuses, role, fill]⟩

end

/-! ### A completion delivered leaves the commands in the device -/

theorem retain_cmds (o : Origin) (r : RetRec) (s : State) : (retain o r s).hif.cmds = s.hif.cmds := rfl

theorem retainAll_cmds (fn : Nat) (l : List CqItem) (s : State) : (retainAll fn l s).hif.cmds = s.hif.cmds := by
  obtain ⟨retained, h⟩ := retainAll_eq fn l s
  rw [h]

theorem cqWrite_cmds (q : Nat) (i : CqItem) (s : State) : (cqWrite q i s).hif.cmds = s.hif.cmds := by
  unfold cqWrite
  split
  · rfl
  · extract_lets
    split <;> rfl

/-- A completion is written, waits or is retained. -/
theorem cqPut_cmds (fn q : Nat) (i : CqItem) (s : State) : (cqPut fn q i s).hif.cmds = s.hif.cmds := by
  unfold cqPut
  split
  · exact retain_cmds ..
  · split
    · split
      · exact cqWrite_cmds ..
      · rfl
    · extract_lets stopped
      refine (retain_cmds ..).trans ?_
      unfold stopped
      split
      · exact retainAll_cmds ..
      · rfl

theorem sendMsg_hif (m : Nat) (b : DomBody) (s : State) : (sendMsg m b s).hif = s.hif := by
  unfold sendMsg
  split <;> rfl

theorem deliverK_cmds (c : Cmd) (k : Completion) (out : List Byte) (s : State) :
    (deliverK c k out s).hif.cmds = s.hif.cmds := by
  unfold deliverK
  extract_lets opcode
  split
  · split
    · exact retain_cmds ..
    · exact cqPut_cmds ..
  · split
    · exact retain_cmds ..
    · rfl
  · exact (congrArg Hif.cmds (sendMsg_hif ..)).trans (retain_cmds ..)

/-! ### A packet refused as it arrives (R17, R66, R69) -/

/-- The command that a packet names before its opcode is known. -/
def packetCmd (o : Origin) (sq : Nat) (p : List Word) (env : Option Envelope) (input : List Byte) : Cmd :=
  { id := ⟨o, pktTag p⟩, op := .nop, pkt := p, sq, env, input }

/-- A tag that is still outstanding is refused, and nothing else is done (R66). -/
theorem arrive_outstanding {s : State} {o : Origin} {sq : Nat} {p : List Word} {env : Option Envelope} {input : List Byte} {c : Cmd}
    (found : findCmd s ⟨o, pktTag p⟩ = some c) : arrive o sq p env input s =
      deliverK (packetCmd o sq p env input) { tag := pktTag p, status := .invalidField, result := 2 } [] s := by
  unfold arrive
  extract_lets c0 fast forward
  exact if_pos (by simp [c0, found])

/-- A packet that came by no SQ, under a tag neither outstanding nor retained, and that fails a check, is answered with its
status; one that names BUDGET_WRITE is logged first. -/
theorem arrive_refused {s : State} {o : Origin} {sq : Nat} {p : List Word} {env : Option Envelope} {input : List Byte} {st : Status}
    {r r2 : Nat} (new : findCmd s ⟨o, pktTag p⟩ = none) (noRecords : s.hif.retained.getD (retKey o) {} = {})
    (noSq : ∀ fn, o ≠ .pcie fn) (fails : checkPacket s o env false p = .error (st, r, r2)) : arrive o sq p env input s =
      deliverK (packetCmd o sq p env input) { tag := pktTag p, status := st, result := r, result2 := r2 } []
        (logRefused (packetCmd o sq p env input) st s) := by
  unfold arrive
  cases o with
  | pcie fn => exact absurd rfl (noSq fn)
  | usb => simp [new, noRecords, fails, packetCmd, Cmd.tag]
  | domain m fn => simp [new, noRecords, fails, packetCmd, Cmd.tag]

theorem logRefused_other {c : Cmd} (h : pktOpcode c.pkt ≠ 0xA2) (st : Status) (s : State) : logRefused c st s = s := if_neg h

theorem logRefused_budget {c : Cmd} (h : pktOpcode c.pkt = 0xA2) (st : Status) (s : State) :
    logRefused c st s = logAttempt c st s := if_pos h

/-- Settles O60: the checks one by one, then a packet that fails one and a packet under an outstanding tag. -/
theorem packetChecks : Obligations.PacketChecks := by
  refine ⟨fun _ _ _ _ _ unknown => checkPacket_opcode unknown,
    fun _ _ _ _ _ _ _ known reserved => checkPacket_reserved known reserved,
    fun _ _ _ _ _ _ known formed role => checkPacket_role known formed role,
    fun _ _ _ _ _ _ _ known formed role carrier => checkPacket_carrier known formed role carrier,
    fun _ _ _ _ _ _ _ known formed role carrier auth issuer => checkPacket_issuer known formed role carrier auth issuer,
    fun _ _ _ _ _ _ known formed role carrier rest => checkPacket_passes known formed role carrier rest,
    fun _ op fill => roleRefuses_row op fill, ?refused, ?refusedBudget, ?outstanding⟩
  case refused =>
    intro s o sq p env input st r r2 new noRecords noSq fails other
    rw [arrive_refused new noRecords noSq fails, logRefused_other other]
    exact ⟨deliverK_told .., deliverK_cmds ..⟩
  case refusedBudget =>
    intro s o sq p env input st r r2 new noRecords noSq fails budget
    rw [arrive_refused new noRecords noSq fails, logRefused_budget budget, (deliverK_told ..).store, deliverK_cmds]
    exact ⟨rfl, rfl⟩
  case outstanding =>
    intro s o sq p env input c found
    rw [arrive_outstanding found]
    exact ⟨deliverK_told .., deliverK_cmds ..⟩

end Sys2Proof.Machine
end

section
/-! PROOFS. Races, turns and sails: how each is changed, and what rings, events and samples leave of them (03 R84 to R108,
04 R121 to R139). -/

namespace Sys2Proof.Machine

/-! ### What no access to memory and no event touches -/

/-- The races, cogs, turns, sails and items. -/
def State.wheel (s : State) : Whl × Trn := (s.whl, s.trn)

theorem wheel_whl {s t : State} (h : t.wheel = s.wheel) : t.whl = s.whl := congrArg Prod.fst h

theorem wheel_trn {s t : State} (h : t.wheel = s.wheel) : t.trn = s.trn := congrArg Prod.snd h

theorem Told.wheel {s t : State} (h : Told s t) : t.wheel = s.wheel := Prod.ext h.whl h.trn

@[simp] theorem ite_wheel (c : Prop) [Decidable c] (a b : State) :
    (if c then a else b).wheel = if c then a.wheel else b.wheel := apply_ite ..

@[simp] theorem foldl_wheel {α : Type} {f : State → α → State} (h : ∀ s a, (f s a).wheel = s.wheel) (l : List α) (s : State) :
    (l.foldl f s).wheel = s.wheel := by
  induction l generalizing s with
  | nil => rfl
  | cons a l ih => exact (ih _).trans (h s a)

section
variable (s : State)

@[simp] theorem State.modMem_wheel (f : Mem → Mem) : (s.modMem f).wheel = s.wheel := rfl
@[simp] theorem State.modGrn_wheel (f : Grn → Grn) : (s.modGrn f).wheel = s.wheel := rfl
@[simp] theorem State.modEvt_wheel (f : Evt → Evt) : (s.modEvt f).wheel = s.wheel := rfl
@[simp] theorem emit_wheel (o : Output) : (emit o s).wheel = s.wheel := rfl
@[simp] theorem pushJob_wheel (n : Nat) (internal : Bool) (j : Job) : (pushJob n internal j s).wheel = s.wheel := rfl
@[simp] theorem raise_wheel (code fn obj0 obj1 pos arg arg2 : Nat) : (raise code fn obj0 obj1 pos arg arg2 s).wheel = s.wheel :=
  (raise_told ..).wheel
@[simp] theorem raisePf_wheel (code obj0 arg : Nat) : (raisePf code obj0 arg s).wheel = s.wheel := (raisePf_told ..).wheel
@[simp] theorem logError_wheel (e : Err) : (logError e s).wheel = s.wheel := (logError_told ..).wheel

/-! ### Writes and reads of memory (R191) -/

@[simp] theorem writeSeg_wheel (g : Seg) (l : List PByte) : (writeSeg g l s).wheel = s.wheel := by
  unfold writeSeg
  split <;> simp

@[simp] theorem writeSegs_wheel (gs : List Seg) (l : List PByte) : (writeSegs gs l s).wheel = s.wheel := by
  induction gs generalizing l s with
  | nil => rfl
  | cons g gs ih => exact (ih ..).trans (writeSeg_wheel ..)

@[simp] theorem putHeld_wheel (h : Held) (off : Nat) (data : List Byte) : (putHeld h off data s).wheel = s.wheel :=
  writeSegs_wheel ..

@[simp] theorem noteWalks_wheel (h : Held) : (noteWalks h s).wheel = s.wheel := by
  unfold noteWalks
  split <;> rfl

@[simp] theorem weaken_wheel (bus : Bus) : (weaken bus s).wheel = s.wheel := by
  unfold weaken
  split <;> rfl

@[simp] theorem dramCe_wheel (a : Nat) : (dramCe a s).wheel = s.wheel := by
  unfold dramCe
  extract_lets s1
  split <;> rfl

@[simp] theorem meetLine_wheel (e : Nat × Bool) : (meetLine s e).wheel = s.wheel := by
  simp [meetLine]

@[simp] theorem dramUe_wheel (a : Nat) : (dramUe a s).wheel = s.wheel := by
  simp [dramUe, noteErr]

@[simp] theorem meetWeak_wheel (l : List Seg) : (meetWeak l s).wheel = s.wheel := by
  simp [meetWeak, meetCells]

@[simp] theorem meetPoison_wheel (l : List Seg) : (meetPoison l s).wheel = s.wheel := by
  unfold meetPoison
  split <;> simp

@[simp] theorem getHeld_wheel (h : Held) (off n : Nat) : (getHeld h off n s).2.wheel = s.wheel := by
  simp [getHeld, readMem]

/-! ### Ring headers and samples (R91, R96, R476) -/

@[simp] theorem putTailHeader_wheel (rid : Nat) : (putTailHeader rid s).wheel = s.wheel := by
  unfold putTailHeader
  split <;> simp

@[simp] theorem putHeadHeader_wheel (rid : Nat) : (putHeadHeader rid s).wheel = s.wheel := by
  unfold putHeadHeader
  split <;> simp

@[simp] theorem sample_wheel (source x : Nat) (p : Mon → Bool) : (sample source x p s).wheel = s.wheel := by
  simp [sample]

@[simp] theorem sampleFrame_wheel (rid : Nat) (f : FrameJob) : (sampleFrame rid f s).wheel = s.wheel := by
  unfold sampleFrame
  split
  · rfl
  · simp

end

/-! ### A race that changes -/

theorem raceOf_whl {s t : State} (h : t.whl = s.whl) (k : Nat) : raceOf t k = raceOf s k := by
  unfold raceOf
  rw [h]

theorem raceOf_wheel {s t : State} (h : t.wheel = s.wheel) (k : Nat) : raceOf t k = raceOf s k := raceOf_whl (wheel_whl h) k

theorem raceOf_modRace_same {s : State} {rid : Nat} {r : Race} (h : raceOf s rid = some r) (f : Race → Race) :
    raceOf (modRace rid f s) rid = some (f r) := by
  show (s.whl.races.modify rid f).get rid = _
  rw [Tbl.get_modify, if_pos rfl, show s.whl.races.get rid = some r from h, Option.map_some]

theorem raceOf_modRace_other {k rid : Nat} (h : k ≠ rid) (f : Race → Race) (s : State) :
    raceOf (modRace rid f s) k = raceOf s k := (Tbl.get_modify ..).trans (if_neg h)

theorem modRace_trn (rid : Nat) (f : Race → Race) (s : State) : (modRace rid f s).trn = s.trn := rfl

theorem modRace_eq (rid : Nat) (f : Race → Race) (s : State) : modRace rid f s = { s with whl := (modRace rid f s).whl } := rfl

/-! ### A tailrace: frames and full rings (R97, R106, R107) -/

theorem Race.release_w (now n : Nat) (r : Race) : (r.release now n).w = r.w + n := by
  unfold Race.release
  by_cases silent : n = 0
  · rw [if_pos silent]
  · rw [if_neg silent]
    cases r.tstate <;> rfl

/-- A frame of no smp starts nothing. -/
theorem Race.release_none (now : Nat) (r : Race) : r.release now 0 = r := rfl

/-- A race after a frame of its tailrace has gone into the ring (R90, R97, R107). -/
def Race.framed (now flags nsmp turn sail : Nat) (r : Race) : Race :=
  let x := { r.release now nsmp with outSeq := (r.outSeq + 1) % 2 ^ 32, lastTurn := turn, lastSail := sail }
  if bit flags 5 || bit flags 6 then x.setFinal else x

theorem Race.framed_w (now flags nsmp turn sail : Nat) (r : Race) : (r.framed now flags nsmp turn sail).w = r.w + nsmp := by
  unfold Race.framed
  extract_lets x
  have advanced : x.w = r.w + nsmp := r.release_w now nsmp
  split <;> exact advanced

theorem Race.framed_outSeq (now flags nsmp turn sail : Nat) (r : Race) :
    (r.framed now flags nsmp turn sail).outSeq = (r.outSeq + 1) % 2 ^ 32 := by
  unfold Race.framed
  split <;> rfl

theorem raceOf_putFrame {s : State} {rid : Nat} {r : Race} (h : raceOf s rid = some r) (flags nsmp : Nat) (payload : List Byte)
    (check time turn sail : Nat) : raceOf (putFrame rid flags nsmp payload check time turn sail s) rid =
      some (r.framed s.core.time flags nsmp turn sail) := by
  unfold putFrame
  split
  case h_1 closed => cases h.symm.trans closed
  case h_2 q opened =>
  obtain rfl : r = q := Option.some.inj (h.symm.trans opened)
  extract_lets off desc s1 s2 s3 s4
  have written : s2.wheel = s.wheel := by simp [s2, s1]
  have clock : s2.core = s.core := steady_core (by simp [s2, s1])
  have framed := raceOf_modRace_same ((raceOf_wheel written rid).trans h)
    (fun r => { r.release s2.core.time nsmp with outSeq := (r.outSeq + 1) % 2 ^ 32, lastTurn := turn, lastSail := sail })
  rw [raceOf_wheel (putTailHeader_wheel ..), Race.framed, ← clock]
  unfold s4
  split
  · exact raceOf_modRace_same framed _
  · exact framed

theorem putFrame_trn (rid flags nsmp : Nat) (payload : List Byte) (check time turn sail : Nat) (s : State) :
    (putFrame rid flags nsmp payload check time turn sail s).trn = s.trn := by
  unfold putFrame
  split
  · rfl
  · extract_lets off desc s1 s2 s3 s4
    have framed : s3.trn = s.trn := (modRace_trn ..).trans (wheel_trn (by simp [s2, s1]))
    refine (wheel_trn (putTailHeader_wheel ..)).trans ?_
    unfold s4
    split
    · exact (modRace_trn ..).trans framed
    · exact framed

theorem raceOf_tellFull {s : State} {rid : Nat} {r : Race} (h : raceOf s rid = some r) :
    raceOf (tellFull rid s) rid = some { r with fullTold := true } := by
  unfold tellFull
  rw [h]
  dsimp only
  split
  case isTrue told => rw [h, ← told]
  case isFalse => exact (raceOf_wheel (raise_wheel ..) rid).trans (raceOf_modRace_same h _)

theorem tellFull_trn (rid : Nat) (s : State) : (tellFull rid s).trn = s.trn := by
  unfold tellFull
  split
  · rfl
  · split
    · rfl
    · exact (wheel_trn (raise_wheel ..)).trans (modRace_trn ..)

/-! ### A turn and a sail that change -/

section
variable {s : State} {t : Nat} {x : Turn}

theorem turnOf_of_get (h : s.trn.turns.get t = some x) : turnOf s t = x := tbl_getD_of_get h {}

theorem sailOf_of_get (h : s.trn.turns.get t = some x) (k : Nat) : sailOf s t k = x.sail k := by
  rw [sailOf, turnOf_of_get h]

/-- A turn slot that is not listed has four FREE sails. -/
theorem turn_listed_of_sail {k : Nat} (h : (sailOf s t k).state ≠ .free) : s.trn.turns.get t = some (turnOf s t) := by
  cases listed : s.trn.turns.get t with
  | some y => rw [turnOf_of_get listed]
  | none =>
    refine absurd ?_ h
    rw [sailOf, turnOf, Tbl.getD, listed]
    rfl

theorem get_modTurn (h : s.trn.turns.get t = some x) (f : Turn → Turn) : (modTurn t f s).trn.turns.get t = some (f x) := by
  show (s.trn.turns.modify t f).get t = _
  rw [Tbl.get_modify, if_pos rfl, h, Option.map_some]

theorem Turn.sail_alter (x : Turn) (k : Nat) (f : Sail → Sail) :
    Turn.sail { x with sails := x.sails.alter k {} f } k = f (x.sail k) := (Tbl.getD_alter ..).trans (if_pos rfl)

theorem get_modSail (h : s.trn.turns.get t = some x) (k : Nat) (f : Sail → Sail) :
    (modSail t k f s).trn.turns.get t = some { x with sails := x.sails.alter k {} f } := get_modTurn h _

theorem sailOf_modSail (h : s.trn.turns.get t = some x) (k : Nat) (f : Sail → Sail) :
    sailOf (modSail t k f s) t k = f (x.sail k) :=
  (sailOf_of_get (get_modSail h k f) k).trans (x.sail_alter k f)

end

end Sys2Proof.Machine
end

section
/-! PROOFS. The Race commands (03 R84 to R88, R101 to R105, R118). -/

namespace Sys2Proof.Machine

section
variable {s : State} {id : CmdId} {c : Cmd} {r : Race}

/-- Fields that are all in order are no failing check. -/
theorem fields_pass {l : List (Bool × Nat)} (h : ∀ e ∈ l, e.1 = false) (c : Cmd) : (fields c l).1 = false := by
  have none : l.filter (fun e => e.1) = [] := List.filter_eq_nil_iff.2 fun e he => by simp [h e he]
  simp [fields, none]

theorem withRace_own (hr : raceOf s c.context = some r) (own : r.fn = c.fn) (k : Race → State → State) :
    withRace c k s = k r s := by
  unfold withRace
  rw [hr]
  exact if_pos own

/-! ### RACE_OPEN (R84 to R87) -/

/-- Without TCHECK the byte of dword 2 that holds it is 0. -/
theorem fld_tcheck {p : List Word} (h : fld p 2 15 8 = 0) : fld p 2 15 9 = 0 ∧ fbit p 2 8 = false := by
  unfold fld bits at h ⊢
  unfold fbit bit
  rw [Nat.shiftRight_eq_div_pow] at h ⊢
  rw [Nat.testBit_eq_decide_div_mod_eq]
  simp
  omega

/-- The record that RACE_OPEN makes of its packet, for rings that translate. -/
def openedRace (c : Cmd) (a b : Held) (s : State) : Race :=
  let p := c.pkt
  { fn := c.fn, hrate := fld p 2 1 0, trate := fld p 2 3 2, tframe := if fld p 2 7 4 = 0 then 4 else fld p 2 7 4
    tcheck := fbit p 2 8, engine := fld p 2 19 16, tailStart := qw p 6
    jitter := if dw p 3 = 0 then feature s 0x12 c.fn 60 * rateOf (fld p 2 3 2) / 1000 else dw p 3
    inRing := a, inLog := fld p 10 3 0, outRing := b, outLog := fld p 10 7 4, anchor := s.core.time, h := qw p 4, w := qw p 6 }

/-- A race put into the table, the translations of its rings noted and their headers written. -/
def addRace (rid : Nat) (r : Race) (s : State) : State :=
  putTailHeader rid (putHeadHeader rid (touch rid ((noteWalks r.outRing (noteWalks r.inRing s)).modWhl fun w =>
    { w with races := w.races.set rid r })))

theorem raceOf_addRace (rid : Nat) (r : Race) (s : State) (k : Nat) :
    raceOf (addRace rid r s) k = if k = rid then some r else raceOf s k := by
  have noted : (noteWalks r.outRing (noteWalks r.inRing s)).whl = s.whl := wheel_whl (by simp)
  unfold addRace
  rw [raceOf_wheel (putTailHeader_wheel ..), raceOf_wheel (putHeadHeader_wheel ..)]
  show ((noteWalks r.outRing (noteWalks r.inRing s)).whl.races.set rid r).get k = _
  rw [noted, Tbl.get_set]
  rfl

/-- The fields that RACE_OPEN checks (R85 to R87, R194). -/
def openFields (c : Cmd) (s : State) : List (Bool × Nat) :=
  let p := c.pkt
  [ (decide (8 < fld p 2 7 4), 8), rsv p 2 15 9, (fbit p 2 8 && !engineOwned s (fld p 2 19 16) c.fn, 10), rsv p 2 31 20,
    (decide (rateOf (fld p 2 3 2) / 2 < dw p 3), 12), (decide (0x7FFFFFFFFFFF < qw p 4), 16),
    (decide (0x7FFFFFFFFFFF < qw p 6), 24), vaField p 8 65536, (decide (fld p 10 3 0 < 4 ∨ 12 < fld p 10 3 0), 40),
    (decide (fld p 10 7 4 < 4 ∨ 12 < fld p 10 7 4), 40), rsv p 10 31 8, vaField p 11 65536,
    (asidBad s c.fn (fld p 13 15 0), 52), rsv p 13 31 16 ]

theorem vaField_aligned {p : List Word} {n align : Nat} (canonical : qw p n < 2 ^ 57) (aligned : qw p n % align = 0) :
    (vaField p n align).1 = false := by
  unfold vaField
  rw [decide_eq_false (by omega), decide_eq_false (by omega)]
  rfl

theorem raceOpen_runs {a b : Held} (hr : Runs s .raceOpen id c) (free : raceOf s c.context = none)
    (formed : ∀ e ∈ openFields c s, e.1 = false) (room : racesOf s c.fn < quotaOf s 0x02 c.fn 2048)
    (ha : translate s { write := true } (fld c.pkt 13 15 0) (qw c.pkt 8) (ringBytes (fld c.pkt 10 3 0)) = .ok a)
    (hb : translate s { write := true } (fld c.pkt 13 15 0) (qw c.pkt 11) (ringBytes (fld c.pkt 10 7 4)) = .ok b)
    (rings : ringFault s a b = none) :
    exec (.raceOpen id) s = .next (complete c .success 0 0 (addRace c.context (openedRace c a b s) s)) := by
  have unlisted : s.whl.races.has c.context = false := by
    rw [Tbl.has, show s.whl.races.get c.context = none from free]
    rfl
  have fieldsPass : (fields c (openFields c s)).1 = false := fields_pass formed c
  show execRaceOpen id s = _
  unfold execRaceOpen
  rw [onCmd_runs hr]
  dsimp only
  rw [checks_pass]
  · rw [ha, hb]
    dsimp only
    rw [rings]
    rfl
  · show (!s.whl.races.has c.context && (!(fields c (openFields c s)).1 && (!(noRes _ c).1 && true))) = true
    simp [unlisted, fieldsPass, noRes, room]

/-! ### RACE_CLOSE and RACE_ANCHOR (R88, R101) -/

theorem raceOf_closeRace (rid cause : Nat) (s : State) : raceOf (closeRace rid cause s) rid = none := by
  unfold closeRace
  extract_lets turns s1 s2
  exact (Tbl.get_erase ..).trans (if_pos rfl)

theorem closeRace_cogs (rid cause : Nat) (s : State) : ∀ e ∈ (closeRace rid cause s).whl.cogs, e.1 / 16 ≠ rid := by
  unfold closeRace
  extract_lets turns s1 s2
  intro e he
  simpa using (List.mem_filter.1 he).2

/-- A race with a new anchor, and the thresholds that positions of it define. -/
def reanchored (rid anchor : Nat) (r : Race) (s : State) : State :=
  (modRace rid (fun r => { r with anchor }) s).modWhl fun w =>
    { w with cogs := w.cogs.mapVal fun k g => if k / 16 = rid then g.retime { r with anchor } else g }

section
variable (opened : raceOf s c.context = some r) (own : r.fn = c.fn)
include opened own

theorem raceClose_runs (hr : Runs s .raceClose id c) :
    exec (.raceClose id) s = .next (complete c .success 0 0 (closeRace c.context 5 s)) :=
  (onCmd_runs hr : execRaceClose id s = _).trans (congrArg _ (withRace_own opened own _))

theorem raceAnchor_runs (hr : Runs s .raceAnchor id c) :
    exec (.raceAnchor id) s = .next (complete c .success 0 0 (reanchored c.context (qw c.pkt 2) r s)) := by
  refine (onCmd_runs hr : execRaceAnchor id s = _).trans (congrArg _ ?_)
  rw [withRace_own opened own]
  dsimp only
  rw [raceOf_modRace_same opened]
  rfl

/-! ### Reports and RACE_QUERY (R102 to R105, R118) -/

theorem playoutReport_runs (hr : Runs s .playoutReport id c) (res3 : fld c.pkt 3 31 16 = 0) (res6 : dw c.pkt 6 = 0)
    {code slack : Nat} {u : State} {x : Race} (applied : applyReport c.context (qw c.pkt 2) (qw c.pkt 4) false false s = (code, u))
    (after : raceOf u c.context = some x) (rest : u = { s with whl := u.whl })
    (left : slackOf x s.core.time = slack) :
    exec (.playoutReport id) s = .next (complete c .success code (sat 0xFFFFFFFF slack) u) := by
  have notFlushed : fbit c.pkt 6 0 = false := by simp [fbit, bit, res6]
  have res6' : fld c.pkt 6 31 1 = 0 := by simp [fld, bits, res6]
  have formed : (fields c [rsv c.pkt 3 31 16, rsv c.pkt 6 31 1]).1 = false :=
    fields_pass (by simp [rsv, res3, res6']) c
  have clock : u.core = s.core := (congrArg State.core rest :)
  show execPlayoutReport id s = _
  unfold execPlayoutReport
  rw [onCmd_runs hr, withRace_own opened own, checks_pass (by simp [passes, formed]), notFlushed, applied]
  dsimp only
  rw [after, clock, ← left]

theorem raceQuery_runs (hr : Runs s .raceQuery id c) :
    exec (.raceQuery id) s = .next (complete c .success 0 0 (emitData c (qw c.pkt 2) (raceRecord s c.context r) s)) :=
  (onCmd_runs hr : execRaceQuery id s = _).trans (congrArg _ (withRace_own opened own _))

end

/-- The time a report counts with: the device's own while it is time-suspect (R105). -/
def reportTime (s : State) (tr : Nat) : Nat := if s.dom.timeSuspect then s.core.time else tr

/-- PLAYOUT_LOCAL that stands already is not told again. -/
theorem localReport_told (told : s.dom.timeSuspect = true → r.playoutLocal = true) :
    (s.dom.timeSuspect && !r.playoutLocal) = false := by
  cases suspect : s.dom.timeSuspect
  · rfl
  · simp [told suspect]

section
variable {rid pr tr : Nat} (opened : raceOf s rid = some r) (told : s.dom.timeSuspect = true → r.playoutLocal = true)
include opened told

theorem applyReport_accepts (ok : reportReason s r s.dom.timeSuspect pr (reportTime s tr) = 0) :
    ∃ u, applyReport rid pr tr false false s = (0, u) ∧ raceOf u rid = some { r with
        real := some (pr, reportTime s tr), playoutLocal := r.playoutLocal && s.dom.timeSuspect } ∧
      u = { s with whl := u.whl } := by
  simp only [applyReport, opened, timeSuspect, Bool.or_false, localReport_told told, Bool.false_eq_true, if_false]
  unfold reportTime at ok ⊢
  generalize (if s.dom.timeSuspect = true then s.core.time else tr) = time at ok ⊢
  rw [if_pos ok]
  split
  case isTrue same =>
    refine ⟨_, rfl, ?_, modRace_eq ..⟩
    rw [raceOf_modRace_same opened, ← same]
  case isFalse => exact ⟨_, rfl, raceOf_modRace_same opened _, modRace_eq ..⟩

theorem applyReport_rejects (fails : reportReason s r s.dom.timeSuspect pr (reportTime s tr) ≠ 0) :
    ∃ u, applyReport rid pr tr false false s = (reportReason s r s.dom.timeSuspect pr (reportTime s tr), u) ∧
      raceOf u rid = some { r with
        repRej := sat 0xFFFF (r.repRej + 1), repReason := reportReason s r s.dom.timeSuspect pr (reportTime s tr) } ∧
      u = { s with whl := u.whl } := by
  simp only [applyReport, opened, timeSuspect, Bool.or_false, localReport_told told, Bool.false_eq_true, if_false]
  unfold reportTime at fails ⊢
  rw [if_neg fails]
  exact ⟨_, rfl, raceOf_modRace_same opened _, modRace_eq ..⟩

end

end

/-- Settles O28: each command's own lemma; a report is judged by its own time, or by the device's while that is suspect. -/
theorem raceCommands : Obligations.RaceCommands := by
  refine ⟨?opens, ?closes, ?anchors, ?accepted, ?acceptedLocal, ?rejected,
    fun _ _ _ _ hr opened own => ⟨_, rfl, raceQuery_runs opened own hr⟩⟩
  case opens =>
    intro s id c a b hr free frame check res2 jitter h w inLo inAlign inMin inMax outMin outMax res10 outLo outAlign asid res13 room
      ha hb rings
    obtain ⟨res9, noCheck⟩ := fld_tcheck check
    have formed : ∀ e ∈ openFields c s, e.1 = false := by
      simp [openFields, rsv, vaField_aligned inLo inAlign, vaField_aligned outLo outAlign, frame, res9, noCheck, res2, jitter, h, w,
        inMin, inMax, outMin, outMax, res10, asid, res13]
    have added := raceOf_addRace c.context (openedRace c a b s) s
    refine ⟨_, ⟨openedRace c a b s, ?_, rfl, rfl, rfl, rfl, rfl, rfl, rfl, rfl, rfl, rfl, fun k hk => ?_⟩,
      raceOpen_runs hr free formed room ha hb rings⟩
    · rw [added, if_pos rfl]
    · rw [added, if_neg hk]
  case closes =>
    intro s id c r hr opened own
    exact ⟨_, ⟨rfl, raceOf_closeRace _ _ _, closeRace_cogs _ _ _⟩, raceClose_runs opened own hr⟩
  case anchors =>
    intro s id c r hr opened own
    exact ⟨reanchored c.context (qw c.pkt 2) r s, ⟨raceOf_modRace_same opened fun r => { r with anchor := qw c.pkt 2 },
      fun _ hk => raceOf_modRace_other hk (fun r => { r with anchor := qw c.pkt 2 }) s, rfl⟩, raceAnchor_runs opened own hr⟩
  case accepted =>
    intro s id c r hr opened own res3 res6 sure ok
    have time : reportTime s (qw c.pkt 4) = qw c.pkt 4 := by simp [reportTime, sure]
    obtain ⟨u, applied, after, rest⟩ :=
      applyReport_accepts (tr := qw c.pkt 4) opened (by simp [sure]) (by rw [time, sure]; exact ok)
    rw [time, sure, Bool.and_false] at after
    exact ⟨u, ⟨after, rest⟩, playoutReport_runs opened own hr res3 res6 applied after rest rfl⟩
  case acceptedLocal =>
    intro s id c r hr opened own res3 res6 suspect told ok
    have time : reportTime s (qw c.pkt 4) = s.core.time := by simp [reportTime, suspect]
    obtain ⟨u, applied, after, rest⟩ :=
      applyReport_accepts (tr := qw c.pkt 4) opened (fun _ => told) (by rw [time, suspect]; exact ok)
    rw [time, suspect, Bool.and_true] at after
    exact ⟨u, ⟨after, rest⟩, playoutReport_runs opened own hr res3 res6 applied after rest rfl⟩
  case rejected =>
    intro s id c r hr opened own res3 res6 sure fails
    have time : reportTime s (qw c.pkt 4) = qw c.pkt 4 := by simp [reportTime, sure]
    obtain ⟨u, applied, after, rest⟩ :=
      applyReport_rejects (tr := qw c.pkt 4) opened (by simp [sure]) (by rw [time, sure]; exact fails)
    rw [time, sure] at applied after
    exact ⟨u, after, playoutReport_runs opened own hr res3 res6 applied after rest rfl⟩

end Sys2Proof.Machine
end

section
/-! PROOFS. Landings, READ_SEQ and the report slot (03 R93 to R97, R102, R103). -/

namespace Sys2Proof.Machine

theorem modRace_wheel {s t : State} (h : t.wheel = s.wheel) (rid : Nat) (f : Race → Race) :
    (modRace rid f t).wheel = (modRace rid f s).wheel :=
  (congrArg (fun p : Whl × Trn => (modRace rid f { s with whl := p.1, trn := p.2 }).wheel) h :)

section
variable {s : State} {rid : Nat} {r : Race}

/-! ### Landings (R93 to R95) -/

/-- A race after a landing in a slot: it waits for the next SEQ, and the slot holds no accepted frame. -/
def Race.sequenced (slot seq : Nat) (r : Race) : Race := { r with inSeq := (seq + 1) % 2 ^ 32, ends := r.ends.erase slot }

/-- A race after a frame of n smp from a position on has been accepted in a slot. -/
def Race.accepted (slot pos n : Nat) (r : Race) : Race :=
  { r with h := pos + n, gap := r.gap + (pos - r.h), ends := r.ends.set slot (pos + n) }

/-- A frame in order moves its race on; the rest of the landing is events and the reading of its descriptor d. -/
theorem landFrame_accepts {slot : Nat} {d : List Byte} (read : d = (getHeld r.inRing (slotOff slot) 28 s).1.map (·.1))
    (inOrder : frameReason r d = 0) (seq : Nat) : (landFrame rid slot seq r s).wheel =
      (modRace rid (Race.accepted slot (num d 0 8) (num d 8 2)) (modRace rid (Race.sequenced slot seq) s)).wheel := by
  have kept := getHeld_wheel s r.inRing (slotOff slot) 28
  subst read
  unfold landFrame
  generalize getHeld r.inRing (slotOff slot) 28 s = g at kept inOrder
  obtain ⟨d, s1⟩ := g
  dsimp only at kept inOrder ⊢
  rw [inOrder]
  simp only [ite_wheel, raise_wheel, ite_self]
  refine modRace_wheel (modRace_wheel ?_ _ _) _ _
  split
  · rw [ite_wheel, raise_wheel, ite_self, kept]
  · exact kept

theorem ingressSeqWrite_runs {slot seq : Nat} (run : s.pwr.state = .run) (up : s.core.datReset = false)
    (opened : raceOf s rid = some r) (inRing : slot < 2 ^ r.inLog) (word : seq < 2 ^ 32) :
    exec (.ingressSeqWrite rid slot seq) s = .next (
      if seq ≠ r.inSeq then raise 0x3003 r.fn rid 0 r.h 1 0 (putHeld r.inRing (slotOff slot + 28) (leBytes 4 seq) s)
      else putHeadHeader rid (landFrame rid slot seq r (putHeld r.inRing (slotOff slot + 28) (leBytes 4 seq) s))) := by
  show execIngressSeqWrite rid slot seq s = _
  simp only [execIngressSeqWrite, opened, idleExit_of_run run, Nat.mod_eq_of_lt word]
  rw [if_neg (by simp [up, inRing]), apply_ite Host.Outcome.next]

theorem ingressSeqWrite_lands {slot seq : Nat} {u : State} {d : List Byte} (run : s.pwr.state = .run)
    (up : s.core.datReset = false) (opened : raceOf s rid = some r) (inRing : slot < 2 ^ r.inLog) (next : seq = r.inSeq)
    (word : seq < 2 ^ 32) (written : u = putHeld r.inRing (slotOff slot + 28) (leBytes 4 seq) s)
    (read : d = (getHeld r.inRing (slotOff slot) 28 u).1.map (·.1)) (inOrder : frameReason r d = 0) :
    ∃ t x, exec (.ingressSeqWrite rid slot seq) s = .next t ∧ raceOf t rid = some x ∧ x.h = num d 0 8 + num d 8 2 ∧
      x.gap = r.gap + (num d 0 8 - r.h) ∧ x.inSeq = (seq + 1) % 2 ^ 32 ∧ x.rejects = r.rejects ∧ x.w = r.w ∧
      ∀ k, k ≠ rid → raceOf t k = raceOf s k := by
  have kept : u.wheel = s.wheel := by simp [written]
  have moved : (putHeadHeader rid (landFrame rid slot seq r u)).wheel = _ :=
    (putHeadHeader_wheel ..).trans (landFrame_accepts read inOrder seq)
  have runs := ingressSeqWrite_runs run up opened inRing word
  rw [if_neg (not_not_intro next), ← written] at runs
  refine ⟨_, _, runs, (raceOf_wheel moved rid).trans
    (raceOf_modRace_same (raceOf_modRace_same ((raceOf_wheel kept rid).trans opened) _) _), rfl, rfl, rfl, rfl, rfl, fun k hk => ?_⟩
  rw [raceOf_wheel moved, raceOf_modRace_other hk, raceOf_modRace_other hk, raceOf_wheel kept]

theorem ingressSeqWrite_otherSeq {slot seq : Nat} (run : s.pwr.state = .run) (up : s.core.datReset = false)
    (opened : raceOf s rid = some r) (inRing : slot < 2 ^ r.inLog) (word : seq < 2 ^ 32) (other : seq ≠ r.inSeq) :
    ∃ t, exec (.ingressSeqWrite rid slot seq) s = .next t ∧ t.whl = s.whl := by
  refine ⟨_, ingressSeqWrite_runs run up opened inRing word, ?_⟩
  rw [if_pos other]
  exact wheel_whl (by simp)

/-! ### READ_SEQ (R97) -/

theorem flushMarkers_none {n : Nat} (opened : raceOf s rid = some r) (noneWaits : r.markers = []) : flushMarkers rid n s = s := by
  cases n with
  | zero => rfl
  | succ n =>
    unfold flushMarkers
    rw [opened]
    dsimp only
    rw [noneWaits]

theorem tailReadSeqWrite_runs {seq : Nat} (run : s.pwr.state = .run) (opened : raceOf s rid = some r)
    (noneWaits : r.markers = []) :
    exec (.tailReadSeqWrite rid seq) s = .next (modRace rid (fun r => { r with
        readSeq := seq % 2 ^ 32, fullTold := r.fullTold && ringFull { r with readSeq := seq % 2 ^ 32 } })
      (putHeld r.outRing 0x40 (leBytes 4 (seq % 2 ^ 32)) s)) := by
  have written : raceOf (putHeld r.outRing 0x40 (leBytes 4 (seq % 2 ^ 32)) s) rid = some r :=
    (raceOf_wheel (putHeld_wheel ..) rid).trans opened
  show execTailReadSeqWrite rid seq s = _
  simp only [execTailReadSeqWrite, opened, idleExit_of_run run]
  rw [flushMarkers_none (raceOf_modRace_same written _) noneWaits]

/-! ### The report slot (R102, R103) -/

theorem idleExit_wheel (s : State) : (idleExit s).wheel = s.wheel := by
  unfold idleExit
  split
  · exact (raisePf_wheel ..).trans rfl
  · rfl

/-- A report leaves the positions of its race, and the number of the last report, as they are. -/
theorem applyReport_leaves (opened : raceOf s rid = some r) (pr tr : Nat) (flushed fromSuspect : Bool) :
    ∃ x, raceOf (applyReport rid pr tr flushed fromSuspect s).2 rid = some x ∧ x.rseq = r.rseq ∧ x.h = r.h ∧ x.w = r.w := by
  unfold applyReport
  split
  case h_1 closed => cases opened.symm.trans closed
  case h_2 q found =>
  obtain rfl : r = q := Option.some.inj (opened.symm.trans found)
  extract_lets local_ tr' s1 reason base
  obtain ⟨y, now, rseq, h, w⟩ : ∃ y, raceOf s1 rid = some y ∧ y.rseq = r.rseq ∧ y.h = r.h ∧ y.w = r.w := by
    unfold s1
    split
    · exact ⟨_, (raceOf_wheel (raise_wheel ..) rid).trans (raceOf_modRace_same opened _), rfl, rfl, rfl⟩
    · exact ⟨r, opened, rfl, rfl, rfl⟩
  clear_value s1
  split
  · split <;> exact ⟨_, raceOf_modRace_same now _, rseq, h, w⟩
  · exact ⟨_, raceOf_modRace_same now _, rseq, h, w⟩

theorem reportSlotWrite_takes {rseq : Nat} (qp : Option Nat) (opened : raceOf s rid = some r)
    (next : rseq % 2 ^ 32 = (r.rseq + 1) % 2 ^ 32) :
    ∃ t x, exec (.reportSlotWrite rid ⟨rseq, qp⟩) s = .next t ∧ raceOf t rid = some x ∧ x.rseq = rseq % 2 ^ 32 ∧ x.h = r.h ∧
      x.w = r.w := by
  have written : (idleExit (putHeld r.inRing (0x40 + 28) (leBytes 4 rseq) s)).wheel = s.wheel :=
    (idleExit_wheel _).trans (putHeld_wheel ..)
  have numbered := raceOf_modRace_same ((raceOf_wheel written rid).trans opened) fun r => { r with rseq := rseq % 2 ^ 32 }
  have read := getHeld_wheel (modRace rid (fun r => { r with rseq := rseq % 2 ^ 32 })
    (idleExit (putHeld r.inRing (0x40 + 28) (leBytes 4 rseq) s))) r.inRing 0x40 20
  show ∃ t x, execReportSlotWrite rid ⟨rseq, qp⟩ s = _ ∧ _
  simp only [execReportSlotWrite, opened]
  rw [if_neg (not_not_intro next)]
  generalize getHeld r.inRing 0x40 20 _ = g at read ⊢
  obtain ⟨l, s1⟩ := g
  obtain ⟨x, applied, rest⟩ := applyReport_leaves ((raceOf_wheel read rid).trans numbered) (num (l.map (·.1)) 0 8 % 2 ^ 48)
    (num (l.map (·.1)) 8 8) (bit (num (l.map (·.1)) 16 4) 0) (suspectQp s1 qp)
  refine ⟨_, x, rfl, ?_, rest⟩
  refine (raceOf_wheel ?_ rid).trans applied
  rw [ite_wheel, raise_wheel, ite_self]

theorem reportSlotWrite_otherSeq {rseq : Nat} (qp : Option Nat) (opened : raceOf s rid = some r)
    (other : rseq % 2 ^ 32 ≠ (r.rseq + 1) % 2 ^ 32) :
    ∃ t, exec (.reportSlotWrite rid ⟨rseq, qp⟩) s = .next t ∧ t.whl = s.whl := by
  refine ⟨putHeld r.inRing (0x40 + 28) (leBytes 4 rseq) s, ?_, wheel_whl (putHeld_wheel ..)⟩
  show execReportSlotWrite rid ⟨rseq, qp⟩ s = _
  simp only [execReportSlotWrite, opened]
  exact if_pos other

end

/-- Settles O29: a landing, READ_SEQ and a report by their own lemmas; a SEQ or RSEQ that is not the next one moves no race. -/
theorem raceWrites : Obligations.RaceWrites := by
  refine ⟨fun _ _ _ _ _ _ _ run up opened inRing next word written read inOrder =>
      ingressSeqWrite_lands run up opened inRing next word written read inOrder,
    fun _ _ _ _ _ run up opened inRing word other => ingressSeqWrite_otherSeq run up opened inRing word other, ?readSeq,
    fun _ _ _ qp _ _ opened next => reportSlotWrite_takes qp opened next,
    fun _ _ _ qp _ opened other => reportSlotWrite_otherSeq qp opened other⟩
  case readSeq =>
    intro s race seq r run opened noneWaits
    have kept : (putHeld r.outRing 0x40 (leBytes 4 (seq % 2 ^ 32)) s).wheel = s.wheel := putHeld_wheel ..
    refine ⟨_, _, tailReadSeqWrite_runs run opened noneWaits, raceOf_modRace_same ((raceOf_wheel kept race).trans opened) _, rfl,
      rfl, rfl, fun k hk => ?_⟩
    rw [raceOf_modRace_other hk, raceOf_wheel kept]

end Sys2Proof.Machine
end

section
/-! PROOFS. Cogs, the Wheelhouse tick and a race that runs dry (03 R107 to R117). -/

namespace Sys2Proof.Machine

section
variable {s : State}

/-! ### COG_SET and COG_CLEAR (R109 to R114) -/

/-- The cog that a COG_SET without a hopper puts into its slot. -/
def setCog (p : List Word) (r : Race) (s : State) : Cog :=
  { cfg := fld p 2 19 0, thr := (thrOf r s.core.time p).1, pos := (thrOf r s.core.time p).2, step := qw p 5
    args := (List.range 7).map fun i => dw p (7 + i), vref := r.v, hopper := none }

theorem cogSet_runs {id : CmdId} {c : Cmd} {r : Race} (hr : Runs s .cogSet id c) (opened : raceOf s c.context = some r)
    (own : r.fn = c.fn) (formed : ∀ e ∈ cogFields s c.fn c.pkt, e.1 = false) (noHopper : fld c.pkt 2 19 16 ≠ 3) :
    exec (.cogSet id) s = .next (complete c .success 0 0 (touch c.context (s.modWhl fun w =>
      { w with cogs := w.cogs.set (c.context * 16 + fld c.pkt 2 3 0) (setCog c.pkt r s) }))) := by
  refine (onCmd_runs hr : execCogSet id s = _).trans (congrArg _ ?_)
  rw [withRace_own opened own, checks_pass (by simp [passes, fields_pass formed])]
  exact if_neg noHopper

/-- A mask with one bit set names one slot. -/
theorem maskBits_one {n k : Nat} (h : k < n) : maskBits n (2 ^ k) = [k] := by
  have one : bit (2 ^ k) = fun i => decide (i = k) := funext fun _ => by simp [bit, Nat.testBit_two_pow, eq_comm]
  unfold maskBits numsWhere
  rw [one, List.filter_eq, List.nodup_range.count, if_pos (List.mem_range.2 h)]
  rfl

theorem cogClear_runs {id : CmdId} {c : Cmd} {r : Race} {k : Nat} {g : Cog} (hr : Runs s .cogClear id c)
    (opened : raceOf s c.context = some r) (own : r.fn = c.fn) (mask : dw c.pkt 2 = 2 ^ k) (slot : k < 16)
    (listed : s.whl.cogs.get (c.context * 16 + k) = some g) :
    exec (.cogClear id) s = .next (complete c .success (if g.tripped then 2 ^ k else 0) 0 (s.modWhl fun w => { w with
      cogs := w.cogs.modify (c.context * 16 + k) fun g => { g with armed := false, lit := false, hopper := none }
      late := w.late.filter fun j => !([c.context * 16 + k] : List Nat).contains j })) := by
  have small : 2 ^ k < 2 ^ 16 := Nat.pow_lt_pow_right (by decide) slot
  have low : fld c.pkt 2 15 0 = 2 ^ k := by simp [fld, bits, mask]; omega
  have high : fld c.pkt 2 31 16 = 0 := by simp [fld, bits, mask, Nat.shiftRight_eq_div_pow]; omega
  have inSlot : (c.context * 16 + k) % 16 = k := by omega
  have formed : (fields c [rsv c.pkt 2 31 16]).1 = false := fields_pass (by simp [rsv, high]) c
  refine (onCmd_runs hr : execCogClear id s = _).trans (congrArg _ ?_)
  rw [withRace_own opened own, checks_pass (by simp [passes, formed])]
  dsimp only
  rw [low, maskBits_one slot]
  simp only [List.map_cons, List.map_nil, List.foldl_cons, List.foldl_nil, listed, Nat.zero_add, inSlot]
  rfl

/-! ### A cog that trips (R110 to R112) -/

/-- The trip record of a race at a domain time (R112). -/
def tripRecord (now : Nat) (r : Race) : TripRec := { time := now, h := r.h, v := r.v, w := r.w, p := playPos r now }

theorem Cog.retime_eq (r : Race) (g : Cog) : ∃ thr, g.retime r = { g with thr } := by
  unfold Cog.retime
  split
  · exact ⟨_, rfl⟩
  · exact ⟨_, rfl⟩
  · exact ⟨g.thr, rfl⟩

/-- A trip is counted and recorded in its cog, and disarms a ONCE one. -/
theorem Cog.trip_eq (rec_ : TripRec) (r : Race) (g : Cog) : ∃ thr pos armed lit, g.trip rec_ r =
    { g with tripped := true, trips := sat 0xFFFFFFFF (g.trips + 1), rec_, thr, pos, armed, lit } ∧
      (g.mode = 0 → armed = false) := by
  unfold Cog.trip
  extract_lets c
  have mode : c.mode = g.mode := rfl
  split
  case h_1 => exact ⟨_, _, _, _, rfl, fun _ => rfl⟩
  case h_2 step =>
    have other : g.mode ≠ 0 := by omega
    split
    · obtain ⟨thr, h⟩ := Cog.retime_eq r { c with pos := c.pos + c.step }
      exact ⟨thr, _, _, _, h, fun once => absurd once other⟩
    · exact ⟨_, _, _, _, rfl, fun once => absurd once other⟩
  case h_3 other _ => exact ⟨_, _, _, _, rfl, fun once => absurd once other⟩

theorem Cog.trip_action (rec_ : TripRec) (r : Race) (g : Cog) : (g.trip rec_ r).action = g.action := by
  obtain ⟨thr, pos, armed, lit, h, -⟩ := g.trip_eq rec_ r
  rw [h]
  rfl

/-- The state with a cog after its trip by its race. -/
def cogTripped (key : Nat) (g : Cog) (r : Race) (s : State) : State :=
  s.modWhl fun w => { w with cogs := w.cogs.set key (g.trip (tripRecord s.core.time r) r) }

theorem cogTripped_get (key : Nat) (g : Cog) (r : Race) (s : State) :
    (cogTripped key g r s).whl.cogs.get key = some (g.trip (tripRecord s.core.time r) r) := (Tbl.get_set ..).trans (if_pos rfl)

section
variable {key : Nat} {g : Cog} {r : Race} (opened : raceOf s (key / 16) = some r)
include opened

theorem evalCog_trips (listed : s.whl.cogs.get key = some g) (armed : g.armed = true) (unlit : g.lit = false)
    (met : g.cond r s.core.time = true) : ∃ at_, evalCog key s = (some at_, cogTripped key g r s) := by
  have trips : g.eval s.core.time r = (g.trip (tripRecord s.core.time r) r, true) := by
    simp [Cog.eval, armed, unlit, met, tripRecord]
  simp only [evalCog, opened, listed, trips]
  exact ⟨_, rfl⟩

/-- The action EVENT of a cog that has tripped is an event. -/
theorem issue_event (isEvent : g.action = 0) (at_ : Nat) :
    Told (cogTripped key g r s) (issue key at_ (cogTripped key g r s)) := by
  have still : raceOf (cogTripped key g r s) (key / 16) = some r := opened
  simp only [issue, still, cogTripped_get, act, Cog.trip_action, isEvent]
  exact raise_told ..

end

/-! ### The tick (R115 to R117) -/

theorem placeItems_none (h : s.trn.items = []) : placeItems s = s := by
  unfold placeItems itemsWhere
  rw [h]
  rfl

theorem wheelhouseTick_runs (on : wheelOn s = true) (mill : isMill s = true) (noItems : (runCogs s).trn.items = []) :
    exec (.wheelhouseTick none) s = .next (runCogs s) := by
  have up : s.core.ctlReset = false := by
    simp [wheelOn] at on
    exact on.2
  show execWheelhouseTick none s = _
  simp [execWheelhouseTick, on, up, mill, placeItems_none noItems]

/-- The state in which a tick evaluates its cogs, none of them carried to the next one. -/
def tickBegun (s : State) : State := s.modWhl fun w => { w with dirty := [], late := [], lateEvals := sat 0xFFFF w.lateEvals }

theorem runCogs_none (noCogs : s.whl.cogs = []) (clean : s.whl.dirty = []) : runCogs s = tickBegun s := by
  have due : cogsDue s = [] := by simp [cogsDue, noCogs]
  unfold runCogs
  rw [due, clean]
  rfl

theorem touchOpen_leaves (rid : Nat) (s : State) :
    (if s.whl.races.has rid then touch rid s else s).whl.cogs = s.whl.cogs ∧
      (if s.whl.races.has rid then touch rid s else s).trn = s.trn := by
  split <;> exact ⟨rfl, rfl⟩

/-- A tick of one armed cog whose condition holds: it trips, and its action is issued. -/
theorem runCogs_one {k : Nat} {g : Cog} {r : Race} (one : s.whl.cogs = [(k, g)]) (clean : s.whl.dirty = [])
    (opened : raceOf s (k / 16) = some r) (armed : g.armed = true) (unlit : g.lit = false) (timed : g.timed r = true)
    (met : g.cond r s.core.time = true) (isEvent : g.action = 0) :
    (runCogs s).whl.cogs.get k = some (g.trip (tripRecord s.core.time r) r) ∧ (runCogs s).trn = s.trn := by
  have due : sortByKey (cogKey s) (cogsDue s) = [k] := by
    simp [cogsDue, one, armed, opened, timed, unlit, met, sortByKey, insertByKey]
  have listed : (tickBegun s).whl.cogs.get k = some g := by simp [tickBegun, one, Tbl.get]
  have openedThen : raceOf (tickBegun s) (k / 16) = some r := opened
  obtain ⟨at_, trips⟩ := evalCog_trips openedThen listed armed unlit met
  have told := issue_event openedThen isEvent at_
  unfold runCogs
  rw [due, clean]
  extract_lets keys now rest changed begun ev judged issued
  have evaluated : ev = ([(k, at_)], cogTripped k g r (tickBegun s)) := by
    show (match evalCog k (tickBegun s) with | (some t, s) => ([] ++ [(k, t)], s) | (none, s) => ([], s)) = _
    rw [trips]
    rfl
  have acted : issued = issue k at_ (cogTripped k g r (tickBegun s)) := by
    simp only [issued, judged, changed, evaluated]
    rfl
  rw [acted, evaluated]
  obtain ⟨cogs, trn⟩ := touchOpen_leaves (k / 16) (issue k at_ (cogTripped k g r (tickBegun s)))
  exact ⟨(congrArg (Tbl.get · k) (cogs.trans (congrArg Whl.cogs told.whl))).trans (cogTripped_get ..), trn.trans told.trn⟩

theorem cogDueExpiry_runs {race slot : Nat} {g : Cog} {r : Race} (on : wheelOn s = true) (small : slot < 16)
    (opened : raceOf s race = some r) (listed : s.whl.cogs.get (race * 16 + slot) = some g) (armed : g.armed = true)
    (unlit : g.lit = false) (timed : g.timed r = true) (met : g.cond r s.core.time = true) (isEvent : g.action = 0) :
    ∃ t, exec (.cogDueExpiry race slot) s = .next t ∧
      t.whl.cogs.get (race * 16 + slot) = some (g.trip (tripRecord s.core.time r) r) := by
  have ofRace : raceOf s ((race * 16 + slot) / 16) = some r := by rw [show (race * 16 + slot) / 16 = race by omega]; exact opened
  obtain ⟨at_, trips⟩ := evalCog_trips ofRace listed armed unlit met
  have told := issue_event (g := g) ofRace isEvent at_
  refine ⟨touch race (issue (race * 16 + slot) at_ (cogTripped (race * 16 + slot) g r s)), ?_, ?_⟩
  · show execCogDueExpiry race slot s = _
    simp only [execCogDueExpiry, opened, listed]
    rw [if_pos ⟨on, small, timed⟩, trips]
  · show (issue (race * 16 + slot) at_ (cogTripped (race * 16 + slot) g r s)).whl.cogs.get _ = _
    rw [told.whl, cogTripped_get]

/-! ### A race that runs dry (R107, R108) -/

/-- A gap marker leaves the state and the end of its tailrace as they are, unless it carries FINAL. -/
theorem gapMarker_leaves {rid flags : Nat} {r : Race} (opened : raceOf s rid = some r)
    (notFinal : (bit flags 5 || bit flags 6) = false) (turn sail : Nat) :
    ∃ x, raceOf (gapMarker rid flags turn sail s) rid = some x ∧ x.tstate = r.tstate ∧ x.w = r.w := by
  unfold gapMarker
  split
  case h_1 closed => cases opened.symm.trans closed
  case h_2 q found =>
  obtain rfl : r = q := Option.some.inj (opened.symm.trans found)
  split
  · have waits := raceOf_modRace_same opened fun r => { r with markers := r.markers ++ [⟨flags, s.core.time, turn, sail⟩] }
    extract_lets s1
    split
    · exact ⟨_, raceOf_tellFull waits, rfl, rfl⟩
    · exact ⟨_, waits, rfl, rfl⟩
  · refine ⟨_, raceOf_putFrame opened .., ?_, Race.framed_w ..⟩
    simp only [Race.framed, notFinal, Bool.false_eq_true, if_false]
    rfl

section
variable {race : Nat} {r : Race} (on : wheelOn s = true) (opened : raceOf s race = some r) (live : r.tstate = .live)
  (based : r.real ≠ none) (out : slackOf r s.core.time = 0)
include on opened live based out

theorem dryDueExpiry_dry (more : r.final = false) :
    ∃ t x, exec (.dryDueExpiry race) s = .next t ∧ raceOf t race = some x ∧ x.tstate = .dry ∧ x.w = r.w := by
  obtain ⟨x, marked, tstate, w⟩ := gapMarker_leaves (raceOf_modRace_same opened fun r => { r with tstate := .dry })
    (flags := 0x88) (by decide) r.lastTurn r.lastSail
  refine ⟨_, x, (onEvent_holds on : execDryDueExpiry race s = _), ?_, tstate, w⟩
  simp only [dryCheck, opened]
  rw [if_pos ⟨live, Option.isSome_iff_ne_none.2 based, out⟩, if_neg (by simp [more])]
  exact (raceOf_wheel (raise_wheel ..) race).trans marked

theorem dryDueExpiry_idle (final : r.final = true) :
    ∃ t, exec (.dryDueExpiry race) s = .next t ∧ raceOf t race = some { r with tstate := .idle } := by
  refine ⟨_, (onEvent_holds on : execDryDueExpiry race s = _), ?_⟩
  simp only [dryCheck, opened]
  rw [if_pos ⟨live, Option.isSome_iff_ne_none.2 based, out⟩, if_pos final]
  exact (raceOf_wheel (putTailHeader_wheel ..) race).trans (raceOf_modRace_same opened _)

end

end

/-- Settles O30: each command's own lemma, and what a trip leaves in its cog for the two rows that evaluate one. -/
theorem cogsAndTicks : Obligations.CogsAndTicks := by
  refine ⟨?set, ?clear, ?noCogs, ?oneCog, ?due, fun _ _ _ on opened live based out more =>
      dryDueExpiry_dry on opened live based out more,
    fun _ _ _ on opened live based out final => dryDueExpiry_idle on opened live based out final⟩
  case set =>
    intro s id c r hr opened own formed noHopper
    exact ⟨_, ⟨(Tbl.get_set ..).trans (if_pos rfl), fun _ hk => (Tbl.get_set ..).trans (if_neg hk), rfl⟩,
      cogSet_runs hr opened own formed noHopper⟩
  case clear =>
    intro s id c r k g hr opened own mask slot listed
    refine ⟨_, ⟨(Tbl.get_modify ..).trans ?_, fun _ hj => (Tbl.get_modify ..).trans (if_neg hj), rfl⟩,
      cogClear_runs hr opened own mask slot listed⟩
    rw [if_pos rfl, listed, Option.map_some]
  case noCogs =>
    intro s on mill noCogs clean noItems
    have ran := runCogs_none noCogs clean
    rw [wheelhouseTick_runs on mill (by rw [ran]; exact noItems), ran]
    rfl
  case oneCog =>
    intro s k g r on mill one clean _ noItems opened armed unlit timed met isEvent
    obtain ⟨tripped, trn⟩ := runCogs_one one clean opened armed unlit timed met isEvent
    obtain ⟨thr, pos, stillArmed, lit, after, -⟩ := g.trip_eq (tripRecord s.core.time r) r
    refine ⟨_, _, wheelhouseTick_runs on mill (by rw [trn]; exact noItems), tripped, ?_⟩
    rw [after]
    exact ⟨rfl, rfl, rfl, rfl⟩
  case due =>
    intro s race slot g r on small opened listed armed unlit timed met isEvent
    obtain ⟨t, runs, tripped⟩ := cogDueExpiry_runs on small opened listed armed unlit timed met isEvent
    obtain ⟨thr, pos, stillArmed, lit, after, once⟩ := g.trip_eq (tripRecord s.core.time r) r
    refine ⟨t, _, runs, tripped, ?_⟩
    rw [after]
    exact ⟨rfl, rfl, once⟩

end Sys2Proof.Machine
end

section
/-! PROOFS. Furls and drains end, arenas return, and the gate releases frames and writes (03 R97, 04 R126, R138 to R140,
06 R207). -/

namespace Sys2Proof.Machine

/-! ### Furls and drains end (R126, R132) -/

section
variable {s : State}

theorem furlStonesIdle_runs {turn k : Nat} (furling : (sailOf s turn k).state = .furling) (noItems : s.trn.items = []) :
    exec (.furlStonesIdle turn (some k)) s = .next (drainSail turn k s) := by
  show execFurlStonesIdle turn (some k) s = _
  simp [execFurlStonesIdle, itemsWhere, noItems, furling]

/-- Completing the commands that wait for a sail leaves the sail DRAINING with none waiting. -/
theorem sailOf_drainSail {turn k : Nat} (used : (sailOf s turn k).state ≠ .free) :
    sailOf (drainSail turn k s) turn k = { sailOf s turn k with state := .draining, furlCmds := [] } := by
  have changed := sailOf_modSail (turn_listed_of_sail used) k fun v => { v with state := .draining, furlCmds := [] }
  have told : Told _ (drainSail turn k s) := foldl_told (fun _ _ => completeId_told ..) _ _
  rw [sailOf, turnOf, told.trn]
  exact changed

/-- What a sail slot of a turn reads after a change of the turn that is listed. -/
theorem sailOf_modTurn (turn k : Nat) (f : Turn → Turn) (s : State) : sailOf (modTurn turn f s) turn k =
    if s.trn.turns.has turn then (f (turnOf s turn)).sail k else {} := by
  cases listed : s.trn.turns.get turn with
  | none => simp [sailOf, turnOf, modTurn, Tbl.getD, Tbl.get_modify, Tbl.has, listed, Turn.sail, Tbl.get]
  | some x => rw [sailOf_of_get (get_modTurn listed f), turnOf_of_get listed, Tbl.has, listed]; rfl

theorem freeTurn_sail {turn k : Nat} (free : (sailOf s turn k).state = .free) :
    (sailOf (freeTurn turn s) turn k).state = .free := by
  unfold freeTurn
  extract_lets x
  split
  · split
    · have unlisted : Tbl.getD (s.trn.turns.erase turn) turn {} = ({} : Turn) := by rw [Tbl.getD, Tbl.get_erase, if_pos rfl]; rfl
      simp only [sailOf, turnOf, State.modTrn_trn]
      rw [unlisted]
      rfl
    · rw [sailOf_modTurn]
      split
      · exact free
      · rfl
  · exact free

theorem freeSail_free (turn k : Nat) (s : State) : (sailOf (freeSail turn k s) turn k).state = .free := by
  have erased (x : Turn) : Turn.sail { x with sails := x.sails.erase k } k = {} := by
    rw [Turn.sail, Tbl.getD, Tbl.get_erase, if_pos rfl]
    rfl
  unfold freeSail
  refine freeTurn_sail ?_
  rw [sailOf_modTurn, erased, ite_self]

/-! ### Arenas (R207) -/

theorem get_filter_keys {α : Type} (p : Nat → Bool) (t : Tbl α) (i : Nat) :
    Tbl.get (t.filter fun e => p e.1) i = if p i then Tbl.get t i else none := by
  induction t with
  | nil => simp [Tbl.get]
  | cons e r ih =>
    obtain ⟨j, v⟩ := e
    rw [List.filter_cons]
    by_cases same : j = i
    · subst same
      by_cases kept : p j <;> simp [kept, Tbl.get, ih]
    · by_cases kept : p j <;> simp [kept, Tbl.get, same, ih]

theorem readCell_zeroRange (m : Mem) (a n b : Nat) :
    readCell (zeroRange m a n).cells b = if b < a ∨ a + n ≤ b then readCell m.cells b else 0 := by
  unfold readCell zeroRange
  dsimp only
  rw [get_filter_keys (fun i => decide (i < a) || decide (a + n ≤ i))]
  by_cases outside : b < a ∨ a + n ≤ b
  · rw [if_pos outside, if_pos (by simpa using outside)]
  · rw [if_neg outside, if_neg (by simpa using outside)]
    rfl

theorem arenaZeroFillEnd_runs {o : Nat} {a : Arena} (held : s.mem.arenas.get o = some a) (filling : a.filling = true) :
    exec (.arenaZeroFillEnd o) s = .next (s.modMem fun m =>
      { zeroRange m (arenaBase s + o) a.len with arenas := m.arenas.erase o }) := by
  show execArenaZeroFillEnd o s = _
  simp only [execArenaZeroFillEnd, held]
  exact onEvent_holds filling

/-! ### Frames of the tailrace (R97, R138, R139, R352) -/

theorem landFrameOut_trn (rid : Nat) (f : FrameJob) (check : Nat) (s : State) : (landFrameOut rid f check s).trn = s.trn := by
  unfold landFrameOut
  split
  · rfl
  · split
    · exact wheel_trn (raise_wheel ..)
    · exact (putFrame_trn ..).trans (wheel_trn (sampleFrame_wheel ..))

theorem releaseFrame_trn (rid turn sail : Nat) (first : Bool) (v : Sail) (f : HeldFrame) (s : State) :
    (releaseFrame rid turn sail first v f s).trn = s.trn := by
  unfold releaseFrame
  split
  · rfl
  · split
    · rfl
    · exact landFrameOut_trn ..

section
variable {rid : Nat} {r : Race} (opened : raceOf s rid = some r) (turn sail : Nat) (first : Bool) (v : Sail) {f : HeldFrame}
include opened

/-- Without TCHECK a frame that keeps W within its limit goes into the ring at once. -/
theorem releaseFrame_plain (plain : r.checks = false) (within : r.w + f.nsmp ≤ posLimit) :
    ∃ x, raceOf (releaseFrame rid turn sail first v f s) rid = some x ∧ x.w = r.w + f.nsmp ∧
      x.outSeq = (r.outSeq + 1) % 2 ^ 32 := by
  simp only [releaseFrame, opened, plain, landFrameOut]
  rw [if_neg (by simp), if_neg (by omega)]
  exact ⟨_, raceOf_putFrame ((raceOf_wheel (sampleFrame_wheel ..) rid).trans opened) .., Race.framed_w .., Race.framed_outSeq ..⟩

/-- With TCHECK a frame waits in a check job and W stays. -/
theorem releaseFrame_checked (checks : r.checks = true) : raceOf (releaseFrame rid turn sail first v f s) rid =
    some { r with checking := r.checking + 1 } := by
  simp only [releaseFrame, opened, checks, if_true]
  exact (raceOf_wheel (pushJob_wheel ..) rid).trans (raceOf_modRace_same opened _)

end

/-! ### The room that a release makes (R137) -/

theorem foldl_modItem_eq (l : List (Nat × Item)) (f : Item → Item) (s : State) :
    ∃ items, l.foldl (fun s e => modItem e.1 f s) s = { s with trn := { s.trn with items } } := by
  induction l generalizing s with
  | nil => exact ⟨s.trn.items, rfl⟩
  | cons e l ih => exact ih (modItem e.1 f s)

/-- The end of a gate stall leaves what a sail holds, and all but items and that sail. -/
theorem gateRoom_eq {turn : Nat} {x : Turn} (listed : s.trn.turns.get turn = some x) (k : Nat) :
    ∃ trn y, gateRoom turn k s = { s with trn } ∧ trn.turns.get turn = some y ∧ y.first = x.first ∧
      (y.sail k).audio = (x.sail k).audio ∧ (y.sail k).writes = (x.sail k).writes := by
  unfold gateRoom
  split
  · obtain ⟨items, h⟩ := foldl_modItem_eq (itemsWhere s (Item.ofSail turn k)) (fun i => { i with stalled := false }) s
    rw [h]
    refine ⟨_, _, rfl, get_modTurn (s := { s with trn := { s.trn with items } }) listed _, rfl, ?_, ?_⟩ <;> rw [Turn.sail_alter]
  · exact ⟨s.trn, x, rfl, listed, rfl, rfl, rfl⟩

/-! ### The gate releases a frame (R138, R139) -/

theorem ringFull_of_frameGoes {r : Race} (goes : frameGoes s r = true) : ringFull r = false := by
  simp only [frameGoes, Bool.and_eq_true, Bool.not_eq_true'] at goes
  obtain ⟨⟨-, room⟩, -⟩ := goes
  exact room

/-- A sail after its oldest held frame has been taken out. -/
def Sail.afterFrame (f : HeldFrame) (rest : List HeldFrame) (v : Sail) : Sail := { v with audio := rest, lastOut := f.last }

/-- A frame taken out of a set sail's hold, released, and told to its turn and to a gang that waits for room. -/
def slotReleased (turn k : Nat) (f : HeldFrame) (rest : List HeldFrame) (s : State) : State :=
  gateRoom turn k (noteFirst turn (releaseFrame (turnOf s turn).race turn k (!(turnOf s turn).first) (sailOf s turn k) f
    (modSail turn k (Sail.afterFrame f rest) s)))

theorem slotReleased_leaves {turn k : Nat} {f : HeldFrame} (used : (sailOf s turn k).state ≠ .free) (rest : List HeldFrame) :
    (slotReleased turn k f rest s).whl = (releaseFrame (turnOf s turn).race turn k (!(turnOf s turn).first) (sailOf s turn k) f
        (modSail turn k (Sail.afterFrame f rest) s)).whl ∧
      (sailOf (slotReleased turn k f rest s) turn k).audio = rest ∧ (turnOf (slotReleased turn k f rest s) turn).first = true := by
  have listed := get_modSail (turn_listed_of_sail used) k (Sail.afterFrame f rest)
  unfold slotReleased noteFirst
  generalize released : releaseFrame _ _ _ _ _ _ _ = s1
  have kept : s1.trn = (modSail turn k (Sail.afterFrame f rest) s).trn := by
    rw [← released]
    exact releaseFrame_trn ..
  rw [← kept] at listed
  obtain ⟨trn, y, room, after, first, audio, -⟩ := gateRoom_eq (get_modTurn listed fun x => { x with first := true }) k
  rw [room, sailOf_of_get after, turnOf_of_get after]
  refine ⟨rfl, audio.trans ?_, first⟩
  exact congrArg Sail.audio ((turnOf s turn).sail_alter k (Sail.afterFrame f rest))

section
variable {turn k : Nat} {r : Race} {f : HeldFrame} {rest : List HeldFrame} (set : (sailOf s turn k).state = .set)
  (inSlot : leavingOf s turn k = none) (noneBefore : audioBefore s (turnOf s turn).race = false)
  (audio : (sailOf s turn k).audio = f :: rest) (opened : raceOf s (turnOf s turn).race = some r) (up : s.core.datReset = false)
include set inSlot noneBefore audio opened up

theorem tailFrameRelease_goes (goes : frameGoes s r = true) :
    exec (.tailFrameRelease turn k) s = .next (slotReleased turn k f rest s) := by
  have room := ringFull_of_frameGoes goes
  have held : ((turnOf s turn).sail k).audio = f :: rest := audio
  have state : ((turnOf s turn).sail k).state = .set := set
  show execTailFrameRelease turn k s = _
  simp only [execTailFrameRelease, inSlot, opened, held]
  rw [if_neg (by simp [state, up, noneBefore]), if_neg (by simp [room]), if_neg (by simp [goes])]
  rfl

theorem tailFrameRelease_full (noneWaits : r.markers = []) (full : ringFull r = true) :
    exec (.tailFrameRelease turn k) s = .next (tellFull (turnOf s turn).race s) := by
  have held : ((turnOf s turn).sail k).audio = f :: rest := audio
  have state : ((turnOf s turn).sail k).state = .set := set
  show execTailFrameRelease turn k s = _
  simp only [execTailFrameRelease, inSlot, opened, held]
  rw [if_neg (by simp [state, up, noneBefore]), if_pos (by simp [full, noneWaits])]

end

/-- A sail that has left its slot with more than one frame: the next one is released, and the rest waits on. -/
theorem tailFrameRelease_leaving {turn k : Nat} {l : Leaving} {r : Race} {f g : HeldFrame} {rest : List HeldFrame}
    (left : leavingOf s turn k = some l) (audio : l.v.audio = f :: g :: rest) (opened : raceOf s l.race = some r)
    (up : s.core.datReset = false) (goes : frameGoes s r = true) :
    ∃ t, exec (.tailFrameRelease turn k) s = .next t ∧ t.whl = (releaseFrame l.race turn k (!l.first) l.v f s).whl := by
  have room := ringFull_of_frameGoes goes
  show ∃ t, execTailFrameRelease turn k s = _ ∧ _
  simp only [execTailFrameRelease, left, opened, audio]
  rw [if_neg (by simp [up]), if_neg (by simp [room]), if_neg (by simp [goes]), if_neg (by simp)]
  refine ⟨_, rfl, ?_⟩
  split <;> rfl

/-! ### The gate releases a write (R138, R140) -/

/-- A sail after its oldest held write has been taken out. -/
def Sail.afterWrite (rest : List HeldWrite) (v : Sail) : Sail := { v with writes := rest }

/-- A held write taken out of a set sail's hold, carried out or failed, and told to a gang that waits for room. -/
theorem heldWriteRelease_runs {turn k : Nat} {w : HeldWrite} {rest : List HeldWrite} (failure : Option Nat)
    (set : (sailOf s turn k).state = .set) (inSlot : leavingOf s turn k = none) (writes : (sailOf s turn k).writes = w :: rest)
    (up : s.core.datReset = false) :
    exec (.heldWriteRelease turn k failure) s = .next (gateRoom turn k (releaseWrite (turnOf s turn).fn turn k failure w
      (modSail turn k (Sail.afterWrite rest) s))) := by
  have held : ((turnOf s turn).sail k).writes = w :: rest := writes
  have state : ((turnOf s turn).sail k).state = .set := set
  show execHeldWriteRelease turn k failure s = _
  simp only [execHeldWriteRelease, inSlot, held]
  exact if_neg (by simp [state, up])

/-- A release that leaves the turns as they are takes its write out of the hold, and the memory is the release's. -/
theorem heldWriteRelease_leaves {turn k : Nat} {rest : List HeldWrite} {u : State} (used : (sailOf s turn k).state ≠ .free)
    (kept : u.trn = (modSail turn k (Sail.afterWrite rest) s).trn) :
    (sailOf (gateRoom turn k u) turn k).writes = rest ∧ (gateRoom turn k u).mem = u.mem := by
  have listed := get_modSail (turn_listed_of_sail used) k (Sail.afterWrite rest)
  rw [← kept] at listed
  obtain ⟨trn, y, room, after, -, -, writes⟩ := gateRoom_eq listed k
  rw [room, sailOf_of_get after]
  exact ⟨writes.trans (congrArg Sail.writes ((turnOf s turn).sail_alter k (Sail.afterWrite rest))), rfl⟩

/-- A write to HBM puts its bytes there. -/
theorem releaseWrite_hbm {fn turn k a f : Nat} {w : HeldWrite}
    (dest : w.dest = .mem [{ target := .hbm, addr := a, len := w.data.length, fn := f }]) :
    releaseWrite fn turn k none w s = s.modMem fun m => writeP m a w.data := by
  simp [releaseWrite, putWrite, dest, useRuns, writeSegs, writeSeg, segDown, Seg.cell]

end

/-- Settles O32: each row's own lemma; a frame is released from a slot or by a sail that has left its slot, and a write is carried
out or failed. -/
theorem gateReleases : Obligations.GateReleases := by
  refine ⟨?furl, fun s turn k draining => ⟨_, (onEvent_holds (by simp [draining]) : execSailDrainEnd turn k s = _),
      freeSail_free turn k s⟩, ?arena, ?plain, ?checked, ?leaving, ?full, ?write, ?failed⟩
  case furl =>
    intro s turn k furling noItems
    refine ⟨_, furlStonesIdle_runs furling noItems, ?_⟩
    rw [sailOf_drainSail (by simp [furling])]
    exact ⟨rfl, rfl⟩
  case arena =>
    intro s o a held filling
    refine ⟨_, arenaZeroFillEnd_runs held filling, (Tbl.get_erase ..).trans (if_pos rfl), fun i hi => ?_, fun b hb => ?_, rfl⟩
    · exact (readCell_zeroRange ..).trans (if_neg (by omega))
    · exact (readCell_zeroRange ..).trans (if_pos hb)
  case plain =>
    intro s turn k r f rest set inSlot noneBefore audio opened noneWaits up room plain within
    have goes : frameGoes s r = true := by simp [frameGoes, noneWaits, room, plain]
    have used : (sailOf s turn k).state ≠ .free := by simp [set]
    obtain ⟨whl, left, first⟩ := slotReleased_leaves (f := f) used rest
    obtain ⟨x, released, w, outSeq⟩ := releaseFrame_plain
      (s := modSail turn k (Sail.afterFrame f rest) s) opened turn k (!(turnOf s turn).first)
      (sailOf s turn k) plain within
    exact ⟨_, x, tailFrameRelease_goes set inSlot noneBefore audio opened up goes,
      (raceOf_whl whl _).trans released, w, outSeq, left, first⟩
  case checked =>
    intro s turn k r f rest set inSlot noneBefore audio opened up checks goes
    have used : (sailOf s turn k).state ≠ .free := by simp [set]
    obtain ⟨whl, left, first⟩ := slotReleased_leaves (f := f) used rest
    have released := releaseFrame_checked (f := f)
      (s := modSail turn k (Sail.afterFrame f rest) s) opened turn k (!(turnOf s turn).first)
      (sailOf s turn k) checks
    exact ⟨_, _, tailFrameRelease_goes set inSlot noneBefore audio opened up goes,
      (raceOf_whl whl _).trans released, rfl, rfl, left, first⟩
  case leaving =>
    intro s turn k l r f g rest left audio opened up plain goes within
    obtain ⟨t, runs, whl⟩ := tailFrameRelease_leaving left audio opened up goes
    obtain ⟨x, released, w, outSeq⟩ := releaseFrame_plain opened turn k (!l.first) l.v plain within
    exact ⟨t, x, runs, (raceOf_whl whl _).trans released, w, outSeq⟩
  case full =>
    intro s turn k r f rest set inSlot noneBefore audio opened noneWaits up full
    exact ⟨_, _, tailFrameRelease_full set inSlot noneBefore audio opened up noneWaits full, raceOf_tellFull opened, rfl, rfl,
      tellFull_trn ..⟩
  case write =>
    intro s turn k a f w rest set inSlot writes up dest
    have runs := heldWriteRelease_runs none set inSlot writes up
    rw [releaseWrite_hbm dest] at runs
    obtain ⟨left, mem⟩ := heldWriteRelease_leaves (rest := rest) (u := (modSail turn k (Sail.afterWrite rest) s).modMem
      fun m => writeP m a w.data) (by simp [set]) rfl
    exact ⟨_, runs, left, congrArg Mem.cells mem⟩
  case failed =>
    intro s turn k st w rest set inSlot writes up
    have told : Told (modSail turn k (Sail.afterWrite rest) s) _ := raise_told 0x4008 (turnOf s turn).fn turn k 0 (st % 2 ^ 8) 0 _
    obtain ⟨left, mem⟩ := heldWriteRelease_leaves (by simp [set]) told.trn
    exact ⟨_, heldWriteRelease_runs (some st) set inSlot writes up, left, mem.trans told.mem⟩

end Sys2Proof.Machine
end

section
/-! PROOFS. The Turn commands (04 R121 to R134). -/

namespace Sys2Proof.Machine

section
variable {s : State} {id : CmdId} {c : Cmd} {t k : Nat} {x : Turn}

/-! ### A turn that is listed -/

/-- A turn slot that is not listed is FREE. -/
theorem turn_listed_of_used (used : (turnOf s t).state ≠ .free) : s.trn.turns.get t = some (turnOf s t) := by
  cases listed : s.trn.turns.get t with
  | some y => rw [turnOf_of_get listed]
  | none =>
    refine absurd ?_ used
    rw [turnOf, Tbl.getD, listed]
    rfl

theorem tbl_erase_modify {α : Type} (t : Tbl α) (i : Nat) (f : α → α) : Tbl.erase (t.modify i f) i = t.erase i := by
  induction t with
  | nil => rfl
  | cons e r ih =>
    obtain ⟨k, v⟩ := e
    by_cases same : k = i <;> simp [Tbl.modify, Tbl.erase, same, ih]

/-! ### TURN_BEGIN (R122) -/

/-- The turn that a TURN_BEGIN puts into its slot, with the furled sails that still drain there. -/
def begunTurn (c : Cmd) (s : State) : Turn :=
  { state := .listening, fn := c.fn, race := fld c.pkt 2 10 0
    target := if dw c.pkt 3 = 0 then 1000 * feature s 0x20 c.fn 60 else dw c.pkt 3
    maxSails := if fld c.pkt 4 2 0 = 0 then 4 else fld c.pkt 4 2 0, sails := (turnOf s c.context).sails }

theorem turnBegin_runs {r : Race} (hr : Runs s .turnBegin id c) (free : (turnOf s c.context).state = .free)
    (opened : raceOf s (fld c.pkt 2 10 0) = some r) (own : r.fn = c.fn) (res2 : fld c.pkt 2 31 11 = 0)
    (targetLow : dw c.pkt 3 = 0 ∨ 1000 ≤ dw c.pkt 3) (targetHigh : dw c.pkt 3 ≤ 1000000) (sails : fld c.pkt 4 2 0 ≤ 4)
    (res4 : fld c.pkt 4 31 3 = 0) (noTurn : liveTurn s (fld c.pkt 2 10 0) = none)
    (quota : turnsOf s c.fn < quotaOf s 0x03 c.fn 64) :
    exec (.turnBegin id) s = .next (complete c .success 0 0
      (s.modTrn fun r => { r with turns := r.turns.set c.context (begunTurn c s) })) := by
  have target : ¬ (dw c.pkt 3 ≠ 0 ∧ (dw c.pkt 3 < 1000 ∨ 1000000 < dw c.pkt 3)) := by omega
  refine (onCmd_runs hr : execTurnBegin id s = _).trans (congrArg _ (checks_pass ?_))
  simp only [passes, List.all_cons, List.all_nil, Bool.and_true, Bool.and_eq_true, Bool.not_eq_true']
  refine ⟨by simp [turnInUse, free], fields_pass (by simpa [opened, own, rsv, res2, res4, sails] using target) c,
    by simp [deny, noTurn], by simpa [noRes] using quota⟩

/-! ### TURN_END (R124) -/

theorem freeTurn_retired (listed : s.trn.turns.get t = some x) (retiring : x.state = .retiring) (noSails : x.sails = [])
    (noWork : turnItems s t = 0) : freeTurn t s = s.modTrn fun r => { r with turns := r.turns.erase t } := by
  unfold freeTurn
  rw [turnOf_of_get listed]
  dsimp only
  rw [if_pos (.inl ⟨retiring, noWork⟩), if_pos noSails]

theorem turnItems_told {u : State} (told : Told s u) (t : Nat) : turnItems u t = turnItems s t := by
  rw [turnItems, itemsWhere, told.trn]
  rfl

theorem turnOf_told {u : State} (told : Told s u) (t : Nat) : turnOf u t = turnOf s t := by
  rw [turnOf, told.trn]
  rfl

/-- A live turn without sails and without turn-level work retires to FREE at once. -/
theorem retireTurn_frees (listed : s.trn.turns.get t = some x) (live : x.live = true) (noSails : x.sails = [])
    (noWork : turnItems s t = 0) (reason : Option Nat) : (retireTurn t reason s).trn.turns = s.trn.turns.erase t := by
  unfold retireTurn
  rw [turnOf_of_get listed]
  extract_lets y s1 s2
  rw [if_pos live]
  have reported : Told s1 s2 := by
    unfold s2
    split
    · exact raise_told ..
    · exact .refl _
  have told := reported.trans (foldl_told (f := fun s id => completeId id .success (turnItems s t) 0 s)
    (fun _ _ => completeId_told ..) x.endCmds s2)
  have after : s1.trn.turns.get t = some { x with state := .retiring, endCmds := [] } := get_modTurn listed _
  rw [← told.trn] at after
  rw [freeTurn_retired after rfl noSails ((turnItems_told told t).trans noWork), State.modTrn_trn, told.trn]
  exact tbl_erase_modify ..

section
variable (hr : Runs s .turnEnd id c) (own : (turnOf s c.context).fn = c.fn) (formed : fld c.pkt 2 31 1 = 0)
include hr own formed

theorem turnEnd_retiring (retiring : (turnOf s c.context).state = .retiring) :
    exec (.turnEnd id) s = .next (complete c .success (turnItems s c.context) 0 s) := by
  refine (onCmd_runs hr : execTurnEnd id s = _).trans (congrArg _ ?_)
  rw [checks_pass (by simp [passes, fields, rsv, own, formed, retiring])]
  dsimp only
  rw [retiring]

/-- A TURN_END of a LISTENING turn with nothing raised waits in the turn, which retires and completes it. -/
theorem turnEnd_listening (listening : (turnOf s c.context).state = .listening) (noSails : (turnOf s c.context).sails = []) :
    exec (.turnEnd id) s = .next (retireTurn c.context (some 2)
      (modTurn c.context (fun x => { x with endCmds := x.endCmds ++ [id] }) (accept c s))) := by
  have listed := turn_listed_of_used (s := s) (t := c.context) (by simp [listening])
  have waits := turnOf_of_get (get_modTurn (s := accept c s) listed fun x => { x with endCmds := x.endCmds ++ [id] })
  refine (onCmd_runs hr : execTurnEnd id s = _).trans (congrArg _ ?_)
  rw [checks_pass (by simp [passes, fields, rsv, own, formed, listening])]
  dsimp only
  rw [listening]
  dsimp only
  rw [furlRaised, waits, Turn.sailsIn, noSails]
  rfl

end

/-! ### SAIL_RAISE (R127) -/

/-- What an arena that is taken changes: memory alone. -/
theorem takeArena_eq {n o : Nat} {u : State} (h : takeArena s n = some (o, u)) : ∃ mem, u = { s with mem } := by
  unfold takeArena at h
  split at h <;> cases h
  exact ⟨_, rfl⟩

/-- An outcome that is no refusal has passed the check before it. -/
theorem ok_of_check {ε α : Type} {p : Prop} [Decidable p] {e : ε} {r : Except ε α} {v : α}
    (h : (if p then .error e else r) = .ok v) : ¬ p ∧ r = .ok v := by
  split at h
  · cases h
  · exact ⟨‹_›, h⟩

/-- A turn that speculates on a sail raised in one of its slots. -/
def raisedTurn (slot : Nat) (v : Sail) (x : Turn) : Turn := { x with state := .speculating, sails := x.sails.set slot v }

theorem raisedTurn_sail (slot : Nat) (v : Sail) (x : Turn) : (raisedTurn slot v x).sail slot = v :=
  (Tbl.getD_set ..).trans (if_pos rfl)

/-- A raise that is done has put a RAISED sail into its turn, which speculates, and an item into the ready set. -/
theorem raiseSail_ok {q : Raise} {v : State} (h : raiseSail q s = .ok v) : (turnOf s q.turn).state ≠ .free ∧
    ∃ mem y i, y.state = .raised ∧ y.hyp = q.hyp ∧
      Told (addItem i (modTurn q.turn (raisedTurn q.slot y) { s with mem })) v := by
  unfold raiseSail at h
  extract_lets x y pos need made at h
  obtain ⟨live, h⟩ := ok_of_check h
  obtain ⟨-, h⟩ := ok_of_check h
  obtain ⟨-, h⟩ := ok_of_check h
  obtain ⟨-, h⟩ := ok_of_check h
  obtain ⟨-, h⟩ := ok_of_check h
  refine ⟨fun free => live (by simp [x, free]), ?_⟩
  split at h
  case h_1 => cases h
  case h_2 image m _ =>
  obtain ⟨-, h⟩ := ok_of_check h
  cases taken : made with
  | none =>
    rw [taken] at h
    cases h
  | some p =>
    obtain ⟨arena, s1⟩ := p
    have memory : ∃ mem, s1 = { s with mem } := by
      unfold made at taken
      split at taken
      · cases taken
        exact ⟨s.mem, rfl⟩
      · obtain ⟨a, found, same⟩ := Option.map_eq_some_iff.1 taken
        cases same
        exact takeArena_eq found
    obtain ⟨mem, rfl⟩ := memory
    rw [taken] at h
    cases h
    exact ⟨mem, _, _, rfl, rfl, raise_told ..⟩

theorem raiseSail_leaves {q : Raise} {v : State} (h : raiseSail q s = .ok v) :
    (sailOf v q.turn q.slot).state = .raised ∧ (turnOf v q.turn).state = .speculating ∧
      (sailOf v q.turn q.slot).hyp = q.hyp := by
  obtain ⟨used, mem, y, i, raised, hyp, told⟩ := raiseSail_ok h
  have after : v.trn.turns.get q.turn = some (raisedTurn q.slot y (turnOf s q.turn)) :=
    (congrArg (fun r : Trn => r.turns.get q.turn) told.trn).trans
      (get_modTurn (s := { s with mem }) (turn_listed_of_used used) _)
  rw [sailOf_of_get after, turnOf_of_get after, raisedTurn_sail]
  exact ⟨raised, rfl, hyp⟩

section
variable (own : turnForeign s c = false)
include own

theorem sailRaise_runs {v : State} (hr : Runs s .sailRaise id c) (formed : fld c.pkt 5 31 1 = 0)
    (given : fbit c.pkt 5 0 = false) (small : qw c.pkt 3 < 2 ^ 48)
    (raised : raiseSail { turn := ctxTurn c, slot := ctxSail c, chain := fld c.pkt 2 15 0, stage := fld c.pkt 2 23 16,
                          gang := fld c.pkt 2 31 24, hyp := qw c.pkt 3, cmd := some id } s = .ok v) :
    exec (.sailRaise id) s = .next (accept c v) := by
  refine (onCmd_runs hr : execSailRaise id s = _).trans (congrArg _ ?_)
  rw [checks_pass (by simp [passes, fields, rsv, own, formed, given]; omega)]
  simp only [given, raised, Bool.false_eq_true, if_false]

/-! ### SAIL_SET (R130, R131) -/

theorem sailSet_raised (hr : Runs s .sailSet id c) (raised : (sailOf s (ctxTurn c) (ctxSail c)).state = .raised) :
    exec (.sailSet id) s = .next (complete c .success (heldSmp (sailOf s (ctxTurn c) (ctxSail c)).audio) 0
      (setSail (ctxTurn c) (ctxSail c) s)) := by
  refine (onCmd_runs hr : execSailSet id s = _).trans (congrArg _ ?_)
  rw [checks_pass (by simp [passes, own]), raised]

/-! ### SAIL_FURL (R132) -/

theorem sailFurl_raised (hr : Runs s .sailFurl id c) (raised : (sailOf s (ctxTurn c) (ctxSail c)).state = .raised) :
    exec (.sailFurl id) s = .next (furlSail (ctxTurn c) (ctxSail c) 1 .furled (modSail (ctxTurn c) (ctxSail c)
      (fun v => { v with furlCmds := v.furlCmds ++ [id] }) (accept c s))) := by
  refine (onCmd_runs hr : execSailFurl id s = _).trans (congrArg _ ?_)
  rw [checks_pass (by simp [passes, own])]
  dsimp only
  rw [raised]

end

/-! ### What setting and furling leave (R130 to R134) -/

theorem sailOf_told {u : State} (told : Told s u) (t k : Nat) : sailOf u t k = sailOf s t k := by
  rw [sailOf, turnOf, told.trn]
  rfl

/-- A change of a turn that keeps its sails. -/
theorem sailOf_modTurn_same {f : Turn → Turn} (keeps : ∀ x, (f x).sails = x.sails) :
    sailOf (modTurn t f s) t k = sailOf s t k := by
  cases listed : s.trn.turns.get t with
  | some x => rw [sailOf_of_get (get_modTurn listed f), sailOf_of_get listed, Turn.sail, keeps, Turn.sail]
  | none =>
    have unlisted : Tbl.getD s.trn.turns t ({} : Turn) = {} := by rw [Tbl.getD, listed]; rfl
    rw [sailOf_modTurn, Tbl.has, listed, sailOf, turnOf, unlisted]
    rfl

/-- The end of a gate stall leaves the states of the turn and of its sail. -/
theorem gateRoom_states (used : (sailOf s t k).state ≠ .free) :
    (turnOf (gateRoom t k s) t).state = (turnOf s t).state ∧ (sailOf (gateRoom t k s) t k).state = (sailOf s t k).state := by
  unfold gateRoom
  split
  · obtain ⟨items, h⟩ := foldl_modItem_eq (itemsWhere s (Item.ofSail t k)) (fun i => { i with stalled := false }) s
    rw [h]
    have after := get_modSail (s := { s with trn := { s.trn with items } }) (turn_listed_of_sail used) k
      fun v => { v with stall := none }
    rw [turnOf_of_get after, sailOf_of_get after, Turn.sail_alter]
    exact ⟨rfl, rfl⟩
  · exact ⟨rfl, rfl⟩

/-- A sail set that still runs and is its turn's only raised one: it is SET and its turn COMMITTED. -/
theorem setSail_leaves (raised : (sailOf s t k).state = .raised) (running : (sailOf s t k).done = false)
    (only : (turnOf s t).sailsIn .raised = [k]) :
    (sailOf (setSail t k s) t k).state = .set ∧ (turnOf (setSail t k s) t).state = .committed := by
  have listed := turn_listed_of_sail (s := s) (t := t) (k := k) (by simp [raised])
  have stillRuns : ((turnOf s t).sail k).done = false := running
  unfold setSail
  extract_lets x v held vPos s1 s2 s3 s4 s5
  have kept : sailOf s2 t k = sailOf s1 t k := sailOf_modTurn_same fun _ => rfl
  have isSet : (sailOf s2 t k).state = .set := congrArg Sail.state (kept.trans (sailOf_modSail listed k _))
  have committed : (turnOf s2 t).state = .committed :=
    congrArg Turn.state (turnOf_of_get (get_modTurn (get_modSail listed k _) _))
  have completed : Told s2 s3 := by
    unfold s3
    split
    · exact completeId_told ..
    · exact .refl _
  have told : Told s2 s4 := completed.trans (raise_told ..)
  have noOther : s5 = s4 := by simp [s5, x, only, forEach]
  rw [if_neg (by simp [v, x, stillRuns]), noOther]
  rw [← sailOf_told told] at isSet
  obtain ⟨turnState, sailState⟩ := gateRoom_states (s := s4) (t := t) (k := k) (by simp [isSet])
  exact ⟨sailState.trans isSet, turnState.trans ((congrArg Turn.state (turnOf_told told t)).trans committed)⟩

/-- A raised sail without items is furled: it drains at once, and what the gate held of it is gone. -/
theorem furlSail_leaves (raised : (sailOf s t k).state = .raised) (noItems : s.trn.items = []) (cause : Nat) (st : Status) :
    ∃ y, sailOf (furlSail t k cause st s) t k = y ∧ y.state = .draining ∧ y.cause = cause ∧ y.audio = [] ∧ y.writes = [] := by
  have listed := turn_listed_of_sail (s := s) (t := t) (k := k) (by simp [raised])
  have state : ((turnOf s t).sail k).state = .raised := raised
  unfold furlSail
  extract_lets x v its on runners cancelled v' s1 s2 s3 s4 s5
  have noneIts : its = [] := by simp [its, itemsWhere, noItems]
  have noneOn : on = [] := by simp [on, noneIts]
  have furled : sailOf s1 t k = v' := sailOf_modSail listed k _
  have completed : Told s2 s3 := by
    unfold s3
    split
    · exact completeId_told ..
    · exact .refl _
  have told : Told s1 s4 := by
    have same : s2 = s1 := by simp [s2, noneIts]
    exact same ▸ completed.trans (raise_told ..)
  have drained : sailOf s5 t k = { v' with state := .draining, furlCmds := [] } := by
    have same : s5 = drainSail t k s4 := by simp [s5, noneOn]
    rw [← sailOf_told told] at furled
    rw [same, sailOf_drainSail (by simp [furled, v']), furled]
  rw [if_neg (by simp [v, x, state]), if_neg (by simp [v, x, state])]
  refine ⟨_, Eq.trans ?_ drained, rfl, rfl, rfl, rfl⟩
  split
  · exact sailOf_modTurn_same fun _ => rfl
  · rfl

end

/-- Settles O31: each command's own lemma, and what a raise, a set and a furl leave of the turn and its sail. -/
theorem turnCommands : Obligations.TurnCommands := by
  refine ⟨?begins, fun s _ _ hr retiring own formed => ⟨s, rfl, turnEnd_retiring hr own formed retiring⟩, ?ends, ?raises,
    ?sets, ?furls⟩
  case begins =>
    intro s id c r hr free opened own res2 targetLow targetHigh sails res4 noTurn quota
    exact ⟨_, ⟨(Tbl.get_set ..).trans (if_pos rfl), rfl⟩,
      turnBegin_runs hr free opened own res2 targetLow targetHigh sails res4 noTurn quota⟩
  case ends =>
    intro s id c hr listening own formed noSails noWork
    have listed := turn_listed_of_used (s := s) (t := c.context) (by simp [listening])
    have waits := get_modTurn (s := accept c s) listed fun x => { x with endCmds := x.endCmds ++ [id] }
    refine ⟨_, turnEnd_listening hr own formed listening noSails, ?_⟩
    rw [retireTurn_frees waits (by simp [Turn.live, listening]) noSails noWork]
    exact tbl_erase_modify ..
  case raises =>
    intro s v id c hr own formed given small raised
    obtain ⟨sailState, turnState, hyp⟩ := raiseSail_leaves raised
    exact ⟨sailRaise_runs own hr formed given small raised, sailState, turnState, hyp⟩
  case sets =>
    intro s id c hr own raised running only
    exact ⟨_, ⟨rfl, setSail_leaves raised running only⟩, sailSet_raised own hr raised⟩
  case furls =>
    intro s id c hr own raised noItems
    have listed := turn_listed_of_sail (s := s) (t := ctxTurn c) (k := ctxSail c) (by simp [raised])
    have waits : (sailOf (modSail (ctxTurn c) (ctxSail c) (fun v => { v with furlCmds := v.furlCmds ++ [id] }) (accept c s))
        (ctxTurn c) (ctxSail c)).state = .raised := by
      rw [sailOf_modSail (s := accept c s) listed]
      exact raised
    obtain ⟨y, rfl, furled⟩ := furlSail_leaves waits noItems 1 .furled
    exact ⟨_, sailFurl_raised own hr raised, furled⟩

end Sys2Proof.Machine
end

section
/-! PROOFS. What accesses to scratch and reads of memory leave alone, and an item and a bed that change (05 R152 to R173,
06 R191, 07 R218 to R228). -/

namespace Sys2Proof.Machine

/-! ### What no access to scratch touches -/

/-- The clocks, power, memory, the races, turns and items, and the free values. -/
def State.beside (s : State) : Core × Pwr × Mem × Whl × Trn × Nat := (s.core, s.pwr, s.mem, s.whl, s.trn, s.freeCtr)

theorem beside_eq {s t : State} (h : t.beside = s.beside) :
    t.core = s.core ∧ t.pwr = s.pwr ∧ t.mem = s.mem ∧ t.whl = s.whl ∧ t.trn = s.trn ∧ t.freeCtr = s.freeCtr := by
  simpa [State.beside] using h

theorem beside_trn {s t : State} (h : t.beside = s.beside) : t.trn = s.trn := by
  obtain ⟨-, -, -, -, trn, -⟩ := beside_eq h
  exact trn

theorem beside_mem {s t : State} (h : t.beside = s.beside) : t.mem = s.mem := by
  obtain ⟨-, -, mem, -⟩ := beside_eq h
  exact mem

theorem Told.beside {s t : State} (h : Told s t) : t.beside = s.beside := by
  simp [State.beside, h.core, h.pwr, h.mem, h.whl, h.trn, h.freeCtr]

/-- A fold of steps that each keep a view of the state keeps it. -/
theorem foldl_keeps {α β : Type} (view : State → β) {f : State → α → State} (h : ∀ s a, view (f s a) = view s) (l : List α)
    (s : State) : view (l.foldl f s) = view s := by
  induction l generalizing s with
  | nil => rfl
  | cons a l ih => exact (ih _).trans (h s a)

/-- The same of a fold that gathers something beside the state. -/
theorem foldlSnd_keeps {α β γ : Type} (view : State → β) {f : γ × State → α → γ × State}
    (h : ∀ p a, view (f p a).2 = view p.2) (l : List α) (p : γ × State) : view (l.foldl f p).2 = view p.2 := by
  induction l generalizing p with
  | nil => rfl
  | cons a l ih => exact (ih _).trans (h p a)

@[simp] theorem ite_beside (c : Prop) [Decidable c] (a b : State) :
    (if c then a else b).beside = if c then a.beside else b.beside := apply_ite ..

section
variable (s : State)

@[simp] theorem State.modOcp_beside (f : Ocp → Ocp) : (s.modOcp f).beside = s.beside := rfl
@[simp] theorem logError_beside (e : Err) : (logError e s).beside = s.beside := (logError_told ..).beside
@[simp] theorem raisePf_beside (code obj0 arg : Nat) : (raisePf code obj0 arg s).beside = s.beside := (raisePf_told ..).beside
@[simp] theorem raiseSev_beside (code fn sev obj0 obj1 pos arg arg2 : Nat) :
    (raiseSev code fn sev obj0 obj1 pos arg arg2 s).beside = s.beside := (raiseSev_told ..).beside

/-! ### Words and merge buffers (R218, R223 to R228) -/

@[simp] theorem modInst_beside (i : Nat) (f : OInst → OInst) : (modInst i f s).beside = s.beside := rfl
@[simp] theorem modGroup_beside (i g : Nat) (f : OGroup → OGroup) : (modGroup i g f s).beside = s.beside := rfl
@[simp] theorem ocpLast_beside (i g code word syn : Nat) (scrub : Bool) :
    (ocpLast i g code word syn scrub s).beside = s.beside := by
  unfold ocpLast
  exact State.modOcp_beside ..
@[simp] theorem ocpAlarm_beside (b : Nat) : (ocpAlarm b s).beside = s.beside := rfl
@[simp] theorem candidate_beside (i word : Nat) (b : Option Nat) : (candidate i word b s).beside = s.beside :=
  modGroup_beside ..
@[simp] theorem putWord_beside (i word : Nat) (w : OWord) : (putWord i word w s).beside = s.beside := rfl
@[simp] theorem poisonWord_beside (i word data : Nat) : (poisonWord i word data s).beside = s.beside := rfl

@[simp] theorem ocpCe_beside (i word code syn : Nat) (scrub : Bool) : (ocpCe i word code syn scrub s).beside = s.beside := by
  simp [ocpCe]

@[simp] theorem ocpUe_beside (i word code syn cons : Nat) (scrub : Bool) :
    (ocpUe i word code syn cons scrub s).beside = s.beside := by
  simp only [ocpUe, raiseSev_beside, logError_beside, ocpLast_beside, modInst_beside]

@[simp] theorem degrade_beside (i g reason : Nat) : (degrade i g reason s).beside = s.beside := by
  simp [degrade]

@[simp] theorem injectWord_beside (i word data : Nat) (poisoned : Bool) :
    (injectWord i word data poisoned s).beside = s.beside := by
  unfold injectWord
  extract_lets d c
  split
  · exact putWord_beside ..
  · exact (putWord_beside ..).trans (State.modOcp_beside ..)

@[simp] theorem storeWord_beside (i word data : Nat) : (storeWord i word data s).beside = s.beside := injectWord_beside ..

@[simp] theorem meetOdd_beside (i word : Nat) (scrub : Bool) : (meetOdd i word scrub s).beside = s.beside := by
  simp [meetOdd]

@[simp] theorem flushPoisoned_beside (i : Nat) (m : Merge) (v : Nat) : (flushPoisoned i m v s).beside = s.beside := by
  refine (foldl_keeps State.beside (fun _ _ => (completeId_told ..).beside) _ _).trans ?_
  rw [raisePf_beside, injectWord_beside]

@[simp] theorem flushMerge_beside (i : Nat) (m : Merge) : (flushMerge i m s).beside = s.beside := by
  unfold flushMerge
  split
  · simp
  · dsimp only
    split <;> simp

@[simp] theorem flushWord_beside (i word : Nat) : (flushWord i word s).beside = s.beside := by
  unfold flushWord
  dsimp only
  split <;> simp

@[simp] theorem flushOldest_beside (i g : Nat) : (flushOldest i g s).beside = s.beside := by
  unfold flushOldest
  split <;> simp

/-! ### Reads and writes of scratch (R220 to R226) -/

@[simp] theorem fullWrite_beside (i word data : Nat) : (fullWrite i word data s).beside = s.beside := by
  simp [fullWrite]

@[simp] theorem partialWrite_beside (i word mask data : Nat) (who : Option CmdId) :
    (partialWrite i word mask data who s).beside = s.beside := by
  unfold partialWrite
  extract_lets g room s1
  have entered : s1.beside = s.beside := by
    unfold s1 room
    split <;> simp
  clear_value s1
  split
  · simp [entered]
  · exact entered

@[simp] theorem putScratchWord_beside (stone off : Nat) (l : List PByte) (word : Nat) :
    (putScratchWord stone off l word s).beside = s.beside := by
  simp [putScratchWord]

@[simp] theorem writeScratch_beside (stone off : Nat) (l : List PByte) : (writeScratch stone off l s).beside = s.beside :=
  foldl_keeps State.beside (fun _ _ => putScratchWord_beside ..) _ s

@[simp] theorem readWord_beside (i word cons : Nat) : (readWord i word cons s).2.beside = s.beside := by
  unfold readWord
  extract_lets s1
  have met : s1.beside = s.beside := by simp [s1]
  clear_value s1
  split
  split <;> simp [met]

@[simp] theorem readScratch_beside (stone off n : Nat) : (readScratch stone off n s).2.beside = s.beside := by
  refine foldlSnd_keeps State.beside (fun p word => ?_) _ (([] : List PByte), s)
  exact readWord_beside p.2 stone (off / 8 + word) 0

@[simp] theorem readRanges_beside (stone : Nat) (l : List (Nat × Nat)) : (readRanges stone l s).2.beside = s.beside := by
  refine foldlSnd_keeps State.beside (fun p range => ?_) l (false, s)
  exact readScratch_beside p.2 stone range.1 range.2

@[simp] theorem opPoisoned_beside (b : Bed) (stone : Nat) (o : OpFx) : (opPoisoned b stone o s).2.beside = s.beside :=
  readRanges_beside ..

@[simp] theorem opStores_beside (stone : Nat) (o : OpFx) (bad : Bool) : (opStores stone o bad s).beside = s.beside :=
  foldl_keeps State.beside (fun _ _ => writeScratch_beside ..) _ s

theorem writeRows_beside (stone : Nat) (x : Issue) : (writeRows stone x s).2.beside = s.beside := by
  refine foldlSnd_keeps State.beside (fun p row => ?_) _ (([] : List (Nat × List PByte)), s)
  exact readScratch_beside p.2 stone row.1 x.tmpl.len

/-! ### Reads of memory (R191): turns, items and every byte stay -/

@[simp] theorem weaken_cells (bus : Bus) : (weaken bus s).mem.cells = s.mem.cells := by
  unfold weaken
  split <;> rfl

@[simp] theorem dramCe_cells (a : Nat) : (dramCe a s).mem.cells = s.mem.cells := by
  unfold dramCe
  extract_lets s1
  split <;> rfl

@[simp] theorem meetLine_cells (e : Nat × Bool) : (meetLine s e).mem.cells = s.mem.cells := by
  unfold meetLine
  extract_lets s1
  split
  · rfl
  · exact dramCe_cells ..

@[simp] theorem dramUe_cells (a : Nat) : (dramUe a s).mem.cells = s.mem.cells := by
  unfold dramUe
  extract_lets s1 s2
  exact (congrArg Mem.cells ((logError_told _ s2).trans (raisePf_told ..)).mem).trans rfl

@[simp] theorem meetWeak_cells (l : List Seg) : (meetWeak l s).mem.cells = s.mem.cells := by
  refine foldl_keeps (·.mem.cells) (fun s g => ?_) l s
  split
  · rfl
  · exact foldl_keeps (·.mem.cells) meetLine_cells _ s

@[simp] theorem meetPoison_cells (l : List Seg) : (meetPoison l s).mem.cells = s.mem.cells := by
  unfold meetPoison
  split <;> simp

/-- Turns and items, and what every byte of memory reads. -/
def State.stored (s : State) : Trn × List Host.Cell := (s.trn, s.mem.cells)

theorem stored_of_beside {s t : State} (h : t.beside = s.beside) : t.stored = s.stored := by
  simp [State.stored, beside_trn h, beside_mem h]

theorem useRuns_stored (l : List Seg) : (useRuns l s).stored = s.stored := by
  unfold useRuns useDdr
  split
  · split <;> rfl
  · rfl

theorem readMem_stored (bus : Bus) (l : List Seg) : (readMem bus l s).2.stored = s.stored := by
  unfold readMem
  dsimp only
  refine Prod.ext (wheel_trn ?_) ?_
  · split <;> simp
  · show Mem.cells (State.mem _) = s.mem.cells
    split <;> simp

theorem readRuns_stored (bus : Bus) (l : List Seg) : (readRuns bus l s).2.stored = s.stored :=
  (readMem_stored ..).trans (useRuns_stored ..)

end

/-! ### An item and a bed that change -/

section
variable {s : State} {n k : Nat} {i : Item}

theorem itemOf_trn {u : State} (h : u.trn = s.trn) (n : Nat) : itemOf u n = itemOf s n := by
  rw [itemOf, h]
  rfl

theorem itemOf_modItem_same (held : itemOf s n = some i) (f : Item → Item) : itemOf (modItem n f s) n = some (f i) := by
  show (s.trn.items.modify n f).get n = _
  rw [Tbl.get_modify, if_pos rfl, show s.trn.items.get n = some i from held, Option.map_some]

theorem itemOf_modItem_other {l : Nat} (h : l ≠ n) (f : Item → Item) (s : State) : itemOf (modItem n f s) l = itemOf s l :=
  (Tbl.get_modify ..).trans (if_neg h)

theorem Item.bed_alter (i : Item) (k : Nat) (f : Bed → Bed) :
    Item.bed { i with beds := i.beds.alter k {} f } k = f (i.bed k) := (Tbl.getD_alter ..).trans (if_pos rfl)

/-- What a change of a bed leaves in its item. -/
theorem itemOf_modBed_same (held : itemOf s n = some i) (k : Nat) (f : Bed → Bed) :
    ∃ x, itemOf (modBed n k f s) n = some x ∧ x.bed k = f (i.bed k) :=
  ⟨_, itemOf_modItem_same held _, i.bed_alter k f⟩

theorem modBed_beside {u : State} (h : u.beside = s.beside) (n k : Nat) (f : Bed → Bed) :
    (modBed n k f u).beside = (modBed n k f s).beside := by
  obtain ⟨core, pwr, mem, whl, trn, freeCtr⟩ := beside_eq h
  simp [State.beside, modBed, modItem, core, pwr, mem, whl, trn, freeCtr]

end

end Sys2Proof.Machine
end

section
/-! PROOFS. Bundles issue, the runner runs, and DMA descriptors start and end (04 R136, R137, 05 R154 to R160, R173). -/

namespace Sys2Proof.Machine

/-! ### The results of a bundle (R154, R221) -/

section
variable {s : State} {n k : Nat} {i : Item}

/-- The first bundle of an item puts its COG_LATENCY down and leaves the beds. -/
theorem firstBundle_leaves (held : itemOf s n = some i) :
    (firstBundle n i s).core = s.core ∧ (firstBundle n i s).mem = s.mem ∧
      (∃ x, itemOf (firstBundle n i s) n = some x ∧ x.beds = i.beds) ∧
      ∀ l, l ≠ n → itemOf (firstBundle n i s) l = itemOf s l := by
  unfold firstBundle
  split
  · exact ⟨rfl, rfl, ⟨i, held, rfl⟩, fun _ _ => rfl⟩
  · extract_lets s1
    have sampled (source x : Nat) (p : Mon → Bool) : ∃ evt, sample source x p s1 = { s1 with evt } := by
      unfold sample
      split <;> exact ⟨_, rfl⟩
    obtain ⟨evt, h⟩ := sampled 4 _ _
    rw [h]
    exact ⟨rfl, rfl, ⟨_, itemOf_modItem_same held _, rfl⟩, fun _ hl => itemOf_modItem_other hl ..⟩

/-- The registers a bundle's two operations leave in its bed. -/
def Bed.results (fx : BundleFx) (stone : Nat) (b : Bed) (s : State) : Bed → Bed := fun x =>
  (x.write fx.scalar (opPoisoned b stone fx.scalar s).1).write fx.vector
    (opPoisoned b stone fx.vector (opPoisoned b stone fx.scalar s).2).1

theorem bundleResults_beside (n k stone : Nat) (b : Bed) (fx : BundleFx) (s : State) :
    (bundleResults n k stone b fx s).beside = (modBed n k (b.results fx stone s) s).beside := by
  unfold bundleResults
  dsimp only
  rw [opStores_beside, opStores_beside]
  exact modBed_beside (by simp) n k _

/-! ### BUNDLE_ISSUE (R154, R157, R160) -/

theorem issue_unblocked {m : Image} {now j : Nat} (issues : i.issues m now = true) (noSite : (i.bed k).atSite = none)
    (runs : (i.bed k).halted = false) (inStream : (bundleAt m k j).isSome = true) :
    ¬ (i.issues m now = false ∨ (i.bed k).atSite.isSome ∨ (i.bed k).halted ∨ (bundleAt m k j).isNone) := by
  simp [issues, noSite, runs, Option.isSome_iff_ne_none.1 inStream]

section
variable {j : Nat} {fx : BundleFx} {m : Image} (held : itemOf s n = some i) (loaded : imageOf s i.image = some m)
  (issues : ¬ (i.issues m s.core.t = false ∨ (i.bed k).atSite.isSome ∨ (i.bed k).halted ∨ (bundleAt m k j).isNone))
include held loaded issues

/-- A bundle that depends on runner instructions still to do holds its gang up. -/
theorem bundleIssue_busy (busy : (fx.afterRun && (i.bed k).runnerBusy s.core.t) = true) :
    exec (.bundleIssue n k j fx) s = .next (modBed n k (fun b => { b with need := .runner }) s) := by
  show execBundleIssue n k j fx s = _
  simp only [execBundleIssue, held, loaded]
  rw [if_neg issues, if_pos busy]

section
variable (ready : (fx.afterRun && (i.bed k).runnerBusy s.core.t) = false)
include ready

theorem bundleIssue_absent (absent : (i.bed k).bundle j = none) :
    exec (.bundleIssue n k j fx) s = .next (modBed n k (Bed.want j) s) := by
  show execBundleIssue n k j fx s = _
  simp only [execBundleIssue, held, loaded, absent]
  rw [if_neg issues, if_neg (by simp [ready])]

theorem bundleIssue_present {v : Nat} (present : (i.bed k).bundle j = some v) :
    exec (.bundleIssue n k j fx) s = .next (issueBundle n k j v fx i m s) := by
  show execBundleIssue n k j fx s = _
  simp only [execBundleIssue, held, loaded, present]
  rw [if_neg issues, if_neg (by simp [ready])]

end
end

/-- The register that a bundle's DMA_ISSUE adds to its offset (R155). -/
def Bed.offReg (b : Bed) (v : Nat) : Scalar := b.scalar.getD (bits (bits v 223 160) 24 20) {}

/-- A bed's bundle issued: the results of its operations, and then the bed's control state. -/
def bundleIssued (n k j v : Nat) (fx : BundleFx) (i : Item) (s : State) : State :=
  modBed n k (Bed.issued i k j s.core.t v ((i.bed k).offReg v).val)
    (bundleResults n k (i.stone k) (i.bed k) fx (firstBundle n i s))

section
variable {j v : Nat} {fx : BundleFx} {m : Image}

/-- An illegal bundle faults its gang (R154, R166). -/
theorem issueBundle_illegal (illegal : bundleBad v = true) :
    issueBundle n k j v fx i m s = gangFault n 11 k (firstBundle n i s) := by
  unfold issueBundle
  exact if_pos illegal

theorem issueBundle_legal (held : itemOf s n = some i) (legal : bundleBad v = false)
    (control : ∀ r ∈ fx.control, ((i.bed k).scalar.getD r {}).bad = false)
    (dma : slotOp (bits v 223 160) = 3 → ((i.bed k).offReg v).bad = false ∧
      issueFault (bundleIssued n k j v fx i s) i m (bits v 223 160) ((i.bed k).offReg v).val = none) :
    issueBundle n k j v fx i m s = bundleIssued n k j v fx i s := by
  obtain ⟨core, -⟩ := firstBundle_leaves held
  have same : bundleIssued n k j v fx i s = modBed n k (Bed.issued i k j (firstBundle n i s).core.t v ((i.bed k).offReg v).val)
      (bundleResults n k (i.stone k) (i.bed k) fx (firstBundle n i s)) := by rw [core]; rfl
  have clean : (fx.control.any fun r => ((i.bed k).scalar.getD r {}).bad) = false := by simpa using control
  unfold issueBundle
  rw [same] at dma ⊢
  dsimp only
  rw [if_neg (by simp [legal]), clean]
  by_cases isDma : slotOp (bits v 223 160) = 3
  · obtain ⟨offset, noFault⟩ := dma isDma
    unfold Bed.offReg at offset noFault ⊢
    rw [if_neg (by simp [offset]), noFault]
  · rw [if_neg (by simp [isDma])]
    split
    · exact if_neg (by simp [isDma])
    · rfl

/-- What an issued bundle leaves: its bed with the results and the new control state, every other item, and memory. -/
theorem bundleIssued_leaves (held : itemOf s n = some i) (j v : Nat) (fx : BundleFx) :
    ∃ x, itemOf (bundleIssued n k j v fx i s) n = some x ∧
      x.bed k = Bed.issued i k j s.core.t v ((i.bed k).offReg v).val
        ((i.bed k).results fx (i.stone k) (firstBundle n i s) (i.bed k)) ∧
      (∀ l, l ≠ n → itemOf (bundleIssued n k j v fx i s) l = itemOf s l) ∧ (bundleIssued n k j v fx i s).mem = s.mem := by
  obtain ⟨-, mem, ⟨y, first, beds⟩, others⟩ := firstBundle_leaves held
  have results := bundleResults_beside n k (i.stone k) (i.bed k) fx (firstBundle n i s)
  have bed : y.bed k = i.bed k := congrArg (fun t : Tbl Bed => t.getD k {}) beds
  obtain ⟨z, written, wrote⟩ := itemOf_modBed_same first k ((i.bed k).results fx (i.stone k) (firstBundle n i s))
  rw [← itemOf_trn (beside_trn results)] at written
  obtain ⟨x, done, control⟩ := itemOf_modBed_same written k (Bed.issued i k j s.core.t v ((i.bed k).offReg v).val)
  refine ⟨x, done, ?_, fun l hl => ?_, ?_⟩
  · rw [control, wrote, bed]
  · exact (itemOf_modItem_other hl ..).trans ((itemOf_trn (beside_trn results) l).trans
      ((itemOf_modItem_other hl ..).trans (others l hl)))
  · exact (beside_mem results).trans mem

end

/-! ### The runner (R155, R156, log entry 32) -/

theorem freeWords_state (w : Nat) (s : State) : (freeWords w s).2 = s.modFreeCtr (· + w) := by
  induction w generalizing s with
  | zero => rfl
  | succ w ih =>
    refine (ih (takeFree s).2).trans ?_
    show s.modFreeCtr (fun c => c + 1 + w) = _
    simp only [Nat.add_assoc, Nat.add_comm 1 w]

/-- The bed of a stone whose runner instruction has been issued. -/
def Bed.ran (s : State) (slot : RunSlot) (b : Bed) : Bed :=
  let start := (b.runner.map (·.end_)).foldl max s.core.t
  { b with
    slots := b.slots.erase slot
    runner := (b.runner.filter fun o => decide (s.core.t < o.end_)) ++
      [{ start, end_ := start + cyclesNs s (matmulCycles slot.word) }] }

theorem Bed.ran_congr {u : State} (core : u.core = s.core) (pwr : u.pwr = s.pwr) (slot : RunSlot) :
    Bed.ran u slot = Bed.ran s slot := by
  unfold Bed.ran cyclesNs
  rw [core, pwr]

theorem runMatmul_runs {op : Nat} {slot : RunSlot} {fx : RunnerFx} {m : Image} (held : itemOf s n = some i)
    (loaded : imageOf s i.image = some m) (running : i.state = .running)
    (next : (i.bed k).slots.find? (fun v => decide (slotOp v.word = 1 ∨ slotOp v.word = 2)) = some slot)
    (ofOp : slotOp slot.word = op) (entry : bits slot.word 63 47 = fx.oper) (short : matmulCycles slot.word ≤ 8192)
    (arrived : (i.bed k).microIn m = true) :
    ∃ t x, runMatmul n k op fx s = .next t ∧ itemOf t n = some x ∧ x.bed k = Bed.ran s slot (i.bed k) ∧
      t.freeCtr = s.freeCtr + fx.words := by
  simp only [runMatmul, held, loaded, next]
  rw [if_neg (by simp [running, ofOp, entry]), if_neg (by omega), if_neg (by simp [arrived])]
  generalize written : writeScratch (i.stone k) _ _ _ = u
  have kept : u.beside = (s.modFreeCtr (· + fx.words)).beside := by
    rw [← written, writeScratch_beside, freeWords_state]
    obtain ⟨core, pwr, mem, whl, trn, freeCtr⟩ := beside_eq (readRanges_beside s (i.stone k)
      (if op = 2 then fx.srcs ++ [(8 * fx.dst, 8 * fx.words)] else fx.srcs))
    simp [State.beside, core, pwr, mem, whl, trn, freeCtr]
  obtain ⟨core, pwr, -, -, trn, freeCtr⟩ := beside_eq kept
  obtain ⟨x, after, bed⟩ := itemOf_modBed_same ((itemOf_trn (s := s) trn n).trans held) k (Bed.ran u slot)
  exact ⟨_, x, rfl, after, bed.trans (congrFun (Bed.ran_congr core pwr slot) _), freeCtr⟩

/-! ### DMA descriptors begin (R155, R173) -/

/-- The oldest DMA slot of a running gang's stone begins, when its template has the row's OP. -/
theorem startDma_begins {m : Image} {slot : RunSlot} {x : Issue} {op : Nat} (held : itemOf s n = some i)
    (loaded : imageOf s i.image = some m) (running : i.state = .running) (next : dmaStart s i m k = some (slot, x))
    (ofOp : x.tmpl.op = op) (f : Item → Image → RunSlot → Issue → State → State) :
    startDma n k op s f = .next (f i m slot x s) := by
  simp only [startDma, held, loaded, next]
  rw [if_neg (by simp [running]), if_pos ofOp]

theorem itemOf_noteStart (held : itemOf s n = some i) (k : Nat) (slot : RunSlot) (op : Nat) :
    ∃ x, itemOf (noteStart n k slot op s) n = some x ∧ (x.bed k).slots = (i.bed k).slots.erase slot ∧
      x.dmas = i.dmas ++ [{ stone := k, op }] := by
  refine ⟨_, itemOf_modItem_same held _, ?_, rfl⟩
  exact congrArg Bed.slots (i.bed_alter k fun b => { b with slots := b.slots.erase slot })

theorem noteStart_turns (n k : Nat) (slot : RunSlot) (op : Nat) (s : State) :
    (noteStart n k slot op s).trn.turns = s.trn.turns := rfl

/-- A sail changed as a descriptor of its gang begins, after scratch has been read. -/
theorem sailOf_started {u : State} {t : Nat} (listed : s.trn.turns.has t = true) (kept : u.beside = s.beside) (slot : RunSlot)
    (op w : Nat) (f : Sail → Sail) : sailOf (modSail t w f (noteStart n k slot op u)) t w = f (sailOf s t w) := by
  obtain ⟨y, entry⟩ := Option.isSome_iff_exists.1 listed
  have stillListed : (noteStart n k slot op u).trn.turns.get t = some y := by
    rw [noteStart_turns, beside_trn kept]
    exact entry
  rw [sailOf_modSail stillListed, sailOf_of_get entry]

section
variable {m : Image} {slot : RunSlot} {x : Issue} (held : itemOf s n = some i)
  (loaded : imageOf s i.image = some m) (running : i.state = .running) (next : dmaStart s i m k = some (slot, x))
include held loaded running next

/-- A READ of memory, of the arena, or of a bin that its granary answers writes scratch only. -/
theorem dmaRead_runs (bus : Bus) {bin : BinReply} {segs : List Seg} (ofOp : x.tmpl.op = 1)
    (bound : x.bound = .mem segs ∨ x.bound = .arena segs ∨
      ∃ h data, x.bound = .bin h ∧ isGranary s = false ∧ bin = .ok data) :
    ∃ t, exec (.dmaRead n k bus bin) s = .next t ∧ t.stored = (noteStart n k slot 1 s).stored := by
  show ∃ t, execDmaRead n k bus bin s = _ ∧ _
  unfold execDmaRead
  rw [startDma_begins held loaded running next ofOp]
  refine ⟨_, rfl, ?_⟩
  have fromRuns (segs : List Seg) (s : State) : ((rowsOf x).foldl (fun s r =>
      let e := readRuns bus (subSegs segs r.2 x.tmpl.len) s
      writeScratch (i.stone k) r.1 e.1 e.2) s).stored = s.stored :=
    foldl_keeps State.stored (fun _ _ => (stored_of_beside (writeScratch_beside ..)).trans (readRuns_stored ..)) _ s
  rcases bound with bound | bound | ⟨h, data, bound, mill, reply⟩
  · rw [bound]
    exact fromRuns segs _
  · rw [bound]
    exact fromRuns segs _
  · rw [bound, reply]
    dsimp only
    have stillMill : isGranary (noteStart n k slot 1 s) = false := mill
    rw [if_neg (by simp [stillMill])]
    exact foldl_keeps State.stored (fun s e => (stored_of_beside (writeScratch_beside (emit _ s) ..)).trans rfl) _ _

section
variable {t w : Nat} (owned : i.owner = .sail t w)
include owned

/-- A WRITE to memory by a sail that is not SET goes into the gate's hold, which has room (R136, R137). -/
theorem dmaWrite_held {bin : BinReply} {segs : List Seg} {recs : List HeldWrite} (ofOp : x.tmpl.op = 2)
    (bound : x.bound = .mem segs) (notSet : (sailOf s t w).state ≠ .set)
    (split : recs = ((writeRows (i.stone k) x s).1.flatMap fun r => recordsOf (fun o n => .mem (subSegs segs (r.1 + o) n)) r.2))
    (bytes : heldBytes (sailOf s t w).writes + heldBytes recs ≤ 262144)
    (records : (sailOf s t w).writes.length + recs.length ≤ 1024) :
    exec (.dmaWrite n k bin) s = .next (modSail t w (fun v => { v with writes := v.writes ++ recs })
      (noteStart n k slot 2 (writeRows (i.stone k) x s).2)) := by
  show execDmaWrite n k bin s = _
  unfold execDmaWrite
  rw [startDma_begins held loaded running next ofOp]
  have idle : chunkBusy s x = false := by simp [chunkBusy, bound]
  simp only [idle, bound, owned, Bool.false_eq_true, if_false, ← split]
  rw [if_neg (by simp [notSet]), if_neg (by omega)]

/-- A tailrace frame without poison by a sail goes into the gate's hold, which has room (R136 to R138). -/
theorem dmaTailFrame_held {r : Race} {last : Bool} {data : List PByte} (ofOp : x.tmpl.op = 3)
    (read : data = (readScratch (i.stone k) x.tmpl.scratch x.tmpl.len s).1) (clean : ∀ b ∈ data, b.2 = false)
    (opened : raceOf s (turnOf s t).race = some r) (fits : frameFits r x.tmpl.len last = true)
    (frames : (sailOf s t w).audio.length < 512) (smp : heldSmp (sailOf s t w).audio + x.tmpl.len / 2 ≤ 96000) :
    exec (.dmaTailFrame n k last) s = .next (modSail t w
      (fun v => { v with audio := v.audio ++ [{ nsmp := x.tmpl.len / 2, data := data.map (·.1), last }] })
      (noteStart n k slot 3 (readScratch (i.stone k) x.tmpl.scratch x.tmpl.len s).2)) := by
  have ofTurn : i.turn? = some t := by simp [Item.turn?, owned]
  have noPoison : (data.any fun b => b.2) = false := by simpa using clean
  subst read
  show execDmaTailFrame n k last s = _
  unfold execDmaTailFrame
  rw [startDma_begins held loaded running next ofOp]
  simp only [ofTurn, Option.getD_some, opened, owned, fits, noPoison, Bool.true_eq_false, Bool.false_eq_true, if_false]
  rw [if_neg (by omega)]

end

/-- The voiced flag and V of the turn's race, read out of scratch without poison (R99). -/
theorem dmaVoiced_runs {t : Nat} {l : List Byte} (ofOp : x.tmpl.op = 4) (ofTurn : i.turn? = some t)
    (read : (readScratch (i.stone k) x.tmpl.scratch 16 s).1 = l.map fun b => (b, false)) :
    exec (.dmaVoiced n k) s = .next (modRace (turnOf s t).race
      (fun r => { r with v := min (num l 0 8 % 2 ^ 48) r.h, voiced := bit (num l 8 1) 0, gap := 0 })
      (noteStart n k slot 4 (readScratch (i.stone k) x.tmpl.scratch 16 s).2)) := by
  have bytes : (l.map fun b => (b, false)).map (·.1) = l := by simp [Function.comp_def]
  have noPoison : ((l.map fun b => (b, false)).any fun b => b.2) = false := by simp
  have turn : turnOf (noteStart n k slot 4 (readScratch (i.stone k) x.tmpl.scratch 16 s).2) t = turnOf s t := by
    rw [turnOf, noteStart_turns, beside_trn (readScratch_beside ..)]
    rfl
  show execDmaVoiced n k s = _
  unfold execDmaVoiced
  rw [startDma_begins held loaded running next ofOp]
  simp only [read, noPoison, bytes, ofTurn, Option.getD_some, turn, Bool.false_eq_true, if_false]

end

/-! ### A descriptor ends (R160) -/

/-- The only descriptor of a stone with no DMA slot left releases its bed. -/
theorem dmaDescriptorDone_last {d : Dma} (held : itemOf s n = some i) (only : i.dmas = [d]) (ofStone : d.stone = k)
    (noTokens : s.tly.tokens = []) (noSlots : ∀ v ∈ (i.bed k).slots, slotOp v.word ≠ 3) :
    exec (.dmaDescriptorDone n k) s = .next (modItem n (fun i =>
      { i with dmas := [], beds := i.beds.modify k fun b => { b with waitDma := false } }) s) := by
  have noMore : ((i.bed k).slots.any fun v => decide (slotOp v.word = 3)) = false := by simpa using noSlots
  show execDmaDescriptorDone n k s = _
  simp [execDmaDescriptorDone, held, only, ofStone, noTokens, noMore]

/-- A bed that is not listed waits for nothing. -/
theorem Item.bed_released (i : Item) (k : Nat) :
    Item.bed { i with dmas := [], beds := i.beds.modify k fun b => { b with waitDma := false } } k =
      { i.bed k with waitDma := false } := by
  simp only [Item.bed, Tbl.getD, Tbl.get_modify, if_true]
  cases i.beds.get k <;> rfl

end

/-- Settles O36: each row's own lemma says what it runs to; the rest of the state is what accesses to scratch keep. -/
theorem gangsIssue : Obligations.GangsIssue := by
  refine ⟨?legal, ?illegal, ?absent, ?busy, ?runner, ?read, ?write, ?frame, ?voiced, ?ends⟩
  case legal =>
    intro s u n k j v fx i m b reg p q held loaded issues bed noSite runs inStream ready present legal control offset scalar
      vector next dma
    subst bed offset scalar vector next
    obtain ⟨x, after, bed, others, mem⟩ := bundleIssued_leaves held j v fx
    have issued := bundleIssue_present held loaded (issue_unblocked issues noSite runs inStream)
      (Bool.and_eq_false_imp.2 ready) present
    exact ⟨x, issued.trans (congrArg _ (issueBundle_legal held legal control dma)), after, bed, others, mem⟩
  case illegal =>
    intro s n k j v fx i m held loaded issues noSite runs inStream ready present illegal
    have issued := bundleIssue_present held loaded (issue_unblocked issues noSite runs inStream)
      (Bool.and_eq_false_imp.2 ready) present
    exact issued.trans (congrArg _ (issueBundle_illegal illegal))
  case absent =>
    intro s n k j fx i m held loaded issues noSite runs inStream free absent
    exact bundleIssue_absent held loaded (issue_unblocked issues noSite runs inStream) (by simp [free]) absent
  case busy =>
    intro s n k j fx i m held loaded issues noSite runs inStream depends busy
    exact bundleIssue_busy held loaded (issue_unblocked issues noSite runs inStream) (by simp [depends, busy])
  case runner =>
    intro s n k op slot fx i m held loaded running isRunner next ofOp entry short arrived
    obtain ⟨t, x, ran, after, bed, freeCtr⟩ := runMatmul_runs held loaded running next ofOp entry short arrived
    have exec_eq : exec (if op = 1 then .matmul n k fx else .matmulAcc n k fx) s = runMatmul n k op fx s := by
      rcases isRunner with rfl | rfl <;> rfl
    exact ⟨t, x, exec_eq.trans ran, after, by rw [bed]; rfl, freeCtr, _, by rw [bed]; rfl, rfl⟩
  case read =>
    intro s n k slot bus bin x segs i m held loaded running next ofOp bound
    obtain ⟨t, reads, stored⟩ := dmaRead_runs held loaded running next bus ofOp bound
    obtain ⟨y, started, slots, dmas⟩ := itemOf_noteStart held k slot 1
    have trn : t.trn = (noteStart n k slot 1 s).trn := congrArg Prod.fst stored
    exact ⟨t, y, reads, (itemOf_trn trn n).trans started, slots, dmas, congrArg Prod.snd stored⟩
  case write =>
    intro s n k t w slot bin x segs i m recs held loaded running next ofOp bound owned notSet split bytes records listed
    have kept := writeRows_beside s (i.stone k) x
    exact ⟨_, dmaWrite_held held loaded running next owned ofOp bound notSet split bytes records,
      congrArg Sail.writes (sailOf_started listed kept slot 2 w _), (beside_mem kept :)⟩
  case frame =>
    intro s n k t w slot last x data i m r held loaded running next ofOp owned read clean opened fits frames smp listed
    exact ⟨_, dmaTailFrame_held held loaded running next owned ofOp read clean opened fits frames smp,
      congrArg Sail.audio (sailOf_started listed (readScratch_beside ..) slot 3 w _)⟩
  case voiced =>
    intro s n k t slot x l i m r held loaded running next ofOp ofTurn read opened
    obtain ⟨-, -, -, whl, -⟩ := beside_eq (readScratch_beside s (i.stone k) x.tmpl.scratch 16)
    refine ⟨_, dmaVoiced_runs held loaded running next ofOp ofTurn read, raceOf_modRace_same ?_ _⟩
    exact (raceOf_whl (t := noteStart n k slot 4 _) whl _).trans opened
  case ends =>
    intro s n k i d held only ofStone noTokens noSlots
    refine ⟨_, _, dmaDescriptorDone_last held only ofStone noTokens noSlots, itemOf_modItem_same held _, rfl, ?_, rfl⟩
    exact i.bed_released k

end Sys2Proof.Machine
end

section
/-! PROOFS. MAP, UNMAP and XLATE_INVALIDATE, and the end of a drain (06 R193 to R200, R202). -/

namespace Sys2Proof.Machine

section
variable {s : State} {id : CmdId} {c : Cmd}

/-! ### The command and its address space (R193, R202) -/

theorem findCmd_of_runs {op : Opc} (hr : Runs s op id c) : findCmd s id = some c := by
  unfold Runs runnable at hr
  cases found : findCmd s id with
  | none => simp [found] at hr
  | some d =>
    rw [found] at hr
    exact (Option.ite_none_right_eq_some.1 hr).2

/-- A command that runs is found under its own number. -/
theorem findCmd_own {op : Opc} (hr : Runs s op id c) : findCmd s c.id = some c := by
  have found := findCmd_of_runs hr
  rwa [findCmd_id found]

theorem completeId_found (found : findCmd s id = some c) (st : Status) (r r2 : Nat) :
    completeId id st r r2 s = complete c st r r2 s := by
  unfold completeId
  rw [found]

theorem ctxAsidBad_own (low : c.context ≤ 1023) (own : ownsAsid s c.fn c.context = true) : ctxAsidBad s c = false := by
  simp [ctxAsidBad, low, own]

theorem heldCheck_free {asid lo hi : Nat} (free : holderOf s asid lo hi = none) (c : Cmd) :
    (heldCheck s asid lo hi c).1 = false := by
  simp [heldCheck, deny, free]

theorem rsv_zero {p : List Word} {n hi lo : Nat} (zero : fld p n hi lo = 0) : (rsv p n hi lo).1 = false := by
  simp [rsv, zero]

/-- A VA field of any alignment has only its high bits to check. -/
theorem vaField_canonical {p : List Word} {n : Nat} (canonical : qw p n < 2 ^ 57) : (vaField p n 1).1 = false :=
  vaField_aligned canonical (Nat.mod_one _)

/-- The leaves of the address space that a command names, none for one not yet created. -/
def leavesOf (s : State) (c : Cmd) : List Extent := (s.mem.spaces.getD c.context { fn := c.fn }).extents

theorem leavesOf_get {sp : Space} (listed : s.mem.spaces.get c.context = some sp) : leavesOf s c = sp.extents :=
  congrArg Space.extents (tbl_getD_of_get listed _)

/-! ### Cached translations (R198, R200) -/

/-- Dropping cached translations touches the two caches alone. -/
theorem dropCached_eq (leaves : List Extent) (asid lo hi : Nat) (s : State) :
    ∃ leafCache walkCache, dropCached leaves asid lo hi s = { s with mem := { s.mem with leafCache, walkCache } } :=
  ⟨_, _, rfl⟩

theorem PageSize.bytes_pos (b : PageSize) : 0 < b.bytes := by
  cases b <;> decide

/-- No page of a space stays cached below the end of a range that begins at VA 0. -/
theorem dropCached_from_zero {leaves : List Extent} {asid hi : Nat} {l : Nat × Nat}
    (cached : l ∈ (dropCached leaves asid 0 hi s).mem.leafCache) (same : l.1 = asid) : hi ≤ l.2 := by
  have beyond (size : Nat) (pos : 0 < size)
      (kept : (!(decide (l.1 = asid) && decide (0 < l.2 + size) && decide (l.2 < hi))) = true) : hi ≤ l.2 := by
    simp [same] at kept
    omega
  refine beyond _ ?_ (List.mem_filter.1 cached).2
  dsimp only
  split
  · exact PageSize.bytes_pos _
  · exact PageSize.bytes_pos _

/-! ### A drain ends (R199, R200) -/

/-- The state without a drain, and without the address space that it destroys. -/
def drainEnded (d : Drain) (s : State) : State :=
  s.modMem fun m =>
    { m with
      drains := m.drains.filter fun x => x.id ≠ d.id
      spaces := if d.destroy then m.spaces.erase d.asid else m.spaces }

theorem drainEnded_destroy {d : Drain} (destroy : d.destroy = true) (s : State) :
    (drainEnded d s).mem.spaces = s.mem.spaces.erase d.asid := if_pos destroy

theorem drainEnded_keep {d : Drain} (keep : d.destroy = false) (s : State) :
    (drainEnded d s).mem.spaces = s.mem.spaces := if_neg (by simp [keep])

theorem endDrain_found {d : Drain} (found : findCmd s d.id = some c) :
    endDrain d s = complete c .success d.waited d.cancelled (drainEnded d s) :=
  completeId_found (s := drainEnded d s) found ..

theorem drainEnd_runs {d : Drain} (listed : s.mem.drains.find? (fun d => d.id = id) = some d) (ended : drainOver s d = true)
    (found : findCmd s d.id = some c) :
    exec (.invalidateDrainEnd id) s = .next (complete c .success d.waited d.cancelled (drainEnded d s)) := by
  show execInvalidateDrainEnd id s = _
  unfold execInvalidateDrainEnd
  rw [listed]
  exact (onEvent_holds ended).trans (congrArg _ (endDrain_found found))

/-! ### An invalidation with no descriptor in flight (R200) -/

/-- No descriptor, work request, receive entry, check job or hopper fill exists that could hold a translation. -/
structure NoneInFlight (s : State) : Prop where
  copies : s.mem.copies = []
  engines : s.chk.engines = []
  qps : s.rdm.qps = []
  srqs : s.rdm.srqs = []
  fills : s.mem.fills = []

/-- The drain of a command that waits for nothing. -/
def emptyDrain (c : Cmd) (asid tables : Nat) (destroy : Bool) : Drain :=
  { id := c.id, asid, copies := [], wrs := [], jobs := [], fills := [], waited := 0, cancelled := 0, tables, destroy }

/-- With nothing in flight an invalidation drops what is cached and ends at once, under CANCEL or not. -/
theorem invalidate_ends (idle : NoneInFlight s) (leaves : List Extent) (asid lo hi : Nat) (cancel destroy : Bool) :
    ∃ tables, invalidate c leaves asid lo hi cancel destroy s =
      endDrain (emptyDrain c asid tables destroy) (dropCached leaves asid lo hi s) := by
  obtain ⟨copies, engines, qps, srqs, fills⟩ := idle
  obtain ⟨leafCache, walkCache, dropped⟩ := dropCached_eq leaves asid lo hi s
  refine ⟨tableBytes leaves - tableBytes (s.mem.spaces.getD asid { fn := 0 }).extents, ?_⟩
  unfold invalidate
  rw [dropped]
  simp [copies, engines, qps, srqs, fills, recvsIn, drainOver, emptyDrain]
  rfl

/-- What such an invalidation leaves: the caches without the range, memory as it was, and the spaces but for one destroyed. -/
theorem invalidate_completes (found : findCmd s c.id = some c) (idle : NoneInFlight s) (leaves : List Extent) (asid lo hi : Nat)
    (cancel destroy : Bool) :
    ∃ u, invalidate c leaves asid lo hi cancel destroy s = complete c .success 0 0 u ∧
      u.mem.spaces = (if destroy then s.mem.spaces.erase asid else s.mem.spaces) ∧ u.mem.cells = s.mem.cells ∧
      u.mem.leafCache = (dropCached leaves asid lo hi s).mem.leafCache := by
  obtain ⟨tables, ends⟩ := invalidate_ends (c := c) idle leaves asid lo hi cancel destroy
  exact ⟨_, ends.trans (endDrain_found found), rfl, rfl, rfl⟩

/-! ### MAP (R194, R198) -/

/-- The fields of a MAP that are checked by themselves. -/
def mapForm (p : List Word) : List (Bool × Nat) :=
  [vaField p 2 1, vaField p 4 1, rsv p 7 31 12, (decide (fld p 8 1 0 = 3), 32), (decide (fld p 8 3 2 = 3), 32), rsv p 8 31 7]

theorem mapForm_pass {p : List Word} {page : PageSize} {target : Target3} (ofPage : PageSize.ofCode (fld p 8 1 0) = some page)
    (ofTarget : Target3.ofCode (fld p 8 3 2) = some target) (res7 : fld p 7 31 12 = 0) (res8 : fld p 8 31 7 = 0)
    (va : qw p 2 < 2 ^ 57) (addr : qw p 4 < 2 ^ 57) : ∀ e ∈ mapForm p, e.1 = false := by
  have pageKnown : fld p 8 1 0 ≠ 3 := fun code => by simp [code, PageSize.ofCode] at ofPage
  have targetKnown : fld p 8 3 2 ≠ 3 := fun code => by simp [code, Target3.ofCode] at ofTarget
  simp [mapForm, vaField_canonical va, vaField_canonical addr, rsv_zero res7, rsv_zero res8, pageKnown, targetKnown]

/-- The fields of a MAP that its page size, its target and the space's leaves decide. -/
def mapRange (s : State) (c : Cmd) (page : PageSize) (target : Target3) : List (Bool × Nat) :=
  let p := c.pkt
  let len := qw p 6 % 2 ^ 44
  [ (decide (qw p 2 % page.bytes ≠ 0), 8),
    (decide (qw p 4 % page.bytes ≠ 0) || (!(decide (target = .ddr) && isGranary s) && targetPast s target (qw p 4) len), 16),
    (decide (len = 0) || decide (len % page.bytes ≠ 0) || decide (2 ^ 43 < len) || decide (2 ^ 57 < qw p 2 + len), 24),
    (!fbit p 8 5 && rangeMapped (leavesOf s c) (qw p 2) (qw p 2 + len), 32) ]

theorem mapRange_pass {page : PageSize} {target : Target3} {len : Nat} (ofLen : len = qw c.pkt 6 % 2 ^ 44)
    (va : qw c.pkt 2 % page.bytes = 0) (addr : qw c.pkt 4 % page.bytes = 0) (nonempty : 0 < len) (whole : len % page.bytes = 0)
    (short : len ≤ 2 ^ 43) (within : qw c.pkt 2 + len ≤ 2 ^ 57) (onTarget : targetPast s target (qw c.pkt 4) len = false)
    (fresh : fbit c.pkt 8 5 = true ∨ rangeMapped (leavesOf s c) (qw c.pkt 2) (qw c.pkt 2 + len) = false) :
    ∀ e ∈ mapRange s c page target, e.1 = false := by
  have fourth : (!fbit c.pkt 8 5 && rangeMapped (leavesOf s c) (qw c.pkt 2) (qw c.pkt 2 + len)) = false := by
    rcases fresh with replace | unmapped
    · simp [replace]
    · simp [unmapped]
  have third : (decide (len = 0) || decide (len % page.bytes ≠ 0) || decide (2 ^ 43 < len) ||
      decide (2 ^ 57 < qw c.pkt 2 + len)) = false := by
    rw [decide_eq_false (by omega), decide_eq_false (by omega), decide_eq_false (by omega), decide_eq_false (by omega)]
    rfl
  unfold mapRange
  dsimp only
  rw [← ofLen, third, fourth, onTarget]
  simp [va, addr]

/-- The leaves of a space after a MAP into it. -/
def mappedLeaves (s : State) (c : Cmd) (page : PageSize) (target : Target3) : List Extent :=
  let p := c.pkt
  let len := qw p 6 % 2 ^ 44
  insertExtent { va := qw p 2, page, count := len / page.bytes, target, addr := qw p 4, w := fbit p 8 4 }
    (dropPages (leavesOf s c) (qw p 2) (qw p 2 + len))

theorem map_runs {page : PageSize} {target : Target3} {hi : Nat} (hr : Runs s .map id c)
    (ofHi : hi = qw c.pkt 2 + qw c.pkt 6 % 2 ^ 44) (low : c.context ≤ 1023)
    (own : ownsAsid s c.fn c.context = true) (formed : ∀ e ∈ mapForm c.pkt, e.1 = false)
    (ofPage : PageSize.ofCode (fld c.pkt 8 1 0) = some page) (ofTarget : Target3.ofCode (fld c.pkt 8 3 2) = some target)
    (ranged : ∀ e ∈ mapRange s c page target, e.1 = false) (allowed : target = .ddr → isGranary s = false)
    (free : holderOf s c.context (qw c.pkt 2) hi = none)
    (room : ptsUsed s - tableBytes (leavesOf s c) + tableBytes (mappedLeaves s c page target) ≤ mib s.mem.sizes.pt) :
    exec (.map id) s = .next (complete c .success 0 0 (dropCached (leavesOf s c) c.context (qw c.pkt 2) hi
      (s.modMem fun m => { m with
        spaces := m.spaces.set c.context { fn := c.fn, extents := mappedLeaves s c page target } }))) := by
  subst ofHi
  have permitted : (decide (target = .ddr) && isGranary s) = false := by simpa using allowed
  show execMap id s = _
  unfold execMap
  rw [onCmd_runs hr]
  dsimp only
  rw [checks_pass, ofPage, ofTarget]
  · dsimp only
    rw [checks_pass]
    · rfl
    · show (!(fields c (mapRange s c page target)).1 && (!(decide (target = .ddr) && isGranary s) &&
        (!(heldCheck s c.context _ _ c).1 && (!decide (mib s.mem.sizes.pt < ptsUsed s -
          (if ownsAsid s c.fn c.context then tableBytes (leavesOf s c) else 0) + tableBytes (mappedLeaves s c page target)) &&
            true)))) = true
      rw [fields_pass ranged, permitted, heldCheck_free free, if_pos own, decide_eq_false (Nat.not_lt.2 room)]
      rfl
  · have form : (fields c (mapForm c.pkt)).1 = false := fields_pass formed c
    show (!(noRes _ c).1 && (!_ && (!(fields c (mapForm c.pkt)).1 && true))) = true
    simp [noRes, form, own, low]

/-! ### UNMAP and XLATE_INVALIDATE (R199, R200) -/

/-- The state with a space's leaves changed. -/
def modLeaves (asid : Nat) (f : List Extent → List Extent) (s : State) : State :=
  s.modMem fun m => { m with spaces := m.spaces.modify asid fun sp => { sp with extents := f sp.extents } }

section
variable (low : c.context ≤ 1023) (own : ownsAsid s c.fn c.context = true)
include low own

/-- The three checks of a row that changes or invalidates a range: the space is the function's own, the fields are in order, and
no page of the range is held. -/
theorem spaceChecks_pass {lo hi : Nat} {denied : State → State} {form : Bool × (State → State)} (formed : form.1 = false)
    (free : holderOf s c.context lo hi = none) :
    passes [(ctxAsidBad s c, denied), form, heldCheck s c.context lo hi c] = true := by
  simp [passes, ctxAsidBad_own low own, formed, heldCheck_free free]

theorem unmap_runs {hi : Nat} (hr : Runs s .unmap id c) (ofHi : hi = qw c.pkt 2 + qw c.pkt 4 % 2 ^ 44)
    (keep : fbit c.pkt 6 0 = false) (res5 : fld c.pkt 5 31 12 = 0) (res6 : fld c.pkt 6 31 2 = 0) (va : qw c.pkt 2 < 2 ^ 57)
    (whole : splitsPage (leavesOf s c) (qw c.pkt 2) hi = false) (free : holderOf s c.context (qw c.pkt 2) hi = none) :
    exec (.unmap id) s = .next (invalidate c (leavesOf s c) c.context (qw c.pkt 2) hi (fbit c.pkt 6 1) false
      (modLeaves c.context (fun l => unmapRange l (qw c.pkt 2) hi) s)) := by
  have formed : (fields c [vaField c.pkt 2 1, rsv c.pkt 5 31 12, rsv c.pkt 6 31 2,
      (splitsPage (leavesOf s c) (qw c.pkt 2) hi, 8)]).1 = false :=
    fields_pass (by simp [vaField_canonical va, rsv_zero res5, rsv_zero res6, whole]) c
  show execUnmap id s = _
  unfold execUnmap
  rw [onCmd_runs hr]
  dsimp only
  rw [if_neg (by simp [keep]), ← ofHi]
  exact congrArg _ (checks_pass (spaceChecks_pass low own formed free))

theorem unmapDestroy_runs (hr : Runs s .unmap id c) (destroy : fbit c.pkt 6 0 = true) (res6 : fld c.pkt 6 31 2 = 0)
    (va : qw c.pkt 2 = 0) (len : qw c.pkt 4 = 0) (free : holderOf s c.context 0 (2 ^ 57) = none) :
    exec (.unmapDestroy id) s = .next (invalidate c (leavesOf s c) c.context 0 (2 ^ 57) (fbit c.pkt 6 1) true
      (modLeaves c.context (fun _ => []) s)) := by
  have formed : (fields c [(decide (qw c.pkt 2 ≠ 0), 8), (decide (qw c.pkt 4 ≠ 0), 16), rsv c.pkt 6 31 2]).1 = false :=
    fields_pass (by simp [va, len, rsv_zero res6]) c
  show execUnmapDestroy id s = _
  unfold execUnmapDestroy
  rw [onCmd_runs hr]
  dsimp only
  rw [if_neg (by simp [destroy])]
  exact congrArg _ (checks_pass (spaceChecks_pass low own formed free))

/-- LENGTH 0 names the whole address space. -/
theorem xlateInvalidate_whole (hr : Runs s .xlateInvalidate id c) (res5 : fld c.pkt 5 31 12 = 0) (res6 : fld c.pkt 6 31 1 = 0)
    (va : qw c.pkt 2 < 2 ^ 57) (len : qw c.pkt 4 % 2 ^ 44 = 0) (free : holderOf s c.context 0 (2 ^ 57) = none) :
    exec (.xlateInvalidate id) s =
      .next (invalidate c (leavesOf s c) c.context 0 (2 ^ 57) (fbit c.pkt 6 0) false s) := by
  have formed : (fields c [vaField c.pkt 2 1, rsv c.pkt 5 31 12, rsv c.pkt 6 31 1]).1 = false :=
    fields_pass (by simp [vaField_canonical va, rsv_zero res5, rsv_zero res6]) c
  show execXlateInvalidate id s = _
  unfold execXlateInvalidate
  rw [onCmd_runs hr]
  dsimp only
  rw [if_pos len, if_pos len]
  exact congrArg _ (checks_pass (spaceChecks_pass low own formed free))

end

end

/-- Settles O21: each row's own lemma says what it runs to; with nothing in flight an invalidation ends at once. -/
theorem mapAndUnmap : Obligations.MapAndUnmap := by
  refine ⟨?map, ?unmap, ?destroy, ?xlate, ?drainEnd⟩
  case map =>
    intro s id c page target va addr len old new hr ofPage ofTarget ofVa ofAddr ofLen res7 res8 canonVa canonAddr low own
      alignedVa alignedAddr nonempty whole short within onTarget allowed ofOld fresh ofNew free room
    subst ofVa ofAddr ofOld
    have formed := mapForm_pass ofPage ofTarget res7 res8 canonVa canonAddr
    have ranged := mapRange_pass ofLen alignedVa alignedAddr nonempty whole short within onTarget fresh
    have leaves : new = mappedLeaves s c page target := by rw [ofNew, ofLen]; rfl
    subst leaves
    refine ⟨_, ⟨?_, ?_, rfl⟩, map_runs hr (by rw [ofLen]) low own formed ofPage ofTarget ranged allowed free room⟩
    · exact (Tbl.get_set ..).trans (if_pos rfl)
    · exact fun a other => (Tbl.get_set ..).trans (if_neg other)
  case unmap =>
    intro s id c va hi sp hr res6 keep ofVa ofHi canonVa res5 low own listed whole free copies engines qps srqs fills
    subst ofVa
    rw [← leavesOf_get listed] at whole
    obtain ⟨u, ended, spaces, cells, -⟩ := invalidate_completes
      (s := modLeaves c.context (fun l => unmapRange l (qw c.pkt 2) hi) s) (findCmd_own hr :)
      ⟨copies, engines, qps, srqs, fills⟩ (leavesOf s c) c.context (qw c.pkt 2) hi (fbit c.pkt 6 1) false
    have modified : u.mem.spaces = s.mem.spaces.modify c.context fun sp =>
      { sp with extents := unmapRange sp.extents (qw c.pkt 2) hi } := spaces
    refine ⟨u, ⟨?_, fun a other => ?_, cells⟩,
      (unmap_runs low own hr ofHi keep res5 res6 canonVa whole free).trans (congrArg _ ended)⟩
    · rw [modified, Tbl.get_modify, if_pos rfl, listed, Option.map_some]
    · rw [modified, Tbl.get_modify, if_neg other]
  case destroy =>
    intro s id c hr res6 destroy va len low own free copies engines qps srqs fills
    obtain ⟨u, ended, spaces, cells, -⟩ := invalidate_completes (s := modLeaves c.context (fun _ => []) s) (findCmd_own hr :)
      ⟨copies, engines, qps, srqs, fills⟩ (leavesOf s c) c.context 0 (2 ^ 57) (fbit c.pkt 6 1) true
    have erased : u.mem.spaces = s.mem.spaces.erase c.context := spaces.trans (tbl_erase_modify ..)
    refine ⟨u, ⟨?_, fun a other => ?_, cells⟩,
      (unmapDestroy_runs low own hr destroy res6 va len free).trans (congrArg _ ended)⟩
    · rw [erased, Tbl.get_erase, if_pos rfl]
    · rw [erased, Tbl.get_erase, if_neg other]
  case xlate =>
    intro s id c hr res6 res5 canonVa len low own free copies engines qps srqs fills
    obtain ⟨u, ended, spaces, cells, cached⟩ := invalidate_completes (findCmd_own hr) ⟨copies, engines, qps, srqs, fills⟩
      (leavesOf s c) c.context 0 (2 ^ 57) (fbit c.pkt 6 0) false
    refine ⟨u, ⟨spaces, cells, fun l kept same => ?_⟩,
      (xlateInvalidate_whole low own hr res5 res6 canonVa len free).trans (congrArg _ ended)⟩
    rw [cached] at kept
    exact dropCached_from_zero kept same
  case drainEnd =>
    intro s id d c listed ended found
    refine ⟨drainEnded d s, ⟨rfl, fun destroy => ?_, fun keep => drainEnded_keep keep s⟩, drainEnd_runs listed ended found⟩
    rw [drainEnded_destroy destroy, Tbl.get_erase, if_pos rfl]

end Sys2Proof.Machine
end

section
/-! PROOFS. The code of the protected memories, its classes, and what a read of a VALID word returns (07 R214 to R217). -/

namespace Sys2Proof.Machine

/-! ### Syndromes and their classes (R214, R215, R217) -/

theorem classOf_col : ∀ i < 64, classOf (ocpCol i) = .ceData i := by decide +kernel

theorem classOf_checkBit : ∀ j < 8, classOf (2 ^ j) = .ceCheck j := by decide +kernel

theorem classOf_ocpF : ∀ k ≤ 20, classOf (ocpF k) = .ueAddress := by decide +kernel

theorem weight8_ocpF_even : ∀ k ≤ 20, weight8 (ocpF k) % 2 = 0 := by decide +kernel

theorem classOf_clean_iff (n : Nat) : classOf n = .clean ↔ n = 0 := by
  refine ⟨fun clean => Decidable.byContradiction fun nonzero => ?_, fun zero => if_pos zero⟩
  rw [classOf, if_neg nonzero] at clean
  split at clean
  · cases clean
  · split at clean
    · cases clean
    · split at clean <;> cases clean

/-- A syndrome that no column and no fold value equals names no single bit and no address bit. -/
theorem classOf_multi {n : Nat} (nonzero : n ≠ 0) (noCol : ∀ i, i < 64 → n ≠ ocpCol i)
    (noBit : ∀ j, j < 8 → n ≠ 2 ^ j) (noFold : ∀ k, k ≤ 20 → n ≠ ocpF k) : classOf n = .ueMulti := by
  have cols : (List.range 64).find? (fun i => decide (ocpCol i = n)) = none :=
    List.find?_eq_none.2 fun i hi => by simpa using (noCol i (List.mem_range.1 hi)).symm
  have checkBits : (List.range 8).find? (fun j => decide (2 ^ j = n)) = none :=
    List.find?_eq_none.2 fun j hj => by simpa using (noBit j (List.mem_range.1 hj)).symm
  have folds : (List.range 21).any (fun k => decide (ocpF k = n)) = false :=
    List.any_eq_false.2 fun k hk => by simpa using (noFold k (Nat.le_of_lt_succ (List.mem_range.1 hk))).symm
  rw [classOf, if_neg nonzero, cols, checkBits, folds]
  rfl

/-! ### The XOR over set bits (R215, R216) -/

theorem xor_cancel_left (a b : Nat) : a ^^^ (a ^^^ b) = b := by
  rw [← Nat.xor_assoc, Nat.xor_self, Nat.zero_xor]

theorem xor_cancel_right (a b : Nat) : a ^^^ b ^^^ b = a := by
  rw [Nat.xor_assoc, Nat.xor_self, Nat.xor_zero]

theorem xorBits_succ (n : Nat) (f : Nat → Nat) (v : Nat) :
    xorBits (n + 1) f v = xorBits n f v ^^^ if bit v n then f n else 0 := by
  unfold xorBits maskBits numsWhere
  rw [List.range_succ, List.filter_append, List.foldl_append]
  cases set : bit v n <;> simp [set]

/-- The code is linear. -/
theorem xorBits_xor (n : Nat) (f : Nat → Nat) (u v : Nat) : xorBits n f (u ^^^ v) = xorBits n f u ^^^ xorBits n f v := by
  induction n with
  | zero => exact (Nat.xor_self 0).symm
  | succ n ih =>
    have last : (if bit (u ^^^ v) n then f n else 0) = (if bit u n then f n else 0) ^^^ if bit v n then f n else 0 := by
      unfold bit
      rw [Nat.testBit_xor]
      cases u.testBit n <;> cases v.testBit n <;> simp
    rw [xorBits_succ, xorBits_succ, xorBits_succ, ih, last]
    ac_rfl

theorem xorBits_two_pow (n : Nat) (f : Nat → Nat) (k : Nat) : xorBits n f (2 ^ k) = if k < n then f k else 0 := by
  induction n with
  | zero => rfl
  | succ n ih =>
    rw [xorBits_succ, ih, bit, Nat.testBit_two_pow]
    rcases Nat.lt_trichotomy k n with below | rfl | above
    · rw [if_pos below, if_pos (Nat.lt_succ_of_lt below), if_neg (by simpa using Nat.ne_of_lt below), Nat.xor_zero]
    · rw [if_neg (Nat.lt_irrefl k), if_pos (Nat.lt_succ_self k), if_pos (decide_eq_true rfl), Nat.zero_xor]
    · rw [if_neg (Nat.lt_asymm above), if_neg (Nat.not_lt_of_le above), if_neg (by simpa using Nat.ne_of_gt above),
        Nat.xor_zero]

theorem ocpFold_flip (a : Nat) {k : Nat} (hk : k ≤ 20) : ocpFold (a ^^^ 2 ^ k) = ocpFold a ^^^ ocpF k := by
  rw [ocpFold, xorBits_xor, xorBits_two_pow, if_pos (Nat.lt_succ_of_le hk)]
  rfl

/-! ### Syndromes of what was written (R216, R217) -/

theorem ocpCheck_flip (d a : Nat) {i : Nat} (hi : i < 64) : ocpCheck (d ^^^ 2 ^ i) a = ocpCheck d a ^^^ ocpCol i := by
  rw [ocpCheck, xorBits_xor, xorBits_two_pow, if_pos hi, ← Nat.xor_assoc]
  rfl

/-- The syndrome of data written at one address and read at another: the data falls out. -/
theorem ocpCheck_xor_address (d a a' : Nat) : ocpCheck d a ^^^ ocpCheck d a' = ocpFold a ^^^ ocpFold a' := by
  unfold ocpCheck
  rw [Nat.xor_assoc, Nat.xor_comm (ocpFold a'), xor_cancel_left]

theorem classAt_valid {w : OWord} (valid : w.bad = false) (a : Nat) :
    w.classAt a = (classOf (w.check ^^^ ocpCheck w.data a), w.check ^^^ ocpCheck w.data a) := by
  unfold OWord.classAt
  rw [valid]
  rfl

/-- One address bit wrong gives its own fold value. -/
theorem classAt_address_flip (d a : Nat) {k : Nat} (hk : k ≤ 20) :
    (OWord.mk d (ocpCheck d a) false).classAt (a ^^^ 2 ^ k) = (.ueAddress, ocpF k) := by
  have syndrome : ocpCheck d a ^^^ ocpCheck d (a ^^^ 2 ^ k) = ocpF k := by
    rw [ocpCheck_xor_address, ocpFold_flip a hk, xor_cancel_left]
  rw [classAt_valid rfl, syndrome, classOf_ocpF k hk]

/-- One data bit wrong gives its own column. -/
theorem classAt_data_flip (d a : Nat) {i : Nat} (hi : i < 64) :
    (OWord.mk (d ^^^ 2 ^ i) (ocpCheck d a) false).classAt a = (.ceData i, ocpCol i) := by
  have syndrome : ocpCheck d a ^^^ ocpCheck (d ^^^ 2 ^ i) a = ocpCol i := by
    rw [ocpCheck_flip d a hi, xor_cancel_left]
  rw [classAt_valid rfl, syndrome, classOf_col i hi]

/-- Two data bits wrong whose columns differ by a fold value are taken for an address error. -/
theorem classAt_double_flip (d a : Nat) {i j k : Nat} (hi : i < 64) (hj : j < 64) (hk : k ≤ 20)
    (same : ocpCol i ^^^ ocpCol j = ocpF k) :
    ((OWord.mk (d ^^^ 2 ^ i ^^^ 2 ^ j) (ocpCheck d a) false).classAt a).1 = .ueAddress := by
  have syndrome : ocpCheck d a ^^^ ocpCheck (d ^^^ 2 ^ i ^^^ 2 ^ j) a = ocpF k := by
    rw [ocpCheck_flip _ a hj, ocpCheck_flip d a hi, Nat.xor_assoc, xor_cancel_left, same]
  rw [classAt_valid rfl, syndrome, classOf_ocpF k hk]

end Sys2Proof.Machine
end

section
/-! PROOFS. The protected memories: what is read after a change of a memory, a group or a word, and what errors and merge
buffers make of them (07 R216 to R228, R233). -/

namespace Sys2Proof.Machine

/-! ### Changes of the protected memories alone -/

/-- The second state differs from the first in the protected memories alone. -/
def OnlyOcp (s t : State) : Prop := ∃ o, t = { s with ocp := o }

theorem OnlyOcp.eq {s t : State} (h : OnlyOcp s t) : t = { s with ocp := t.ocp } := by
  obtain ⟨o, rfl⟩ := h
  rfl

theorem OnlyOcp.trans {a b c : State} (h : OnlyOcp a b) (k : OnlyOcp b c) : OnlyOcp a c := by
  obtain ⟨o, rfl⟩ := h
  obtain ⟨o', rfl⟩ := k
  exact ⟨o', rfl⟩

/-- What is told of after a change of the protected memories. -/
theorem OnlyOcp.told {s u t : State} (h : OnlyOcp s u) (told : Told u t) : Told { s with ocp := t.ocp } t := by
  obtain ⟨o, rfl⟩ := h
  rw [told.ocp]
  exact told

theorem Told.modOcp {s t : State} (h : Told s t) (f : Ocp → Ocp) : Told (s.modOcp f) (t.modOcp f) :=
  { h with ocp := congrArg f h.ocp }

section
variable {s t : State} (i j g h word : Nat)

/-! ### Memories and groups after a change -/

theorem modOcp_inst {f : Ocp → Ocp} (keeps : (f s.ocp).insts = s.ocp.insts) : ocpInst (s.modOcp f) i = ocpInst s i := by
  unfold ocpInst
  rw [State.modOcp_ocp, keeps]

@[simp] theorem modInst_inst (f : OInst → OInst) : ocpInst (modInst i f s) i = f (ocpInst s i) :=
  (Tbl.getD_alter ..).trans (if_pos rfl)

theorem modInst_inst_other {i j : Nat} (other : j ≠ i) (f : OInst → OInst) : ocpInst (modInst i f s) j = ocpInst s j :=
  (Tbl.getD_alter ..).trans (if_neg other)

theorem modInst_group {f : OInst → OInst} (keeps : ∀ x, (f x).groups = x.groups) :
    ocpGroup (modInst i f s) i h = ocpGroup s i h := by
  unfold ocpGroup
  rw [modInst_inst, keeps]

@[simp] theorem modGroup_words (f : OGroup → OGroup) : (ocpInst (modGroup i g f s) i).words = (ocpInst s i).words := by
  rw [modGroup, modInst_inst]

@[simp] theorem modGroup_ce (f : OGroup → OGroup) : (ocpInst (modGroup i g f s) i).ce = (ocpInst s i).ce := by
  rw [modGroup, modInst_inst]

@[simp] theorem modGroup_group_same (f : OGroup → OGroup) : ocpGroup (modGroup i g f s) i g = f (ocpGroup s i g) :=
  (congrArg (fun x => x.groups.getD g {}) (modInst_inst ..)).trans ((Tbl.getD_alter ..).trans (if_pos rfl))

/-! ### Memories, groups and injections after what tells of them -/

theorem Told.inst (told : Told s t) : ocpInst t i = ocpInst s i := by
  unfold ocpInst
  rw [told.ocp]

theorem Told.group (told : Told s t) : ocpGroup t i h = ocpGroup s i h := by
  unfold ocpGroup
  rw [told.inst]

theorem Told.injection_eq (told : Told s t) : injection t i word = injection s i word := by
  unfold injection
  rw [told.ocp]

@[simp] theorem raisePf_inst (code obj0 arg : Nat) : ocpInst (raisePf code obj0 arg s) i = ocpInst s i := (raisePf_told ..).inst i
@[simp] theorem raisePf_group (code obj0 arg : Nat) : ocpGroup (raisePf code obj0 arg s) i h = ocpGroup s i h :=
  (raisePf_told ..).group i h
@[simp] theorem logError_inst (e : Err) : ocpInst (logError e s) i = ocpInst s i := (logError_told ..).inst i
@[simp] theorem ocpAlarm_inst (b : Nat) : ocpInst (ocpAlarm b s) i = ocpInst s i := rfl
@[simp] theorem ocpAlarm_group (b : Nat) : ocpGroup (ocpAlarm b s) i h = ocpGroup s i h := rfl
@[simp] theorem ocpLast_inst (g code word syn : Nat) (scrub : Bool) :
    ocpInst (ocpLast j g code word syn scrub s) i = ocpInst s i := by
  unfold ocpLast
  exact modOcp_inst i rfl
theorem ocpLast_injection (g code word syn : Nat) (scrub : Bool) (v : Nat) :
    injection (ocpLast j g code word syn scrub s) i v = injection s i v := by
  unfold injection ocpLast
  rw [State.modOcp_ocp]

/-! ### A word stored (R216, R218, R226, R233) -/

@[simp] theorem putWord_words (w : OWord) : (ocpInst (putWord i word w s) i).words = (ocpInst s i).words.set word w := by
  rw [putWord, modInst_inst]

theorem putWord_get (w : OWord) : (ocpInst (putWord i word w s) i).words.get word = some w := by
  rw [putWord_words, Tbl.get_set, if_pos rfl]

theorem putWord_get_other {word v : Nat} (other : v ≠ word) (w : OWord) :
    (ocpInst (putWord i word w s) i).words.get v = (ocpInst s i).words.get v := by
  rw [putWord_words, Tbl.get_set, if_neg other]

@[simp] theorem putWord_ce (w : OWord) : (ocpInst (putWord i word w s) i).ce = (ocpInst s i).ce := by
  rw [putWord, modInst_inst]

@[simp] theorem putWord_group (w : OWord) : ocpGroup (putWord i word w s) i h = ocpGroup s i h :=
  modInst_group i h fun _ => rfl

@[simp] theorem poisonWord_group (data : Nat) : ocpGroup (poisonWord i word data s) i h = ocpGroup s i h := putWord_group ..

/-- The word that a write of data stores when nothing is injected. -/
def freshWord (word data : Nat) : OWord := ⟨data % 2 ^ 64, ocpCheck (data % 2 ^ 64) word, false⟩

/-- The state with no injection armed. -/
def disarm (s : State) : State := s.modOcp fun o => { o with inject := o.inject - o.inject / 2 ^ 16 % 2 * 2 ^ 16 }

theorem disarm_bit (s : State) : bit (disarm s).ocp.inject 16 = false := by
  show (s.ocp.inject - s.ocp.inject / 2 ^ 16 % 2 * 2 ^ 16).testBit 16 = false
  rw [Nat.testBit_eq_decide_div_mod_eq, decide_eq_false_iff_not]
  omega

theorem injectWord_cases (data : Nat) (poisoned : Bool) :
    ∃ w u, injectWord i word data poisoned s = putWord i word w u ∧ (u = s ∨ u = disarm s) := by
  unfold injectWord
  extract_lets d c
  split
  · exact ⟨_, _, rfl, .inl rfl⟩
  · exact ⟨_, _, rfl, .inr rfl⟩

@[simp] theorem injectWord_group (data : Nat) (poisoned : Bool) :
    ocpGroup (injectWord i word data poisoned s) i h = ocpGroup s i h := by
  obtain ⟨w, u, stored, rfl | rfl⟩ := injectWord_cases (s := s) i word data poisoned <;> exact stored ▸ putWord_group ..

theorem injectWord_only (data : Nat) (poisoned : Bool) : OnlyOcp s (injectWord i word data poisoned s) := by
  obtain ⟨w, u, stored, rfl | rfl⟩ := injectWord_cases (s := s) i word data poisoned <;> exact stored ▸ ⟨_, rfl⟩

@[simp] theorem storeWord_group (data : Nat) : ocpGroup (storeWord i word data s) i h = ocpGroup s i h := injectWord_group ..

theorem storeWord_only (data : Nat) : OnlyOcp s (storeWord i word data s) := injectWord_only ..

variable {i word}

theorem storeWord_plain (free : injection s i word = none) (data : Nat) :
    storeWord i word data s = putWord i word (freshWord word data) s := by
  unfold storeWord injectWord
  rw [free]
  simp [freshWord]

theorem storeWord_struck {dx cx : Nat} (armed : injection s i word = some (dx, cx)) (data : Nat) :
    storeWord i word data s =
      putWord i word ⟨data % 2 ^ 64 ^^^ dx, ocpCheck (data % 2 ^ 64) word ^^^ cx, false⟩ (disarm s) := by
  unfold storeWord injectWord
  rw [armed]
  simp [disarm]

/-! ### Errors counted and reported (R218, R227, R234) -/

variable (i word)

/-- A correctable error counts, and changes nothing else of its memory but when it was reported. -/
theorem ocpCe_inst (code syn : Nat) (scrub : Bool) :
    ∃ ceNew ceAt, ocpInst (ocpCe i word code syn scrub s) i =
      { ocpInst s i with ce := sat 0xFFFF ((ocpInst s i).ce + 1), ceNew, ceAt } := by
  unfold ocpCe
  extract_lets g s1 s2 x
  have counted : ocpInst s2 i = { ocpInst s i with
      ce := sat 0xFFFF ((ocpInst s i).ce + 1), ceNew := (ocpInst s i).ceNew + 1 } := by
    simp only [s2, s1, logError_inst, ocpLast_inst, modInst_inst]
  clear_value s2
  refine iteInduction (motive := fun u => ∃ ceNew ceAt, ocpInst u i =
    { ocpInst s i with ce := sat 0xFFFF ((ocpInst s i).ce + 1), ceNew, ceAt }) (fun _ => ?_) fun _ => ⟨_, _, counted⟩
  exact ⟨0, some s2.core.t, by rw [raisePf_inst, modInst_inst, counted]⟩

@[simp] theorem ocpCe_words (code syn : Nat) (scrub : Bool) :
    (ocpInst (ocpCe i word code syn scrub s) i).words = (ocpInst s i).words := by
  obtain ⟨_, _, counted⟩ := ocpCe_inst (s := s) i word code syn scrub
  rw [counted]

@[simp] theorem ocpCe_ce (code syn : Nat) (scrub : Bool) :
    (ocpInst (ocpCe i word code syn scrub s) i).ce = sat 0xFFFF ((ocpInst s i).ce + 1) := by
  obtain ⟨_, _, counted⟩ := ocpCe_inst (s := s) i word code syn scrub
  rw [counted]

@[simp] theorem ocpCe_group (code syn : Nat) (scrub : Bool) :
    ocpGroup (ocpCe i word code syn scrub s) i h = ocpGroup s i h := by
  obtain ⟨_, _, counted⟩ := ocpCe_inst (s := s) i word code syn scrub
  unfold ocpGroup
  rw [counted]

theorem ocpCe_injection (code syn : Nat) (scrub : Bool) (v : Nat) :
    injection (ocpCe i word code syn scrub s) i v = injection s i v := by
  unfold ocpCe
  extract_lets g s1 s2 x
  have logged : injection s2 i v = injection s i v := ((logError_told ..).injection_eq i v).trans (ocpLast_injection ..)
  clear_value s2
  exact iteInduction (motive := fun u => injection u i v = injection s i v)
    (fun _ => ((raisePf_told ..).injection_eq i v).trans logged) fun _ => logged

@[simp] theorem candidate_words (b : Option Nat) : (ocpInst (candidate i word b s) i).words = (ocpInst s i).words :=
  modGroup_words ..

@[simp] theorem candidate_ce (b : Option Nat) : (ocpInst (candidate i word b s) i).ce = (ocpInst s i).ce := modGroup_ce ..

/-! ### A word whose state copies differ (R218) -/

theorem meetOdd_words (scrub : Bool) : (ocpInst (meetOdd i word scrub s) i).words = (ocpInst s i).words := by
  unfold meetOdd
  split
  · rw [ocpCe_words, modInst_inst]
  · rfl

@[simp] theorem meetOdd_group (scrub : Bool) : ocpGroup (meetOdd i word scrub s) i h = ocpGroup s i h := by
  unfold meetOdd
  split
  · rw [ocpCe_group]
    exact modInst_group i h fun _ => rfl
  · rfl

theorem meetOdd_injection (scrub : Bool) (v : Nat) : injection (meetOdd i word scrub s) i v = injection s i v := by
  unfold meetOdd
  split
  · exact ocpCe_injection ..
  · rfl

/-! ### A stored word as the code gives it (R217) -/

theorem meetOdd_peek (scrub : Bool) : peek (meetOdd i word scrub s) i word = peek s i word := by
  unfold peek
  rw [meetOdd_words]

variable {i word} {w : OWord} (listed : (ocpInst s i).words.get word = some w)
include listed

theorem peek_ceData {b : Nat} (cls : (w.classAt word).1 = .ceData b) :
    peek s i word = (.ceData b, (w.classAt word).2, w.data ^^^ 2 ^ b) := by
  unfold peek
  rw [listed]
  dsimp only
  rw [show w.classAt word = (.ceData b, (w.classAt word).2) from Prod.ext cls rfl]

theorem peek_data_as_read (cls : ∀ b, (w.classAt word).1 ≠ .ceData b) :
    peek s i word = ((w.classAt word).1, (w.classAt word).2, w.data) := by
  unfold peek
  rw [listed]
  dsimp only
  split
  · next b syn found => exact absurd (congrArg Prod.fst found) (cls b)
  · next found => rw [found]

end

/-! ### Merge buffers (R223 to R226) -/

section
variable {s : State} {i word : Nat} {m : Merge}

/-- The state with a word's entry out of its merge buffer. -/
def withoutEntry (i word : Nat) (s : State) : State :=
  modGroup i (groupOf i word) (fun x => { x with merge := x.merge.filter fun n => decide (n.word ≠ word) }) s

theorem find_entry_absent {l : List Merge} (absent : ∀ m ∈ l, m.word ≠ word) :
    l.find? (fun m => decide (m.word = word)) = none :=
  List.find?_eq_none.2 fun m hm => by simpa using absent m hm

theorem flushWord_absent (absent : ∀ m ∈ (ocpGroup s i (groupOf i word)).merge, m.word ≠ word) : flushWord i word s = s := by
  unfold flushWord
  dsimp only
  rw [find_entry_absent absent]

theorem flushWord_found (found : (ocpGroup s i (groupOf i word)).merge.find? (fun m => decide (m.word = word)) = some m) :
    flushWord i word s = flushMerge i m (withoutEntry i word s) := by
  unfold flushWord
  dsimp only
  rw [found]
  rfl

theorem flushOldest_entry {g : Nat} {r : List Merge} (held : (ocpGroup s i g).merge = m :: r) :
    flushOldest i g s = flushMerge i m (modGroup i g (fun x => { x with merge := r }) s) := by
  unfold flushOldest
  rw [held]

theorem flushMerge_full (full : m.mask = 0xFF) : flushMerge i m s = storeWord i m.word m.data s := if_pos full

theorem flushMerge_clean {syn d : Nat} (part : m.mask ≠ 0xFF) (clean : peek s i m.word = (.clean, syn, d)) :
    flushMerge i m s = storeWord i m.word (mergeBytes m.mask m.data d) (meetOdd i m.word false s) := by
  unfold flushMerge
  dsimp only
  rw [if_neg part, meetOdd_peek, clean]

/-- What a user reads of a word that has no pending entry: its corrected data, poisoned in the classes from UE_ADDRESS on. -/
theorem readWord_absent (absent : ∀ m ∈ (ocpGroup s i (groupOf i word)).merge, m.word ≠ word) (cons : Nat) :
    (readWord i word cons s).1 = ((peek s i word).2.2, decide (3 ≤ (peek s i word).1.code)) := by
  unfold readWord
  rw [flushWord_absent absent]
  dsimp only
  rw [meetOdd_peek]
  obtain ⟨c, syn, d⟩ := peek s i word
  cases c <;> rfl

end

/-- Settles O38: the code is linear, so a syndrome is the XOR of the columns and fold values of the bits that are wrong. -/
theorem codeCorrects : Obligations.CodeCorrects := by
  refine ⟨classOf_clean_iff, classOf_col, classOf_checkBit, classOf_ocpF, fun n => classOf_multi,
    ⟨rfl, fun _ => rfl, fun _ => rfl, rfl, rfl⟩, fun w a valid => classAt_valid valid a, ?reads, ocpCheck_xor_address,
    fun d a k hk => ⟨classAt_address_flip d a hk, weight8_ocpF_even k hk⟩, ?double⟩
  case reads =>
    intro s i word cons w listed _ absent
    have asRead {c : OClass} (cls : (w.classAt word).1 = c) (other : ∀ b, c ≠ .ceData b) :
        (readWord i word cons s).1 = (w.data, decide (3 ≤ c.code)) := by
      rw [readWord_absent absent, peek_data_as_read listed (cls ▸ other), cls]
    refine ⟨fun clean => asRead clean nofun, fun b flipped => ?_, fun j flipped => asRead flipped nofun, ?_⟩
    · rw [readWord_absent absent, peek_ceData listed flipped]
      rfl
    · rintro (address | multi)
      · rw [asRead address nofun]
        rfl
      · rw [asRead multi nofun]
        rfl
  case double =>
    rintro d a i j below hj ⟨k, hk, same⟩
    exact classAt_double_flip d a (Nat.lt_trans below hj) hj hk same

end Sys2Proof.Machine
end

section
/-! PROOFS. Words are written, merged and flushed, hard words move to spares, and the scrubbers visit (07 R216, R223 to R233). -/

namespace Sys2Proof.Machine

section
variable {s : State} {i g word : Nat}

/-! ### Full-word writes (R216, R226, R233) -/

theorem fullWordWrite_runs (there : wordExists s i word = true) (data : Nat) :
    exec (.fullWordWrite i word data) s = .next (storeWord i word data (withoutEntry i word s)) := onEvent_holds there

theorem withoutEntry_merge (m : Merge) (held : m ∈ (ocpGroup (withoutEntry i word s) i (groupOf i word)).merge) :
    m.word ≠ word := by
  rw [withoutEntry, modGroup_group_same, List.mem_filter] at held
  exact of_decide_eq_true held.2

/-! ### Writes narrower than a word (R223 to R225) -/

theorem partialWrite_runs {en : Nat} (there : wordExists s i word = true) (some_ : en % 256 ≠ 0) (data : Nat)
    (who : Option CmdId) :
    exec (.partialWrite i word ⟨en, data⟩ who) s = .next (partialWrite i word (en % 256) data who s) :=
  onEvent_holds (by simp [there, some_])

/-- The state with an entry put last in a merge buffer. -/
def withEntry (i g : Nat) (m : Merge) (s : State) : State := modGroup i g (fun x => { x with merge := x.merge ++ [m] }) s

/-- A write that covers part of a word with no entry, while an entry is free, takes one and stores nothing. -/
theorem partialWrite_enters {mask data : Nat} {who : Option CmdId} (part : mask ≠ 0xFF)
    (room : (ocpGroup s i (groupOf i word)).merge.length < 8)
    (absent : ∀ m ∈ (ocpGroup s i (groupOf i word)).merge, m.word ≠ word) :
    partialWrite i word mask data who s =
      withEntry i (groupOf i word) { word, mask, data := mergeBytes mask data 0, since := s.core.t, writers := who.toList } s := by
  have missing := find_entry_absent absent
  unfold partialWrite
  dsimp only
  rw [missing]
  dsimp only
  rw [if_neg (Nat.not_le_of_lt room), modGroup_group_same]
  simp [List.find?_append, missing, part, withEntry]

/-- A merge entry with the bytes of a further write. -/
def Merge.join (mask data : Nat) (who : Option CmdId) (m : Merge) : Merge :=
  { m with mask := m.mask ||| mask, data := mergeBytes mask data m.data, writers := m.writers ++ who.toList }

/-- The state with the bytes of a further write in the entry of their word. -/
def joinEntry (i word mask data : Nat) (who : Option CmdId) (s : State) : State :=
  modGroup i (groupOf i word)
    (fun x => { x with merge := x.merge.map fun m => if m.word = word then m.join mask data who else m }) s

/-- A write that covers the last bytes of the only entry flushes it. -/
theorem partialWrite_fills {mask data : Nat} {who : Option CmdId} {m : Merge}
    (held : (ocpGroup s i (groupOf i word)).merge = [m]) (same : m.word = word) (full : m.mask ||| mask = 0xFF) :
    ∃ u, partialWrite i word mask data who s = storeWord i word (mergeBytes mask data m.data) u ∧
      (ocpGroup u i (groupOf i word)).merge = [] ∧ injection u i word = injection s i word := by
  subst same
  have before : (ocpGroup s i (groupOf i m.word)).merge.find? (fun n => decide (n.word = m.word)) = some m := by simp [held]
  unfold partialWrite
  extract_lets g room u
  have joined : u = joinEntry i m.word mask data who s := by
    simp only [u, g, before]
    rfl
  have held : (ocpGroup u i g).merge = [m.join mask data who] := by
    rw [joined, joinEntry, modGroup_group_same]
    simp [held]
  have after : (ocpGroup u i g).merge.find? (fun n => decide (n.word = m.word)) = some (m.join mask data who) := by
    simp [held, Merge.join]
  clear_value u
  refine ⟨withoutEntry i m.word u, ?_, ?_, joined ▸ rfl⟩
  · rw [after]
    dsimp only
    rw [if_pos (show (m.join mask data who).mask = 0xFF from full), flushWord_found after, flushMerge_full full]
    rfl
  · rw [withoutEntry, modGroup_group_same, held]
    simp [Merge.join]

/-! ### Flushes (R224, R225) -/

theorem mergeAgeFlush_runs {m : Merge} {r : List Merge} (held : (ocpGroup s i g).merge = m :: r)
    (aged : m.since + mergeAge s i ≤ s.core.t) : exec (.mergeAgeFlush i g) s = .next (flushOldest i g s) :=
  onEvent_holds (by simp [held, passed, aged])

/-- The state with a merge buffer's oldest entry taken out, the rest given. -/
def dropOldest (i g : Nat) (r : List Merge) (s : State) : State := modGroup i g (fun x => { x with merge := r }) s

/-- An oldest entry that covers part of a VALID, CLEAN word is merged into it. -/
theorem flushOldest_clean {m : Merge} {r : List Merge} {w : OWord} (held : (ocpGroup s i g).merge = m :: r)
    (part : m.mask ≠ 0xFF) (listed : (ocpInst s i).words.get m.word = some w) (clean : w.classAt m.word = (.clean, 0))
    (free : injection s i m.word = none) :
    flushOldest i g s = putWord i m.word (freshWord m.word (mergeBytes m.mask m.data w.data))
      (meetOdd i m.word false (dropOldest i g r s)) := by
  have stored : (ocpInst (dropOldest i g r s) i).words.get m.word = some w := by
    rw [dropOldest, modGroup_words, listed]
  have unarmed : injection (meetOdd i m.word false (dropOldest i g r s)) i m.word = none :=
    (meetOdd_injection ..).trans free
  have read := peek_data_as_read stored (by rw [clean]; nofun)
  rw [clean] at read
  exact (flushOldest_entry held).trans ((flushMerge_clean part read).trans (storeWord_plain unarmed _))

/-! ### Spares (R228, R229) -/

/-- A group with its next hard-failing word taken from the list and moved to a spare. -/
def OGroup.moveHard (word : Nat) (rest : List Nat) (x : OGroup) : OGroup :=
  { x with hard := rest, spares := x.spares + 1, moved := x.moved.filter (· ≠ word) ++ [word] }

/-- While a spare is left, the word moves to it and REMAPPED is raised. -/
theorem spareRemap_moves {rest : List Nat} (hard : (ocpGroup s i g).hard = word :: rest) (room : (ocpGroup s i g).spares < 32) :
    ∃ u, exec (.spareRemap i g) s = .next (raisePf 0x7006 i (i + g * 2 ^ 9 + word * 2 ^ 16) u) ∧ OnlyOcp s u ∧
      ocpGroup u i g = (ocpGroup s i g).moveHard word rest := by
  show ∃ u, execSpareRemap i g s = _ ∧ _
  unfold execSpareRemap
  split
  · next empty => exact absurd (hard.symm.trans empty) nofun
  next word' rest' listed =>
  obtain ⟨rfl, rfl⟩ := List.cons.inj (hard.symm.trans listed)
  extract_lets taken moved
  have left : (ocpGroup taken i g).spares < 32 := by simpa [taken] using room
  have group : ocpGroup moved i g = (ocpGroup s i g).moveHard word rest := by simp [moved, taken, OGroup.moveHard]
  have only : OnlyOcp s moved := ⟨_, rfl⟩
  rw [if_pos left]
  clear_value moved
  split
  refine ⟨_, rfl, ?_⟩
  split
  · exact ⟨only.trans ⟨_, rfl⟩, by rw [poisonWord_group, group]⟩
  · exact ⟨only.trans ⟨_, rfl⟩, by rw [poisonWord_group, group]⟩
  · exact ⟨only.trans ⟨_, rfl⟩, by rw [poisonWord_group, group]⟩
  · split
    · exact ⟨only.trans (storeWord_only ..), by rw [storeWord_group, group]⟩
    · exact ⟨only, group⟩

/-- The state with REMAP_FULL noted for a group. -/
def noteFull (i g : Nat) (s : State) : State := ocpAlarm 5 (modGroup i g (fun x => { x with full := true }) s)

/-- The state with a group marked DEGRADED for want of spares. -/
def noteDegraded (i g : Nat) (s : State) : State :=
  ocpAlarm 6 (modGroup i g (fun x => { x with degraded := true, reason := 2 }) s)

theorem noteDegraded_told {t : State} (told : Told s t) : Told (noteDegraded i g s) (noteDegraded i g t) := by
  unfold noteDegraded ocpAlarm modGroup modInst
  exact (told.modOcp _).modOcp _

theorem spareRemap_full {rest : List Nat} (hard : (ocpGroup s i g).hard = word :: rest) (used : 32 ≤ (ocpGroup s i g).spares) :
    exec (.spareRemap i g) s = .next (remapFull i g (modGroup i g (fun x => { x with hard := rest }) s)) := by
  show execSpareRemap i g s = _
  unfold execSpareRemap
  rw [hard]
  dsimp only
  rw [if_neg (by simpa using used)]

section
variable (first : (ocpGroup s i g).full = false)
include first

/-- With no spare left, REMAP_FULL is raised once and the group is marked DEGRADED. -/
theorem remapFull_first :
    remapFull i g s = noteDegraded i g (raisePf 0x7007 i (i + g * 2 ^ 9) (noteFull i g s)) :=
  if_neg (by simp [first])

theorem remapFull_told : Told { s with ocp := (remapFull i g s).ocp } (remapFull i g s) := by
  rw [remapFull_first first]
  exact OnlyOcp.told (u := noteDegraded i g (noteFull i g s)) ⟨_, rfl⟩ (noteDegraded_told (raisePf_told ..))

theorem remapFull_group :
    ocpGroup (remapFull i g s) i g = { ocpGroup s i g with full := true, degraded := true, reason := 2 } := by
  rw [remapFull_first first, noteDegraded, ocpAlarm_group, modGroup_group_same, raisePf_group, noteFull, ocpAlarm_group,
    modGroup_group_same]

theorem remapFull_alarm : (remapFull i g s).ocp.alarm = s.ocp.alarm ||| 2 ^ 5 ||| 2 ^ 6 := by
  rw [remapFull_first first]
  exact congrArg (fun o : Ocp => o.alarm ||| 2 ^ 6) (raisePf_told ..).ocp

theorem remapFull_alarm_bits : bit (remapFull i g s).ocp.alarm 5 = true ∧ bit (remapFull i g s).ocp.alarm 6 = true := by
  simp only [bit, remapFull_alarm first, Nat.testBit_or, Nat.testBit_two_pow]
  simp

end

/-- The state after the Millwright has reloaded a word of a memory: the word's spare reads NEVER_WRITTEN. -/
def reloaded (i g word val : Nat) (s : State) : State :=
  modInst i (fun x => { x with words := x.words.erase word })
    (modGroup i g (fun x => { x with spares := x.spares + 1, moved := x.moved.filter (· ≠ word) ++ [word] })
      (s.modOcp fun o => { o with remapLoad := val % 2 ^ 26 }))

theorem ocpRemapLoad_runs {val : Nat} (go : bit val 31 = true) (up : s.mwr.running = true) (low : s.ocp.remapInst ≤ 259)
    (inside : bits val 25 21 < groupCount s.ocp.remapInst)
    (room : (ocpGroup s s.ocp.remapInst (bits val 25 21)).spares < 32) :
    exec (.ocpRemapLoad val) s = .next (reloaded s.ocp.remapInst (bits val 25 21) (bits val 20 0) val s) :=
  (if_pos ⟨go, up, low, inside⟩).trans (if_pos room)

theorem reloaded_word (val : Nat) : (ocpInst (reloaded i g word val s) i).words.get word = none := by
  rw [reloaded, modInst_inst, Tbl.get_erase, if_pos rfl]

theorem reloaded_group (val : Nat) : ocpGroup (reloaded i g word val s) i g = { ocpGroup s i g with
    spares := (ocpGroup s i g).spares + 1, moved := (ocpGroup s i g).moved.filter (· ≠ word) ++ [word] } := by
  rw [reloaded, modInst_group, modGroup_group_same]
  · rfl
  · exact fun _ => rfl

/-! ### The end of a lap (R231, R232) -/

theorem sample_inst (source x : Nat) (p : Mon → Bool) : ocpInst (sample source x p s) i = ocpInst s i := by
  unfold sample
  split <;> rfl

/-- The end of a lap restarts the lap and the passes of the groups, and nothing else of the memory. -/
theorem lapEnd_inst : ∃ lap lapAt slow groups, ocpInst (lapEnd i s) i = { ocpInst s i with lap, lapAt, slow, groups } ∧
    ∀ h, (Tbl.getD groups h {}).pos = (ocpGroup s i h).pos := by
  unfold lapEnd
  extract_lets x lap ended
  split
  · refine ⟨_, _, _, _, (sample_inst ..).trans (modInst_inst ..), fun h => ?_⟩
    unfold ocpGroup Tbl.getD
    rw [Tbl.get_mapVal]
    cases (ocpInst s i).groups.get h <;> rfl
  · exact ⟨_, _, _, _, rfl, fun _ => rfl⟩

@[simp] theorem lapEnd_words : (ocpInst (lapEnd i s) i).words = (ocpInst s i).words := by
  obtain ⟨_, _, _, _, ended, -⟩ := lapEnd_inst (s := s) (i := i)
  rw [ended]

@[simp] theorem lapEnd_ce : (ocpInst (lapEnd i s) i).ce = (ocpInst s i).ce := by
  obtain ⟨_, _, _, _, ended, -⟩ := lapEnd_inst (s := s) (i := i)
  rw [ended]

@[simp] theorem lapEnd_pos (h : Nat) : (ocpGroup (lapEnd i s) i h).pos = (ocpGroup s i h).pos := by
  obtain ⟨_, _, _, _, ended, pos⟩ := lapEnd_inst (s := s) (i := i)
  rw [ocpGroup, ended]
  exact pos h

theorem lapEnd_mem : (lapEnd i s).mem = s.mem := by
  simp only [lapEnd, sample]
  split
  · split <;> rfl
  · rfl

/-- The state after SCRUB_SLOW has been raised for the lap of a memory. -/
def slowed (i : Nat) (s : State) : State := ocpAlarm (instClass i) (modInst i (fun x => { x with slow := true }) s)

theorem scrubLapLimitExpiry_runs (low : i ≤ 259) (on : clocked s i = true) (first : (ocpInst s i).slow = false)
    (late : (ocpInst s i).lapAt + scrubLimit s i < clockedTime s i) :
    exec (.scrubLapLimitExpiry i) s = .next (raisePf 0x7009 i
      (i + (clockedTime s i - (ocpInst s i).lapAt) / 1000000 % 2 ^ 24 * 2 ^ 16) (slowed i s)) := by
  show execScrubLapLimitExpiry i s = _
  unfold execScrubLapLimitExpiry
  exact onEvent_holds (by simp [low, on, first, late])

/-! ### A visit of the scrubber (R218, R230) -/

@[simp] theorem upset_group (h : Nat) (d c : List (Nat × Nat)) (o : List Nat) :
    ocpGroup (upset i d c o s) i h = ocpGroup s i h := modInst_group i h fun _ => rfl

/-- A data bit of a word inverted changes that word alone. -/
theorem upset_dataBit (k : Nat) : ocpInst (upset i [(word, 2 ^ k)] [] [] s) i = { ocpInst s i with
    words := (ocpInst s i).words.modify word fun w => { w with data := (w.data ^^^ 2 ^ k) % 2 ^ 64 } } := modInst_inst ..

theorem scrubCheck_beside : (scrubCheck i word s).beside = s.beside := by
  unfold scrubCheck
  extract_lets u
  have met : u.beside = s.beside := by simp [u]
  clear_value u
  split
  · exact met
  · split
    · exact met
    · split
      split <;> simp [met]

theorem meetOdd_even (even : word ∉ (ocpInst s i).odd) (scrub : Bool) : meetOdd i word scrub s = s :=
  if_neg (by simpa using even)

/-- A data bit in error is written back corrected, logged and entered as a candidate. -/
theorem scrubCheck_ceData {w : OWord} {b : Nat} (absent : ∀ m ∈ (ocpGroup s i (groupOf i word)).merge, m.word ≠ word)
    (even : word ∉ (ocpInst s i).odd) (listed : (ocpInst s i).words.get word = some w) (valid : w.bad = false)
    (cls : (w.classAt word).1 = .ceData b) :
    scrubCheck i word s = candidate i word (some b)
      (ocpCe i word 1 (w.classAt word).2 true (storeWord i word (w.data ^^^ 2 ^ b) s)) := by
  unfold scrubCheck
  rw [flushWord_absent absent, meetOdd_even even]
  dsimp only
  rw [listed]
  dsimp only
  rw [if_neg (by simp [valid]), peek_ceData listed cls]

/-- A group of n words after its scrubber has visited a word. -/
def OGroup.visited (n pos : Nat) (x : OGroup) : OGroup :=
  let last := decide (pos + 1 = n)
  let begun := x.begun || decide (pos = 0)
  { x with pos := if last then 0 else pos + 1, begun := begun && !last, passed := x.passed || (begun && last) }

theorem scrubVisit_runs (low : i ≤ 259) (inside : g < groupCount i) (on : clocked s i = true) (d c : List (Nat × Nat))
    (o : List Nat) :
    exec (.scrubVisit i g d c o) s = .next (lapEnd i (modGroup i g (OGroup.visited (groupWords i) (ocpGroup s i g).pos)
      (scrubCheck i (g * groupWords i + (ocpGroup s i g).pos) (upset i d c o s)))) :=
  if_pos ⟨low, inside, on⟩

/-- A data bit that flips in a word is corrected by the scrubber's check of it: the word stands as it stood, and one
correctable error counts. -/
theorem scrubCheck_heals {w : OWord} {k : Nat} (low : k < 64)
    (absent : ∀ m ∈ (ocpGroup s i (groupOf i word)).merge, m.word ≠ word)
    (even : word ∉ (ocpInst s i).odd) (listed : (ocpInst s i).words.get word = some w) (valid : w.bad = false)
    (inWord : w.data < 2 ^ 64) (check : w.check = ocpCheck w.data word) (free : injection s i word = none) :
    (ocpInst (scrubCheck i word (upset i [(word, 2 ^ k)] [] [] s)) i).words.get word = some w ∧
      (ocpInst (scrubCheck i word (upset i [(word, 2 ^ k)] [] [] s)) i).ce = sat 0xFFFF ((ocpInst s i).ce + 1) := by
  obtain ⟨data, stored, bad⟩ := w
  dsimp only at valid inWord check
  subst valid check
  have narrow : (data ^^^ 2 ^ k) % 2 ^ 64 = data ^^^ 2 ^ k :=
    Nat.mod_eq_of_lt (Nat.xor_lt_two_pow inWord (Nat.pow_lt_pow_right (by decide) low))
  have struck : (ocpInst (upset i [(word, 2 ^ k)] [] [] s) i).words.get word =
      some ⟨data ^^^ 2 ^ k, ocpCheck data word, false⟩ := by
    rw [upset_dataBit, Tbl.get_modify, if_pos rfl, listed, Option.map_some, narrow]
  have cls := congrArg Prod.fst (classAt_data_flip data word low)
  have unarmed : injection (upset i [(word, 2 ^ k)] [] [] s) i word = none := free
  rw [scrubCheck_ceData (by rwa [upset_group]) (by rwa [upset_dataBit]) struck rfl cls, xor_cancel_right,
    storeWord_plain unarmed]
  refine ⟨?_, ?_⟩
  · rw [candidate_words, ocpCe_words, putWord_get, freshWord, Nat.mod_eq_of_lt inWord]
  · rw [candidate_ce, ocpCe_ce, putWord_ce, upset_dataBit]

end

/-- Settles O39: each row's own lemma says what it runs to, and the rules about words and groups what is read there. -/
theorem wordsAndSpares : Obligations.WordsAndSpares := by
  refine ⟨?full, ?injected, ?enters, ?fills, ?flush, fun _ _ => rfl, ?moves, ?fullGroup, ?visit, ?heals, ?slow, ?reload⟩
  case full =>
    intro s i word data there free
    have free : injection (withoutEntry i word s) i word = none := free
    refine ⟨_, fullWordWrite_runs there data, ?_, fun w other => ?_, fun k other => ?_, fun m held => ?_,
      (OnlyOcp.trans ⟨_, rfl⟩ (storeWord_only ..)).eq⟩
    · rw [storeWord_plain free, putWord_get]
      rfl
    · rw [storeWord_plain free, putWord_get_other _ other, withoutEntry, modGroup_words]
    · rw [storeWord_plain free, putWord, modInst_inst_other other, withoutEntry, modGroup, modInst_inst_other other]
    · rw [storeWord_group] at held
      exact withoutEntry_merge m held
  case injected =>
    intro s i word data dx cx there armed
    have armed : injection (withoutEntry i word s) i word = some (dx, cx) := armed
    refine ⟨_, fullWordWrite_runs there data, ?_, ?_, (OnlyOcp.trans ⟨_, rfl⟩ (storeWord_only ..)).eq⟩
    · rw [storeWord_struck armed, putWord_get]
    · rw [storeWord_struck armed]
      exact disarm_bit (withoutEntry i word s)
  case enters =>
    intro s i word en data who there some_ part room absent
    refine ⟨_, partialWrite_runs there some_ data who, ?_⟩
    rw [partialWrite_enters part room absent, withEntry]
    exact ⟨by rw [modGroup_group_same], modGroup_words .., rfl⟩
  case fills =>
    intro s i word en data who m there some_ held same full free
    obtain ⟨u, filled, empty, armed⟩ := partialWrite_fills (data := data) (who := who) held same full
    refine ⟨_, partialWrite_runs there some_ data who, ?_, _, rfl, ?_⟩
    · rw [filled, storeWord_group, empty]
    · rw [filled, storeWord_plain (armed.trans free), putWord_get]
      rfl
  case flush =>
    intro s i g m r w held part listed clean free
    refine ⟨flushOldest i g s, _, rfl, ?_, rfl, ?_, fun aged => mergeAgeFlush_runs held aged⟩
    · rw [flushOldest_clean held part listed clean free, putWord_group, meetOdd_group, dropOldest, modGroup_group_same]
    · rw [flushOldest_clean held part listed clean free, putWord_get]
      rfl
  case moves =>
    rintro s i g word x rest rfl hard room
    obtain ⟨u, moved, only, group⟩ := spareRemap_moves hard room
    exact ⟨_, moved, only.told (raisePf_told ..), (raisePf_group ..).trans group⟩
  case fullGroup =>
    rintro s i g word x rest rfl hard used first
    have kept : (ocpGroup (modGroup i g (fun x => { x with hard := rest }) s) i g).full = false := by
      rw [modGroup_group_same, first]
    refine ⟨_, spareRemap_full hard used, remapFull_told kept, ?_, remapFull_alarm_bits kept⟩
    rw [remapFull_group kept, modGroup_group_same]
  case visit =>
    intro s i g d c o low inside on
    refine ⟨_, scrubVisit_runs low inside on d c o, ?_, ?_, ?_⟩
    · rw [lapEnd_mem, beside_mem (modGroup_beside ..), beside_mem scrubCheck_beside, upset, beside_mem (modInst_beside ..)]
    · exact congrArg Prod.fst ((lapEnd_still ..).trans ((modGroup_still ..).trans ((scrubCheck_still ..).trans (upset_still ..))))
    · rw [lapEnd_pos, modGroup_group_same]
      simp [OGroup.visited]
  case heals =>
    rintro s i g k word w low inside on dataBit rfl inGroup empty listed valid narrow _ check free even
    obtain ⟨word, ce⟩ := scrubCheck_heals dataBit (by rw [inGroup, empty]; nofun) even listed valid narrow check free
    refine ⟨_, scrubVisit_runs low inside on _ _ _, ?_, ?_⟩
    · rw [lapEnd_words, modGroup_words, word]
    · rw [lapEnd_ce, modGroup_ce, ce]
  case slow =>
    intro s i low on first late
    refine ⟨_, scrubLapLimitExpiry_runs low on first late, OnlyOcp.told ⟨_, rfl⟩ (raisePf_told ..), ?_, ?_⟩
    · rw [raisePf_inst, slowed, ocpAlarm_inst, modInst_inst]
    · exact congrArg Ocp.alarm (raisePf_told ..).ocp
  case reload =>
    rintro s i g val rfl rfl go up low inside room
    refine ⟨_, ocpRemapLoad_runs go up low inside room, ?_, reloaded_word val, ?_, rfl⟩
    · rw [reloaded_group]
    · rw [reloaded_group]
      simp

end Sys2Proof.Machine
end

section
/-! PROOFS. A port that changes, and what events, completions and queue pairs that end leave of the ports (08 R236 to R266, 09 R284,
R289). -/

namespace Sys2Proof.Machine

/-! ### A port that changes -/

section
variable {s t : State} (p k : Nat) (f : Port → Port) (g : Flm → Flm)

theorem port_of_prt (h : t.prt = s.prt) : port t k = port s k := by
  unfold port
  rw [h]

@[simp] theorem modPort_port_same : port (modPort p f s) p = f (port s p) := (Tbl.getD_alter ..).trans (if_pos rfl)

theorem modPort_port_other {p k : Nat} (other : k ≠ p) : port (modPort p f s) k = port s k := (Tbl.getD_alter ..).trans (if_neg other)

@[simp] theorem modFlm_port_same : port (modFlm p g s) p = { port s p with flm := g (port s p).flm } := modPort_port_same ..

theorem modFlm_port_other {p k : Nat} (other : k ≠ p) : port (modFlm p g s) k = port s k := modPort_port_other _ other

@[simp] theorem emit_port (o : Output) : port (emit o s) k = port s k := rfl
@[simp] theorem raisePf_port (code obj0 arg : Nat) : port (raisePf code obj0 arg s) k = port s k := port_of_prt k (raisePf_told ..).prt
end

/-! ### Events and completions of queue pairs (R273 to R275, R289) -/

section
variable (s : State)

@[simp] theorem modQp_prt (q : Nat) (f : Qp → Qp) : (modQp q f s).prt = s.prt := rfl
@[simp] theorem modRcq_prt (c : Nat) (f : RCq → RCq) : (modRcq c f s).prt = s.prt := rfl
@[simp] theorem emit_prt (o : Output) : (emit o s).prt = s.prt := rfl
@[simp] theorem sendMsg_prt (m : Nat) (b : DomBody) : (sendMsg m b s).prt = s.prt := (sendMsg_told ..).prt
@[simp] theorem completeId_prt (id : CmdId) (st : Status) (r r2 : Nat) : (completeId id st r r2 s).prt = s.prt :=
  (completeId_told ..).prt
@[simp] theorem raise_prt (code fn obj0 obj1 pos arg arg2 : Nat) : (raise code fn obj0 obj1 pos arg arg2 s).prt = s.prt :=
  (raise_told ..).prt
@[simp] theorem raisePf_prt (code obj0 arg : Nat) : (raisePf code obj0 arg s).prt = s.prt := (raisePf_told ..).prt

@[simp] theorem writeSeg_prt (g : Seg) (l : List PByte) : (writeSeg g l s).prt = s.prt := by
  unfold writeSeg
  split
  · rfl
  · split <;> rfl

@[simp] theorem writeSegs_prt (gs : List Seg) (l : List PByte) : (writeSegs gs l s).prt = s.prt := by
  induction gs generalizing l s with
  | nil => rfl
  | cons g gs ih => exact (ih ..).trans (writeSeg_prt ..)

@[simp] theorem rcqWrite_prt (c : Nat) (e : RCqe) : (rcqWrite c e s).prt = s.prt := by
  unfold rcqWrite putHeld
  split
  · rfl
  · dsimp only
    split <;> simp

@[simp] theorem eventTo_prt (code a1 a2 fn : Nat) : (eventTo code a1 a2 fn s).prt = s.prt := by
  unfold eventTo
  split
  · rfl
  · dsimp only
    split
    · rfl
    · split
      · simp
      · split <;> simp

@[simp] theorem eventAll_prt (code a1 a2 : Nat) : (eventAll code a1 a2 s).prt = s.prt :=
  foldl_keeps (·.prt) (fun s fn => eventTo_prt s code a1 a2 fn) _ s

@[simp] theorem wcPut_prt (c q : Nat) (w : Wc) : (wcPut c q w s).prt = s.prt := by
  have noted : (noteStatus q w.status s).prt = s.prt := by
    unfold noteStatus
    split <;> rfl
  have failed (s : State) : (cqFail c s).prt = s.prt := by
    unfold cqFail
    split <;> simp
  unfold wcPut
  dsimp only
  split
  · exact noted
  · split
    · exact noted
    · split
      · rw [failed, noted]
      · rw [rcqWrite_prt, noted]

/-! ### Mirrors that break, and hopper fills that fail (R209, R310) -/

@[simp] theorem setMState_prt (i : Nat) (st : MState) : (setMState i st s).prt = s.prt :=
  foldl_keeps (·.prt) (fun s m => sendMsg_prt s m _) _ _

@[simp] theorem finishMaps_prt (i : Nat) (mine : MapWait → Bool) : (finishMaps i mine s).prt = s.prt :=
  foldl_keeps (·.prt) (fun s (w : MapWait) => completeId_prt s w.id .success w.result w.result2) _ _

@[simp] theorem landWaiting_prt (i : Nat) : (landWaiting i s).prt = s.prt := by
  refine foldl_keeps (·.prt) (fun s t => ?_) _ s
  show (writeBin ..).prt = s.prt
  unfold writeBin
  dsimp only
  split <;> rfl

@[simp] theorem breakMirror_prt (i reason : Nat) : (breakMirror i reason s).prt = s.prt := by
  unfold breakMirror
  split <;> simp

@[simp] theorem qpLeft_prt (q : Nat) : (qpLeft q s).prt = s.prt := by
  unfold qpLeft
  split
  · exact foldl_keeps (·.prt) (fun s i => breakMirror_prt s i 1) _ s
  · rfl

@[simp] theorem endFill_prt (key : Nat) (f : Fill) : (endFill key f s).prt = s.prt := by
  unfold endFill
  dsimp only
  split <;> simp

@[simp] theorem failFills_prt (q : Nat) (st : Status) : (failFills q st s).prt = s.prt := by
  unfold failFills
  exact foldl_keeps (·.prt) (fun _ _ => endFill_prt ..) _ s

/-! ### Queue pairs that enter ERROR (R275, R284) -/

@[simp] theorem endQp_prt (x : QpEnd) : (endQp x s).prt = s.prt := by
  unfold endQp
  split
  · rfl
  · rename_i p held
    split
    · rfl
    · extract_lets ended sent received moved filled
      have keptSent : sent.prt = s.prt := foldl_keeps (·.prt) (fun s w => wcPut_prt s p.sendCq x.q w) _ ended
      have keptReceived : received.prt = s.prt := (foldl_keeps (·.prt) (fun s w => wcPut_prt s _ x.q w) _ sent).trans keptSent
      have keptMoved : moved.prt = s.prt := by
        unfold moved
        split <;> simp [keptReceived]
      rw [qpLeft_prt]
      split <;> simp [filled, keptMoved]

@[simp] theorem endQps_prt (n : Nat) (l : List QpEnd) : (endQps n l s).prt = s.prt := by
  induction n generalizing l s with
  | zero => rfl
  | succ n ih =>
    cases l with
    | nil => rfl
    | cons x r => exact (ih ..).trans (endQp_prt ..)

@[simp] theorem portQpsError_prt (p : Nat) (flight : Status) : (portQpsError p flight s).prt = s.prt := by
  refine foldl_keeps (·.prt) (fun s x => ?_) _ s
  split
  · exact endQps_prt ..
  · rfl

/-! ### Samples (R477) -/

@[simp] theorem sample_prt (source x : Nat) (f : Mon → Bool) : (sample source x f s).prt = s.prt := by
  unfold sample
  split <;> rfl

end

end Sys2Proof.Machine
end

section
/-! PROOFS. PORT_MODE and the Millwright's port request (08 R237, R238, R260). -/

namespace Sys2Proof.Machine

/-! ### A mode applied to a port whose link is not UP (R237, R238) -/

section
variable {s : State} {n : Nat} {m : PortMode} {retrain : Bool}

theorem linkDown_of_not_up (down : (port s n).state ≠ .up) (cause seq : Nat) (flight : Status) :
    linkDown n cause seq flight s = s := if_pos down

theorem applyMode_same_mode (same : (port s n).mode = m) (alive : (port s n).state ≠ .failed) : applyMode n m false s = s :=
  if_pos ⟨same, rfl, alive⟩

/-- A port as a mode that it takes leaves it: with training begun where the device brings up ports (R7, R238). -/
def Port.taking (s : State) (m : PortMode) (q : Port) : Port :=
  { q with
    mode := m, since := s.core.t, failedAt := [], flm := q.flm.clear
    state := if m = .disabled ∨ s.pwr.up = false ∨ hasRole s = false then .down else .training }

theorem applyMode_takes (down : (port s n).state ≠ .up) (change : (port s n).mode ≠ m ∨ retrain = true) :
    applyMode n m retrain s = noteLevels (modPort n (Port.taking s m)) s := by
  have applies : ¬((port s n).mode = m ∧ retrain = false ∧ (port s n).state ≠ .failed) := by
    rintro ⟨same, kept, -⟩
    exact change.elim (fun h => h same) fun h => by simp [kept] at h
  unfold applyMode
  rw [if_neg applies, linkDown_of_not_up down]
  rfl

/-- What a mode that a port takes leaves: that port, the other ports, and the rest of the state but the levels of domains. -/
theorem applyMode_leaves (down : (port s n).state ≠ .up) (change : (port s n).mode ≠ m ∨ retrain = true) :
    port (applyMode n m retrain s) n = Port.taking s m (port s n) ∧
      (∀ k, k ≠ n → port (applyMode n m retrain s) k = port s k) ∧
      applyMode n m retrain s = { s with
        prt := (applyMode n m retrain s).prt
        pwr := { s.pwr with doms := (applyMode n m retrain s).pwr.doms } } := by
  rw [applyMode_takes down change]
  obtain ⟨doms, noted⟩ := noteLevels_eq (modPort n (Port.taking s m)) s
  have ports : (noteLevels (modPort n (Port.taking s m)) s).prt = (modPort n (Port.taking s m) s).prt := by rw [noted]
  refine ⟨?_, fun k other => ?_, ?_⟩
  · rw [port_of_prt _ ports, modPort_port_same]
  · rw [port_of_prt _ ports, modPort_port_other _ other]
  · rw [noted]
    rfl

end

/-! ### The commands -/

section
variable {s : State} {id : CmdId} {c : Cmd} {retrain : Bool}

/-- A PORT_MODE that takes no link down passes its checks, and completes with the state of its port. -/
theorem portMode_runs (runs : Runs s .portMode id c) (known : fld c.pkt 2 1 0 < 3) (formed : fld c.pkt 2 31 4 = 0)
    (named : fbit c.pkt 2 3 = retrain)
    (keepsLink : (port s (bits c.context 2 0)).state ≠ .up ∨
      retrain = false ∧ (port s (bits c.context 2 0)).mode = PortMode.ofCode (fld c.pkt 2 1 0)) :
    portMode retrain id s = .next (complete c .success
      (port (applyMode (bits c.context 2 0) (PortMode.ofCode (fld c.pkt 2 1 0)) retrain s) (bits c.context 2 0)).stateCode 0
      (applyMode (bits c.context 2 0) (PortMode.ofCode (fld c.pkt 2 1 0)) retrain s)) := by
  have code : fld c.pkt 2 1 0 ≠ 3 := by omega
  unfold portMode
  rw [onCmd_runs runs]
  dsimp only
  rw [if_neg (by simp [named]), checks_pass (by simp [passes, fields, busy, rsv, code, formed, keepsLink])]

theorem portModeRequest_takes {n mode b : Nat} {r : Bool} (up : s.pwr.up = true) (go : s.core.datReset = false)
    (front : s.mail.mwToDat.front = some (.portMode n mode retrain)) :
    exec (.portModeRequest none b r) s = .next (applyMode n (PortMode.ofCode mode) retrain (popDat s)) := by
  show execPortModeRequest none b r s = _
  exact onDatMail_takes front rfl (by simp [datTakes, up, go])

end

/-- Settles O17: a command passes its checks as its link stays, and applying a mode to a port that is not UP leaves the rest. -/
theorem portModes : Obligations.PortModes := by
  unfold Obligations.PortModes
  refine ⟨?mode, ?sameMode, ?retrain, ?request, ?taken⟩
  case mode =>
    rintro s id c n m runs rfl rfl known formed named down change
    obtain ⟨taken, others, rest⟩ := applyMode_leaves (retrain := false) down (.inl change)
    refine ⟨_, portMode_runs runs known formed named (.inl down), ?_, ?_, ?_, others, rest⟩
    all_goals rw [taken]; rfl
  case sameMode =>
    rintro s id c n runs rfl known formed named alive same
    have runs := portMode_runs runs known formed named (.inr ⟨rfl, same⟩)
    rw [applyMode_same_mode same alive] at runs
    exact ⟨s, rfl, runs⟩
  case retrain =>
    rintro s id c n m runs rfl rfl known formed named down
    obtain ⟨taken, -, rest⟩ := applyMode_leaves (m := PortMode.ofCode (fld c.pkt 2 1 0)) down (.inr rfl)
    refine ⟨_, portMode_runs runs known formed named (.inl down), ?_, ?_, rest⟩
    all_goals rw [taken]; rfl
  case request =>
    intro s n mode retrain running inRange known
    exact onPost_holds running (by simp [inRange, known])
  case taken =>
    intro s n mode b retrain r up go front down change
    obtain ⟨taken, others, rest⟩ := applyMode_leaves (s := popDat s) (retrain := retrain) down (.inl change)
    refine ⟨_, portModeRequest_takes up go front, ?_, ?_, others, rest⟩
    · rw [taken]
      rfl
    · rw [taken]
      have powered : (popDat s).pwr.up = true := up
      have roles : hasRole (popDat s) = hasRole s := rfl
      simp [Port.taking, powered, roles]

end Sys2Proof.Machine
end

section
/-! PROOFS. What events, completions and messages send out comes behind what was sent before (02 R53, 09 R270, 13 R361, 17 R485,
log entry 4). -/

namespace Sys2Proof.Machine

/-- The second state has sent out what the first has, and then more. -/
def Sends (s t : State) : Prop := s.out <+: t.out

namespace Sends

variable {s t u : State}

theorem of_eq (h : t.out = s.out) : Sends s t := ⟨[], (List.append_nil _).trans h.symm⟩

theorem trans (h : Sends s t) (k : Sends t u) : Sends s u := List.IsPrefix.trans h k

/-- Nothing more is sent after. -/
theorem quiet (h : Sends s t) (same : u.out = t.out) : Sends s u := h.trans (of_eq same)

/-- Nothing is sent before. -/
theorem after (same : t.out = s.out) (h : Sends t u) : Sends s u := (of_eq same).trans h

theorem ite {c : Prop} [Decidable c] (h : Sends s t) (k : Sends s u) : Sends s (if c then t else u) := by
  split <;> assumption

theorem foldl {α : Type} {f : State → α → State} (h : ∀ s a, Sends s (f s a)) (l : List α) (s : State) :
    Sends s (l.foldl f s) := by
  induction l generalizing s with
  | nil => exact of_eq rfl
  | cons a l ih => exact (h s a).trans (ih _)

end Sends

variable (s : State)

theorem emit_sends (o : Output) : Sends s (emit o s) := ⟨[o], rfl⟩

/-! ### Messages and completions (R53, R361) -/

theorem sendMsg_sends (m : Nat) (b : DomBody) : Sends s (sendMsg m b s) := by
  unfold sendMsg
  split
  · exact .of_eq rfl
  · exact (emit_sends ..).quiet rfl

theorem cqWrite_sends (q : Nat) (i : CqItem) : Sends s (cqWrite q i s) := by
  unfold cqWrite
  split
  · exact .of_eq rfl
  · dsimp only
    split
    · exact ((emit_sends s _).quiet rfl).trans (emit_sends ..)
    · exact (emit_sends s _).quiet rfl

@[simp] theorem retain_out (o : Origin) (r : RetRec) : (retain o r s).out = s.out := rfl

@[simp] theorem retainAll_out (fn : Nat) (l : List CqItem) : (retainAll fn l s).out = s.out :=
  foldl_keeps (·.out) (fun _ _ => retain_out ..) l s

theorem cqPut_sends (fn q : Nat) (i : CqItem) : Sends s (cqPut fn q i s) := by
  unfold cqPut
  split
  · exact .of_eq rfl
  · split
    · exact .ite (cqWrite_sends ..) (.of_eq rfl)
    · refine .of_eq ((retain_out ..).trans ?_)
      split
      · exact retainAll_out ..
      · rfl

theorem deliverK_sends (c : Cmd) (k : Completion) (out : List Byte) : Sends s (deliverK c k out s) := by
  unfold deliverK
  split
  · exact .ite (.of_eq rfl) (cqPut_sends ..)
  · exact .ite (.of_eq rfl) (.of_eq rfl)
  · extract_lets _ kept
    exact .after (retain_out s _ _) (sendMsg_sends kept ..)

theorem complete_sends (c : Cmd) (st : Status) (r r2 : Nat) : Sends s (complete c st r r2 s) := by
  unfold complete completeK deliver
  refine .ite (.of_eq rfl) (.ite (.of_eq rfl) ?_)
  split
  · exact .after (by rfl) (deliverK_sends ..)
  · exact .after (by rfl) (deliverK_sends ..)

/-! ### Events of the device (R485, R488) -/

theorem emitData_sends (c : Cmd) (addr : Nat) (data : List Byte) : Sends s (emitData c addr data s) := by
  unfold emitData
  split
  · exact emit_sends ..
  · exact .of_eq rfl
  · exact .of_eq rfl

theorem answerRing_sends (c : Cmd) : Sends s (answerRing c s) := by
  unfold answerRing
  extract_lets fn ring recs told released
  have silent : released.out = told.out := by
    unfold released
    split <;> rfl
  exact ((emitData_sends s ..).quiet silent).trans (complete_sends ..)

theorem raisePf_sends (code obj0 arg : Nat) : Sends s (raisePf code obj0 arg s) :=
  .after (t := s.modEvt _) rfl (.foldl (fun s c => .ite (.of_eq rfl) (answerRing_sends s c)) _ _)

/-! ### Events in event queues (R270, R289) -/

theorem writeSegs_sends (gs : List Seg) (l : List PByte) : Sends s (writeSegs gs l s) := by
  induction gs generalizing l s with
  | nil => exact .of_eq rfl
  | cons g gs ih =>
    refine Sends.trans ?_ (ih ..)
    unfold writeSeg
    split
    · exact emit_sends ..
    · exact .ite (.of_eq rfl) (.of_eq rfl)

theorem rcqWrite_sends (c : Nat) (e : RCqe) : Sends s (rcqWrite c e s) := by
  unfold rcqWrite putHeld
  split
  · exact .of_eq rfl
  · dsimp only
    split
    · exact ((writeSegs_sends s _ _).quiet rfl).trans (emit_sends ..)
    · exact (writeSegs_sends s _ _).quiet rfl

theorem eventTo_sends (code a1 a2 fn : Nat) : Sends s (eventTo code a1 a2 fn s) := by
  unfold eventTo
  split
  · exact .of_eq rfl
  · dsimp only
    refine .ite (.of_eq rfl) (.ite (rcqWrite_sends ..) ?_)
    exact .ite ((rcqWrite_sends s ..).quiet rfl) ((rcqWrite_sends s ..).trans (.after (by rfl) (rcqWrite_sends ..)))

theorem eventAll_sends (code a1 a2 : Nat) : Sends s (eventAll code a1 a2 s) := .foldl (fun s fn => eventTo_sends s code a1 a2 fn) _ s

end Sys2Proof.Machine
end

section
/-! PROOFS. Links go down, train, come up and fail (08 R240, R244, R260 to R266). -/

namespace Sys2Proof.Machine

/-! ### A link goes down (R257, R261, R265) -/

section
variable (s : State) (p : Nat)

/-- The end of an episode of retry leaves its marks cleared and its duration in FLM_RETRY_MAX. -/
theorem endEpisode_port (since : Nat) : ∃ longest, port (endEpisode p since s) p = { port s p with
    flm := { (port s p).flm with retryAt := none, nakFirst := none, retryMax := longest } } := by
  unfold endEpisode
  rw [port_of_prt _ (sample_prt ..), modFlm_port_same]
  exact ⟨_, rfl⟩

theorem endEpisode_core (since : Nat) : (endEpisode p since s).core = s.core := by
  unfold endEpisode sample
  dsimp only
  split <;> rfl

/-- A port whose link goes down at an instant, with a cause and, on a Flume port, the sequence number involved. -/
def Port.downed (now cause seq : Nat) (q : Port) : Port :=
  { q with
    state := if q.mode = .flume then .hold else .training
    since := now
    downCause := cause
    downSeq := if q.mode = .flume then seq else 0
    downCount := sat 0xFFFF (q.downCount + 1)
    flm := q.flm.clear }

variable {s p}

/-- A link that goes down leaves its port so; an episode of retry that it cuts off counts for FLM_RETRY_MAX. -/
theorem linkDown_port (up : (port s p).state = .up) (cause seq : Nat) (flight : Status) :
    ∃ longest, port (linkDown p cause seq flight s) p = Port.downed s.core.t cause seq
      { port s p with flm := { (port s p).flm with retryAt := none, nakFirst := none, retryMax := longest } } := by
  unfold linkDown
  extract_lets q closed downed told everywhere raised
  rw [if_neg (by simp [q, up]), port_of_prt _ (portQpsError_prt ..)]
  have ended : closed.core = s.core ∧ ∃ longest, Port.downed s.core.t cause seq (port closed p) = Port.downed s.core.t cause seq
      { port s p with flm := { (port s p).flm with retryAt := none, nakFirst := none, retryMax := longest } } := by
    unfold closed
    split
    · obtain ⟨longest, ended⟩ := endEpisode_port s p ‹Nat›
      exact ⟨endEpisode_core .., longest, congrArg _ ended⟩
    · exact ⟨rfl, (port s p).flm.retryMax, rfl⟩
  obtain ⟨clock, longest, ended⟩ := ended
  have kept : port told p = port downed p := by
    unfold told
    split
    · exact port_of_prt _ (eventAll_prt ..)
    · rfl
  have events : port raised p = port told p := port_of_prt _ ((raisePf_prt ..).trans (eventAll_prt ..))
  refine ⟨longest, (events.trans kept).trans ((modPort_port_same ..).trans ?_)⟩
  rw [← ended, ← clock]
  rfl

end

/-! ### A training attempt fails (R262) -/

section
variable {s : State} {p : Nat}

/-- A port whose first training attempt in a second fails with a reason. -/
def Port.failedOnce (now reason : Nat) (q : Port) : Port :=
  { q with failedAt := [now], failReason := reason, since := now, flm := q.flm.clear, state := .hold }

theorem failTraining_first (first : (port s p).failedAt = []) (reason : Nat) :
    failTraining p reason s = modPort p (Port.failedOnce s.core.t reason) s := by
  unfold failTraining
  simp only [first]
  rfl

/-! ### A link comes UP (R264) -/

theorem askPromotion_prt (s : State) : (askPromotion s).prt = s.prt := by
  unfold askPromotion
  split
  · split
    · split
      · rfl
      · exact sendMsg_prt ..
    · rfl
  · rfl

theorem askPromotion_sends (s : State) : Sends s (askPromotion s) := by
  unfold askPromotion
  split
  · refine .ite (.ite (.of_eq rfl) ?_) (.of_eq rfl)
    exact .after (by rfl) (sendMsg_sends ..)
  · exact .of_eq rfl

theorem linkUp_port (p : Nat) (s : State) : port (linkUp p s) p = { port s p with state := .up, since := s.core.t } := by
  unfold linkUp
  extract_lets up told announced
  have kept : told.prt = up.prt := (raisePf_prt ..).trans (eventAll_prt ..)
  have sent : announced.prt = told.prt := foldl_keeps (·.prt) (fun s m => sendMsg_prt s m _) _ _
  have same : (if joined told then if announced.grn.askPromote then askPromotion announced else announced else told).prt = up.prt := by
    split
    · split
      · rw [askPromotion_prt, sent, kept]
      · rw [sent, kept]
    · exact kept
  exact (port_of_prt p same).trans (modPort_port_same ..)

theorem linkUp_sends (p : Nat) (s : State) : Sends s (linkUp p s) := by
  unfold linkUp
  extract_lets up told announced
  have events : Sends s told := .after rfl ((eventAll_sends up ..).trans (raisePf_sends ..))
  have messages : Sends told announced := .foldl (fun s m => sendMsg_sends s m _) _ _
  exact .ite (.ite ((events.trans messages).trans (askPromotion_sends _)) (events.trans messages)) events

end

/-! ### The rows -/

section
variable {s : State} {p : Nat}

theorem lossOfSignal_runs (up : (port s p).state = .up) : exec (.lossOfSignal p) s = .next (linkDown p 9 0 .linkDown s) := by
  show execLossOfSignal p s = _
  exact onEvent_holds (by simp [up])

theorem ethLinkFault_runs (up : (port s p).state = .up) (eth : (port s p).mode = .ethernet) :
    exec (.ethLinkFault p) s = .next (linkDown p 10 0 .linkDown s) := by
  show execEthLinkFault p s = _
  exact onEvent_holds (by simp [up, eth])

/-- A port that has passed training and negotiates parameters with the allocation written by now (R252, R262). -/
def Port.negotiating (now : Nat) (q : Port) : Port :=
  { q with state := .param, since := now, flm := { q.flm with allocNow := q.flm.alloc } }

theorem trainingPrbsPass_runs (flume : (port s p).mode = .flume) (training : (port s p).state = .training)
    (clean : (port s p).since + ms 100 ≤ s.core.t) (inTime : s.core.t < (port s p).since + ms 150) (go : s.core.datReset = false) :
    exec (.trainingPrbsPass p) s = .next (emit
      (.params p (ownMember s) s.core.role.code 1 (port s p).flm.alloc (s.core.t % 2 ^ 16))
      (modPort p (Port.negotiating s.core.t) s)) := by
  have alloc : (port (modPort p (Port.negotiating s.core.t) s) p).flm.allocNow = (port s p).flm.alloc := by
    rw [modPort_port_same]
    rfl
  show execTrainingPrbsPass p s = _
  rw [← alloc]
  exact onEvent_holds (by simp [flume, training, passed, clean, inTime, go])

theorem trainingTimeout_runs (flume : (port s p).mode = .flume) (training : (port s p).state = .training)
    (late : (port s p).since + ms 150 ≤ s.core.t) : exec (.trainingTimeout p) s = .next (failTraining p 5 s) := by
  show execTrainingTimeout p s = _
  exact onEvent_holds (by simp [flume, training, passed, late])

/-- The state in which a port takes or refuses the parameters of its peer: the marker has been echoed. -/
def echoed (p : Nat) (x : FlumeParams) (s : State) : State := emit (.loopEcho p x.marker) s

/-- A Flume link as it begins with a peer: sequences at 0 and all the credits that the peer advertised (R252, R263). -/
def Flm.joined (x : FlumeParams) (f : Flm) : Flm :=
  { f.clear with
    peer := x.member, peerRole := x.role, peerVer := x.version, valid := true, loop := x.loop
    tx := (List.range 4).map fun v => (v, { avail := 4 * x.alloc.getD v 0, advert := 4 * x.alloc.getD v 0 : TxStream }) }

theorem paramExchange_accepts {x : FlumeParams} (flume : (port s p).mode = .flume) (param : (port s p).state = .param)
    (go : s.core.datReset = false) (agreed : paramRefusal s x = none) :
    exec (.paramExchange p x) s = .next (linkUp p (modFlm p (Flm.joined x) (echoed p x s))) := by
  have agreed : paramRefusal (echoed p x s) x = none := agreed
  show execParamExchange p x s = _
  refine (onEvent_holds (by simp [flume, param, go])).trans ?_
  unfold echoed at agreed
  dsimp only
  rw [agreed]
  rfl

theorem paramExchange_refuses {x : FlumeParams} {r : Nat} (flume : (port s p).mode = .flume) (param : (port s p).state = .param)
    (go : s.core.datReset = false) (refused : paramRefusal s x = some r) :
    exec (.paramExchange p x) s = .next (failTraining p r (raisePf 0x8004 p (r + x.member * 2 ^ 8) (echoed p x s))) := by
  have refused : paramRefusal (echoed p x s) x = some r := refused
  show execParamExchange p x s = _
  refine (onEvent_holds (by simp [flume, param, go])).trans ?_
  unfold echoed at refused
  dsimp only
  rw [refused]
  rfl

theorem holdExpiry_trains (held : (port s p).state = .hold) (late : (port s p).since + ms 1 ≤ s.core.t)
    (first : (port s p).failedAt = []) :
    exec (.holdExpiry p) s = .next (modPort p (fun q => { q with state := .training, since := s.core.t }) s) := by
  show execHoldExpiry p s = _
  refine (onEvent_holds (by simp [held, passed, late])).trans ?_
  simp [first]

theorem ethLinkUp_runs (eth : (port s p).mode = .ethernet) (training : (port s p).state = .training) (go : s.core.datReset = false) :
    exec (.ethLinkUp p) s = .next (linkUp p s) := by
  show execEthLinkUp p s = _
  exact onEvent_holds (by simp [eth, training, go])

end

/-- Settles O19: each row runs to a link that goes down or comes UP, or to a training that begins, passes or fails, and what that
leaves of the port and sends is said once for each. -/
theorem links : Obligations.Links := by
  unfold Obligations.Links
  refine ⟨?signal, ?fault, ?passes, ?timesOut, ?accepts, ?refuses, ?trains, ?ethUp⟩
  case signal =>
    intro s p up
    obtain ⟨longest, down⟩ := linkDown_port up 9 0 .linkDown
    exact ⟨_, lossOfSignal_runs up, by rw [down]; rfl, by rw [down]; rfl, by rw [down]; rfl⟩
  case fault =>
    intro s p up eth
    obtain ⟨longest, down⟩ := linkDown_port up 10 0 .linkDown
    refine ⟨_, ethLinkFault_runs up eth, ?_, by rw [down]; rfl⟩
    rw [down]
    simp [Port.downed, eth]
  case passes =>
    intro s p flume training clean inTime go
    exact ⟨_, trainingPrbsPass_runs flume training clean inTime go, modPort_port_same .., rfl⟩
  case timesOut =>
    intro s p flume training late first
    refine ⟨_, trainingTimeout_runs flume training late, ?_⟩
    rw [failTraining_first first, modPort_port_same]
    exact ⟨rfl, rfl, rfl, rfl⟩
  case accepts =>
    intro s p x flume param go agreed
    refine ⟨_, paramExchange_accepts flume param go agreed, ?_⟩
    rw [linkUp_port, modFlm_port_same]
    refine ⟨rfl, rfl, rfl, rfl, rfl, rfl, ?_⟩
    obtain ⟨l, sent⟩ := linkUp_sends p (modFlm p (Flm.joined x) (echoed p x s))
    exact ⟨l, sent.symm.trans (List.append_assoc ..)⟩
  case refuses =>
    intro s p r x flume param go refused first
    have first : (port (raisePf 0x8004 p (r + x.member * 2 ^ 8) (echoed p x s)) p).failedAt = [] := by
      rw [raisePf_port]
      exact first
    refine ⟨_, paramExchange_refuses flume param go refused, ?_⟩
    rw [failTraining_first first, modPort_port_same]
    exact ⟨rfl, rfl⟩
  case trains =>
    intro s p held late first
    exact ⟨_, holdExpiry_trains held late first, modPort_port_same .., rfl⟩
  case ethUp =>
    intro s p eth training go
    refine ⟨_, ethLinkUp_runs eth training go, ?_⟩
    rw [linkUp_port]
    exact ⟨rfl, rfl⟩

end Sys2Proof.Machine
end

section
/-! PROOFS. Frames, CNPs and PTP messages at the ports (08 R240 to R243, R251, 13 R372 to R374). -/

namespace Sys2Proof.Machine

/-! ### A queue pair that changes -/

section
variable {s : State} {q : Nat}

theorem modQp_qp_same (f : Qp → Qp) : qpOf (modQp q f s) q = (qpOf s q).map f := (Tbl.get_modify ..).trans (if_pos rfl)

theorem modQp_qp_other {k : Nat} (other : k ≠ q) (f : Qp → Qp) : qpOf (modQp q f s) k = qpOf s k :=
  (Tbl.get_modify ..).trans (if_neg other)

end

/-! ### Frames (R240) -/

section
variable {s : State} {p : Nat} {x : EthFrame}

/-- A port whose FEC has corrected symbols of a frame. -/
def Port.corrected (n : Nat) (q : Port) : Port :=
  { q with fecCorr := sat 0xFFFFFFFF (q.fecCorr + n), fecUnc := sat 0xFFFFFFFF (q.fecUnc + 0) }

/-- A frame without uncorrectable codewords: dropped and counted, a pause of priorities, or taken in. -/
theorem ethFrameReceive_runs (eth : (port s p).mode = .ethernet) (up : (port s p).state = .up) (go : s.core.datReset = false)
    (clean : x.uncorrectable = 0) :
    exec (.ethFrameReceive p x) s = .next (
      if !x.fcs ∨ x.pause ∨ 2 ≤ x.tags ∨ x.len < 64 ∨ 4352 < x.len then
        modPort p (fun q => { q with drops := sat 0xFFFFFFFF (q.drops + 1) }) (modPort p (Port.corrected x.corrected) s)
      else if x.pfc ≠ [] then pausePrios p x.pfc (modPort p (Port.corrected x.corrected) s)
      else idleExit (modPort p (Port.corrected x.corrected) s)) := by
  show execEthFrameReceive p x s = _
  refine (onEvent_holds (by simp [eth, up, go])).trans ?_
  simp only [clean, Nat.lt_irrefl, if_false]
  rfl

theorem ethFrameReceive_drops (eth : (port s p).mode = .ethernet) (up : (port s p).state = .up) (go : s.core.datReset = false)
    (clean : x.uncorrectable = 0) (bad : x.fcs = false ∨ x.pause = true ∨ 2 ≤ x.tags ∨ x.len < 64 ∨ 4352 < x.len) :
    exec (.ethFrameReceive p x) s = .next
      (modPort p (fun q => { q with drops := sat 0xFFFFFFFF (q.drops + 1) }) (modPort p (Port.corrected x.corrected) s)) := by
  rw [ethFrameReceive_runs eth up go clean, if_pos (by simpa using bad)]

/-- A frame that the MAC does not drop. -/
structure GoodFrame (x : EthFrame) : Prop where
  /-- No codeword was uncorrectable. -/
  clean : x.uncorrectable = 0
  /-- Its FCS holds. -/
  fcs : x.fcs = true
  /-- It is no PAUSE frame. -/
  pause : x.pause = false
  /-- It has one VLAN tag at most. -/
  tags : x.tags < 2
  /-- It has the least length. -/
  long : 64 ≤ x.len
  /-- It has no more than the greatest length. -/
  short : x.len ≤ 4352

theorem ethFrameReceive_takes (eth : (port s p).mode = .ethernet) (up : (port s p).state = .up) (go : s.core.datReset = false)
    (good : GoodFrame x) :
    exec (.ethFrameReceive p x) s = .next (
      if x.pfc ≠ [] then pausePrios p x.pfc (modPort p (Port.corrected x.corrected) s)
      else idleExit (modPort p (Port.corrected x.corrected) s)) := by
  obtain ⟨clean, fcs, pause, tags, long, short⟩ := good
  rw [ethFrameReceive_runs eth up go clean, if_neg]
  simp only [fcs, pause, Bool.not_true, Bool.false_eq_true, false_or]
  omega

/-- A pause of one priority that PFC_EN names (R240). -/
theorem pausePrios_one {k n : Nat} (prio : k < 8) (enabled : bit (port s p).ethCfg k = true) :
    port (pausePrios p [(k, n)] s) p =
      { port s p with paused := (port s p).paused.set k (s.core.t + ceilDiv (n * 128) 100) } := by
  unfold pausePrios
  rw [modPort_port_same]
  simp [prio, enabled]

/-! ### Congestion and domain time (R243, R251, R372 to R374) -/

theorem cnpReceive_runs (run : s.pwr.state = .run) (q : Nat) : exec (.cnpReceive q) s = .next (modQp q (fun p => { p with
    rate := max 1000000000 (p.rate * (256 - feature s 0x50 0 32) / 256), ccAt := s.core.t }) s) := by
  show execCnpReceive q s = _
  unfold execCnpReceive
  rw [idleExit_of_run run]

theorem ccPeriodExpiry_runs {q : Nat} {x : Qp} (held : qpOf s q = some x) (late : x.ccAt + us (feature s 0x52 0 55) ≤ s.core.t) :
    exec (.ccPeriodExpiry q) s = .next (modQp q (fun p => { p with
      rate := min 400000000000 (p.rate + 100000000 * feature s 0x51 0 50), ccAt := s.core.t }) s) := by
  show execCcPeriodExpiry q s = _
  unfold execCcPeriodExpiry
  rw [held]
  exact onEvent_holds (by simp [passed, late])

/-- The time stamp of a PTP message with the asymmetry of its port (R372). -/
def ptpStamp (s : State) (p raw : Nat) : Output := .ptp p ((raw : Int) + signed 32 (port s p).tsAsym)

theorem ptpMessage_runs (run : s.pwr.state = .run) (up : (port s p).state = .up) (go : s.core.datReset = false) (raw : Nat)
    (fromMaster : Bool) :
    exec (.ptpMessage p raw fromMaster) s = .next (
      if fromMaster then judgeTime ((emit (ptpStamp s p raw) s).modDom fun d => { d with masterAt := s.core.t, noMaster := false })
      else emit (ptpStamp s p raw) s) := by
  show execPtpMessage p raw fromMaster s = _
  refine (onEvent_holds (by simp [up, go])).trans ?_
  rw [idleExit_of_run run]
  rfl

theorem Told.master {s t : State} (h : Told s t) : t.dom.masterAt = s.dom.masterAt ∧ t.dom.noMaster = s.dom.noMaster := by
  have heard := congrArg Dom.masterAt h.dom
  have missing := congrArg Dom.noMaster h.dom
  exact ⟨heard, missing⟩

/-- Judging the time leaves what is known of the master. -/
theorem judgeTime_master (s : State) : (judgeTime s).dom.masterAt = s.dom.masterAt ∧ (judgeTime s).dom.noMaster = s.dom.noMaster := by
  unfold judgeTime
  extract_lets d now
  split
  · exact ⟨rfl, rfl⟩
  · exact (raisePf_told ..).master

end

/-- Settles O20: each row's own lemma; a frame is dropped, pauses priorities or is taken in, and a QP's rate alone changes. -/
theorem ethernetEvents : Obligations.EthernetEvents := by
  unfold Obligations.EthernetEvents
  refine ⟨?taken, ?dropped, ?paused, ?cut, ?raised, ?stamped, ?mastered⟩
  case taken =>
    intro s p x run eth up go clean fcs pause tags long short noPfc
    have runs := ethFrameReceive_takes eth up go ⟨clean, fcs, pause, tags, long, short⟩
    rw [if_neg (fun pfc => pfc noPfc), idleExit_of_run (s := modPort p _ s) run] at runs
    refine ⟨_, runs, ?_, ?_, rfl⟩
    all_goals rw [modPort_port_same]; rfl
  case dropped =>
    intro s p x eth up go clean bad
    refine ⟨_, ethFrameReceive_drops eth up go clean bad, ?_, rfl⟩
    rw [modPort_port_same, modPort_port_same]
    rfl
  case paused =>
    intro s p k n x eth up go clean fcs pause tags long short pfc prio enabled
    have runs := ethFrameReceive_takes eth up go ⟨clean, fcs, pause, tags, long, short⟩
    rw [pfc, if_pos (List.cons_ne_nil (k, n) [])] at runs
    refine ⟨_, runs, ?_, rfl⟩
    rw [pausePrios_one prio (by rw [modPort_port_same]; exact enabled), modPort_port_same]
    rfl
  case cut =>
    intro s q x run held
    refine ⟨_, cnpReceive_runs run q, ?_, fun k other => modQp_qp_other other _, rfl⟩
    rw [modQp_qp_same, held]
    rfl
  case raised =>
    intro s q x held late
    refine ⟨_, ccPeriodExpiry_runs held late, ?_, fun k other => modQp_qp_other other _, rfl⟩
    rw [modQp_qp_same, held]
    rfl
  case stamped =>
    intro s p raw run up go
    exact ptpMessage_runs run up go raw false
  case mastered =>
    intro s p raw run up go
    exact ⟨_, ptpMessage_runs run up go raw true, judgeTime_master _⟩

end Sys2Proof.Machine
end

section
/-! PROOFS. Flits go out and come in, and what a missing flit and a long retry do (08 R246 to R259). -/

namespace Sys2Proof.Machine

/-! ### A flit goes out (R248, R249, R251, R255) -/

section
variable {s : State} {p : Nat}

/-- A flit sent: NAKs and credit reports move on, and the first NAK of an episode is noted. -/
def sendFlit (p seq : Nat) (c : Ctl) (data : List Byte) (s : State) : State :=
  let sent := emit (.flit p (mkFlit seq c data)) (modFlm p (afterFlit s.core.t c.nak) s)
  if c.nak.isSome then noteNak p sent else sent

theorem sendFlit_out (seq : Nat) (c : Ctl) (data : List Byte) :
    (sendFlit p seq c data s).out = s.out ++ [.flit p (mkFlit seq c data)] := by
  unfold sendFlit
  dsimp only
  split <;> rfl

/-- A flit sent changes of its link the credits reported next and the marks of NAKs. -/
theorem sendFlit_port (seq : Nat) (c : Ctl) (data : List Byte) : ∃ m first, port (sendFlit p seq c data s) p = { port s p with
    flm := { (port s p).flm with crVc := ((port s p).flm.crVc + 1) % 4, m, nakFirst := first } } := by
  unfold sendFlit noteNak
  dsimp only
  split
  · rw [modFlm_port_same, emit_port, modFlm_port_same]
    exact ⟨_, _, rfl⟩
  · rw [emit_port, modFlm_port_same]
    exact ⟨_, (port s p).flm.nakFirst, rfl⟩

theorem flitSend_idle (flume : (port s p).mode = .flume) (up : (port s p).state = .up) (go : s.core.datReset = false)
    (replays : (port s p).flm.toReplay = []) (ready : nextVc (port s p).flm = none) :
    exec (.flitSend p []) s = .next
      (sendFlit p (port s p).flm.txSeq (outCtl (port s p).flm 0 0 0xFF) (List.replicate 240 0) s) := by
  show execFlitSend p [] s = _
  refine (onEvent_holds (by simp [flume, up, go])).trans ?_
  simp only [List.foldl_nil, replays, ready, List.head?_nil, Option.bind_none, ite_self]
  rfl

/-- The payload of the next DATA flit of a VC, with what it leaves of the packets waiting (R250). -/
def packNext (f : Flm) (v : Nat) : List Byte × Option Nat × List (List Byte) × Nat :=
  packFlit (f.tx.getD v {}).queue (f.tx.getD v {}).sent [] none

/-- A link that has put a DATA flit of a VC into its replay buffer (R251 to R253). -/
def Flm.loaded (v : Nat) (f : Flm) : Flm :=
  { f with
    tx := f.tx.set v { f.tx.getD v {} with
      queue := (packNext f v).2.2.1, sent := (packNext f v).2.2.2, avail := (f.tx.getD v {}).avail - 1 }
    buffer := f.buffer ++ [(f.txSeq, { body := { vc := v, start := (packNext f v).2.1.getD 0xFF, data := (packNext f v).1 } })]
    txSeq := (f.txSeq + 1) % 4096
    vc3Wait := if v = 3 ∨ (f.tx.getD 3 {}).queue = [] then 0 else f.vc3Wait + 1 }

theorem flitSend_data {v : Nat} (flume : (port s p).mode = .flume) (up : (port s p).state = .up) (go : s.core.datReset = false)
    (replays : (port s p).flm.toReplay = []) (ready : nextVc (port s p).flm = some v) (room : (port s p).flm.buffer.length < 512) :
    exec (.flitSend p []) s = .next (sendFlit p (port s p).flm.txSeq
      (outCtl (port s p).flm 1 v ((packNext (port s p).flm v).2.1.getD 0xFF)) (packNext (port s p).flm v).1
      (modFlm p (Flm.loaded v) s)) := by
  show execFlitSend p [] s = _
  refine (onEvent_holds (by simp [flume, up, go])).trans ?_
  simp only [List.foldl_nil, replays, ready, List.head?_nil, Option.bind_none, room, if_true]
  rfl

end

/-! ### Retry judged again (R257, R258) -/

section
variable (s : State) (p : Nat)

/-- Judging a port's retry changes of its link the marks of the episode alone. -/
theorem judgeRetry_port : ∃ began first longest, port (judgeRetry p s) p = { port s p with
    flm := { (port s p).flm with retryAt := began, nakFirst := first, retryMax := longest } } := by
  unfold judgeRetry
  extract_lets f now
  split
  · split
    · rw [modFlm_port_same]
      exact ⟨_, (port s p).flm.nakFirst, (port s p).flm.retryMax, rfl⟩
    · exact ⟨(port s p).flm.retryAt, (port s p).flm.nakFirst, (port s p).flm.retryMax, rfl⟩
  · split
    · exact ⟨(port s p).flm.retryAt, (port s p).flm.nakFirst, (port s p).flm.retryMax, rfl⟩
    · obtain ⟨longest, ended⟩ := endEpisode_port (resumeTimers p ‹Nat› s) p ‹Nat›
      exact ⟨none, none, longest, ended⟩

/-- Acknowledgements and credits change of a link what it keeps as a sender, and FLM_ERR. -/
theorem applyCtl_port {c : Ctl} (quiet : c.nak = none) : ∃ buffer replayed toReplay tx err, port (applyCtl p c s) p = { port s p with
    flm := { (port s p).flm with buffer, replayed, toReplay, tx, err } } := by
  unfold applyCtl
  rw [quiet]
  dsimp only
  rw [modFlm_port_same, modFlm_port_same]
  exact ⟨_, _, _, _, _, rfl⟩

end

/-! ### A flit comes in (R246, R250, R254) -/

section
variable {s : State} {p : Nat} {lanes : List (List Byte)}

/-- The control word of a flit. -/
def flitCtl (lanes : List (List Byte)) : Ctl := Ctl.ofWord (num (lanes.getD 0 []) 2 8)

/-- A flit whose four chunks are good and carry one number, and that NAKs nothing: its control word is applied, and it is judged. -/
theorem flitReceive_good {seq : Nat} (flume : (port s p).mode = .flume) (up : (port s p).state = .up) (go : s.core.datReset = false)
    (good : ∀ i, i < 4 → chunkGood i (lanes.getD i []) = true) (numbered : ∀ i, i < 4 → chunkSeq (lanes.getD i []) = seq)
    (quiet : (flitCtl lanes).nak = none) :
    exec (.flitReceive p lanes) s = .next
      (judgeRetry p (goodFlit p seq (flitCtl lanes) (flitData lanes) (applyCtl p (flitCtl lanes) s))) := by
  have goodChunks : ((List.range 4).filter fun i => chunkGood i (lanes.getD i [])) = [0, 1, 2, 3] :=
    List.filter_eq_self.mpr fun i hi => good i (List.mem_range.mp hi)
  have stays : (port (applyCtl p (flitCtl lanes) s) p).state = .up := by
    obtain ⟨_, _, _, _, _, applied⟩ := applyCtl_port s p quiet
    rw [applied, up]
  show execFlitReceive p lanes s = _
  refine (onEvent_holds (by simp [flume, up, go])).trans ?_
  rw [goodChunks]
  have numbers : [0, 1, 2, 3].map (fun i => chunkSeq (lanes.getD i [])) = [seq, seq, seq, seq] :=
    List.map_congr_left fun i hi => numbered i (by simp at hi; omega)
  dsimp only
  rw [numbers]
  show Host.Outcome.next (if _ then _ else if (port (applyCtl p (flitCtl lanes) s) p).state ≠ PortState.up then _ else _) = _
  rw [if_neg (by simp), if_neg (fun gone => gone stays)]
  rfl

theorem flitReceive_bad (flume : (port s p).mode = .flume) (up : (port s p).state = .up) (go : s.core.datReset = false)
    (bad : ∀ i, i < 4 → chunkGood i (lanes.getD i []) = false) :
    exec (.flitReceive p lanes) s = .next (linkDown p 1 0 .linkDown (countBad p s)) := by
  have goodChunks : ((List.range 4).filter fun i => chunkGood i (lanes.getD i [])) = [] :=
    List.filter_eq_nil_iff.mpr fun i hi => Bool.eq_false_iff.mp (bad i (List.mem_range.mp hi))
  show execFlitReceive p lanes s = _
  refine (onEvent_holds (by simp [flume, up, go])).trans ?_
  rw [goodChunks]
  rfl

/-- A bad flit counted leaves its port in its state. -/
theorem countBad_port (p : Nat) (s : State) : ∃ badAt degraded, port (countBad p s) p = { port s p with
    flm := { (port s p).flm with bad := sat 0xFFFFFFFF ((port s p).flm.bad + 1), badAt, degraded } } := by
  unfold countBad
  extract_lets now inSec f armed l raises counted
  have marked : port counted p = { port s p with
      flm := { f with
        bad := sat 0xFFFFFFFF (f.bad + 1), badAt := l
        degraded := if raises then some now else if armed then none else f.degraded } } :=
    modFlm_port_same ..
  split
  · exact ⟨_, _, (raisePf_port ..).trans marked⟩
  · exact ⟨_, _, marked⟩

/-- An IDLE flit with the next number changes nothing (R254 rule 4). -/
theorem goodFlit_idle {c : Ctl} (idle : c.type = 0) (data : List Byte) :
    goodFlit p (port s p).flm.n c data s = s := by
  have notLast : (port s p).flm.n ≠ seqSub (port s p).flm.n 1 := by
    unfold seqSub
    omega
  unfold goodFlit
  dsimp only
  rw [if_neg (by simp [notLast]), if_pos ⟨idle, rfl⟩]

/-- A flit of padding alone takes a slot of its receive buffer that has room, and frees it. -/
theorem deliverFlit_padding {b : FlitBody} (padding : b.start = 0xFF) (fresh : ((port s p).flm.rx.getD b.vc {}).part = [])
    (room : ((port s p).flm.rx.getD b.vc {}).used < 4 * (port s p).flm.allocNow.getD b.vc 0) :
    ∃ rx, deliverFlit p b s = (modFlm p (fun f => { f with rx := f.rx.set b.vc rx }) s, true) := by
  unfold deliverFlit
  dsimp only
  rw [if_neg (by omega), if_pos fresh, if_pos padding, fresh]
  exact ⟨_, rfl⟩

/-- A link that has met the next number (R254). -/
def Flm.counted (f : Flm) : Flm := { f with n := (f.n + 1) % 4096 }

/-- A DATA flit of padding with the next number, none before it missing, is delivered (R254 rule 6). -/
theorem goodFlit_padding {c : Ctl} (data : List Byte) (type : c.type = 1) (padding : c.start = 0xFF) (whole : (port s p).flm.m = [])
    (fresh : ((port s p).flm.rx.getD c.vc {}).part = [])
    (room : ((port s p).flm.rx.getD c.vc {}).used < 4 * (port s p).flm.allocNow.getD c.vc 0) :
    ∃ rx, port (goodFlit p (port s p).flm.n c data s) p = { port s p with flm := { (port s p).flm.counted with rx } } := by
  have inWindow : seqSub (port s p).flm.n (port s p).flm.e < 64 := by
    unfold Flm.e seqSub
    rw [whole]
    dsimp only
    omega
  have counted : port (modFlm p Flm.counted s) p = { port s p with flm := (port s p).flm.counted } := modFlm_port_same ..
  obtain ⟨rx, delivered⟩ := deliverFlit_padding (s := modFlm p Flm.counted s) (b := { vc := c.vc, start := c.start, data }) padding
    (by rw [counted]; exact fresh) (by rw [counted]; exact room)
  unfold goodFlit
  dsimp only
  rw [if_neg (by simp [type]), if_neg (by simp [type]), if_neg (by simp [whole]), if_pos ⟨type, rfl⟩, if_pos inWindow, if_pos whole,
    show (fun f : Flm => { f with n := (f.n + 1) % 4096 }) = Flm.counted from rfl, delivered]
  exact ⟨_, (modFlm_port_same ..).trans (by rw [counted])⟩

end

/-! ### The limits of a missing flit and of a long retry (R255, R257) -/

section
variable {s : State} {p a : Nat}

theorem nakResendTimeout_runs {seq n : Nat} (missing : (port s p).flm.m = [⟨seq, n, some a⟩]) (late : a + 320 ≤ s.core.t) :
    ∃ f : Flm → Flm, exec (.nakResendTimeout p seq) s = .next (modFlm p f s) ∧ (f (port s p).flm).m = [⟨seq, n, none⟩] := by
  refine ⟨_, onEvent_holds ?_, ?_⟩
  · simp [missing, passed, late]
  · simp [missing, passed, late]

theorem retryWindowExpiry_runs (up : (port s p).state = .up) (began : (port s p).flm.retryAt = some a) (late : a + 4000 ≤ s.core.t) :
    exec (.retryWindowExpiry p) s = .next (linkDown p 6 (port s p).flm.e .linkDown s) := by
  show execRetryWindowExpiry p s = _
  exact onEvent_holds (by simp [Port.retry, up, began, passed, late])

end

/-- Settles O18: a flit sent and a flit judged each leave what their own lemma says of the link, and a link that goes down what is said of
it once. -/
theorem flits : Obligations.Flits := by
  unfold Obligations.Flits
  refine ⟨?idleOut, ?dataOut, ?idleIn, ?dataIn, ?noneGood, ?resend, ?longRetry⟩
  case idleOut =>
    intro s p flume up go replays ready
    refine ⟨_, flitSend_idle flume up go replays ready, sendFlit_out .., ?_⟩
    obtain ⟨m, first, sent⟩ := sendFlit_port (s := s) (p := p) (port s p).flm.txSeq (outCtl (port s p).flm 0 0 0xFF)
      (List.replicate 240 0)
    rw [sent]
    exact ⟨rfl, rfl⟩
  case dataOut =>
    intro s p v flume up go replays ready room
    refine ⟨_, flitSend_data flume up go replays ready room, ?_⟩
    obtain ⟨m, first, sent⟩ := sendFlit_port (s := modFlm p (Flm.loaded v) s) (p := p) (port s p).flm.txSeq
      (outCtl (port s p).flm 1 v ((packNext (port s p).flm v).2.1.getD 0xFF)) (packNext (port s p).flm v).1
    rw [sent, sendFlit_out, modFlm_port_same]
    refine ⟨rfl, List.length_append, ?_, List.length_append⟩
    show (((port s p).flm.tx.set v _).getD v {}).avail = _
    rw [Tbl.getD_set, if_pos rfl]
  case idleIn =>
    intro s p lanes flume up go good numbered idle quiet
    obtain ⟨_, _, _, _, _, applied⟩ := applyCtl_port s p (c := flitCtl lanes) quiet
    have next : (port (applyCtl p (flitCtl lanes) s) p).flm.n = (port s p).flm.n := by rw [applied]
    rw [flitReceive_good flume up go good numbered quiet, ← next, goodFlit_idle (c := flitCtl lanes) idle]
    rfl
  case dataIn =>
    rintro s p lanes c flume up go good numbered rfl type quiet padding whole fresh room
    obtain ⟨_, _, _, _, _, applied⟩ := applyCtl_port s p (c := flitCtl lanes) quiet
    have next : (port (applyCtl p (flitCtl lanes) s) p).flm.n = (port s p).flm.n := by rw [applied]
    obtain ⟨rx, taken⟩ := goodFlit_padding (s := applyCtl p (flitCtl lanes) s) (c := flitCtl lanes) (flitData lanes) type padding
      (by rw [applied]; exact whole) (by rw [applied]; exact fresh) (by rw [applied]; exact room)
    rw [next] at taken
    obtain ⟨_, _, _, judged⟩ := judgeRetry_port
      (goodFlit p (port s p).flm.n (flitCtl lanes) (flitData lanes) (applyCtl p (flitCtl lanes) s)) p
    refine ⟨_, flitReceive_good flume up go good numbered quiet, ?_⟩
    rw [judged, taken, applied]
    exact ⟨rfl, whole, up⟩
  case noneGood =>
    intro s p lanes flume up go bad
    obtain ⟨badAt, degraded, counted⟩ := countBad_port p s
    obtain ⟨longest, down⟩ := linkDown_port (s := countBad p s) (p := p) (by rw [counted, up]) 1 0 .linkDown
    refine ⟨_, flitReceive_bad flume up go bad, ?_⟩
    rw [down, counted]
    simp [Port.downed, flume, Flm.clear]
  case resend =>
    intro s p seq n a missing late
    obtain ⟨f, runs, due⟩ := nakResendTimeout_runs missing late
    refine ⟨_, runs, ?_, fun k other => modFlm_port_other _ other⟩
    rw [modFlm_port_same]
    exact due
  case longRetry =>
    intro s p a flume up began late
    obtain ⟨longest, down⟩ := linkDown_port up 6 (port s p).flm.e .linkDown
    refine ⟨_, retryWindowExpiry_runs up began late, ?_⟩
    rw [down]
    simp [Port.downed, flume]

end Sys2Proof.Machine
end

section
/-! PROOFS. A status NAK on a queue pair whose completions go into an event queue (09 R273, R275, R280, 10 R304). -/

namespace Sys2Proof.Machine

/-- A queue of 16 entries that takes the events of function 0. -/
def eventCq : RCq := { fn := 0, k := 4, ring := { asid := 0, va := 0, len := 0, segs := [] }, vector := 0, eventq := true }

/-- A SEND on handle 0 with the first PSN. -/
def firstSend : Wr :=
  { op := 1, flags := 0, imm := 0, wrId := 0, len := 0, remote := 0, key := 0, held := eventCq.ring, num := 0
    psn := 0, npsn := 1, rung := 0 }

/-- A queue pair in handle mode that has sent it, with the event queue as its SEND_CQ. -/
def eventQp : Qp :=
  { fn := 0, mode := 1, port := 0, asid := 0, sendCq := 0, recvCq := 0, srq := none, sk := 4, rk := 4, sring := eventCq.ring, rring := none
    state := .rts, sent := [firstSend] }

/-- A mill in RUN whose port 0 is UP, with that queue pair, its event queue and a map record of handle 0. -/
def eventMill : State := { State.reset with
  core := { State.reset.core with role := .mill }
  pwr := { State.reset.pwr with state := .run }
  prt := { ports := [(0, { mode := .ethernet, state := .up })] }
  rdm := { qps := [(0, eventQp)], cqs := [(0, eventCq)] }
  grn := { State.reset.grn with recs := [{ handle := 0, fn := 0, write := false, mirrored := false, partner := 0, expiry := 0 }] } }

/-- The handle of the SEND is stale: BIN_LOST of its record and the completion of the SEND both enter the queue. -/
theorem eventMill_enters_two : ∃ t, exec (.statusNakReceive ⟨0, 0, true⟩ 0 0x10 0) eventMill = .next t ∧
    (t.rdm.cqs.get 0).map (·.prod) = some 2 := ⟨_, rfl, rfl⟩

/-- Refutes O43: of the clause on a status NAK that completes a request in handle mode. The clause does not ask that SEND_CQ take work
completions, which R274 has QP_CREATE check: in `eventMill` it is the event queue that also takes the BIN_LOST of the record which the
NAK ends (R304), so PROD advances by two, where the clause wants one. -/
theorem not_rdmaArrivals : ¬ Obligations.RdmaArrivals := by
  unfold Obligations.RdmaArrivals
  intro h
  obtain ⟨-, -, -, -, -, -, -, -, -, -, entersOne, -⟩ := h
  obtain ⟨t, runs, -, cq, -⟩ := entersOne eventMill 0 0 0 0x10 0 true .staleHandle eventQp firstSend eventCq rfl rfl (by decide)
    (by decide) rfl rfl (by decide) rfl rfl rfl (by decide) rfl rfl (by decide)
  obtain ⟨u, runs', two⟩ := eventMill_enters_two
  have one : (t.rdm.cqs.get 0).map (·.prod) = some 1 := congrArg (Option.map (·.prod)) cq
  rw [runs] at runs'
  cases runs'
  exact absurd (one.symm.trans two) (by decide)

end Sys2Proof.Machine
end

section
/-! PROOFS. What reads of memory, translations and mirrors that break leave of the RDMA engine, and a queue pair as others end (06 R191,
R196, 09 R273 to R275, R284, R289, 10 R310). -/

namespace Sys2Proof.Machine

/-! ### Reads of memory: the clocks and the RDMA engine stay -/

/-- The reset logic with the clocks, and the RDMA engine. -/
def State.engine (s : State) : Core × Rdm := (s.core, s.rdm)

theorem engine_core {s t : State} (h : t.engine = s.engine) : t.core = s.core := congrArg Prod.fst h

theorem engine_rdm {s t : State} (h : t.engine = s.engine) : t.rdm = s.rdm := congrArg Prod.snd h

theorem Told.engine {s t : State} (h : Told s t) : t.engine = s.engine := Prod.ext h.core h.rdm

section
variable (s : State)

@[simp] theorem noteWalks_engine (h : Held) : (noteWalks h s).engine = s.engine := by
  unfold noteWalks
  split <;> rfl

/-- What a walk enters in the caches is no byte of memory. -/
@[simp] theorem noteWalks_cells (h : Held) : (noteWalks h s).mem.cells = s.mem.cells := by
  unfold noteWalks
  split
  · rfl
  · refine List.foldlRecOn (motive := fun m : Mem => m.cells = s.mem.cells) _ _ rfl fun m kept page _ => ?_
    split <;> exact kept

@[simp] theorem noteFault_engine (f : XFault) : (noteFault f s).engine = s.engine := by
  unfold noteFault
  dsimp only
  split <;> rfl

@[simp] theorem xlateFault_engine (c : Cmd) (f : XFault) (item : Nat) : (xlateFault c f item s).engine = s.engine :=
  (complete_told ..).engine.trans (noteFault_engine ..)

@[simp] theorem useRuns_engine (l : List Seg) : (useRuns l s).engine = s.engine := by
  unfold useRuns useDdr
  split
  · split <;> rfl
  · rfl

theorem useRuns_cells (l : List Seg) : (useRuns l s).mem.cells = s.mem.cells := congrArg Prod.snd (useRuns_stored s l)

@[simp] theorem weaken_engine (bus : Bus) : (weaken bus s).engine = s.engine := by
  unfold weaken
  split <;> rfl

@[simp] theorem dramCe_engine (a : Nat) : (dramCe a s).engine = s.engine := by
  unfold dramCe
  dsimp only
  split <;> rfl

@[simp] theorem meetLine_engine (e : Nat × Bool) : (meetLine s e).engine = s.engine := by
  unfold meetLine
  dsimp only
  split
  · rfl
  · exact dramCe_engine ..

@[simp] theorem dramUe_engine (a : Nat) : (dramUe a s).engine = s.engine :=
  (raisePf_told ..).engine.trans (logError_told ..).engine

@[simp] theorem meetWeak_engine (l : List Seg) : (meetWeak l s).engine = s.engine := by
  refine foldl_keeps State.engine (fun s g => ?_) l s
  split
  · rfl
  · exact foldl_keeps State.engine meetLine_engine _ s

@[simp] theorem meetPoison_engine (l : List Seg) : (meetPoison l s).engine = s.engine := by
  unfold meetPoison
  split <;> simp

@[simp] theorem readRuns_engine (bus : Bus) (l : List Seg) : (readRuns bus l s).2.engine = s.engine := by
  unfold readRuns readMem
  dsimp only
  split <;> simp

theorem readRuns_cells (bus : Bus) (l : List Seg) : (readRuns bus l s).2.mem.cells = s.mem.cells :=
  congrArg Prod.snd (readRuns_stored s bus l)

@[simp] theorem ringEntries_engine (bus : Bus) (ring : Held) (k from_ n : Nat) :
    (ringEntries bus ring k from_ n s).2.engine = s.engine := by
  refine foldlSnd_keeps State.engine (fun p i => ?_) _ (([] : List (List Byte)), s)
  exact readRuns_engine p.2 ..

/-! ### Writes and mirrors that break: the RDMA engine stays (R310) -/

@[simp] theorem writeSegs_rdm (gs : List Seg) (l : List PByte) : (writeSegs gs l s).rdm = s.rdm := by
  induction gs generalizing l s with
  | nil => rfl
  | cons g gs ih =>
    refine (ih ..).trans ?_
    unfold writeSeg
    split
    · rfl
    · split <;> rfl

@[simp] theorem setMState_rdm (i : Nat) (st : MState) : (setMState i st s).rdm = s.rdm :=
  foldl_keeps (·.rdm) (fun _ _ => (sendMsg_told ..).rdm) _ _

@[simp] theorem finishMaps_rdm (i : Nat) (mine : MapWait → Bool) : (finishMaps i mine s).rdm = s.rdm :=
  foldl_keeps (·.rdm) (fun _ _ => (completeId_told ..).rdm) _ _

@[simp] theorem landWaiting_rdm (i : Nat) : (landWaiting i s).rdm = s.rdm := by
  refine foldl_keeps (·.rdm) (fun s t => ?_) _ s
  show (writeBin ..).rdm = s.rdm
  unfold writeBin
  dsimp only
  split <;> rfl

@[simp] theorem breakMirror_rdm (i reason : Nat) : (breakMirror i reason s).rdm = s.rdm := by
  unfold breakMirror
  split
  · simp [(raisePf_told ..).rdm]
  · simp [(raisePf_told ..).rdm]
  · rfl

@[simp] theorem qpLeft_rdm (q : Nat) : (qpLeft q s).rdm = s.rdm := by
  unfold qpLeft
  split
  · exact foldl_keeps (·.rdm) (fun s i => breakMirror_rdm s i 1) _ s
  · rfl

@[simp] theorem failFills_rdm (q : Nat) (st : Status) : (failFills q st s).rdm = s.rdm := by
  refine foldl_keeps (·.rdm) (fun s f => ?_) _ s
  exact (raise_told ..).rdm

/-! ### Events and entries of completion queues: the queue pairs stay (R273, R275, R289) -/

@[simp] theorem modRcq_qps (c : Nat) (f : RCq → RCq) : (modRcq c f s).rdm.qps = s.rdm.qps := rfl

@[simp] theorem rcqWrite_qps (c : Nat) (e : RCqe) : (rcqWrite c e s).rdm.qps = s.rdm.qps := by
  unfold rcqWrite putHeld
  split
  · rfl
  · dsimp only
    split <;> simp [emit]

@[simp] theorem eventTo_qps (code a1 a2 fn : Nat) : (eventTo code a1 a2 fn s).rdm.qps = s.rdm.qps := by
  unfold eventTo
  split
  · rfl
  · dsimp only
    split
    · rfl
    · split
      · simp
      · split <;> simp

@[simp] theorem cqFail_qps (c : Nat) : (cqFail c s).rdm.qps = s.rdm.qps := by
  unfold cqFail
  split <;> simp

theorem wcPut_qps (c q : Nat) (w : Wc) : (wcPut c q w s).rdm.qps = (noteStatus q w.status s).rdm.qps := by
  unfold wcPut
  dsimp only
  split
  · rfl
  · split
    · rfl
    · split <;> simp

end

/-! ### A queue pair as completions are written and others end (R273, R275, R284) -/

/-- A queue pair without its LAST_STATUS, which each completion that it writes changes. -/
def Qp.unread (p : Qp) : Qp := { p with last := 0 }

/-- A queue pair of a state, LAST_STATUS left out. -/
def unreadOf (q : Nat) (s : State) : Option Qp := (qpOf s q).map Qp.unread

section
variable {q : Nat} {s t : State}

theorem unreadOf_of_qps (h : t.rdm.qps = s.rdm.qps) : unreadOf q t = unreadOf q s := congrArg (fun l => (Tbl.get l q).map Qp.unread) h

theorem unreadOf_held {p : Qp} (held : qpOf s q = some p) : unreadOf q s = some p.unread := congrArg (Option.map Qp.unread) held

theorem unreadOf_modQp_other {k : Nat} (other : q ≠ k) (f : Qp → Qp) : unreadOf q (modQp k f s) = unreadOf q s :=
  congrArg (Option.map Qp.unread) (modQp_qp_other other f)

/-- What is said of a queue pair without LAST_STATUS is said of the queue pair. -/
theorem held_of_unreadOf {p : Qp} (h : unreadOf q s = some p.unread) : ∃ r, qpOf s q = some r ∧ r.unread = p.unread :=
  Option.map_eq_some_iff.1 h

variable (s)

@[simp] theorem noteStatus_unreadOf (k : Nat) (st : Status) : unreadOf q (noteStatus k st s) = unreadOf q s := by
  unfold noteStatus
  split
  · rfl
  · by_cases other : q = k
    · subst other
      show (qpOf (modQp q _ s) q).map _ = (qpOf s q).map _
      rw [modQp_qp_same, Option.map_map]
      rfl
    · exact unreadOf_modQp_other other _

@[simp] theorem wcPut_unreadOf (c k : Nat) (w : Wc) : unreadOf q (wcPut c k w s) = unreadOf q s :=
  (unreadOf_of_qps (wcPut_qps ..)).trans (noteStatus_unreadOf ..)

variable {s}

/-- A queue pair that ends is emptied into ERROR; what follows changes no queue pair but in its LAST_STATUS. -/
theorem endQp_unreadOf {x : QpEnd} {p : Qp} (held : qpOf s x.q = some p) (live : p.state ≠ .error) :
    unreadOf q (endQp x s) = unreadOf q (modQp x.q Qp.toError s) := by
  unfold endQp
  simp -zeta only [held, if_neg live]
  extract_lets ended sent received moved filled
  have toSent : unreadOf q sent = unreadOf q ended := foldl_keeps (unreadOf q) (fun s _ => wcPut_unreadOf s ..) _ _
  have toReceived : unreadOf q received = unreadOf q sent := foldl_keeps (unreadOf q) (fun s _ => wcPut_unreadOf s ..) _ _
  have toMoved : unreadOf q moved = unreadOf q received := by
    unfold moved
    split
    · exact unreadOf_of_qps (congrArg Rdm.qps (completeId_told ..).rdm)
    · rfl
  refine (unreadOf_of_qps ?_).trans ((toMoved.trans toReceived).trans toSent)
  rw [qpLeft_rdm]
  split <;> simp [filled]

/-- A queue pair in ERROR stays as it is when any queue pair ends. -/
theorem endQp_ended {p : Qp} (held : qpOf s q = some p) (ended : p.state = .error) (x : QpEnd) :
    unreadOf q (endQp x s) = unreadOf q s := by
  cases named : qpOf s x.q with
  | none => simp [endQp, named]
  | some r =>
    by_cases live : r.state = .error
    · simp [endQp, named, live]
    · have other : q ≠ x.q := by
        rintro rfl
        cases held.symm.trans named
        exact live ended
      exact (endQp_unreadOf named live).trans (unreadOf_modQp_other other _)

theorem endQps_ended {p : Qp} (held : qpOf s q = some p) (ended : p.state = .error) (n : Nat) (l : List QpEnd) :
    unreadOf q (endQps n l s) = unreadOf q s := by
  induction n generalizing l s p with
  | zero => rfl
  | succ n ih =>
    cases l with
    | nil => rfl
    | cons x l =>
      have kept := endQp_ended held ended x
      obtain ⟨r, heldThen, same⟩ := held_of_unreadOf (kept.trans (unreadOf_held held))
      exact (ih heldThen ((congrArg Qp.state same :).trans ended) _).trans kept

/-- A queue pair moved to ERROR is emptied, whatever its completions take along (R284). -/
theorem qpError_held {p : Qp} (held : qpOf s q = some p) (live : p.state ≠ .error) (flight rest : Status) (tell : Option Status) :
    ∃ r, qpOf (qpError q flight rest tell s) q = some r ∧ r.unread = p.toError.unread := by
  have ends : unreadOf q (endQp { q, flight, rest, tell } s) = some p.toError.unread :=
    (endQp_unreadOf held live).trans (unreadOf_held ((modQp_qp_same ..).trans (congrArg (Option.map Qp.toError) held)))
  obtain ⟨r, ended, same⟩ := held_of_unreadOf ends
  refine held_of_unreadOf (Eq.trans ?_ ends)
  rw [qpError, qpFuel, Nat.add_comm]
  exact endQps_ended ended (congrArg Qp.state same :) _ _

end

end Sys2Proof.Machine
end

section
/-! PROOFS. A QP_CREATE whose first ring takes the leaf of the second out of the leaf cache (06 R191, R196, 09 R269, R282). -/

namespace Sys2Proof.Machine

/-! ### A ring that does not translate (R269) -/

theorem ringAt_translated {s : State} {asid va bytes : Nat} {write : Bool} {h : Held}
    (translated : translate s { write } asid va bytes = .ok h) (c : Cmd) (k : Held → State → State) :
    ringAt c asid va bytes write k s = k h (noteWalks h s) := by
  unfold ringAt
  rw [translated]

theorem ringAt_faults {s : State} {asid va bytes : Nat} {write : Bool} {f : XFault}
    (faults : translate s { write } asid va bytes = .error f) (c : Cmd) (k : Held → State → State) :
    ringAt c asid va bytes write k s = xlateFault c f 0 s := by
  unfold ringAt
  rw [faults]

/-! ### The address space, its table and the leaf cache -/

/-- Address space 7 of the PF: 8,192 pages of 64 KiB from VA 0, in HBM. -/
def wideSpace : Space := { fn := 0, extents := [{ va := 0, page := .p64K, count := 8192, target := .hbm, addr := 0, w := true }] }

/-- The VA of the page that the receive ring lies in: the ninth page, whose entry begins the second line of its table. -/
def recvVa : Nat := 0x80000

/-- The line of the entry of that page in the table of level 0. -/
def recvLine : Nat := tableLine State.reset 7 0 recvVa

/-- A full leaf cache: the page of the receive ring is its oldest entry, and the page of the send ring, VA 0, is not in it. -/
def fullCache : List (Nat × Nat) := (7, recvVa) :: (List.range 4095).map fun i => (7, 2 ^ 16 * (i + 16))

/-- QP_CREATE of QP 0 by the PF: key mode, address space 7, CQ 3 for both directions, rings of 16 entries at VA 0 and at the ninth
page. -/
def createQp : Cmd := { id := ⟨.pcie 0, 1⟩, op := .qpCreate, pkt := [0x10050, 0, 0x70000, 0x30003, 0, 0x44, 0, 0, 0x80000, 0] }

/-- The completion queue for work requests. -/
def workCq : RCq := { fn := 0, k := 4, ring := { asid := 7, va := 0x100000, len := 512, segs := [] }, vector := 0, eventq := false }

/-- A device in RUN with that command, whose table line for the receive ring's page has become poisoned since the page was cached. -/
def crowded : State := { State.reset with
  pwr := { State.reset.pwr with state := .run }
  hif := { cmds := [createQp] }
  mem := { spaces := [(7, wideSpace)], bad := [(recvLine, true)], leafCache := fullCache }
  rdm := { cqs := [(3, workCq)] } }

/-- The send ring as it translates. -/
def sendRing : Held := { asid := 7, va := 0, len := 1024, segs := [{ target := .hbm, addr := 0, len := 1024 }] }

/-- The receive ring as it translates while its page is cached. -/
def recvRing : Held := { asid := 7, va := recvVa, len := 1024, segs := [{ target := .hbm, addr := recvVa, len := 1024 }] }

/-! ### Which lines the walks of the two pages read (R188, R195) -/

/-- Wherever the tables lie, the first entry of a table is in the first line of its 256-byte unit, and the ninth entry of a table of
level 0 is in the second. -/
theorem tableLine_ne_recvLine (level : Nat) : tableLine crowded 7 level 0 ≠ recvLine := by
  have store (s : State) (sizes : s.mem.sizes = {}) : ptsBase s = 256 * 1123951424 := by
    rw [ptsBase, sizes]
    rfl
  have recv : recvLine % 4 = 1 := by
    rw [recvLine, tableLine, tableAddr, store _ rfl]
    generalize Config.tableAt 7 0 _ % _ = k
    simp [pointerSpan, recvVa]
    omega
  have send : tableLine crowded 7 level 0 % 4 = 0 := by
    rw [tableLine, tableAddr, store _ rfl]
    generalize Config.tableAt 7 level _ % _ = k
    split <;> simp <;> omega
  omega

theorem tableLine_of_sizes {s t : State} (same : s.mem.sizes = t.mem.sizes) (asid level va : Nat) :
    tableLine s asid level va = tableLine t asid level va := by
  simp only [tableLine, tableAddr, ptsBase, same]

theorem crowded_bad (k : Nat) : crowded.mem.bad.has k = decide (recvLine = k) := by
  show (if recvLine = k then some true else none).isSome = _
  split <;> simp [*]

theorem badTable_send : badTable crowded 7 0 0 = none := by
  have clean (level : Nat) : (crowded.mem.bad.has (tableLine crowded 7 level 0) ||
      crowded.mem.weak.getD (tableLine crowded 7 level 0) false) = false := by
    rw [crowded_bad, decide_eq_false (tableLine_ne_recvLine level).symm]
    rfl
  unfold badTable
  split
  · rfl
  · exact List.findSome?_eq_none_iff.2 fun level _ => if_neg (by simp [clean])

/-- The walk of the receive ring's page meets the poisoned line at level 0 if not before. -/
theorem badTable_recv {s : State} (bad : s.mem.bad = crowded.mem.bad) (sizes : s.mem.sizes = {}) :
    ∃ b, badTable s 7 recvVa 0 = some b := by
  have line : tableLine s 7 0 recvVa = recvLine := tableLine_of_sizes (sizes.trans rfl) ..
  have listed : s.mem.bad.isEmpty = false := by rw [bad]; rfl
  have met : (s.mem.bad.has (tableLine s 7 0 recvVa) || s.mem.weak.getD (tableLine s 7 0 recvVa) false) = true := by
    rw [line, bad, crowded_bad, decide_eq_true rfl, Bool.true_or]
  unfold badTable
  rw [listed, Bool.false_and, if_neg Bool.false_ne_true]
  refine Option.isSome_iff_exists.1 (List.findSome?_isSome_iff.2 ⟨0, by decide, ?_⟩)
  dsimp only
  rw [if_pos met]
  rfl

/-! ### Translations of one page (R196) -/

section
variable {s : State} {use : Use} {asid va n level : Nat} {sp : Space} {segs : List Seg}

theorem translate_clean (space : s.mem.spaces.get asid = some sp)
    (walk : walkRange use sp.extents (sp.extents.length + 1) va n = .ok segs) (clean : badPage s asid sp.extents va n = none) :
    translate s use asid va n = .ok { asid, va, len := n, segs := segs.map fun g => { g with fn := sp.fn } } := by
  unfold translate
  simp only [space, walk, clean]

theorem translate_poisoned {b : XFault} (space : s.mem.spaces.get asid = some sp)
    (walk : walkRange use sp.extents (sp.extents.length + 1) va n = .ok segs) (poisoned : badPage s asid sp.extents va n = some b) :
    translate s use asid va n = .error b := by
  unfold translate
  simp only [space, walk, poisoned]

variable {l : List Extent} (page : pagesOf l va n = [(va, level)])
include page

theorem badPage_cached (cached : (asid, va) ∈ s.mem.leafCache) : badPage s asid l va n = none := by
  simp [badPage, page, cached]

theorem badPage_walked (uncached : (asid, va) ∉ s.mem.leafCache) (clean : badTable s asid va level = none) :
    badPage s asid l va n = none := by
  simp [badPage, page, uncached, clean]

theorem badPage_poisoned {b : Nat × Nat} (uncached : (asid, va) ∉ s.mem.leafCache) (met : badTable s asid va level = some b) :
    badPage s asid l va n = some { va, level := b.1, cause := 5, line := b.2 } := by
  have errors : ¬(s.mem.bad.isEmpty && s.mem.weak.isEmpty) = true := by
    intro spotless
    rw [badTable, if_pos spotless] at met
    cases met
  rw [badPage, if_neg errors, page]
  simp [uncached, met]

end

/-- A walk of one page that the leaf cache does not hold enters both caches and is counted. -/
theorem noteWalks_walked {s : State} {h : Held} {sp : Space} {level : Nat} (space : s.mem.spaces.get h.asid = some sp)
    (page : pagesOf sp.extents h.va h.len = [(h.va, level)]) (uncached : (h.asid, h.va) ∉ s.mem.leafCache) :
    noteWalks h s = { s with mem := { s.mem with
      leafCache := pushLast 4096 s.mem.leafCache (h.asid, h.va)
      walkCache := walked h.asid h.va level s.mem.walkCache
      walks := sat 0xFFFFFFFF (s.mem.walks + 1) } } := by
  simp [noteWalks, State.modMem, space, page, uncached]

/-! ### The two rings in that device, and the receive ring once the send ring is noted -/

theorem send_uncached : (7, 0) ∉ fullCache := by simp [fullCache, recvVa]

theorem translate_send : translate crowded {} 7 0 1024 = .ok sendRing :=
  translate_clean (sp := wideSpace) (segs := sendRing.segs) rfl rfl (badPage_walked (level := 0) rfl send_uncached badTable_send)

theorem translate_recv : translate crowded {} 7 recvVa 1024 = .ok recvRing :=
  translate_clean (sp := wideSpace) (segs := recvRing.segs) rfl rfl (badPage_cached (level := 0) rfl (List.mem_cons_self ..))

theorem fullCache_push (x : Nat × Nat) : pushLast 4096 fullCache x = fullCache.tail ++ [x] := by
  have full : fullCache.length + 1 - 4096 = 1 := by simp [fullCache]
  rw [pushLast, full, List.drop_one, List.tail_append_of_ne_nil (by simp [fullCache])]

/-- Noting the walk of the send ring's page drops the oldest entry of the full leaf cache. -/
theorem noteWalks_send : ∃ walkCache walks, noteWalks sendRing crowded = { crowded with
    mem := { crowded.mem with leafCache := fullCache.tail ++ [(7, 0)], walkCache, walks } } := by
  rw [← fullCache_push]
  exact ⟨_, _, noteWalks_walked (sp := wideSpace) (level := 0) rfl rfl send_uncached⟩

theorem recv_evicted : (7, recvVa) ∉ fullCache.tail ++ [(7, 0)] := by
  simp [fullCache, recvVa]
  omega

theorem translate_recv_evicted : ∃ f, translate (noteWalks sendRing crowded) {} 7 recvVa 1024 = .error f := by
  obtain ⟨walkCache, walks, noted⟩ := noteWalks_send
  obtain ⟨b, met⟩ := badTable_recv (s := noteWalks sendRing crowded) (by rw [noted]) (by rw [noted]; rfl)
  have uncached : (7, recvVa) ∉ (noteWalks sendRing crowded).mem.leafCache := by
    rw [noted]
    exact recv_evicted
  exact ⟨_, translate_poisoned (sp := wideSpace) (segs := recvRing.segs) (by rw [noted]; rfl) rfl
    (badPage_poisoned (level := 0) rfl uncached met)⟩

/-- So the QP_CREATE completes XLATE_FAULT and creates nothing. -/
theorem crowded_creates_nothing : ∃ t, exec (.qpCreate createQp.id) crowded = .next t ∧ t.rdm = crowded.rdm := by
  obtain ⟨f, faults⟩ := translate_recv_evicted
  refine ⟨xlateFault createQp f 0 (noteWalks sendRing crowded), ?_, engine_rdm ((xlateFault_engine ..).trans (noteWalks_engine ..))⟩
  have runs : Runs crowded .qpCreate createQp.id createQp := rfl
  show execQpCreate createQp.id crowded = _
  unfold execQpCreate
  refine (onCmd_runs runs).trans (congrArg _ ?_)
  dsimp only
  rw [checks_pass (by rfl)]
  refine (ringAt_translated translate_send ..).trans ?_
  refine (if_neg (by decide)).trans ?_
  exact ringAt_faults faults ..

/-- Refutes O40: of the clause on QP_CREATE. The clause takes both rings to translate in the state as it is, but the second is
translated once the first has been noted: in `crowded` the walk of the send ring's page takes the receive ring's page out of the
leaf cache (R196), whose table line is poisoned, so the command completes XLATE_FAULT where the clause wants the queue pair. -/
theorem not_rdmaObjects : ¬ Obligations.RdmaObjects := by
  unfold Obligations.RdmaObjects
  intro h
  obtain ⟨creates, -⟩ := h
  obtain ⟨t, runs, none⟩ := crowded_creates_nothing
  obtain ⟨u, ⟨qps, -⟩, completes⟩ := creates crowded createQp.id createQp false 7 4 4 sendRing (some recvRing)
    rfl (by decide) (by decide) rfl (by decide) rfl rfl rfl rfl rfl rfl rfl rfl rfl rfl rfl rfl rfl (by decide) (by decide) rfl
    (by decide) (by decide) (by decide) (by decide) (by decide) translate_send ⟨recvRing, rfl, translate_recv⟩
  rw [runs] at completes
  cases completes
  have created : u.rdm = crowded.rdm := (complete_told ..).rdm.symm.trans none
  rw [created] at qps
  exact absurd qps (by decide)

end Sys2Proof.Machine
end

section
/-! PROOFS. The states of a queue pair: QP_MODIFY, and a port move that ends (09 R283 to R285). -/

namespace Sys2Proof.Machine

/-- A flag that is clear, as a field of one bit. -/
theorem fld_of_fbit {p : List Word} {n i : Nat} (clear : fbit p n i = false) : fld p n i i = 0 := by
  unfold fbit bit at clear
  unfold fld bits
  rw [Nat.shiftRight_eq_div_pow, Nat.add_sub_cancel_left]
  rw [Nat.testBit_eq_decide_div_mod_eq] at clear
  simp at clear ⊢
  omega

theorem passes_one {e : Bool × (State → State)} (holds : e.1 = false) : passes [e] = true := by
  simp [passes, holds]

section
variable {s : State} {id : CmdId} {c : Cmd} {q : Qp}
variable (hr : Runs s .qpModify id c) (held : qpOf s c.context = some q) (own : q.fn = c.fn) (res7 : fbit c.pkt 2 7 = false)
  (res : fld c.pkt 2 31 16 = 0)
include hr held own res7 res

/-- QP_MODIFY by the owner of a queue pair towards the target of its row. -/
theorem qpModify_runs {target : Nat} (towards : fld c.pkt 2 2 0 = target) (also : Nat → Bool)
    (f : Cmd → Qp → State → State) : qpModify target also id s f = .next (f c q s) := by
  have formed : (fields c [rsv c.pkt 2 7 7, rsv c.pkt 2 31 16]).1 = false :=
    fields_pass (by simp [rsv_zero (fld_of_fbit res7), rsv_zero res]) c
  unfold qpModify
  simp only [show runnable s .qpModify id = some c from hr, held]
  rw [if_neg (fun wrong => wrong.1 towards)]
  exact congrArg _ (checks_pass (by simp [passes, bad, own, towards, formed]))

/-! ### What each target runs (R284) -/

/-- A queue pair as RESET leaves it. -/
def Qp.cleared (q : Qp) : Qp :=
  { q with state := .reset, sent := [], posted := [], recvs := [], rposted := [], sprod := 0, scons := 0, rprod := 0, rcons := 0
           rqPsn := 0, sqPsn := 0, num := 0, inBytes := 0, msn := 0 }

theorem qpModifyReset_runs (towards : fld c.pkt 2 2 0 = 0) (state : q.state = .error) :
    exec (.qpModifyReset id) s = .next (succeed c (modQp c.context Qp.cleared s)) := by
  show execQpModifyReset id s = _
  unfold execQpModifyReset
  exact (qpModify_runs hr held own res7 res towards ..).trans (congrArg _ (if_neg (not_not_intro state)))

theorem qpModifyInit_runs (towards : fld c.pkt 2 2 0 = 1) (state : q.state = .reset) :
    exec (.qpModifyInit id) s = .next (succeed c (modQp c.context (fun q => { q with state := .init }) s)) := by
  show execQpModifyInit id s = _
  unfold execQpModifyInit
  exact (qpModify_runs hr held own res7 res towards ..).trans (congrArg _ (if_neg (not_not_intro state)))

/-- A transition to INIT that is not in the table of R284. -/
theorem qpModifyInit_refused (towards : fld c.pkt 2 2 0 = 1) (state : q.state ≠ .reset) :
    exec (.qpModifyInit id) s = .next (invalid c 8 s) := by
  show execQpModifyInit id s = _
  unfold execQpModifyInit
  exact (qpModify_runs hr held own res7 res towards ..).trans (congrArg _ (if_pos state))

theorem qpModifyDrain_runs (towards : fld c.pkt 2 2 0 = 4) (state : q.state = .rts) :
    exec (.qpModifyDrain id) s = .next (succeed c (qpLeft c.context (modQp c.context (fun q => { q with state := .drain }) s))) := by
  show execQpModifyDrain id s = _
  unfold execQpModifyDrain
  exact (qpModify_runs hr held own res7 res towards ..).trans (congrArg _ (if_neg (not_not_intro state)))

theorem qpModifyError_runs (towards : fld c.pkt 2 2 0 = 5) (state : q.state ≠ .reset) :
    exec (.qpModifyError id) s = .next (succeed c (qpError c.context .aborted .aborted none s)) := by
  show execQpModifyError id s = _
  unfold execQpModifyError
  exact (qpModify_runs hr held own res7 res towards ..).trans (congrArg _ (if_neg state))

/-- A queue pair in RTR, connected as a packet says. -/
def Qp.ready (q : Qp) (p : List Word) (ethernet : Prop) [Decidable ethernet] : Qp :=
  { q with state := .rtr, member := fld p 2 15 8, rqpn := fld p 3 23 0, rqPsn := fld p 4 23 0, minRnr := fld p 6 15 11
           maxRdDest := fld p 6 25 21, gid := if ethernet then gidOf p else 0, tclass := if ethernet then fld p 11 7 0 else 0 }

theorem qpModifyRtr_runs (towards : fld c.pkt 2 2 0 = 2) (state : q.state = .init)
    (peer : (port s q.port).mode = .flume → (port s q.port).flm.valid = true → (port s q.port).flm.peer = fld c.pkt 2 15 8)
    (granary : q.mode = 1 → ∃ x, s.dom.members.get (fld c.pkt 2 15 8) = some x ∧ x.role = 2) (res3 : fld c.pkt 3 31 24 = 0)
    (res4 : fld c.pkt 4 31 24 = 0) (reads : 1 ≤ fld c.pkt 6 25 21 ∧ fld c.pkt 6 25 21 ≤ 16) (res6 : fld c.pkt 6 31 26 = 0) :
    exec (.qpModifyRtr id) s =
      .next (succeed c (modQp c.context (fun r => r.ready c.pkt ((port s q.port).mode = .ethernet)) s)) := by
  have formed : (fields c [rsv c.pkt 3 31 24, rsv c.pkt 4 31 24, (decide (fld c.pkt 6 25 21 = 0 ∨ 16 < fld c.pkt 6 25 21), 26),
      rsv c.pkt 6 31 26]).1 = false := by
    refine fields_pass ?_ c
    simp [rsv_zero res3, rsv_zero res4, rsv_zero res6]
    omega
  have known : ¬(q.mode = 1 ∧ ((s.dom.members.get (fld c.pkt 2 15 8)).all fun x => decide (x.role ≠ 2)) = true) := by
    rintro ⟨handles, none⟩
    obtain ⟨x, listed, role⟩ := granary handles
    simp [listed, role] at none
  have linked : ¬((port s q.port).mode = .flume ∧ (port s q.port).flm.valid = true ∧
      (port s q.port).flm.peer ≠ fld c.pkt 2 15 8) := fun ⟨flume, valid, other⟩ => other (peer flume valid)
  show execQpModifyRtr id s = _
  unfold execQpModifyRtr
  refine (qpModify_runs hr held own res7 res towards ..).trans (congrArg _ (checks_pass ?_))
  simp only [passes, List.all_cons, bad, decide_eq_false known, decide_eq_false linked, formed, state]
  rfl

/-- A queue pair in RTS from RTR, with what its packet sets. -/
def Qp.started (q : Qp) (p : List Word) : Qp :=
  { q with state := .rts, sqPsn := fld p 5 23 0, timeout := fld p 6 4 0, retryCnt := fld p 6 7 5, rnrRetry := fld p 6 10 8
           maxRd := fld p 6 20 16 }

theorem qpModifyRts_runs (towards : fld c.pkt 2 2 0 = 3) (stay : fbit c.pkt 2 3 = false) (state : q.state = .rtr)
    (res5 : fld c.pkt 5 31 24 = 0) (timeout : 2 ≤ fld c.pkt 6 4 0 ∧ fld c.pkt 6 4 0 ≤ 20)
    (reads : 1 ≤ fld c.pkt 6 20 16 ∧ fld c.pkt 6 20 16 ≤ 16) (res6 : fld c.pkt 6 31 26 = 0) :
    exec (.qpModifyRts id) s = .next (succeed c (modQp c.context (fun q => q.started c.pkt) s)) := by
  have formed : (fields c [rsv c.pkt 5 31 24, (decide (fld c.pkt 6 4 0 < 2 ∨ 20 < fld c.pkt 6 4 0), 24),
      (decide (fld c.pkt 6 20 16 = 0 ∨ 16 < fld c.pkt 6 20 16), 26), rsv c.pkt 6 31 26]).1 = false := by
    refine fields_pass ?_ c
    simp [rsv_zero res5, rsv_zero res6]
    omega
  show execQpModifyRts id s = _
  unfold execQpModifyRts
  simp only [show runnable s .qpModify id = some c from hr, stay, Bool.false_eq_true, if_false]
  refine (qpModify_runs hr held own res7 res towards ..).trans (congrArg _ ?_)
  simp only [state]
  exact checks_pass (passes_one formed)

/-- The port move that a command begins (R285). -/
def moveOf (s : State) (c : Cmd) : Move :=
  ⟨c.id, fld c.pkt 2 6 4, if (port s (fld c.pkt 2 6 4)).mode = .ethernet then gidOf c.pkt else 0, s.core.t⟩

/-- A queue pair that drains for its port move. -/
def Qp.draining (q : Qp) (m : Move) : Qp := { q with state := .drain, move := some m }

theorem qpModifyMove_runs (towards : fld c.pkt 2 2 0 = 3) (moves : fbit c.pkt 2 3 = true) (state : q.state = .rts) :
    exec (.qpModifyMove id) s = .next (drainCheck c.context (accept c (qpLeft c.context
      (modQp c.context (fun q => q.draining (moveOf s c)) s)))) := by
  show execQpModifyMove id s = _
  unfold execQpModifyMove
  simp only [show runnable s .qpModify id = some c from hr, moves, if_true]
  exact (qpModify_runs hr held own res7 res towards ..).trans (congrArg _ (if_neg (not_not_intro state)))

end

/-! ### The queue pair that is left -/

theorem qpOf_of_rdm {s t : State} (h : t.rdm = s.rdm) (k : Nat) : qpOf t k = qpOf s k := congrArg (fun r : Rdm => r.qps.get k) h

theorem modQp_held {s : State} {k : Nat} {q : Qp} (held : qpOf s k = some q) (f : Qp → Qp) : qpOf (modQp k f s) k = some (f q) :=
  (modQp_qp_same f).trans (congrArg (Option.map f) held)

/-- A queue pair whose port move has ended. -/
def Qp.moved (p : Qp) (m : Move) : Qp := { p with state := .rts, port := m.port, gid := m.gid, move := none }

/-- A drain with nothing sent left ends its port move (R285). -/
theorem drainCheck_moves {s : State} {q : Nat} {p : Qp} {m : Move} (held : qpOf s q = some p) (draining : p.state = .drain)
    (moving : p.move = some m) (idle : p.sent = []) :
    drainCheck q s = completeId m.id .success ((s.core.t - m.since) / 1000) 0
      (modQp q (fun p => p.moved m) s) := by
  unfold drainCheck
  simp only [held, draining, moving]
  exact if_pos idle

/-- A queue pair with requests sent goes on draining. -/
theorem drainCheck_waits {s : State} {q : Nat} {p : Qp} (held : qpOf s q = some p) (sent : p.sent ≠ []) : drainCheck q s = s := by
  unfold drainCheck
  simp only [held]
  split
  · exact if_neg sent
  · rfl

/-- Settles O41: each row's own lemma says what it runs to; what QP_MODIFY then tells leaves every queue pair as it is. -/
theorem qpStates : Obligations.QpStates := by
  refine ⟨?reset, ?init, ?rtr, ?rts, ?move, ?moveEnd, ?drain, ?error, ?notReset⟩
  case reset =>
    intro s id c q hr held own towards res7 res state
    exact ⟨_, ⟨_, modQp_held held _, rfl, rfl, rfl, rfl, rfl, rfl, rfl, rfl, fun k other => modQp_qp_other other _⟩,
      qpModifyReset_runs hr held own res7 res towards state⟩
  case init =>
    intro s id c q hr held own towards res7 res state
    exact ⟨_, ⟨modQp_held held _, fun k other => modQp_qp_other other _, rfl⟩,
      qpModifyInit_runs hr held own res7 res towards state⟩
  case rtr =>
    intro s id c q m n hr held own towards res7 res state ofM peer granary res3 res4 ofN least most res6
    subst ofM ofN
    exact ⟨_, modQp_held held _, qpModifyRtr_runs hr held own res7 res towards state peer granary res3 res4 ⟨least, most⟩ res6⟩
  case rts =>
    intro s id c q n r hr held own towards stay res7 res state res5 ofN least most ofR atLeast atMost res6
    subst ofN ofR
    exact ⟨_, modQp_held held _,
      qpModifyRts_runs hr held own res7 res towards stay state res5 ⟨least, most⟩ ⟨atLeast, atMost⟩ res6⟩
  case move =>
    intro s id c q hr held own towards moves res7 res state sent
    have draining : qpOf (accept c (qpLeft c.context (modQp c.context (fun q => q.draining (moveOf s c)) s))) c.context =
        some (q.draining (moveOf s c)) :=
      (qpOf_of_rdm ((accept_told ..).rdm.trans (qpLeft_rdm ..)) _).trans (modQp_held held _)
    exact ⟨_, (qpModifyMove_runs hr held own res7 res towards moves state).trans (congrArg _ (drainCheck_waits draining sent)),
      draining⟩
  case moveEnd =>
    intro s q p m c held draining moving idle found
    exact ⟨modQp q (fun p => p.moved m) s, ⟨modQp_held held _, fun k other => modQp_qp_other other _⟩,
      congrArg _ ((drainCheck_moves held draining moving idle).trans (completeId_found (s := modQp q _ s) found ..))⟩
  case drain =>
    intro s id c q hr held own towards res7 res state
    exact ⟨_, (qpOf_of_rdm (qpLeft_rdm ..) _).trans (modQp_held held _),
      qpModifyDrain_runs hr held own res7 res towards state⟩
  case error =>
    intro s id c q hr held own towards res7 res notReset live
    obtain ⟨r, ended, same⟩ := qpError_held held live .aborted .aborted none
    exact ⟨_, ⟨r, ended, (congrArg Qp.state same :), (congrArg Qp.sent same :), (congrArg Qp.posted same :),
      (congrArg Qp.recvs same :), (congrArg Qp.rposted same :), (congrArg Qp.scons same :), (congrArg Qp.rcons same :)⟩,
      qpModifyError_runs hr held own res7 res towards notReset⟩
  case notReset =>
    intro s id c q hr held own towards state res7 res
    exact qpModifyInit_refused hr held own res7 res towards state

end Sys2Proof.Machine
end

section
/-! PROOFS. Doorbells make entries visible, and the engine takes them in order (09 R270 to R272, R279, R286). -/

namespace Sys2Proof.Machine

/-! ### Doorbells (R270) -/

/-- A queue pair changed in a state whose RDMA engine is that of another. -/
theorem modQp_eq {s t : State} (same : t.rdm = s.rdm) (q : Nat) (f : Qp → Qp) :
    modQp q f t = { t with rdm := { s.rdm with qps := (modQp q f t).rdm.qps } } := by
  rw [← same]
  rfl

section
variable {s : State} {fn val q n index : Nat} {bus : Bus} {p : Qp} {d : List (List Byte) × State}
variable (run : s.pwr.state = .run)
include run

/-- A send queue with the entries that its doorbell has made visible. -/
def Qp.postSends (p : Qp) (l : List (List Byte)) (n now : Nat) : Qp :=
  { p with sprod := p.sprod + n, posted := p.posted ++ l.map fun e => (now, e) }

theorem sqDoorbell_runs (fetched : d = ringEntries bus p.sring p.sk p.sprod n s) (parts : dbParts val 0 = some (q, index))
    (held : qpOf s q = some p) (own : p.fn = fn) (step : indexStep p.sprod p.scons p.sk index = some n) (notReset : p.state ≠ .reset)
    (notInit : p.state ≠ .init) (live : p.state ≠ .error) :
    exec (.rdmaSqDoorbell fn val bus) s = .next (modQp q (fun p => p.postSends d.1 n s.core.t) d.2) := by
  have clock : d.2.core = s.core := by rw [fetched]; exact engine_core (ringEntries_engine ..)
  show execRdmaSqDoorbell fn val bus s = _
  unfold execRdmaSqDoorbell
  simp only [idleExit_of_run run, parts, held, own, step, ← fetched, clock, ne_eq, not_true_eq_false, if_false]
  rfl

theorem sqDoorbell_refused (parts : dbParts val 0 = none) : exec (.rdmaSqDoorbell fn val bus) s = .next (dbRefuse s) := by
  show execRdmaSqDoorbell fn val bus s = _
  unfold execRdmaSqDoorbell
  simp only [idleExit_of_run run, parts]

/-- A receive queue with the entries that its doorbell has made visible. -/
def Qp.postRecvs (p : Qp) (l : List (List Byte)) (n : Nat) : Qp := { p with rprod := p.rprod + n, rposted := p.rposted ++ l }

theorem rqDoorbell_runs {ring : Held} (fetched : d = ringEntries bus ring p.rk p.rprod n s) (parts : dbParts val 1 = some (q, index))
    (held : qpOf s q = some p) (own : p.fn = fn) (hasRing : p.rring = some ring)
    (step : indexStep p.rprod p.rcons p.rk index = some n) (notReset : p.state ≠ .reset) (live : p.state ≠ .error) :
    exec (.rdmaRqDoorbell fn val bus) s = .next (modQp q (fun p => p.postRecvs d.1 n) d.2) := by
  show execRdmaRqDoorbell fn val bus s = _
  unfold execRdmaRqDoorbell
  simp only [idleExit_of_run run, parts, held, hasRing, own, step, ← fetched, notReset, live, ne_eq, not_true_eq_false, or_self,
    if_false]
  rfl

theorem srqDoorbell_runs {x : Srq} (fetched : d = ringEntries bus x.ring x.k x.prod n s) (parts : dbParts val 2 = some (q, index))
    (listed : s.rdm.srqs.get q = some x) (own : x.fn = fn) (step : indexStep x.prod x.cons x.k index = some n) :
    exec (.rdmaSrqDoorbell fn val bus) s = .next (d.2.modRdm fun r =>
      { r with srqs := r.srqs.set q { x with prod := x.prod + n, posted := x.posted ++ d.1 } }) := by
  show execRdmaSrqDoorbell fn val bus s = _
  unfold execRdmaSrqDoorbell
  simp only [idleExit_of_run run, parts, listed, own, step, ← fetched, ne_eq, not_true_eq_false, if_false]

theorem cqDoorbell_runs {x : RCq} (parts : dbParts val 3 = some (q, index)) (listed : s.rdm.cqs.get q = some x) (own : x.fn = fn)
    (step : n = (index + 65536 - x.cons % 65536) % 65536) (within : n ≤ x.prod - x.cons) :
    exec (.rdmaCqDoorbell fn val) s =
      .next (modRcq q (fun x => { x with cons := x.cons + n, armed := x.armed || bit val 32 }) s) := by
  show execRdmaCqDoorbell fn val s = _
  unfold execRdmaCqDoorbell
  simp only [idleExit_of_run run, parts, listed, ← step]
  exact if_neg (by simp [own, within])

end

/-! ### Send entries (R271, R272, R279, R286) -/

/-- The work request of a send entry: its buffer, its data, the numbers it takes of its queue pair. -/
def requestOf (p : Qp) (rung : Nat) (e : List Byte) (h : Held) (data : List PByte) : Wr :=
  let w : Wr :=
    { op := num e 0 1, flags := num e 1 1, imm := num e 4 4, wrId := entryWrId e, len := num e 24 4, remote := num e 32 8
      key := num e 40 4, held := h, num := p.num, psn := p.sqPsn, npsn := 0, rung, data }
  { w with npsn := w.psns p }

/-- A queue pair with the first of its posted entries sent as a request. -/
def Qp.sending (p : Qp) (w : Wr) (now : Nat) : Qp :=
  { p with posted := p.posted.drop 1, scons := p.scons + 1, sent := p.sent ++ [w], num := p.num + 1
           sqPsn := psnAdd p.sqPsn w.npsn, ackAt := some (p.ackAt.getD now) }

/-- Packets sent one after another change the output alone. -/
theorem sendPackets_eq (q : Nat) (l : List Packet) (s : State) : l.foldl (fun s k => sendPacket q k s) s =
    { s with out := s.out ++ l.map fun k => .packet q (pktHdr s q k) k } := by
  induction l generalizing s with
  | nil => simp
  | cons k l ih =>
    have sent : sendPacket q k s = { s with out := s.out ++ [.packet q (pktHdr s q k) k] } := rfl
    rw [List.foldl_cons, ih, sent]
    simp only [List.append_assoc, List.map_cons, List.singleton_append]
    rfl

/-- A request entered in its queue pair, and its packets sent. -/
def sendRequest (q : Nat) (p : Qp) (w : Wr) (now : Nat) (s : State) : State :=
  let t := modQp q (fun p => p.sending w now) s
  { t with out := t.out ++ (w.packets p).map fun k => .packet q (pktHdr t q k) k }

/-- A buffer of no bytes is not translated (R272). -/
def bufferOf (s : State) (p : Qp) (e : List Byte) : Except XFault Held :=
  if num e 24 4 = 0 then .ok { asid := p.asid, va := num e 16 8, len := 0, segs := [] }
  else translate s { write := decide (num e 0 1 = 5) } p.asid (num e 16 8) (num e 24 4)

/-- What a send entry reads of its buffer: nothing for a READ. -/
def gather (s : State) (bus : Bus) (e : List Byte) (h : Held) : List PByte × State :=
  if num e 0 1 = 5 then ([], useRuns h.segs (noteWalks h s)) else readRuns bus h.segs (noteWalks h s)

theorem gather_engine (s : State) (bus : Bus) (e : List Byte) (h : Held) : (gather s bus e h).2.engine = s.engine := by
  unfold gather
  split <;> simp

theorem gather_cells (s : State) (bus : Bus) (e : List Byte) (h : Held) : (gather s bus e h).2.mem.cells = s.mem.cells := by
  unfold gather
  split
  · exact (useRuns_cells ..).trans (noteWalks_cells ..)
  · exact (readRuns_cells ..).trans (noteWalks_cells ..)

/-- A send entry that may go now, by the checks of R271, R279 and R286. -/
structure MaySend (s : State) (p : Qp) (e : List Byte) : Prop where
  /-- The queue pair sends. -/
  rts : p.state = .rts
  /-- No RNR timer runs. -/
  calm : p.rnrAt = none
  /-- Its window has room. -/
  few : p.sent.length < 256
  /-- The entry is in order. -/
  formed : entryBad e = none
  /-- A handle names a bin of the granary that the queue pair reaches. -/
  granary : p.mode = 1 → 3 ≤ num e 0 1 →
    handleGranary (num e 32 8) = p.member ∨ s.grn.failover.get (handleGranary (num e 32 8)) = some p.member
  /-- An offset lies in a bin. -/
  within : p.mode = 1 → 3 ≤ num e 0 1 → num e 40 4 < 2 ^ 30
  /-- The member is not in quarantine. -/
  trusted : quarantined s p.member = false
  /-- A READ has a place. -/
  reads : num e 0 1 = 5 → p.reads < p.maxRd
  /-- A fence has no READ before it. -/
  fence : bit (num e 1 1) 1 = true → p.reads = 0

theorem wrRow_sends {s : State} {q rung : Nat} {bus : Bus} {p : Qp} {e : List Byte} {r : List (Nat × List Byte)} {h : Held}
    (held : qpOf s q = some p) (posted : p.posted = (rung, e) :: r) (may : MaySend s p e) (buffer : bufferOf s p e = .ok h)
    (clean : p.mode = 0 ∨ num e 0 1 < 3 → firstPoisoned (gather s bus e h).1 = none) {mine : Nat → Bool}
    (takes : mine (num e 0 1) = true) :
    wrRow mine q bus s = .next (sendRequest q p (requestOf p rung e h (gather s bus e h).1) s.core.t (gather s bus e h).2) := by
  obtain ⟨rts, calm, few, formed, granary, within, trusted, reads, fence⟩ := may
  have clock : (gather s bus e h).2.core = s.core := engine_core (gather_engine ..)
  have unpoisoned : (if p.mode = 0 ∨ num e 0 1 < 3 then firstPoisoned (gather s bus e h).1 else none) = none := by
    split
    · exact clean ‹_›
    · rfl
  unfold wrRow
  simp only [held, posted]
  rw [if_neg (by simp [takes, rts, calm, few])]
  simp only [formed]
  rw [if_neg (fun ⟨mode, op, home, other⟩ => (granary mode op).elim home other),
    if_neg (fun ⟨mode, op, far⟩ => absurd (within mode op) (Nat.not_lt.2 far)), if_neg (by simp [trusted]),
    if_neg (by
      rintro (⟨op, full⟩ | ⟨fenced, outstanding⟩)
      · exact absurd (reads op) (Nat.not_lt.2 full)
      · exact absurd (fence fenced) (Nat.ne_of_gt outstanding))]
  have gathered : (if num e 0 1 = 5 then ([], useRuns h.segs (noteWalks h s)) else readRuns bus h.segs (noteWalks h s)) =
      gather s bus e h := rfl
  rw [bufferOf] at buffer
  simp only [buffer, gathered, unpoisoned, clock]
  exact congrArg _ (sendPackets_eq ..)

/-! ### Receive entries (R271, R272) -/

/-- A shared receive queue changed. -/
def modSrq (n : Nat) (f : Srq → Srq) (s : State) : State := s.modRdm fun d => { d with srqs := d.srqs.modify n f }

theorem modSrq_held {s : State} {n : Nat} {x : Srq} (listed : s.rdm.srqs.get n = some x) (f : Srq → Srq) :
    (modSrq n f s).rdm.srqs.get n = some (f x) := (Tbl.get_modify ..).trans ((if_pos rfl).trans (congrArg _ listed))

theorem translate_modRdm (s : State) (f : Rdm → Rdm) (u : Use) (asid va n : Nat) :
    translate (s.modRdm f) u asid va n = translate s u asid va n := rfl

theorem translate_modQp (s : State) (q : Nat) (f : Qp → Qp) (u : Use) (asid va n : Nat) :
    translate (modQp q f s) u asid va n = translate s u asid va n := rfl

/-- A receive entry fetched, its buffer translated. -/
def fetchedRecv (e : List Byte) (h : Held) (k : Nat) : RecvWr := ⟨entryWrId e, num e 24 4, h, k⟩

theorem wrRecv_qp {s : State} {n : Nat} {p : Qp} {e : List Byte} {r : List (List Byte)} {h : Held} (held : qpOf s n = some p)
    (posted : p.rposted = e :: r) (formed : recvBad e = none)
    (buffer : translate s { write := true } p.asid (num e 16 8) (num e 24 4) = .ok h) :
    exec (.wrRecv false n) s = .next (noteWalks h
      (modQp n (fun x => { x with recvs := x.recvs ++ [fetchedRecv e h p.rcons] })
        (modQp n (fun x => { x with rposted := x.rposted.drop 1, rcons := x.rcons + 1 }) s))) := by
  show Host.Outcome.next (fetchRecv false n s) = _
  unfold fetchRecv
  simp only [Bool.false_eq_true, if_false, held, Option.bind_some, posted, List.head?_cons, Option.map_some, formed, translate_modQp,
    buffer]
  rfl

theorem wrRecv_srq {s : State} {n : Nat} {x : Srq} {e : List Byte} {r : List (List Byte)} {h : Held}
    (listed : s.rdm.srqs.get n = some x) (posted : x.posted = e :: r) (formed : recvBad e = none)
    (buffer : translate s { write := true } x.asid (num e 16 8) (num e 24 4) = .ok h) :
    exec (.wrRecv true n) s = .next (noteWalks h
      (modSrq n (fun y => { y with recvs := y.recvs ++ [fetchedRecv e h x.cons] })
        (modSrq n (fun y => { y with posted := y.posted.drop 1, cons := y.cons + 1 }) s))) := by
  show Host.Outcome.next (fetchRecv true n s) = _
  unfold fetchRecv
  simp only [if_true, listed, Option.bind_some, posted, List.head?_cons, Option.map_some, formed, translate_modRdm, buffer]
  rfl

/-- Settles O42: each doorbell's own lemma says what it runs to, and a send entry, whatever its OP, goes by `wrRow_sends`; what an
entry reads of memory leaves the RDMA engine and every byte alone. -/
theorem doorbellsAndRequests : Obligations.DoorbellsAndRequests := by
  refine ⟨?sq, ?refused, ?rq, ?srq, ?cq, ?request, ?recv, ?srqRecv⟩
  case sq =>
    intro s fn val q index n bus p d run fetched parts held own step notReset notInit live
    have same : d.2.rdm = s.rdm := by rw [fetched]; exact engine_rdm (ringEntries_engine ..)
    refine ⟨_, sqDoorbell_runs run fetched parts held own step notReset notInit live, ?_, fun k other => ?_, modQp_eq same ..⟩
    · exact modQp_held ((qpOf_of_rdm same q).trans held) _
    · exact (modQp_qp_other other _).trans (qpOf_of_rdm same k)
  case refused =>
    intro s fn val bus run parts
    exact sqDoorbell_refused run parts
  case rq =>
    intro s fn val q index n bus p ring d run fetched parts held own hasRing step notReset live
    have same : d.2.rdm = s.rdm := by rw [fetched]; exact engine_rdm (ringEntries_engine ..)
    exact ⟨_, rqDoorbell_runs run fetched parts held own hasRing step notReset live,
      modQp_held ((qpOf_of_rdm same q).trans held) _, modQp_eq same ..⟩
  case srq =>
    intro s fn val n index m bus x d run fetched parts listed own step
    have same : d.2.rdm = s.rdm := by rw [fetched]; exact engine_rdm (ringEntries_engine ..)
    rw [srqDoorbell_runs run fetched parts listed own step, ← same]
    rfl
  case cq =>
    intro s fn val n index step q run parts listed own ofStep within
    refine ⟨_, cqDoorbell_runs run parts listed own ofStep within, ?_, rfl⟩
    exact (Tbl.get_modify ..).trans ((if_pos rfl).trans (congrArg _ listed))
  case request =>
    intro s q op rung len va bus p e r h d held calm posted ofOp least most rts few formed ofLen ofVa granary within trusted reads fence
      translated ofD clean
    subst ofLen ofVa
    have buffer : bufferOf s p e = .ok h := by
      unfold bufferOf
      rw [ofOp] at translated
      split at translated
      · rw [translated, if_pos ‹_›]
      · rw [if_neg ‹_›, translated]
    have gathered : d = gather s bus e h := by rw [ofD, ofOp]; rfl
    rw [ofOp] at granary within reads clean
    rw [gathered] at clean ⊢
    have same : (gather s bus e h).2.rdm = s.rdm := engine_rdm (gather_engine ..)
    have sent {mine : Nat → Bool} (takes : mine op = true) := wrRow_sends (q := q) held posted
      ⟨rts, calm, few, formed, granary, within, trusted, reads, fence⟩ buffer clean (ofOp ▸ takes)
    refine ⟨sendRequest q p (requestOf p rung e h (gather s bus e h).1) s.core.t (gather s bus e h).2,
      requestOf p rung e h (gather s bus e h).1, ?_, ofOp.symm, rfl, rfl, rfl, rfl, rfl, rfl, rfl, rfl, ?_, rfl, gather_cells ..⟩
    · obtain rfl | rfl | rfl | rfl | rfl : op = 1 ∨ op = 2 ∨ op = 3 ∨ op = 4 ∨ op = 5 := by omega
      · exact sent (mine := fun o => decide (o = 1 ∨ o = 0 ∨ 5 < o)) rfl
      · exact sent (mine := fun o => decide (o = 2)) rfl
      · exact sent (mine := fun o => decide (o = 3)) rfl
      · exact sent (mine := fun o => decide (o = 4)) rfl
      · exact sent (mine := fun o => decide (o = 5)) rfl
    · refine (modQp_held ((qpOf_of_rdm same q).trans held) _).trans ?_
      simp only [Qp.sending, posted]
      rfl
  case recv =>
    intro s n p e r h held posted formed buffer
    refine ⟨_, wrRecv_qp held posted formed buffer, ?_, noteWalks_cells ..⟩
    rw [qpOf_of_rdm (engine_rdm (noteWalks_engine ..)), modQp_held (modQp_held held _), posted]
    rfl
  case srqRecv =>
    intro s n x e r h listed posted formed buffer
    refine ⟨_, wrRecv_srq listed posted formed buffer, ?_, noteWalks_cells ..⟩
    rw [engine_rdm (noteWalks_engine ..), modSrq_held (modSrq_held listed _), posted]
    rfl

end Sys2Proof.Machine
end

section
/-! PROOFS. A BIN_MAP whose submitter and tag also name a GET_LOG that waits for an event (02 R66, 10 R309, 11 R327, 17 R488). -/

namespace Sys2Proof.Machine

/-- BIN_MAP of handle 0 by the PF with a LEASE of 1 s. -/
def mapCommand : Cmd := { id := ⟨.pcie 0, 1⟩, op := .binMap, pkt := [0x10063, 0, 0, 1] }

/-- A GET_LOG of the PF's event ring (page 0x02, 64 bytes, WAIT), of the same tag, that waits for an event. -/
def waitingRead : Cmd := { id := ⟨.pcie 0, 1⟩, op := .getLog, pkt := [0x10002, 0, 2, 0, 0, 64, 2, 0], phase := .waitRead none }

/-- Bin 0 of this granary, with a mirror in step at member 1. -/
def mirroredBin : Bin := { state := .allocated, mstate := .inSync, partner := some 1 }

/-- A carve that member 0 may map bins of. -/
def openCarve : Carve := { quota := 1, maxLease := 60, members := 1 }

/-- A granary that holds both commands and that bin, whose tally channels disagree by a map. -/
def doublyTagged : State := { State.reset with
  core := { State.reset.core with role := .granary }
  hif := { cmds := [mapCommand, waitingRead] }
  grn := { dir := [(0, mirroredBin)], carves := [(0, openCarve)], ready := true, ownHome := true }
  tly := { recs := [(0, { a := { mapsIn := 1 } })] } }

/-- The map that enters finds the channels apart, so the disturbance raises an event, which completes the waiting read; what leaves
the device with it is every command of that tag. -/
theorem doublyTagged_forgets : ∃ t, exec (.binMap mapCommand.id) doublyTagged = .next t ∧ findCmd t mapCommand.id = none :=
  ⟨_, rfl, rfl⟩

/-- Refutes O44: of the clause on BIN_MAP of a mirrored bin. The clause does not ask that one command alone carries the tag (R66): in
`doublyTagged`, which no arrival leaves, the disturbance that the map meets (R327) completes the waiting read of the same tag, both
commands leave the device, and none waits for the standby where the clause wants the BIN_MAP to. -/
theorem not_carvesAndMaps : ¬ Obligations.CarvesAndMaps := by
  unfold Obligations.CarvesAndMaps
  intro h
  obtain ⟨-, -, -, -, -, -, -, mirroredWaits, -⟩ := h
  obtain ⟨t, runs, waits, -⟩ := mirroredWaits doublyTagged mapCommand.id mapCommand 0 1 mirroredBin openCarve rfl rfl rfl rfl rfl rfl
    (by decide) (by decide) rfl (by decide) rfl rfl rfl rfl (by decide) rfl
  obtain ⟨u, runs', gone⟩ := doublyTagged_forgets
  rw [runs] at runs'
  cases runs'
  rw [gone] at waits
  cases waits

end Sys2Proof.Machine
end

section
/-! PROOFS. A READ whose line takes a poisoned place of the hot cache (06 R191, 10 R294, R305, 11 R325). -/

namespace Sys2Proof.Machine

/-! ### Errors of the memories and the places of the hot cache (R191, R294, R295) -/

/-- A place of the hot cache lies below both copies of the directory. -/
theorem hotPlace_below_dirAt {s : State} (granary : isGranary s = true) (caches : 0 < s.mem.sizes.hot)
    (fits : mib (1552 + s.mem.sizes.hot) ≤ arenaBase s) {copy : Nat} (two : copy < 2) (l i : Nat) :
    hotPlace s l + 4096 ≤ dirAt s copy i := by
  have lines : hotLines s = 256 * s.mem.sizes.hot := by
    unfold hotLines mib
    omega
  have place : Config.hotAt l % max 1 (hotLines s) < 256 * s.mem.sizes.hot := by
    rw [lines, max_eq_right (by omega)]
    exact Nat.mod_lt _ (by omega)
  unfold hotPlace hbmLimit dirAt
  rw [if_pos granary]
  unfold mib at fits ⊢
  omega

/-- Poison in a place of the hot cache is none of the directory's. -/
theorem dirBad_of_place {s : State} {l : Nat} (bad : s.mem.bad = [(hotPlace s l / 64, true)]) {copy i : Nat}
    (apart : hotPlace s l + 4096 ≤ dirAt s copy i) : dirBad s copy i = false := by
  have below : 64 * (hotPlace s l / 64) + 64 ≤ dirAt s copy i := by omega
  unfold dirBad badCell
  rw [bad]
  simp [Nat.not_lt.2 below]

/-- A place of the hot cache follows from the sizes of the regions and the role (R188). -/
theorem hotPlace_of_sizes {s t : State} (sizes : t.mem.sizes = s.mem.sizes) (role : t.core.role = s.core.role) (l : Nat) :
    hotPlace t l = hotPlace s l := by
  have mill : isMill t = isMill s := congrArg (fun r => decide (r = Role.mill)) role
  have granary : isGranary t = isGranary s := congrArg (fun r => decide (r = Role.granary)) role
  simp only [hotPlace, hotLines, hbmLimit, arenaBase, imgBase, saveBase, gateBase, ptsBase, mill, granary, sizes]

/-- 4 KiB written whole heal their first line (R191). -/
theorem healLines_first {s : State} {a : Nat} {uncorrectable : Bool} (bad : s.mem.bad = [(a / 64, uncorrectable)]) :
    (healLines a 4096 s).mem.bad = [] := by
  have within : ¬((a + 4096) / 64 ≤ a / 64) := by omega
  show s.mem.bad.filter _ = []
  rw [bad]
  simp [within]

theorem healLines_mem {s t : State} (same : t.mem = s.mem) (a n : Nat) : (healLines a n t).mem = (healLines a n s).mem := by
  simp only [healLines, State.modMem_mem, same]

/-- A line that misses takes its place, which is written whole (R294). -/
theorem hotLine_missed {s : State} {l : Nat} (missed : s.grn.hot.contains l = false) :
    (hotLine l s).mem = (healLines (hotPlace s l) 4096 s).mem := by
  unfold hotLine
  simp only [missed, Bool.false_eq_true, if_false]
  exact healLines_mem (State.modGrn_mem ..) ..

theorem hotRead_line {a n : Nat} (one : (a + n + 4095) / 4096 - a / 4096 = 1) (s : State) : hotRead a n s = hotLine (a / 4096) s := by
  unfold hotRead
  rw [one]
  rfl

/-- A directory entry without an error is read and nothing changes (R295). -/
theorem readDirectory_clean {s : State} {i : Nat} (weak : s.mem.weak = []) (copyA : dirBad s 0 i = false) (copyB : dirBad s 1 i = false) :
    readDirectory false false i s = s := by
  have met (a n : Nat) : meetCells a n s = s := by
    unfold meetCells
    rw [weak]
    rfl
  unfold readDirectory
  simp [met, copyA, copyB]

/-! ### A READ in handle mode admitted (R305, R325) -/

/-- The one part of a request in handle mode. -/
def wholePart (r : GReq) : Part := { handle := r.va, off := r.key, len := reqBytes r, at_ := 0 }

section
variable (s : State)

theorem disturb_mem (b cause : Nat) : (disturb b cause s).mem = s.mem := by
  unfold disturb
  extract_lets r told disturbed noted
  have kept : told.mem = s.mem := (logError_told ..).mem
  split
  · exact kept
  · exact (raisePf_told ..).mem.trans kept

theorem updTally_mem (b : Nat) (f : Counts → Counts) : (updTally b f s).mem = s.mem := by
  show (compareRec b (modTally b (TRec.both f) s)).mem = s.mem
  unfold compareRec
  dsimp only
  split
  · rfl
  · exact disturb_mem ..

theorem admitOp_mem (k : Token) : (admitOp k s).2.mem = s.mem := by
  show (countIn k.bin s).mem = s.mem
  unfold countIn
  split
  · exact disturb_mem ..
  · exact updTally_mem ..

end

/-- A READ admitted on a copy that serves meets memory by way of the hot cache alone. -/
theorem admitPart_read_mem {s : State} {r : GReq} {i : Nat} (reads : r.write = false) (serves : (binEntry s i).role ≠ .proxy)
    (member : Nat) (x : Part) : (admitPart r member i x s).mem = (hotRead ((binEntry s i).base + x.off) x.len s).mem := by
  unfold admitPart
  simp only [reads, serves, Bool.false_eq_true, if_false]
  exact admitOp_mem ..

theorem judgeRequest_admits {s : State} {r : GReq} {p : Qp} {i : Nat} (held : qpOf s r.qpn = some p) (inOrder : r.psn = p.rqPsn)
    (mode : p.mode = 1) (reads : r.write = false) (entry : readEntry r.dirA r.dirB r.va s = s)
    (verdict : judgePart s r p.member (wholePart r) = .ok i) (token : tokensFor s 1 = true) :
    judgeRequest true r s = admitPart r p.member i (wholePart r) (noteServed r.qpn r.psn (packetsOf (reqBytes r)) (foldAddr p.mode r.va r.key)
      (modQp r.qpn (fun q => { q with rqPsn := psnAdd r.psn (packetsOf (reqBytes r)) }) s)) := by
  have parts : partsOf s p r = some [wholePart r] := if_pos mode
  have read : [wholePart r].foldl (fun s x => readEntry r.dirA r.dirB x.handle s) s = s := entry
  unfold judgeRequest
  simp only [held]
  rw [if_neg (not_not_intro inOrder)]
  simp only [parts, read, List.map_cons, List.map_nil, verdict, List.length_singleton, token, reads]
  rfl

/-! ### The state -/

/-- A queue pair of function 0 in handle mode, with member 1 at its other end. -/
def readerQp : Qp :=
  { fn := 0, mode := 1, port := 0, asid := 0, sendCq := 0, recvCq := 0, srq := none, sk := 4, rk := 4
    sring := { asid := 0, va := 0, len := 0, segs := [] }, rring := none, state := .rtr, member := 1 }

/-- The map that member 1 reads bin 0 by. -/
def readerMap : BinMap := { member := 1, write := false, expiry := 1 }

/-- A granary in RUN with a hot cache of 1 MiB, whose bin 0 that member maps. -/
def readable : State := { State.reset with
  core := { State.reset.core with role := .granary }
  pwr := { State.reset.pwr with state := .run }
  prt := { ports := [(0, { mode := .ethernet, state := .up })] }
  mem := { sizes := { hot := 1 } }
  rdm := { qps := [(0, readerQp)] }
  grn := { dir := [(0, { state := .allocated, size := 21, maps := [readerMap] })], ready := true, ownHome := true } }

/-- The first line of HBM in the place that pool line 0 is cached in. -/
def placeLine : Nat := hotPlace readable 0 / 64

/-- The same granary with that line poisoned, and nothing cached yet. -/
def poisonedPlace : State := { readable with mem := { readable.mem with bad := [(placeLine, true)] } }

/-- A READ of the first 64 bytes of bin 0. -/
def firstRead : GReq :=
  { port := 0, qpn := 0, psn := 0, write := false, va := 0, key := 0, len := 64, stall := false, poison := false, check := true
    data := [], dirA := false, dirB := false }

theorem poisonedPlace_bad {s : State} (mem : s.mem = poisonedPlace.mem) (role : s.core.role = .granary) :
    s.mem.bad = [(hotPlace s 0 / 64, true)] := by
  rw [hotPlace_of_sizes (s := readable) ((congrArg Mem.sizes mem).trans rfl) role, mem]
  rfl

theorem poisonedPlace_dir {copy : Nat} (two : copy < 2) : dirBad (quietAgain poisonedPlace) copy 0 = false :=
  dirBad_of_place (poisonedPlace_bad rfl rfl) (hotPlace_below_dirAt rfl (by decide) (by decide) two 0 0)

theorem poisonedPlace_entry : readEntry false false 0 (quietAgain poisonedPlace) = quietAgain poisonedPlace :=
  readDirectory_clean rfl (poisonedPlace_dir (by decide)) (poisonedPlace_dir (by decide))

/-- The READ is admitted, and its miss in the hot cache writes the place of its line whole. -/
theorem poisonedPlace_heals : ∃ t, exec (.inboundGranaryRequest firstRead) poisonedPlace = .next t ∧ t.mem.bad = [] := by
  refine ⟨judgeRequest true firstRead (quietAgain poisonedPlace), rfl, ?_⟩
  rw [judgeRequest_admits (p := readerQp) (i := 0) rfl rfl rfl rfl poisonedPlace_entry rfl rfl, admitPart_read_mem rfl (by decide)]
  rw [hotRead_line rfl, hotLine_missed rfl]
  exact healLines_first (poisonedPlace_bad rfl rfl)

/-- Refutes O45: of the clause on a READ at the entry head. The clause wants memory left as it is, but a line that misses the hot cache
takes a place of it, which is written whole and so healed (R191, R294): in `poisonedPlace` the poison of the place is gone once the
READ is admitted. -/
theorem not_mirrorsAndHomes : ¬ Obligations.MirrorsAndHomes := by
  unfold Obligations.MirrorsAndHomes
  intro h
  obtain ⟨-, -, leavesMemory, -⟩ := h
  obtain ⟨t, n, runs, -, -, same⟩ := leavesMemory poisonedPlace firstRead readerQp 0 readerMap rfl rfl rfl rfl rfl rfl rfl rfl rfl
    (by simp [poisonedPlace, readable, State.reset]) rfl rfl rfl rfl rfl rfl poisonedPlace_entry rfl rfl (by decide) rfl
  obtain ⟨u, runs', healed⟩ := poisonedPlace_heals
  rw [runs] at runs'
  cases runs'
  have poisoned : t.mem.bad = [(placeLine, true)] := congrArg Mem.bad same
  rw [healed] at poisoned
  cases poisoned

end Sys2Proof.Machine
end
section
/-! PROOFS. What a row answers, by the guard, the command or the mail it is run on, and checks whose answers are harmless (02 R48, 17
R485, log entry 2). -/

namespace Sys2Proof.Machine

/-! ### A command that answers (log entry 2) -/

/-- The outcome is a next state whose queue of waiting commands is as before, and whose brake path is safe if it was. -/
def Answers (s : State) (o : Out) : Prop := ∃ t, o = .next t ∧ Calm s t

theorem Answers.next {s t : State} (h : Calm s t) : Answers s (.next t) := ⟨t, rfl, h⟩

theorem ite_answers {c : Prop} [Decidable c] {s : State} {a b : Out} (ha : Answers s a) (hb : Answers s b) :
    Answers s (if c then a else b) := by
  split <;> assumption

/-- A row whose outcome is a next state answers, once it is known what that state keeps. -/
theorem answers_of_calmOut {s : State} {o : Out} (h : ∃ t, o = .next t) (calm : CalmOut s o) : Answers s o := by
  obtain ⟨t, rfl⟩ := h
  exact .next (calm t rfl)

theorem onEvent_answers {p : Bool} {s : State} {f : State → State} (h : p = true → Calm s (f s)) : Answers s (onEvent p s f) := by
  unfold onEvent
  split
  · rename_i hp; exact .next (h hp)
  · exact .next (.refl s)

theorem onCmd_answers {op : Opc} {id : CmdId} {s : State} {f : Cmd → State → State} (hf : ∀ c x, Calm x (f c x)) :
    Answers s (onCmd op id s f) := by
  unfold onCmd
  split
  · exact .next (hf _ s)
  · exact .next (.refl s)

theorem onMw_answers {p : Bool} {s : State} {f : State → State} (hf : ∀ x, Calm x (f x)) : Answers s (onMw p s f) :=
  onEvent_answers fun _ => (Calm.still (mwAct_still s)).trans (hf _)

theorem onPost_answers {p : Bool} {s : State} {post : State → State} (h : ∀ x, Calm x (post x)) : Answers s (onPost p post s) :=
  onMw_answers h

theorem onTray_answers {n : Nat} {p : Bool} {s : State} {f : State → State} (hf : ∀ x, Calm x (f x)) : Answers s (onTray n p s f) :=
  onMw_answers hf

theorem onAo_answers {p : Bool} {s : State} {f : State → State} (hf : ∀ x, Calm x (f x)) : Answers s (onAo p s f) :=
  onEvent_answers fun _ => hf s

theorem onCtlMail_answers {f : Msg → Option (State → State)} {s : State} (hf : ∀ m k, f m = some k → ∀ x, Calm x (k x)) :
    Answers s (onCtlMail f s) := by
  refine answers_of_calmOut ?_ (onCtlMail_calm f s hf)
  unfold onCtlMail onEvent
  split
  · split <;> exact ⟨_, rfl⟩
  · exact ⟨s, rfl⟩

theorem onDatMail_answers {f : Msg → Option (State → State)} {s : State} (hf : ∀ m k, f m = some k → ∀ x, Calm x (k x)) :
    Answers s (onDatMail f s) := by
  refine answers_of_calmOut ?_ (onDatMail_calm f s hf)
  unfold onDatMail onEvent
  split
  · split <;> exact ⟨_, rfl⟩
  · exact ⟨s, rfl⟩

theorem onCmd_next (op : Opc) (id : CmdId) (s : State) (f : Cmd → State → State) : ∃ t, onCmd op id s f = .next t := by
  unfold onCmd
  split <;> exact ⟨_, rfl⟩

theorem mailbox_next (cls : Nat) (id : CmdId) (s : State) (k : Cmd → State → State) : ∃ t, mailbox cls id s k = .next t :=
  onCmd_next ..

theorem fwUpdate_next (op : Nat) (golden : Option Bool) (id : CmdId) (s : State) (k : Cmd → State → State) :
    ∃ t, fwUpdate op golden id s k = .next t := onCmd_next ..

theorem powerState_next (target : Target) (id : CmdId) (s : State) (k : Cmd → State → State) :
    ∃ t, powerState target id s k = .next t := onCmd_next ..

theorem mailbox_answers {cls : Nat} {id : CmdId} {s : State} {k : Cmd → State → State} (hk : ∀ c x, Calm x (k c x)) :
    Answers s (mailbox cls id s k) := answers_of_calmOut (onCmd_next ..) (mailbox_calm cls id s k hk)

theorem trayMail_answers {cls : Nat} {id : CmdId} {s : State} {k : Cmd → Nat → State → State} (hk : ∀ c n x, Calm x (k c n x)) :
    Answers s (trayMail cls id s k) := answers_of_calmOut (mailbox_next ..) (trayMail_calm cls id s k hk)

theorem slotSet_answers {enable : Bool} {id : CmdId} {s : State} {k : Cmd → Nat → State → State} (hk : ∀ c n x, Calm x (k c n x)) :
    Answers s (slotSet enable id s k) := answers_of_calmOut (onCmd_next ..) (slotSet_calm enable id s k hk)

theorem fwUpdate_answers {op : Nat} {golden : Option Bool} {id : CmdId} {s : State} {k : Cmd → State → State}
    (hk : ∀ c x, Calm x (k c x)) : Answers s (fwUpdate op golden id s k) :=
  answers_of_calmOut (onCmd_next ..) (fwUpdate_calm op golden id s k hk)

theorem fwCommit_answers {golden : Bool} {id : CmdId} {s : State} {k : Cmd → FwImage → State → State}
    (hk : ∀ c i x, Calm x (k c i x)) : Answers s (fwCommit golden id s k) :=
  answers_of_calmOut (fwUpdate_next ..) (fwCommit_calm golden id s k hk)

theorem powerVote_answers {action : Nat} {id : CmdId} {s : State} {k : Nat → Cmd → State → State}
    (hk : ∀ d c x, Calm x (k d c x)) : Answers s (powerVote action id s k) :=
  answers_of_calmOut (onCmd_next ..) (powerVote_calm action id s k hk)

theorem powerState_answers {target : Target} {id : CmdId} {s : State} {k : Cmd → State → State} (hk : ∀ c x, Calm x (k c x)) :
    Answers s (powerState target id s k) := answers_of_calmOut (onCmd_next ..) (powerState_calm target id s k hk)

theorem powerEntry_answers (target : Target) (id : CmdId) (s : State) : Answers s (powerEntry target id s) :=
  answers_of_calmOut (powerState_next ..) (powerEntry_calm target id s)

theorem sleepVote_answers {action : Nat} {id : CmdId} {s : State} {f : Nat → Nat → State → State}
    (hf : ∀ h g x, Calm x (f h g x)) : Answers s (sleepVote action id s f) :=
  answers_of_calmOut (onCmd_next ..) (sleepVote_calm action id s f hf)

theorem portMode_answers (retrain : Bool) (id : CmdId) (s : State) : Answers s (portMode retrain id s) :=
  answers_of_calmOut (onCmd_next ..) (portMode_calm retrain id s)

theorem grnCmd_answers {op : Opc} {id : CmdId} {mine : Cmd → Bool} {s : State} {f : Cmd → State → State}
    (hf : ∀ c x, Calm x (f c x)) : Answers s (grnCmd op id mine s f) := by
  refine answers_of_calmOut ?_ (grnCmd_calm op id mine s f hf)
  unfold grnCmd
  split
  · exact ⟨s, rfl⟩
  · split <;> exact ⟨_, rfl⟩

theorem qpModify_answers {target : Nat} {also : Nat → Bool} {id : CmdId} {s : State} {f : Cmd → Qp → State → State}
    (hf : ∀ c q x, Calm x (f c q x)) : Answers s (qpModify target also id s f) := by
  refine answers_of_calmOut ?_ (qpModify_calm target also id s f hf)
  unfold qpModify
  split
  · exact ⟨s, rfl⟩
  · dsimp only
    split
    · exact ⟨s, rfl⟩
    · split <;> exact ⟨_, rfl⟩

theorem runMatmul_answers (item stone op : Nat) (fx : RunnerFx) (s : State) : Answers s (runMatmul item stone op fx s) := by
  refine answers_of_calmOut ?_ (runMatmul_calm item stone op fx s)
  unfold runMatmul
  split
  · exact ⟨s, rfl⟩
  · split
    · dsimp only
      split
      · exact ⟨_, rfl⟩
      · split
        · exact ⟨_, rfl⟩
        · split <;> exact ⟨_, rfl⟩
    · exact ⟨s, rfl⟩

theorem startDma_answers {item stone op : Nat} {s : State} {f : Item → Image → RunSlot → Issue → State → State}
    (hf : ∀ i m r e x, Calm x (f i m r e x)) : Answers s (startDma item stone op s f) := by
  refine answers_of_calmOut ?_ (startDma_calm item stone op s f hf)
  unfold startDma
  split
  · exact ⟨s, rfl⟩
  · split
    · exact ⟨s, rfl⟩
    · split
      · exact ⟨s, rfl⟩
      · split
        · exact ⟨s, rfl⟩
        · split <;> exact ⟨_, rfl⟩

/-! ### Checks (R48) -/

/-- The answer of no check touches the brake path or the queue. -/
def Harmless (l : List (Bool × (State → State))) : Prop := ∀ e ∈ l, ∀ s, (e.2 s).still = s.still

theorem checks_harmless {l : List (Bool × (State → State))} {k : State → State} {s : State} (h : Harmless l) (hk : Calm s (k s)) :
    Calm s (checks l k s) := checks_calm (.refl s) (fun e he => .still (h e he s)) hk

@[simp] theorem harmless_nil : Harmless [] := fun _ h => absurd h List.not_mem_nil

theorem harmless_cons {e : Bool × (State → State)} (h : ∀ s, (e.2 s).still = s.still) (l : List (Bool × (State → State))) :
    Harmless (e :: l) ↔ Harmless l :=
  ⟨fun k d hd => k d (.tail e hd), fun k d hd => by rcases List.mem_cons.mp hd with rfl | hd; exacts [h, k d hd]⟩

@[simp] theorem harmless_append (l m : List (Bool × (State → State))) : Harmless (l ++ m) ↔ Harmless l ∧ Harmless m := by
  simp only [Harmless, List.mem_append, or_imp, forall_and]

section
variable (b : Bool) (c : Cmd) (l : List (Bool × (State → State)))

@[simp] theorem harmless_invalid (off : Nat) : Harmless ((b, invalid c off) :: l) ↔ Harmless l := harmless_cons (invalid_still c off) l
@[simp] theorem harmless_refuse (r k : Nat) : Harmless ((b, refuse c r k) :: l) ↔ Harmless l := harmless_cons (refuse_still c r k) l
@[simp] theorem harmless_complete (st : Status) (r r2 : Nat) : Harmless ((b, complete c st r r2) :: l) ↔ Harmless l :=
  harmless_cons (complete_still c st r r2) l
@[simp] theorem harmless_stallOr (st : Status) (us : Nat) : Harmless ((b, stallOr c st us) :: l) ↔ Harmless l :=
  harmless_cons (stallOr_still c st us) l
@[simp] theorem harmless_bad (off : Nat) : Harmless (bad b off c :: l) ↔ Harmless l := harmless_invalid ..
@[simp] theorem harmless_deny (k : Nat) : Harmless (deny b k c :: l) ↔ Harmless l := harmless_refuse ..
@[simp] theorem harmless_busy (us : Nat) : Harmless (busy b us c :: l) ↔ Harmless l := harmless_stallOr ..
@[simp] theorem harmless_noRes : Harmless (noRes b c :: l) ↔ Harmless l := harmless_complete ..
@[simp] theorem harmless_fields (f : List (Bool × Nat)) : Harmless (fields c f :: l) ↔ Harmless l := harmless_invalid ..
@[simp] theorem harmless_heldCheck (s : State) (asid lo hi : Nat) : Harmless (heldCheck s asid lo hi c :: l) ↔ Harmless l :=
  harmless_deny ..
@[simp] theorem harmless_carveChecks : Harmless (carveChecks c) := (harmless_fields ..).2 harmless_nil
@[simp] theorem harmless_monsBad (s : State) (mask off : Nat) : Harmless (monsBad s c mask off) := by simp [monsBad]
end

end Sys2Proof.Machine
end

section
/-! PROOFS. Every row answers a next state, keeps the queue of waiting commands, and keeps a safe brake path safe (16 R461, R469). -/

namespace Sys2Proof.Machine

/-! ### Resets -/

theorem execColdReset_answers (pop : List PairPop) (s : State) : Answers s (execColdReset pop s) := .next (powerOn_calm ..)

theorem execRoleFillEnd_answers (s : State) : Answers s (execRoleFillEnd s) := by
  refine onEvent_answers fun _ => .still ?_
  extract_lets s1 s2 s3
  exact (State.modGrn_still ..).trans (ite_still rfl rfl)

theorem execWarmReset_answers (s : State) : Answers s (execWarmReset s) := onEvent_answers fun _ => perstLow_calm ..

theorem execPerstNDeassert_answers (s : State) : Answers s (execPerstNDeassert s) := onEvent_answers fun _ => .still rfl

theorem execCtlPlaneReset_answers (by_ : ResetBy) (s : State) : Answers s (execCtlPlaneReset by_ s) := by
  unfold execCtlPlaneReset
  split
  · exact onEvent_answers fun _ => planeReset_calm ..
  · exact onMw_answers fun _ => .still (startCtlReset_still ..)
  · exact onEvent_answers fun _ => .still (ctlFatal_still ..)

theorem execDatPlaneReset_answers (by_ : ResetBy) (s : State) : Answers s (execDatPlaneReset by_ s) := by
  unfold execDatPlaneReset
  split
  · exact onEvent_answers fun _ => planeReset_calm ..
  · exact onMw_answers fun _ => .still (startDatReset_still ..)
  · exact onEvent_answers fun _ => .still (datFatal_still ..)

theorem execMgtPlaneReset_answers (by_ : ResetBy) (s : State) : Answers s (execMgtPlaneReset by_ s) := by
  unfold execMgtPlaneReset
  split
  · exact onEvent_answers fun _ => planeReset_calm ..
  · exact .next (.refl _)
  · exact .next (.refl _)

theorem execCtlResetEnd_answers (s : State) : Answers s (execCtlResetEnd s) := onEvent_answers fun _ => endCtlReset_calm ..

theorem execDatResetEnd_answers (s : State) : Answers s (execDatResetEnd s) := onEvent_answers fun _ => .still (endDatReset_still ..)

theorem execDatNoProgressTimeout_answers (source : Nat) (s : State) : Answers s (execDatNoProgressTimeout source s) :=
  onEvent_answers fun _ => .still (datFatal_still ..)

theorem execStoneFenceRequest_answers (stone : Option Nat) (floor : Bool) (s : State) :
    Answers s (execStoneFenceRequest stone floor s) := by
  unfold execStoneFenceRequest
  split
  · exact onPost_answers fun _ => .still (postDat_still ..)
  · refine onDatMail_answers fun m k h x => ?_
    split at h
    · cases h; exact .still (takeFence_still ..)
    · cases h

/-! ### The Millwright -/

theorem execMwRestart_answers (s : State) : Answers s (execMwRestart s) :=
  onEvent_answers fun _ => .still ((ite_still ((emit_still ..).trans (settleJournal_still ..)) ((settleCleared_still ..).trans
    ((firstBoot_still ..).trans ((settleJournal_still ..).trans ((ite_still ((emit_still ..).trans (raisePf_still ..)) rfl).trans
    (ite_still rfl (raisePf_still ..))))))).trans (bootMw_still ..))

theorem execRecoverySpiRelease_answers (s : State) : Answers s (execRecoverySpiRelease s) := onEvent_answers fun _ => .still rfl

theorem execLockstepMismatch_answers (cls : Nat) (s : State) : Answers s (execLockstepMismatch cls s) :=
  onEvent_answers fun _ => (Calm.still rfl).trans (mgtFatal_calm ..)

theorem execWatchdogExpiry_answers (s : State) : Answers s (execWatchdogExpiry s) :=
  onEvent_answers fun _ => (Calm.still rfl).trans (mgtFatal_calm ..)

theorem execWatchdogKick_answers (val : Nat) (s : State) : Answers s (execWatchdogKick val s) := onMw_answers fun _ => .still rfl

theorem execMwForwardedCommand_answers (s : State) : Answers s (execMwForwardedCommand s) := by
  unfold execMwForwardedCommand
  split
  · split
    · exact .next (.refl _)
    · refine onEvent_answers fun _ => .still ?_
      extract_lets s1
      have acted : s1.still = s.still := ite_still (mwAct_still ..) rfl
      clear_value s1
      exact ite_still ((refuse_still ..).trans ((logRefused_still ..).trans acted)) ((verifyAdmin_still ..).trans (ite_still acted acted))
  · exact .next (.refl _)

theorem execForwardedCompletion_answers (s : State) : Answers s (execForwardedCompletion s) := by
  refine onCtlMail_answers fun m k h x => ?_
  split at h
  · cases h; exact .still (takeCompletion_still ..)
  · cases h

theorem execWhlHeartbeatSend_answers (s : State) : Answers s (execWhlHeartbeatSend s) :=
  onEvent_answers fun _ => .still ((State.modMwr_still ..).trans (tellMw_still ..))

theorem execWhlHeartbeatReceive_answers (s : State) : Answers s (execWhlHeartbeatReceive s) := by
  unfold execWhlHeartbeatReceive
  split
  · exact onMw_answers fun _ => .still ((State.modMwr_still ..).trans (takeCtl_still ..))
  · exact .next (.refl _)

theorem execCtlHeartbeatLost_answers (s : State) : Answers s (execCtlHeartbeatLost s) :=
  onMw_answers fun _ => .still ((ite_still (startCtlReset_still ..) rfl).trans ((raisePf_still ..).trans (State.modMwr_still ..)))

theorem execDomainTimeAdjustment_answers (servo : Option ServoStep) (offset : Int) (synced : Bool) (s : State) :
    Answers s (execDomainTimeAdjustment servo offset synced s) := by
  unfold execDomainTimeAdjustment
  split
  · exact onPost_answers fun _ => .still (postCtl_still ..)
  · refine onCtlMail_answers fun m k h x => ?_
    split at h
    · cases h; exact .still (adjustTime_still ..)
    · cases h

theorem execErrorRecordMessage_answers (s : State) : Answers s (execErrorRecordMessage s) :=
  onMw_answers fun _ => .still (takeDat_still ..)

theorem execPlaneFatalNotice_answers (s : State) : Answers s (execPlaneFatalNotice s) := onMw_answers fun _ => .still (takeDat_still ..)

theorem execSensorRequest_answers (post : Bool) (s : State) : Answers s (execSensorRequest post s) :=
  ite_answers (onEvent_answers (fun _ => .still (tellMwDat_still ..))) (onMw_answers (fun _ => .still (takeDat_still ..)))

theorem execFwStage_answers (id : CmdId) (s : State) : Answers s (execFwStage id s) :=
  fwUpdate_answers fun _ _ => checks_harmless (by simp) (.still ((succeed_still ..).trans ((State.modStore_still ..).trans
    (State.modMwr_still ..))))

theorem execFwCommit_answers (id : CmdId) (s : State) : Answers s (execFwCommit id s) :=
  fwCommit_answers fun _ _ _ => (Calm.still ((complete_still ..).trans ((raisePf_still ..).trans (State.modStore_still ..)))).trans
    (afterCommit_calm ..)

theorem execFwCommitGolden_answers (id : CmdId) (s : State) : Answers s (execFwCommitGolden id s) :=
  fwCommit_answers fun _ _ _ => .still ((accept_still ..).trans ((State.modMwr_still ..).trans (State.modStore_still ..)))

theorem execGoldenCopyEnd_answers (ok : Bool) (s : State) : Answers s (execGoldenCopyEnd ok s) := by
  unfold execGoldenCopyEnd
  split
  · exact .next (.refl _)
  · refine onEvent_answers fun _ => ?_
    extract_lets golden s1 s2
    have ended : s2.still = s.still := (State.modMwr_still ..).trans (State.modStore_still ..)
    clear_value s2
    exact ite_calm ((Calm.still ((completeId_still ..).trans ((raisePf_still ..).trans ended))).trans (afterCommit_calm ..))
      (.still ((failInternal_still ..).trans ended))

theorem execFwAbandon_answers (id : CmdId) (s : State) : Answers s (execFwAbandon id s) :=
  fwUpdate_answers fun _ _ => checks_harmless (by simp) (.still ((succeed_still ..).trans (State.modMwr_still ..)))

theorem execBudgetWrite_answers (id : CmdId) (verified : Bool) (s : State) : Answers s (execBudgetWrite id verified s) := by
  refine onCmd_answers fun c s => ?_
  extract_lets n v end_ f
  have ends {st : Status} {k : State → State} (hk : ∀ s, (k s).still = s.still) (s : State) : (end_ st k s).still = s.still :=
    (hk _).trans (logAttempt_still ..)
  have awake : Calm s (if s.mwr.running = true then mwAct s else s) := .still (ite_still (mwAct_still ..) rfl)
  generalize (if s.mwr.running = true then mwAct s else s) = s at awake ⊢
  refine awake.trans (checks_harmless ((harmless_cons (ends (invalid_still c _)) _).2 harmless_nil) ?_)
  split
  · exact .still (ends (refuse_still c _ 0) _)
  · refine ite_calm (.still (ends (complete_still c .busyRetry 0 1000) _)) ?_
    extract_lets s1
    have numbered (s : State) : Calm s (if s.dom.key.isSome = true then s.modDom fun d => { d with seq := num c.input 0 8 } else s) :=
      .still (ite_still rfl rfl)
    refine (numbered _).trans (checks_harmless ?_ (.still ?_))
    · exact (harmless_cons (ends (invalid_still c 12)) _).2 ((harmless_cons (ends (invalid_still c 12)) _).2
        ((harmless_cons (ends (complete_still c .budgetExhausted 0 0)) _).2 harmless_nil))
    · exact ite_still ((ends (succeed_still c) _).trans (State.modStore_still ..))
        ((ends (failInternal_still c.id _) _).trans (State.modStore_still ..))

theorem execBudgetQuery_answers (id : CmdId) (s : State) : Answers s (execBudgetQuery id s) :=
  onCmd_answers fun _ _ => (Calm.still (ite_still (mwAct_still ..) rfl)).trans (checks_harmless (by simp) (.still ((ite_still
    (complete_still ..) (complete_still ..)).trans (ite_still rfl (emitData_still ..)))))

theorem execSensorRead_answers (id : CmdId) (reading : Int) (s : State) : Answers s (execSensorRead id reading s) :=
  mailbox_answers fun _ _ => checks_harmless (by simp) (.still (complete_still ..))

theorem execGrantPolicy_answers (id : CmdId) (s : State) : Answers s (execGrantPolicy id s) :=
  mailbox_answers fun _ _ => .still ((succeed_still ..).trans (State.modMwr_still ..))

/-! ### Power -/

theorem execPowerVotePlace_answers (id : CmdId) (s : State) : Answers s (execPowerVotePlace id s) :=
  powerVote_answers fun _ _ _ => .still ((ite_still (succeed_still ..) ((ite_still (succeed_still ..) ((accept_still ..).trans
    (modPdom_still ..))).trans ((settle_still ..).trans ((tellMw_still ..).trans (modPdom_still ..))))).trans (ite_still (sleepWake_still
    ..) rfl))

theorem execPowerVoteWithdraw_answers (id : CmdId) (s : State) : Answers s (execPowerVoteWithdraw id s) :=
  powerVote_answers fun _ _ _ => .still ((succeed_still ..).trans ((settle_still ..).trans ((tellMw_still ..).trans (modPdom_still ..))))

theorem execPowerQuery_answers (id : CmdId) (s : State) : Answers s (execPowerQuery id s) :=
  onCmd_answers fun _ _ => checks_harmless (by simp) (.still (ite_still (complete_still ..) (complete_still ..)))

theorem execPowerStateRun_answers (id : CmdId) (s : State) : Answers s (execPowerStateRun id s) :=
  powerState_answers fun _ _ => (Calm.still (complete_still ..)).trans (wake_calm ..)

theorem execPowerStateSleep_answers (id : CmdId) (s : State) : Answers s (execPowerStateSleep id s) := powerEntry_answers ..

theorem execPowerStateDeepSleep_answers (id : CmdId) (s : State) : Answers s (execPowerStateDeepSleep id s) := powerEntry_answers ..

theorem execPowerStateOff_answers (id : CmdId) (s : State) : Answers s (execPowerStateOff id s) := powerEntry_answers ..

theorem execPowerEntryFetchStop_answers (s : State) : Answers s (execPowerEntryFetchStop s) := by
  unfold execPowerEntryFetchStop
  split
  · exact .next (.refl _)
  · refine onEvent_answers fun _ => .still ?_
    extract_lets s1 s2
    have entering : s1.still = s.still := enterState_still ..
    exact ite_still ((State.modPwr_still ..).trans entering) ((State.modPwr_still ..).trans ((tellMw_still ..).trans entering))

theorem execPowerNotice_answers (s : State) : Answers s (execPowerNotice s) :=
  onMw_answers fun _ => .still ((State.modMwr_still ..).trans (takeCtl_still ..))

theorem execMwWfi_answers (s : State) : Answers s (execMwWfi s) := by
  refine onEvent_answers fun _ => .still ?_
  extract_lets deep mode s1
  have waits : s1.still = s.still := noteLevels_still _ _ fun _ => State.modMwr_still ..
  exact ite_still ((State.modPwr_still ..).trans waits) waits

theorem execPowerEntryMwTimeout_answers (s : State) : Answers s (execPowerEntryMwTimeout s) :=
  onEvent_answers fun _ => .still (abandonEntry_still ..)

theorem execPowerEntryEnd_answers (s : State) : Answers s (execPowerEntryEnd s) := by
  unfold execPowerEntryEnd
  split
  · exact .next (.refl _)
  · exact onEvent_answers fun _ => by
          extract_lets
          split
          · exact ((Calm.still ((domainsDown_still ..).trans (portsOff_still ..))).trans (noteLevels_calm (hf := fun _ => by
                  split
                  · exact .refl _
                  · exact .still ((enterState_still ..).trans (State.modPwr_still ..))
                  · exact .still ((enterState_still ..).trans ((State.modHif_still ..).trans ((setHoldover_still ..).trans
                      ((State.modPwr_still ..).trans ((flrPf_still ..).trans ((clearInst_still ..).trans (State.modMem_still ..)))))))
                  · exact ((Calm.still (flrPf_still ..)).trans (loseRails_calm ..)).trans (.still rfl)) ..)).trans (wake_calm ..)
          · exact (Calm.still ((domainsDown_still ..).trans (portsOff_still ..))).trans (noteLevels_calm (hf := fun _ => by
                  split
                  · exact .refl _
                  · exact .still ((enterState_still ..).trans (State.modPwr_still ..))
                  · exact .still ((enterState_still ..).trans ((State.modHif_still ..).trans ((setHoldover_still ..).trans
                      ((State.modPwr_still ..).trans ((flrPf_still ..).trans ((clearInst_still ..).trans (State.modMem_still ..)))))))
                  · exact ((Calm.still (flrPf_still ..)).trans (loseRails_calm ..)).trans (.still rfl)) ..)

theorem execIdleEnter_answers (s : State) : Answers s (execIdleEnter s) :=
  onEvent_answers fun _ => .still ((enterState_still ..).trans (State.modPwr_still ..))

theorem execVoteIdleHoldExpiry_answers (d : Nat) (s : State) : Answers s (execVoteIdleHoldExpiry d s) :=
  onEvent_answers fun _ => .still (dropDom_still ..)

theorem execPrewakeHoldExpiry_answers (d : Nat) (s : State) : Answers s (execPrewakeHoldExpiry d s) :=
  onEvent_answers fun _ => .still ((settle_still ..).trans (modPdom_still ..))

theorem execDomainWakeDone_answers (d : Nat) (s : State) : Answers s (execDomainWakeDone d s) := by
  unfold execDomainWakeDone
  split
  · exact .next (.refl _)
  · refine onEvent_answers fun _ => .still ?_
    extract_lets p took idle s1 s2 waiting s3 s4 s5
    have woken : s1.still = s.still := modPdom_still ..
    have cleared : s2.still = s.still := ite_still ((clearBlock_still ..).trans ((State.modPwr_still ..).trans woken)) woken
    have counted : s3.still = s.still := ite_still ((State.modPwr_still ..).trans cleared) cleared
    have answered : s4.still = s.still := (foldl_still _ _ _ fun _ _ => completeId_still ..).trans counted
    exact (settle_still ..).trans ((foldl_still _ _ _ fun _ _ => ite_still (beginItem_still ..) rfl).trans answered)

theorem execWakeNEdge_answers (s : State) : Answers s (execWakeNEdge s) := .next (wake_calm ..)

theorem execAoWakeTimerExpiry_answers (s : State) : Answers s (execAoWakeTimerExpiry s) :=
  onEvent_answers fun _ => (Calm.still rfl).trans (wake_calm ..)

theorem execUsbAttach_answers (s : State) : Answers s (execUsbAttach s) :=
  .next (ite_calm ((Calm.still rfl).trans (wake_calm ..)) (.still rfl))

theorem execI3cIbiWake_answers (s : State) : Answers s (execI3cIbiWake s) := .next (ite_calm (wake_calm ..) (.refl _))

theorem execRailPgRise_answers (n : Nat) (steward : Bool) (s : State) : Answers s (execRailPgRise n steward s) :=
  onEvent_answers fun _ => .still rfl

theorem execXtalMwReady_answers (s : State) : Answers s (execXtalMwReady s) := onEvent_answers fun _ => .still rfl

theorem execPllLock_answers (s : State) : Answers s (execPllLock s) :=
  onEvent_answers fun _ => ite_calm (finishCold_calm ..) (finishWake_calm ..)

theorem execPgoodTimeout_answers (s : State) : Answers s (execPgoodTimeout s) := onEvent_answers fun _ => .still (failAttempt_still ..)

theorem execXtalMwTimeout_answers (s : State) : Answers s (execXtalMwTimeout s) := onEvent_answers fun _ => .still (failAttempt_still ..)

theorem execPllLockTimeout_answers (s : State) : Answers s (execPllLockTimeout s) :=
  onEvent_answers fun _ => .still (failAttempt_still ..)

theorem execWakeRetryDelayEnd_answers (s : State) : Answers s (execWakeRetryDelayEnd s) :=
  onEvent_answers fun _ => .still (beginAttempt_still ..)

theorem execRailPgFall_answers (n : Nat) (s : State) : Answers s (execRailPgFall n s) :=
  onEvent_answers fun _ => (Calm.still rfl).trans (ite_calm (.refl _) (ite_calm (noteLevels_calm (hf := fun _ => (loseRails_calm
    ..).trans (.still (wakeFailed_still ..))) ..) (.refl _)))

theorem execAoBrownout_answers (s : State) : Answers s (execAoBrownout s) := onEvent_answers fun _ => coldReset_calm ..

theorem execVddAoInLow_answers (s : State) : Answers s (execVddAoInLow s) := .next ((loseRails_calm ..).trans (.still rfl))

theorem execXtalAoSwitch_answers (s : State) : Answers s (execXtalAoSwitch s) := onEvent_answers fun _ => .still rfl

theorem execHeadroomGrant_answers (s : State) : Answers s (execHeadroomGrant s) :=
  ite_answers (.next (.still ((takeGrant_still ..).trans (popCtl_still ..)))) (onPost_answers (fun _ => .still ((postCtl_still ..).trans
    (State.modPwr_still ..))))

theorem execGrantLapse_answers (s : State) : Answers s (execGrantLapse s) :=
  onEvent_answers fun _ => .still ((setBoost_still ..).trans (State.modPwr_still ..))

theorem execThermalThrottle_answers (s : State) : Answers s (execThermalThrottle s) :=
  onEvent_answers fun _ => .still ((setBoost_still ..).trans (State.modPwr_still ..))

theorem execThermalThrottleClear_answers (s : State) : Answers s (execThermalThrottleClear s) :=
  onEvent_answers fun _ => .still ((ite_still (setBoost_still ..) rfl).trans (State.modPwr_still ..))

theorem execThermalAlert_answers (s : State) : Answers s (execThermalAlert s) := onEvent_answers fun _ => .still rfl

theorem execThermalAlertClear_answers (s : State) : Answers s (execThermalAlertClear s) := .next (.still rfl)

/-! ### Sleep of a granary -/

theorem execSleepVoteObject_answers (id : CmdId) (s : State) : Answers s (execSleepVoteObject id s) :=
  sleepVote_answers fun _ _ _ => .still rfl

theorem execSleepVoteWithdraw_answers (id : CmdId) (s : State) : Answers s (execSleepVoteWithdraw id s) :=
  sleepVote_answers fun _ _ _ => .still ((ite_still (quietAgain_still ..) rfl).trans (State.modDom_still ..))

theorem execSleepVoteWake_answers (id : CmdId) (s : State) : Answers s (execSleepVoteWake id s) :=
  sleepVote_answers fun _ _ _ => .still (ite_still (sleepWake_still ..) (sendMsg_still ..))

theorem execSleepQuietExpiry_answers (s : State) : Answers s (execSleepQuietExpiry s) := by
  unfold execSleepQuietExpiry
  exact onEvent_answers fun _ => .still (ite_still ((agree_still ..).trans (State.modDom_still ..))
    ((sendAll_still ..).trans (setSleep_still ..)))

theorem execSleepProposeReceive_answers (h : MsgHead) (n : Nat) (s : State) : Answers s (execSleepProposeReceive h n s) :=
  ite_answers (.next (.still ((dropMsg_still ..).trans (idleExit_still ..)))) (.next (.still (ite_still ((sendMsg_still ..).trans
    ((setSeen_still ..).trans (idleExit_still ..))) ((setSeen_still ..).trans (idleExit_still ..)))))

theorem execSleepVoteMessage_answers (h : MsgHead) (n value : Nat) (s : State) : Answers s (execSleepVoteMessage h n value s) :=
  ite_answers (.next (.still ((dropMsg_still ..).trans (idleExit_still ..)))) (ite_answers (.next (.still (idleExit_still ..)))
    (ite_answers (.next (.still ((sleepWake_still ..).trans (idleExit_still ..)))) (ite_answers (.next (.still (idleExit_still ..)))
    (ite_answers (.next (.still ((endProposal_still ..).trans (idleExit_still ..)))) (.next (.still (ite_still ((agree_still ..).trans
    ((State.modDom_still ..).trans (idleExit_still ..))) ((State.modDom_still ..).trans (idleExit_still ..)))))))))

theorem execSleepVoteTimeout_answers (s : State) : Answers s (execSleepVoteTimeout s) :=
  onEvent_answers fun _ => .still (endProposal_still ..)

theorem execSleepAgreedReceive_answers (h : MsgHead) (_n commit : Nat) (s : State) : Answers s (execSleepAgreedReceive h _n commit s) :=
  ite_answers (.next (.still ((dropMsg_still ..).trans (idleExit_still ..)))) (.next (.still ((State.modDom_still ..).trans
    ((setSeen_still ..).trans (idleExit_still ..)))))

theorem execSleepAbortReceive_answers (h : MsgHead) (_n : Nat) (s : State) : Answers s (execSleepAbortReceive h _n s) :=
  ite_answers (.next (.still ((dropMsg_still ..).trans (idleExit_still ..)))) (.next (.still ((State.modDom_still ..).trans
    ((setSeen_still ..).trans (idleExit_still ..)))))

theorem execSleepAwakeReceive_answers (h : MsgHead) (s : State) : Answers s (execSleepAwakeReceive h s) :=
  ite_answers (.next (.still ((dropMsg_still ..).trans (idleExit_still ..)))) (.next (.still ((State.modDom_still ..).trans
    ((setSeen_still ..).trans (idleExit_still ..)))))

theorem execSleepCommit_answers (s : State) : Answers s (execSleepCommit s) :=
  onEvent_answers fun _ => .still ((settleVotes_still ..).trans ((forEach_still (h := fun _ _ => modPdom_still ..) ..).trans
    ((postCtl_still ..).trans (setSleep_still ..))))

theorem execSleepEntryEnd_answers (s : State) : Answers s (execSleepEntryEnd s) :=
  onEvent_answers fun _ => .still ((ite_still (sleepExit_still ..) (setSleep_still ..)).trans (forEach_still (h := fun _ _ =>
    dropDom_still ..) ..))

theorem execSleepExitEnd_answers (s : State) : Answers s (execSleepExitEnd s) :=
  onEvent_answers fun _ => .still ((foldl_still (h := fun _ _ => enterRequest_still ..) ..).trans ((State.modGrn_still ..).trans
    ((sendAll_still ..).trans (setSleep_still ..))))

theorem execDomainAgentSleepVote_answers (post : Bool) (s : State) : Answers s (execDomainAgentSleepVote post s) := by
  refine ite_answers (onPost_answers fun _ => .still (postCtl_still ..)) (onCtlMail_answers fun m k h x => ?_)
  split at h
  · cases h; exact .still (agentVote_still ..)
  · cases h

/-! ### Ports -/

theorem execPortMode_answers (id : CmdId) (s : State) : Answers s (execPortMode id s) := portMode_answers ..

theorem execPortRetrain_answers (id : CmdId) (s : State) : Answers s (execPortRetrain id s) := portMode_answers ..

theorem execPortModeRequest_answers (p : Option Nat) (mode : Nat) (retrain : Bool) (s : State) :
    Answers s (execPortModeRequest p mode retrain s) := by
  unfold execPortModeRequest
  split
  · exact onPost_answers fun _ => .still (postDat_still ..)
  · refine onDatMail_answers fun m k h x => ?_
    split at h
    · cases h; exact .still (applyMode_still ..)
    · cases h

theorem execFlitSend_answers (p : Nat) (packets : List FlumeOut) (s : State) : Answers s (execFlitSend p packets s) := by
  unfold execFlitSend
  exact onEvent_answers fun _ => .still (by
    extract_lets
    split
    · exact (judgeRetry_still ..).trans ((ite_still (noteNak_still ..) rfl).trans ((emit_still ..).trans ((modFlm_still ..).trans
        ((modFlm_still ..).trans (foldl_still (h := fun _ _ => queuePacket_still ..) ..)))))
    · split
      · exact (ite_still (noteNak_still ..) rfl).trans ((emit_still ..).trans ((modFlm_still ..).trans ((modFlm_still ..).trans
          (foldl_still (h := fun _ _ => queuePacket_still ..) ..))))
      · exact (ite_still (noteNak_still ..) rfl).trans ((emit_still ..).trans ((modFlm_still ..).trans (foldl_still (h := fun _ _ =>
          queuePacket_still ..) ..))))

theorem execFlitReceive_answers (p : Nat) (lanes : List (List Byte)) (s : State) : Answers s (execFlitReceive p lanes s) := by
  refine onEvent_answers fun _ => .still ?_
  extract_lets +onlyGivenNames good seqs bad s1
  have counted : s1.still = s.still := ite_still (countBad_still ..) rfl
  clear_value s1 seqs
  split
  · exact (linkDown_still ..).trans counted
  · refine ite_still ((linkDown_still ..).trans counted) ?_
    extract_lets c s2
    have controlled : s2.still = s.still := ite_still ((applyCtl_still ..).trans counted) counted
    clear_value s2
    exact ite_still controlled ((judgeRetry_still ..).trans (ite_still ((badFlit_still ..).trans controlled)
      ((goodFlit_still ..).trans controlled)))

theorem execNakResendTimeout_answers (p seq : Nat) (s : State) : Answers s (execNakResendTimeout p seq s) :=
  onEvent_answers fun _ => .still (modFlm_still ..)

theorem execRetryWindowExpiry_answers (p : Nat) (s : State) : Answers s (execRetryWindowExpiry p s) :=
  onEvent_answers fun _ => .still (linkDown_still ..)

theorem execLossOfSignal_answers (p : Nat) (s : State) : Answers s (execLossOfSignal p s) :=
  onEvent_answers fun _ => .still (linkDown_still ..)

theorem execEthLinkFault_answers (p : Nat) (s : State) : Answers s (execEthLinkFault p s) :=
  onEvent_answers fun _ => .still (linkDown_still ..)

theorem execTrainingPrbsPass_answers (p : Nat) (s : State) : Answers s (execTrainingPrbsPass p s) :=
  onEvent_answers fun _ => .still ((emit_still ..).trans (modPort_still ..))

theorem execTrainingTimeout_answers (p : Nat) (s : State) : Answers s (execTrainingTimeout p s) :=
  onEvent_answers fun _ => .still (failTraining_still ..)

theorem execParamExchange_answers (p : Nat) (x : FlumeParams) (s : State) : Answers s (execParamExchange p x s) := by
  unfold execParamExchange
  exact onEvent_answers fun _ => .still (by
    extract_lets
    split
    · exact (failTraining_still ..).trans ((raisePf_still ..).trans (emit_still ..))
    · exact (linkUp_still ..).trans ((modFlm_still ..).trans (emit_still ..)))

theorem execHoldExpiry_answers (p : Nat) (s : State) : Answers s (execHoldExpiry p s) :=
  onEvent_answers fun _ => .still (ite_still ((raisePf_still ..).trans (modPort_still ..)) (modPort_still ..))

theorem execEthLinkUp_answers (p : Nat) (s : State) : Answers s (execEthLinkUp p s) := onEvent_answers fun _ => .still (linkUp_still ..)

theorem execEthFrameReceive_answers (p : Nat) (x : EthFrame) (s : State) : Answers s (execEthFrameReceive p x s) :=
  onEvent_answers fun _ => .still ((ite_still rfl (ite_still (modPort_still ..) (ite_still (pausePrios_still ..) (idleExit_still
    ..)))).trans (modPort_still ..))

theorem execCnpReceive_answers (q : Nat) (s : State) : Answers s (execCnpReceive q s) :=
  .next (.still ((modQp_still ..).trans (idleExit_still ..)))

theorem execCcPeriodExpiry_answers (q : Nat) (s : State) : Answers s (execCcPeriodExpiry q s) := by
  unfold execCcPeriodExpiry
  split
  · exact .next (.refl _)
  · exact onEvent_answers fun _ => .still (modQp_still ..)

theorem execPtpMessage_answers (p rawStamp : Nat) (fromMaster : Bool) (s : State) : Answers s (execPtpMessage p rawStamp fromMaster s) :=
  onEvent_answers fun _ => .still ((ite_still ((judgeTime_still ..).trans (State.modDom_still ..)) rfl).trans ((emit_still ..).trans
    (idleExit_still ..)))

/-! ### Memory and translation -/

theorem execMap_answers (id : CmdId) (s : State) : Answers s (execMap id s) := by
  unfold execMap
  exact onCmd_answers fun _ _ => checks_harmless (by simp) (by
    split
    · exact checks_harmless (by simp) (.still ((succeed_still ..).trans ((dropCached_still ..).trans (State.modMem_still ..))))
    · exact .still (invalid_still ..))

theorem execUnmap_answers (id : CmdId) (s : State) : Answers s (execUnmap id s) :=
  onCmd_answers fun _ _ => ite_calm (.refl _) (checks_harmless (by simp) (.still ((invalidate_still ..).trans (State.modMem_still ..))))

theorem execUnmapDestroy_answers (id : CmdId) (s : State) : Answers s (execUnmapDestroy id s) :=
  onCmd_answers fun _ _ => ite_calm (.refl _) (checks_harmless (by simp) (.still ((invalidate_still ..).trans (State.modMem_still ..))))

theorem execXlateInvalidate_answers (id : CmdId) (s : State) : Answers s (execXlateInvalidate id s) :=
  onCmd_answers fun _ _ => checks_harmless (by simp) (.still (invalidate_still ..))

theorem execInvalidateDrainEnd_answers (id : CmdId) (s : State) : Answers s (execInvalidateDrainEnd id s) := by
  unfold execInvalidateDrainEnd
  split
  · exact .next (.refl _)
  · exact onEvent_answers fun _ => .still (endDrain_still ..)

theorem execCopy_answers (id : CmdId) (s : State) : Answers s (execCopy id s) := by
  unfold execCopy
  exact onCmd_answers fun _ _ => checks_harmless (by simp) (by
    extract_lets
    split
    · exact .still (xlateFault_still ..)
    · exact .still (xlateFault_still ..)
    · exact (Calm.still ((noteWalks_still ..).trans (by
            split
            · exact noteWalks_still ..
            · exact rfl))).trans (checks_harmless (by simp) (.still ((accept_still ..).trans (State.modMem_still ..)))))

theorem execCopyDone_answers (id : CmdId) (bus : Bus) (s : State) : Answers s (execCopyDone id bus s) := by
  unfold execCopyDone
  split
  · exact .next (.refl _)
  · exact ite_answers (.next (.refl _)) (.next (.still (by
          split
          · exact (completeId_still ..).trans ((State.modMem_still ..).trans ((writeSegs_still ..).trans (by
                  split
                  · exact (meetPoison_still ..).trans ((readRuns_still ..).trans (useRuns_still ..))
                  · exact (readRuns_still ..).trans (useRuns_still ..))))
          · exact (completeId_still ..).trans ((State.modMem_still ..).trans ((writeSegs_still ..).trans (by
                  split
                  · exact (meetPoison_still ..).trans ((readRuns_still ..).trans (useRuns_still ..))
                  · exact (readRuns_still ..).trans (useRuns_still ..)))))))

theorem execBar4Write_answers (fn off : Nat) (data : List Byte) (s : State) : Answers s (execBar4Write fn off data s) := by
  unfold execBar4Write
  split
  · exact .next (.still (bar4Fault_still ..))
  · exact .next (.still ((writeSegs_still ..).trans ((useRuns_still ..).trans (noteWalks_still ..))))

theorem execBar4Read_answers (fn off n : Nat) (bus : Bus) (s : State) : Answers s (execBar4Read fn off n bus s) := by
  unfold execBar4Read
  split
  · exact .next (.still ((emit_still ..).trans (bar4Fault_still ..)))
  · exact .next (.still ((emit_still ..).trans ((readRuns_still ..).trans (noteWalks_still ..))))

theorem execHopperReadComplete_answers (race slot off : Nat) (r : BinReply) (s : State) :
    Answers s (execHopperReadComplete race slot off r s) := by
  unfold execHopperReadComplete
  extract_lets key
  split
  · exact .next (.refl _)
  · split
    · exact .next (.refl _)
    · extract_lets out f' s1 s2 s3
      have landed : s1.still = s.still := by
        unfold s1
        split
        · exact writeSegs_still ..
        · rfl
      have posted : s3.still = s.still := (postReads_still ..).trans ((State.modMem_still ..).trans landed)
      clear_value s3
      split
      · exact .next (.still (ite_still ((endFill_still ..).trans posted) posted))
      · exact .next (.still posted)

theorem execDdrPairFault_answers (pair reason : Nat) (s : State) : Answers s (execDdrPairFault pair reason s) :=
  onEvent_answers fun _ => .still (pairDown_still ..)

theorem execDimmBistRequest_answers (pair : Option Nat) (s : State) : Answers s (execDimmBistRequest pair s) := by
  unfold execDimmBistRequest
  split
  · exact onPost_answers fun _ => .still (postDat_still ..)
  · refine onDatMail_answers fun m k h x => ?_
    split at h
    · cases h; exact .still (startBist_still ..)
    · cases h

theorem execDdrBistFillEnd_answers (pair : Nat) (pass : Bool) (s : State) : Answers s (execDdrBistFillEnd pair pass s) :=
  onEvent_answers fun _ => .still ((ite_still ((forEach_still (h := fun _ _ => disturb_still ..) ..).trans ((raisePf_still ..).trans
    (modPair_still ..))) ((raisePf_still ..).trans (modPair_still ..))).trans ((ite_still rfl ((settle_still ..).trans (modPdom_still
    ..))).trans (zeroPair_still ..)))

theorem execPatrolScrub_answers (ch : Nat) (errs : List (Nat × Bool)) (s : State) : Answers s (execPatrolScrub ch errs s) :=
  onEvent_answers fun _ => .still ((foldl_still (h := fun _ _ => scrubFound_still ..) ..).trans ((useDdr_still ..).trans
    (State.modMem_still ..)))

theorem execMemProbe_answers (val : Nat) (s : State) : Answers s (execMemProbe val s) := by
  refine onEvent_answers fun _ => .still ?_
  extract_lets asid va done
  split
  · exact State.modMem_still ..
  · dsimp only
    split
    · exact (State.modMem_still ..).trans ((noteErr_still ..).trans (State.modMem_still ..))
    · exact State.modMem_still ..

/-! ### Queues -/

theorem execSqTailDoorbell_answers (fn idx val : Nat) (s : State) : Answers s (execSqTailDoorbell fn idx val s) := by
  unfold execSqTailDoorbell
  split
  · exact .next (.refl _)
  · split
    · exact .next (.refl _)
    · exact ite_answers (.next (.refl _)) (ite_answers (.next (.still ((modSq_still ..).trans (idleExit_still ..)))) (.next (.still
        ((flagErr_still ..).trans ((modSq_still ..).trans (idleExit_still ..))))))

theorem execCqHeadDoorbell_answers (fn idx val : Nat) (s : State) : Answers s (execCqHeadDoorbell fn idx val s) := by
  unfold execCqHeadDoorbell
  split
  · exact .next (.refl _)
  · split
    · exact .next (.refl _)
    · exact ite_answers (.next (.refl _)) (ite_answers (.next (.still ((foldl_still (h := fun _ _ => cqPut_still ..) ..).trans
        ((modCq_still ..).trans (idleExit_still ..))))) (.next (.still ((flagErr_still ..).trans ((retainWaiting_still ..).trans
        ((modCq_still ..).trans (idleExit_still ..)))))))

theorem execQueueCreate_answers (fn : Nat) (s : State) : Answers s (execQueueCreate fn s) := by
  unfold execQueueCreate
  extract_lets
  split
  · exact .next (.still (refuseQueue_still ..))
  · exact ite_answers (ite_answers (.next (.still rfl)) (.next (.still (refuseQueue_still ..)))) (by
          split
          · exact .next (.still (refuseQueue_still ..))
          · exact ite_answers (.next (.still rfl)) (.next (.still (refuseQueue_still ..))))

theorem execQueueDelete_answers (fn : Nat) (s : State) : Answers s (execQueueDelete fn s) := by
  unfold execQueueDelete
  extract_lets
  split
  · exact .next (.refl _)
  · exact ite_answers (ite_answers (.next (.refl _)) (ite_answers (.next (.still ((State.modHif_still ..).trans (modCq_still ..)))) (.next
      (.still ((State.modHif_still ..).trans (retainWaiting_still ..)))))) (ite_answers (.next (.refl _)) (ite_answers (.next (.still
      (modSq_still ..))) (.next (.still rfl))))

theorem execSqDeleteDone_answers (sq : Nat) (s : State) : Answers s (execSqDeleteDone sq s) := onEvent_answers fun _ => .still rfl

theorem execVfQrangeWrite_answers (fn n val : Nat) (s : State) : Answers s (execVfQrangeWrite fn n val s) :=
  ite_answers (.next (.refl _)) (ite_answers (.next (.still (flagErr_still ..))) (.next (.still rfl)))

theorem execCommandFetch_answers (sq : Nat) (f : Fetched) (attachment : List Byte) (s : State) :
    Answers s (execCommandFetch sq f attachment s) := by
  unfold execCommandFetch
  exact ite_answers (.next (.refl _)) (by
    extract_lets
    split
    · exact .next (.still ((State.modHif_still ..).trans ((modSq_still ..).trans (modCq_still ..))))
    · exact .next (.still ((arrive_still ..).trans (ite_still ((flagErr_still ..).trans ((State.modHif_still ..).trans ((modSq_still
        ..).trans (modCq_still ..)))) ((State.modHif_still ..).trans ((modSq_still ..).trans (modCq_still ..)))))))

theorem execFencedCommandStart_answers (id : CmdId) (s : State) : Answers s (execFencedCommandStart id s) := by
  unfold execFencedCommandStart
  split
  · exact .next (.refl _)
  · exact ite_answers (.next (.still (startCmd_still ..))) (.next (.refl _))

theorem execStallResume_answers (id : CmdId) (s : State) : Answers s (execStallResume id s) := by
  unfold execStallResume
  split
  · exact .next (.refl _)
  · exact ite_answers (.next (.still (updCmd_still ..))) (.next (.refl _))

theorem execStallTimeout_answers (id : CmdId) (s : State) : Answers s (execStallTimeout id s) := by
  unfold execStallTimeout
  split
  · exact .next (.refl _)
  · exact ite_answers (.next (.still (complete_still ..))) (.next (.refl _))

theorem execCqCoalesceTimeout_answers (cq : Nat) (s : State) : Answers s (execCqCoalesceTimeout cq s) := by
  unfold execCqCoalesceTimeout
  split
  · exact .next (.refl _)
  · exact ite_answers (.next (.still ((emit_still ..).trans (modCq_still ..)))) (.next (.refl _))

/-! ### Registers -/

theorem execRegisterWrite_answers (by_ : Option Nat) (off : Nat) (val : Option Nat) (s : State) :
    Answers s (execRegisterWrite by_ off val s) := by
  unfold execRegisterWrite
  split
  · exact onEvent_answers fun _ => hostAccess_calm ..
  · exact onMw_answers fun _ => mgtAccess_calm ..

/-! ### The host interface -/

theorem execFlrVf_answers (n : Nat) (s : State) : Answers s (execFlrVf n s) := onEvent_answers fun _ => .still (flr_still ..)

theorem execFlrPf_answers (s : State) : Answers s (execFlrPf s) := onEvent_answers fun _ => .still (flrPf_still ..)

theorem execPcieHotReset_answers (s : State) : Answers s (execPcieHotReset s) := onEvent_answers fun _ => .still (flrPf_still ..)

theorem execNop_answers (id : CmdId) (s : State) : Answers s (execNop id s) := onCmd_answers fun _ _ => .still (succeed_still ..)

theorem execAbort_answers (id : CmdId) (s : State) : Answers s (execAbort id s) := by
  unfold execAbort
  exact onCmd_answers fun _ _ => checks_harmless (by simp) (.still (by
    split
    · exact ite_still (complete_still ..) ((complete_still ..).trans ((complete_still ..).trans ((State.modTly_still ..).trans
        (State.modGrn_still ..))))
    · exact complete_still ..))

theorem execIdentify_answers (id : CmdId) (s : State) : Answers s (execIdentify id s) :=
  onCmd_answers fun _ _ => .still ((succeed_still ..).trans (emitData_still ..))

theorem execGetLog_answers (id : CmdId) (s : State) : Answers s (execGetLog id s) :=
  onCmd_answers fun _ _ => checks_harmless (by simp) (.still (ite_still (answerPage_still ..) (ite_still (answerEvents_still ..)
    (ite_still (answerPage_still ..) (ite_still (answerPage_still ..) (answerRetained_still ..))))))

theorem execEventWaitTimeout_answers (id : CmdId) (s : State) : Answers s (execEventWaitTimeout id s) := by
  unfold execEventWaitTimeout
  split
  · exact .next (.refl _)
  · split
    · exact onEvent_answers fun _ => .still (complete_still ..)
    · exact .next (.refl _)

theorem execSetFeature_answers (id : CmdId) (s : State) : Answers s (execSetFeature id s) := by
  unfold execSetFeature
  exact onCmd_answers fun _ _ => by
    extract_lets
    split
    · exact .still (invalid_still ..)
    · exact checks_harmless (by simp) (.still ((succeed_still ..).trans (putFeature_still ..)))

theorem execGetFeature_answers (id : CmdId) (s : State) : Answers s (execGetFeature id s) := by
  unfold execGetFeature
  exact onCmd_answers fun _ _ => by
    extract_lets
    split
    · exact .still (invalid_still ..)
    · exact checks_harmless (by simp) (.still (complete_still ..))

/-! ### Races -/

theorem execRaceOpen_answers (id : CmdId) (s : State) : Answers s (execRaceOpen id s) := by
  unfold execRaceOpen
  exact onCmd_answers fun _ _ => checks_harmless (by simp) (.still (by
    split
    · exact xlateFault_still ..
    · exact xlateFault_still ..
    · split
      · exact invalid_still ..
      · exact (succeed_still ..).trans ((putTailHeader_still ..).trans ((putHeadHeader_still ..).trans ((touch_still ..).trans
          ((State.modWhl_still ..).trans ((noteWalks_still ..).trans (noteWalks_still ..))))))))

theorem execRaceClose_answers (id : CmdId) (s : State) : Answers s (execRaceClose id s) :=
  onCmd_answers fun _ _ => .still (withRace_still (hk := fun _ _ => (succeed_still ..).trans (closeRace_still ..)) ..)

theorem execRaceAnchor_answers (id : CmdId) (s : State) : Answers s (execRaceAnchor id s) := by
  unfold execRaceAnchor
  exact onCmd_answers fun _ _ => .still (withRace_still (hk := fun _ _ => by
    extract_lets
    split
    · exact (succeed_still ..).trans (modRace_still ..)
    · exact (succeed_still ..).trans ((State.modWhl_still ..).trans (modRace_still ..))) ..)

theorem execPlayoutReport_answers (id : CmdId) (s : State) : Answers s (execPlayoutReport id s) :=
  onCmd_answers fun _ _ => withRace_calm (hk := fun _ _ => checks_harmless (by simp) (.still ((complete_still ..).trans (applyReport_still
    ..)))) ..

theorem execReportSlotWrite_answers (race : Nat) (w : RseqWrite) (s : State) : Answers s (execReportSlotWrite race w s) := by
  unfold execReportSlotWrite
  extract_lets
  split
  · exact .next (.refl _)
  · exact ite_answers (.next (.still (putHeld_still ..))) (.next (.still (ite_still ((applyReport_still ..).trans ((getHeld_still
      ..).trans ((modRace_still ..).trans ((idleExit_still ..).trans (putHeld_still ..))))) ((raise_still ..).trans ((applyReport_still
      ..).trans ((getHeld_still ..).trans ((modRace_still ..).trans ((idleExit_still ..).trans (putHeld_still ..)))))))))

theorem execCogSet_answers (id : CmdId) (s : State) : Answers s (execCogSet id s) := by
  unfold execCogSet
  exact onCmd_answers fun _ _ => withRace_calm (hk := fun _ _ => checks_harmless (by simp) (.still (ite_still (by
    split
    · exact xlateFault_still ..
    · exact (succeed_still ..).trans ((touch_still ..).trans ((State.modWhl_still ..).trans (noteWalks_still ..)))) ((succeed_still
        ..).trans ((touch_still ..).trans (State.modWhl_still ..)))))) ..

theorem execCogClear_answers (id : CmdId) (s : State) : Answers s (execCogClear id s) :=
  onCmd_answers fun _ _ => withRace_calm (hk := fun _ _ => checks_harmless (by simp) (.still ((complete_still ..).trans
    (State.modWhl_still ..)))) ..

theorem execRaceQuery_answers (id : CmdId) (s : State) : Answers s (execRaceQuery id s) :=
  onCmd_answers fun _ _ => .still (withRace_still (hk := fun _ _ => (succeed_still ..).trans (emitData_still ..)) ..)

theorem execIngressSeqWrite_answers (race slot seq : Nat) (s : State) : Answers s (execIngressSeqWrite race slot seq s) := by
  unfold execIngressSeqWrite
  split
  · exact .next (.refl _)
  · exact ite_answers (.next (.refl _)) (ite_answers (.next (.still ((raise_still ..).trans ((putHeld_still ..).trans (idleExit_still
      ..))))) (.next (.still ((putHeadHeader_still ..).trans ((landFrame_still ..).trans ((putHeld_still ..).trans (idleExit_still
      ..)))))))

theorem execTailReadSeqWrite_answers (race seq : Nat) (s : State) : Answers s (execTailReadSeqWrite race seq s) := by
  unfold execTailReadSeqWrite
  split
  · exact .next (.refl _)
  · exact .next (.still ((flushMarkers_still ..).trans ((modRace_still ..).trans ((putHeld_still ..).trans (idleExit_still ..)))))

theorem execWheelhouseTick_answers (ue : Option WheelUe) (s : State) : Answers s (execWheelhouseTick ue s) := by
  unfold execWheelhouseTick
  exact ite_answers (.next (.refl _)) (ite_answers (.next (.still (by
    split
    · exact wheelUe_still ..
    · exact rfl))) (.next (.still (ite_still (ite_still ((runCogs_still ..).trans (by
    split
    · exact wheelUe_still ..
    · exact rfl)) (by
    split
    · exact wheelUe_still ..
    · exact rfl)) ((placeItems_still ..).trans (ite_still ((runCogs_still ..).trans (by
    split
    · exact wheelUe_still ..
    · exact rfl)) (by
    split
    · exact wheelUe_still ..
    · exact rfl)))))))

theorem execCogDueExpiry_answers (race slot : Nat) (s : State) : Answers s (execCogDueExpiry race slot s) := by
  unfold execCogDueExpiry
  extract_lets key
  split
  · split
    · split
      · rename_i evaluated
        exact .next (.still ((touch_still ..).trans ((issue_still ..).trans (evalCog_still' evaluated))))
      · rename_i evaluated
        exact .next (.still (evalCog_still' evaluated))
    · exact .next (.refl _)
  · exact .next (.refl _)

theorem execDryDueExpiry_answers (race : Nat) (s : State) : Answers s (execDryDueExpiry race s) :=
  onEvent_answers fun _ => .still (dryCheck_still ..)

/-! ### Turns -/

theorem execTurnBegin_answers (id : CmdId) (s : State) : Answers s (execTurnBegin id s) :=
  onCmd_answers fun _ _ => checks_harmless (by simp) (.still ((succeed_still ..).trans (State.modTrn_still ..)))

theorem execTurnEnd_answers (id : CmdId) (s : State) : Answers s (execTurnEnd id s) := by
  unfold execTurnEnd
  exact onCmd_answers fun _ _ => checks_harmless (by simp) (.still (by
    extract_lets
    split
    · exact (retireTurn_still ..).trans ((furlRaised_still ..).trans ((modTurn_still ..).trans (accept_still ..)))
    · exact (retireTurn_still ..).trans ((furlRaised_still ..).trans ((modTurn_still ..).trans (accept_still ..)))
    · exact ite_still ((forEach_still (h := fun _ _ => furlSail_still ..) ..).trans ((modTurn_still ..).trans (accept_still ..)))
        ((modTurn_still ..).trans (accept_still ..))
    · exact complete_still ..))

theorem execSailRaise_answers (id : CmdId) (s : State) : Answers s (execSailRaise id s) := by
  refine onCmd_answers fun c s => checks_harmless (by simp) (.still ?_)
  extract_lets v
  split
  · rename_i raised
    exact (accept_still ..).trans (raiseSail_still raised)
  · exact stallOr_still ..
  · exact complete_still ..

theorem execSailSet_answers (id : CmdId) (s : State) : Answers s (execSailSet id s) := by
  unfold execSailSet
  exact onCmd_answers fun _ _ => checks_harmless (by simp) (.still (by
    split
    · exact (complete_still ..).trans (setSail_still ..)
    · exact succeed_still ..
    · exact invalid_still ..
    · exact complete_still ..))

theorem execSailFurl_answers (id : CmdId) (s : State) : Answers s (execSailFurl id s) := by
  unfold execSailFurl
  exact onCmd_answers fun _ _ => checks_harmless (by simp) (.still (by
    split
    · exact (furlSail_still ..).trans ((modSail_still ..).trans (accept_still ..))
    · exact (furlSail_still ..).trans ((modSail_still ..).trans (accept_still ..))
    · exact (modSail_still ..).trans (accept_still ..)
    · exact complete_still ..))

theorem execFurlStonesIdle_answers (turn : Nat) (sail : Option Nat) (s : State) : Answers s (execFurlStonesIdle turn sail s) := by
  unfold execFurlStonesIdle
  exact ite_answers (.next (.refl _)) (by
    extract_lets
    split
    · exact .next (.still ((freeTurn_still ..).trans (foldl_still (h := fun _ _ => dropItem_still ..) ..)))
    · exact ite_answers (.next (.still ((drainSail_still ..).trans (foldl_still (h := fun _ _ => dropItem_still ..) ..)))) (.next (.refl
        _)))

theorem execSailDrainEnd_answers (turn sail : Nat) (s : State) : Answers s (execSailDrainEnd turn sail s) :=
  onEvent_answers fun _ => .still (freeSail_still ..)

theorem execArenaZeroFillEnd_answers (offset : Nat) (s : State) : Answers s (execArenaZeroFillEnd offset s) := by
  unfold execArenaZeroFillEnd
  split
  · exact .next (.refl _)
  · exact onEvent_answers fun _ => .still rfl

theorem execTailFrameRelease_answers (turn sail : Nat) (s : State) : Answers s (execTailFrameRelease turn sail s) := by
  unfold execTailFrameRelease
  split
  · split
    · exact ite_answers (.next (.refl _)) (ite_answers (.next (.still (tellFull_still ..))) (ite_answers (.next (.refl _)) (.next (.still
        (ite_still ((endAudio_still ..).trans (ite_still ((noteFirst_still ..).trans ((setLeaving_still ..).trans (releaseFrame_still
        ..))) ((setLeaving_still ..).trans (releaseFrame_still ..)))) (ite_still ((noteFirst_still ..).trans ((setLeaving_still ..).trans
        (releaseFrame_still ..))) ((setLeaving_still ..).trans (releaseFrame_still ..))))))))
    · exact .next (.refl _)
  · extract_lets
    split
    · exact ite_answers (.next (.refl _)) (ite_answers (.next (.still (tellFull_still ..))) (ite_answers (.next (.refl _)) (.next (.still
        ((gateRoom_still ..).trans ((noteFirst_still ..).trans ((releaseFrame_still ..).trans (modSail_still ..))))))))
    · exact .next (.refl _)

theorem execHeldWriteRelease_answers (turn sail : Nat) (failure : Option Nat) (s : State) :
    Answers s (execHeldWriteRelease turn sail failure s) := by
  unfold execHeldWriteRelease
  split
  · split
    · exact .next (.refl _)
    · exact ite_answers (.next (.refl _)) (.next (.still ((releaseWrite_still ..).trans (setLeaving_still ..))))
  · extract_lets
    split
    · exact .next (.refl _)
    · exact ite_answers (.next (.refl _)) (.next (.still ((gateRoom_still ..).trans ((releaseWrite_still ..).trans (modSail_still ..)))))

/-! ### Images and chains -/

theorem execImageLoad_answers (id : CmdId) (bus : Bus) (s : State) : Answers s (execImageLoad id bus s) := by
  refine onCmd_answers fun c s => checks_harmless (by simp) (.still ?_)
  split
  · exact xlateFault_still ..
  · exact xlateFault_still ..
  · rename_i h b _ _
    have first := (readRuns_still bus h.segs (noteWalks b (noteWalks h s))).trans ((noteWalks_still ..).trans (noteWalks_still ..))
    generalize readRuns bus h.segs (noteWalks b (noteWalks h s)) = d at first ⊢
    obtain ⟨data, s1⟩ := d
    dsimp only
    have second : (if anyPoison data = true then (([], s1) : List PByte × State) else readRuns bus b.segs s1).2.still = s.still := by
      split
      · exact first
      · exact (readRuns_still ..).trans first
    generalize (if anyPoison data = true then (([], s1) : List PByte × State) else readRuns bus b.segs s1) = d at second ⊢
    obtain ⟨block, s2⟩ := d
    exact ite_still ((complete_still ..).trans second)
      ((pushLoadJob_still ..).trans ((accept_still ..).trans ((State.modStn_still ..).trans second)))

theorem execImageUnload_answers (id : CmdId) (s : State) : Answers s (execImageUnload id s) := by
  unfold execImageUnload
  exact onCmd_answers fun _ _ => .still (withImage_still (hk := fun _ _ => by
    split
    · exact refuse_still ..
    · exact (succeed_still ..).trans (State.modStn_still ..)) ..)

theorem execImageQuery_answers (id : CmdId) (s : State) : Answers s (execImageQuery id s) := by
  unfold execImageQuery
  exact onCmd_answers fun _ _ => .still (by
    split
    · exact ite_still ((succeed_still ..).trans (emitData_still ..)) (invalid_still ..)
    · exact (succeed_still ..).trans (emitData_still ..))

theorem execChainBind_answers (id : CmdId) (bus : Bus) (s : State) : Answers s (execChainBind id bus s) := by
  refine onCmd_answers fun c s => ite_calm (.refl _) (checks_harmless (by simp) (.still ?_))
  extract_lets +onlyGivenNames binds kind writes block
  clear_value block
  split
  · exact xlateFault_still ..
  · rename_i b
    have read := readRuns_still bus b.segs s
    generalize readRuns bus b.segs s = d at read ⊢
    obtain ⟨data, s1⟩ := d
    refine ite_still ((complete_still ..).trans read) ?_
    split
    · exact (xlateFault_still ..).trans read
    · exact (succeed_still ..).trans ((State.modStn_still ..).trans read)

theorem execChainUnbind_answers (id : CmdId) (s : State) : Answers s (execChainUnbind id s) :=
  onCmd_answers fun _ _ => ite_calm (.refl _) (checks_harmless (by simp) (.still ((succeed_still ..).trans (State.modStn_still ..))))

theorem execStoneFence_answers (id : CmdId) (s : State) : Answers s (execStoneFence id s) :=
  onCmd_answers fun _ _ => checks_harmless (by simp) (.still ((fenceStones_still ..).trans (accept_still ..)))

theorem execStoneReinstate_answers (id : CmdId) (s : State) : Answers s (execStoneReinstate id s) :=
  onCmd_answers fun _ _ => checks_harmless (by simp) (.still ((settleVotes_still ..).trans ((firstUse_still ..).trans
    ((State.modStn_still ..).trans ((forEach_still (h := fun _ _ => (clearInst_still ..).trans (modStone_still ..)) ..).trans
    (accept_still ..))))))

theorem execReinstateBistEnd_answers (stone : Nat) (pass : Bool) (s : State) : Answers s (execReinstateBistEnd stone pass s) := by
  unfold execReinstateBistEnd
  split
  · exact .next (.refl _)
  · exact ite_answers (.next (.still ((settleVotes_still ..).trans (ite_still ((failInternal_still ..).trans ((State.modStn_still
      ..).trans ((raisePf_still ..).trans ((modStone_still ..).trans (clearInst_still ..))))) ((completeId_still ..).trans
      ((State.modStn_still ..).trans ((raisePf_still ..).trans ((modStone_still ..).trans (clearInst_still ..))))))))) (.next (.still
      ((State.modStn_still ..).trans ((raisePf_still ..).trans ((modStone_still ..).trans (clearInst_still ..))))))

/-! ### Stones -/

theorem execBundleIssue_answers (item stone index : Nat) (fx : BundleFx) (s : State) : Answers s (execBundleIssue item stone index fx s)
  := by
  unfold execBundleIssue
  split
  · exact .next (.refl _)
  · split
    · exact .next (.refl _)
    · exact ite_answers (.next (.refl _)) (ite_answers (.next (.still (modBed_still ..))) (by
            split
            · exact .next (.still (modBed_still ..))
            · exact .next (.still (issueBundle_still ..))))

theorem execMatmul_answers (item stone : Nat) (fx : RunnerFx) (s : State) : Answers s (execMatmul item stone fx s) := runMatmul_answers ..

theorem execMatmulAcc_answers (item stone : Nat) (fx : RunnerFx) (s : State) : Answers s (execMatmulAcc item stone fx s) :=
  runMatmul_answers ..

theorem execDmaRead_answers (item stone : Nat) (bus : Bus) (bin : BinReply) (s : State) :
    Answers s (execDmaRead item stone bus bin s) := by
  refine startDma_answers fun i m slot x s => .still ?_
  extract_lets s1 len put
  have started : s1.still = s.still := noteStart_still ..
  clear_value s1
  have filled (segs : List Seg) : (put s1 fun off s => readRuns bus (subSegs segs off len) s).still = s.still :=
    (foldl_still _ _ _ fun _ _ => (writeScratch_still ..).trans (readRuns_still ..)).trans started
  split
  · exact filled _
  · exact filled _
  · refine ite_still ?_ ?_
    · extract_lets s2
      have met : s2.still = s.still := (readEntry_still ..).trans started
      clear_value s2
      split
      · exact (refuseNear_still ..).trans met
      · split
        · exact (refuseNear_still ..).trans met
        · exact (nearRead_still ..).trans met
    · split
      · exact (refuseBin_still ..).trans ((emit_still ..).trans started)
      · exact (foldl_still _ _ _ fun _ _ => (writeScratch_still ..).trans (emit_still ..)).trans started
  · exact started

/-- What lies behind a chunk's descriptor is written, or refused, by the kind of its binding. -/
theorem execDmaWrite_answers (item stone : Nat) (bin : BinReply) (s : State) : Answers s (execDmaWrite item stone bin s) := by
  refine startDma_answers fun i m slot x s => .still (ite_still rfl ?_)
  extract_lets e dest recs direct
  have rows : e.2.still = s.still := writeRows_still ..
  have started := (noteStart_still item stone slot 2 e.2).trans rows
  have written (s : State) : (direct s).still = s.still := by
    unfold direct
    split
    · exact foldl_still _ _ _ fun _ _ => writeSegs_still ..
    · exact foldl_still _ _ _ fun _ _ => writeHeld_still ..
    · refine ite_still ?_ ?_
      · extract_lets s1
        have met : s1.still = s.still := readEntry_still ..
        clear_value s1
        split
        · exact (refuseNear_still ..).trans met
        · split
          · exact (refuseNear_still ..).trans met
          · exact (nearWrite_still ..).trans met
      · extract_lets s1
        have sent : s1.still = s.still := foldl_still _ _ _ fun _ _ => emit_still ..
        clear_value s1
        split
        · exact (refuseBin_still ..).trans sent
        · exact sent
    · rfl
  split
  · exact (written _).trans started
  · refine ite_still ((written _).trans started) ?_
    exact ite_still (stallSail_still ..) ((modSail_still ..).trans started)
  · exact (written _).trans started

theorem execDmaTailFrame_answers (item stone : Nat) (last : Bool) (s : State) : Answers s (execDmaTailFrame item stone last s) := by
  unfold execDmaTailFrame
  exact startDma_answers fun _ _ _ _ _ => .still (by
    extract_lets
    split
    · exact (noteStart_still ..).trans (readScratch_still ..)
    · exact ite_still (gangFault_still ..) (ite_still ((raise_still ..).trans ((noteStart_still ..).trans (readScratch_still ..))) (by
            split
            · exact ite_still (stallSail_still ..) ((modSail_still ..).trans ((noteStart_still ..).trans (readScratch_still ..)))
            · exact ite_still (tellFull_still ..) (ite_still rfl ((noteFirst_still ..).trans ((releaseFrame_still ..).trans
                ((noteStart_still ..).trans (readScratch_still ..))))))))

theorem execDmaVoiced_answers (item stone : Nat) (s : State) : Answers s (execDmaVoiced item stone s) :=
  startDma_answers fun _ _ _ _ _ => .still ((ite_still (scratchPoison_still ..) (modRace_still ..)).trans ((noteStart_still ..).trans
    (readScratch_still ..)))

theorem execDmaDescriptorDone_answers (item stone : Nat) (s : State) : Answers s (execDmaDescriptorDone item stone s) := by
  unfold execDmaDescriptorDone
  split
  · exact .next (.refl _)
  · split
    · exact .next (.refl _)
    · exact ite_answers (.next (.refl _)) (.next (.still (modItem_still ..)))

theorem execSpurSend_answers (item stone : Nat) (send : Spur) (s : State) : Answers s (execSpurSend item stone send s) := by
  unfold execSpurSend
  split
  · exact .next (.refl _)
  · split
    · exact .next (.refl _)
    · exact ite_answers (.next (.refl _)) (ite_answers (.next (.still (gangFault_still ..))) (ite_answers (.next (.still (modBed_still
        ..))) (ite_answers (.next (.still (gangFault_still ..))) (.next (.still ((modItem_still ..).trans (readScratch_still ..)))))))

theorem execGristBoundary_answers (item site : Nat) (s : State) : Answers s (execGristBoundary item site s) := by
  unfold execGristBoundary
  split
  · exact .next (.refl _)
  · split
    · exact .next (.refl _)
    · exact ite_answers (.next (.refl _)) (by
            split
            · exact .next (.still (gangFault_still ..))
            · exact ite_answers (.next (.still (gangFault_still ..))) (.next (.still (passBoundary_still ..))))

theorem execYieldSaveDone_answers (item : Nat) (s : State) : Answers s (execYieldSaveDone item s) := by
  unfold execYieldSaveDone
  split
  · exact .next (.refl _)
  · exact ite_answers (.next (.refl _)) (.next (.still ((releaseBlock_still ..).trans ((modItem_still ..).trans (State.modStn_still
      ..)))))

theorem execGristOverdue_answers (item : Nat) (s : State) : Answers s (execGristOverdue item s) := by
  unfold execGristOverdue
  split
  · exact .next (.refl _)
  · exact onEvent_answers fun _ => .still (gangFault_still ..)

theorem execStageHalt_answers (item : Nat) (s : State) : Answers s (execStageHalt item s) := by
  unfold execStageHalt
  split
  · exact .next (.refl _)
  · split
    · exact .next (.refl _)
    · exact onEvent_answers fun _ => .still (endStage_still ..)

theorem execGangFaultDrainEnd_answers (item : Nat) (s : State) : Answers s (execGangFaultDrainEnd item s) := by
  unfold execGangFaultDrainEnd
  split
  · exact .next (.refl _)
  · exact ite_answers (.next (.refl _)) (by
          split
          · exact .next (.still (endNearMem_still ..))
          · exact .next (.still ((freeTurn_still ..).trans (dropItem_still ..)))
          · exact .next (.still ((disturb_still ..).trans (dropItem_still ..)))
          · exact .next (.still (dropItem_still ..)))

/-! ### On-chip memories -/

theorem execPartialWrite_answers (inst word : Nat) (lanes : Lanes) (who : Option CmdId) (s : State) :
    Answers s (execPartialWrite inst word lanes who s) :=
  onEvent_answers fun _ => .still (partialWrite_still ..)

theorem execMergeAgeFlush_answers (inst group : Nat) (s : State) : Answers s (execMergeAgeFlush inst group s) :=
  onEvent_answers fun _ => .still (flushOldest_still ..)

theorem execMergeIdleFlush_answers (inst group : Nat) (s : State) : Answers s (execMergeIdleFlush inst group s) :=
  .next (.still (flushOldest_still ..))

theorem execFullWordWrite_answers (inst word data : Nat) (s : State) : Answers s (execFullWordWrite inst word data s) :=
  onEvent_answers fun _ => .still (fullWrite_still ..)

theorem execSpareRemap_answers (inst group : Nat) (s : State) : Answers s (execSpareRemap inst group s) := by
  unfold execSpareRemap
  split
  · exact .next (.refl _)
  · exact ite_answers (by
          extract_lets
          split
          · exact .next (.still ((raisePf_still ..).trans (by
                  split
                  · exact (poisonWord_still ..).trans ((modGroup_still ..).trans (modGroup_still ..))
                  · exact (poisonWord_still ..).trans ((modGroup_still ..).trans (modGroup_still ..))
                  · exact (poisonWord_still ..).trans ((modGroup_still ..).trans (modGroup_still ..))
                  · exact ite_still ((storeWord_still ..).trans ((modGroup_still ..).trans (modGroup_still ..))) ((modGroup_still
                      ..).trans (modGroup_still ..)))))) (.next (.still ((remapFull_still ..).trans (modGroup_still ..))))

theorem execScrubVisit_answers (inst group : Nat) (dflips cflips : List (Nat × Nat)) (copies : List Nat) (s : State) : Answers s
  (execScrubVisit inst group dflips cflips copies s) :=
  ite_answers (.next (.still ((lapEnd_still ..).trans ((modGroup_still ..).trans ((scrubCheck_still ..).trans (upset_still ..)))))) (.next
    (.refl _))

theorem execScrubLapLimitExpiry_answers (inst : Nat) (s : State) : Answers s (execScrubLapLimitExpiry inst s) := by
  unfold execScrubLapLimitExpiry
  exact onEvent_answers fun _ => .still ((raisePf_still ..).trans ((ocpAlarm_still ..).trans (modInst_still ..)))

theorem execOcpInjectArm_answers (fn val : Nat) (s : State) : Answers s (execOcpInjectArm fn val s) := onEvent_answers fun _ => .still rfl

theorem execOcpRemapLoad_answers (val : Nat) (s : State) : Answers s (execOcpRemapLoad val s) :=
  ite_answers (ite_answers (.next (.still ((modInst_still ..).trans ((modGroup_still ..).trans (State.modOcp_still ..))))) (.next (.still
    ((remapFull_still ..).trans (State.modOcp_still ..))))) (.next (.still rfl))

/-! ### Remote memory access -/

theorem execQpCreate_answers (id : CmdId) (s : State) : Answers s (execQpCreate id s) :=
  onCmd_answers fun _ _ => checks_harmless (by simp) (.still (ringAt_still (hk := fun _ _ => ite_still ((succeed_still ..).trans
    (State.modRdm_still ..)) (ringAt_still (hk := fun _ _ => (succeed_still ..).trans (State.modRdm_still ..)) ..)) ..))

theorem execQpDestroy_answers (id : CmdId) (s : State) : Answers s (execQpDestroy id s) := by
  unfold execQpDestroy
  exact onCmd_answers fun _ _ => .still (by
    split
    · exact invalid_still ..
    · exact ite_still (invalid_still ..) ((succeed_still ..).trans ((qpLeft_still ..).trans ((State.modRdm_still ..).trans (by
            split
            · exact completeId_still ..
            · exact rfl)))))

theorem execSrqCreate_answers (id : CmdId) (s : State) : Answers s (execSrqCreate id s) := by
  unfold execSrqCreate
  split
  · exact .next (.refl _)
  · exact ite_answers (.next (.refl _)) (.next (checks_harmless (by simp) (.still (ringAt_still (hk := fun _ _ => (succeed_still ..).trans
      (State.modRdm_still ..)) ..))))

theorem execSrqSetLimit_answers (id : CmdId) (s : State) : Answers s (execSrqSetLimit id s) := by
  unfold execSrqSetLimit
  split
  · exact .next (.refl _)
  · split
    · exact .next (.refl _)
    · exact ite_answers (.next (.refl _)) (ite_answers (.next (.still (invalid_still ..))) (ite_answers (.next (.still (invalid_still
        ..))) (.next (.still ((succeed_still ..).trans (State.modRdm_still ..))))))

theorem execCqCreate_answers (id : CmdId) (s : State) : Answers s (execCqCreate id s) := by
  unfold execCqCreate
  split
  · exact .next (.refl _)
  · exact ite_answers (.next (.refl _)) (.next (checks_harmless (by simp) (.still (ringAt_still (hk := fun _ _ => (succeed_still ..).trans
      (State.modRdm_still ..)) ..))))

theorem execCqDestroy_answers (id : CmdId) (s : State) : Answers s (execCqDestroy id s) := by
  unfold execCqDestroy
  split
  · exact .next (.refl _)
  · split
    · exact .next (.refl _)
    · exact ite_answers (.next (.refl _)) (.next (checks_harmless (by simp) (.still ((succeed_still ..).trans (State.modRdm_still ..)))))

theorem execQpModifyReset_answers (id : CmdId) (s : State) : Answers s (execQpModifyReset id s) :=
  qpModify_answers fun _ _ _ => .still (ite_still (invalid_still ..) ((succeed_still ..).trans (modQp_still ..)))

theorem execQpModifyInit_answers (id : CmdId) (s : State) : Answers s (execQpModifyInit id s) :=
  qpModify_answers fun _ _ _ => .still (ite_still (invalid_still ..) ((succeed_still ..).trans (modQp_still ..)))

theorem execQpModifyRtr_answers (id : CmdId) (s : State) : Answers s (execQpModifyRtr id s) :=
  qpModify_answers fun _ _ _ => checks_harmless (by simp) (.still ((succeed_still ..).trans (modQp_still ..)))

theorem execQpModifyRts_answers (id : CmdId) (s : State) : Answers s (execQpModifyRts id s) := by
  unfold execQpModifyRts
  split
  · exact .next (.refl _)
  · exact ite_answers (.next (.refl _)) (qpModify_answers (fun _ _ _ => by
          extract_lets
          split
          · exact checks_harmless (by simp) (.still ((succeed_still ..).trans (modQp_still ..)))
          · exact .still (ite_still (invalid_still ..) ((succeed_still ..).trans (modQp_still ..)))
          · exact .still (invalid_still ..)))

theorem execQpModifyMove_answers (id : CmdId) (s : State) : Answers s (execQpModifyMove id s) := by
  unfold execQpModifyMove
  split
  · exact .next (.refl _)
  · exact ite_answers (qpModify_answers (fun _ _ _ => .still (ite_still (invalid_still ..) ((drainCheck_still ..).trans ((accept_still
      ..).trans ((qpLeft_still ..).trans (modQp_still ..))))))) (.next (.refl _))

theorem execQpModifyDrain_answers (id : CmdId) (s : State) : Answers s (execQpModifyDrain id s) :=
  qpModify_answers fun _ _ _ => .still (ite_still (invalid_still ..) ((succeed_still ..).trans ((qpLeft_still ..).trans (modQp_still
    ..))))

theorem execQpModifyError_answers (id : CmdId) (s : State) : Answers s (execQpModifyError id s) :=
  qpModify_answers fun _ _ _ => .still (ite_still (invalid_still ..) ((succeed_still ..).trans (qpError_still ..)))

theorem execQpDrainEnd_answers (q : Nat) (s : State) : Answers s (execQpDrainEnd q s) := .next (.still (drainCheck_still ..))

theorem execMrRegister_answers (id : CmdId) (s : State) : Answers s (execMrRegister id s) := by
  unfold execMrRegister
  split
  · exact .next (.refl _)
  · exact ite_answers (.next (.refl _)) (.next (checks_harmless (by simp) (.still ((complete_still ..).trans (State.modRdm_still ..)))))

theorem execMrDeregister_answers (id : CmdId) (s : State) : Answers s (execMrDeregister id s) := by
  unfold execMrDeregister
  split
  · exact .next (.refl _)
  · split
    · exact .next (.refl _)
    · exact ite_answers (.next (.refl _)) (ite_answers (.next (.still (invalid_still ..))) (.next (.still ((succeed_still ..).trans
        (State.modRdm_still ..)))))

theorem execWindowBind_answers (id : CmdId) (bus : Bus) (s : State) : Answers s (execWindowBind id bus s) := by
  unfold execWindowBind
  split
  · exact .next (.refl _)
  · exact ite_answers (.next (.refl _)) (.next (checks_harmless (by simp) (.still (ringAt_still (hk := fun _ _ => ite_still
      ((complete_still ..).trans (readRuns_still ..)) (ite_still ((invalid_still ..).trans (readRuns_still ..)) ((complete_still ..).trans
      ((State.modRdm_still ..).trans (readRuns_still ..))))) ..))))

theorem execWindowUnbind_answers (id : CmdId) (s : State) : Answers s (execWindowUnbind id s) := by
  unfold execWindowUnbind
  split
  · exact .next (.refl _)
  · exact ite_answers (.next (.refl _)) (.next (checks_harmless (by simp) (.still ((complete_still ..).trans (State.modRdm_still ..)))))

theorem execRdmaSqDoorbell_answers (fn val : Nat) (bus : Bus) (s : State) : Answers s (execRdmaSqDoorbell fn val bus s) := by
  unfold execRdmaSqDoorbell
  extract_lets s1
  have out : s1.still = s.still := idleExit_still ..
  clear_value s1
  have refused : Answers s (.next (dbRefuse s1)) := .next (.still ((dbRefuse_still ..).trans out))
  split
  · exact refused
  · split
    · exact refused
    · refine ite_answers refused ?_
      split
      · exact refused
      · rename_i q _ _ _ p _ _ n _
        have rung := (ringEntries_still bus p.sring p.sk p.sprod n s1).trans out
        generalize ringEntries bus p.sring p.sk p.sprod n s1 = e at rung ⊢
        obtain ⟨l, s2⟩ := e
        dsimp only at rung ⊢
        have aborted {a b : Qp → Qp} : Answers s (.next (l.foldl
            (fun s e => wcOut p.sendCq q { wrId := entryWrId e, op := num e 0 1, status := .aborted } s) (modQp q a (modQp q b s2)))) :=
          .next (.still ((foldl_still _ _ _ fun _ _ => wcOut_still ..).trans ((modQp_still ..).trans ((modQp_still ..).trans rung))))
        split
        · exact aborted
        · exact aborted
        · exact aborted
        · exact .next (.still ((modQp_still ..).trans rung))

theorem execRdmaRqDoorbell_answers (fn val : Nat) (bus : Bus) (s : State) : Answers s (execRdmaRqDoorbell fn val bus s) := by
  unfold execRdmaRqDoorbell
  extract_lets
  split
  · exact .next (.still ((dbRefuse_still ..).trans (idleExit_still ..)))
  · split
    · exact .next (.still ((dbRefuse_still ..).trans (idleExit_still ..)))
    · split
      · exact .next (.still ((dbRefuse_still ..).trans (idleExit_still ..)))
      · exact ite_answers (.next (.still ((dbRefuse_still ..).trans (idleExit_still ..)))) (by
              split
              · exact .next (.still ((dbRefuse_still ..).trans (idleExit_still ..)))
              · exact ite_answers (.next (.still ((foldl_still (h := fun _ _ => wcOut_still ..) ..).trans ((modQp_still ..).trans
                  ((modQp_still ..).trans ((ringEntries_still ..).trans (idleExit_still ..))))))) (.next (.still ((modQp_still ..).trans
                  ((ringEntries_still ..).trans (idleExit_still ..))))))

theorem execRdmaSrqDoorbell_answers (fn val : Nat) (bus : Bus) (s : State) : Answers s (execRdmaSrqDoorbell fn val bus s) := by
  unfold execRdmaSrqDoorbell
  extract_lets
  split
  · exact .next (.still ((dbRefuse_still ..).trans (idleExit_still ..)))
  · split
    · exact .next (.still ((dbRefuse_still ..).trans (idleExit_still ..)))
    · exact ite_answers (.next (.still ((dbRefuse_still ..).trans (idleExit_still ..)))) (by
            split
            · exact .next (.still ((dbRefuse_still ..).trans (idleExit_still ..)))
            · exact .next (.still ((State.modRdm_still ..).trans ((ringEntries_still ..).trans (idleExit_still ..)))))

theorem execRdmaCqDoorbell_answers (fn val : Nat) (s : State) : Answers s (execRdmaCqDoorbell fn val s) := by
  unfold execRdmaCqDoorbell
  extract_lets
  split
  · exact .next (.still ((dbRefuse_still ..).trans (idleExit_still ..)))
  · split
    · exact .next (.still ((dbRefuse_still ..).trans (idleExit_still ..)))
    · exact ite_answers (.next (.still ((dbRefuse_still ..).trans (idleExit_still ..)))) (.next (.still ((modRcq_still ..).trans
        (idleExit_still ..))))

theorem wrRow_answers (mine : Nat → Bool) (q : Nat) (bus : Bus) (s : State) : Answers s (wrRow mine q bus s) := by
  unfold wrRow
  split
  · exact .next (.refl _)
  · split
    · exact .next (.refl _)
    · extract_lets op
      refine ite_answers (.next (.refl _)) ?_
      split
      · exact .next (.still (entryFail_still ..))
      · refine ite_answers (.next (.still (entryFail_still ..))) (ite_answers (.next (.still (entryFail_still ..)))
          (ite_answers (.next (.still (entryFail_still ..))) (ite_answers (.next (.refl _)) ?_)))
        split
        · exact .next (.still ((entryFail_still ..).trans (noteFault_still ..)))
        · rename_i h _
          extract_lets s1
          have used : (if op = 5 then (([], useRuns h.segs s1) : List PByte × State) else readRuns bus h.segs s1).2.still = s.still := by
            split
            · exact (useRuns_still ..).trans (noteWalks_still ..)
            · exact (readRuns_still ..).trans (noteWalks_still ..)
          generalize (if op = 5 then (([], useRuns h.segs s1) : List PByte × State) else readRuns bus h.segs s1) = d at used ⊢
          obtain ⟨data, s2⟩ := d
          dsimp only at used ⊢
          split
          · exact .next (.still ((wrDone_still ..).trans ((modQp_still ..).trans used)))
          · exact .next (.still ((foldl_still _ _ _ fun _ _ => sendPacket_still ..).trans ((modQp_still ..).trans used)))

theorem execWrSend_answers (q : Nat) (bus : Bus) (s : State) : Answers s (execWrSend q bus s) := wrRow_answers ..

theorem execWrSendImm_answers (q : Nat) (bus : Bus) (s : State) : Answers s (execWrSendImm q bus s) := wrRow_answers ..

theorem execWrWrite_answers (q : Nat) (bus : Bus) (s : State) : Answers s (execWrWrite q bus s) := wrRow_answers ..

theorem execWrWriteImm_answers (q : Nat) (bus : Bus) (s : State) : Answers s (execWrWriteImm q bus s) := wrRow_answers ..

theorem execWrRead_answers (q : Nat) (bus : Bus) (s : State) : Answers s (execWrRead q bus s) := wrRow_answers ..

theorem execWrRecv_answers (srq : Bool) (n : Nat) (s : State) : Answers s (execWrRecv srq n s) := .next (.still (fetchRecv_still ..))

theorem execRocePacketReceive_answers (r : RoceIn) (s : State) : Answers s (execRocePacketReceive r s) := by
  unfold execRocePacketReceive
  exact ite_answers (.next (.still (idleExit_still ..))) (ite_answers (.next (.still ((modPort_still ..).trans ((State.modRdm_still
    ..).trans (idleExit_still ..))))) (ite_answers (.next (.still ((modPort_still ..).trans (idleExit_still ..)))) (by
    split
    · exact .next (.still ((modPort_still ..).trans (idleExit_still ..)))
    · exact ite_answers (.next (.still ((modPort_still ..).trans (idleExit_still ..)))) (ite_answers (.next (.still ((e2eDrop_still
        ..).trans (idleExit_still ..)))) (ite_answers (.next (.still ((nakQp_still ..).trans (ite_still ((modQp_still ..).trans
        ((sendPacket_still ..).trans (idleExit_still ..))) (idleExit_still ..))))) (by
            split
            · exact .next (.still (ite_still ((modQp_still ..).trans ((sendPacket_still ..).trans (idleExit_still ..))) (idleExit_still
                ..)))
            · exact ite_answers (.next (.still ((deliverSend_still ..).trans (ite_still ((modQp_still ..).trans ((sendPacket_still
                ..).trans (idleExit_still ..))) (idleExit_still ..))))) (ite_answers (.next (.still ((nakQp_still ..).trans (ite_still
                ((modQp_still ..).trans ((sendPacket_still ..).trans (idleExit_still ..))) (idleExit_still ..))))) (.next (.still
                ((answerQp_still ..).trans (ite_still ((modQp_still ..).trans ((sendPacket_still ..).trans (idleExit_still ..)))
                (idleExit_still ..))))))))))))

theorem execInboundKeyRequest_answers (via : Via) (psn : Nat) (write : Bool) (va key len : Nat) (data : List Byte) (imm : Option Nat)
    (bus : Bus) (s : State) : Answers s (execInboundKeyRequest via psn write va key len data imm bus s) := by
  unfold execInboundKeyRequest
  extract_lets +onlyGivenNames s1 q
  have out : s1.still = s.still := idleExit_still ..
  clear_value s1
  split
  · exact .next (.still out)
  · extract_lets +onlyGivenNames n last next
    refine ite_answers (.next (.still out)) (ite_answers (.next (.still ((e2eDrop_still ..).trans out)))
      (ite_answers (.next (.still (ite_still ((nakQp_still ..).trans out) (ite_still ((answerQp_still ..).trans out) out)))) ?_))
    split
    · exact .next (.still ((nakQp_still ..).trans out))
    · extract_lets got whole m h s2
      have walked : s2.still = s.still := (noteWalks_still ..).trans out
      clear_value s2
      refine ite_answers ?_ ?_
      · have landed := (writeHeld_still h ((data.take m).map fun b => (b, false)) s2).trans walked
        refine ite_answers (.next (.still ((keyFault_still ..).trans landed))) ?_
        split
        · exact .next (.still ((answerQp_still ..).trans landed))
        · split
          · rename_i taken
            have kept := (takeRecv_still' taken).trans landed
            exact .next (.still (ite_still ((answerQp_still ..).trans kept) kept))
          · rename_i taken
            exact .next (.still ((wcOut_still ..).trans ((answerQp_still ..).trans ((takeRecv_still' taken).trans landed))))
      · have noted := (noteServed_still q psn (packetsOf n) va s2).trans walked
        exact ite_answers (.next (.still ((keyRead_still ..).trans noted)))
          (.next (.still ((keyFault_still ..).trans (ite_still noted ((keyRead_still ..).trans noted)))))

theorem execAckReceive_answers (via : Via) (psn : Nat) (a : Ack) (s : State) : Answers s (execAckReceive via psn a s) := by
  unfold execAckReceive
  extract_lets
  split
  · exact .next (.still (idleExit_still ..))
  · exact ite_answers (.next (.still (idleExit_still ..))) (ite_answers (.next (.still ((e2eDrop_still ..).trans (idleExit_still ..))))
      (by
          split
          · exact .next (.still ((drainCheck_still ..).trans ((ackUpTo_still ..).trans (idleExit_still ..))))
          · exact .next (.still ((landResponse_still ..).trans ((ackUpTo_still ..).trans (idleExit_still ..))))
          · extract_lets
            split
            · exact .next (.still ((ackUpTo_still ..).trans (idleExit_still ..)))
            · exact ite_answers (.next (.still ((wrFail_still ..).trans ((ackUpTo_still ..).trans (idleExit_still ..))))) (.next (.still
                ((modQp_still ..).trans ((ackUpTo_still ..).trans (idleExit_still ..)))))
          · exact ite_answers (.next (.still ((sequenceNak_still ..).trans ((ackUpTo_still ..).trans (idleExit_still ..))))) (by
                  split
                  · exact .next (.still ((ackUpTo_still ..).trans (idleExit_still ..)))
                  · exact .next (.still ((wrFail_still ..).trans ((ackUpTo_still ..).trans (idleExit_still ..)))))))

theorem execStatusNakReceive_answers (via : Via) (psn code detail : Nat) (s : State) :
    Answers s (execStatusNakReceive via psn code detail s) := by
  unfold execStatusNakReceive
  extract_lets
  split
  · exact ite_answers (.next (.still (idleExit_still ..))) (ite_answers (.next (.still ((e2eDrop_still ..).trans (idleExit_still ..))))
      (by
          extract_lets
          split
          · exact .next (.still ((ackUpTo_still ..).trans ((State.modRdm_still ..).trans (idleExit_still ..))))
          · split
            · exact .next (.still ((ackUpTo_still ..).trans ((State.modRdm_still ..).trans (idleExit_still ..))))
            · exact ite_answers (ite_answers (.next (.still ((wrFail_still ..).trans ((ackUpTo_still ..).trans ((State.modRdm_still
                ..).trans (idleExit_still ..)))))) (.next (.still ((drainCheck_still ..).trans ((wrDone_still ..).trans (ite_still
                ((correctRecords_still ..).trans ((modQp_still ..).trans ((ackUpTo_still ..).trans ((State.modRdm_still ..).trans
                (idleExit_still ..))))) ((modQp_still ..).trans ((ackUpTo_still ..).trans ((State.modRdm_still ..).trans (idleExit_still
                ..)))))))))) (.next (.still ((ackUpTo_still ..).trans ((State.modRdm_still ..).trans (idleExit_still ..)))))))
  · exact .next (.still (idleExit_still ..))

theorem execLocalAckTimeout_answers (q : Nat) (s : State) : Answers s (execLocalAckTimeout q s) := by
  unfold execLocalAckTimeout
  split
  · exact .next (.refl _)
  · split
    · exact ite_answers (ite_answers (.next (.still (wrFail_still ..))) (.next (.still ((resendFrom_still ..).trans (modQp_still ..)))))
        (.next (.refl _))
    · exact .next (.refl _)

theorem execRnrTimerExpiry_answers (q : Nat) (s : State) : Answers s (execRnrTimerExpiry q s) := by
  unfold execRnrTimerExpiry
  split
  · exact .next (.refl _)
  · split
    · exact ite_answers (.next (.still ((resendFrom_still ..).trans (modQp_still ..)))) (.next (.refl _))
    · exact .next (.refl _)

/-! ### The granary -/

theorem execCarveCreate_answers (id : CmdId) (s : State) : Answers s (execCarveCreate id s) :=
  grnCmd_answers fun _ _ => checks_harmless (by simp) (.still ((succeed_still ..).trans (State.modGrn_still ..)))

theorem execCarveUpdate_answers (id : CmdId) (s : State) : Answers s (execCarveUpdate id s) :=
  grnCmd_answers fun _ _ => checks_harmless (by simp) (.still ((succeed_still ..).trans (State.modGrn_still ..)))

theorem execCarveDelete_answers (id : CmdId) (s : State) : Answers s (execCarveDelete id s) :=
  grnCmd_answers fun _ _ => checks_harmless (by simp) (.still ((succeed_still ..).trans (State.modGrn_still ..)))

theorem execBinAlloc_answers (id : CmdId) (s : State) : Answers s (execBinAlloc id s) := by
  unfold execBinAlloc
  exact grnCmd_answers fun _ _ => checks_harmless (by simp) (.still (by
    extract_lets
    split
    · split
      · exact complete_still ..
      · exact ite_still (complete_still ..) ((complete_still ..).trans ((zeroBin_still ..).trans ((modTally_still ..).trans
          (State.modGrn_still ..))))
    · exact complete_still ..))

theorem execBinFree_answers (id : CmdId) (s : State) : Answers s (execBinFree id s) := by
  unfold execBinFree
  exact grnCmd_answers fun _ _ => .still (withBin_still (hk := fun _ _ _ => ite_still (refuse_still ..) (ite_still (complete_still ..)
    (ite_still (stallOr_still ..) ((succeed_still ..).trans ((modBin_still ..).trans ((State.modGrn_still ..).trans (by
    split
    · exact notice_still ..
    · exact rfl))))))) ..)

theorem execBinZeroFillEnd_answers (bin : Nat) (s : State) : Answers s (execBinZeroFillEnd bin s) := by
  refine onEvent_answers fun _ => .still ?_
  extract_lets b s1 s2
  have zeroed : s1.still = s.still := zeroBin_still ..
  exact (modTally_still ..).trans ((modBin_still ..).trans (ite_still zeroed zeroed))

theorem execBinMap_answers (id : CmdId) (s : State) : Answers s (execBinMap id s) :=
  grnCmd_answers fun _ _ => withBin_calm (hk := fun _ _ _ => checks_harmless (by simp) (.still ((finishMap_still ..).trans
    ((countMapIn_still ..).trans ((modBin_still ..).trans (State.modGrn_still ..)))))) ..

theorem execBinUnmap_answers (id : CmdId) (s : State) : Answers s (execBinUnmap id s) := by
  unfold execBinUnmap
  exact grnCmd_answers fun _ _ => .still (withBin_still (hk := fun _ _ _ => by
    extract_lets
    split
    · exact complete_still ..
    · exact (ite_still (endMap_still ..) rfl).trans ((modBin_still ..).trans (accept_still ..))) ..)

theorem execLeaseRenew_answers (id : CmdId) (s : State) : Answers s (execLeaseRenew id s) := by
  unfold execLeaseRenew
  exact grnCmd_answers fun _ _ => .still (withBin_still (hk := fun _ _ _ => ite_still (complete_still ..) (ite_still (invalid_still ..)
    (by
    split
    · exact complete_still ..
    · exact (finishMap_still ..).trans (modBin_still ..)))) ..)

theorem execLeaseExpiry_answers (bin member : Nat) (s : State) : Answers s (execLeaseExpiry bin member s) :=
  onEvent_answers fun _ => .still ((ite_still (endMap_still ..) rfl).trans (modBin_still ..))

theorem execMapDrainEnd_answers (bin member : Nat) (s : State) : Answers s (execMapDrainEnd bin member s) :=
  onEvent_answers fun _ => .still (endMap_still ..)

theorem execMirrorEnable_answers (id : CmdId) (index : Option Nat) (s : State) : Answers s (execMirrorEnable id index s) :=
  grnCmd_answers fun _ _ => withBin_calm (hk := fun _ _ _ => checks_harmless (by simp) (.still ((complete_still ..).trans
    ((setMState_still ..).trans ((foldl_still (h := fun _ _ => sendMap_still ..) ..).trans ((notice_still ..).trans ((State.modGrn_still
    ..).trans (modBin_still ..)))))))) ..

theorem execMirrorDisable_answers (id : CmdId) (s : State) : Answers s (execMirrorDisable id s) := by
  unfold execMirrorDisable
  exact grnCmd_answers fun _ _ => withBin_calm (hk := fun _ _ _ => checks_harmless (by simp) (.still ((succeed_still ..).trans
    ((modBin_still ..).trans ((setMState_still ..).trans ((State.modGrn_still ..).trans (by
    split
    · exact notice_still ..
    · exact rfl))))))) ..

theorem execInboundGranaryRequest_answers (r : GReq) (s : State) : Answers s (execInboundGranaryRequest r s) :=
  onEvent_answers fun _ => .still ((enterRequest_still ..).trans (idleExit_still ..))

theorem execMirrorWriteArrival_answers (handle off : Nat) (data : List Byte) (poison chunk last : Bool) (s : State) : Answers s
  (execMirrorWriteArrival handle off data poison chunk last s) := by
  unfold execMirrorWriteArrival
  split
  · exact .next (.refl _)
  · exact ite_answers (.next (.refl _)) (.next (.still (ite_still ((synced_still ..).trans ((emit_still ..).trans ((passOp_still ..).trans
      ((writeBin_still ..).trans ((quietAgain_still ..).trans (idleExit_still ..)))))) ((emit_still ..).trans ((passOp_still ..).trans
      ((writeBin_still ..).trans ((quietAgain_still ..).trans (idleExit_still ..))))))))

theorem execMirrorAck_answers (token : Nat) (s : State) : Answers s (execMirrorAck token s) := .next (.still rfl)

theorem execResilverChunk_answers (bin : Nat) (s : State) : Answers s (execResilverChunk bin s) := by
  unfold execResilverChunk
  split
  · exact .next (.refl _)
  · exact ite_answers (.next (.refl _)) (.next (.still ((State.modGrn_still ..).trans ((emit_still ..).trans ((meetRange_still ..).trans
      ((quietAgain_still ..).trans (passOp_still ..)))))))

theorem execResilverChunkAck_answers (bin : Nat) (s : State) : Answers s (execResilverChunkAck bin s) := by
  unfold execResilverChunkAck
  split
  · exact .next (.refl _)
  · exact ite_answers (.next (.refl _)) (.next (.still (ite_still ((resilverDone_still ..).trans ((synced_still ..).trans
      ((forwardWaiting_still ..).trans (State.modGrn_still ..)))) ((forwardWaiting_still ..).trans (State.modGrn_still ..)))))

theorem execPromoteCopies_answers (home : Nat) (s : State) : Answers s (execPromoteCopies home s) := .next (.still (promoteHeld_still ..))

theorem execAnnounceReceive_answers (h : MsgHead) (role : Nat) (homes : List Nat) (s : State) :
    Answers s (execAnnounceReceive h role homes s) := by
  unfold execAnnounceReceive
  extract_lets s1 own was s2 s3
  have out : s1.still = s.still := idleExit_still ..
  have asked : s2.still = s.still := (modPeer_still ..).trans out
  have heardOf : s3.still = s.still := (forEach_still homes _ s2 fun _ _ =>
    ite_still (State.modGrn_still ..) (State.modGrn_still ..)).trans asked
  clear_value s3 s1
  exact ite_answers (.next (.still ((dropMsg_still ..).trans out))) (ite_answers (ite_answers (.next (.still heardOf))
    (ite_answers (.next (.still ((takeHome_still ..).trans heardOf))) (.next (.still heardOf)))) (.next (.still heardOf)))

theorem execNoticeReceive_answers (h : MsgHead) (code a b c d : Nat) (s : State) : Answers s (execNoticeReceive h code a b c d s) := by
  unfold execNoticeReceive
  exact ite_answers (.next (.still ((dropMsg_still ..).trans (idleExit_still ..)))) (by
    split
    · exact .next (.still ((State.modGrn_still ..).trans (idleExit_still ..)))
    · exact .next (.still ((State.modGrn_still ..).trans ((foldl_still (h := fun _ _ => recLost_still ..) ..).trans (idleExit_still ..))))
    · split
      · exact .next (.still (idleExit_still ..))
      · exact .next (.still ((notice_still ..).trans (ite_still ((countMapIn_still ..).trans ((modBin_still ..).trans ((State.modGrn_still
          ..).trans (idleExit_still ..)))) ((modBin_still ..).trans (idleExit_still ..)))))
    · split
      · exact .next (.still (idleExit_still ..))
      · exact .next (.still ((notice_still ..).trans (ite_still ((countMapOut_still ..).trans ((modBin_still ..).trans (idleExit_still
          ..))) (idleExit_still ..))))
    · split
      · exact .next (.still (idleExit_still ..))
      · exact ite_answers (.next (.still ((modTally_still ..).trans ((modBin_still ..).trans (idleExit_still ..))))) (.next (.still
          (idleExit_still ..)))
    · split
      · exact .next (.still (idleExit_still ..))
      · exact ite_answers (.next (.still (ite_still ((setMState_still ..).trans ((modBin_still ..).trans ((State.modGrn_still ..).trans
          (idleExit_still ..)))) ((State.modGrn_still ..).trans (idleExit_still ..))))) (.next (.still (idleExit_still ..)))
    · exact .next (.still ((promoteHeld_still ..).trans (idleExit_still ..)))
    · exact .next (.still ((holdCopy_still ..).trans (idleExit_still ..)))
    · split
      · exact .next (.still (idleExit_still ..))
      · split
        · exact .next (.still ((finishMaps_still ..).trans (idleExit_still ..)))
        · exact .next (.still (idleExit_still ..))
    · split
      · exact .next (.still (idleExit_still ..))
      · exact .next (.still ((breakMirror_still ..).trans (idleExit_still ..)))
    · exact .next (.still (idleExit_still ..)))

theorem execMapRecordExpiry_answers (handle fn : Nat) (s : State) : Answers s (execMapRecordExpiry handle fn s) := .next (.still rfl)

theorem execHomeClaimWaitExpiry_answers (s : State) : Answers s (execHomeClaimWaitExpiry s) := by
  unfold execHomeClaimWaitExpiry
  split
  · exact .next (.refl _)
  · exact ite_answers (.next (.still ((sendAll_still ..).trans (State.modGrn_still ..)))) (.next (.refl _))

theorem execHomeHandback_answers (home : Nat) (s : State) : Answers s (execHomeHandback home s) := onEvent_answers fun _ => .still rfl

theorem execHandbackDrainEnd_answers (s : State) : Answers s (execHandbackDrainEnd s) := by
  unfold execHandbackDrainEnd
  split
  · exact .next (.refl _)
  · exact ite_answers (.next (.refl _)) (.next (.still ((foldl_still (h := fun _ _ => statusNak_still ..) ..).trans ((raisePf_still
      ..).trans ((sendAll_still ..).trans ((State.modGrn_still ..).trans (forEach_still (h := fun _ _ => modBin_still ..) ..)))))))

/-! ### Near memory -/

theorem execNmwTailWrite_answers (val : Nat) (bus : Bus) (s : State) : Answers s (execNmwTailWrite val bus s) :=
  ite_answers (.next (.refl _)) (.next (.still (ite_still ((idleExit_still ..).trans (State.modGrn_still ..)) ((fetchEntries_still
    ..).trans ((sleepWake_still ..).trans ((idleExit_still ..).trans (State.modGrn_still ..)))))))

theorem execSweepQueue_answers (bin : Nat) (s : State) : Answers s (execSweepQueue bin s) := by
  unfold execSweepQueue
  exact onEvent_answers fun _ => .still ((addItem_still ..).trans (modTally_still ..))

theorem execSweepTokenPass_answers (bin : Nat) (s : State) : Answers s (execSweepTokenPass bin s) := by
  unfold execSweepTokenPass
  split
  · exact .next (.refl _)
  · exact .next (.still ((dropItem_still ..).trans (sweepPass_still ..)))

/-! ### The tally -/

theorem execTallyQuery_answers (id : CmdId) (s : State) : Answers s (execTallyQuery id s) :=
  grnCmd_answers fun _ _ => .still (withTally_still (hk := fun _ _ => complete_still ..) ..)

theorem execTallyPrepReset_answers (id : CmdId) (s : State) : Answers s (execTallyPrepReset id s) := by
  unfold execTallyPrepReset
  exact grnCmd_answers fun _ _ => .still (withTally_still (hk := fun _ _ => ite_still (refuse_still ..) (ite_still (stallOr_still ..)
    ((complete_still ..).trans ((tallyEvent_still ..).trans ((modBin_still ..).trans ((modTally_still ..).trans (foldl_still (h := fun _ _
    => by
    split
    · exact completeId_still ..
    · exact rfl) ..))))))) ..)

theorem execTallyConfirm_answers (id : CmdId) (s : State) : Answers s (execTallyConfirm id s) := by
  unfold execTallyConfirm
  exact grnCmd_answers fun _ _ => withTally_calm (hk := fun _ _ => (Calm.still rfl).trans (checks_harmless (by simp) (.still
    ((succeed_still ..).trans (by
    split
    · exact (notice_still ..).trans ((tallyEvent_still ..).trans ((modBin_still ..).trans (modTally_still ..)))
    · exact (tallyEvent_still ..).trans ((modBin_still ..).trans (modTally_still ..))))))) ..

theorem execOperationExit_answers (bin : Nat) (token : Option Nat) (code : Nat) (relay : Option (List Byte)) (s : State) : Answers s
  (execOperationExit bin token code relay s) := by
  unfold execOperationExit
  split
  · exact .next (.still (reversed_still ..))
  · split
    · exact .next (.still (reversed_still ..))
    · exact ite_answers (.next (.still (reversed_still ..))) (ite_answers (.next (.refl _)) (.next (.still ((answerToken_still ..).trans
        (ite_still ((reversed_still ..).trans (State.modTly_still ..)) ((countOut_still ..).trans (State.modTly_still ..)))))))

theorem execTokenFreeAdmit_answers (s : State) : Answers s (execTokenFreeAdmit s) := by
  unfold execTokenFreeAdmit
  split
  · exact .next (.refl _)
  · exact onEvent_answers fun _ => .still ((admitRequest_still ..).trans (State.modTly_still ..))

theorem execTallyBackgroundScan_answers (bin : Nat) (parityA parityB disagree : Bool) (lap : Option Nat) (s : State) : Answers s
  (execTallyBackgroundScan bin parityA parityB disagree lap s) := by
  unfold execTallyBackgroundScan
  exact ite_answers (.next (.still ((disturb_still ..).trans ((modTally_still ..).trans (by
    split
    · exact rfl
    · exact rfl))))) (.next (.still ((compareRec_still ..).trans (by
    split
    · exact rfl
    · exact rfl))))

theorem execConfirmWindowExpiry_answers (bin : Nat) (s : State) : Answers s (execConfirmWindowExpiry bin s) :=
  onEvent_answers fun _ => .still (disturb_still ..)

/-! ### Check engines -/

theorem execChkClaim_answers (id : CmdId) (s : State) : Answers s (execChkClaim id s) := by
  unfold execChkClaim
  exact onCmd_answers fun _ _ => ite_calm (.refl _) (checks_harmless (by simp) (.still (ite_still (by
    split
    · exact (complete_still ..).trans (modEngine_still ..)
    · exact complete_still ..) (ite_still (invalid_still ..) (by
    split
    · exact (complete_still ..).trans (modEngine_still ..)
    · exact ite_still (succeed_still ..) (complete_still ..))))))

theorem execChkConfig_answers (id : CmdId) (s : State) : Answers s (execChkConfig id s) :=
  onCmd_answers fun _ _ => checks_harmless (by simp) (.still ((succeed_still ..).trans (modEngine_still ..)))

theorem execChkRun_answers (id : CmdId) (s : State) : Answers s (execChkRun id s) := by
  unfold execChkRun
  exact onCmd_answers fun _ _ => checks_harmless (by simp) (.still (by
    split
    · exact xlateFault_still ..
    · exact (pushJob_still ..).trans ((accept_still ..).trans (noteWalks_still ..))))

theorem execChkRelease_answers (id : CmdId) (s : State) : Answers s (execChkRelease id s) :=
  onCmd_answers fun _ _ => checks_harmless (by simp) (.still ((settleRelease_still ..).trans ((foldl_still (h := fun _ _ =>
    completeJob_still ..) ..).trans ((modEngine_still ..).trans (accept_still ..)))))

theorem execChkJobEnd_answers (engine : Nat) (bus : Bus) (s : State) : Answers s (execChkJobEnd engine bus s) := by
  unfold execChkJobEnd
  split
  · exact .next (.refl _)
  · exact ite_answers (.next (.refl _)) (.next (.still ((settleRelease_still ..).trans ((modEngine_still ..).trans (by
          split
          · exact (endFrameJob_still ..).trans (ranInternal_still ..)
          · exact (endLoadJob_still ..).trans (ranInternal_still ..)
          · exact endRun_still ..)))))

/-! ### The domain -/

theorem execDomainJoin_answers (id : CmdId) (bus : Bus) (s : State) : Answers s (execDomainJoin id bus s) := by
  refine onCmd_answers fun c s => ?_
  extract_lets p len table
  refine checks_harmless (by simp) ?_
  split
  · exact .still (invalid_still ..)
  · have late (b : Bool) (l : List (Bool × (State → State))) : Harmless ((b, lateAnswer c s) :: l) ↔ Harmless l :=
      harmless_cons (lateAnswer_still c s) l
    refine checks_harmless (by simp [late]) (.still ?_)
    exact (complete_still ..).trans ((applyTable_still ..).trans (State.modDom_still ..))

theorem execDomainLeave_answers (id : CmdId) (s : State) : Answers s (execDomainLeave id s) := by
  refine onCmd_answers fun c s => checks_harmless (by simp) (.still ?_)
  extract_lets others s1 s2 s3 s4
  have told : s1.still = s.still := ite_still ((forEach_still _ _ _ fun _ _ => memberQpsError_still ..).trans (sendAll_still ..)) rfl
  have left : s2.still = s.still := (State.modDom_still ..).trans told
  clear_value s2
  have forgot : s3.still = s.still := ite_still left left
  clear_value s3
  exact (succeed_still ..).trans ((upCheck_still ..).trans (ite_still forgot forgot))

theorem execDomainStatus_answers (id : CmdId) (s : State) : Answers s (execDomainStatus id s) := by
  unfold execDomainStatus
  exact onCmd_answers fun _ _ => .still ((complete_still ..).trans (by
    split
    · exact emitData_still ..
    · exact rfl))

theorem execHeartbeatSend_answers (s : State) : Answers s (execHeartbeatSend s) :=
  onEvent_answers fun _ => .still ((forEach_still (h := fun _ _ => forEach_still (h := fun _ _ => sendBy_still ..) ..) ..).trans
    (State.modDom_still ..))

theorem execHeartbeatReceive_answers (h : MsgHead) (b : HbBody) (s : State) : Answers s (execHeartbeatReceive h b s) := by
  unfold execHeartbeatReceive
  exact ite_answers (.next (.still ((dropMsg_still ..).trans (idleExit_still ..)))) (ite_answers (.next (.still ((State.modDom_still
    ..).trans (ite_still ((eventAll_still ..).trans ((forEach_still (h := fun _ _ => memberQpsError_still ..) ..).trans (idleExit_still
    ..))) (idleExit_still ..))))) (.next (.still (ite_still ((seeSleep_still ..).trans (by
    split
    · exact ite_still ((judgeOffset_still ..).trans (by
            split
            · exact (comesUp_still ..).trans (ite_still ((lost_still ..).trans ((modPeer_still ..).trans (idleExit_still ..)))
                ((modPeer_still ..).trans (idleExit_still ..)))
            · exact (comesUp_still ..).trans (ite_still ((lost_still ..).trans ((modPeer_still ..).trans (idleExit_still ..)))
                ((modPeer_still ..).trans (idleExit_still ..)))
            · exact (comesUp_still ..).trans (ite_still ((lost_still ..).trans ((modPeer_still ..).trans (idleExit_still ..)))
                ((modPeer_still ..).trans (idleExit_still ..)))
            · exact (comesUp_still ..).trans (ite_still ((lost_still ..).trans ((modPeer_still ..).trans (idleExit_still ..)))
                ((modPeer_still ..).trans (idleExit_still ..)))
            · exact ite_still ((lost_still ..).trans ((modPeer_still ..).trans (idleExit_still ..))) ((modPeer_still ..).trans
                (idleExit_still ..)))) ((quarantine_still ..).trans ((judgeOffset_still ..).trans (by
            split
            · exact (comesUp_still ..).trans (ite_still ((lost_still ..).trans ((modPeer_still ..).trans (idleExit_still ..)))
                ((modPeer_still ..).trans (idleExit_still ..)))
            · exact (comesUp_still ..).trans (ite_still ((lost_still ..).trans ((modPeer_still ..).trans (idleExit_still ..)))
                ((modPeer_still ..).trans (idleExit_still ..)))
            · exact (comesUp_still ..).trans (ite_still ((lost_still ..).trans ((modPeer_still ..).trans (idleExit_still ..)))
                ((modPeer_still ..).trans (idleExit_still ..)))
            · exact (comesUp_still ..).trans (ite_still ((lost_still ..).trans ((modPeer_still ..).trans (idleExit_still ..)))
                ((modPeer_still ..).trans (idleExit_still ..)))
            · exact ite_still ((lost_still ..).trans ((modPeer_still ..).trans (idleExit_still ..))) ((modPeer_still ..).trans
                (idleExit_still ..)))))
    · exact ite_still (ite_still ((upCheck_still ..).trans ((eventAll_still ..).trans ((modPeer_still ..).trans ((judgeOffset_still
        ..).trans (by
            split
            · exact (comesUp_still ..).trans (ite_still ((lost_still ..).trans ((modPeer_still ..).trans (idleExit_still ..)))
                ((modPeer_still ..).trans (idleExit_still ..)))
            · exact (comesUp_still ..).trans (ite_still ((lost_still ..).trans ((modPeer_still ..).trans (idleExit_still ..)))
                ((modPeer_still ..).trans (idleExit_still ..)))
            · exact (comesUp_still ..).trans (ite_still ((lost_still ..).trans ((modPeer_still ..).trans (idleExit_still ..)))
                ((modPeer_still ..).trans (idleExit_still ..)))
            · exact (comesUp_still ..).trans (ite_still ((lost_still ..).trans ((modPeer_still ..).trans (idleExit_still ..)))
                ((modPeer_still ..).trans (idleExit_still ..)))
            · exact ite_still ((lost_still ..).trans ((modPeer_still ..).trans (idleExit_still ..))) ((modPeer_still ..).trans
                (idleExit_still ..))))))) ((modPeer_still ..).trans ((judgeOffset_still ..).trans (by
            split
            · exact (comesUp_still ..).trans (ite_still ((lost_still ..).trans ((modPeer_still ..).trans (idleExit_still ..)))
                ((modPeer_still ..).trans (idleExit_still ..)))
            · exact (comesUp_still ..).trans (ite_still ((lost_still ..).trans ((modPeer_still ..).trans (idleExit_still ..)))
                ((modPeer_still ..).trans (idleExit_still ..)))
            · exact (comesUp_still ..).trans (ite_still ((lost_still ..).trans ((modPeer_still ..).trans (idleExit_still ..)))
                ((modPeer_still ..).trans (idleExit_still ..)))
            · exact (comesUp_still ..).trans (ite_still ((lost_still ..).trans ((modPeer_still ..).trans (idleExit_still ..)))
                ((modPeer_still ..).trans (idleExit_still ..)))
            · exact ite_still ((lost_still ..).trans ((modPeer_still ..).trans (idleExit_still ..))) ((modPeer_still ..).trans
                (idleExit_still ..)))))) ((modPeer_still ..).trans ((judgeOffset_still ..).trans (by
            split
            · exact (comesUp_still ..).trans (ite_still ((lost_still ..).trans ((modPeer_still ..).trans (idleExit_still ..)))
                ((modPeer_still ..).trans (idleExit_still ..)))
            · exact (comesUp_still ..).trans (ite_still ((lost_still ..).trans ((modPeer_still ..).trans (idleExit_still ..)))
                ((modPeer_still ..).trans (idleExit_still ..)))
            · exact (comesUp_still ..).trans (ite_still ((lost_still ..).trans ((modPeer_still ..).trans (idleExit_still ..)))
                ((modPeer_still ..).trans (idleExit_still ..)))
            · exact (comesUp_still ..).trans (ite_still ((lost_still ..).trans ((modPeer_still ..).trans (idleExit_still ..)))
                ((modPeer_still ..).trans (idleExit_still ..)))
            · exact ite_still ((lost_still ..).trans ((modPeer_still ..).trans (idleExit_still ..))) ((modPeer_still ..).trans
                (idleExit_still ..)))))
    · exact (judgeOffset_still ..).trans (by
            split
            · exact (comesUp_still ..).trans (ite_still ((lost_still ..).trans ((modPeer_still ..).trans (idleExit_still ..)))
                ((modPeer_still ..).trans (idleExit_still ..)))
            · exact (comesUp_still ..).trans (ite_still ((lost_still ..).trans ((modPeer_still ..).trans (idleExit_still ..)))
                ((modPeer_still ..).trans (idleExit_still ..)))
            · exact (comesUp_still ..).trans (ite_still ((lost_still ..).trans ((modPeer_still ..).trans (idleExit_still ..)))
                ((modPeer_still ..).trans (idleExit_still ..)))
            · exact (comesUp_still ..).trans (ite_still ((lost_still ..).trans ((modPeer_still ..).trans (idleExit_still ..)))
                ((modPeer_still ..).trans (idleExit_still ..)))
            · exact ite_still ((lost_still ..).trans ((modPeer_still ..).trans (idleExit_still ..))) ((modPeer_still ..).trans
                (idleExit_still ..))))) (by
    split
    · exact ite_still ((judgeOffset_still ..).trans (by
            split
            · exact (comesUp_still ..).trans (ite_still ((lost_still ..).trans ((modPeer_still ..).trans (idleExit_still ..)))
                ((modPeer_still ..).trans (idleExit_still ..)))
            · exact (comesUp_still ..).trans (ite_still ((lost_still ..).trans ((modPeer_still ..).trans (idleExit_still ..)))
                ((modPeer_still ..).trans (idleExit_still ..)))
            · exact (comesUp_still ..).trans (ite_still ((lost_still ..).trans ((modPeer_still ..).trans (idleExit_still ..)))
                ((modPeer_still ..).trans (idleExit_still ..)))
            · exact (comesUp_still ..).trans (ite_still ((lost_still ..).trans ((modPeer_still ..).trans (idleExit_still ..)))
                ((modPeer_still ..).trans (idleExit_still ..)))
            · exact ite_still ((lost_still ..).trans ((modPeer_still ..).trans (idleExit_still ..))) ((modPeer_still ..).trans
                (idleExit_still ..)))) ((quarantine_still ..).trans ((judgeOffset_still ..).trans (by
            split
            · exact (comesUp_still ..).trans (ite_still ((lost_still ..).trans ((modPeer_still ..).trans (idleExit_still ..)))
                ((modPeer_still ..).trans (idleExit_still ..)))
            · exact (comesUp_still ..).trans (ite_still ((lost_still ..).trans ((modPeer_still ..).trans (idleExit_still ..)))
                ((modPeer_still ..).trans (idleExit_still ..)))
            · exact (comesUp_still ..).trans (ite_still ((lost_still ..).trans ((modPeer_still ..).trans (idleExit_still ..)))
                ((modPeer_still ..).trans (idleExit_still ..)))
            · exact (comesUp_still ..).trans (ite_still ((lost_still ..).trans ((modPeer_still ..).trans (idleExit_still ..)))
                ((modPeer_still ..).trans (idleExit_still ..)))
            · exact ite_still ((lost_still ..).trans ((modPeer_still ..).trans (idleExit_still ..))) ((modPeer_still ..).trans
                (idleExit_still ..)))))
    · exact ite_still (ite_still ((upCheck_still ..).trans ((eventAll_still ..).trans ((modPeer_still ..).trans ((judgeOffset_still
        ..).trans (by
            split
            · exact (comesUp_still ..).trans (ite_still ((lost_still ..).trans ((modPeer_still ..).trans (idleExit_still ..)))
                ((modPeer_still ..).trans (idleExit_still ..)))
            · exact (comesUp_still ..).trans (ite_still ((lost_still ..).trans ((modPeer_still ..).trans (idleExit_still ..)))
                ((modPeer_still ..).trans (idleExit_still ..)))
            · exact (comesUp_still ..).trans (ite_still ((lost_still ..).trans ((modPeer_still ..).trans (idleExit_still ..)))
                ((modPeer_still ..).trans (idleExit_still ..)))
            · exact (comesUp_still ..).trans (ite_still ((lost_still ..).trans ((modPeer_still ..).trans (idleExit_still ..)))
                ((modPeer_still ..).trans (idleExit_still ..)))
            · exact ite_still ((lost_still ..).trans ((modPeer_still ..).trans (idleExit_still ..))) ((modPeer_still ..).trans
                (idleExit_still ..))))))) ((modPeer_still ..).trans ((judgeOffset_still ..).trans (by
            split
            · exact (comesUp_still ..).trans (ite_still ((lost_still ..).trans ((modPeer_still ..).trans (idleExit_still ..)))
                ((modPeer_still ..).trans (idleExit_still ..)))
            · exact (comesUp_still ..).trans (ite_still ((lost_still ..).trans ((modPeer_still ..).trans (idleExit_still ..)))
                ((modPeer_still ..).trans (idleExit_still ..)))
            · exact (comesUp_still ..).trans (ite_still ((lost_still ..).trans ((modPeer_still ..).trans (idleExit_still ..)))
                ((modPeer_still ..).trans (idleExit_still ..)))
            · exact (comesUp_still ..).trans (ite_still ((lost_still ..).trans ((modPeer_still ..).trans (idleExit_still ..)))
                ((modPeer_still ..).trans (idleExit_still ..)))
            · exact ite_still ((lost_still ..).trans ((modPeer_still ..).trans (idleExit_still ..))) ((modPeer_still ..).trans
                (idleExit_still ..)))))) ((modPeer_still ..).trans ((judgeOffset_still ..).trans (by
            split
            · exact (comesUp_still ..).trans (ite_still ((lost_still ..).trans ((modPeer_still ..).trans (idleExit_still ..)))
                ((modPeer_still ..).trans (idleExit_still ..)))
            · exact (comesUp_still ..).trans (ite_still ((lost_still ..).trans ((modPeer_still ..).trans (idleExit_still ..)))
                ((modPeer_still ..).trans (idleExit_still ..)))
            · exact (comesUp_still ..).trans (ite_still ((lost_still ..).trans ((modPeer_still ..).trans (idleExit_still ..)))
                ((modPeer_still ..).trans (idleExit_still ..)))
            · exact (comesUp_still ..).trans (ite_still ((lost_still ..).trans ((modPeer_still ..).trans (idleExit_still ..)))
                ((modPeer_still ..).trans (idleExit_still ..)))
            · exact ite_still ((lost_still ..).trans ((modPeer_still ..).trans (idleExit_still ..))) ((modPeer_still ..).trans
                (idleExit_still ..)))))
    · exact (judgeOffset_still ..).trans (by
            split
            · exact (comesUp_still ..).trans (ite_still ((lost_still ..).trans ((modPeer_still ..).trans (idleExit_still ..)))
                ((modPeer_still ..).trans (idleExit_still ..)))
            · exact (comesUp_still ..).trans (ite_still ((lost_still ..).trans ((modPeer_still ..).trans (idleExit_still ..)))
                ((modPeer_still ..).trans (idleExit_still ..)))
            · exact (comesUp_still ..).trans (ite_still ((lost_still ..).trans ((modPeer_still ..).trans (idleExit_still ..)))
                ((modPeer_still ..).trans (idleExit_still ..)))
            · exact (comesUp_still ..).trans (ite_still ((lost_still ..).trans ((modPeer_still ..).trans (idleExit_still ..)))
                ((modPeer_still ..).trans (idleExit_still ..)))
            · exact ite_still ((lost_still ..).trans ((modPeer_still ..).trans (idleExit_still ..))) ((modPeer_still ..).trans
                (idleExit_still ..))))))))

theorem execPeerSuspectTimeout_answers (m : Nat) (s : State) : Answers s (execPeerSuspectTimeout m s) := by
  unfold execPeerSuspectTimeout
  exact onEvent_answers fun _ => .still ((upCheck_still ..).trans ((sendAll_still ..).trans ((raisePf_still ..).trans (modPeer_still ..))))

theorem execPeerLostTimeout_answers (m : Nat) (s : State) : Answers s (execPeerLostTimeout m s) :=
  onEvent_answers fun _ => .still (lost_still ..)

theorem execSuspectReceive_answers (h : MsgHead) (member : Nat) (s : State) : Answers s (execSuspectReceive h member s) :=
  ite_answers (.next (.still ((dropMsg_still ..).trans (idleExit_still ..)))) (ite_answers (.next (.still (idleExit_still ..))) (.next
    (.still ((modPeer_still ..).trans (idleExit_still ..)))))

theorem execLeaveReceive_answers (h : MsgHead) (force : Bool) (s : State) : Answers s (execLeaveReceive h force s) :=
  ite_answers (.next (.still ((dropMsg_still ..).trans (idleExit_still ..)))) (.next (.still ((upCheck_still ..).trans ((modPeer_still
    ..).trans (ite_still ((lost_still ..).trans (idleExit_still ..)) (idleExit_still ..))))))

theorem execDuplicateClearTimeout_answers (s : State) : Answers s (execDuplicateClearTimeout s) := onEvent_answers fun _ => .still rfl

theorem execCommandReceive_answers (h : MsgHead) (fn : Nat) (pkt : List Word) (env : Option Envelope) (data : List Byte)
    (part : Option (Nat × Nat × Nat)) (s : State) : Answers s (execCommandReceive h fn pkt env data part s) := by
  unfold execCommandReceive
  extract_lets
  split
  · exact .next (.still ((runCommand_still ..).trans (idleExit_still ..)))
  · extract_lets
    split
    · exact ite_answers (.next (.still ((runCommand_still ..).trans (idleExit_still ..)))) (ite_answers (.next (.still ((dropMsg_still
        ..).trans (idleExit_still ..)))) (.next (.still ((State.modDom_still ..).trans (idleExit_still ..)))))
    · exact ite_answers (.next (.still ((runCommand_still ..).trans ((State.modDom_still ..).trans (idleExit_still ..))))) (.next (.still
        ((State.modDom_still ..).trans (idleExit_still ..))))

theorem execReassemblyTimeout_answers (src : Source) (seq : Nat) (s : State) : Answers s (execReassemblyTimeout src seq s) := by
  unfold execReassemblyTimeout
  split
  · exact .next (.refl _)
  · exact onEvent_answers fun _ => .still ((dropMsg_still ..).trans (State.modDom_still ..))

theorem execReplyReceive_answers (h : MsgHead) (fn tag status result result2 : Nat) (retained : Bool) (s : State) : Answers s
  (execReplyReceive h fn tag status result result2 retained s) := by
  unfold execReplyReceive
  exact ite_answers (.next (.still ((dropMsg_still ..).trans (idleExit_still ..)))) (by
    split
    · exact .next (.still (idleExit_still ..))
    · split
      · exact .next (.still ((completeK_still ..).trans ((noteRecord_still ..).trans (idleExit_still ..))))
      · exact .next (.still (idleExit_still ..)))

theorem execForwardTimeout_answers (id : CmdId) (s : State) : Answers s (execForwardTimeout id s) := by
  unfold execForwardTimeout
  split
  · exact .next (.refl _)
  · split
    · exact onEvent_answers fun _ => .still ((complete_still ..).trans (State.modDom_still ..))
    · exact .next (.refl _)

theorem execNoMasterTimeout_answers (s : State) : Answers s (execNoMasterTimeout s) :=
  onEvent_answers fun _ => .still ((judgeTime_still ..).trans (State.modDom_still ..))

theorem execHoldoverSuspectTimeout_answers (s : State) : Answers s (execHoldoverSuspectTimeout s) :=
  onEvent_answers fun _ => .still ((judgeTime_still ..).trans (State.modDom_still ..))

/-! ### The tray -/

theorem execTrayStatus_answers (id : CmdId) (s : State) : Answers s (execTrayStatus id s) :=
  trayMail_answers fun _ _ _ => .still (complete_still ..)

theorem execTrayVerify_answers (id : CmdId) (s : State) : Answers s (execTrayVerify id s) :=
  trayMail_answers fun _ _ _ => .still (ite_still (complete_still ..) ((startVerify_still ..).trans ((accept_still ..).trans (modPos_still
    ..))))

theorem execPositionPresentConfirm_answers (n : Nat) (s : State) : Answers s (execPositionPresentConfirm n s) :=
  onEvent_answers fun _ => (calm_modBrk_same rfl rfl rfl).trans (.still (ite_still ((modPos_still ..).trans (mwAct_still ..)) rfl))

theorem execPositionVerify_answers (n : Nat) (released recovery : Bool) (svn : Option Nat) (s : State) :
    Answers s (execPositionVerify n released recovery svn s) :=
  onTray_answers fun _ => .still ((startVerify_still ..).trans (modPos_still ..))

theorem execVerifyEnd_answers (n : Nat) (f : Option Flashes) (s : State) : Answers s (execVerifyEnd n f s) := by
  unfold execVerifyEnd
  exact onTray_answers fun _ => .still (by
    split
    · exact flashFails_still ..
    · exact (endVerifies_still ..).trans (actOn_still ..))

theorem execReflashEnd_answers (n : Nat) (okP okG : Option Bool) (s : State) : Answers s (execReflashEnd n okP okG s) :=
  onTray_answers fun _ => .still (ite_still (flashFails_still ..) ((modPos_still ..).trans ((reflashed_still ..).trans (reflashed_still
    ..))))

theorem execReflashWindowExpiry_answers (n : Nat) (s : State) : Answers s (execReflashWindowExpiry n s) :=
  onTray_answers fun _ => .still (modPos_still ..)

theorem execSidebandInBandInterrupt_answers (n : Nat) (recovery : Bool) (s : State) : Answers s (execSidebandInBandInterrupt n recovery s)
  :=
  onTray_answers fun _ => .still (modPos_still ..)

theorem execSidebandRelease_answers (s : State) : Answers s (execSidebandRelease s) := onEvent_answers fun _ => .still rfl

theorem execSidebandResume_answers (s : State) : Answers s (execSidebandResume s) := onEvent_answers fun _ => .still (takeBack_still ..)

theorem execReleaseTimeout_answers (s : State) : Answers s (execReleaseTimeout s) := onEvent_answers fun _ => .still (takeBack_still ..)

theorem execSidebandStatusRead_answers (s : State) : Answers s (execSidebandStatusRead s) :=
  onEvent_answers fun _ => .still (emit_still ..)

/-! ### The brake path, valves and slots -/

theorem execLeakSample_answers (ch pos neg : Nat) (rb : Bool) (s : State) : Answers s (execLeakSample ch pos neg rb s) :=
  onAo_answers fun _ => takeSample_calm ..

theorem execSettleWindowEnd_answers (s : State) : Answers s (execSettleWindowEnd s) :=
  onAo_answers fun _ => (calm_modBrk_same rfl rfl rfl).trans ((forEach_calm (h := fun _ _ => ite_calm (leakChanged_calm ..) (.refl _))
    ..).trans ((calm_modBrk_same rfl rfl rfl).trans ((ite_calm (releaseBrake_calm ..) (.refl _)).trans (brakeSeen_calm ..))))

theorem execBlankInRise_answers (s : State) : Answers s (execBlankInRise s) :=
  onAo_answers fun _ => (calm_modBrk_same rfl rfl rfl).trans (openBlank_calm ..)

theorem execBlankInFall_answers (s : State) : Answers s (execBlankInFall s) :=
  onAo_answers fun _ => (calm_modBrk_same rfl rfl rfl).trans (settleBlank_calm ..)

theorem execBlankCapExpiry_answers (s : State) : Answers s (execBlankCapExpiry s) := by
  unfold execBlankCapExpiry
  split
  · exact .next (.refl _)
  · exact onAo_answers fun _ => (closeBlank_calm ..).trans (brkEvent_calm ..)

theorem execBlankGuardEnd_answers (s : State) : Answers s (execBlankGuardEnd s) :=
  onAo_answers fun _ => (calm_modBrk_same rfl rfl rfl).trans (openBlank_calm ..)

theorem execInterlockContactChange_answers (i : Nat) (second closed : Bool) (s : State) :
    Answers s (execInterlockContactChange i second closed s) :=
  onAo_answers fun _ => contactChange_calm ..

theorem execDiscrepancyTimeout_answers (i : Nat) (s : State) : Answers s (execDiscrepancyTimeout i s) :=
  onAo_answers fun _ => (discTimeout_calm ..).trans (brakeSeen_calm ..)

theorem execInterlockFaultClear_answers (i : Nat) (s : State) : Answers s (execInterlockFaultClear i s) :=
  onAo_answers fun _ => (setIlk_calm ..).trans (brakeSeen_calm ..)

theorem execOutputCheckFault_answers (pins : Nat) (s : State) : Answers s (execOutputCheckFault pins s) :=
  onAo_answers fun _ => ((calm_modBrk_same rfl rfl rfl).trans (forEach_calm (h := fun _ _ => brakeCause_calm ..) ..)).trans
    (afterCause_calm ..)

theorem execConfigParityError_answers (s : State) : Answers s (execConfigParityError s) :=
  onAo_answers fun _ => (adopt_calm ..).trans ((calm_modBrk_same rfl rfl rfl).trans ((brakeCause_calm ..).trans (afterCause_calm ..)))

theorem execHoldSupplyLoss_answers (lost : Bool) (s : State) : Answers s (execHoldSupplyLoss lost s) :=
  onAo_answers fun _ => (calm_modBrk_same rfl rfl rfl).trans (ite_calm ((brakeCause_calm ..).trans (afterCause_calm ..)) (watchHold_calm
    ..))

theorem execBrakeRstFall_answers (s : State) : Answers s (execBrakeRstFall s) := onAo_answers fun _ => calm_modBrk_same rfl rfl rfl

theorem execBrakeRstRise_answers (s : State) : Answers s (execBrakeRstRise s) := by
  unfold execBrakeRstRise
  split
  · exact onAo_answers fun _ => (calm_modBrk_same rfl rfl rfl).trans (brkEvent_calm ..)
  · exact onAo_answers fun _ => (calm_modBrk_same rfl rfl rfl).trans (ite_calm (acceptHold_calm ..) (brkEvent_calm ..))

theorem execBrakeRstStuck_answers (s : State) : Answers s (execBrakeRstStuck s) := onAo_answers fun _ => calm_modBrk_same rfl rfl rfl

theorem execBrakeStatus_answers (id : CmdId) (s : State) : Answers s (execBrakeStatus id s) :=
  mailbox_answers fun _ _ => .still (complete_still ..)

theorem execBrakePending_answers (id : CmdId) (s : State) : Answers s (execBrakePending id s) :=
  mailbox_answers fun _ _ => checks_harmless (by simp) (ite_calm ((writePending_calm ..).trans (.still (succeed_still ..)))
    ((writePending_calm ..).trans (.still (invalid_still ..))))

theorem execValveSet_answers (id : CmdId) (s : State) : Answers s (execValveSet id s) := by
  refine mailbox_answers fun c s => checks_harmless (by simp) ?_
  split
  · exact valveOn_calm ..
  · exact valveOff_calm ..

theorem execValveQuery_answers (id : CmdId) (s : State) : Answers s (execValveQuery id s) :=
  mailbox_answers fun _ _ => .still (complete_still ..)

theorem execValveConfig_answers (id : CmdId) (s : State) : Answers s (execValveConfig id s) :=
  mailbox_answers fun _ _ => checks_harmless (by simp) (ite_calm ((writeValveCfg_calm ..).trans (.still (succeed_still ..)))
    ((writeValveCfg_calm ..).trans (.still (stallOr_still ..))))

theorem execValvePullinEnd_answers (n : Nat) (s : State) : Answers s (execValvePullinEnd n s) :=
  onAo_answers fun _ => (((setValve_calm ..).trans (answerValve_calm ..)).trans (settleBlank_calm ..)).trans (startDeferred_calm ..)

theorem execValveDeferTimeout_answers (n : Nat) (s : State) : Answers s (execValveDeferTimeout n s) :=
  onAo_answers fun _ => (startDeferred_calm ..).trans (ite_calm ((setValve_calm ..).trans (answerValve_calm ..)) (.refl _))

theorem execHsFault_answers (g : Nat) (s : State) : Answers s (execHsFault g s) :=
  onAo_answers fun _ => ((calm_modBrk_same rfl rfl rfl).trans (brkEvent_calm ..)).trans (((forEach_calm (h := fun _ _ => (setValve_calm
    ..).trans (answerValve_calm ..)) ..).trans (settleBlank_calm ..)).trans (startDeferred_calm ..))

theorem execHsFaultClear_answers (g : Nat) (s : State) : Answers s (execHsFaultClear g s) :=
  onAo_answers fun _ => (calm_modBrk_same rfl rfl rfl).trans (startDeferred_calm ..)

/-- As `checks_harmless`, of a row whose effect rests on its checks. -/
theorem checks_harmless_passing {l : List (Bool × (State → State))} {k : State → State} {s : State} (h : Harmless l)
    (hk : passes l = true → Calm s (k s)) : Calm s (checks l k s) := by
  by_cases p : passes l = true
  · exact checks_harmless h (hk p)
  · clear hk
    induction l with
    | nil => exact absurd rfl p
    | cons e l ih =>
      obtain ⟨b, f⟩ := e
      unfold checks
      split
      · exact .still (h (b, f) (.head l) s)
      · rename_i hb
        exact ih (fun d hd => h d (.tail _ hd)) (by simpa [passes, hb] using p)

theorem execSlotSetEnable_answers (id : CmdId) (s : State) : Answers s (execSlotSetEnable id s) := by
  refine slotSet_answers fun c n s => ?_
  split
  · exact .still (succeed_still ..)
  · exact waitSlot_calm ..
  · refine checks_harmless_passing (by simp) fun pass => ?_
    have released : s.brk.set = false := by
      simp only [passes, deny, List.all_cons, Bool.and_eq_true, Bool.not_eq_true'] at pass
      exact pass.2.1
    refine (calm_modBrk_same rfl rfl rfl).trans ((setSlot_calm (.inr (.inr fun _ _ => ?_))).trans (waitSlot_calm ..))
    exact released

theorem execSlotSetDisable_answers (id : CmdId) (s : State) : Answers s (execSlotSetDisable id s) :=
  slotSet_answers fun _ _ _ => (((calm_modBrk_same rfl rfl rfl).trans (setSlot_calm (.inl rfl))).trans (answerSlot_calm ..)).trans
    (ite_calm (waitSlot_calm ..) (.still (succeed_still ..)))

/-- The good-power input of a slot is no part of what makes the brake path safe. -/
theorem slotPg_calm (n : Nat) (pg : Bool) (s : State) :
    Calm s (s.modBrk fun b => { b with slots := b.slots.alter n {} fun v => { v with pg } }) := by
  refine calm_modBrk rfl rfl fun k => ?_
  simp only [Tbl.getD_alter]
  split
  · rename_i h; subst h; rfl
  · rfl

/-- A slot that is POWERING may come on: with a safe brake path it would be off were the brake set (R469). -/
theorem setSlot_on_calm {n : Nat} {s : State} (h : (slotOf s n).state = .powering) : Calm s (setSlot n .on s) := by
  refine setSlot_calm (.inr (.inr fun safe hn => ?_))
  by_contra set
  rcases safe.2 (Bool.of_not_eq_false set) n hn with off | fault
  · exact absurd (h.symm.trans off) (by decide)
  · exact absurd (h.symm.trans fault) (by decide)

theorem execSlotPgRise_answers (n : Nat) (s : State) : Answers s (execSlotPgRise n s) := by
  refine onAo_answers fun s => (slotPg_calm n true s).trans ?_
  dsimp only
  split
  · rename_i powering
    have on := (setSlot_on_calm powering).trans (answerSlot_calm n true .success 0 0 _)
    exact ite_calm (on.trans (.still (emit_still ..))) on
  · exact .refl _

theorem execSlotPgFall_answers (n : Nat) (s : State) : Answers s (execSlotPgFall n s) :=
  onAo_answers fun s => (slotPg_calm n false s).trans (answerSlot_calm ..)

theorem execSlotPoweringTimeout_answers (n : Nat) (s : State) : Answers s (execSlotPoweringTimeout n s) :=
  onAo_answers fun _ => (setSlot_calm (.inr (.inl rfl))).trans (answerSlot_calm ..)

theorem execSlotDisableTimeout_answers (n : Nat) (s : State) : Answers s (execSlotDisableTimeout n s) :=
  onAo_answers fun _ => answerSlots_calm ..

theorem execSlotPgLoss_answers (n : Nat) (s : State) : Answers s (execSlotPgLoss n s) :=
  onAo_answers fun s => (slotPg_calm n false s).trans (setSlot_calm (.inr (.inl rfl)))

theorem execSlotPrsntLoss_answers (n : Nat) (s : State) : Answers s (execSlotPrsntLoss n s) :=
  onAo_answers fun _ => (calm_modBrk_same rfl rfl rfl).trans (((setSlot_calm (.inl rfl)).trans (answerSlot_calm ..)).trans (.still
    ((endVerifies_still ..).trans (modPos_still ..))))

theorem execSlotQuery_answers (id : CmdId) (s : State) : Answers s (execSlotQuery id s) :=
  mailbox_answers fun _ _ => .still (complete_still ..)

theorem execSlotSelf_answers (id : CmdId) (s : State) : Answers s (execSlotSelf id s) :=
  mailbox_answers fun _ _ => checks_harmless (by simp) (.still ((succeed_still ..).trans (State.modMwr_still ..)))

/-! ### USB -/

theorem execUsbSubmit_answers (tag : Nat) (pkt : List Word) (input : List Byte) (s : State) : Answers s (execUsbSubmit tag pkt input s) :=
  onEvent_answers fun _ => .still (ite_still (emit_still ..) ((arrive_still ..).trans ((idleExit_still ..).trans (configured_still ..))))

theorem execUsbFetch_answers (tag m : Nat) (s : State) : Answers s (execUsbFetch tag m s) := by
  unfold execUsbFetch
  exact onEvent_answers fun _ => .still (ite_still ((emit_still ..).trans (configured_still ..)) (by
    split
    · exact (emit_still ..).trans ((State.modUsb_still ..).trans (configured_still ..))
    · exact (emit_still ..).trans (configured_still ..)))

theorem execUsbBusReset_answers (s : State) : Answers s (execUsbBusReset s) :=
  onEvent_answers fun _ => .still ((raisePf_still ..).trans ((State.modHif_still ..).trans ((State.modUsb_still ..).trans (foldl_still (h
    := fun _ _ => retain_still ..) ..))))

theorem execUsbEnableWrite_answers (val : Nat) (s : State) : Answers s (execUsbEnableWrite val s) := onEvent_answers fun _ => .still rfl

/-! ### Monitors -/

theorem execMonConfig_answers (id : CmdId) (bus : Bus) (s : State) : Answers s (execMonConfig id bus s) := by
  unfold execMonConfig
  exact onCmd_answers fun _ _ => checks_harmless (by simp) (ite_calm (.still ((succeed_still ..).trans (State.modEvt_still ..)))
    (checks_harmless (by simp) (.still (ite_still (by
    split
    · exact xlateFault_still ..
    · exact ite_still ((complete_still ..).trans ((readRuns_still ..).trans (noteWalks_still ..))) (ite_still ((succeed_still ..).trans
        ((State.modEvt_still ..).trans ((readRuns_still ..).trans (noteWalks_still ..)))) ((invalid_still ..).trans ((readRuns_still
        ..).trans (noteWalks_still ..))))) ((succeed_still ..).trans (State.modEvt_still ..))))))

theorem execMonSnapshot_answers (id : CmdId) (s : State) : Answers s (execMonSnapshot id s) := by
  refine onCmd_answers fun c s => checks_harmless (by simp) (.still ?_)
  exact (complete_still ..).trans ((forEach_still _ _ _ fun _ _ => State.modEvt_still ..).trans ((emitData_still ..).trans
    (drainMons_still ..)))

theorem execMonClear_answers (id : CmdId) (s : State) : Answers s (execMonClear id s) :=
  onCmd_answers fun c s => checks_harmless (by simp) (.still ((succeed_still ..).trans
    ((forEach_still _ _ _ fun _ _ => State.modEvt_still ..).trans (drainMons_still ..))))

theorem execMonitorPeriodExpiry_answers (m reading : Nat) (s : State) : Answers s (execMonitorPeriodExpiry m reading s) := by
  unfold execMonitorPeriodExpiry
  split
  · exact .next (.refl _)
  · exact onEvent_answers fun _ => .still rfl

end Sys2Proof.Machine
end

section
/-! PROOFS. Every command answers, and every step keeps the brake path safe (16 R461, R469, log entries 1, 2, 80). -/

namespace Sys2Proof.Machine

/-- Every command answers. -/
theorem exec_answers (c : Instr) (s : State) : Answers s (exec c s) := by
  cases c with
  | coldReset pop => exact execColdReset_answers pop s
  | roleFillEnd => exact execRoleFillEnd_answers s
  | warmReset => exact execWarmReset_answers s
  | perstNDeassert => exact execPerstNDeassert_answers s
  | ctlPlaneReset by_ => exact execCtlPlaneReset_answers by_ s
  | datPlaneReset by_ => exact execDatPlaneReset_answers by_ s
  | mgtPlaneReset by_ => exact execMgtPlaneReset_answers by_ s
  | ctlResetEnd => exact execCtlResetEnd_answers s
  | datResetEnd => exact execDatResetEnd_answers s
  | mwRestart => exact execMwRestart_answers s
  | recoverySpiRelease => exact execRecoverySpiRelease_answers s
  | lockstepMismatch cls => exact execLockstepMismatch_answers cls s
  | watchdogExpiry => exact execWatchdogExpiry_answers s
  | watchdogKick val => exact execWatchdogKick_answers val s
  | datNoProgressTimeout source => exact execDatNoProgressTimeout_answers source s
  | mwForwardedCommand => exact execMwForwardedCommand_answers s
  | forwardedCompletion => exact execForwardedCompletion_answers s
  | powerNotice => exact execPowerNotice_answers s
  | whlHeartbeatSend => exact execWhlHeartbeatSend_answers s
  | whlHeartbeatReceive => exact execWhlHeartbeatReceive_answers s
  | ctlHeartbeatLost => exact execCtlHeartbeatLost_answers s
  | headroomGrant => exact execHeadroomGrant_answers s
  | grantLapse => exact execGrantLapse_answers s
  | domainTimeAdjustment servo offset synced => exact execDomainTimeAdjustment_answers servo offset synced s
  | domainAgentSleepVote post => exact execDomainAgentSleepVote_answers post s
  | errorRecordMessage => exact execErrorRecordMessage_answers s
  | planeFatalNotice => exact execPlaneFatalNotice_answers s
  | sensorRequest post => exact execSensorRequest_answers post s
  | stoneFenceRequest stone floor => exact execStoneFenceRequest_answers stone floor s
  | portModeRequest p mode retrain => exact execPortModeRequest_answers p mode retrain s
  | dimmBistRequest pair => exact execDimmBistRequest_answers pair s
  | sqTailDoorbell fn idx val => exact execSqTailDoorbell_answers fn idx val s
  | cqHeadDoorbell fn idx val => exact execCqHeadDoorbell_answers fn idx val s
  | commandFetch sq f attachment => exact execCommandFetch_answers sq f attachment s
  | fencedCommandStart id => exact execFencedCommandStart_answers id s
  | stallResume id => exact execStallResume_answers id s
  | stallTimeout id => exact execStallTimeout_answers id s
  | cqCoalesceTimeout cq => exact execCqCoalesceTimeout_answers cq s
  | queueCreate fn => exact execQueueCreate_answers fn s
  | queueDelete fn => exact execQueueDelete_answers fn s
  | sqDeleteDone sq => exact execSqDeleteDone_answers sq s
  | vfQrangeWrite fn n val => exact execVfQrangeWrite_answers fn n val s
  | registerWrite by_ off val => exact execRegisterWrite_answers by_ off val s
  | flrVf n => exact execFlrVf_answers n s
  | flrPf => exact execFlrPf_answers s
  | pcieHotReset => exact execPcieHotReset_answers s
  | nop id => exact execNop_answers id s
  | identify id => exact execIdentify_answers id s
  | getLog id => exact execGetLog_answers id s
  | eventWaitTimeout id => exact execEventWaitTimeout_answers id s
  | setFeature id => exact execSetFeature_answers id s
  | getFeature id => exact execGetFeature_answers id s
  | abort id => exact execAbort_answers id s
  | raceOpen id => exact execRaceOpen_answers id s
  | raceClose id => exact execRaceClose_answers id s
  | raceAnchor id => exact execRaceAnchor_answers id s
  | playoutReport id => exact execPlayoutReport_answers id s
  | cogSet id => exact execCogSet_answers id s
  | cogClear id => exact execCogClear_answers id s
  | raceQuery id => exact execRaceQuery_answers id s
  | ingressSeqWrite race slot seq => exact execIngressSeqWrite_answers race slot seq s
  | reportSlotWrite race w => exact execReportSlotWrite_answers race w s
  | tailReadSeqWrite race seq => exact execTailReadSeqWrite_answers race seq s
  | wheelhouseTick ue => exact execWheelhouseTick_answers ue s
  | cogDueExpiry race slot => exact execCogDueExpiry_answers race slot s
  | dryDueExpiry race => exact execDryDueExpiry_answers race s
  | turnBegin id => exact execTurnBegin_answers id s
  | sailRaise id => exact execSailRaise_answers id s
  | sailSet id => exact execSailSet_answers id s
  | sailFurl id => exact execSailFurl_answers id s
  | turnEnd id => exact execTurnEnd_answers id s
  | furlStonesIdle turn sail => exact execFurlStonesIdle_answers turn sail s
  | sailDrainEnd turn sail => exact execSailDrainEnd_answers turn sail s
  | arenaZeroFillEnd offset => exact execArenaZeroFillEnd_answers offset s
  | tailFrameRelease turn sail => exact execTailFrameRelease_answers turn sail s
  | heldWriteRelease turn sail failure => exact execHeldWriteRelease_answers turn sail failure s
  | imageLoad id bus => exact execImageLoad_answers id bus s
  | imageUnload id => exact execImageUnload_answers id s
  | imageQuery id => exact execImageQuery_answers id s
  | chainBind id bus => exact execChainBind_answers id bus s
  | chainUnbind id => exact execChainUnbind_answers id s
  | stoneFence id => exact execStoneFence_answers id s
  | stoneReinstate id => exact execStoneReinstate_answers id s
  | reinstateBistEnd stone pass => exact execReinstateBistEnd_answers stone pass s
  | matmul item stone fx => exact execMatmul_answers item stone fx s
  | matmulAcc item stone fx => exact execMatmulAcc_answers item stone fx s
  | gangFaultDrainEnd item => exact execGangFaultDrainEnd_answers item s
  | dmaRead item stone bus bin => exact execDmaRead_answers item stone bus bin s
  | dmaWrite item stone bin => exact execDmaWrite_answers item stone bin s
  | dmaTailFrame item stone last => exact execDmaTailFrame_answers item stone last s
  | dmaVoiced item stone => exact execDmaVoiced_answers item stone s
  | dmaDescriptorDone item stone => exact execDmaDescriptorDone_answers item stone s
  | spurSend item stone send => exact execSpurSend_answers item stone send s
  | gristBoundary item site => exact execGristBoundary_answers item site s
  | yieldSaveDone item => exact execYieldSaveDone_answers item s
  | gristOverdue item => exact execGristOverdue_answers item s
  | stageHalt item => exact execStageHalt_answers item s
  | map id => exact execMap_answers id s
  | unmap id => exact execUnmap_answers id s
  | unmapDestroy id => exact execUnmapDestroy_answers id s
  | xlateInvalidate id => exact execXlateInvalidate_answers id s
  | invalidateDrainEnd id => exact execInvalidateDrainEnd_answers id s
  | copy id => exact execCopy_answers id s
  | copyDone id bus => exact execCopyDone_answers id bus s
  | bar4Write fn off data => exact execBar4Write_answers fn off data s
  | bar4Read fn off n bus => exact execBar4Read_answers fn off n bus s
  | hopperReadComplete race slot off r => exact execHopperReadComplete_answers race slot off r s
  | ddrPairFault pair reason => exact execDdrPairFault_answers pair reason s
  | ddrBistFillEnd pair pass => exact execDdrBistFillEnd_answers pair pass s
  | patrolScrub ch errs => exact execPatrolScrub_answers ch errs s
  | memProbe val => exact execMemProbe_answers val s
  | partialWrite inst word lanes who => exact execPartialWrite_answers inst word lanes who s
  | mergeAgeFlush inst group => exact execMergeAgeFlush_answers inst group s
  | mergeIdleFlush inst group => exact execMergeIdleFlush_answers inst group s
  | fullWordWrite inst word data => exact execFullWordWrite_answers inst word data s
  | spareRemap inst group => exact execSpareRemap_answers inst group s
  | scrubVisit inst group dflips cflips copies => exact execScrubVisit_answers inst group dflips cflips copies s
  | scrubLapLimitExpiry inst => exact execScrubLapLimitExpiry_answers inst s
  | ocpInjectArm fn val => exact execOcpInjectArm_answers fn val s
  | ocpRemapLoad val => exact execOcpRemapLoad_answers val s
  | portMode id => exact execPortMode_answers id s
  | portRetrain id => exact execPortRetrain_answers id s
  | flitSend p packets => exact execFlitSend_answers p packets s
  | flitReceive p lanes => exact execFlitReceive_answers p lanes s
  | nakResendTimeout p seq => exact execNakResendTimeout_answers p seq s
  | retryWindowExpiry p => exact execRetryWindowExpiry_answers p s
  | lossOfSignal p => exact execLossOfSignal_answers p s
  | ethLinkFault p => exact execEthLinkFault_answers p s
  | trainingPrbsPass p => exact execTrainingPrbsPass_answers p s
  | trainingTimeout p => exact execTrainingTimeout_answers p s
  | paramExchange p x => exact execParamExchange_answers p x s
  | holdExpiry p => exact execHoldExpiry_answers p s
  | ethLinkUp p => exact execEthLinkUp_answers p s
  | ethFrameReceive p x => exact execEthFrameReceive_answers p x s
  | rocePacketReceive r => exact execRocePacketReceive_answers r s
  | cnpReceive q => exact execCnpReceive_answers q s
  | ccPeriodExpiry q => exact execCcPeriodExpiry_answers q s
  | ptpMessage p rawStamp fromMaster => exact execPtpMessage_answers p rawStamp fromMaster s
  | qpCreate id => exact execQpCreate_answers id s
  | qpModifyReset id => exact execQpModifyReset_answers id s
  | qpModifyInit id => exact execQpModifyInit_answers id s
  | qpModifyRtr id => exact execQpModifyRtr_answers id s
  | qpModifyRts id => exact execQpModifyRts_answers id s
  | qpModifyMove id => exact execQpModifyMove_answers id s
  | qpModifyDrain id => exact execQpModifyDrain_answers id s
  | qpModifyError id => exact execQpModifyError_answers id s
  | qpDrainEnd q => exact execQpDrainEnd_answers q s
  | qpDestroy id => exact execQpDestroy_answers id s
  | srqCreate id => exact execSrqCreate_answers id s
  | srqSetLimit id => exact execSrqSetLimit_answers id s
  | cqCreate id => exact execCqCreate_answers id s
  | cqDestroy id => exact execCqDestroy_answers id s
  | mrRegister id => exact execMrRegister_answers id s
  | mrDeregister id => exact execMrDeregister_answers id s
  | windowBind id bus => exact execWindowBind_answers id bus s
  | windowUnbind id => exact execWindowUnbind_answers id s
  | rdmaSqDoorbell fn val bus => exact execRdmaSqDoorbell_answers fn val bus s
  | rdmaRqDoorbell fn val bus => exact execRdmaRqDoorbell_answers fn val bus s
  | rdmaSrqDoorbell fn val bus => exact execRdmaSrqDoorbell_answers fn val bus s
  | rdmaCqDoorbell fn val => exact execRdmaCqDoorbell_answers fn val s
  | wrSend q bus => exact execWrSend_answers q bus s
  | wrSendImm q bus => exact execWrSendImm_answers q bus s
  | wrWrite q bus => exact execWrWrite_answers q bus s
  | wrWriteImm q bus => exact execWrWriteImm_answers q bus s
  | wrRead q bus => exact execWrRead_answers q bus s
  | wrRecv srq n => exact execWrRecv_answers srq n s
  | inboundKeyRequest via psn write va key len data imm bus => exact execInboundKeyRequest_answers via psn write va key len data imm bus s
  | ackReceive via psn a => exact execAckReceive_answers via psn a s
  | statusNakReceive via psn code detail => exact execStatusNakReceive_answers via psn code detail s
  | localAckTimeout q => exact execLocalAckTimeout_answers q s
  | rnrTimerExpiry q => exact execRnrTimerExpiry_answers q s
  | carveCreate id => exact execCarveCreate_answers id s
  | carveUpdate id => exact execCarveUpdate_answers id s
  | carveDelete id => exact execCarveDelete_answers id s
  | binAlloc id => exact execBinAlloc_answers id s
  | binFree id => exact execBinFree_answers id s
  | binZeroFillEnd bin => exact execBinZeroFillEnd_answers bin s
  | binMap id => exact execBinMap_answers id s
  | binUnmap id => exact execBinUnmap_answers id s
  | leaseRenew id => exact execLeaseRenew_answers id s
  | leaseExpiry bin member => exact execLeaseExpiry_answers bin member s
  | mapDrainEnd bin member => exact execMapDrainEnd_answers bin member s
  | mirrorEnable id index => exact execMirrorEnable_answers id index s
  | mirrorDisable id => exact execMirrorDisable_answers id s
  | inboundGranaryRequest r => exact execInboundGranaryRequest_answers r s
  | mirrorWriteArrival handle off data poison chunk last => exact execMirrorWriteArrival_answers handle off data poison chunk last s
  | mirrorAck token => exact execMirrorAck_answers token s
  | resilverChunk bin => exact execResilverChunk_answers bin s
  | resilverChunkAck bin => exact execResilverChunkAck_answers bin s
  | promoteCopies home => exact execPromoteCopies_answers home s
  | announceReceive h role homes => exact execAnnounceReceive_answers h role homes s
  | noticeReceive h code a b c d => exact execNoticeReceive_answers h code a b c d s
  | mapRecordExpiry handle fn => exact execMapRecordExpiry_answers handle fn s
  | homeClaimWaitExpiry => exact execHomeClaimWaitExpiry_answers s
  | homeHandback home => exact execHomeHandback_answers home s
  | handbackDrainEnd => exact execHandbackDrainEnd_answers s
  | nmwTailWrite val bus => exact execNmwTailWrite_answers val bus s
  | tallyQuery id => exact execTallyQuery_answers id s
  | tallyPrepReset id => exact execTallyPrepReset_answers id s
  | tallyConfirm id => exact execTallyConfirm_answers id s
  | operationExit bin token code relay => exact execOperationExit_answers bin token code relay s
  | tokenFreeAdmit => exact execTokenFreeAdmit_answers s
  | tallyBackgroundScan bin parityA parityB disagree lap => exact execTallyBackgroundScan_answers bin parityA parityB disagree lap s
  | sweepQueue bin => exact execSweepQueue_answers bin s
  | sweepTokenPass bin => exact execSweepTokenPass_answers bin s
  | confirmWindowExpiry bin => exact execConfirmWindowExpiry_answers bin s
  | chkClaim id => exact execChkClaim_answers id s
  | chkConfig id => exact execChkConfig_answers id s
  | chkRun id => exact execChkRun_answers id s
  | chkRelease id => exact execChkRelease_answers id s
  | chkJobEnd engine bus => exact execChkJobEnd_answers engine bus s
  | domainJoin id bus => exact execDomainJoin_answers id bus s
  | domainLeave id => exact execDomainLeave_answers id s
  | domainStatus id => exact execDomainStatus_answers id s
  | sleepVoteObject id => exact execSleepVoteObject_answers id s
  | sleepVoteWithdraw id => exact execSleepVoteWithdraw_answers id s
  | sleepVoteWake id => exact execSleepVoteWake_answers id s
  | heartbeatSend => exact execHeartbeatSend_answers s
  | heartbeatReceive h b => exact execHeartbeatReceive_answers h b s
  | peerSuspectTimeout m => exact execPeerSuspectTimeout_answers m s
  | peerLostTimeout m => exact execPeerLostTimeout_answers m s
  | suspectReceive h member => exact execSuspectReceive_answers h member s
  | leaveReceive h force => exact execLeaveReceive_answers h force s
  | commandReceive h fn pkt env data part => exact execCommandReceive_answers h fn pkt env data part s
  | replyReceive h fn tag status result result2 retained => exact execReplyReceive_answers h fn tag status result result2 retained s
  | forwardTimeout id => exact execForwardTimeout_answers id s
  | reassemblyTimeout src seq => exact execReassemblyTimeout_answers src seq s
  | duplicateClearTimeout => exact execDuplicateClearTimeout_answers s
  | noMasterTimeout => exact execNoMasterTimeout_answers s
  | holdoverSuspectTimeout => exact execHoldoverSuspectTimeout_answers s
  | sleepQuietExpiry => exact execSleepQuietExpiry_answers s
  | sleepProposeReceive h n => exact execSleepProposeReceive_answers h n s
  | sleepVoteMessage h n value => exact execSleepVoteMessage_answers h n value s
  | sleepVoteTimeout => exact execSleepVoteTimeout_answers s
  | sleepAgreedReceive h n commit => exact execSleepAgreedReceive_answers h n commit s
  | sleepAbortReceive h n => exact execSleepAbortReceive_answers h n s
  | sleepAwakeReceive h => exact execSleepAwakeReceive_answers h s
  | sleepCommit => exact execSleepCommit_answers s
  | sleepEntryEnd => exact execSleepEntryEnd_answers s
  | sleepExitEnd => exact execSleepExitEnd_answers s
  | powerVotePlace id => exact execPowerVotePlace_answers id s
  | powerVoteWithdraw id => exact execPowerVoteWithdraw_answers id s
  | powerQuery id => exact execPowerQuery_answers id s
  | powerStateRun id => exact execPowerStateRun_answers id s
  | powerStateSleep id => exact execPowerStateSleep_answers id s
  | powerStateDeepSleep id => exact execPowerStateDeepSleep_answers id s
  | powerStateOff id => exact execPowerStateOff_answers id s
  | powerEntryFetchStop => exact execPowerEntryFetchStop_answers s
  | mwWfi => exact execMwWfi_answers s
  | powerEntryMwTimeout => exact execPowerEntryMwTimeout_answers s
  | powerEntryEnd => exact execPowerEntryEnd_answers s
  | idleEnter => exact execIdleEnter_answers s
  | voteIdleHoldExpiry d => exact execVoteIdleHoldExpiry_answers d s
  | prewakeHoldExpiry d => exact execPrewakeHoldExpiry_answers d s
  | domainWakeDone d => exact execDomainWakeDone_answers d s
  | wakeNEdge => exact execWakeNEdge_answers s
  | aoWakeTimerExpiry => exact execAoWakeTimerExpiry_answers s
  | usbAttach => exact execUsbAttach_answers s
  | i3cIbiWake => exact execI3cIbiWake_answers s
  | pgoodTimeout => exact execPgoodTimeout_answers s
  | xtalMwTimeout => exact execXtalMwTimeout_answers s
  | pllLockTimeout => exact execPllLockTimeout_answers s
  | wakeRetryDelayEnd => exact execWakeRetryDelayEnd_answers s
  | railPgRise n steward => exact execRailPgRise_answers n steward s
  | railPgFall n => exact execRailPgFall_answers n s
  | aoBrownout => exact execAoBrownout_answers s
  | vddAoInLow => exact execVddAoInLow_answers s
  | xtalAoSwitch => exact execXtalAoSwitch_answers s
  | thermalThrottle => exact execThermalThrottle_answers s
  | thermalThrottleClear => exact execThermalThrottleClear_answers s
  | thermalAlert => exact execThermalAlert_answers s
  | thermalAlertClear => exact execThermalAlertClear_answers s
  | fwStage id => exact execFwStage_answers id s
  | fwCommit id => exact execFwCommit_answers id s
  | fwCommitGolden id => exact execFwCommitGolden_answers id s
  | goldenCopyEnd ok => exact execGoldenCopyEnd_answers ok s
  | fwAbandon id => exact execFwAbandon_answers id s
  | budgetWrite id verified => exact execBudgetWrite_answers id verified s
  | budgetQuery id => exact execBudgetQuery_answers id s
  | sensorRead id reading => exact execSensorRead_answers id reading s
  | trayStatus id => exact execTrayStatus_answers id s
  | trayVerify id => exact execTrayVerify_answers id s
  | grantPolicy id => exact execGrantPolicy_answers id s
  | brakeStatus id => exact execBrakeStatus_answers id s
  | brakePending id => exact execBrakePending_answers id s
  | valveSet id => exact execValveSet_answers id s
  | valveQuery id => exact execValveQuery_answers id s
  | valveConfig id => exact execValveConfig_answers id s
  | slotSetEnable id => exact execSlotSetEnable_answers id s
  | slotSetDisable id => exact execSlotSetDisable_answers id s
  | slotQuery id => exact execSlotQuery_answers id s
  | slotSelf id => exact execSlotSelf_answers id s
  | positionPresentConfirm n => exact execPositionPresentConfirm_answers n s
  | positionVerify n released recovery svn => exact execPositionVerify_answers n released recovery svn s
  | verifyEnd n f => exact execVerifyEnd_answers n f s
  | reflashEnd n okP okG => exact execReflashEnd_answers n okP okG s
  | reflashWindowExpiry n => exact execReflashWindowExpiry_answers n s
  | sidebandRelease => exact execSidebandRelease_answers s
  | sidebandResume => exact execSidebandResume_answers s
  | releaseTimeout => exact execReleaseTimeout_answers s
  | sidebandStatusRead => exact execSidebandStatusRead_answers s
  | usbSubmit tag pkt input => exact execUsbSubmit_answers tag pkt input s
  | usbFetch tag m => exact execUsbFetch_answers tag m s
  | usbBusReset => exact execUsbBusReset_answers s
  | usbEnableWrite val => exact execUsbEnableWrite_answers val s
  | leakSample ch pos neg rb => exact execLeakSample_answers ch pos neg rb s
  | settleWindowEnd => exact execSettleWindowEnd_answers s
  | blankInRise => exact execBlankInRise_answers s
  | blankInFall => exact execBlankInFall_answers s
  | blankCapExpiry => exact execBlankCapExpiry_answers s
  | blankGuardEnd => exact execBlankGuardEnd_answers s
  | interlockContactChange ilk second closed => exact execInterlockContactChange_answers ilk second closed s
  | discrepancyTimeout ilk => exact execDiscrepancyTimeout_answers ilk s
  | outputCheckFault pins => exact execOutputCheckFault_answers pins s
  | configParityError => exact execConfigParityError_answers s
  | holdSupplyLoss lost => exact execHoldSupplyLoss_answers lost s
  | brakeRstFall => exact execBrakeRstFall_answers s
  | brakeRstRise => exact execBrakeRstRise_answers s
  | brakeRstStuck => exact execBrakeRstStuck_answers s
  | valvePullinEnd n => exact execValvePullinEnd_answers n s
  | valveDeferTimeout n => exact execValveDeferTimeout_answers n s
  | hsFault g => exact execHsFault_answers g s
  | slotPgRise n => exact execSlotPgRise_answers n s
  | slotPgFall n => exact execSlotPgFall_answers n s
  | slotPoweringTimeout n => exact execSlotPoweringTimeout_answers n s
  | slotDisableTimeout n => exact execSlotDisableTimeout_answers n s
  | slotPgLoss n => exact execSlotPgLoss_answers n s
  | slotPrsntLoss n => exact execSlotPrsntLoss_answers n s
  | monConfig id bus => exact execMonConfig_answers id bus s
  | monSnapshot id => exact execMonSnapshot_answers id s
  | monClear id => exact execMonClear_answers id s
  | monitorPeriodExpiry m reading => exact execMonitorPeriodExpiry_answers m reading s
  | xtalMwReady => exact execXtalMwReady_answers s
  | pllLock => exact execPllLock_answers s
  | interlockFaultClear ilk => exact execInterlockFaultClear_answers ilk s
  | hsFaultClear g => exact execHsFaultClear_answers g s
  | sidebandInBandInterrupt n recovery => exact execSidebandInBandInterrupt_answers n recovery s
  | bundleIssue item stone index fx => exact execBundleIssue_answers item stone index fx s

/-- Settles O53: what the command's own row answers. -/
theorem everyCommandAnswers : Obligations.EveryCommandAnswers := by
  unfold Obligations.EveryCommandAnswers
  intro c s
  obtain ⟨t, answer, queue, -⟩ := exec_answers c s
  exact ⟨t, answer, queue⟩

/-- Settles O55: the brake is set at reset, and no slot is listed, so each is off. -/
theorem brakeSafeAtReset : Obligations.BrakeSafeAtReset := by
  unfold Obligations.BrakeSafeAtReset
  unfold Brk.safe
  exact ⟨fun lockout => (nomatch lockout), fun _ n _ => .inl (reset_slot_valve_off n).1⟩

/-- Settles O56: a step is a nanosecond or the row of the command at the front, and each keeps a safe brake path safe. -/
theorem brakeSafeKept : Obligations.BrakeSafeKept := by
  unfold Obligations.BrakeSafeKept
  intro s t safe stepped
  unfold step at stepped
  split at stepped
  · cases stepped
    exact (tick_calm s).2 safe
  · rename_i c rest _
    obtain ⟨u, answer, -, keeps⟩ := exec_answers c (s.modPending fun _ => rest)
    cases answer.symm.trans stepped
    exact keeps safe

end Sys2Proof.Machine
end

section
/-! PROOFS. What brake events, valves, slots, answers and blanking leave of the brake path (16 R454, R458, R461, R467, R469). -/

namespace Sys2Proof.Machine

variable {s t u : State}

/-! ### Events and answers -/

@[simp] theorem brkEvent_brk (code obj arg : Nat) (s : State) :
    (brkEvent code obj arg s).brk = { s.brk with log := pushLast 16 s.brk.log (code, aoTicks s, arg) } := by
  unfold brkEvent
  extract_lets logged
  split
  · exact (raise_told ..).brk
  · rfl

theorem brkEvent_told (code obj arg : Nat) (s : State) :
    Told { s with brk := (brkEvent code obj arg s).brk } (brkEvent code obj arg s) := by
  rw [brkEvent_brk]
  unfold brkEvent
  extract_lets logged
  split
  · exact raise_told ..
  · exact .refl _

@[simp] theorem brkEvent_core (code obj arg : Nat) (s : State) : (brkEvent code obj arg s).core = s.core :=
  (brkEvent_told code obj arg s).core

@[simp] theorem completeId_brk (id : CmdId) (st : Status) (r r2 : Nat) (s : State) : (completeId id st r r2 s).brk = s.brk :=
  (completeId_told ..).brk

theorem completeIds_told {α : Type} (l : List α) (id : α → CmdId) (st : Status) (r r2 : Nat) (s : State) :
    Told s (l.foldl (fun s a => completeId (id a) st r r2 s) s) :=
  foldl_told (fun _ _ => completeId_told ..) l s

/-! ### What the brake knows beside its outputs -/

/-- The brake path without its valves, its slots, its blanking interval and its log. -/
def Brk.judged (b : Brk) : Brk :=
  { b with valves := [], deferOrder := [], slots := [], blank := none, guard := none, lastMask := 0, log := [] }

/-- The second state differs from the first at most in the outputs and the blanking interval of the brake, and in what an event or
an answer touches. -/
structure Driven (s t : State) : Prop where
  /-- The brake's inputs, sets and counters. -/
  judged : t.brk.judged = s.brk.judged
  /-- The reset sequencer and the clock. -/
  core : t.core = s.core
  /-- The positions of the tray. -/
  pos : t.mwr.pos = s.mwr.pos

theorem Told.pos_eq (h : Told s t) : t.mwr.pos = s.mwr.pos := (congrArg Mwr.pos h.mwr :)

namespace Driven

theorem refl (s : State) : Driven s s := ⟨rfl, rfl, rfl⟩
theorem trans (h : Driven s t) (k : Driven t u) : Driven s u :=
  ⟨k.judged.trans h.judged, k.core.trans h.core, k.pos.trans h.pos⟩
theorem told (h : Told s t) : Driven s t := ⟨congrArg Brk.judged h.brk, h.core, h.pos_eq⟩
theorem modBrk {f : Brk → Brk} (h : (f s.brk).judged = s.brk.judged) : Driven s (s.modBrk f) := ⟨h, rfl, rfl⟩
theorem event (code obj arg : Nat) (s : State) : Driven s (brkEvent code obj arg s) :=
  ⟨by rw [brkEvent_brk]; rfl, brkEvent_core .., (brkEvent_told code obj arg s).pos_eq⟩
theorem ite {c : Prop} [Decidable c] (h : Driven s t) (k : Driven s u) : Driven s (if c then t else u) := by
  split <;> assumption
theorem fold {α : Type} {f : State → α → State} (hf : ∀ s a, Driven s (f s a)) (l : List α) (s : State) :
    Driven s (l.foldl f s) := by
  induction l generalizing s with
  | nil => exact refl s
  | cons a l ih => exact (hf s a).trans (ih _)

theorem set (h : Driven s t) : t.brk.set = s.brk.set := (congrArg Brk.set h.judged :)
theorem lockout (h : Driven s t) : t.brk.lockout = s.brk.lockout := (congrArg Brk.lockout h.judged :)
theorem inhibit (h : Driven s t) : t.brk.inhibit = s.brk.inhibit := (congrArg Brk.inhibit h.judged :)
theorem act (h : Driven s t) : t.brk.act = s.brk.act := (congrArg Brk.act h.judged :)
theorem leaks (h : Driven s t) (n : Nat) : leakOf t n = leakOf s n := (congrArg (fun b => b.leaks.getD n {}) h.judged :)
theorem ilks (h : Driven s t) (i : Nat) : ilkOf t i = ilkOf s i := (congrArg (fun b => b.ilks.getD i {}) h.judged :)

theorem setValve (n : Nat) (st : ValveState) (s : State) : Driven s (setValve n st s) :=
  (modBrk (s := s) (by rfl)).trans (event ..)
theorem answerValve (n : Nat) (st : Status) (r r2 : Nat) (s : State) : Driven s (answerValve n st r r2 s) :=
  (modBrk (s := s) (by rfl)).trans (told (completeIds_told _ id ..))
theorem openBlank (s : State) : Driven s (openBlank s) := by
  unfold Machine.openBlank
  extract_lets sources
  refine ite (.refl _) ?_
  split
  · exact modBrk rfl
  · exact ite (.refl _) (modBrk rfl)
theorem closeBlank (s : State) : Driven s (closeBlank s) := by
  unfold Machine.closeBlank
  split
  · exact .refl _
  · exact modBrk rfl
theorem settleBlank (s : State) : Driven s (settleBlank s) := ite (.refl _) (closeBlank s)
theorem startValve (n : Nat) (s : State) : Driven s (startValve n s) := (setValve ..).trans (openBlank _)
theorem startDeferred (s : State) : Driven s (startDeferred s) := fold (fun _ _ => ite (startValve ..) (.refl _)) _ s
theorem setSlot (n : Nat) (st : SlotState) (s : State) : Driven s (setSlot n st s) :=
  ite (.refl _) ((modBrk (s := s) (by rfl)).trans (event ..))
theorem answerSlots (n : Nat) (e : Bool) (upTo : Nat) (st : Status) (r r2 : Nat) (s : State) :
    Driven s (answerSlots n e upTo st r r2 s) :=
  (modBrk (s := s) (by rfl)).trans (told (completeIds_told _ _ ..))
theorem answerSlot (n : Nat) (e : Bool) (st : Status) (r r2 : Nat) (s : State) : Driven s (answerSlot n e st r r2 s) :=
  answerSlots ..
theorem cutPower (s : State) : Driven s (cutPower s) := by
  rw [cutPower_eq]
  refine Driven.trans ?_ ((settleBlank _).trans (startDeferred _))
  refine Driven.trans ?_ (fold (fun _ _ => (setSlot ..).trans (answerSlot ..)) _ _)
  exact fold (fun _ _ => ite ((setValve ..).trans (answerValve ..)) (.refl _)) _ s

end Driven

/-! ### Valves -/

theorem valveOf_congr (h : t.brk.valves = s.brk.valves) (k : Nat) : valveOf t k = valveOf s k :=
  congrArg (fun v => v.getD k {}) h

@[simp] theorem valveOf_brkEvent (code obj arg k : Nat) (s : State) : valveOf (brkEvent code obj arg s) k = valveOf s k :=
  valveOf_congr (by rw [brkEvent_brk]) k

theorem valveOf_setValve (n : Nat) (st : ValveState) (s : State) (k : Nat) :
    valveOf (setValve n st s) k = if k = n then { valveOf s n with state := st, since := s.core.t } else valveOf s k :=
  (valveOf_brkEvent ..).trans (Tbl.getD_alter s.brk.valves n k {} fun v => { v with state := st, since := s.core.t })

theorem valveOf_answerValve (n : Nat) (st : Status) (r r2 : Nat) (s : State) (k : Nat) :
    valveOf (answerValve n st r r2 s) k = if k = n then { valveOf s n with waiters := [] } else valveOf s k := by
  have kept : (answerValve n st r r2 s).brk.valves = s.brk.valves.modify n fun v => { v with waiters := [] } :=
    congrArg Brk.valves (completeIds_told _ id ..).brk
  unfold valveOf Tbl.getD
  rw [kept, Tbl.get_modify]
  split
  · rename_i same
    subst same
    cases s.brk.valves.get k <;> rfl
  · rfl

@[simp] theorem openBlank_valves (s : State) : (openBlank s).brk.valves = s.brk.valves := by
  unfold openBlank
  extract_lets sources
  split
  · rfl
  · split
    · rfl
    · split <;> rfl

@[simp] theorem closeBlank_valves (s : State) : (closeBlank s).brk.valves = s.brk.valves := by
  unfold closeBlank
  split <;> rfl

@[simp] theorem settleBlank_valves (s : State) : (settleBlank s).brk.valves = s.brk.valves := by
  unfold settleBlank
  split
  · rfl
  · exact closeBlank_valves s

theorem valveOf_startValve (n : Nat) (s : State) (k : Nat) :
    valveOf (startValve n s) k = if k = n then { valveOf s n with state := .pullIn, since := s.core.t } else valveOf s k :=
  (valveOf_congr (openBlank_valves _) k).trans (valveOf_setValve ..)

/-- Only a deferred valve is started by the end of what deferred it. -/
theorem startDeferred_valve {k : Nat} (h : (valveOf s k).state ≠ .deferred) : valveOf (startDeferred s) k = valveOf s k := by
  unfold startDeferred
  generalize s.brk.deferOrder = l
  induction l generalizing s with
  | nil => rfl
  | cons n l ih =>
    rw [List.foldl_cons]
    split
    · rename_i starts
      have other : valveOf (startValve n s) k = valveOf s k := by
        rw [valveOf_startValve, if_neg fun same : k = n => h (same ▸ starts.1)]
      exact (ih (other ▸ h)).trans other
    · exact ih h

theorem settled_valve {k : Nat} (h : (valveOf s k).state ≠ .deferred) :
    valveOf (startDeferred (settleBlank s)) k = valveOf s k :=
  (startDeferred_valve ((valveOf_congr (settleBlank_valves s) k).symm ▸ h)).trans (valveOf_congr (settleBlank_valves s) k)

/-- A fold that drives valves of a list one after another leaves each of them as its own step does. -/
theorem forEach_valve {f : Nat → State → State} {p : Nat → State → Prop} (l : List Nat)
    (makes : ∀ n s, n ∈ l → p n (f n s)) (keeps : ∀ n m s, p n s → p n (f m s)) (s : State) :
    ∀ n ∈ l, p n (forEach l f s) := by
  suffices all : ∀ (l' : List Nat) (s : State) (n : Nat), (∀ m ∈ l', m ∈ l) → n ∈ l' ∨ p n s → p n (forEach l' f s) from
    fun n hn => all l s n (fun _ h => h) (.inl hn)
  intro l'
  induction l' with
  | nil => exact fun s n _ h => h.resolve_left (List.not_mem_nil)
  | cons m l' ih =>
    intro s n sub h
    refine ih (f m s) n (fun k hk => sub k (.tail _ hk)) ?_
    rcases h with h | h
    · rcases List.mem_cons.mp h with rfl | h
      · exact .inr (makes n s (sub n (.head _)))
      · exact .inl h
    · exact .inr (keeps n m s h)

/-! ### Slots -/

theorem slotOf_congr (h : t.brk.slots = s.brk.slots) (k : Nat) : slotOf t k = slotOf s k := congrArg (fun v => v.getD k {}) h

@[simp] theorem slotOf_brkEvent (code obj arg k : Nat) (s : State) : slotOf (brkEvent code obj arg s) k = slotOf s k :=
  slotOf_congr (by rw [brkEvent_brk]) k

theorem slotOf_setSlot {n : Nat} {st : SlotState} (moves : (slotOf s n).state ≠ st) (k : Nat) :
    slotOf (setSlot n st s) k = if k = n then { slotOf s n with state := st, since := s.core.t } else slotOf s k := by
  unfold setSlot
  rw [if_neg moves]
  exact (slotOf_brkEvent ..).trans (Tbl.getD_alter s.brk.slots n k {} fun v => { v with state := st, since := s.core.t })

theorem setSlot_state (n : Nat) (st : SlotState) (s : State) : (slotOf (setSlot n st s) n).state = st := by
  by_cases stays : (slotOf s n).state = st
  · unfold setSlot
    rw [if_pos stays]
    exact stays
  · rw [slotOf_setSlot stays, if_pos rfl]

theorem setSlot_pg (n : Nat) (st : SlotState) (s : State) (k : Nat) : (slotOf (setSlot n st s) k).pg = (slotOf s k).pg := by
  by_cases stays : (slotOf s n).state = st
  · unfold setSlot
    rw [if_pos stays]
  · rw [slotOf_setSlot stays]
    split
    · rename_i same
      subst same
      rfl
    · rfl

theorem setSlot_waiters (n : Nat) (st : SlotState) (s : State) (k : Nat) :
    (slotOf (setSlot n st s) k).waiters = (slotOf s k).waiters := by
  by_cases stays : (slotOf s n).state = st
  · unfold setSlot
    rw [if_pos stays]
  · rw [slotOf_setSlot stays]
    split
    · rename_i same
      subst same
      rfl
    · rfl

theorem slotOf_answerSlots (n : Nat) (e : Bool) (upTo : Nat) (st : Status) (r r2 : Nat) (s : State) (k : Nat) :
    slotOf (answerSlots n e upTo st r r2 s) k = if k = n then { slotOf s n with
      waiters := (slotOf s n).waiters.filter fun w => !(decide (w.2.1 = e) && decide (w.2.2 ≤ upTo)) } else slotOf s k := by
  have kept : (answerSlots n e upTo st r r2 s).brk.slots = s.brk.slots.modify n fun v => { v with
      waiters := v.waiters.filter fun w => !(decide (w.2.1 = e) && decide (w.2.2 ≤ upTo)) } :=
    congrArg Brk.slots (completeIds_told _ _ ..).brk
  unfold slotOf Tbl.getD
  rw [kept, Tbl.get_modify]
  split
  · rename_i same
    subst same
    cases s.brk.slots.get k <;> rfl
  · rfl

theorem answerSlot_state (n : Nat) (e : Bool) (st : Status) (r r2 : Nat) (s : State) (k : Nat) :
    (slotOf (answerSlot n e st r r2 s) k).state = (slotOf s k).state := by
  rw [answerSlot, slotOf_answerSlots]
  split
  · rename_i same
    subst same
    rfl
  · rfl

theorem answerSlot_pg (n : Nat) (e : Bool) (st : Status) (r r2 : Nat) (s : State) (k : Nat) :
    (slotOf (answerSlot n e st r r2 s) k).pg = (slotOf s k).pg := by
  rw [answerSlot, slotOf_answerSlots]
  split
  · rename_i same
    subst same
    rfl
  · rfl

/-! ### A cause (R458, R461) -/

/-- The brake as a trip by a cause leaves it. -/
def Brk.tripped (b : Brk) (word now : Nat) : Brk :=
  { b with set := true, lockout := true, tripLast := word, tripTime := now, trips := sat 0xFFFF (b.trips + 1) }

/-- A trip, without what the set brake then cuts. -/
def trip (code idx : Nat) (s : State) : State :=
  brkEvent 0xF001 idx (code + idx * 2 ^ 4) (s.modBrk fun b => b.tripped (code + idx * 2 ^ 4) (aoTicks s))

theorem brakeCause_released {code idx : Nat} (h : s.brk.set = false) : brakeCause code idx s = cutPower (trip code idx s) := by
  unfold brakeCause
  rw [if_pos h]
  rfl

theorem brakeCause_trips {code idx : Nat} (h : s.brk.set = false) :
    (brakeCause code idx s).brk.judged = (s.brk.tripped (code + idx * 16) (aoTicks s)).judged := by
  rw [brakeCause_released h]
  exact (Driven.cutPower _).judged.trans (Driven.event ..).judged

/-- A set brake with a cause noted, as the settle window sees it. -/
def Brk.noted (b : Brk) : Brk := if b.settle.isSome then { b with settleTrip := true } else b

/-- A set brake with a cause counted, as a lock-out counts it. -/
def Brk.counted (b : Brk) (code word now : Nat) : Brk :=
  if b.lockout = false then b
  else if b.tripTime = now then { b with tripLast := if code < bits b.tripLast 3 0 then word else b.tripLast }
  else { b with trips := sat 0xFFFF (b.trips + 1) }

theorem brakeCause_set {code idx : Nat} (h : s.brk.set = true) :
    brakeCause code idx s = s.modBrk fun b => b.noted.counted code (code + idx * 2 ^ 4) (aoTicks s) := by
  unfold brakeCause
  rw [if_neg (by rw [h]; exact nofun)]
  rfl

theorem Brk.noted_keeps (b : Brk) : ∃ noted, b.noted = { b with settleTrip := noted } := by
  unfold Brk.noted
  split
  · exact ⟨true, rfl⟩
  · exact ⟨b.settleTrip, rfl⟩

theorem Brk.counted_keeps (b : Brk) (code word now : Nat) :
    ∃ last trips, b.counted code word now = { b with tripLast := last, trips := trips } := by
  unfold Brk.counted
  split
  · exact ⟨b.tripLast, b.trips, rfl⟩
  · split
    · exact ⟨_, b.trips, rfl⟩
    · exact ⟨b.tripLast, _, rfl⟩

/-- A cause on a set brake changes no more than what notes and counts it. -/
theorem brakeCause_noted {code idx : Nat} (h : s.brk.set = true) : ∃ noted last trips, brakeCause code idx s =
    { s with brk := { s.brk with settleTrip := noted, tripLast := last, trips := trips } } := by
  obtain ⟨noted, hnoted⟩ := s.brk.noted_keeps
  obtain ⟨last, trips, hcounted⟩ := s.brk.noted.counted_keeps code (code + idx * 2 ^ 4) (aoTicks s)
  refine ⟨noted, last, trips, ?_⟩
  rw [brakeCause_set h, State.modBrk, hcounted, hnoted]

theorem brakeCause_same {code idx : Nat} (h : s.brk.set = true) : SameBrake s (brakeCause code idx s) := by
  obtain ⟨noted, last, trips, counted⟩ := brakeCause_noted (code := code) (idx := idx) h
  rw [counted]
  exact ⟨rfl, rfl, fun _ => rfl⟩

theorem brakeCause_sets (code idx : Nat) (s : State) : (brakeCause code idx s).brk.set = true := by
  cases h : s.brk.set with
  | false => exact congrArg Brk.set (brakeCause_trips (code := code) (idx := idx) h)
  | true => exact (brakeCause_same h).1.trans h

/-- A cause changes neither a leak channel nor an interlock. -/
theorem brakeCause_inputs (code idx : Nat) (s : State) :
    (brakeCause code idx s).brk.leaks = s.brk.leaks ∧ (brakeCause code idx s).brk.ilks = s.brk.ilks := by
  cases h : s.brk.set with
  | false =>
    have trips := brakeCause_trips (code := code) (idx := idx) h
    exact ⟨(congrArg Brk.leaks trips :), (congrArg Brk.ilks trips :)⟩
  | true =>
    obtain ⟨noted, last, trips, counted⟩ := brakeCause_noted (code := code) (idx := idx) h
    rw [counted]
    exact ⟨rfl, rfl⟩

theorem brakeCause_leakOf (code idx : Nat) (s : State) (n : Nat) : leakOf (brakeCause code idx s) n = leakOf s n :=
  congrArg (fun l => l.getD n {}) (brakeCause_inputs code idx s).1

theorem brakeCause_ilkOf (code idx : Nat) (s : State) (n : Nat) : ilkOf (brakeCause code idx s) n = ilkOf s n :=
  congrArg (fun l => l.getD n {}) (brakeCause_inputs code idx s).2

theorem brakeCause_told (code idx : Nat) (h : s.brk.set = false) :
    (brakeCause code idx s).brk.lockout = true ∧ (brakeCause code idx s).brk.tripLast = code + idx * 16 :=
  have trips := brakeCause_trips (code := code) (idx := idx) h
  ⟨congrArg Brk.lockout trips, congrArg Brk.tripLast trips⟩

end Sys2Proof.Machine
end

section
/-! PROOFS. The brake's decision: what a cause does and how an interlock moves (16 R457, R458, R461, R464). -/

namespace Sys2Proof.Machine

variable {s : State}

/-! ### What a trip cuts -/

/-- A valve that a set brake drops is cut. -/
def cutValve (n : Nat) (s : State) : State :=
  if s.brk.act.drops n ∧ (valveOf s n).state ≠ .off then answerValve n .notPermitted 10 12 (setValve n .off s) else s

/-- A slot is cut. -/
def cutSlot (n : Nat) (s : State) : State := answerSlot n true .notPermitted 10 12 (setSlot n .off s)

theorem cutPower_cuts (s : State) : cutPower s =
    startDeferred (settleBlank (forEach (List.range 8) cutSlot (forEach (List.range 8) cutValve s))) := rfl

theorem cutValve_driven (n : Nat) (s : State) : Driven s (cutValve n s) :=
  .ite ((Driven.setValve ..).trans (.answerValve ..)) (.refl s)

theorem valveOf_cutValve (n : Nat) (s : State) (k : Nat) :
    (valveOf (cutValve n s) k).state = .off ∨ valveOf (cutValve n s) k = valveOf s k := by
  unfold cutValve
  split
  · rw [valveOf_answerValve, valveOf_setValve, valveOf_setValve]
    by_cases same : k = n
    · exact .inl (by simp [same])
    · exact .inr (by simp [same])
  · exact .inr rfl

theorem cutValve_off {n : Nat} {s : State} (drops : s.brk.act.drops n = true) : (valveOf (cutValve n s) n).state = .off := by
  unfold cutValve
  split
  · simp [valveOf_answerValve, valveOf_setValve]
  · rename_i stays
    exact Decidable.not_not.mp fun runs => stays ⟨drops, runs⟩

/-- A valve is off if a set brake drops it. -/
def Dropped (n : Nat) (s : State) : Prop := s.brk.act.drops n = true → (valveOf s n).state = .off

theorem cutValve_drops (n : Nat) (s : State) : Dropped n (cutValve n s) := fun drops =>
  cutValve_off ((cutValve_driven n s).act ▸ drops)

theorem cutValve_keeps_dropped (n m : Nat) (s : State) (h : Dropped n s) : Dropped n (cutValve m s) := fun drops =>
  (valveOf_cutValve m s n).elim id fun same => same ▸ h ((cutValve_driven m s).act ▸ drops)

@[simp] theorem setSlot_valves (n : Nat) (st : SlotState) (s : State) : (setSlot n st s).brk.valves = s.brk.valves := by
  unfold setSlot
  split
  · rfl
  · rw [brkEvent_brk]
    rfl

@[simp] theorem answerSlots_valves (n : Nat) (e : Bool) (upTo : Nat) (st : Status) (r r2 : Nat) (s : State) :
    (answerSlots n e upTo st r r2 s).brk.valves = s.brk.valves :=
  (congrArg Brk.valves (completeIds_told _ _ ..).brk :)

theorem cutSlots_valves (l : List Nat) (s : State) : (forEach l cutSlot s).brk.valves = s.brk.valves := by
  induction l generalizing s with
  | nil => rfl
  | cons n l ih =>
    exact (ih _).trans ((answerSlots_valves ..).trans (setSlot_valves ..))

theorem cutSlots_valve (l : List Nat) (s : State) (n : Nat) : valveOf (forEach l cutSlot s) n = valveOf s n :=
  valveOf_congr (cutSlots_valves l s) n

theorem cutPower_valve {n : Nat} (hn : n < 8) (drops : s.brk.act.drops n = true) : (valveOf (cutPower s) n).state = .off := by
  have kept : Driven s (forEach (List.range 8) cutValve s) := .fold (fun u n => cutValve_driven n u) _ s
  have cut := forEach_valve (List.range 8) (fun n s _ => cutValve_drops n s) cutValve_keeps_dropped s n (List.mem_range.mpr hn)
    (kept.act ▸ drops)
  have off : (valveOf (forEach (List.range 8) cutSlot (forEach (List.range 8) cutValve s)) n).state = .off :=
    (congrArg Valve.state (cutSlots_valve ..)).trans cut
  rw [cutPower_cuts, settled_valve (by rw [off]; exact nofun)]
  exact off

/-! ### Causes (R458, R461, R464) -/

theorem trip_leaves (code idx : Nat) (h : s.brk.set = false) : (brakeCause code idx s).brk.set = true ∧
    (brakeCause code idx s).brk.lockout = true ∧ (brakeCause code idx s).brk.tripLast = code + idx * 16 ∧
      (brakeCause code idx s).brk.tripTime = aoTicks s ∧ (brakeCause code idx s).brk.trips = sat 0xFFFF (s.brk.trips + 1) :=
  have trips := brakeCause_trips (code := code) (idx := idx) h
  ⟨congrArg Brk.set trips, congrArg Brk.lockout trips, congrArg Brk.tripLast trips, congrArg Brk.tripTime trips,
    congrArg Brk.trips trips⟩

theorem trip_cuts (code idx : Nat) (h : s.brk.set = false) :
    (∀ n, n < 8 → s.brk.act.drops n = true → (valveOf (brakeCause code idx s) n).state = .off) ∧
      ∀ n, n < 8 → (slotOf (brakeCause code idx s) n).state = .off ∨ (slotOf (brakeCause code idx s) n).state = .fault := by
  rw [brakeCause_released h]
  exact ⟨fun n hn drops => cutPower_valve hn (by rw [trip, brkEvent_brk]; exact drops),
    fun n hn => .inl ((cutPower_brake _).2.2 n hn)⟩

theorem brakeCause_locked {code idx : Nat} (set : s.brk.set = true) (closed : s.brk.settle = none) :
    brakeCause code idx s = s.modBrk fun b => b.counted code (code + idx * 2 ^ 4) (aoTicks s) := by
  rw [brakeCause_set set, State.modBrk, Brk.noted, if_neg (by rw [closed]; exact nofun)]
  rfl

theorem brakeCause_inhibited {code idx : Nat} (set : s.brk.set = true) (lockout : s.brk.lockout = false) :
    brakeCause code idx s = s.modBrk Brk.noted := by
  obtain ⟨noted, hnoted⟩ := s.brk.noted_keeps
  rw [brakeCause_set set, State.modBrk, Brk.counted, if_pos (by rw [hnoted]; exact lockout)]
  rfl

/-! ### The settle window's end (R453, R464) -/

/-- The leak channels as the settle window's end decides them. -/
def decided (s : State) : State :=
  s.modBrk fun b => { b with leaks := decideLeaks b.act b.leaks, leaksP := decideLeaks b.pend b.leaksP }

/-- The settle window's decision on the leak channels, with what it tells. -/
def settleLeaks (s : State) : State :=
  forEach (List.range 8) (fun n u => if u.brk.act.leakEn n then leakChanged n (s.brk.leaks.getD n {}).state true u else u)
    (decided s)

/-- The state in which the settle window's end judges the inputs. -/
def settled (s : State) : State := (settleLeaks s).modBrk fun b => { b with settle := none }

/-- Class 0 releases the brake when all is healthy and no cause arose. -/
def settleEnd (s : State) : State :=
  if s.brk.cls = 0 ∧ healthy s ∧ s.brk.settleTrip = false ∧ s.brk.lockout = false then releaseBrake 0 s else s

theorem settleWindowEnd_runs {t0 : Nat} (powered : s.pwr.aoIn = true) (window : s.brk.settle = some t0)
    (ended : t0 + ms 100 ≤ s.core.t) : exec .settleWindowEnd s = .next (brakeSeen (settleEnd (settled s))) := by
  show execSettleWindowEnd s = _
  unfold execSettleWindowEnd
  rw [window]
  exact onAo_holds powered (decide_eq_true ended)

theorem setAll_getD {α : Type} (f : Nat → α) (d : α) (l : List Nat) (t : Tbl α) (k : Nat) :
    (l.foldl (fun t n => t.set n (f n)) t).getD k d = if k ∈ l then f k else t.getD k d := by
  induction l generalizing t with
  | nil => simp
  | cons n l ih =>
    rw [List.foldl_cons, ih, Tbl.getD_set]
    by_cases tail : k ∈ l
    · simp [tail]
    · by_cases head : k = n
      · simp [head]
      · simp [tail, head]

theorem decided_leakOf {n : Nat} (hn : n < 8) (enabled : s.brk.act.leakEn n = true) :
    leakOf (decided s) n = (leakOf s n).decide := by
  refine (setAll_getD (fun n => (s.brk.leaks.getD n {}).decide) {} _ s.brk.leaks n).trans (if_pos ?_)
  exact List.mem_filter.mpr ⟨List.mem_range.mpr hn, enabled⟩

/-- A decision is a new state only for an undetermined channel, and is never FAULT. -/
theorem Leak.decide_state (x : Leak) :
    x.decide.state = x.state ∨ x.state = .undetermined ∧ x.decide.state = if 3 ≤ x.dryRun then .dry else .wet := by
  unfold Leak.decide
  split
  · exact .inr ⟨‹_›, rfl⟩
  · exact .inl rfl

/-- In the settle window a decision on a channel is told, and is no cause. -/
theorem leakChanged_quiet {n : Nat} {x : Leak} (now : leakOf s n = x.decide) : Driven s (leakChanged n x.state true s) := by
  unfold leakChanged
  rw [now]
  dsimp only
  rcases x.decide_state with same | ⟨from_, to_⟩
  · rw [if_pos same]
    exact .refl s
  · rw [to_, from_]
    by_cases dry : 3 ≤ x.dryRun
    · rw [if_pos dry]
      exact .event ..
    · rw [if_neg dry]
      exact .event ..

theorem settleLeaks_driven (s : State) : Driven (decided s) (settleLeaks s) := by
  suffices all : ∀ (l : List Nat) (u : State), (∀ n ∈ l, n < 8) → Driven (decided s) u → Driven (decided s)
      (forEach l (fun n u => if u.brk.act.leakEn n then leakChanged n (s.brk.leaks.getD n {}).state true u else u) u) from
    all _ _ (fun _ => List.mem_range.mp) (.refl _)
  intro l
  induction l with
  | nil => exact fun u _ h => h
  | cons n l ih =>
    intro u sub h
    refine ih _ (fun k hk => sub k (.tail _ hk)) (h.trans ?_)
    show Driven u (if _ then _ else _)
    split
    · rename_i enabled
      exact leakChanged_quiet ((h.leaks n).trans (decided_leakOf (sub n (.head _)) (h.act ▸ enabled)))
    · exact .refl u

/-- What the settle window's end knows when it judges the inputs. -/
theorem settled_judged (s : State) : (settled s).brk.judged = { (decided s).brk with settle := none }.judged :=
  (congrArg (fun b => { b with settle := none }) (settleLeaks_driven s).judged :)

theorem settled_set (s : State) : (settled s).brk.set = s.brk.set := (congrArg Brk.set (settled_judged s) :)
theorem settled_lockout (s : State) : (settled s).brk.lockout = s.brk.lockout := (congrArg Brk.lockout (settled_judged s) :)

theorem healthy_iff (s : State) : healthy s = true ↔ (∀ n, n < 8 → s.brk.act.leakEn n = true → (leakOf s n).state = .dry) ∧
    (∀ i, i < 4 → s.brk.act.ilkEn i = true → (ilkOf s i).state = .healthy) ∧ s.brk.outPins = 0 ∧ s.brk.ioLost = false := by
  have implies (b : Bool) (p : Prop) [Decidable p] : (!b || decide p) = true ↔ (b = true → p) := by cases b <;> simp
  simp only [healthy, Bool.and_eq_true, List.all_eq_true, List.mem_range, implies, decide_eq_true_eq, Bool.not_eq_true', and_assoc]

/-- Settles O57: a cause on a released brake is `trip` and what it cuts; on a set one it is counted, noted or nothing. -/
theorem trips : Obligations.Trips := by
  unfold Obligations.Trips
  refine ⟨fun s code idx released => ?_, fun s code idx set lockout ended now => ?_, fun s code idx set lockout ended later => ?_,
    fun s code idx set lockout ended => ?_, fun s code idx t0 set lockout window => ?_,
    fun s t0 powered window ended set lockout => ?_, healthy_iff⟩
  · obtain ⟨isSet, locked, last, time, trips⟩ := trip_leaves code idx released
    obtain ⟨valves, slots⟩ := trip_cuts code idx released
    exact ⟨isSet, locked, last, time, trips, valves, slots⟩
  · rw [brakeCause_locked set ended, State.modBrk, Brk.counted, if_neg (by rw [lockout]; exact nofun), if_pos now]
    rfl
  · rw [brakeCause_locked set ended, State.modBrk, Brk.counted, if_neg (by rw [lockout]; exact nofun), if_neg later]
  · rw [brakeCause_inhibited set lockout, State.modBrk, Brk.noted, if_neg (by rw [ended]; exact nofun)]
  · rw [brakeCause_inhibited set lockout, State.modBrk, Brk.noted, if_pos (by rw [window]; rfl)]
  · have isSet := (settled_set s).trans set
    have locked := (settled_lockout s).trans lockout
    refine ⟨_, settleWindowEnd_runs powered window ended, ?_⟩
    rw [settleEnd, if_neg fun ends => Bool.noConfusion (ends.2.2.2.symm.trans locked)]
    exact ⟨isSet, locked⟩

/-! ### Interlocks (R456, R457) -/

/-- An interlock moves to a state. -/
def moveIlk (i : Nat) (st : IlkState) (s : State) : State :=
  brkEvent 0xF005 i (i + st.code * 2 ^ 4)
    (s.modBrk fun b => { b with ilks := b.ilks.alter i {} fun x => { x with state := st, since := s.core.t } })

theorem moveIlk_ilkOf (i : Nat) (st : IlkState) (s : State) :
    ilkOf (moveIlk i st s) i = { ilkOf s i with state := st, since := s.core.t } := by
  unfold ilkOf moveIlk
  rw [brkEvent_brk, State.modBrk_brk, Tbl.getD_alter, if_pos rfl]

theorem moveIlk_same (i : Nat) (st : IlkState) (s : State) : SameBrake s (moveIlk i st s) :=
  (modBrk_same rfl rfl fun _ => rfl).trans (brkEvent_same ..)

theorem setIlk_moves {i : Nat} {st : IlkState} (moves : (ilkOf s i).state ≠ st) : setIlk i st s =
    if st = .fault then brakeCause 3 i (moveIlk i st s)
    else if (ilkOf s i).state = .healthy then brakeCause 2 i (moveIlk i st s) else moveIlk i st s := by
  unfold setIlk
  rw [if_neg moves]
  rfl

theorem setIlk_ilkOf {i : Nat} {st : IlkState} (moves : (ilkOf s i).state ≠ st) :
    ilkOf (setIlk i st s) i = { ilkOf s i with state := st, since := s.core.t } := by
  rw [setIlk_moves moves, ← moveIlk_ilkOf]
  split
  · exact brakeCause_ilkOf ..
  · split
    · exact brakeCause_ilkOf ..
    · rfl

/-- Leaving HEALTHY for a state other than FAULT is cause 2. -/
theorem setIlk_opens {i : Nat} {st : IlkState} (from_ : (ilkOf s i).state = .healthy) (moves : st ≠ .healthy) (sound : st ≠ .fault) :
    setIlk i st s = brakeCause 2 i (moveIlk i st s) := by
  rw [setIlk_moves (by rw [from_]; exact moves.symm), if_neg sound, if_pos from_]

/-- Moving between states that are not HEALTHY, or back to it, is no cause. -/
theorem setIlk_quiet {i : Nat} {st : IlkState} (moves : (ilkOf s i).state ≠ st) (sound : st ≠ .fault)
    (unhealthy : (ilkOf s i).state ≠ .healthy) : setIlk i st s = moveIlk i st s := by
  rw [setIlk_moves moves, if_neg sound, if_neg unhealthy]

theorem cause_sets {t : State} {i code : Nat} (same : SameBrake s t) :
    (brakeCause code i t).brk.set = true ∧ (s.brk.set = false → (brakeCause code i t).brk.lockout = true ∧
      (brakeCause code i t).brk.tripLast = code + i * 16) :=
  ⟨brakeCause_sets .., fun released => brakeCause_told _ _ (same.1.trans released)⟩

/-- A contact of an interlock at its new level. -/
def Ilk.contact (second closed : Bool) (now : Nat) (x : Ilk) : Ilk :=
  { x with
    a := if second then x.a else closed
    b := if second then closed else x.b
    since := if x.state = .fault then now else x.since }

/-- A contact at its new level, with nothing that follows. -/
def setContact (i : Nat) (second closed : Bool) (s : State) : State :=
  s.modBrk fun b => { b with ilks := b.ilks.alter i {} (Ilk.contact second closed s.core.t) }

theorem setContact_ilkOf (i : Nat) (second closed : Bool) (s : State) :
    ilkOf (setContact i second closed s) i = (ilkOf s i).contact second closed s.core.t :=
  (Tbl.getD_alter ..).trans (if_pos rfl)

/-- A change of a contact of an enabled interlock whose DISC_MS has not run out moves it. -/
theorem contactChange_moves {i : Nat} {second closed : Bool} {st : IlkState} (enabled : s.brk.act.ilkEn i = true)
    (inTime : ¬ (((ilkOf s i).state = .discrepant ∨ (ilkOf s i).state = .returning) ∧
      passed s (ilkOf s i).since (ms s.brk.act.discMs) = true))
    (next : ((ilkOf s i).contact second closed s.core.t).next (s.brk.act.ilkAnti i) = st) (moves : (ilkOf s i).state ≠ st) :
    contactChange i second closed s = brakeSeen (setIlk i st (setContact i second closed s)) := by
  have early : discTimeout i s = s := if_neg inTime
  have now := setContact_ilkOf i second closed s
  have state : (ilkOf (setContact i second closed s) i).state = (ilkOf s i).state := by rw [now]; rfl
  unfold contactChange
  extract_lets was s1 s2 s3
  have first : s1 = s := (if_pos enabled).trans early
  have second' : s2 = setContact i second closed s := by unfold s2; rw [first]; rfl
  have third : s3 = setIlk i st (setContact i second closed s) := by
    unfold s3
    rw [second', show (setContact i second closed s).brk.act = s.brk.act from rfl, if_pos enabled, now, next]
  rw [third, if_neg]
  rw [setIlk_ilkOf (state ▸ moves)]
  exact fun same => moves same.symm

/-- The contacts that leave a state of R457's table as it is no longer, and the state they lead to. -/
inductive Ilk.Row (anti : Bool) (inTime : Prop) (x : Ilk) (a b : Bool) : IlkState → Prop
  | opens : x.state = .healthy → x.inPlace anti = true → Row anti inTime x a b .discrepant
  | open_ : x.state = .discrepant → inTime → a = false → b = anti → Row anti inTime x a b .open_
  | back : x.state = .discrepant → inTime → a = true → b = !anti → Row anti inTime x a b .healthy
  | returning : x.state = .open_ → x.a = false → x.b = anti → Row anti inTime x a b .returning
  | returned : x.state = .returning → inTime → a = true → b = !anti → Row anti inTime x a b .healthy
  | reopened : x.state = .returning → inTime → a = false → b = anti → Row anti inTime x a b .open_

section
variable {x : Ilk} {anti second closed a b : Bool} {inTime : Prop} {now : Nat} {st : IlkState}

/-- A row of the table is what the contacts' change leads to. -/
theorem Ilk.Row.next (row : x.Row anti inTime a b st) (changes : (if second then x.b else x.a) ≠ closed)
    (ha : a = if second then x.a else closed) (hb : b = if second then closed else x.b) :
    (x.contact second closed now).next anti = st := by
  have kept : (x.contact second closed now).state = x.state := rfl
  have isA : (x.contact second closed now).a = a := ha.symm
  have isB : (x.contact second closed now).b = b := hb.symm
  cases row with
  | opens from_ placed =>
    have apart : (x.contact second closed now).inPlace anti = false := by
      cases second <;> cases closed <;> simp_all [Ilk.inPlace]
    simp [Ilk.next, kept, from_, apart]
  | open_ from_ _ offA offB => simp [Ilk.next, Ilk.inPlace, kept, isA, isB, from_, offA, offB]
  | back from_ _ onA onB => simp [Ilk.next, Ilk.inPlace, kept, isA, isB, from_, onA, onB]
  | returning from_ offA offB =>
    have moved : (!a && (b == anti)) = false := by
      cases second <;> cases closed <;> simp_all
    simp [Ilk.next, kept, isA, isB, from_, moved]
  | returned from_ _ onA onB => simp [Ilk.next, Ilk.inPlace, kept, isA, isB, from_, onA, onB]
  | reopened from_ _ offA offB => simp [Ilk.next, Ilk.inPlace, kept, isA, isB, from_, offA, offB]

theorem Ilk.Row.timely (row : x.Row anti inTime a b st) (running : x.state = .discrepant ∨ x.state = .returning) : inTime := by
  cases row with
  | opens from_ _ => rw [from_] at running; exact running.elim nofun nofun
  | returning from_ _ _ => rw [from_] at running; exact running.elim nofun nofun
  | open_ _ timely _ _ => exact timely
  | back _ timely _ _ => exact timely
  | returned _ timely _ _ => exact timely
  | reopened _ timely _ _ => exact timely

/-- A row either leaves HEALTHY for DISCREPANT, or goes between other states and is no cause. -/
theorem Ilk.Row.kind (row : x.Row anti inTime a b st) : x.state = .healthy ∧ st = .discrepant ∨
    x.state ≠ .healthy ∧ x.state ≠ st ∧ st ≠ .fault ∧ st ≠ .discrepant := by
  cases row with
  | opens from_ _ => exact .inl ⟨from_, rfl⟩
  | open_ from_ => rw [from_]; exact .inr ⟨nofun, nofun, nofun, nofun⟩
  | back from_ => rw [from_]; exact .inr ⟨nofun, nofun, nofun, nofun⟩
  | returning from_ => rw [from_]; exact .inr ⟨nofun, nofun, nofun, nofun⟩
  | returned from_ => rw [from_]; exact .inr ⟨nofun, nofun, nofun, nofun⟩
  | reopened from_ => rw [from_]; exact .inr ⟨nofun, nofun, nofun, nofun⟩

end

/-- The state before `brakeSeen` when a row of the table is taken. -/
theorem row_leaves {i : Nat} {second closed a b : Bool} {st : IlkState} {inTime : Prop}
    (row : (ilkOf s i).Row (s.brk.act.ilkAnti i) inTime a b st)
    (ha : a = if second then (ilkOf s i).a else closed) (hb : b = if second then closed else (ilkOf s i).b) :
    let u := setIlk i st (setContact i second closed s)
    (ilkOf u i).state = st ∧ (ilkOf u i).a = a ∧ (ilkOf u i).b = b ∧ (st = .discrepant → u.brk.set = true ∧
      (s.brk.set = false → u.brk.lockout = true ∧ u.brk.tripLast = 2 + i * 16)) ∧ (st ≠ .discrepant → u.brk.set = s.brk.set) := by
  intro u
  have state : (ilkOf (setContact i second closed s) i).state = (ilkOf s i).state := by rw [setContact_ilkOf]; rfl
  have placed : SameBrake s (setContact i second closed s) := modBrk_same rfl rfl fun _ => rfl
  have moves : (ilkOf s i).state ≠ st := by
    rcases row.kind with ⟨from_, rfl⟩ | ⟨-, moves, -⟩
    · rw [from_]; exact nofun
    · exact moves
  have now : ilkOf u i = { (ilkOf s i).contact second closed s.core.t with state := st, since := s.core.t } := by
    unfold u
    rw [setIlk_ilkOf (state ▸ moves), setContact_ilkOf]
    rfl
  refine ⟨by rw [now], by rw [now]; exact ha.symm, by rw [now]; exact hb.symm, ?_⟩
  rcases row.kind with ⟨from_, rfl⟩ | ⟨unhealthy, -, sound, open_⟩
  · have caused : u = brakeCause 2 i (moveIlk i .discrepant (setContact i second closed s)) :=
      setIlk_opens (state.trans from_) nofun nofun
    rw [caused]
    exact ⟨fun _ => cause_sets (placed.trans (moveIlk_same ..)), fun stays => absurd rfl stays⟩
  · have quiet : u = moveIlk i st (setContact i second closed s) := setIlk_quiet (state ▸ moves) sound (state ▸ unhealthy)
    rw [quiet]
    exact ⟨fun opens => absurd opens open_, fun _ => (placed.trans (moveIlk_same ..)).1⟩

theorem discTimeout_faults {i : Nat} (running : (ilkOf s i).state = .discrepant ∨ (ilkOf s i).state = .returning)
    (late : (ilkOf s i).since + ms s.brk.act.discMs ≤ s.core.t) : discTimeout i s = brakeCause 3 i (moveIlk i .fault s) := by
  have moves : (ilkOf s i).state ≠ .fault := by rcases running with h | h <;> rw [h] <;> exact nofun
  unfold discTimeout
  exact (if_pos ⟨running, decide_eq_true late⟩).trans ((setIlk_moves moves).trans (if_pos rfl))

section
variable {i : Nat} (powered : s.pwr.aoIn = true) (hi : i < 4) (enabled : s.brk.act.ilkEn i = true)
include powered hi enabled

theorem discrepancyTimeout_runs (running : (ilkOf s i).state = .discrepant ∨ (ilkOf s i).state = .returning)
    (late : (ilkOf s i).since + ms s.brk.act.discMs ≤ s.core.t) :
    exec (.discrepancyTimeout i) s = .next (brakeSeen (discTimeout i s)) := by
  show execDiscrepancyTimeout i s = _
  exact onAo_holds powered (by simp [hi, enabled, running, passed, late])

theorem interlockFaultClear_runs (faulty : (ilkOf s i).state = .fault) (placed : (ilkOf s i).inPlace (s.brk.act.ilkAnti i) = true)
    (late : (ilkOf s i).since + ms s.brk.act.discMs ≤ s.core.t) :
    exec (.interlockFaultClear i) s = .next (brakeSeen (setIlk i .healthy s)) := by
  show execInterlockFaultClear i s = _
  exact onAo_holds powered (by simp [hi, enabled, faulty, placed, passed, late])

end

/-- Settles O58: each row of R457's table is one of `Ilk.Row`; leaving HEALTHY is the one that is a cause. -/
theorem interlockMoves : Obligations.InterlockMoves := by
  unfold Obligations.InterlockMoves
  refine ⟨fun s i second closed a b st powered hi enabled changes ha hb table => ?_, fun s i powered hi enabled running late => ?_,
    fun s i powered hi enabled faulty placed late => ?_, fun s i hi enabled unhealthy => ?_⟩
  · have row : (ilkOf s i).Row (s.brk.act.ilkAnti i) (s.core.t < (ilkOf s i).since + ms s.brk.act.discMs) a b st := by
      rcases table with ⟨h, p, rfl⟩ | ⟨h, t, p, q, rfl⟩ | ⟨h, t, p, q, rfl⟩ | ⟨h, p, q, rfl⟩ |
        ⟨h, t, p, q, rfl⟩ | ⟨h, t, p, q, rfl⟩
      · exact .opens h p
      · exact .open_ h t p q
      · exact .back h t p q
      · exact .returning h p q
      · exact .returned h t p q
      · exact .reopened h t p q
    have moves : (ilkOf s i).state ≠ st := by
      rcases row.kind with ⟨from_, rfl⟩ | ⟨-, moves, -⟩
      · rw [from_]; exact nofun
      · exact moves
    have inTime : ¬ (((ilkOf s i).state = .discrepant ∨ (ilkOf s i).state = .returning) ∧
        passed s (ilkOf s i).since (ms s.brk.act.discMs) = true) := fun late =>
      Nat.not_le_of_lt (row.timely late.1) (of_decide_eq_true late.2)
    refine ⟨_, (onAo_holds powered (by simp [hi, changes])).trans ?_, row_leaves row ha hb⟩
    rw [contactChange_moves enabled inTime (row.next changes ha hb) moves]
  · refine ⟨discTimeout i s, discrepancyTimeout_runs powered hi enabled running late, ?_⟩
    rw [discTimeout_faults running late, brakeCause_ilkOf, moveIlk_ilkOf]
    exact ⟨rfl, cause_sets (moveIlk_same ..)⟩
  · have quiet : setIlk i .healthy s = moveIlk i .healthy s :=
      setIlk_quiet (by rw [faulty]; exact nofun) nofun (by rw [faulty]; exact nofun)
    refine ⟨setIlk i .healthy s, interlockFaultClear_runs powered hi enabled faulty placed late, ?_⟩
    obtain ⟨set, lockout, -⟩ := moveIlk_same i .healthy s
    rw [quiet, moveIlk_ilkOf]
    exact ⟨rfl, set, lockout⟩
  · exact Bool.eq_false_iff.mpr fun sound => unhealthy (((healthy_iff s).mp sound).2.1 i hi enabled)

end Sys2Proof.Machine
end

section
/-! PROOFS. An event ring's order, its overflow record and its reads (17 R485 to R488). -/

namespace Sys2Proof.Machine

namespace EvRing

variable {g : EvRing} (e : EventRec)

/-- The record that tells how many were lost before another. -/
def overflowRec (g : EvRing) (e : EventRec) : EventRec :=
  { code := 0x0001, fn := e.fn, sev := 0, ticks := e.ticks, overflowBefore := false, time := e.time, obj0 := 0, obj1 := 0, pos := 0,
    arg := g.dropped, arg2 := 0, seq := g.seq }

theorem put_full (full : 1024 ≤ g.recs.length) : g.put e = ({ g with dropped := g.dropped + 1 }, false) := if_pos full

theorem put_room (room : g.recs.length < 1024) (none : g.dropped = 0) :
    g.put e = ({ g with recs := g.recs ++ [{ e with seq := g.seq }], seq := g.seq + 1 }, true) :=
  (if_neg (Nat.not_le_of_lt room)).trans (if_pos none)

theorem put_last (room : g.recs.length = 1023) (lost : g.dropped ≠ 0) :
    g.put e = ({ recs := g.recs ++ [g.overflowRec e], seq := g.seq + 1, dropped := 1 }, false) :=
  (if_neg (by omega)).trans ((if_neg lost).trans (if_pos (by omega)))

theorem put_after_loss (room : g.recs.length ≤ 1022) (lost : g.dropped ≠ 0) :
    g.put e = ({ recs := g.recs ++ [g.overflowRec e, { e with overflowBefore := true, seq := g.seq + 1 }], seq := g.seq + 2,
                 dropped := 0 }, true) :=
  (if_neg (by omega)).trans ((if_neg lost).trans (if_neg (by omega)))

/-- What a ring of at most 1024 records holds stays in front, and it never holds more. -/
theorem put_bounded (h : g.recs.length ≤ 1024) : (g.put e).1.recs.length ≤ 1024 ∧ g.recs <+: (g.put e).1.recs := by
  by_cases full : 1024 ≤ g.recs.length
  · rw [put_full e full]
    exact ⟨h, List.prefix_rfl⟩
  by_cases none : g.dropped = 0
  · rw [put_room e (Nat.lt_of_not_le full) none]
    exact ⟨by simp only [List.length_append, List.length_singleton]; omega, List.prefix_append ..⟩
  by_cases last : g.recs.length = 1023
  · rw [put_last e last none]
    exact ⟨by simp only [List.length_append, List.length_singleton]; omega, List.prefix_append ..⟩
  · rw [put_after_loss e (by omega) none]
    exact ⟨by simp only [List.length_append, List.length_cons, List.length_nil]; omega, List.prefix_append ..⟩

end EvRing

/-- The record an event puts into its ring. -/
def eventRec (code fn obj0 obj1 pos arg arg2 : Nat) (s : State) : EventRec :=
  { code, fn, sev := severityOf code, ticks := stampTicks s, overflowBefore := false, time := stamp s, obj0 := obj0 % 2 ^ 32,
    obj1 := obj1 % 2 ^ 32, pos := pos % 2 ^ 64, arg := arg % 2 ^ 64, arg2 := arg2 % 2 ^ 64, seq := 0 }

/-- With no read waiting on the ring, an event only puts its record there. -/
theorem raise_rings {s : State} {fn : Nat} (noReader : waitReaders s fn = []) (code obj0 obj1 pos arg arg2 : Nat) :
    (raise code fn obj0 obj1 pos arg arg2 s).evt.rings =
      s.evt.rings.set fn ((s.evt.rings.getD fn {}).put (eventRec code fn obj0 obj1 pos arg arg2 s)).1 := by
  unfold raise raiseSev
  extract_lets e r s1
  have none : waitReaders s1 fn = [] := noReader
  rw [none]
  rfl

/-- Settles O59: `EvRing.put` case by case, and a read that takes whole records from the front. -/
theorem eventRings : Obligations.EventRings := by
  unfold Obligations.EventRings
  refine ⟨fun g e room none => EvRing.put_room e room none, fun g e full => EvRing.put_full e full.ge, fun g e room lost => ?_,
    fun g e bounded => EvRing.put_bounded e bounded, fun code fn obj0 obj1 pos arg arg2 s noReader => ?_, fun g len => ?_⟩
  · rw [EvRing.put_after_loss e room (Nat.ne_of_gt lost)]
    exact ⟨g.overflowRec e, rfl, rfl, rfl, rfl, rfl, rfl⟩
  · refine ⟨eventRec code fn obj0 obj1 pos arg arg2 s, rfl, rfl, rfl, rfl, rfl, ?_, fun m other => ?_⟩
    · rw [raise_rings noReader, Tbl.getD_set, if_pos rfl]
    · rw [raise_rings noReader, Tbl.getD_set, if_neg other]
  · refine ⟨List.take_prefix .., ?_⟩
    have taken : (ringRead g len).length ≤ len / 64 := List.length_take_le ..
    omega

end Sys2Proof.Machine
end

section
/-! PROOFS. The brake's inputs: leak samples, the settle window's release, blanking and the other causes (16 R449 to R455, R458, R460). -/

namespace Sys2Proof.Machine

variable {s : State}

/-! ### Leak samples (R450 to R452) -/

@[simp] theorem sample_brk (source x : Nat) (p : Mon → Bool) (s : State) : (sample source x p s).brk = s.brk :=
  congrArg Prod.fst (sample_still source x p s)

@[simp] theorem watchHold_leakOf (s : State) (n : Nat) : leakOf (watchHold s) n = leakOf s n := by
  unfold watchHold
  split <;> rfl

theorem watchHold_same (s : State) : SameBrake s (watchHold s) := by
  unfold watchHold
  split
  · exact modBrk_same rfl rfl fun _ => rfl
  · exact .refl s

/-- The channels after a sample, and the monitors that see it. -/
def sampled (ch pos neg : Nat) (rb : Bool) (s : State) : State :=
  sample 8 (sat 0xFFFF ((pos + neg) / 2)) (fun m => bit m.filtA ch) (s.modBrk fun b => { b with
    leaks := if b.act.leakEn ch then b.leaks.set ch ((leakOf s ch).sample b.act b.settle.isSome pos neg rb) else b.leaks
    leaksP := if b.pend.leakEn ch then b.leaksP.set ch ((b.leaksP.getD ch {}).sample b.pend b.settle.isSome pos neg rb) else b.leaksP })

theorem takeSample_eq (ch pos neg : Nat) (rb : Bool) (s : State) : takeSample ch pos neg rb s =
    if (leakOf (sampled ch pos neg rb s) ch).state = (leakOf s ch).state then watchHold (sampled ch pos neg rb s)
    else brakeSeen (leakChanged ch (leakOf s ch).state s.brk.settle.isSome (sampled ch pos neg rb s)) := rfl

theorem sampled_same (ch pos neg : Nat) (rb : Bool) (s : State) : SameBrake s (sampled ch pos neg rb s) :=
  (modBrk_same rfl rfl fun _ => rfl).trans (.still (sample_still ..))

theorem sampled_trips (ch pos neg : Nat) (rb : Bool) (s : State) : (sampled ch pos neg rb s).brk.trips = s.brk.trips := by
  rw [sampled, sample_brk]
  rfl

theorem sampled_leakOf {ch : Nat} (enabled : s.brk.act.leakEn ch = true) (pos neg : Nat) (rb : Bool) :
    leakOf (sampled ch pos neg rb s) ch = (leakOf s ch).sample s.brk.act s.brk.settle.isSome pos neg rb := by
  unfold leakOf sampled
  rw [sample_brk, State.modBrk_brk, if_pos enabled, Tbl.getD_set, if_pos rfl]
  rfl

section
variable {c : BrkCfg} {settling : Bool} {p n : Nat} {x : Leak}

/-- The third wet sample of a DRY channel makes it WET. -/
theorem Leak.sample_wet (dry : x.state = .dry) (wet : x.wet = 2) (even : max p n ≤ 2 * min p n) (below : (p + n) / 2 < c.wetTh) :
    (x.sample c settling p n true).state = .wet := by
  simp [Leak.sample, dry, wet, below, Nat.not_lt.mpr even]

/-- A dry sample leaves a DRY channel so and ends its run of wet ones. -/
theorem Leak.sample_dry (dry : x.state = .dry) (even : max p n ≤ 2 * min p n) (above : c.wetTh ≤ (p + n) / 2)
    (far : c.dryTh < (p + n) / 2) : (x.sample c settling p n true).state = .dry ∧ (x.sample c settling p n true).wet = 0 := by
  have isDry : 2 * c.dryTh < p + n := by omega
  simp [Leak.sample, dry, isDry, Nat.not_lt.mpr even, Nat.not_lt.mpr above]

end

theorem leakSample_runs {ch pos neg : Nat} {rb : Bool} (powered : s.pwr.aoIn = true) (hch : ch < 8)
    (enabled : s.brk.act.leakEn ch = true) (taken : discarded s ch = false) :
    exec (.leakSample ch pos neg rb) s = .next (takeSample ch pos neg rb s) := by
  show execLeakSample ch pos neg rb s = _
  exact onAo_holds powered (by simp [hch, enabled, taken])

/-- A channel that has become WET outside the settle window is cause 1. -/
theorem leakChanged_wet {ch : Nat} {old : LeakState} (wet : (leakOf s ch).state = .wet) (changes : old ≠ .wet) :
    leakChanged ch old false s = brakeCause 1 ch (brkEvent 0xF004 ch (ch + LeakState.wet.code * 2 ^ 4) s) := by
  unfold leakChanged
  rw [wet]
  dsimp only
  rw [if_neg changes.symm]
  rfl

/-- A channel's WET told after its sample. -/
def wetTold (ch pos neg : Nat) (s : State) : State :=
  brkEvent 0xF004 ch (ch + LeakState.wet.code * 2 ^ 4) (sampled ch pos neg true s)

theorem leakOf_brkEvent (code obj arg : Nat) (s : State) (n : Nat) : leakOf (brkEvent code obj arg s) n = leakOf s n :=
  (Driven.event ..).leaks n

theorem wetTold_leaves (ch pos neg : Nat) (s : State) :
    SameBrake s (wetTold ch pos neg s) ∧ (wetTold ch pos neg s).brk.trips = s.brk.trips :=
  ⟨(sampled_same ..).trans (brkEvent_same ..),
    (congrArg Brk.trips (Driven.event ..).judged :).trans (sampled_trips ch pos neg true s)⟩

/-! ### The settle window's release (R453, R464) -/

theorem releaseBrake_judged (how : Nat) (s : State) :
    (releaseBrake how s).brk.judged = { s.brk with set := false, lockout := false, inhibit := false }.judged :=
  ((Driven.event ..).trans (.startDeferred _)).judged

theorem Leak.decide_dry {x : Leak} (open_ : x.state = .undetermined) (run : 3 ≤ x.dryRun) : x.decide.state = .dry := by
  simp [Leak.decide, open_, run]

theorem Leak.decide_wet {x : Leak} (open_ : x.state = .undetermined) (few : x.dryRun < 3) : x.decide.state = .wet := by
  simp [Leak.decide, open_, Nat.not_le.mpr few]

theorem settled_leakOf {n : Nat} (hn : n < 8) (enabled : s.brk.act.leakEn n = true) : leakOf (settled s) n = (leakOf s n).decide :=
  ((settleLeaks_driven s).leaks n).trans (decided_leakOf hn enabled)

theorem settled_ilkOf (s : State) (i : Nat) : ilkOf (settled s) i = ilkOf s i := (settleLeaks_driven s).ilks i

theorem settled_act (s : State) : (settled s).brk.act = s.brk.act := (settleLeaks_driven s).act

theorem releaseBrake_leakOf (how : Nat) (s : State) (n : Nat) : leakOf (releaseBrake how s) n = leakOf s n :=
  (congrArg (fun b : Brk => b.leaks.getD n {}) (releaseBrake_judged how s) :)

/-- With every channel found dry and every other input healthy, the inputs are healthy at the window's end. -/
theorem settled_healthy (leaks : ∀ n, n < 8 → s.brk.act.leakEn n = true → (leakOf s n).decide.state = .dry)
    (ilks : ∀ i, i < 4 → s.brk.act.ilkEn i = true → (ilkOf s i).state = .healthy) (pins : s.brk.outPins = 0)
    (io : s.brk.ioLost = false) : healthy (settled s) = true := by
  have judged := settled_judged s
  refine (healthy_iff _).mpr ⟨fun n hn en => ?_, fun i hi en => ?_, (congrArg Brk.outPins judged :).trans pins,
    (congrArg Brk.ioLost judged :).trans io⟩
  · rw [settled_act] at en
    rw [settled_leakOf hn en]
    exact leaks n hn en
  · rw [settled_act] at en
    rw [settled_ilkOf]
    exact ilks i hi en

/-! ### Blanking (R454, R455) -/

/-- With no valve in pull-in, BLANK_IN alone is a source. -/
theorem blankSources_idle (idle : valvesIn s .pullIn = []) :
    blankSources s = (s.brk.blankIn, if s.brk.blankIn then s.brk.act.blankIn else 0) := by
  simp [blankSources, idle]

theorem openBlank_idle (idle : valvesIn s .pullIn = []) (low : s.brk.blankIn = false) : openBlank s = s := by
  unfold openBlank
  rw [blankSources_idle idle, low]
  rfl

theorem openBlank_opens (idle : valvesIn s .pullIn = []) (high : s.brk.blankIn = true) (closed : s.brk.blank = none)
    (unguarded : s.brk.guard = none) : openBlank s = s.modBrk fun b => { b with blank := some (s.core.t, b.act.blankIn) } := by
  unfold openBlank
  rw [blankSources_idle idle, high, closed, unguarded]
  rfl

theorem closeBlank_closes {t m : Nat} (open_ : s.brk.blank = some (t, m)) :
    closeBlank s = s.modBrk fun b => { b with blank := none, guard := some s.core.t, lastMask := m } := by
  unfold closeBlank
  rw [open_]

theorem settleBlank_closes (idle : valvesIn s .pullIn = []) (low : s.brk.blankIn = false) : settleBlank s = closeBlank s := by
  unfold settleBlank
  rw [blankSources_idle idle, low]
  rfl

/-- BLANK_IN falls with no valve in pull-in. -/
theorem blankInFall_runs {t m : Nat} (powered : s.pwr.aoIn = true) (high : s.brk.blankIn = true)
    (open_ : s.brk.blank = some (t, m)) (idle : valvesIn s .pullIn = []) : exec .blankInFall s = .next { s with brk := { s.brk with
      blankIn := false, blank := none, guard := some s.core.t, lastMask := m } } := by
  show execBlankInFall s = _
  unfold execBlankInFall
  have closes := (settleBlank_closes (s := s.modBrk fun b => { b with blankIn := false }) idle rfl).trans (closeBlank_closes open_)
  exact (onAo_holds powered high).trans (congrArg _ closes)

theorem blankInRise_runs (powered : s.pwr.aoIn = true) (low : s.brk.blankIn = false) (closed : s.brk.blank = none)
    (unguarded : s.brk.guard = none) (idle : valvesIn s .pullIn = []) : exec .blankInRise s = .next { s with brk := { s.brk with
      blankIn := true, blank := some (s.core.t, s.brk.act.blankIn) } } := by
  show execBlankInRise s = _
  unfold execBlankInRise
  have opens := openBlank_opens (s := s.modBrk fun b => { b with blankIn := true }) idle rfl closed unguarded
  exact (onAo_holds powered (by rw [low]; rfl)).trans (congrArg _ opens)

theorem blankCapExpiry_runs {t m : Nat} (powered : s.pwr.aoIn = true) (open_ : s.brk.blank = some (t, m))
    (late : t + aoNs 1638 ≤ s.core.t) : exec .blankCapExpiry s = .next (brkEvent 0xF006 0 m
      { s with brk := { s.brk with blank := none, guard := some s.core.t, lastMask := m } }) := by
  show execBlankCapExpiry s = _
  unfold execBlankCapExpiry
  rw [open_]
  dsimp only
  refine (onAo_holds powered (decide_eq_true late)).trans ?_
  rw [closeBlank_closes open_]
  rfl

theorem blankGuardEnd_runs {t : Nat} (powered : s.pwr.aoIn = true) (guarded : s.brk.guard = some t)
    (late : t + aoNs 328 ≤ s.core.t) (closed : s.brk.blank = none) (idle : valvesIn s .pullIn = []) :
    exec .blankGuardEnd s = .next { s with brk := { s.brk with
      guard := none, blank := if s.brk.blankIn then some (s.core.t, s.brk.act.blankIn) else none } } := by
  show execBlankGuardEnd s = _
  unfold execBlankGuardEnd
  rw [guarded]
  dsimp only
  refine (onAo_holds powered (decide_eq_true late)).trans (congrArg _ ?_)
  by_cases high : s.brk.blankIn = true
  · rw [if_pos high]
    exact openBlank_opens (s := s.modBrk fun b => { b with guard := none }) idle high closed rfl
  · rw [if_neg high, ← closed]
    exact openBlank_idle (s := s.modBrk fun b => { b with guard := none }) idle (Bool.eq_false_iff.mpr high)

/-! ### The other causes (R449, R458, R460) -/

/-- A cause that is not an input's trips a released brake and wakes the device. -/
theorem afterCause_trips (code idx : Nat) (s : State) :
    afterCause false (brakeCause code idx s) = brakeSeen (brakeCause code idx s) :=
  if_pos ⟨rfl, brakeCause_sets code idx s⟩

/-- Adopting a set changes the active set, the leak channels and the interlocks alone. -/
theorem adopt_keeps (c : BrkCfg) (leaks : Tbl Leak) (s : State) :
    ∃ ilks, adopt c leaks s = s.modBrk fun b => { b with act := c, leaks := leaks, ilks := ilks } := by
  unfold adopt
  extract_lets old s1
  suffices all : ∀ (l : List Nat) (u : State), (∃ ilks, u = s.modBrk fun b => { b with act := c, leaks := leaks, ilks := ilks }) →
      ∃ ilks, forEach l (fun i u =>
        if c.ilkEn i ∧ (old.ilkEn i = false ∨ old.ilkAnti i ≠ c.ilkAnti i) then
          u.modBrk fun b => { b with ilks := b.ilks.alter i {} fun x => x.start (c.ilkAnti i) u.core.t }
        else u) u = s.modBrk fun b => { b with act := c, leaks := leaks, ilks := ilks } from all _ _ ⟨s.brk.ilks, rfl⟩
  intro l
  induction l with
  | nil => exact fun _ h => h
  | cons i l ih =>
    rintro u ⟨ilks, rfl⟩
    refine ih _ ?_
    dsimp only
    split
    · exact ⟨_, rfl⟩
    · exact ⟨ilks, rfl⟩

/-- Both sets at their defaults, as a parity error leaves them. -/
def defaulted (s : State) : State :=
  (adopt {} (leaksUnder s.brk.act {} s.brk.leaks) s).modBrk fun b =>
    { b with pend := {}, leaksP := b.leaks, hold := b.hold.map fun h => { h with bad := true } }

theorem defaulted_leaves (s : State) :
    (defaulted s).brk.act = {} ∧ (defaulted s).brk.pend = {} ∧ (defaulted s).brk.set = s.brk.set := by
  obtain ⟨ilks, h⟩ := adopt_keeps {} (leaksUnder s.brk.act {} s.brk.leaks) s
  rw [defaulted, h]
  exact ⟨rfl, rfl, rfl⟩

theorem configParityError_trips (powered : s.pwr.aoIn = true) (released : s.brk.set = false) :
    exec .configParityError s = .next (brakeSeen (brakeCause 6 0 (defaulted s))) := by
  refine (onAo_holds powered rfl : execConfigParityError s = _).trans ?_
  dsimp only
  rw [released]
  exact congrArg _ (afterCause_trips ..)

theorem outputCheckFault_trips (powered : s.pwr.aoIn = true) (sound : s.brk.outPins = 0) (released : s.brk.set = false) :
    exec (.outputCheckFault 1) s = .next (brakeSeen (brakeCause 5 0 (s.modBrk fun b => { b with outPins := 1 }))) := by
  refine (onAo_holds powered rfl : execOutputCheckFault 1 s = _).trans ?_
  dsimp only
  rw [released, sound]
  exact congrArg _ (afterCause_trips ..)

theorem holdSupplyLoss_trips (powered : s.pwr.aoIn = true) (on : s.pwr.state ≠ .off) (present : s.brk.ioLost = false)
    (released : s.brk.set = false) :
    exec (.holdSupplyLoss true) s = .next (brakeSeen (brakeCause 7 0 (s.modBrk fun b => { b with ioLost := true }))) := by
  refine (onAo_holds powered (by simp [on, present]) : execHoldSupplyLoss true s = _).trans ?_
  dsimp only
  rw [released]
  exact congrArg _ (afterCause_trips ..)

/-- Settles O48: each input's row is run, and a cause on a released brake is the trip of R461. -/
theorem brakeInputs : Obligations.BrakeInputs := by
  unfold Obligations.BrakeInputs
  refine ⟨fun s ch pos neg powered hch enabled taken outside dry wet _ even below _ => ?_,
    fun s ch pos neg powered hch enabled taken dry _ even above far => ?_,
    fun s t0 powered window ended class0 leaks ilks pins io noCause unlocked => ?_,
    fun s t0 powered window ended class1 set => ?_,
    fun s powered low closed unguarded idle => blankInRise_runs powered low closed unguarded idle,
    fun s t0 m powered high open_ idle => blankInFall_runs powered high open_ idle,
    fun s t0 m powered open_ late => ⟨_, blankCapExpiry_runs powered open_ late, ?_⟩,
    fun s t0 powered guarded late closed idle => blankGuardEnd_runs powered guarded late closed idle,
    fun s powered sound released => ⟨_, outputCheckFault_trips powered sound released, ?_⟩,
    fun s powered released => ⟨_, configParityError_trips powered released, ?_⟩,
    fun s powered on present released => ⟨_, holdSupplyLoss_trips powered on present released, ?_⟩⟩
  · have now : (leakOf (sampled ch pos neg true s) ch).state = .wet := by
      rw [sampled_leakOf enabled]
      exact Leak.sample_wet dry wet even below
    have runs : takeSample ch pos neg true s = brakeSeen (brakeCause 1 ch (wetTold ch pos neg s)) := by
      rw [takeSample_eq, if_neg (by rw [now, dry]; exact nofun), outside, dry, Option.isSome_none,
        leakChanged_wet now (old := .dry) nofun]
      rfl
    obtain ⟨told, trips⟩ := wetTold_leaves ch pos neg s
    refine ⟨_, (leakSample_runs powered hch enabled taken).trans (congrArg _ runs), ?_, brakeCause_sets .., fun released => ?_⟩
    · rw [brakeCause_leakOf]
      exact (congrArg Leak.state (leakOf_brkEvent ..)).trans now
    · obtain ⟨-, lockout, last, -, counted⟩ := trip_leaves 1 ch (told.1.trans released)
      exact ⟨lockout, last, trips ▸ counted⟩
  · have now : (leakOf (sampled ch pos neg true s) ch).state = .dry ∧ (leakOf (sampled ch pos neg true s) ch).wet = 0 := by
      rw [sampled_leakOf enabled]
      exact Leak.sample_dry dry even above far
    refine ⟨_, leakSample_runs powered hch enabled taken, ?_⟩
    rw [takeSample_eq, if_pos (by rw [now.1, dry]), watchHold_leakOf]
    have same := (sampled_same ch pos neg true s).trans (watchHold_same _)
    exact ⟨now.1, now.2, same.1, same.2.1⟩
  · have sound : healthy (settled s) = true := by
      refine settled_healthy (fun n hn en => ?_) ilks pins io
      obtain ⟨open_, run⟩ := leaks n hn en
      exact Leak.decide_dry open_ run
    have judged := settled_judged s
    have ends : settleEnd (settled s) = releaseBrake 0 (settled s) :=
      if_pos ⟨(congrArg Brk.cls judged :).trans class0, sound, (congrArg Brk.settleTrip judged :).trans noCause,
        (settled_lockout s).trans unlocked⟩
    have released := releaseBrake_judged 0 (settled s)
    refine ⟨_, settleWindowEnd_runs powered window ended, ?_⟩
    rw [ends]
    refine ⟨(congrArg Brk.set released :), (congrArg Brk.inhibit released :), (congrArg Brk.settle released :), fun n hn en => ?_⟩
    rw [releaseBrake_leakOf]
    exact ((healthy_iff _).mp sound).1 n hn (settled_act s ▸ en)
  · have stays : settleEnd (settled s) = settled s :=
      if_neg fun ends => class1 ((congrArg Brk.cls (settled_judged s) :).symm.trans ends.1)
    refine ⟨_, settleWindowEnd_runs powered window ended, ?_⟩
    rw [stays]
    refine ⟨(settled_set s).trans set, rfl, fun n hn en open_ few => ?_⟩
    rw [settled_leakOf hn en]
    exact Leak.decide_wet open_ few
  · refine ⟨brkEvent_told 0xF006 0 m { s with brk := { s.brk with blank := none, guard := some s.core.t, lastMask := m } }, ?_⟩
    rw [brkEvent_brk]
    exact ⟨rfl, rfl, rfl, rfl⟩
  · have trips := brakeCause_trips (s := s.modBrk fun b => { b with outPins := 1 }) (code := 5) (idx := 0) released
    obtain ⟨set, lockout, last, -⟩ := trip_leaves 5 0 (s := s.modBrk fun b => { b with outPins := 1 }) released
    exact ⟨(congrArg Brk.outPins trips :), set, lockout, last⟩
  · obtain ⟨act, pend, same⟩ := defaulted_leaves s
    have free := same.trans released
    have trips := brakeCause_trips (code := 6) (idx := 0) free
    obtain ⟨set, lockout, last, -⟩ := trip_leaves 6 0 free
    exact ⟨(congrArg Brk.act trips :).trans act, (congrArg Brk.pend trips :).trans pend, set, lockout, last⟩
  · have trips := brakeCause_trips (s := s.modBrk fun b => { b with ioLost := true }) (code := 7) (idx := 0) released
    obtain ⟨set, lockout, last, -⟩ := trip_leaves 7 0 (s := s.modBrk fun b => { b with ioLost := true }) released
    exact ⟨(congrArg Brk.ioLost trips :), set, lockout, last⟩

end Sys2Proof.Machine
end

section
/-! PROOFS. Releases of the brake by BRAKE_RST_N and the brake's registers (16 R449, R462, R463, R471). -/

namespace Sys2Proof.Machine

variable {s : State}

/-! ### What hearing a command leaves -/

@[simp] theorem heard_brk (s : State) : (heard s).brk = s.brk := by
  obtain ⟨d, w, h⟩ := heard_eq s
  rw [h]

@[simp] theorem heard_steward (s : State) : (heard s).mwr.steward = s.mwr.steward := by
  obtain ⟨d, w, h⟩ := heard_eq s
  rw [h]

@[simp] theorem heard_self (s : State) : (heard s).mwr.self = s.mwr.self := by
  obtain ⟨d, w, h⟩ := heard_eq s
  rw [h]

@[simp] theorem heard_pos (s : State) : (heard s).mwr.pos = s.mwr.pos := by
  obtain ⟨d, w, h⟩ := heard_eq s
  rw [h]

@[simp] theorem stewards_heard (s : State) : stewards (heard s) = s.mwr.steward := heard_steward s

/-! ### A hold and its end (R462, R463) -/

/-- A hold is refused unless it lasted 100 ms to 2000 ms over healthy inputs, outside the settle window and with no write of
the pending set. -/
theorem holdRefusal_eq_zero {h : RstHold} : holdRefusal h s = 0 ↔ h.since + ms 100 ≤ s.core.t ∧ s.core.t ≤ h.since + ms 2000 ∧
    h.bad = false ∧ healthyPending s = true ∧ s.brk.settle = none ∧ h.written = false := by
  unfold holdRefusal
  by_cases long : passed s h.since (ms 100) = true
  · have late : h.since + ms 100 ≤ s.core.t := of_decide_eq_true long
    rw [if_neg (by rw [long]; exact nofun)]
    by_cases stuck : h.since + ms 2000 < s.core.t
    · simp [stuck, Nat.not_le.mpr stuck]
    · rw [if_neg stuck]
      cases h.bad <;> cases healthyPending s <;> cases s.brk.settle <;> cases h.written <;> simp [late, Nat.not_lt.mp stuck]
  · have early : ¬ h.since + ms 100 ≤ s.core.t := fun late => long (decide_eq_true late)
    simp [long, early]

theorem brakeRstRise_runs {h : RstHold} (powered : s.pwr.aoIn = true) (held : s.brk.hold = some h) : exec .brakeRstRise s = .next
    (if holdRefusal h s = 0 then acceptHold (s.modBrk fun b => { b with hold := none })
      else brkEvent 0xF003 0 (holdRefusal h s) (s.modBrk fun b => { b with hold := none })) := by
  show execBrakeRstRise s = _
  unfold execBrakeRstRise
  rw [held]
  exact onAo_holds powered rfl

/-- An accepted hold makes the pending set the active one and releases the brake. -/
theorem acceptHold_judged (s : State) : ∃ ilks, (acceptHold s).brk.judged = { s.brk with
    act := s.brk.pend, leaks := s.brk.leaksP, ilks := ilks, leaksP := s.brk.leaksP, holds := sat 0xFFFF (s.brk.holds + 1),
    stuck := false, set := false, lockout := false, inhibit := false }.judged := by
  obtain ⟨ilks, adopted⟩ := adopt_keeps s.brk.pend s.brk.leaksP s
  refine ⟨ilks, ?_⟩
  unfold acceptHold
  rw [adopted]
  exact releaseBrake_judged ..

/-! ### The registers (R449, R471) -/

theorem BrkCfg.write_cfg1 {v : Nat} {p : BrkCfg} : p.write 0xB00084 v = none ↔ ¬ (50 ≤ bits v 9 0 ∧ bits v 9 0 ≤ 500 ∧
    300 ≤ bits v 27 16 ∧ bits v 27 16 ≤ 4000 ∧ bits v 9 0 + 100 ≤ bits v 27 16) := by
  unfold BrkCfg.write
  rw [if_neg (by decide), if_pos rfl]
  dsimp only
  split <;> simp [*]

theorem BrkCfg.write_cfg2 {v : Nat} {p : BrkCfg} :
    p.write 0xB00088 v = none ↔ ¬ (10 ≤ bits v 8 0 ∧ bits v 8 0 ≤ 500) := by
  unfold BrkCfg.write
  rw [if_neg (by decide), if_neg (by decide)]
  dsimp only
  split <;> simp [*]

theorem brkStatus_heard (s : State) : brkStatus (heard s) = brkStatus s := by
  unfold brkStatus
  rw [heard_brk]

theorem brakeStatus_completes {id : CmdId} {c : Cmd} (run : MailRuns s 0x100 id c) :
    Completes (exec (.brakeStatus id) s) c .success (brkStatus s) s.brk.tripLast fun u => u = heard s := by
  refine ⟨heard s, rfl, (mailbox_runs run : execBrakeStatus id s = _).trans ?_⟩
  rw [brkStatus_heard, heard_brk]

theorem brakePending_runs {id : CmdId} {c : Cmd} {off : Nat} (run : MailRuns s 0x101 id c) (steward : s.mwr.steward = true)
    (hoff : off = dw c.pkt 3) (known : off = 0xB00080 ∨ off = 0xB00084 ∨ off = 0xB00088) : exec (.brakePending id) s = .next
      (if (writePending off (dw c.pkt 4) (heard s)).1 then succeed c (writePending off (dw c.pkt 4) (heard s)).2
        else invalid c 16 (writePending off (dw c.pkt 4) (heard s)).2) := by
  refine (mailbox_runs run : execBrakePending id s = _).trans ?_
  subst hoff
  have allowed : passes [deny (!stewards (heard s)) 9 c,
      bad (decide (dw c.pkt 3 ≠ 0xB00080 ∧ dw c.pkt 3 ≠ 0xB00084 ∧ dw c.pkt 3 ≠ 0xB00088)) 12 c] = true := by
    rcases known with h | h | h <;> simp [passes, deny, bad, steward, h]
  exact congrArg _ (checks_pass allowed)

/-- Settles O49: a hold's end is `holdRefusal`'s verdict, and the registers are read and written as they stand. -/
theorem brakeReleases : Obligations.BrakeReleases := by
  unfold Obligations.BrakeReleases
  refine ⟨fun s powered free => ?_, fun s h powered held late inTime fine unwritten sound outside => ?_,
    fun s h powered held refused => ?_, fun s h powered held stuck => ?_, fun s id c run => brakeStatus_completes run,
    fun s id c off p run steward hoff known written => ?_, fun s id c off run steward hoff known written => ?_,
    fun v p => BrkCfg.write_cfg1, fun v p => BrkCfg.write_cfg2⟩
  · show execBrakeRstFall s = _
    exact onAo_holds powered (by rw [free]; rfl)
  · obtain ⟨ilks, judged⟩ := acceptHold_judged (s.modBrk fun b => { b with hold := none })
    refine ⟨_, brakeRstRise_runs powered held, ?_⟩
    rw [if_pos (holdRefusal_eq_zero.mpr ⟨late, inTime, fine, sound, outside, unwritten⟩)]
    exact ⟨(congrArg Brk.set judged :), (congrArg Brk.lockout judged :), (congrArg Brk.inhibit judged :), (congrArg Brk.act judged :),
      (congrArg Brk.hold judged :), (congrArg Brk.holds judged :), (congrArg Brk.stuck judged :)⟩
  · have refusal : holdRefusal h s ≠ 0 := fun zero => by
      obtain ⟨late, inTime, fine, sound, outside, unwritten⟩ := holdRefusal_eq_zero.mp zero
      simp [Nat.not_lt.mpr late, Nat.not_lt.mpr inTime, fine, sound, outside, unwritten] at refused
    refine ⟨_, brakeRstRise_runs powered held, ?_⟩
    rw [if_neg refusal, brkEvent_brk]
    exact ⟨rfl, rfl, rfl, rfl, rfl, rfl⟩
  · show execBrakeRstStuck s = _
    unfold execBrakeRstStuck
    rw [held]
    exact onAo_holds powered (decide_eq_true stuck)
  · have taken : writePending off (dw c.pkt 4) (heard s) = (true, { heard s with brk := { s.brk with
        pend := p, leaksP := leaksUnder s.brk.pend p s.brk.leaksP, hold := s.brk.hold.map fun h => { h with written := true } } }) := by
      unfold writePending
      rw [heard_brk, written]
      simp [State.modBrk]
    refine ⟨_, rfl, (brakePending_runs run steward hoff known).trans ?_⟩
    rw [taken]
    rfl
  · have refused : writePending off (dw c.pkt 4) (heard s) = (false, { heard s with brk := { s.brk with
        refused := sat 0xFFFFFFFF (s.brk.refused + 1) } }) := by
      unfold writePending
      rw [heard_brk, written]
      simp [State.modBrk]
    refine ⟨_, rfl, (brakePending_runs run steward hoff known).trans ?_⟩
    rw [refused]
    rfl

end Sys2Proof.Machine
end

section
/-! PROOFS. Valves: requests, pull-in, deferral and the faults of their groups (16 R466 to R468, R471). -/

namespace Sys2Proof.Machine

variable {s : State}

theorem valveOf_heard (s : State) (n : Nat) : valveOf (heard s) n = valveOf s n := valveOf_congr (congrArg Brk.valves (heard_brk s)) n

theorem startAllowed_heard (s : State) (n : Nat) : startAllowed (heard s) n = startAllowed s n := by
  obtain ⟨d, w, h⟩ := heard_eq s
  rw [h]
  rfl

theorem groupInUse_heard (s : State) (v : Nat) : groupInUse (heard s) v = groupInUse s v := by
  obtain ⟨d, w, h⟩ := heard_eq s
  rw [h]
  rfl

/-! ### Requests (R467, R471) -/

theorem valveOf_waitValve (n : Nat) (c : Cmd) (s : State) (k : Nat) : valveOf (waitValve n c s) k =
    if k = n then { valveOf s n with waiters := (valveOf s n).waiters ++ [c.id] } else valveOf s k :=
  (valveOf_congr (congrArg Brk.valves (accept_told ..).brk) k).trans
    (Tbl.getD_alter s.brk.valves n k {} fun v => { v with waiters := v.waiters ++ [c.id] })

theorem waitValve_driven (n : Nat) (c : Cmd) (s : State) : Driven s (waitValve n c s) :=
  (Driven.modBrk (s := s) (by rfl)).trans (.told (accept_told ..))

section
variable {n : Nat} {c : Cmd}

theorem valveOn_refused (cut : s.brk.set = true ∧ s.brk.act.drops n = true) : valveOn n c s = refuse c 10 12 s := if_pos cut

theorem valveOn_hold (free : ¬ (s.brk.set = true ∧ s.brk.act.drops n = true)) (hold : (valveOf s n).state = .hold) :
    valveOn n c s = succeed c s := by
  unfold valveOn
  rw [if_neg free, hold]

theorem valveOn_starts (off : (valveOf s n).state = .off) (allowed : startAllowed s n = true) :
    valveOn n c s = startValve n (waitValve n c s) := by
  have free : ¬ (s.brk.set = true ∧ s.brk.act.drops n = true) := fun cut => by
    simp [startAllowed, cut.1, cut.2] at allowed
  unfold valveOn
  rw [if_neg free, off]
  exact if_pos allowed

theorem valveSet_runs {id : CmdId} (run : MailRuns s 0x110 id c) (steward : s.mwr.steward = true) (hn : n = fld c.pkt 3 2 0)
    (zero7 : fld c.pkt 3 7 3 = 0) (zero31 : fld c.pkt 3 31 9 = 0) : exec (.valveSet id) s = .next
      ((if fbit c.pkt 3 8 then valveOn n c else valveOff n c) (heard s)) := by
  subst hn
  refine (mailbox_runs run : execValveSet id s = _).trans (congrArg _ (checks_pass ?_))
  simp [passes, deny, fields, rsv, steward, zero7, zero31]

end

/-! ### Pull-in, deferral and faults (R466 to R468) -/

theorem valveOf_ended (n : Nat) (st : ValveState) (answer : Status) (r r2 : Nat) (s : State) (k : Nat) :
    valveOf (answerValve n answer r r2 (setValve n st s)) k =
      if k = n then { state := st, since := s.core.t, waiters := [] } else valveOf s k := by
  rw [valveOf_answerValve, valveOf_setValve, valveOf_setValve, if_pos rfl]
  split <;> rfl

theorem ended_driven (n : Nat) (st : ValveState) (answer : Status) (r r2 : Nat) (s : State) :
    Driven s (answerValve n answer r r2 (setValve n st s)) := (Driven.setValve ..).trans (.answerValve ..)

theorem settled_driven (s : State) : Driven s (startDeferred (settleBlank s)) := (Driven.settleBlank s).trans (.startDeferred _)

/-- With no deferred valve startable, none starts. -/
theorem startDeferred_none (h : ∀ k ∈ s.brk.deferOrder, startAllowed s k = false) : startDeferred s = s := by
  unfold startDeferred
  generalize s.brk.deferOrder = l at h
  induction l with
  | nil => rfl
  | cons k l ih =>
    rw [List.foldl_cons, if_neg fun starts => Bool.noConfusion ((h k (.head _)).symm.trans starts.2)]
    exact ih fun j hj => h j (.tail _ hj)

/-- The event and the mark of a group's HS_FAULT_N low. -/
def groupFaulted (g : Nat) (s : State) : State := brkEvent 0xF008 g g (s.modBrk fun b => { b with hsFault := b.hsFault ||| 2 ^ g })

/-- A valve of a faulty group goes to FAULT. -/
def faultValve (n : Nat) (s : State) : State := answerValve n .notPermitted 10 11 (setValve n .fault s)

/-- The valves of a group that are not off. -/
def groupValves (g : Nat) (s : State) : List Nat :=
  numsWhere 8 fun n => decide (groupOfValve s.brk.valveCfg n = g) && decide ((valveOf s n).state ≠ .off)

theorem hsFault_runs {g : Nat} (powered : s.pwr.aoIn = true) (hg : g < 4) (high : bit s.brk.hsFault g = false) :
    exec (.hsFault g) s = .next (startDeferred (settleBlank
      (forEach (groupValves g (groupFaulted g s)) faultValve (groupFaulted g s)))) := by
  show execHsFault g s = _
  exact onAo_holds powered (by simp [hg, high])

theorem groupFaulted_valveOf (g : Nat) (s : State) (n : Nat) : valveOf (groupFaulted g s) n = valveOf s n :=
  valveOf_brkEvent ..

theorem groupFaulted_brk (g : Nat) (s : State) : (groupFaulted g s).brk.hsFault = s.brk.hsFault ||| 2 ^ g ∧
    (groupFaulted g s).brk.valveCfg = s.brk.valveCfg := by
  rw [groupFaulted, brkEvent_brk]
  exact ⟨rfl, rfl⟩

theorem faultValve_driven (n : Nat) (s : State) : Driven s (faultValve n s) := ended_driven ..

theorem faultValves_fault (l : List Nat) (s : State) : ∀ n ∈ l, (valveOf (forEach l faultValve s) n).state = .fault := by
  refine forEach_valve (p := fun n s => (valveOf s n).state = .fault) l (fun n u _ => ?_) (fun n m u faulty => ?_) s
  · rw [faultValve, valveOf_ended, if_pos rfl]
  · rw [faultValve, valveOf_ended]
    split
    · rfl
    · exact faulty

/-- Settles O50: each request and each event of a valve by its case, and `settled_valve` for what is started after it. -/
theorem valves : Obligations.Valves := by
  unfold Obligations.Valves
  refine ⟨fun s id c n run steward hn z7 z31 on off allowed => ?_, fun s id c n run steward hn z7 z31 on hold free => ?_,
    fun s id c n run steward hn z7 z31 on set drops => ?_, fun s id c n run steward hn z7 z31 disable runs => ?_,
    fun s id c run => ?_, fun s id c run steward z31 ok unused => ?_, fun s n powered pulls late => ?_,
    fun s n powered waits late noneStarts => ?_, fun s g powered hg high => ?_, fun s g powered hg low => ?_⟩
  · have starts : valveOn n c (heard s) = startValve n (waitValve n c (heard s)) :=
      valveOn_starts ((congrArg Valve.state (valveOf_heard s n)).trans off) ((startAllowed_heard s n).trans allowed)
    refine ⟨_, valveSet_runs run steward hn z7 z31, ?_⟩
    rw [if_pos on, starts]
    have kept := (waitValve_driven n c (heard s)).trans (.startValve n _)
    refine ⟨?_, fun k other => ?_, kept.set.trans (congrArg Brk.set (heard_brk s))⟩
    · rw [valveOf_startValve, if_pos rfl, valveOf_waitValve, if_pos rfl, valveOf_heard, (waitValve_driven n c _).core, heard_core]
    · rw [valveOf_startValve, if_neg other, valveOf_waitValve, if_neg other, valveOf_heard]
  · refine ⟨heard s, rfl, (valveSet_runs run steward hn z7 z31).trans ?_⟩
    rw [if_pos on, valveOn_hold (by rw [heard_brk]; exact fun cut => Bool.noConfusion ((free cut.1).symm.trans cut.2))
      ((congrArg Valve.state (valveOf_heard s n)).trans hold)]
    rfl
  · refine ⟨heard s, rfl, (valveSet_runs run steward hn z7 z31).trans ?_⟩
    rw [if_pos on, valveOn_refused (by rw [heard_brk]; exact ⟨set, drops⟩)]
    rfl
  · have isOff (u : State) : (valveOf (complete c .success 0 0 (answerValve n .aborted 0 0 (setValve n .off u))) n).state = .off := by
      rw [valveOf_congr (congrArg Brk.valves (complete_told ..).brk), valveOf_ended, if_pos rfl]
    refine ⟨answerValve n .aborted 0 0 (setValve n .off (heard s)), _, valveSet_runs run steward hn z7 z31, ?_⟩
    rw [if_neg (by rw [disable]; exact nofun)]
    have runs' : (valveOf (heard s) n).state ≠ .off := valveOf_heard s n ▸ runs
    rw [show valveOff n c (heard s) = _ from if_neg runs']
    refine ⟨rfl, ?_, ?_⟩
    · rw [succeed, settled_valve (by rw [isOff]; exact nofun), isOff]
    · have kept := ((ended_driven n .off .aborted 0 0 (heard s)).trans (.told (complete_told c .success 0 0 _))).trans (settled_driven _)
      exact kept.set.trans (congrArg Brk.set (heard_brk s))
  · refine ⟨heard s, rfl, (mailbox_runs run : execValveQuery id s = _).trans ?_⟩
    have same : brkValve (heard s) = brkValve s := by simp [brkValve, valveOf]
    rw [same]
  · refine ⟨startDeferred ((heard s).modBrk fun b => { b with valveCfg := bits (dw c.pkt 3) 22 0 }), ?_,
      (mailbox_runs run : execValveConfig id s = _).trans (congrArg _ ((checks_pass ?_).trans ?_))⟩
    · have kept := Driven.startDeferred ((heard s).modBrk fun b => { b with valveCfg := bits (dw c.pkt 3) 22 0 })
      exact ⟨(congrArg Brk.valveCfg kept.judged :), kept.set.trans (congrArg Brk.set (heard_brk s) :)⟩
    · simp [passes, deny, fields, rsv, steward, z31, ok]
    · simp [writeValveCfg, groupInUse_heard, unused, succeed]
  · refine ⟨_, (onAo_holds powered (by simp [pulls, passed, late]) : execValvePullinEnd n s = _), ?_⟩
    rw [settled_valve] <;> rw [valveOf_ended, if_pos rfl]
    exact nofun
  · refine ⟨_, (onAo_holds powered (by simp [waits, passed, late]) : execValveDeferTimeout n s = _), ?_⟩
    dsimp only
    rw [startDeferred_none noneStarts, if_pos waits, valveOf_ended, if_pos rfl]
  · refine ⟨_, hsFault_runs powered hg high, ?_, fun n hn ofGroup runs => ?_⟩
    · have kept : Driven (groupFaulted g s) _ := (Driven.fold (fun u n => faultValve_driven n u)
        (groupValves g (groupFaulted g s)) _).trans (settled_driven _)
      exact (congrArg Brk.hsFault kept.judged :).trans (groupFaulted_brk g s).1
    · have member : n ∈ groupValves g (groupFaulted g s) := by
        refine List.mem_filter.mpr ⟨List.mem_range.mpr hn, ?_⟩
        rw [(groupFaulted_brk g s).2, groupFaulted_valveOf]
        simp [ofGroup, runs]
      have faulty := faultValves_fault _ (groupFaulted g s) n member
      rw [settled_valve (by rw [faulty]; exact nofun)]
      exact faulty
  · refine ⟨_, (onAo_holds powered (by simp [hg, low]) : execHsFaultClear g s = _), ?_⟩
    have kept := Driven.startDeferred (s.modBrk fun b => { b with hsFault := b.hsFault ^^^ 2 ^ g })
    exact ⟨(congrArg Brk.hsFault kept.judged :), kept.set⟩

end Sys2Proof.Machine
end

section
/-! PROOFS. Slots: requests, power good, time limits and presence (16 R469 to R471). -/

namespace Sys2Proof.Machine

variable {s : State}

theorem slotOf_heard (s : State) (n : Nat) : slotOf (heard s) n = slotOf s n := slotOf_congr (congrArg Brk.slots (heard_brk s)) n

theorem posOf_heard (s : State) (n : Nat) : posOf (heard s) n = posOf s n := congrArg (fun p => p.getD n {}) (heard_pos s)

theorem Driven.posOf {t : State} (h : Driven s t) (n : Nat) : posOf t n = posOf s n := congrArg (fun p => p.getD n {}) h.pos

/-! ### Requests -/

theorem slotOf_waitSlot (n : Nat) (e : Bool) (c : Cmd) (s : State) (k : Nat) : slotOf (waitSlot n e c s) k =
    if k = n then { slotOf s n with waiters := (slotOf s n).waiters ++ [(c.id, e, s.core.t)] } else slotOf s k :=
  (slotOf_congr (congrArg Brk.slots (accept_told ..).brk) k).trans
    (Tbl.getD_alter s.brk.slots n k {} fun v => { v with waiters := v.waiters ++ [(c.id, e, s.core.t)] })

theorem waitSlot_driven (n : Nat) (e : Bool) (c : Cmd) (s : State) : Driven s (waitSlot n e c s) :=
  (Driven.modBrk (s := s) (by rfl)).trans (.told (accept_told ..))

theorem slotSet_runs {enable : Bool} {id : CmdId} {c : Cmd} (run : MailRuns s 0x120 id c) (steward : s.mwr.steward = true)
    (zero7 : fld c.pkt 3 7 3 = 0) (zero31 : fld c.pkt 3 31 9 = 0) (isEnable : fbit c.pkt 3 8 = enable)
    (k : Cmd → Nat → State → State) : slotSet enable id s k = .next (k c (fld c.pkt 3 2 0) (heard s)) := by
  have allowed : passes [deny (!stewards s) 9 c, fields c [rsv c.pkt 3 7 3, rsv c.pkt 3 31 9]] = true := by
    simp [passes, deny, fields, rsv, stewards, steward, zero7, zero31]
  unfold slotSet
  rw [onCmd_runs run.1, if_pos ⟨run.2, isEnable⟩, checks_pass allowed]
  rfl

/-- What SLOT_SET with ENABLE checks once no slot is powered by it already. -/
def enableChecks (c : Cmd) (n : Nat) (s : State) : List (Bool × (State → State)) :=
  [busy (decide ((List.range 8).any fun k => decide (k ≠ n) && decide ((slotOf s k).state = .powering))) 100000 c,
    deny s.brk.set 12 c, deny (decide ((posOf s n).state ≠ .healthy)) 13 c, deny (decide (s.mwr.self = some n)) 14 c]

/-- A slot that begins to power up for a SLOT_SET. -/
def powerSlot (c : Cmd) (n : Nat) (s : State) : State :=
  waitSlot n true c (setSlot n .powering (s.modBrk fun b => { b with keptOff := b.keptOff &&& (255 - 2 ^ n) }))

theorem slotSetEnable_runs {id : CmdId} {c : Cmd} {n : Nat} (run : MailRuns s 0x120 id c) (steward : s.mwr.steward = true)
    (hn : n = fld c.pkt 3 2 0) (zero7 : fld c.pkt 3 7 3 = 0) (zero31 : fld c.pkt 3 31 9 = 0) (isEnable : fbit c.pkt 3 8 = true)
    (off : (slotOf s n).state = .off) :
    exec (.slotSetEnable id) s = .next (checks (enableChecks c n (heard s)) (powerSlot c n) (heard s)) := by
  subst hn
  refine (slotSet_runs run steward zero7 zero31 isEnable _ : execSlotSetEnable id s = _).trans ?_
  rw [slotOf_heard, off]
  rfl

theorem nonePowering_heard {n : Nat} (none : ∀ k, k < 8 → k ≠ n → (slotOf s k).state ≠ .powering) :
    decide ((List.range 8).any fun k => decide (k ≠ n) && decide ((slotOf (heard s) k).state = .powering)) = false := by
  simp only [slotOf_heard, decide_eq_false_iff_not, List.any_eq_true, List.mem_range, Bool.and_eq_true, decide_eq_true_eq]
  rintro ⟨k, hk, other, powering⟩
  exact none k hk other powering

theorem slotOf_powerSlot {c : Cmd} {n : Nat} (off : (slotOf s n).state = .off) (k : Nat) : slotOf (powerSlot c n s) k =
    if k = n then { slotOf s n with state := .powering, since := s.core.t, waiters := (slotOf s n).waiters ++ [(c.id, true, s.core.t)] }
    else slotOf s k := by
  have moves : (slotOf (s.modBrk fun b => { b with keptOff := b.keptOff &&& (255 - 2 ^ n) }) n).state ≠ .powering := by
    show (slotOf s n).state ≠ .powering
    rw [off]
    exact nofun
  rw [powerSlot, slotOf_waitSlot, slotOf_setSlot moves, slotOf_setSlot moves, if_pos rfl, (Driven.setSlot ..).core]
  split <;> rfl

theorem powerSlot_set (c : Cmd) (n : Nat) (s : State) : (powerSlot c n s).brk.set = s.brk.set :=
  ((Driven.setSlot ..).trans (waitSlot_driven ..)).set

/-- A slot cut by a SLOT_SET without ENABLE, whose waiting enables are aborted. -/
def disableSlot (n : Nat) (s : State) : State :=
  answerSlot n true .aborted 0 0 (setSlot n .off (s.modBrk fun b => { b with keptOff := b.keptOff ||| 2 ^ n }))

theorem disableSlot_set (n : Nat) (s : State) : (disableSlot n s).brk.set = s.brk.set :=
  ((Driven.setSlot ..).trans (.answerSlot ..)).set

theorem disableSlot_leaves (n : Nat) (s : State) : (slotOf (disableSlot n s) n).state = .off ∧
    (slotOf (disableSlot n s) n).pg = (slotOf s n).pg ∧ (disableSlot n s).core = s.core :=
  ⟨(answerSlot_state ..).trans (setSlot_state ..), (answerSlot_pg ..).trans (setSlot_pg ..),
    ((Driven.setSlot ..).trans (.answerSlot ..)).core⟩

theorem disableSlot_waiters {n : Nat} (none : (slotOf s n).waiters = []) : (slotOf (disableSlot n s) n).waiters = [] := by
  rw [disableSlot, answerSlot, slotOf_answerSlots, if_pos rfl, setSlot_waiters]
  exact congrArg (List.filter _) none

theorem slotSetDisable_runs {id : CmdId} {c : Cmd} {n : Nat} (run : MailRuns s 0x120 id c) (steward : s.mwr.steward = true)
    (hn : n = fld c.pkt 3 2 0) (zero7 : fld c.pkt 3 7 3 = 0) (zero31 : fld c.pkt 3 31 9 = 0) (isDisable : fbit c.pkt 3 8 = false) :
    exec (.slotSetDisable id) s = .next (if (slotOf s n).pg then waitSlot n false c (disableSlot n (heard s))
      else succeed c (disableSlot n (heard s))) := by
  subst hn
  refine (slotSet_runs run steward zero7 zero31 isDisable _ : execSlotSetDisable id s = _).trans ?_
  rw [← slotOf_heard, ← (disableSlot_leaves _ (heard s)).2.1]
  rfl

/-! ### Power good and presence -/

/-- SLOT_PG of a slot at its new level. -/
def setPg (n : Nat) (level : Bool) (s : State) : State :=
  s.modBrk fun b => { b with slots := b.slots.alter n {} fun v => { v with pg := level } }

theorem slotOf_setPg (n : Nat) (level : Bool) (s : State) : slotOf (setPg n level s) n = { slotOf s n with pg := level } :=
  (Tbl.getD_alter s.brk.slots n n {} fun v => { v with pg := level }).trans (if_pos rfl)

theorem setPg_driven (n : Nat) (level : Bool) (s : State) : Driven s (setPg n level s) := .modBrk rfl

/-- A slot that comes up answers the requests that wait for it. -/
def slotUp (n : Nat) (s : State) : State := answerSlot n true .success 0 0 (setSlot n .on (setPg n true s))

theorem slotPgRise_runs {n : Nat} (powered : s.pwr.aoIn = true) (hn : n < 8) (powering : (slotOf s n).state = .powering) :
    exec (.slotPgRise n) s = .next
      (if (slotUp n s).mwr.running ∧ stewards (slotUp n s) then emit (.entdaa n (0x30 + n)) (slotUp n s) else slotUp n s) := by
  refine (onAo_holds powered (decide_eq_true hn) : execSlotPgRise n s = _).trans ?_
  have now : (slotOf (setPg n true s) n).state = .powering := (congrArg Slot.state (slotOf_setPg ..)).trans powering
  exact congrArg _ (if_pos now)

theorem slotUp_leaves (n : Nat) (s : State) : (slotOf (slotUp n s) n).state = .on ∧ (slotOf (slotUp n s) n).pg = true ∧
    (slotUp n s).brk.set = s.brk.set :=
  ⟨(answerSlot_state ..).trans (setSlot_state ..),
    (answerSlot_pg ..).trans ((setSlot_pg ..).trans (congrArg Slot.pg (slotOf_setPg ..))),
    ((setPg_driven n true s).trans ((Driven.setSlot ..).trans (.answerSlot ..))).set⟩

/-- The position of a slot whose module is gone, before its verifications end. -/
def absent (n : Nat) (s : State) : State :=
  modPos n (fun p => { attempts := p.attempts, waiters := p.waiters }) (answerSlot n true .notPermitted 10 15 (setSlot n .off
    (s.modBrk fun b => { b with present := b.present &&& (255 - 2 ^ n), keptOff := b.keptOff ||| 2 ^ n })))

theorem slotPrsntLoss_runs {n : Nat} (powered : s.pwr.aoIn = true) (hn : n < 8) :
    exec (.slotPrsntLoss n) s = .next (endVerifies n (absent n s)) := by
  refine (onAo_holds powered (decide_eq_true hn) : execSlotPrsntLoss n s = _)

theorem endVerifies_told (n : Nat) (s : State) : Told (modPos n (fun p => { p with waiters := [] }) s) (endVerifies n s) :=
  foldl_told (fun _ _ => completeId_told ..) _ _

theorem posOf_modPos (n : Nat) (f : Position → Position) (s : State) : posOf (modPos n f s) n = f (posOf s n) :=
  (Tbl.getD_alter ..).trans (if_pos rfl)

theorem posOf_endVerifies (n : Nat) (s : State) : posOf (endVerifies n s) n = { posOf s n with waiters := [] } :=
  (congrArg (fun p => p.getD n {}) (endVerifies_told n s).pos_eq).trans (posOf_modPos ..)

theorem endVerifies_brk (n : Nat) (s : State) : (endVerifies n s).brk = s.brk := (endVerifies_told n s).brk

theorem absent_leaves (n : Nat) (s : State) : (slotOf (absent n s) n).state = .off ∧
    (absent n s).brk.present = s.brk.present &&& (255 - 2 ^ n) ∧
    posOf (absent n s) n = { attempts := (posOf s n).attempts, waiters := (posOf s n).waiters } ∧
    (absent n s).brk.set = s.brk.set := by
  have kept := (Driven.setSlot n .off (s.modBrk fun b =>
    { b with present := b.present &&& (255 - 2 ^ n), keptOff := b.keptOff ||| 2 ^ n })).trans
      (.answerSlot n true .notPermitted 10 15 _)
  refine ⟨(answerSlot_state ..).trans (setSlot_state ..), (congrArg Brk.present kept.judged :), ?_, kept.set⟩
  rw [absent, posOf_modPos, kept.posOf]
  rfl

theorem bit_cleared {n : Nat} (hn : n < 8) (v : Nat) : bit (v &&& (255 - 2 ^ n)) n = false := by
  have gone : (255 - 2 ^ n).testBit n = false := by
    interval_cases n <;> decide
  rw [bit, Nat.testBit_and, gone, Bool.and_false]

/-- The one request that waits for a slot to lose power good ends with its time limit. -/
theorem slotDisableTimeout_completes {n t0 : Nat} {id : CmdId} {c : Cmd} (powered : s.pwr.aoIn = true)
    (good : (slotOf s n).pg = true) (late : ms 100 ≤ s.core.t) (waits : (slotOf s n).waiters = [(id, false, t0)])
    (due : t0 + ms 100 ≤ s.core.t) (found : findCmd s id = some c) :
    Completes (exec (.slotDisableTimeout n) s) c .timeout 0 0 fun u => slotOf u n = { slotOf s n with waiters := [] } := by
  have isDue : t0 ≤ s.core.t - ms 100 := by omega
  refine ⟨s.modBrk fun b => { b with slots := b.slots.modify n fun v => { v with
      waiters := v.waiters.filter fun w => !(decide (w.2.1 = false) && decide (w.2.2 ≤ s.core.t - ms 100)) } }, ?_,
    (onAo_holds powered (by simp [good, late]) : execSlotDisableTimeout n s = _).trans ?_⟩
  · have now := slotOf_answerSlots n false (s.core.t - ms 100) .timeout 0 0 s n
    rw [if_pos rfl, waits] at now
    refine (slotOf_congr (congrArg Brk.slots (completeIds_told _ _ ..).brk) n).symm.trans (now.trans ?_)
    simp [isDue]
  · unfold answerSlots
    dsimp only
    rw [waits]
    simp only [List.filter_cons, isDue, decide_true, Bool.and_self, if_true, List.filter_nil, List.foldl_cons, List.foldl_nil]
    unfold completeId
    rw [show findCmd (s.modBrk _) id = findCmd s id from rfl, found]

/-- Settles O51: what a request, power good, a time limit or presence leaves of its slot. -/
theorem slots : Obligations.Slots := by
  unfold Obligations.Slots
  refine ⟨fun s id c n run steward hn z7 z31 on off none released sound other => ?_,
    fun s id c n run steward hn z7 z31 on off none set => ?_, fun s id c n run steward hn z7 z31 disable low => ?_,
    fun s id c n run steward hn z7 z31 disable good free => ?_, fun s n powered hn powering => ?_, fun s n powered hn => ?_,
    fun s n powered powering late => ?_,
    fun s n t0 id c powered good late waits due found => slotDisableTimeout_completes powered good late waits due found,
    fun s n powered on => ?_, fun s n powered hn => ?_, fun s id c run => ?_, fun s id c run steward z31 => ?_⟩
  · have allowed : passes (enableChecks c n (heard s)) = true := by
      simp only [passes, enableChecks, busy, deny, List.all_cons, List.all_nil, nonePowering_heard none]
      simp [released, posOf_heard, sound, other]
    have offNow : (slotOf (heard s) n).state = .off := (congrArg Slot.state (slotOf_heard s n)).trans off
    refine ⟨_, slotSetEnable_runs run steward hn z7 z31 on off, ?_⟩
    rw [checks_pass allowed]
    refine ⟨?_, fun k hk => ?_, (powerSlot_set ..).trans ((congrArg Brk.set (heard_brk s)).trans released)⟩
    · rw [slotOf_powerSlot offNow, if_pos rfl, slotOf_heard, heard_core]
    · rw [slotOf_powerSlot offNow, if_neg hk, slotOf_heard]
  · refine ⟨heard s, rfl, (slotSetEnable_runs run steward hn z7 z31 on off).trans (congrArg _ ?_)⟩
    unfold enableChecks checks busy
    rw [if_neg (by rw [nonePowering_heard none]; exact nofun), heard_brk]
    exact checks_first set
  · refine ⟨disableSlot n (heard s), ?_, (slotSetDisable_runs run steward hn z7 z31 disable).trans ?_⟩
    · exact ⟨(disableSlot_leaves ..).1, (disableSlot_set ..).trans (congrArg Brk.set (heard_brk s))⟩
    · rw [low]
      rfl
  · refine ⟨_, slotSetDisable_runs run steward hn z7 z31 disable, ?_⟩
    obtain ⟨off, -, core⟩ := disableSlot_leaves n (heard s)
    rw [if_pos good, slotOf_waitSlot, if_pos rfl, disableSlot_waiters ((congrArg Slot.waiters (slotOf_heard s n)).trans free),
      core, heard_core]
    exact ⟨off, rfl⟩
  · refine ⟨_, slotPgRise_runs powered hn powering, ?_⟩
    split
    · exact slotUp_leaves n s
    · exact slotUp_leaves n s
  · refine ⟨_, (onAo_holds powered (decide_eq_true hn) : execSlotPgFall n s = _), ?_⟩
    have now := slotOf_setPg n false s
    exact ⟨(answerSlot_state ..).trans (congrArg Slot.state now :), (answerSlot_pg ..).trans (congrArg Slot.pg now :),
      (Driven.trans (setPg_driven n false s) (.answerSlot ..)).set⟩
  · refine ⟨_, (onAo_holds powered (by simp [powering, passed, late]) : execSlotPoweringTimeout n s = _), ?_⟩
    exact ⟨(answerSlot_state ..).trans (setSlot_state ..), ((Driven.setSlot ..).trans (.answerSlot ..)).set⟩
  · refine ⟨_, (onAo_holds powered (decide_eq_true on) : execSlotPgLoss n s = _), ?_⟩
    exact ⟨setSlot_state .., (setSlot_pg ..).trans (congrArg Slot.pg (slotOf_setPg n false s)),
      ((setPg_driven n false s).trans (.setSlot ..)).set⟩
  · obtain ⟨off, present, pos, set⟩ := absent_leaves n s
    refine ⟨_, slotPrsntLoss_runs powered hn, ?_⟩
    rw [slotOf_congr (congrArg Brk.slots (endVerifies_brk ..)), endVerifies_brk, posOf_endVerifies, pos, present]
    exact ⟨off, bit_cleared hn _, rfl, set⟩
  · refine ⟨heard s, rfl, (mailbox_runs run : execSlotQuery id s = _).trans ?_⟩
    have same : brkSlot (heard s) = brkSlot s := by
      obtain ⟨d, w, h⟩ := heard_eq s
      rw [h]
      rfl
    rw [same]
  · refine ⟨_, rfl, (mailbox_runs run : execSlotSelf id s = _).trans (congrArg _ (checks_pass ?_))⟩
    simp [passes, deny, fields, rsv, steward, z31]

end Sys2Proof.Machine
end

section
/-! PROOFS. Bad messages, commands between members and time suspicion (13 R361 to R364, R371, R374). -/

namespace Sys2Proof.Machine

variable {s : State}

/-- Settles O16: every message's row meets the checks of R361 before anything of its own. -/
theorem badMessages : Obligations.BadMessages := by
  unfold Obligations.BadMessages
  intro s h run fails
  have here := idleExit_of_run run
  have bad : msgBad (idleExit s) h = true := here.symm ▸ fails
  have drops (o : Out) : (if msgBad (idleExit s) h then .next (dropMsg (idleExit s)) else o) = .next (dropMsg s) := by
    rw [if_pos bad, here]
  have command (t : State) : (if msgBad (idleExit s) h then dropMsg (idleExit s) else t) = dropMsg s := by
    rw [if_pos bad, here]
  exact ⟨fun _ => drops _, fun _ => drops _, fun _ => drops _, fun _ _ _ _ => congrArg Host.Outcome.next (command _),
    fun _ _ _ _ _ _ => drops _, fun _ => drops _, fun _ _ => drops _, fun _ _ => drops _, fun _ => drops _, drops _⟩

/-! ### Commands between members (R362 to R364, R371) -/

theorem commandReceive_whole (h : MsgHead) (fn : Nat) (pkt : List Word) (env : Option Envelope) (data : List Byte)
    (run : s.pwr.state = .run) :
    exec (.commandReceive h fn pkt env data none) s = .next (runCommand h fn pkt env data s) := by
  show execCommandReceive h fn pkt env data none s = _
  unfold execCommandReceive
  rw [idleExit_of_run run]

/-- The first fragment of a message of several begins a reassembly. -/
theorem commandReceive_fragment (h : MsgHead) (fn : Nat) (pkt : List Word) (env : Option Envelope) (data : List Byte)
    (seq index count : Nat) (run : s.pwr.state = .run) (none : s.dom.reasm = []) (many : 1 < count) :
    exec (.commandReceive h fn pkt env data (some (seq, index, count))) s = .next { s with dom := { s.dom with
      reasm := [{ src := h.src, seq, count, got := [index], since := s.core.t }] } } := by
  show execCommandReceive h fn pkt env data (some (seq, index, count)) s = _
  unfold execCommandReceive
  rw [idleExit_of_run run]
  simp [none, State.modDom, Nat.not_le.mpr many]

theorem reassemblyTimeout_runs {src : Source} {seq : Nat} {r : Reasm} (only : s.dom.reasm = [r]) (hsrc : r.src = src)
    (hseq : r.seq = seq) (late : r.since + ms 10 ≤ s.core.t) : exec (.reassemblyTimeout src seq) s = .next { s with dom := { s.dom with
      reasm := [], drops := sat 0xFFFFFFFF (s.dom.drops + 1) } } := by
  show execReassemblyTimeout src seq s = _
  unfold execReassemblyTimeout
  simp [only, hsrc, hseq, passed, late, onEvent, dropMsg, State.modDom]

theorem replyReceive_runs {h : MsgHead} {fn tag status result result2 : Nat} {retained : Bool} {c : Cmd} {n : Nat}
    (run : s.pwr.state = .run) (sound : msgBad s h = false) (found : findCmd s ⟨.pcie fn, tag⟩ = some c)
    (phase : c.phase = .forwarded n) : exec (.replyReceive h fn tag status result result2 retained) s = .next (completeK c
      { tag, status := Status.ofCode status, result := result % 2 ^ 32, result2 := result2 % 2 ^ 32, retained }
      (noteRecord c h.sender (Status.ofCode status) result2 s)) := by
  show execReplyReceive h fn tag status result result2 retained s = _
  unfold execReplyReceive
  rw [idleExit_of_run run]
  dsimp only
  rw [if_neg (by rw [sound]; exact nofun), found]
  dsimp only
  rw [phase]

theorem forwardTimeout_completes {id : CmdId} {c : Cmd} {n : Nat} (found : findCmd s id = some c) (phase : c.phase = .forwarded n)
    (late : n + ms 100 ≤ s.core.t) : Completes (exec (.forwardTimeout id) s) c .timeout 0 0 fun u =>
      u = { s with dom := { s.dom with fwdTimeouts := sat 0xFFFFFFFF (s.dom.fwdTimeouts + 1) } } := by
  refine ⟨_, rfl, ?_⟩
  show execForwardTimeout id s = _
  unfold execForwardTimeout
  rw [found]
  dsimp only
  rw [phase]
  exact onEvent_holds (decide_eq_true late)

/-! ### Time suspicion (R374) -/

/-- The domain as R374's verdict leaves it. -/
def suspecting (d : Dom) : Dom :=
  { d with timeSuspect := !d.everSynced || decide (50000 < d.offset.natAbs) || d.noMaster || d.holdLong }

/-- Judging time suspicion changes its mark, and an event tells of a change. -/
theorem judgeTime_told (s : State) : Told { s with dom := suspecting s.dom } (judgeTime s) := by
  unfold judgeTime
  dsimp only
  split
  · rename_i same
    have kept : suspecting s.dom = s.dom := by
      unfold suspecting
      rw [same]
    rw [kept]
    exact .refl s
  · exact raisePf_told ..

/-- What an event or a completion leaves of the domain, with the message number put aside. -/
theorem Told.dom_eq {t : State} (h : Told s t) : { t.dom with msgSeq := 0 } = { s.dom with msgSeq := 0 } :=
  (congrArg (fun d : Dom => { d with msgSeq := 0 }) h.dom :)

/-- The second state may take the first one's domain for its own. -/
theorem Told.withDom {t : State} {d : Dom} (h : Told { s with dom := d } t) : Told { s with dom := t.dom } t :=
  { h with dom := rfl }

/-- Settles O15: each row by its one case, and `judgeTime` by the mark it judges. -/
theorem forwardingAndTime : Obligations.ForwardingAndTime := by
  unfold Obligations.ForwardingAndTime
  refine ⟨fun s h fn pkt env data run sound free => ?_, fun s h fn pkt env data run sound barred => ?_,
    fun s h fn pkt env data seq index count run none many => commandReceive_fragment h fn pkt env data seq index count run none many,
    fun s src seq r only hsrc hseq late => reassemblyTimeout_runs only hsrc hseq late,
    fun s h fn tag status result result2 retained c n run sound found phase => replyReceive_runs run sound found phase,
    fun s id c n found phase late => forwardTimeout_completes found phase late, fun s late master => ?_,
    fun s t0 holdover since late short => ?_⟩
  · rw [commandReceive_whole _ _ _ _ _ run, runCommand, if_neg (by rw [sound]; exact nofun), if_neg (by rw [free]; exact nofun)]
  · rw [commandReceive_whole _ _ _ _ _ run, runCommand, if_neg (by rw [sound]; exact nofun), if_pos barred]
  · have told := judgeTime_told (s.modDom fun d => { d with noMaster := true, synced := false })
    refine ⟨_, (onEvent_holds (by simp [passed, late, master]) : execNoMasterTimeout s = _), (congrArg Dom.noMaster told.dom_eq :),
      (congrArg Dom.synced told.dom_eq :), (congrArg Dom.timeSuspect told.dom_eq :).trans ?_, told.withDom⟩
    simp [suspecting]
  · have told := judgeTime_told (s.modDom fun d => { d with holdLong := true })
    refine ⟨_, ?_, (congrArg Dom.holdLong told.dom_eq :), (congrArg Dom.timeSuspect told.dom_eq :).trans ?_, told.withDom⟩
    · show execHoldoverSuspectTimeout s = _
      unfold execHoldoverSuspectTimeout
      rw [since]
      exact onEvent_holds (by simp [passed, late, holdover, short])
    · simp [suspecting]

end Sys2Proof.Machine
end

section
/-! PROOFS. What events, mirrors and queue pairs that end leave of the domain, the clock and power (09 R284, R289, 13 R356). -/

namespace Sys2Proof.Machine

/-- Power but the levels of the domains and the counts of their wakes. -/
def Pwr.supplied (p : Pwr) : Pwr := { p with doms := [], floorWakes := 0, stallMax := 0, stallDom := 0, waking := false }

/-- The reset sequencer with its clock, the domain but its message number, the host interface's acceptance, and power but its
levels. -/
def State.standing (s : State) : Core × Dom × Bool × Pwr := (s.core, { s.dom with msgSeq := 0 }, s.hif.accept, s.pwr.supplied)

theorem Told.standing {s t : State} (h : Told s t) : t.standing = s.standing := by
  unfold State.standing
  rw [h.core, h.dom_eq, h.accept, h.pwr]

theorem State.standing_peers {s t : State} (h : t.standing = s.standing) : t.dom.peers = s.dom.peers :=
  (congrArg (fun x : Core × Dom × Bool × Pwr => x.2.1.peers) h :)

theorem State.standing_peer {s t : State} (h : t.standing = s.standing) (k : Nat) : peer t k = peer s k :=
  congrArg (fun l => l.getD k {}) (State.standing_peers h)

section
variable (s : State)

@[simp] theorem emit_standing (o : Output) : (emit o s).standing = s.standing := rfl
@[simp] theorem modQp_standing (q : Nat) (f : Qp → Qp) : (modQp q f s).standing = s.standing := rfl
@[simp] theorem modRcq_standing (c : Nat) (f : RCq → RCq) : (modRcq c f s).standing = s.standing := rfl
@[simp] theorem sendMsg_standing (m : Nat) (b : DomBody) : (sendMsg m b s).standing = s.standing := (sendMsg_told ..).standing
@[simp] theorem sendAll_standing (l : List Nat) (b : DomBody) : (sendAll l b s).standing = s.standing :=
  (forEach_told (fun _ _ => sendMsg_told ..) l s).standing
@[simp] theorem completeId_standing (id : CmdId) (st : Status) (r r2 : Nat) : (completeId id st r r2 s).standing = s.standing :=
  (completeId_told ..).standing
@[simp] theorem raise_standing (code fn obj0 obj1 pos arg arg2 : Nat) :
    (raise code fn obj0 obj1 pos arg arg2 s).standing = s.standing := (raise_told ..).standing
@[simp] theorem raisePf_standing (code obj0 arg : Nat) : (raisePf code obj0 arg s).standing = s.standing :=
  (raisePf_told ..).standing
@[simp] theorem upCheck_standing : (upCheck s).standing = s.standing := rfl

/-! ### Event queues and completions of queue pairs (R270, R289) -/

@[simp] theorem writeSeg_standing (g : Seg) (l : List PByte) : (writeSeg g l s).standing = s.standing := by
  unfold writeSeg
  split
  · rfl
  · split <;> rfl

@[simp] theorem writeSegs_standing (gs : List Seg) (l : List PByte) : (writeSegs gs l s).standing = s.standing := by
  induction gs generalizing l s with
  | nil => rfl
  | cons g gs ih => exact (ih ..).trans (writeSeg_standing ..)

@[simp] theorem rcqWrite_standing (c : Nat) (e : RCqe) : (rcqWrite c e s).standing = s.standing := by
  unfold rcqWrite putHeld
  split
  · rfl
  · dsimp only
    split <;> simp

@[simp] theorem eventTo_standing (code a1 a2 fn : Nat) : (eventTo code a1 a2 fn s).standing = s.standing := by
  unfold eventTo
  split
  · rfl
  · dsimp only
    split
    · rfl
    · split
      · simp
      · split <;> simp

@[simp] theorem eventAll_standing (code a1 a2 : Nat) : (eventAll code a1 a2 s).standing = s.standing :=
  foldl_keeps State.standing (fun s fn => eventTo_standing s code a1 a2 fn) _ s

@[simp] theorem noteStatus_standing (q : Nat) (st : Status) : (noteStatus q st s).standing = s.standing := by
  unfold noteStatus
  split <;> rfl

@[simp] theorem cqFail_standing (c : Nat) : (cqFail c s).standing = s.standing := by
  unfold cqFail
  split <;> simp

@[simp] theorem wcPut_standing (c q : Nat) (w : Wc) : (wcPut c q w s).standing = s.standing := by
  unfold wcPut
  dsimp only
  split
  · simp
  · split
    · simp
    · split <;> simp

/-! ### Mirrors and fills (R209, R310) -/

@[simp] theorem setMState_standing (i : Nat) (st : MState) : (setMState i st s).standing = s.standing :=
  foldl_keeps State.standing (fun s m => sendMsg_standing s m _) _ _

@[simp] theorem finishMaps_standing (i : Nat) (mine : MapWait → Bool) : (finishMaps i mine s).standing = s.standing :=
  foldl_keeps State.standing (fun s (w : MapWait) => completeId_standing s w.id .success w.result w.result2) _ _

@[simp] theorem landWaiting_standing (i : Nat) : (landWaiting i s).standing = s.standing := by
  refine foldl_keeps State.standing (fun s t => ?_) _ s
  show (writeBin ..).standing = s.standing
  unfold writeBin
  dsimp only
  split <;> rfl

@[simp] theorem breakMirror_standing (i reason : Nat) : (breakMirror i reason s).standing = s.standing := by
  have tokens (t : State) (f : Tly → Tly) : (t.modTly f).standing = t.standing := rfl
  have resilvers (t : State) (f : Grn → Grn) : (t.modGrn f).standing = t.standing := rfl
  unfold breakMirror
  split <;> simp [tokens, resilvers]

@[simp] theorem breakMirrors_standing (reason : Nat) : (breakMirrors reason s).standing = s.standing :=
  foldl_keeps State.standing (fun s i => breakMirror_standing s i reason) _ s

@[simp] theorem qpLeft_standing (q : Nat) : (qpLeft q s).standing = s.standing := by
  unfold qpLeft
  split <;> simp

@[simp] theorem endFill_standing (key : Nat) (f : Fill) : (endFill key f s).standing = s.standing := by
  have fills (t : State) (g : Mem → Mem) : (t.modMem g).standing = t.standing := rfl
  unfold endFill
  dsimp only
  split <;> simp [fills]

@[simp] theorem failFills_standing (q : Nat) (st : Status) : (failFills q st s).standing = s.standing := by
  unfold failFills
  exact foldl_keeps State.standing (fun _ _ => endFill_standing ..) _ s

/-! ### Queue pairs that enter ERROR, and what a lost granary ends (R284, R367) -/

@[simp] theorem endQp_standing (x : QpEnd) : (endQp x s).standing = s.standing := by
  unfold endQp
  split
  · rfl
  · rename_i p held
    split
    · rfl
    · extract_lets ended sent received moved filled
      have keptSent : sent.standing = s.standing := foldl_keeps State.standing (fun s w => wcPut_standing s p.sendCq x.q w) _ ended
      have keptReceived : received.standing = s.standing :=
        (foldl_keeps State.standing (fun s w => wcPut_standing s _ x.q w) _ sent).trans keptSent
      have keptMoved : moved.standing = s.standing := by
        unfold moved
        split <;> simp [keptReceived]
      rw [qpLeft_standing]
      split <;> simp [filled, keptMoved]

@[simp] theorem endQps_standing (n : Nat) (l : List QpEnd) : (endQps n l s).standing = s.standing := by
  induction n generalizing l s with
  | zero => rfl
  | succ n ih =>
    cases l with
    | nil => rfl
    | cons x r => exact (ih ..).trans (endQp_standing ..)

@[simp] theorem memberQpsError_standing (m : Nat) : (memberQpsError m s).standing = s.standing := by
  refine foldl_keeps State.standing (fun s x => ?_) _ s
  split
  · exact endQps_standing ..
  · rfl

@[simp] theorem granaryLost_standing (g : Nat) : (granaryLost g s).standing = s.standing := by
  have recs (l : List MapRec) (t : State) : (l.foldl (fun s r => recLost r s) t).standing = t.standing :=
    foldl_keeps State.standing (fun _ _ => eventTo_standing ..) l t
  unfold granaryLost
  extract_lets told dead ended
  have kept : ended.standing = s.standing := (recs _ told).trans (eventAll_standing ..)
  clear_value ended
  exact kept

end

end Sys2Proof.Machine
end

section
/-! PROOFS. Heartbeats and the states of members (13 R365 to R368, R370, R371). -/

namespace Sys2Proof.Machine

variable {s : State}

/-! ### A member's record -/

theorem peer_modPeer (m : Nat) (f : Peer → Peer) (s : State) (k : Nat) :
    peer (modPeer m f s) k = if k = m then f (peer s m) else peer s k := Tbl.getD_alter ..

theorem peer_modPeer_same (m : Nat) (f : Peer → Peer) (s : State) : peer (modPeer m f s) m = f (peer s m) :=
  (peer_modPeer ..).trans (if_pos rfl)

theorem peer_modPeer_other {m k : Nat} (other : k ≠ m) (f : Peer → Peer) (s : State) : peer (modPeer m f s) k = peer s k :=
  (peer_modPeer ..).trans (if_neg other)

/-- A member LOST: its record says so, and no other record changes. -/
theorem lost_standing (m arg : Nat) (s : State) :
    (lost m arg s).standing = (modPeer m (fun p => { p with state := .lost, witness := none }) s).standing := by
  unfold lost
  extract_lets s1 s2 s3 s4
  have told : s2.standing = s1.standing := raisePf_standing ..
  have ended : s3.standing = s2.standing := by
    unfold s3
    split <;> simp
  have broken : s4.standing = s3.standing := by
    unfold s4
    split <;> simp
  rw [upCheck_standing, broken, ended, told]

theorem quarantine_standing (m reason : Nat) (s : State) : (quarantine m reason s).standing =
    (modPeer m (fun p => { p with state := .quarantined, reason, agree := 0 }) s).standing := by
  simp [quarantine]

/-- The judging of a heartbeat's offset changes the time fields of its sender's record alone. -/
theorem judgeOffset_peer (m : Nat) (b : HbBody) (t4 : Nat) (s : State) : ∃ offset far near mark, peer (judgeOffset m b t4 s) m =
    { peer s m with offset := offset, far := far, near := near, timeSuspect := mark } := by
  unfold judgeOffset
  extract_lets p ofs far near mark s1
  have now : peer s1 m = { peer s m with offset := ofs, far := min far 3, near := min near 3, timeSuspect := mark } :=
    peer_modPeer_same ..
  refine ⟨ofs, min far 3, min near 3, mark, ?_⟩
  split
  · exact now
  · exact (State.standing_peer (raisePf_standing ..) m).trans now

theorem seeSleep_peers (m : Nat) (asleep : Bool) (s : State) : (seeSleep m asleep s).dom.peers = s.dom.peers := by
  unfold seeSleep
  extract_lets now next
  split
  · rfl
  · clear_value next
    cases next with
    | none => rfl
    | some x => exact (State.standing_peers (raisePf_standing ..) :)

/-! ### Heartbeats (R365, R366, R370) -/

/-- The heartbeat of a member as its record takes it in. -/
def noted (h : MsgHead) (b : HbBody) (s : State) : State :=
  judgeOffset h.sender b s.core.time (modPeer h.sender (Peer.heard s.core.t s.core.time h b) s)

/-- What follows the heartbeat of a member that is UP. -/
def judgedUp (h : MsgHead) (b : HbBody) (s : State) : State :=
  if disagreement s h b = 0 then noted h b s else quarantine h.sender (disagreement s h b) (noted h b s)

/-- The sleep a heartbeat shows is seen of a granary. -/
def seen (m : Nat) (asleep : Bool) (s : State) : State := if tableRole s m = 2 then seeSleep m asleep s else s

theorem seen_peer (m : Nat) (asleep : Bool) (s : State) (k : Nat) : peer (seen m asleep s) k = peer s k := by
  unfold seen
  split
  · exact congrArg (fun l => l.getD k {}) (seeSleep_peers ..)
  · rfl

theorem noted_peer (h : MsgHead) (b : HbBody) (s : State) : (peer (noted h b s) h.sender).state = (peer s h.sender).state ∧
    (peer (noted h b s) h.sender).hbAt = some s.core.t ∧ (peer (noted h b s) h.sender).t3 = b.t3 := by
  obtain ⟨offset, far, near, mark, now⟩ := judgeOffset_peer h.sender b s.core.time
    (modPeer h.sender (Peer.heard s.core.t s.core.time h b) s)
  rw [noted, now, peer_modPeer_same]
  exact ⟨rfl, rfl, rfl⟩

theorem heartbeatReceive_up {h : MsgHead} (b : HbBody) (run : s.pwr.state = .run) (sound : msgBad s h = false)
    (other : h.sender ≠ ownMember s) (up : (peer s h.sender).state = .up) (inc : h.inc ≤ (peer s h.sender).inc) :
    exec (.heartbeatReceive h b) s = .next (seen h.sender b.asleep (judgedUp h b s)) := by
  have heard : (peer (modPeer h.sender (Peer.heard s.core.t s.core.time h b) s) h.sender).state = .up := by
    rw [peer_modPeer_same]
    exact up
  have stillUp : (peer (noted h b s) h.sender).state = .up := (noted_peer h b s).1.trans up
  show execHeartbeatReceive h b s = _
  unfold execHeartbeatReceive
  rw [idleExit_of_run run]
  extract_lets here told m old reason restart s1 s2 s3 s4 agrees back s5
  rw [if_neg (by rw [sound]; exact nofun), if_neg other]
  have noRestart : restart = false := by
    unfold restart old m
    simp [here, Nat.not_lt.mpr inc]
  have h2 : s2 = modPeer h.sender (Peer.heard s.core.t s.core.time h b) s := by
    unfold s2
    rw [noRestart]
    rfl
  have h3 : s3 = modPeer h.sender (Peer.heard s.core.t s.core.time h b) s := by
    unfold s3
    rw [h2, heard]
  have h4 : s4 = noted h b s := by
    unfold s4
    rw [h3]
    rfl
  have h5 : s5 = judgedUp h b s := by
    unfold s5
    rw [h4, stillUp]
    rfl
  rw [h5]
  rfl

theorem heartbeatReceive_own {h : MsgHead} (b : HbBody) (run : s.pwr.state = .run) (sound : msgBad s h = false)
    (own : h.sender = ownMember s) : ∃ u : State, u.standing = s.standing ∧
      exec (.heartbeatReceive h b) s = .next (u.modDom fun d => { d with dupAt := some u.core.t }) := by
  show ∃ u : State, _ ∧ execHeartbeatReceive h b s = _
  unfold execHeartbeatReceive
  rw [idleExit_of_run run]
  dsimp only
  rw [if_neg (by rw [sound]; exact nofun), if_pos own]
  refine ⟨_, ?_, rfl⟩
  split
  · exact (eventAll_standing ..).trans (foldl_keeps State.standing (fun s m => memberQpsError_standing s m) _ s)
  · rfl

/-- A message sent leaves another message number and what goes out. -/
def OnlySends (s t : State) : Prop := ∃ n o, t = { s with dom := { s.dom with msgSeq := n }, out := o }

theorem OnlySends.refl (s : State) : OnlySends s s := ⟨s.dom.msgSeq, s.out, rfl⟩

theorem OnlySends.forEach {f : Nat → State → State} (hf : ∀ n t, OnlySends s t → OnlySends s (f n t)) (l : List Nat) {t : State}
    (h : OnlySends s t) : OnlySends s (forEach l f t) := by
  induction l generalizing t with
  | nil => exact h
  | cons n l ih => exact ih (hf n t h)

theorem OnlySends.sendBy {t : State} (h : OnlySends s t) (m : Nat) (b : DomBody) (p : Nat) : OnlySends s (sendBy m b p t) := by
  obtain ⟨n, o, rfl⟩ := h
  exact ⟨_, _, rfl⟩

/-! ### Suspicion, loss and leaving (R366 to R368) -/

/-- A member suspected, with its event and the messages to the others. -/
def suspected (m : Nat) (s : State) : State :=
  let s' := modPeer m (fun p => { p with state := .suspect }) s
  let told := raisePf 0xC002 m (msSinceHb s' (peer s m)) s'
  upCheck (sendAll (upMembers told) (.suspect m (msSinceHb told (peer s m))) told)

theorem suspected_standing (m : Nat) (s : State) :
    (suspected m s).standing = (modPeer m (fun p => { p with state := .suspect }) s).standing := by
  simp [suspected]

theorem peerSuspectTimeout_runs {m t0 : Nat} (up : (peer s m).state = .up) (heard : (peer s m).hbAt = some t0)
    (late : t0 + ms 25 ≤ s.core.t) : exec (.peerSuspectTimeout m) s = .next (suspected m s) := by
  show execPeerSuspectTimeout m s = _
  unfold execPeerSuspectTimeout
  dsimp only
  rw [heard]
  exact onEvent_holds (by simp [up, passed, late])

theorem peerLostTimeout_runs {m t0 : Nat} (suspect : (peer s m).state = .suspect) (heard : (peer s m).hbAt = some t0)
    (late : t0 + ms 50 ≤ s.core.t) (seen : witnessed s m = true) : exec (.peerLostTimeout m) s = .next (lost m 0 s) := by
  show execPeerLostTimeout m s = _
  unfold execPeerLostTimeout
  dsimp only
  rw [heard]
  exact onEvent_holds (by simp [suspect, seen, passed, late])

theorem suspectReceive_runs {h : MsgHead} {m : Nat} (run : s.pwr.state = .run) (sound : msgBad s h = false) (other : m ≠ h.sender)
    (listed : s.dom.members.has m = true) :
    exec (.suspectReceive h m) s = .next (modPeer m (fun p => { p with witness := some s.core.t }) s) := by
  show execSuspectReceive h m s = _
  unfold execSuspectReceive
  rw [idleExit_of_run run]
  dsimp only
  rw [if_neg (by rw [sound]; exact nofun), if_neg (by simp [other, listed])]

theorem leaveReceive_runs {h : MsgHead} (force : Bool) (run : s.pwr.state = .run) (sound : msgBad s h = false) :
    ∃ u, exec (.leaveReceive h force) s = .next (upCheck (modPeer h.sender (fun p => { p with state := .left }) u)) := by
  show ∃ u, execLeaveReceive h force s = _
  unfold execLeaveReceive
  rw [idleExit_of_run run]
  dsimp only
  rw [if_neg (by rw [sound]; exact nofun)]
  exact ⟨_, rfl⟩

/-- Settles O14: each row changes the records its lemma names; events and ended queue pairs leave the domain standing. -/
theorem liveness : Obligations.Liveness := by
  unfold Obligations.Liveness
  refine ⟨fun s joins go due => ?_, fun s h b run sound other up agrees inc => ?_, fun s h b run sound other up differs inc => ?_,
    fun s h b run sound own => ?_, fun s m t0 up heard late => ?_, fun s m t0 suspect heard late seen => ?_,
    fun s h m run sound other listed => ?_, fun s h force run sound => ?_, fun s t0 dup late => ?_⟩
  · refine ⟨_, (onEvent_holds (by simp [joins, go, passed, due]) : execHeartbeatSend s = _), ?_⟩
    obtain ⟨n, o, sent⟩ := OnlySends.forEach (s := s.modDom fun d => { d with hbSentAt := s.core.t })
      (fun m t h => OnlySends.forEach (f := fun p t => sendBy m (.heartbeat (heartbeatFor t m)) p t)
        (fun p t h => h.sendBy m _ p) (paths t m) h) (otherMembers s) (.refl _)
    dsimp only
    rw [sent]
    exact ⟨rfl, rfl⟩
  · obtain ⟨state, at_, t3⟩ := noted_peer h b s
    refine ⟨_, heartbeatReceive_up b run sound other up inc, ?_⟩
    rw [seen_peer, judgedUp, if_pos agrees]
    exact ⟨state.trans up, at_, t3⟩
  · refine ⟨_, heartbeatReceive_up b run sound other up inc, ?_⟩
    rw [seen_peer, judgedUp, if_neg differs, State.standing_peer (quarantine_standing ..), peer_modPeer_same]
    exact ⟨rfl, rfl⟩
  · obtain ⟨u, kept, runs⟩ := heartbeatReceive_own b run sound own
    refine ⟨_, runs, ?_, (State.standing_peers kept :)⟩
    exact (congrArg (fun x : Core × Dom × Bool × Pwr => some x.1.t) kept :)
  · refine ⟨_, peerSuspectTimeout_runs up heard late, ?_, fun k other => ?_⟩
    · rw [State.standing_peer (suspected_standing m s), peer_modPeer_same]
    · rw [State.standing_peer (suspected_standing m s), peer_modPeer_other other]
  · refine ⟨_, peerLostTimeout_runs suspect heard late seen, ?_, fun k other => ?_⟩
    · rw [State.standing_peer (lost_standing ..), peer_modPeer_same]
    · rw [State.standing_peer (lost_standing ..), peer_modPeer_other other]
  · refine ⟨_, suspectReceive_runs run sound other listed, ?_, fun k others => ?_, rfl⟩
    · rw [peer_modPeer_same]
    · rw [peer_modPeer_other others]
  · obtain ⟨u, runs⟩ := leaveReceive_runs (h := h) force run sound
    refine ⟨_, runs, ?_⟩
    rw [State.standing_peer (upCheck_standing _), peer_modPeer_same]
  · show execDuplicateClearTimeout s = _
    unfold execDuplicateClearTimeout
    rw [dup]
    exact onEvent_holds (decide_eq_true late)

end Sys2Proof.Machine
end

section
/-! PROOFS. A granary's COMMIT that a waiting GET_LOG meets (13 R383, 14 R411, 17 R488). -/

namespace Sys2Proof.Machine

/-- A GET_LOG of the PF's event ring (page 0x02, 64 bytes, WAIT) with AUTH 3, which came by CTL_TO_MW for it (R431) and waits for an
event. -/
def mailedRead : Cmd :=
  { id := ⟨.pcie 0, 1⟩, op := .getLog, pkt := [0x10002, 0, 2, 0, 0, 64, 2, 0, 0, 0, 0, 0, 0, 0, 3, 0], phase := .waitRead none
    viaMw := true }

/-- A granary that has agreed to sleep, whose COMMIT is due, with that read waiting. -/
def committing : State := { State.reset with
  core := { State.reset.core with role := .granary }
  hif := { cmds := [mailedRead] }
  dom := { sleep := { state := .agreed, commitAt := 0 } } }

/-- COMMIT's last steps change domains of power alone. -/
theorem sleepCommit_mail {s : State} (agreed : s.dom.sleep.state = .agreed) (due : s.dom.sleep.commitAt ≤ s.core.t) :
    ∃ t, exec .sleepCommit s = .next t ∧ t.mail = (postCtl (.agentVote false) (setSleep .entering id s)).mail := by
  refine ⟨_, (onEvent_holds (by simp [agreed, due]) : execSleepCommit s = _), ?_⟩
  obtain ⟨settled, h⟩ := settleVotes_eq (forEach voteable (fun d s => modPdom d (fun p => { p with access := none }) s)
    (postCtl (.agentVote false) (setSleep .entering id s)))
  obtain ⟨held, k⟩ := forEach_doms (f := fun d s => modPdom d (fun p => { p with access := none }) s) (fun d s => ⟨_, rfl⟩) voteable
    (postCtl (.agentVote false) (setSleep .entering id s))
  dsimp only
  rw [h, k]

/-- The event of the new sleep state completes the read, whose completion enters MW_TO_CTL before the agent's vote. -/
theorem committing_posts : (postCtl (.agentVote false) (setSleep .entering id committing)).mail.mwToCtl.items.length = 2 := rfl

/-- Refutes O11: of the clause on COMMIT. The clause wants the agent's withdrawal alone on MW_TO_CTL, but ENTERING is told by an
event (R383), and an event completes a read that waits for one (R488): in `committing` that read came by the mailbox, so its
completion is on MW_TO_CTL as well (R431). -/
theorem not_sleepVotesAndSteps : ¬ Obligations.SleepVotesAndSteps := by
  unfold Obligations.SleepVotesAndSteps
  intro h
  obtain ⟨-, -, -, -, -, -, -, -, commits, -⟩ := h
  obtain ⟨t, runs, -, -, -, mail⟩ := commits committing rfl (Nat.zero_le _)
  obtain ⟨u, runs', posted⟩ := sleepCommit_mail (s := committing) rfl (Nat.zero_le _)
  rw [runs] at runs'
  cases runs'
  have two := committing_posts
  rw [← posted, mail] at two
  exact absurd two (by decide)

end Sys2Proof.Machine
end

section
/-! PROOFS. A granary's proposal of sleep and its votes (13 R377 to R379, R383). -/

namespace Sys2Proof.Machine

variable {s : State}

theorem State.standing_sleep {t : State} (h : t.standing = s.standing) : t.dom.sleep = s.dom.sleep :=
  (congrArg (fun x : Core × Dom × Bool × Pwr => x.2.1.sleep) h :)

theorem State.standing_seen {t : State} (h : t.standing = s.standing) : t.dom.seen = s.dom.seen :=
  (congrArg (fun x : Core × Dom × Bool × Pwr => x.2.1.seen) h :)

/-- A change of the sleep state, with its event, is the change. -/
theorem setSleep_sleep (st : SleepState) (f : Sleep → Sleep) (s : State) :
    (setSleep st f s).dom.sleep = f { s.dom.sleep with state := st } := State.standing_sleep (raisePf_standing ..)

theorem agree_sleep (s : State) : (agree s).dom.sleep =
    { s.dom.sleep with state := .agreed, commitAt := s.core.t + us 200, awaited := [] } :=
  (State.standing_sleep (sendAll_standing ..)).trans (setSleep_sleep ..)

theorem endProposal_sleep (s : State) : (endProposal s).dom.sleep =
    { s.dom.sleep with state := .awake, quietAt := s.core.t, awaited := [] } := setSleep_sleep ..

/-- The end of a proposal changes the sleep, and an event tells of it. -/
theorem endProposal_told (s : State) : Told { s with dom := { s.dom with sleep := (endProposal s).dom.sleep } } (endProposal s) := by
  rw [endProposal_sleep]
  exact raisePf_told ..

/-! ### The quiet period (R377) -/

/-- The next proposal's number. -/
def nextProposal (s : State) : Nat := (s.dom.sleep.proposal + 1) % 2 ^ 32

section
variable (granary : isGranary s = true) (joins : joined s = true) (ready : s.grn.ready = true) (awake : s.dom.sleep.state = .awake)
  (on : 0 < feature s 0x84 0 30) (quiet : s.dom.sleep.quietAt + sec (feature s 0x84 0 30) ≤ s.core.t)
  (free : (s.dom.objections.any fun o => decide (o.2 = 256)) = false)
include granary joins ready awake on quiet free

theorem sleepQuietExpiry_runs : exec .sleepQuietExpiry s = .next
    (if liveMembers s = [] then agree (s.modDom fun d => { d with sleep := { d.sleep with proposal := nextProposal s, voters := [] } })
      else sendAll (liveMembers s) (.sleepPropose (nextProposal s)) (setSleep .proposed (fun x =>
        { x with proposal := nextProposal s, voters := liveMembers s, awaited := liveMembers s, sentAt := s.core.t }) s)) := by
  show execSleepQuietExpiry s = _
  unfold execSleepQuietExpiry
  exact onEvent_holds (by simp [granary, joins, ready, awake, on, passed, quiet, free])

end

/-! ### Voters (R378, R379) -/

theorem setSeen_seen (m : Nat) (st : SleepState) (s : State) : (setSeen m st s).dom.seen.get m = some st := by
  unfold setSeen
  split
  · assumption
  · rw [State.standing_seen (raisePf_standing ..)]
    exact (Tbl.get_set ..).trans (if_pos rfl)

theorem setSeen_keeps (m : Nat) (st : SleepState) (s : State) :
    (setSeen m st s).dom.sleep = s.dom.sleep ∧ (setSeen m st s).mwr.running = s.mwr.running := by
  unfold setSeen
  split
  · exact ⟨rfl, rfl⟩
  · exact ⟨(State.standing_sleep (raisePf_standing ..) :), (congrArg Mwr.running (raisePf_told ..).mwr :)⟩

theorem sleepProposeReceive_runs {h : MsgHead} (n : Nat) (run : s.pwr.state = .run) (sound : msgBad s h = false)
    (running : s.mwr.running = true) : exec (.sleepProposeReceive h n) s = .next
      (sendMsg h.sender (.sleepVote n (flag (!votesNo (setSeen h.sender .proposed s) h.sender))) (setSeen h.sender .proposed s)) := by
  show execSleepProposeReceive h n s = _
  unfold execSleepProposeReceive
  rw [idleExit_of_run run]
  dsimp only
  rw [if_neg (by rw [sound]; exact nofun), if_pos ((setSeen_keeps ..).2.trans running)]

section
variable {h : MsgHead} (run : s.pwr.state = .run) (sound : msgBad s h = false) (granary : isGranary s = true)
  (proposed : s.dom.sleep.state = .proposed) (awaits : s.dom.sleep.awaited.contains h.sender = true)
include run sound granary proposed awaits

/-- A vote on the proposal that is out, from a member it awaits. -/
theorem sleepVoteMessage_counts {value : Nat} (vote : value ≠ 2) : exec (.sleepVoteMessage h s.dom.sleep.proposal value) s = .next
    (if value = 0 then endProposal s
      else
        let rest := s.dom.sleep.awaited.filter fun m => m ≠ h.sender
        let s := s.modDom fun d => { d with sleep := { d.sleep with awaited := rest } }
        if rest = [] then agree s else s) := by
  show execSleepVoteMessage h s.dom.sleep.proposal value s = _
  unfold execSleepVoteMessage
  rw [idleExit_of_run run]
  dsimp only
  rw [if_neg (by rw [sound]; exact nofun), if_neg (by rw [granary]; exact nofun), if_neg vote,
    if_neg (by simp only [proposed, awaits, ne_eq, not_true_eq_false, Bool.true_eq_false, or_self, not_false_eq_true])]
  split <;> rfl

end

/-- Settles O12: the proposal's rows, with what `agree` and `endProposal` leave of the sleep. -/
theorem sleepProposal : Obligations.SleepProposal := by
  unfold Obligations.SleepProposal
  refine ⟨fun s granary joins ready awake on quiet free none => ?_, fun s granary joins ready awake on quiet free some => ?_,
    fun s h n run sound running => ?_, fun s h n run sound granary proposed number last => ?_,
    fun s h n run sound granary proposed number awaits => ?_, fun s proposed late => ?_⟩
  · refine ⟨_, sleepQuietExpiry_runs granary joins ready awake on quiet free, ?_⟩
    rw [if_pos none, agree_sleep]
    rfl
  · refine ⟨_, sleepQuietExpiry_runs granary joins ready awake on quiet free, ?_⟩
    rw [if_neg some, State.standing_sleep (sendAll_standing ..), setSleep_sleep]
    rfl
  · exact ⟨_, sleepProposeReceive_runs n run sound running, setSeen_seen .., (setSeen_keeps ..).1⟩
  · subst number
    refine ⟨_, sleepVoteMessage_counts run sound granary proposed (by simp [last]) (by decide), ?_⟩
    have none : (s.dom.sleep.awaited.filter fun m => m ≠ h.sender) = [] := by simp [last]
    rw [if_neg (by decide)]
    dsimp only
    rw [if_pos none, agree_sleep]
    rfl
  · subst number
    refine ⟨_, sleepVoteMessage_counts run sound granary proposed awaits (by decide), ?_⟩
    rw [if_pos rfl]
    exact ⟨endProposal_sleep s, endProposal_told s⟩
  · exact ⟨_, (onEvent_holds (by simp [proposed, passed, late]) : execSleepVoteTimeout s = _), endProposal_sleep s, endProposal_told s⟩

end Sys2Proof.Machine
end

section
/-! PROOFS. DOMAIN_JOIN, DOMAIN_LEAVE and DOMAIN_STATUS (13 R357 to R360, R384, R385). -/

namespace Sys2Proof.Machine

variable {s : State}

/-! ### Joining (R357 to R359) -/

/-- The table a DOMAIN_JOIN names. -/
def joinTable (bus : Bus) (c : Cmd) : List Byte :=
  match c.id.origin with
  | .domain _ _ => c.input.take (fld c.pkt 5 13 0)
  | _ => Bus.bytes bus (qw c.pkt 3) (fld c.pkt 5 13 0)

/-- The checks of a DOMAIN_JOIN on its packet and its table's bytes. -/
def joinFirst (c : Cmd) (s : State) (table : List Byte) : List (Bool × (State → State)) :=
  [(s.core.member.isNone, refuse c 7 0),
    fields c [rsv c.pkt 5 31 14, (decide (fld c.pkt 5 13 0 < 144 ∨ 8304 < fld c.pkt 5 13 0), 20)],
    bad (decide ((sha384Bytes table).take 32 ≠ slice (pktBytes c.pkt) 24 32)) 24 c]

/-- The checks of a DOMAIN_JOIN on a table that is one. -/
def joinThen (c : Cmd) (s : State) (t : MTable) : List (Bool × (State → State)) :=
  [(!envelopeOk s (s.dom.key.getD t.key) c, refuse c 5 0),
    (!envelopeNew s c, refuse c 6 0),
    busy (flashReleased s) 1000 c,
    ((lateRefusal s c.fn (cmdFast s c) c.pkt c.op).isSome, lateAnswer c s),
    bad (decide (t.id ≠ dw c.pkt 2) || decide ((t.members.getD (ownMember s) ⟨0, 0⟩).role ≠ s.core.role.code) ||
      !t.members.has (ownMember s) || (joined s && decide (s.dom.id ≠ t.id))) 8 c]

/-- The domain as a join under an envelope leaves it. -/
def joinAs (t : MTable) (table : List Byte) (e : Envelope) (s : State) : State :=
  applyTable t table
    (s.modDom fun d => { d with seq := e.seq, stored := some { table, env := e, member := ownMember s, role := s.core.role } })

/-- A DOMAIN_JOIN past its checks completes with the new digest. -/
def joinDone (c : Cmd) (t : MTable) (table : List Byte) (s : State) : State :=
  let u := joinAs t table (c.env.getD ⟨0, 0, 0⟩) s
  complete c .success (u.dom.digest % 2 ^ 32) (u.dom.digest / 2 ^ 32) u

theorem domainJoin_runs {id : CmdId} {bus : Bus} {c : Cmd} {t : MTable} (run : Runs s .domainJoin id c)
    (parses : parseTable (joinTable bus c) = some t) : exec (.domainJoin id bus) s = .next (checks (joinFirst c s (joinTable bus c))
      (fun s => checks (joinThen c s t) (joinDone c t (joinTable bus c)) s) s) := by
  refine (onCmd_runs run : execDomainJoin id bus s = _).trans (congrArg _ ?_)
  refine congrArg (fun k => checks _ k s) (funext fun s => ?_)
  split
  · rename_i none
    exact absurd (none.symm.trans parses) nofun
  · rename_i x some
    cases Option.some.inj (some.symm.trans parses)
    rfl

theorem joinFirst_field {c : Cmd} {table : List Byte} (member : s.core.member ≠ none) (zero : fld c.pkt 5 31 14 = 0)
    (low : 144 ≤ fld c.pkt 5 13 0) (high : fld c.pkt 5 13 0 ≤ 8304) (k : State → State) : checks (joinFirst c s table) k s =
      if (sha384Bytes table).take 32 ≠ slice (pktBytes c.pkt) 24 32 then invalid c 24 s else k s := by
  have known : s.core.member.isNone = false := by
    cases h : s.core.member with
    | none => exact absurd h member
    | some _ => rfl
  have inRange : (fields c [rsv c.pkt 5 31 14, (decide (fld c.pkt 5 13 0 < 144 ∨ 8304 < fld c.pkt 5 13 0), 20)]).1 = false := by
    simp [fields, rsv, zero, Nat.not_lt.mpr low, Nat.not_lt.mpr high]
  unfold joinFirst checks
  rw [known, if_neg nofun]
  unfold checks
  rw [inRange, if_neg nofun]
  unfold checks bad
  simp [checks]

theorem joinThen_envelope {c : Cmd} {t : MTable} (forged : envelopeOk s (s.dom.key.getD t.key) c = false) (k : State → State) :
    checks (joinThen c s t) k s = refuse c 5 0 s := checks_first (by rw [forged]; rfl)

theorem joinThen_passes {c : Cmd} {t : MTable} {e : Envelope} (signed : envelopeOk s (s.dom.key.getD t.key) c = true)
    (env : c.env = some e) (newer : s.dom.seq < e.seq) (idle : flashReleased s = false)
    (late : lateRefusal s c.fn (cmdFast s c) c.pkt c.op = none) (hid : t.id = dw c.pkt 2) (listed : t.members.has (ownMember s) = true)
    (role : (t.members.getD (ownMember s) ⟨0, 0⟩).role = s.core.role.code) (same : joined s = true → s.dom.id = t.id) :
    passes (joinThen c s t) = true := by
  have again : joined s = false ∨ s.dom.id = t.id := by
    cases h : joined s with
    | false => exact .inl rfl
    | true => exact .inr (same h)
  simp [passes, joinThen, busy, bad, signed, envelopeNew, env, newer, idle, late, ← hid, role, listed, again]

/-- What a join leaves of the domain. -/
theorem joinAs_dom (t : MTable) (table : List Byte) (e : Envelope) (s : State) : (joinAs t table e s).dom.join = .member ∧
    (joinAs t table e s).dom.id = t.id ∧ (joinAs t table e s).dom.members = t.members ∧ (joinAs t table e s).dom.key = some t.key ∧
      (joinAs t table e s).dom.seq = e.seq ∧
        (joinAs t table e s).dom.stored = some { table, env := e, member := ownMember s, role := s.core.role } := by
  unfold joinAs applyTable
  extract_lets digest applied told
  have kept : told.standing = applied.standing := raisePf_standing ..
  clear_value told
  have dom : { told.dom with msgSeq := 0 } = { applied.dom with msgSeq := 0 } :=
    (congrArg (fun x : Core × Dom × Bool × Pwr => x.2.1) kept :)
  exact ⟨(congrArg Dom.join dom :), (congrArg Dom.id dom :), (congrArg Dom.members dom :), (congrArg Dom.key dom :),
    (congrArg Dom.seq dom :), (congrArg Dom.stored dom :)⟩

/-! ### Leaving (R360) -/

/-- The members told that this one leaves. -/
def sayLeave (force : Bool) (s : State) : State :=
  if joined s then forEach (otherMembers s) memberQpsError (sendAll (otherMembers s) (.leave force) s) else s

/-- The record of membership gone, with the map records of a mill. -/
def unjoin (s : State) : State :=
  let s := s.modDom fun d => { d with join := .none, id := 0, members := [], tableDigest := 0, digest := 0, peers := [] }
  if isMill s then s.modGrn fun g => { g with recs := [], asked := [] } else s

/-- The stored join forgotten when the command asks for it. -/
def forget (all : Bool) (s : State) : State := if all then s.modDom fun d => { d with stored := none, key := none } else s

theorem domainLeave_runs {id : CmdId} {c : Cmd} (run : Runs s .domainLeave id c) (zero : fld c.pkt 2 31 2 = 0)
    (allowed : isGranary s = false ∨ fbit c.pkt 2 0 = true) : exec (.domainLeave id) s =
      .next (complete c .success 0 0 (upCheck (forget (fbit c.pkt 2 1) (unjoin (sayLeave (fbit c.pkt 2 0) s))))) := by
  refine (onCmd_runs run : execDomainLeave id s = _).trans (congrArg _ (checks_pass ?_))
  rcases allowed with h | h <;> simp [passes, fields, rsv, zero, h]

theorem unjoin_dom (s : State) : (unjoin s).dom = { s.dom with
    join := .none, id := 0, members := [], tableDigest := 0, digest := 0, peers := [] } := by
  unfold unjoin
  dsimp only
  split <;> rfl

theorem forget_dom (all : Bool) (s : State) : ∃ stored key, (forget all s).dom = { s.dom with stored := stored, key := key } ∧
    (all = true → key = none ∧ stored = none) := by
  cases all with
  | true => exact ⟨none, none, rfl, fun _ => ⟨rfl, rfl⟩⟩
  | false => exact ⟨s.dom.stored, s.dom.key, rfl, nofun⟩

/-! ### The status (R384, R385) -/

theorem domainStatus_pcie {id : CmdId} {c : Cmd} {f : Nat} (run : Runs s .domainStatus id c) (origin : c.id.origin = .pcie f) :
    Completes (exec (.domainStatus id) s) c .success (domStatus s) (s.dom.digest % 2 ^ 32) fun u =>
      u = { s with out := s.out ++ [.hostWrite c.fn (qw c.pkt 2) ((List.range 256).flatMap (statusRecord s))] } := by
  refine ⟨_, rfl, (onCmd_runs run : execDomainStatus id s = _).trans ?_⟩
  have written (data : List Byte) : emitData c (qw c.pkt 2) data s = { s with out := s.out ++ [.hostWrite c.fn (qw c.pkt 2) data] } := by
    unfold emitData
    rw [origin]
    rfl
  rw [origin]
  dsimp only
  rw [written]
  rfl

/-- Settles O13: a join's checks in their order and what it records; a leave forgets it; the status is read as it stands. -/
theorem domainCommands : Obligations.DomainCommands := by
  unfold Obligations.DomainCommands
  refine ⟨fun s id bus c table t e run zero low high htable parses env newer member hid listed role same => ?_,
    fun s id c run zero allowed => ?_, fun s id c f run origin => domainStatus_pcie run origin, fun s id c run origin => ?_⟩
  · obtain rfl : table = joinTable bus c := htable
    have runs := domainJoin_runs run parses
    rw [joinFirst_field member zero low high] at runs
    refine ⟨fun wrong => ?_, fun right forged => ?_, fun right signed idle late => ?_⟩
    · rw [runs, if_pos wrong]
    · rw [runs, if_neg (not_not_intro right), joinThen_envelope forged]
    · refine ⟨joinAs t (joinTable bus c) e s, ?_, joinAs_dom ..⟩
      rw [runs, if_neg (not_not_intro right), checks_pass (joinThen_passes signed env newer idle late hid listed role same), joinDone, env]
      rfl
  · refine ⟨_, ?_, domainLeave_runs run zero allowed⟩
    obtain ⟨stored, key, kept, gone⟩ := forget_dom (fbit c.pkt 2 1) (unjoin (sayLeave (fbit c.pkt 2 0) s))
    have left : (upCheck (forget (fbit c.pkt 2 1) (unjoin (sayLeave (fbit c.pkt 2 0) s)))).dom = _ := kept
    rw [left, unjoin_dom]
    exact ⟨rfl, rfl, rfl, rfl, rfl, gone⟩
  · refine ⟨s, rfl, (onCmd_runs run : execDomainStatus id s = _).trans ?_⟩
    rw [origin]

end Sys2Proof.Machine
end

section
/-! PROOFS. The rail sequence: its waits, their order and their ends (14 R404, 18 R498, R499, R504, R505). -/

namespace Sys2Proof.Machine

variable {s : State}

/-! ### What the levels of the domains leave alone -/

/-- The reset sequencer, the host interface's acceptance, and power but the levels of its domains. -/
def State.supply (s : State) : Core × Bool × Pwr := (s.core, s.hif.accept, s.pwr.supplied)

theorem State.supply_of_standing {t : State} (h : t.standing = s.standing) : t.supply = s.supply :=
  (congrArg (fun x : Core × Dom × Bool × Pwr => (x.1, x.2.2)) h :)

theorem Told.supply {t : State} (h : Told s t) : t.supply = s.supply := State.supply_of_standing h.standing

theorem State.supply_parts {c : Core} {accept : Bool} {p : Pwr} (h : s.supply = (c, accept, p)) :
    s.core = c ∧ s.hif.accept = accept ∧ s.pwr.supplied = p :=
  ⟨(congrArg Prod.fst h :), (congrArg (fun x : Core × Bool × Pwr => x.2.1) h :),
    (congrArg (fun x : Core × Bool × Pwr => x.2.2) h :)⟩

section
variable (s)

@[simp] theorem raisePf_supply (code obj0 arg : Nat) : (raisePf code obj0 arg s).supply = s.supply := (raisePf_told ..).supply

@[simp] theorem settleVotes_supply : (settleVotes s).supply = s.supply := by
  obtain ⟨doms, h⟩ := settleVotes_eq s
  rw [h]
  rfl

@[simp] theorem noteLevels_supply (f : State → State) : (noteLevels f s).supply = (f s).supply := by
  obtain ⟨doms, h⟩ := noteLevels_eq f s
  rw [h]
  rfl

@[simp] theorem retrainPorts_supply : (retrainPorts s).supply = s.supply := by
  refine foldl_keeps State.supply (fun s p => ?_) _ s
  dsimp only
  split <;> rfl

@[simp] theorem restorePorts_supply : (restorePorts s).supply = s.supply := by
  unfold restorePorts
  rw [settleVotes_supply, retrainPorts_supply]

end

/-! ### A bring-up and an exit that end (R35, R403, R404) -/

/-- Power as a bring-up leaves it. -/
def Pwr.bootedUp (p : Pwr) : Pwr :=
  { p with pll := true, wait := .idle, state := .run, target := .run, cold := false, tries := 0, endpoint := !p.perst }

theorem broughtUp_supply (s : State) : (broughtUp s).supply = ({ s.core with
    fill := needsFill s, roleStat := if needsFill s then .none else s.core.role }, true, s.pwr.bootedUp.supplied) := by
  unfold broughtUp
  extract_lets fill tries up core hif grn sized ddr
  have start : sized.supply = ({ s.core with fill, roleStat := if fill then .none else s.core.role }, true, s.pwr.bootedUp.supplied) := by
    obtain ⟨doms, h⟩ := noteLevels_eq (·.modPwr Pwr.bootedUp) s
    have upIs : up = _ := h
    simp only [sized, grn, hif, core, upIs]
    rfl
  have voted : ddr.supply = sized.supply := by
    unfold ddr
    split <;> rfl
  have told : (if ddr.pwr.waking then
      raisePf 0xD002 0 (ddr.pwr.wakeSrc + bits tries 1 0 * 2 ^ 8) (raisePf 0xD001 0 0 (ddr.modPwr fun p => { p with waking := false }))
    else ddr).supply = ddr.supply := by
    split
    · rw [raisePf_supply, raisePf_supply]
      rfl
    · rfl
  exact ((settleVotes_supply _).trans told).trans (voted.trans start)

/-- Power as a return to RUN leaves it, but the count of its attempts. -/
def Pwr.atRun (p : Pwr) : Pwr := { p with wait := .idle, entry := none, target := .run, state := .run }

theorem backToRun_supply (s : State) :
    (backToRun s).supply = (s.core, s.hif.accept, { s.pwr.atRun.supplied with tries := 0 }) := by
  unfold backToRun
  extract_lets abandoned run waked
  have told : Told s abandoned := by
    unfold abandoned
    split
    · exact raisePf_told ..
    · exact .refl s
  have isRun : waked.supply = (s.core, s.hif.accept, s.pwr.atRun.supplied) := by
    unfold waked run enterState
    rw [raisePf_supply, noteLevels_supply, raisePf_supply]
    show (abandoned.core, abandoned.hif.accept, abandoned.pwr.atRun.supplied) = _
    rw [told.core, told.accept, told.pwr]
  obtain ⟨core, accept, pwr⟩ := State.supply_parts isRun
  rw [restorePorts_supply]
  show (waked.core, waked.hif.accept, { waked.pwr.supplied with tries := 0 }) = _
  rw [core, accept, pwr]

theorem woken_supply (s : State) :
    (woken s).supply = (s.core, true, { s.pwr.atRun.supplied with tries := 0, pll := true, endpoint := !s.pwr.perst }) := backToRun_supply _

theorem thenWarm_none (none : s.pwr.warmAfter = false) : thenWarm s = s := by
  unfold thenWarm
  rw [none]
  rfl

/-! ### Rails taken away (R499) -/

theorem removeRails_eq (s : State) : ∃ pll xtal railEn falling, removeRails s = { s with pwr := { s.pwr with
    pll := pll, xtal := xtal, railEn := railEn, falling := falling } } := by
  by_cases cold : s.pwr.firstRail = 0
  · have removed : removeRails s = { s with pwr := dropNext 0 8 s.core.t { s.pwr with xtal := false, pll := false } } :=
      congrArg (fun p => { s with pwr := p }) (if_pos cold)
    rw [removed, dropNext_eq]
    exact ⟨_, _, _, _, rfl⟩
  · have removed : removeRails s = { s with pwr := dropNext 2 3 s.core.t { s.pwr with pll := false } } :=
      congrArg (fun p => { s with pwr := p }) (if_neg cold)
    rw [removed, dropNext_eq]
    exact ⟨_, _, _, _, rfl⟩

theorem failAttempt_first {cause : Nat} (first : s.pwr.tries = 0) : ∃ p, failAttempt cause s = { s with pwr := p } ∧
    p.wait = .pause ∧ p.waitAt = s.core.t ∧ p.failCause = cause ∧ p.tries = 1 ∧ p.failCount = sat 15 (s.pwr.failCount + 1) := by
  unfold failAttempt
  obtain ⟨pll, xtal, railEn, falling, removed⟩ := removeRails_eq s
  rw [removed, if_pos (by simp [State.modPwr, first])]
  exact ⟨_, rfl, rfl, rfl, rfl, congrArg (· + 1) first, rfl⟩

theorem failAttempt_second {cause : Nat} (second : s.pwr.tries = 1) : ∃ p, failAttempt cause s = { s with pwr := p } ∧
    p.state = .wakeFailed ∧ p.wakeFailN = true ∧ p.failCause = cause ∧ p.failEntered = true := by
  unfold failAttempt
  obtain ⟨pll, xtal, railEn, falling, removed⟩ := removeRails_eq s
  rw [removed, if_neg (by simp [State.modPwr, second])]
  exact ⟨_, rfl, rfl, rfl, rfl, rfl⟩

theorem waitedFor_of {w : SeqWait} {limit : Nat} (waits : s.pwr.wait = w) (late : s.pwr.waitAt + limit ≤ s.core.t) :
    waitedFor w limit s = true := by
  simp [waitedFor, waits, passed, late]

/-! ### The rows -/

theorem railPgRise_runs {n : Nat} (steward : Bool) (waits : s.pwr.wait = .pg n) : exec (.railPgRise n steward) s = .next
    { s with pwr :=
      let p := { s.pwr with railPg := s.pwr.railPg.set n true, strap := if s.pwr.cold ∧ n = 0 then steward else s.pwr.strap }
      if p.cold then
        if 7 ≤ n then { p with wait := .xtal, waitAt := s.core.t } else { p with wait := .gap (n + 1), waitAt := s.core.t }
      else { p with wait := .pll, waitAt := s.core.t } } :=
  (onEvent_holds (decide_eq_true waits) : execRailPgRise n steward s = _)

theorem pgoodTimeout_runs {n : Nat} (waits : s.pwr.wait = .pg n) (late : s.pwr.waitAt + ms 2 ≤ s.core.t) :
    exec .pgoodTimeout s = .next (failAttempt 1 s) := by
  refine (onEvent_holds ?_ : execPgoodTimeout s = _)
  rw [waits]
  exact waitedFor_of waits late

theorem pllLock_runs (waits : s.pwr.wait = .pll) :
    exec .pllLock s = .next (if s.pwr.cold then finishCold s else finishWake s) :=
  (onEvent_holds (decide_eq_true waits) : execPllLock s = _)

/-- Settles O9: each wait of the sequencer by its own row; a lock ends in the state that `broughtUp` or `woken` leaves. -/
theorem railSequence : Obligations.RailSequence := by
  unfold Obligations.RailSequence
  refine ⟨fun s n steward waits cold low => ?_, fun s n steward waits cold last => ?_, fun s n steward waits warm => ?_,
    fun s waits => ?_, fun s waits cold none => ?_, fun s waits warm none => ?_, fun s n waits late first => ?_,
    fun s waits late second => ?_, fun s waits late second => ?_, fun s waits late => ?_⟩
  · rw [railPgRise_runs steward waits]
    simp [cold, Nat.not_le.mpr low]
  · rw [railPgRise_runs steward waits]
    simp [cold, last]
  · rw [railPgRise_runs steward waits]
    simp [warm]
  · exact (onEvent_holds (decide_eq_true waits) : execXtalMwReady s = _)
  · obtain ⟨core, accept, pwr⟩ := State.supply_parts (broughtUp_supply s)
    have stays : finishCold s = broughtUp s := thenWarm_none ((congrArg Pwr.warmAfter pwr :).trans none)
    rw [pllLock_runs waits, if_pos cold, stays]
    exact ⟨_, rfl, (congrArg Pwr.state pwr :), (congrArg Pwr.pll pwr :), (congrArg Pwr.cold pwr :), (congrArg Pwr.wait pwr :),
      (congrArg Core.fill core :), (congrArg Core.roleStat core :), accept⟩
  · obtain ⟨core, accept, pwr⟩ := State.supply_parts (woken_supply s)
    have stays : finishWake s = woken s := thenWarm_none ((congrArg Pwr.warmAfter pwr :).trans none)
    rw [pllLock_runs waits, if_neg (by simp [warm]), stays]
    exact ⟨_, rfl, (congrArg Pwr.state pwr :), (congrArg Pwr.pll pwr :), (congrArg Pwr.wait pwr :), accept⟩
  · obtain ⟨p, fails, pause, since, cause, tries, count⟩ := failAttempt_first (cause := 1) first
    rw [pgoodTimeout_runs waits late, fails]
    exact ⟨_, rfl, pause, since, cause, tries, count, rfl⟩
  · obtain ⟨p, fails, state, low, cause, entered⟩ := failAttempt_second (cause := 2) second
    have runs : exec .xtalMwTimeout s = .next (failAttempt 2 s) :=
      (onEvent_holds (waitedFor_of waits late) : execXtalMwTimeout s = _)
    rw [runs, fails]
    exact ⟨_, rfl, state, low, cause, entered, rfl⟩
  · obtain ⟨p, fails, state, low, cause, entered⟩ := failAttempt_second (cause := 3) second
    have runs : exec .pllLockTimeout s = .next (failAttempt 3 s) :=
      (onEvent_holds (waitedFor_of waits late) : execPllLockTimeout s = _)
    rw [runs, fails]
    exact ⟨_, rfl, state, low, cause, entered, rfl⟩
  · exact ⟨_, (onEvent_holds (waitedFor_of waits late) : execWakeRetryDelayEnd s = _), rfl, rfl, rfl, rfl, rfl⟩

end Sys2Proof.Machine
end

section
/-! PROOFS. POWER_STATE and the votes of the host on a domain (14 R390, R392, R397, R400, R412, R414). -/

namespace Sys2Proof.Machine

variable {s : State} {id : CmdId} {c : Cmd}

/-! ### POWER_STATE (R397, R400) -/

theorem powerState_runs {target : Target} (run : Runs s .powerState id c) (all : c.context = 0xFF) (named : dw c.pkt 2 = target.code)
    (k : Cmd → State → State) : powerState target id s k = .next (k c s) := by
  have code : fld c.pkt 2 2 0 = target.code := by
    unfold fld
    rw [named]
    cases target <;> rfl
  have zero : fld c.pkt 2 31 3 = 0 := by
    unfold fld
    rw [named]
    cases target <;> rfl
  have known : [0, 2, 3, 4].contains target.code = true := by cases target <;> rfl
  have formed : (fields c [(decide (c.context ≠ 0xFF), 4), (!([0, 2, 3, 4].contains target.code), 8), rsv c.pkt 2 31 3]).1 = false :=
    fields_pass (by simp only [known, all]; simp [rsv_zero zero]) c
  refine (onCmd_runs run).trans (congrArg _ ?_)
  dsimp only
  rw [code, if_neg (fun h => h.1 rfl)]
  exact checks_pass (passes_one formed)

theorem powerEntry_runs {target : Target} (run : Runs s .powerState id c) (all : c.context = 0xFF)
    (named : dw c.pkt 2 = target.code) (running : s.pwr.state = .run) (noEntry : s.pwr.entry = none) (free : sleepRefusal c s = 0) :
    powerEntry target id s = .next { complete c .success target.code 0 s with
      pwr := { s.pwr with
        target, wakeTimer := if dw c.pkt 3 = 0 then none else some (s.core.t + ms (dw c.pkt 3))
        entry := some { target, since := s.core.t } } } := by
  have told := complete_told c .success target.code 0 s
  refine (powerState_runs run all named _).trans (congrArg _ ?_)
  dsimp only
  rw [free, checks_pass (passes_one rfl)]
  unfold State.modPwr
  dsimp only
  rw [told.pwr, told.core, running, noEntry]
  rfl

theorem wake_run (running : s.pwr.state = .run) (none : s.pwr.entry = none) (code : Nat) : wake code s = s := by
  unfold wake
  rw [running, none]
  exact ite_self s

theorem wake_entering (running : s.pwr.state = .run) (some : s.pwr.entry ≠ none) (powered : s.pwr.aoIn = true) (code : Nat) :
    wake code s = abandonEntry s := by
  unfold wake
  rw [running, if_neg (by simp [powered])]
  exact if_pos (Option.isSome_iff_ne_none.mpr some)

/-- An entry given up before its commitment, where it came from RUN (R400). -/
theorem abandonEntry_leaves (fresh : ¬ ∃ e, s.pwr.entry = some e ∧ e.fromSleep = true ∧ s.pwr.state = .entering) :
    ∃ u, abandonEntry s = raisePf 0xD001 0 0xFF u ∧ u.pwr.entry = none ∧ u.pwr.target = .run ∧
      u.pwr.state = (if s.pwr.state = .entering then .run else s.pwr.state) ∧ u = { s with pwr := u.pwr, mwr := u.mwr } := by
  have stays : (s.pwr.entry.any (fun e => e.fromSleep) && decide (s.pwr.state = .entering)) = false := by
    cases h : s.pwr.entry with
    | none => rfl
    | some e =>
      rw [Option.any_some, Bool.and_eq_false_iff, decide_eq_false_iff_not]
      by_cases fromSleep : e.fromSleep = true
      · exact .inr fun entering => fresh ⟨e, h, fromSleep, entering⟩
      · exact .inl (Bool.eq_false_iff.mpr fromSleep)
  unfold abandonEntry
  obtain ⟨doms, noted⟩ := noteLevels_eq (·.modPwr fun p =>
    { p with state := if p.state = .entering then .run else p.state, target := .run, entry := none }) s
  rw [stays, noted]
  exact ⟨_, rfl, rfl, rfl, rfl, rfl⟩

/-- Settles O6: past its checks POWER_STATE completes, and RUN is a wake where the others begin an entry. -/
theorem powerStates : Obligations.PowerStates := by
  unfold Obligations.PowerStates
  refine ⟨fun s id c run all named running none => ?_, fun s id c run all named running entry powered => ?_,
    fun s id c run all named running none free zero => ?_, fun s id c run all named running none free timed => ?_,
    fun s id c run all named running none free zero => ?_⟩
  · have told := complete_told c .success 0 0 s
    refine ⟨s, rfl, (powerState_runs (target := .run) run all named _ : execPowerStateRun id s = _).trans (congrArg _ ?_)⟩
    exact wake_run ((congrArg Pwr.state told.pwr :).trans running) ((congrArg Pwr.entry told.pwr :).trans none) 3
  · have told := complete_told c .success 0 0 s
    have runs : exec (.powerStateRun id) s = .next (abandonEntry (complete c .success 0 0 s)) := by
      refine (powerState_runs (target := .run) run all named _ : execPowerStateRun id s = _).trans (congrArg _ ?_)
      exact wake_entering ((congrArg Pwr.state told.pwr :).trans running) (told.pwr ▸ entry)
        ((congrArg Pwr.aoIn told.pwr :).trans powered) 3
    have still : (complete c .success 0 0 s).pwr.state = .run := (congrArg Pwr.state told.pwr :).trans running
    obtain ⟨u, abandoned, noEntry, target, state, -⟩ := abandonEntry_leaves (s := complete c .success 0 0 s)
      (fun ⟨_, _, _, entering⟩ => absurd (entering.symm.trans still) (by decide))
    have after := raisePf_told 0xD001 0 0xFF u
    refine ⟨_, runs, ?_⟩
    rw [abandoned, after.pwr, noEntry, target, state, still]
    exact ⟨rfl, rfl, rfl, rfl⟩
  · refine (powerEntry_runs (target := .sleep) run all named running none free : execPowerStateSleep id s = _).trans ?_
    rw [if_pos zero]
    rfl
  · refine (powerEntry_runs (target := .deepSleep) run all named running none free : execPowerStateDeepSleep id s = _).trans ?_
    rw [if_neg timed]
    rfl
  · refine (powerEntry_runs (target := .off) run all named running none free : execPowerStateOff id s = _).trans ?_
    rw [if_pos zero]
    rfl

/-! ### A domain settled (R391, R393) -/

theorem pdom_modPdom (d : Nat) (f : PDom → PDom) (s : State) (e : Nat) :
    pdom (modPdom d f s) e = if e = d then f (pdom s d) else pdom s e := Tbl.getD_alter s.pwr.doms d e {} f

theorem pdom_modPdom_same (d : Nat) (f : PDom → PDom) (s : State) : pdom (modPdom d f s) d = f (pdom s d) :=
  (pdom_modPdom ..).trans (if_pos rfl)

theorem pdom_modPdom_other {d e : Nat} (other : e ≠ d) (f : PDom → PDom) (s : State) : pdom (modPdom d f s) e = pdom s e :=
  (pdom_modPdom ..).trans (if_neg other)

theorem pdom_congr {t : State} (h : t.pwr.doms = s.pwr.doms) (d : Nat) : pdom t d = pdom s d := congrArg (fun l => l.getD d {}) h

/-- Settling a domain is a change of its times, or nothing. -/
theorem settle_modPdom (d : Nat) (s : State) : settle d s = s ∨
    ∃ (w : PDom → Option Nat) (c : Option Nat), settle d s = modPdom d (fun p => { p with wakeAt := w p, clearAt := c }) s := by
  unfold settle
  extract_lets p
  split
  · exact .inl rfl
  · split
    · split
      · split
        · exact .inr ⟨_, _, rfl⟩
        · exact .inl rfl
      · split
        · exact .inr ⟨_, _, rfl⟩
        · exact .inl rfl
      · split
        · exact .inr ⟨(·.wakeAt), _, rfl⟩
        · exact .inl rfl
    · split
      · exact .inl rfl
      · exact .inl rfl
      · split
        · exact .inl rfl
        · exact .inr ⟨(·.wakeAt), _, rfl⟩

theorem settle_other {d e : Nat} (other : e ≠ d) (s : State) : pdom (settle d s) e = pdom s e := by
  rcases settle_modPdom d s with h | ⟨w, c, h⟩
  · rw [h]
  · rw [h, pdom_modPdom_other other]

theorem settle_same (d : Nat) (s : State) : ∃ w c, pdom (settle d s) d = { pdom s d with wakeAt := w, clearAt := c } := by
  rcases settle_modPdom d s with h | ⟨w, c, h⟩
  · exact ⟨(pdom s d).wakeAt, (pdom s d).clearAt, by rw [h]⟩
  · exact ⟨_, _, by rw [h, pdom_modPdom_same]⟩

theorem settle_level (d : Nat) (s : State) (e : Nat) : (pdom (settle d s) e).level = (pdom s e).level := by
  by_cases same : e = d
  · obtain ⟨w, c, h⟩ := settle_same d s
    rw [same, h]
  · rw [settle_other same]

theorem settle_mail (d : Nat) (s : State) : (settle d s).mail = s.mail := by
  obtain ⟨doms, h⟩ := settle_eq d s
  rw [h]

/-- A voted floor that is OFF begins to wake. -/
theorem settle_wakes {d : Nat} (floor : d < 16) (vote : voted s d = true) (off : (pdom s d).level = .off) (up : powered s = true) :
    settle d s = modPdom d (fun p => { p with wakeAt := some (p.wakeAt.getD s.core.t), clearAt := none }) s := by
  unfold settle
  extract_lets p
  have isOff : p.level = .off := off
  rw [if_neg (fun h => absurd (h.1 ▸ floor) (by decide)), if_pos vote, isOff]
  exact if_pos up

theorem voted_host {d : Nat} (free : d < 16 → bit s.stn.floorFence d = false) (host : (pdom s d).host ≠ []) : voted s d = true := by
  unfold voted
  extract_lets p
  rw [if_neg (fun h => absurd (free h.1) (by simp [h.2]))]
  have some : p.host.isEmpty = false := by
    cases h : p.host with
    | nil => exact absurd h host
    | cons => rfl
  rw [some]
  rfl

/-! ### POWER_VOTE and POWER_QUERY (R392, R412, R414) -/

theorem powerVote_runs {action : Nat} (run : Runs s .powerVote id c) (act : fld c.pkt 2 0 0 = action) (zero : fld c.pkt 2 31 1 = 0)
    (votes : c.context < 16 ∧ bit s.stn.floorFence c.context = false ∨ c.context = 25 ∧ layoutPairs s ≠ [])
    (k : Nat → Cmd → State → State) : powerVote action id s k = .next (k c.context c s) := by
  have formed : (fields c [(decide (30 ≤ c.context ∧ c.context ≠ 0xFF), 4), rsv c.pkt 2 31 1]).1 = false := by
    refine fields_pass ?_ c
    have low : ¬ 30 ≤ c.context := by omega
    simp [rsv_zero zero, low]
  have known : (!(decide (c.context < 16) || (decide (c.context = 25) && !(layoutPairs s).isEmpty))) = false := by
    rcases votes with ⟨floor, -⟩ | ⟨ddr, pairs⟩
    · simp [floor]
    · simp [ddr, pairs]
  have free : (decide (c.context < 16) && bit s.stn.floorFence c.context) = false := by
    rcases votes with ⟨-, free⟩ | ⟨ddr, -⟩
    · simp [free]
    · simp [ddr]
  refine (onCmd_runs run).trans (congrArg _ ?_)
  dsimp only
  rw [if_neg (fun h => h act)]
  rw [checks_pass]
  simp only [passes, List.all_cons, List.all_nil, deny, formed, known, free]
  rfl

/-- The host's vote of a function put on a domain, and told. -/
def hostVote (c : Cmd) (s : State) : State :=
  tellMw (.powerVote c.context c.fn true) (modPdom c.context (fun p => { p with host := p.host ++ [c.fn] }) s)

theorem pdom_hostVote (c : Cmd) (s : State) (e : Nat) : pdom (hostVote c s) e =
    if e = c.context then { pdom s c.context with host := (pdom s c.context).host ++ [c.fn] } else pdom s e := pdom_modPdom ..

theorem powerVotePlace_runs (run : Runs s .powerVote id c) (act : fld c.pkt 2 0 0 = 0) (zero : fld c.pkt 2 31 1 = 0)
    (votes : c.context < 16 ∧ bit s.stn.floorFence c.context = false ∨ c.context = 25 ∧ layoutPairs s ≠ [])
    (noGranary : isGranary s = false) : exec (.powerVotePlace id) s = .next
      (if (pdom s c.context).host.contains c.fn then succeed c s
      else if (pdom (settle c.context (hostVote c s)) c.context).level = .active then succeed c (settle c.context (hostVote c s))
      else accept c (modPdom c.context (fun p => { p with waiters := p.waiters ++ [c.id] }) (settle c.context (hostVote c s)))) := by
  refine (powerVote_runs run act zero votes _ : execPowerVotePlace id s = _).trans (congrArg _ ?_)
  dsimp only
  rw [noGranary]
  rfl

theorem powerVote_settled (d : Nat) (m : Msg) (f : PDom → PDom) (s : State) : settle d (tellMw m (modPdom d f s)) =
    { s with pwr := { s.pwr with doms := (settle d (tellMw m (modPdom d f s))).pwr.doms }, mail := (tellMw m s).mail } := by
  obtain ⟨doms, h⟩ := settle_eq d (tellMw m (modPdom d f s))
  rw [h]
  rfl

theorem powerQuery_runs (run : Runs s .powerQuery id c) (known : ¬ (30 ≤ c.context ∧ c.context ≠ 0xFF)) :
    exec (.powerQuery id) s = .next (if c.context = 0xFF then complete c .success (pwrState s) (pwrWakeSrc s) s
      else complete c .success
        ((levelOf s c.context).code + s.pwr.state.code * 2 ^ 2 + flag (!(pdom s c.context).host.isEmpty) * 2 ^ 8 +
          otherVotes s c.context * 2 ^ 9)
        (sat 0xFFFFFFFF ((s.core.t - (pdom s c.context).since) / 1000)) s) := by
  have formed : (fields c [(decide (30 ≤ c.context ∧ c.context ≠ 0xFF), 4)]).1 = false :=
    fields_pass (by rw [decide_eq_false known]; simp) c
  exact (onCmd_runs run : execPowerQuery id s = _).trans (congrArg _ (checks_pass (passes_one formed)))

/-- Settles O5: a vote changes its domain's host votes and then settles it, so only that domain's votes and times move. -/
theorem powerVotes : Obligations.PowerVotes := by
  unfold Obligations.PowerVotes
  refine ⟨fun s id c run act zero votes noGranary active => ?_,
    fun s id c run act zero floor free noGranary up off alone noWake => ?_,
    fun s id c run act zero votes => ?_, fun s id c run all => ?_, fun s id c run low => ?_⟩
  · rw [powerVotePlace_runs run act zero votes noGranary]
    by_cases held : (pdom s c.context).host.contains c.fn = true
    · rw [if_pos held]
      exact ⟨s, ⟨held, active, fun _ _ => rfl, by rw [if_pos held], rfl⟩, rfl⟩
    · rw [if_neg held]
      have level : (pdom (settle c.context (hostVote c s)) c.context).level = .active := by
        rw [settle_level, pdom_hostVote, if_pos rfl]
        exact active
      rw [if_pos level]
      have settled : settle c.context (hostVote c s) = _ := powerVote_settled ..
      have mail : (settle c.context (hostVote c s)).mail = (tellMw (.powerVote c.context c.fn true) s).mail := settle_mail ..
      refine ⟨_, ⟨?_, level, fun e other => ?_, ?_, ?_⟩, rfl⟩
      · obtain ⟨w, cl, h⟩ := settle_same c.context (hostVote c s)
        rw [h, pdom_hostVote, if_pos rfl]
        simp
      · rw [settle_other other, pdom_hostVote, if_neg other]
      · rw [if_neg held]
        exact mail
      · rw [mail]
        exact settled
  · rw [powerVotePlace_runs run act zero (.inl ⟨floor, free⟩) noGranary, if_neg (by simp [alone])]
    have dom : pdom (hostVote c s) c.context = { pdom s c.context with host := [c.fn] } := by
      rw [pdom_hostVote, if_pos rfl, alone]
      rfl
    have vote : voted (hostVote c s) c.context = true := voted_host (fun _ => free) (by simp [dom])
    have isOff : (pdom (hostVote c s) c.context).level = .off := by rw [dom]; exact off
    have wakes := settle_wakes floor vote isOff up
    rw [wakes, if_neg (by rw [pdom_modPdom_same, dom]; simp [off])]
    refine ⟨_, rfl, ?_, fun e other => ?_, rfl⟩
    · rw [pdom_modPdom_same, pdom_modPdom_same, dom]
      dsimp only
      rw [noWake]
      rfl
    · rw [pdom_modPdom_other other, pdom_modPdom_other other, pdom_hostVote, if_neg other]
  · have runs := (powerVote_runs run act zero votes _ : execPowerVoteWithdraw id s = _)
    refine ⟨_, ⟨?_, fun e other => ?_, powerVote_settled ..⟩, runs⟩
    · obtain ⟨w, cl, h⟩ := settle_same c.context (tellMw (.powerVote c.context c.fn false)
        (modPdom c.context (fun p => { p with host := p.host.filter fun f => f ≠ c.fn }) s))
      have own : pdom (tellMw (.powerVote c.context c.fn false)
        (modPdom c.context (fun p => { p with host := p.host.filter fun f => f ≠ c.fn }) s)) c.context = _ := pdom_modPdom_same ..
      rw [h, own]
      simp
    · rw [settle_other other]
      exact pdom_modPdom_other other ..
  · rw [powerQuery_runs run (by simp [all]), if_pos all]
    exact ⟨s, rfl, rfl⟩
  · rw [powerQuery_runs run (by omega), if_neg (by omega)]
    exact ⟨s, rfl, rfl⟩

end Sys2Proof.Machine
end

section
/-! PROOFS. IDLE, the holds and wakes of domains, and the wake sources (14 R388, R391, R393, R402, R403). -/

namespace Sys2Proof.Machine

variable {s : State}

/-! ### IDLE (R388) -/

/-- A powered floor with its clock stopped. -/
def PDom.gated (now d : Nat) (x : PDom) : PDom := if d < 16 ∧ x.level = .active then { x with level := .gated, since := now } else x

theorem pdom_mapVal {f : Nat → PDom → PDom} (d : Nat) (listed : pdom s d ≠ {}) :
    (s.pwr.doms.mapVal f).getD d {} = f d (pdom s d) := by
  have get : (s.pwr.doms.mapVal f).get d = (s.pwr.doms.get d).map (f d) := Tbl.get_mapVal ..
  unfold pdom Tbl.getD at *
  rw [get]
  cases h : s.pwr.doms.get d with
  | none => exact absurd (by rw [h]; rfl) listed
  | some x => rfl

theorem idleEnter_runs (run : s.pwr.state = .run) (target : s.pwr.target = .run) (noEntry : s.pwr.entry = none)
    (noItems : s.trn.items = []) (noCmds : s.hif.cmds = []) : exec .idleEnter s = .next
      (enterState .idle (s.modPwr fun p => { p with doms := p.doms.mapVal (PDom.gated s.core.t) })) :=
  (onEvent_holds (by simp [run, target, noEntry, noItems, noCmds]) : execIdleEnter s = _)

/-! ### Holds (R391, R396) -/

theorem powered_run (run : s.pwr.state = .run) : powered s = true := by simp [powered, run]

theorem voteable_of {d : Nat} (votes : d < 16 ∨ d = 25) : voteable.contains d = true := by
  simpa [voteable] using votes

theorem voteIdleHoldExpiry_runs {d : Nat} (votes : d < 16 ∨ d = 25) (up : powered s = true) (free : voted s d = false)
    (active : (pdom s d).level = .active) (late : clearedAt (pdom s d) + idleHold s d ≤ s.core.t) :
    exec (.voteIdleHoldExpiry d) s = .next (dropDom d s) := by
  refine (onEvent_holds ?_ : execVoteIdleHoldExpiry d s = _)
  have noted : passed s (clearedAt (pdom s d)) (idleHold s d) = true := decide_eq_true late
  rw [voteable_of votes, up, free, active, noted]
  rfl

theorem prewakeHoldExpiry_runs {d e : Nat} (prewake : (pdom s d).prewake = some e) (late : e ≤ s.core.t) :
    exec (.prewakeHoldExpiry d) s = .next (settle d (modPdom d (fun p => { p with prewake := none }) s)) := by
  refine (onEvent_holds ?_ : execPrewakeHoldExpiry d s = _)
  rw [prewake]
  exact decide_eq_true late

/-! ### A wake of a domain that ends (R393) -/

theorem settle_active {d : Nat} (active : (pdom s d).level = .active) : settle d s =
    if d = 25 ∧ layoutPairs s = [] then s
    else if voted s d then
      if (pdom s d).clearAt.isSome then modPdom d (fun p => { p with clearAt := none }) s else s
    else if (pdom s d).clearAt.isSome then s else modPdom d (fun p => { p with clearAt := some s.core.t }) s := by
  unfold settle
  dsimp only
  rw [active]

/-- Settling a domain that is up changes when its votes cleared, and nothing else. -/
theorem settle_up {d : Nat} (active : (pdom s d).level = .active) : ∃ c, pdom (settle d s) d = { pdom s d with clearAt := c } := by
  rw [settle_active active]
  split
  · exact ⟨_, rfl⟩
  · split
    · split
      · exact ⟨_, pdom_modPdom_same ..⟩
      · exact ⟨_, rfl⟩
    · split
      · exact ⟨_, rfl⟩
      · exact ⟨_, pdom_modPdom_same ..⟩

/-- The domains and the turns. -/
def State.domsAndTurns (s : State) : Tbl PDom × Trn := (s.pwr.doms, s.trn)

theorem Told.domsAndTurns {t : State} (h : Told s t) : t.domsAndTurns = s.domsAndTurns :=
  Prod.ext (congrArg Pwr.doms h.pwr) h.trn

theorem clearBlock_domsAndTurns (base n : Nat) (s : State) : (clearBlock base n s).domsAndTurns = s.domsAndTurns :=
  foldl_keeps State.domsAndTurns (fun s i => (rfl : (clearInst i s).domsAndTurns = s.domsAndTurns)) _ s

/-- A wake that ends in RUN with no item in flight leaves the domain ACTIVE. -/
theorem domainWakeDone_runs {d w : Nat} (waking : (pdom s d).wakeAt = some w) (run : s.pwr.state = .run) (noItems : s.trn.items = []) :
    ∃ u, exec (.domainWakeDone d) s = .next (settle d u) ∧ u.domsAndTurns = (modPdom d (fun p =>
      { p with level := .active, since := s.core.t, wakeAt := none, waiters := [] }) s).domsAndTurns := by
  show ∃ u, execDomainWakeDone d s = _ ∧ _
  unfold execDomainWakeDone
  rw [waking]
  dsimp -zeta only
  rw [onEvent_holds (powered_run run)]
  extract_lets p took idle up cleared waiting stalled answered begun
  have inRun : idle = false := by
    unfold idle
    rw [run]
    rfl
  have upIs : up = modPdom d (fun p => { p with level := .active, since := s.core.t, wakeAt := none, waiters := [] }) s := by
    unfold up
    rw [inRun]
    rfl
  have clearedIs : cleared.domsAndTurns = up.domsAndTurns := by
    unfold cleared
    split
    · exact clearBlock_domsAndTurns ..
    · rfl
  have noWaiting : waiting = [] := by
    have items : cleared.trn.items = [] := by
      have same : cleared.trn = up.trn := (congrArg Prod.snd clearedIs :)
      rw [same, upIs]
      exact noItems
    unfold waiting itemsWhere
    rw [items]
    rfl
  have stalledIs : stalled.domsAndTurns = cleared.domsAndTurns := by
    unfold stalled
    split <;> rfl
  have answeredIs : answered.domsAndTurns = stalled.domsAndTurns :=
    (completeIds_told p.waiters id .success (took / 1000) 0 stalled).domsAndTurns
  have begunIs : begun = answered := by
    unfold begun
    rw [noWaiting]
    rfl
  refine ⟨begun, rfl, ?_⟩
  rw [begunIs, answeredIs, stalledIs, clearedIs, upIs]

/-! ### Wakes from SLEEP (R402, R403) -/

theorem wake_sleeping (sleeping : s.pwr.state = .sleep) (powered : s.pwr.aoIn = true) (code : Nat) :
    wake code s = backToRun (recordWake code s) := by
  unfold wake
  rw [sleeping, if_neg (by simp [powered])]

/-- A wake from SLEEP ends in RUN with its source recorded. -/
theorem wake_sleep (sleeping : s.pwr.state = .sleep) (powered : s.pwr.aoIn = true) (code : Nat) :
    (wake code s).pwr.state = .run ∧ (wake code s).pwr.wakeSrc = code ∧ (wake code s).pwr.wakeFromOff = s.pwr.cold ∧
      (wake code s).pwr.entry = none ∧ (wake code s).pwr.wakeTimer = s.pwr.wakeTimer := by
  rw [wake_sleeping sleeping powered]
  obtain ⟨core, accept, pwr⟩ := State.supply_parts (backToRun_supply (recordWake code s))
  have fromOff : (recordWake code s).pwr.wakeFromOff = s.pwr.cold := by
    show (decide (s.pwr.state = .off) || s.pwr.cold) = _
    rw [sleeping]
    rfl
  exact ⟨(congrArg Pwr.state pwr :), (congrArg Pwr.wakeSrc pwr :), (congrArg Pwr.wakeFromOff pwr :).trans fromOff,
    (congrArg Pwr.entry pwr :), (congrArg Pwr.wakeTimer pwr :)⟩

theorem noteLevels_usb (f : State → State) (s : State) : (noteLevels f s).usb = (f s).usb := by
  obtain ⟨doms, h⟩ := noteLevels_eq f s
  rw [h]

theorem restorePorts_usb (s : State) : (restorePorts s).usb = s.usb := by
  have trained : (retrainPorts s).usb = s.usb := by
    refine foldl_keeps State.usb (fun s p => ?_) _ s
    dsimp only
    split <;> rfl
  obtain ⟨doms, h⟩ := settleVotes_eq (retrainPorts s)
  unfold restorePorts
  rw [h, ← trained]

theorem raisePf_attached (code obj0 arg : Nat) (s : State) : (raisePf code obj0 arg s).usb.attached = s.usb.attached :=
  (raisePf_told ..).attached

theorem enterState_attached (st : DevState) (s : State) : (enterState st s).usb.attached = s.usb.attached := raisePf_attached ..

theorem modPwr_usb (f : Pwr → Pwr) (s : State) : (s.modPwr f).usb = s.usb := rfl

theorem backToRun_attached (s : State) : (backToRun s).usb.attached = s.usb.attached := by
  unfold backToRun
  rw [restorePorts_usb, modPwr_usb, raisePf_attached, noteLevels_usb, enterState_attached, modPwr_usb]
  split
  · exact raisePf_attached ..
  · rfl

/-- USB attached. -/
def attach (s : State) : State := s.modUsb fun u => { u with attached := true, dev := max u.dev 1 }

/-- Settles O8: a hold's end or a wake's changes its own domain and settles it; a wake source in SLEEP is recorded and goes back
to RUN. -/
theorem holdsAndWakes : Obligations.HoldsAndWakes := by
  unfold Obligations.HoldsAndWakes
  refine ⟨fun s run target noEntry noItems noCmds => ?_, fun s d votes up free active late => ?_, fun s d e prewake late => ?_,
    fun s d w votes waking run noItems => ?_, fun s ao sleeping => ?_, fun s e ao sleeping timer late => ?_,
    fun s ao sleeping => ?_, fun s run noEntry => ?_, fun s ao sleeping => ?_⟩
  · have told := raisePf_told 0xD001 0 DevState.idle.code
      { s with pwr := { s.pwr with state := .idle, doms := s.pwr.doms.mapVal (PDom.gated s.core.t) } }
    refine ⟨_, idleEnter_runs run target noEntry noItems noCmds, (congrArg Pwr.state told.pwr :), ?_, fun d floor active => ?_⟩
    · exact cast (congrArg (fun p => Told { s with pwr := p } _) told.pwr.symm) told
    · refine (congrArg (fun p => (p.doms.getD d {}).level) told.pwr :).trans ?_
      have listed : pdom s d ≠ {} := fun none => absurd (active.symm.trans (congrArg PDom.level none)) (by decide)
      dsimp only
      rw [pdom_mapVal d listed, PDom.gated, if_pos ⟨floor, active⟩]
  · exact ⟨_, voteIdleHoldExpiry_runs votes up free active late, congrArg PDom.level (pdom_modPdom_same ..),
      congrArg PDom.since (pdom_modPdom_same ..), fun e other => pdom_modPdom_other other .., rfl⟩
  · obtain ⟨w, c, same⟩ := settle_same d (modPdom d (fun p => { p with prewake := none }) s)
    obtain ⟨doms, settled⟩ := settle_eq d (modPdom d (fun p => { p with prewake := none }) s)
    refine ⟨_, prewakeHoldExpiry_runs prewake late, ?_, fun x other => ?_, ?_⟩
    · rw [same, pdom_modPdom_same]
    · rw [settle_other other, pdom_modPdom_other other]
    · rw [settled]
      rfl
  · obtain ⟨u, runs, kept⟩ := domainWakeDone_runs waking run noItems
    have doms (e : Nat) : pdom u e = pdom (modPdom d (fun p =>
      { p with level := .active, since := s.core.t, wakeAt := none, waiters := [] }) s) e := pdom_congr (congrArg Prod.fst kept) e
    have own : pdom u d = { pdom s d with level := .active, since := s.core.t, wakeAt := none, waiters := [] } :=
      (doms d).trans (pdom_modPdom_same ..)
    obtain ⟨c, settled⟩ := settle_up (s := u) (d := d) (by rw [own])
    obtain ⟨_, rest⟩ := settle_eq d u
    have turns : (settle d u).trn = s.trn := by
      rw [rest]
      exact (congrArg Prod.snd kept :)
    refine ⟨_, runs, ?_, ?_, ?_, fun e other => ?_, turns⟩
    · rw [settled, own]
    · rw [settled, own]
    · rw [settled, own]
    · rw [settle_other other, doms, pdom_modPdom_other other]
  · obtain ⟨run, source, fromOff, entry, -⟩ := wake_sleep sleeping ao 0x01
    exact ⟨_, rfl, run, source, fromOff, entry⟩
  · have runs : exec .aoWakeTimerExpiry s = .next (wake 0x02 (s.modPwr fun p => { p with wakeTimer := none })) := by
      refine (onEvent_holds ?_ : execAoWakeTimerExpiry s = _)
      rw [timer]
      exact decide_eq_true late
    obtain ⟨run, source, -, -, none⟩ := wake_sleep (s := s.modPwr fun p => { p with wakeTimer := none }) sleeping ao 0x02
    exact ⟨_, runs, run, source, none⟩
  · have asleep : (attach s).pwr.state = .sleep := sleeping
    have runs : exec .usbAttach s = .next (wake 0x04 (attach s)) := by
      refine congrArg Host.Outcome.next (if_pos ?_)
      exact decide_eq_true fun off => absurd (sleeping.symm.trans off) (by decide)
    obtain ⟨run, source, -, -, -⟩ := wake_sleep asleep ao 0x04
    refine ⟨_, runs, run, source, ?_⟩
    rw [wake_sleeping asleep ao, backToRun_attached]
    rfl
  · have wakes : wake 0x04 (attach s) = attach s := wake_run (s := attach s) run noEntry 0x04
    show Host.Outcome.next (if wakesMgt (attach s) then wake 0x04 (attach s) else attach s) = _
    rw [wakes, ite_self]
    rfl
  · have runs : exec .i3cIbiWake s = .next (wake 0x05 s) := congrArg Host.Outcome.next (if_pos (by simp [wakesMgt, sleeping]))
    obtain ⟨run, source, -, -, -⟩ := wake_sleep sleeping ao 0x05
    exact ⟨_, runs, run, source⟩

end Sys2Proof.Machine
end

section
/-! PROOFS. What turns, races and the objects of a function that end leave of the clock, the domain and power (10 R123, R134, 11
R97, R72). -/

namespace Sys2Proof.Machine

section
variable (s : State)

@[simp] theorem State.modTrn_standing (f : Trn → Trn) : (s.modTrn f).standing = s.standing := rfl
@[simp] theorem State.modStn_standing (f : Stn → Stn) : (s.modStn f).standing = s.standing := rfl
@[simp] theorem State.modWhl_standing (f : Whl → Whl) : (s.modWhl f).standing = s.standing := rfl
@[simp] theorem ite_standing (c : Prop) [Decidable c] (a b : State) :
    (if c then a else b).standing = if c then a.standing else b.standing := apply_ite ..

@[simp] theorem forEach_standing {f : Nat → State → State} (h : ∀ n s, (f n s).standing = s.standing) (l : List Nat) :
    (forEach l f s).standing = s.standing := foldl_keeps State.standing (fun s n => h n s) l s
@[simp] theorem foldl_standing {α : Type} {f : State → α → State} (h : ∀ s a, (f s a).standing = s.standing) (l : List α) :
    (l.foldl f s).standing = s.standing := foldl_keeps State.standing h l s

/-! ### Stones and items (R157, R166) -/

@[simp] theorem clearInst_standing (i : Nat) : (clearInst i s).standing = s.standing := rfl
@[simp] theorem modStone_standing (n : Nat) (f : Stone → Stone) : (modStone n f s).standing = s.standing := rfl
@[simp] theorem modItem_standing (n : Nat) (f : Item → Item) : (modItem n f s).standing = s.standing := rfl

@[simp] theorem settleVotes_standing : (settleVotes s).standing = s.standing := by
  obtain ⟨doms, h⟩ := settleVotes_eq s
  rw [h]
  rfl

@[simp] theorem settleFences_standing : (settleFences s).standing = s.standing := by
  unfold settleFences
  extract_lets go s1 settled ended s2
  have fenced : s2.standing = s.standing := by simp [s2, s1]
  refine (foldl_standing _ (fun s w => ?_) _).trans fenced
  split <;> simp

@[simp] theorem clearBlock_standing (base n : Nat) : (clearBlock base n s).standing = s.standing :=
  forEach_standing s (fun i s => clearInst_standing s i) _

@[simp] theorem releaseBlock_standing (base floors : Nat) : (releaseBlock base floors s).standing = s.standing := by
  simp [releaseBlock]

@[simp] theorem dropItem_standing (n : Nat) : (dropItem n s).standing = s.standing := by
  unfold dropItem
  split <;> simp

/-! ### Rings and frames (R97, R139) -/

@[simp] theorem putHeld_standing (h : Held) (off : Nat) (data : List Byte) : (putHeld h off data s).standing = s.standing :=
  writeSegs_standing ..
@[simp] theorem modRace_standing (r : Nat) (f : Race → Race) : (modRace r f s).standing = s.standing := rfl

@[simp] theorem tellFull_standing (rid : Nat) : (tellFull rid s).standing = s.standing := by
  unfold tellFull
  split <;> simp

@[simp] theorem putTailHeader_standing (rid : Nat) : (putTailHeader rid s).standing = s.standing := by
  unfold putTailHeader
  split <;> simp

@[simp] theorem putFrame_standing (rid flags nsmp : Nat) (payload : List Byte) (check time turn sail : Nat) :
    (putFrame rid flags nsmp payload check time turn sail s).standing = s.standing := by
  unfold putFrame
  split <;> simp

@[simp] theorem gapMarker_standing (rid flags turn sail : Nat) : (gapMarker rid flags turn sail s).standing = s.standing := by
  unfold gapMarker
  split <;> simp

/-! ### Turns, sails and races (R123, R133, R134) -/

@[simp] theorem modTurn_standing (t : Nat) (f : Turn → Turn) : (modTurn t f s).standing = s.standing := rfl
@[simp] theorem modSail_standing (t k : Nat) (f : Sail → Sail) : (modSail t k f s).standing = s.standing := rfl
@[simp] theorem dropFrames_standing (rid : Nat) : (dropFrames rid s).standing = s.standing := rfl

@[simp] theorem freeTurn_standing (t : Nat) : (freeTurn t s).standing = s.standing := by
  simp [freeTurn]

@[simp] theorem retireTurn_standing (t : Nat) (reason : Option Nat) : (retireTurn t reason s).standing = s.standing := by
  unfold retireTurn
  cases reason <;> simp

@[simp] theorem drainSail_standing (t k : Nat) : (drainSail t k s).standing = s.standing := by
  simp [drainSail]

@[simp] theorem cancelTurnWork_standing (t : Nat) : (cancelTurnWork t s).standing = s.standing := by
  simp [cancelTurnWork]

@[simp] theorem furlSail_standing (t k cause : Nat) (st : Status) : (furlSail t k cause st s).standing = s.standing := by
  unfold furlSail
  extract_lets x v its on runners cancelled v' s1 s2 s3 s4 s5
  have stopped : s2.standing = s.standing := by simp [s2, s1]
  have answered : s3.standing = s2.standing := by
    unfold s3
    split <;> simp
  have drained : s5.standing = s3.standing := by simp [s5, s4]
  have furled : s5.standing = s.standing := drained.trans (answered.trans stopped)
  clear_value s5
  split
  · rfl
  · split
    · rw [retireTurn_standing, gapMarker_standing, furled]
    · split
      · rw [modTurn_standing, furled]
      · exact furled

@[simp] theorem endTurn_standing (t cause : Nat) (st : Status) : (endTurn t cause st s).standing = s.standing := by
  simp [endTurn, furlRaised]

@[simp] theorem closeRace_standing (rid cause : Nat) : (closeRace rid cause s).standing = s.standing := by
  simp [closeRace]

/-! ### The objects of a function (R72) -/

@[simp] theorem dropEngine_standing (n : Nat) : (dropEngine n s).standing = s.standing := by
  unfold dropEngine
  extract_lets e jobs s1 s2
  have ended : s2.standing = s1.standing := foldl_standing _ (fun s j => (completeJob_told j .aborted 0 0 s).standing) _
  have dropped : s2.standing = s.standing := ended
  split
  · rw [completeId_standing, dropped]
  · exact dropped

@[simp] theorem State.modStn_supply (f : Stn → Stn) : (s.modStn f).supply = s.supply := rfl
@[simp] theorem State.modMem_supply (f : Mem → Mem) : (s.modMem f).supply = s.supply := rfl
@[simp] theorem State.modRdm_supply (f : Rdm → Rdm) : (s.modRdm f).supply = s.supply := rfl
@[simp] theorem State.modEvt_supply (f : Evt → Evt) : (s.modEvt f).supply = s.supply := rfl
@[simp] theorem State.modDom_supply (f : Dom → Dom) : (s.modDom f).supply = s.supply := rfl
@[simp] theorem modDoms_supply (f : Pwr → Tbl PDom) : (s.modPwr fun p => { p with doms := f p }).supply = s.supply := rfl
@[simp] theorem closeRace_supply (rid cause : Nat) : (closeRace rid cause s).supply = s.supply :=
  State.supply_of_standing (closeRace_standing ..)
@[simp] theorem endTurn_supply (t cause : Nat) (st : Status) : (endTurn t cause st s).supply = s.supply :=
  State.supply_of_standing (endTurn_standing ..)
@[simp] theorem qpLeft_supply (q : Nat) : (qpLeft q s).supply = s.supply := State.supply_of_standing (qpLeft_standing ..)
@[simp] theorem dropEngine_supply (n : Nat) : (dropEngine n s).supply = s.supply :=
  State.supply_of_standing (dropEngine_standing ..)

@[simp] theorem forEach_supply {f : Nat → State → State} (h : ∀ n s, (f n s).supply = s.supply) (l : List Nat) (s : State) :
    (forEach l f s).supply = s.supply := foldl_keeps State.supply (fun s n => h n s) l s

@[simp] theorem releaseObjects_supply (fn : Nat) : (releaseObjects fn s).supply = s.supply := by
  simp [releaseObjects]

theorem releaseDue_supply : (releaseDue s).supply = s.supply := by
  unfold releaseDue
  split
  · rfl
  · exact forEach_supply (fun n s => releaseObjects_supply s n) _ _

theorem flr_supply (fns : List Nat) : (flr fns s).supply = s.supply := by
  unfold flr
  extract_lets reset scope
  obtain ⟨cqs, retained, grn, tly, h⟩ := resetHostIf_eq fns s
  have kept : reset.supply = s.supply := (congrArg State.supply h :)
  clear_value reset
  rw [releaseDue_supply, ← kept]
  rfl

end

/-! ### Ports and domains that go down (R260, R400) -/

section
variable (s : State)

@[simp] theorem modPort_standing (p : Nat) (f : Port → Port) : (modPort p f s).standing = s.standing := rfl

@[simp] theorem endEpisode_standing (p since : Nat) : (endEpisode p since s).standing = s.standing := by
  unfold endEpisode sample
  dsimp only
  split <;> rfl

@[simp] theorem portQpsError_standing (p : Nat) (flight : Status) : (portQpsError p flight s).standing = s.standing := by
  refine foldl_standing _ (fun s x => ?_) _
  split
  · exact endQps_standing ..
  · rfl

/-- An episode of retries that a link's end closes. -/
def closeEpisode (p : Nat) (s : State) : State :=
  match (port s p).flm.retryAt with
  | some t => endEpisode p t s
  | none => s

theorem closeEpisode_standing (p : Nat) : (closeEpisode p s).standing = s.standing := by
  unfold closeEpisode
  split
  · exact endEpisode_standing ..
  · rfl

theorem linkDown_standing (p cause seq : Nat) (flight : Status) : (linkDown p cause seq flight s).standing = s.standing := by
  unfold linkDown
  dsimp only
  split
  · rfl
  · rw [portQpsError_standing, raisePf_standing, eventAll_standing]
    split
    · rw [eventAll_standing, modPort_standing]
      exact closeEpisode_standing s p
    · rw [modPort_standing]
      exact closeEpisode_standing s p

theorem modPort_supply (p : Nat) (f : Port → Port) : (modPort p f s).supply = s.supply := rfl

theorem portsOff_supply : (portsOff s).supply = s.supply :=
  forEach_supply (fun p s => (modPort_supply ..).trans (State.supply_of_standing (linkDown_standing s p 8 0 .linkDown))) _ s

theorem domainsDown_supply : (domainsDown s).supply = s.supply := by
  refine forEach_supply (fun d s => ?_) _ s
  split <;> rfl

end

end Sys2Proof.Machine
end

section
/-! PROOFS. Entry to a sleep state: its steps and its end (14 R387, R399, R400, R404, R405). -/

namespace Sys2Proof.Machine

variable {s : State} {e : Entry}

/-! ### The steps of an entry (R399, R400) -/

theorem Told.replacePwr {t : State} (h : Told s t) (p : Pwr) : Told { s with pwr := p } { t with pwr := p } := { h with pwr := rfl }

theorem powerEntryFetchStop_runs (entry : s.pwr.entry = some e) (open_ : e.committed = false) (fresh : e.noticeAt = none)
    (late : e.since + ms 1 ≤ s.core.t) : exec .powerEntryFetchStop s = .next
      (let s := enterState .entering s
      if e.target = .sleep then s.modPwr fun p => { p with entry := some { e with stopped := true, committed := true } }
      else
        let s := tellMw .powerNotice s
        s.modPwr fun p => { p with entry := some { e with stopped := true, noticeAt := some s.core.t, committed := mwRetained s } }) := by
  show execPowerEntryFetchStop s = _
  unfold execPowerEntryFetchStop
  rw [entry]
  exact onEvent_holds (by simp [open_, fresh, passed, late])

theorem mwRetained_told {t : State} (h : Told s t) : mwRetained t = mwRetained s := by
  unfold mwRetained
  have wfi : t.mwr.wfi = s.mwr.wfi := (congrArg Mwr.wfi h.mwr :)
  have mode : t.mwr.wfiMode = s.mwr.wfiMode := (congrArg Mwr.wfiMode h.mwr :)
  rw [wfi, mode]

theorem mwWfi_runs (running : s.mwr.running = true) (awake : s.mwr.wfi = false) {mode : Nat}
    (is : mode = if s.mwr.pwrmode = 2 ∧ decide (s.pwr.target = .deepSleep ∨ s.pwr.target = .off) = false then 1 else s.mwr.pwrmode) :
    exec .mwWfi s = .next
      (if mode = 2 then
        (noteLevels (·.modMwr fun m => { m with wfi := true, wfiMode := mode }) s).modPwr fun p =>
          { p with entry := p.entry.map fun e => if e.noticeAt.isSome then { e with committed := true } else e }
      else noteLevels (·.modMwr fun m => { m with wfi := true, wfiMode := mode }) s) := by
  show execMwWfi s = _
  unfold execMwWfi
  rw [onEvent_holds (by simp [running, awake])]
  dsimp only
  rw [← is]

theorem powerEntryMwTimeout_runs {n : Nat} (entry : s.pwr.entry = some e) (open_ : e.committed = false)
    (noticed : e.noticeAt = some n) (late : n + ms 100 ≤ s.core.t) : exec .powerEntryMwTimeout s = .next (abandonEntry s) := by
  refine (onEvent_holds ?_ : execPowerEntryMwTimeout s = _)
  have expired : passed s n (ms 100) = true := decide_eq_true late
  rw [entry, Option.any_some, open_, noticed]
  dsimp only
  rw [expired]
  rfl

/-! ### The end of an entry (R387, R400, R404) -/

/-- The device in SLEEP. -/
def asleep (s : State) : State := enterState .sleep (s.modPwr fun p => { p with entry := none })

/-- The host interface reset, and the rails that DEEP_SLEEP does not keep taken away. -/
def unpowered (s : State) : State :=
  (flrPf (clearInst 257 (s.modMem fun m => { m with leafCache := [], walkCache := [] }))).modPwr fun p =>
    { p with endpoint := false, pll := false, railEn := p.railEn.set 2 false, railPg := p.railPg.set 2 false, aoLow := true,
             boost := false, grant := none, entry := none }

/-- The device in DEEP_SLEEP. -/
def deeplyAsleep (s : State) : State :=
  enterState .deepSleep ((setHoldover (unpowered s)).modHif fun h => { h with accept := false })

/-- The device OFF. -/
def turnedOff (s : State) : State := (loseRails (flrPf s)).modPwr fun p => { p with state := .off }

section
variable (entry : s.pwr.entry = some e) (committed : e.committed = true) (noWake : e.wake = none)
include entry committed noWake

theorem powerEntryEnd_sleep (target : e.target = .sleep) :
    exec .powerEntryEnd s = .next (noteLevels asleep (domainsDown (portsOff s))) := by
  show execPowerEntryEnd s = _
  unfold execPowerEntryEnd
  rw [entry]
  dsimp only
  rw [onEvent_holds committed, target, noWake]
  rfl

theorem powerEntryEnd_deepSleep (target : e.target = .deepSleep) :
    exec .powerEntryEnd s = .next (noteLevels deeplyAsleep (domainsDown (portsOff s))) := by
  show execPowerEntryEnd s = _
  unfold execPowerEntryEnd
  rw [entry]
  dsimp only
  rw [onEvent_holds committed, target, noWake]
  rfl

theorem powerEntryEnd_off (target : e.target = .off) :
    exec .powerEntryEnd s = .next (noteLevels turnedOff (domainsDown (portsOff s))) := by
  show execPowerEntryEnd s = _
  unfold execPowerEntryEnd
  rw [entry]
  dsimp only
  rw [onEvent_holds committed, target, noWake]
  rfl

end

theorem lowered_supply (s : State) : (domainsDown (portsOff s)).supply = s.supply := (domainsDown_supply _).trans (portsOff_supply s)

theorem asleep_supply (s : State) : (asleep s).supply = (s.core, s.hif.accept, { s.pwr.supplied with state := .sleep, entry := none }) :=
  raisePf_supply ..

theorem unpowered_pwr (s : State) : (unpowered s).pwr.supplied = { s.pwr.supplied with
    endpoint := false, pll := false, railEn := s.pwr.railEn.set 2 false, railPg := s.pwr.railPg.set 2 false, aoLow := true
    boost := false, grant := none, entry := none } := by
  have reset : (flrPf (clearInst 257 (s.modMem fun m => { m with leafCache := [], walkCache := [] }))).supply = s.supply :=
    flr_supply _ _
  obtain ⟨-, -, pwr⟩ := State.supply_parts reset
  unfold unpowered
  generalize flrPf (clearInst 257 (s.modMem fun m => { m with leafCache := [], walkCache := [] })) = u at pwr
  show { u.pwr.supplied with
    endpoint := false, pll := false, railEn := u.pwr.supplied.railEn.set 2 false, railPg := u.pwr.supplied.railPg.set 2 false
    aoLow := true, boost := false, grant := none, entry := none } = _
  rw [pwr]
  rfl

theorem setHoldover_pwr (s : State) : (setHoldover s).pwr = s.pwr := by
  unfold setHoldover
  split <;> rfl

theorem deeplyAsleep_pwr (s : State) : (deeplyAsleep s).hif.accept = false ∧
    (deeplyAsleep s).pwr.supplied = { (unpowered s).pwr.supplied with state := .deepSleep } := by
  have told := raisePf_told 0xD001 0 DevState.deepSleep.code
    (((setHoldover (unpowered s)).modHif fun h => { h with accept := false }).modPwr fun p => { p with state := .deepSleep })
  refine ⟨told.accept, (congrArg Pwr.supplied told.pwr).trans ?_⟩
  show { (setHoldover (unpowered s)).pwr with state := .deepSleep }.supplied = _
  rw [setHoldover_pwr]
  rfl

theorem turnedOff_leaves (s : State) : (turnedOff s).pwr.state = .off ∧ (turnedOff s).pwr.entry = none ∧
    (turnedOff s).pwr.railEn = (dropNext 0 8 s.core.t s.pwr).railEn ∧
    (turnedOff s).pwr.falling = (dropNext 0 8 s.core.t s.pwr).falling ∧
    (turnedOff s).brk.valves = [] ∧ (turnedOff s).brk.slots = [] := by
  have reset : (flrPf s).supply = s.supply := flr_supply s _
  obtain ⟨core, -, pwr⟩ := State.supply_parts reset
  have entry : (turnedOff s).pwr.entry = none := (congrArg Pwr.entry (dropNext_eq 0 8 (flrPf s).core.t (lostRails (flrPf s).pwr)) :)
  have rails := dropNext_congr (p := lostRails (flrPf s).pwr) (q := s.pwr) (congrArg Pwr.railEn pwr :) 0 8 s.core.t
  have railEn : (turnedOff s).pwr.railEn = (dropNext 0 8 (flrPf s).core.t (lostRails (flrPf s).pwr)).railEn := rfl
  have falling : (turnedOff s).pwr.falling = (dropNext 0 8 (flrPf s).core.t (lostRails (flrPf s).pwr)).falling := rfl
  rw [railEn, falling, core]
  exact ⟨rfl, entry, rails.1, rails.2, rfl, rfl⟩

/-! What the end leaves, of a state whose ports and domains are down already. -/

section
variable {u : State} (low : u.supply = s.supply)
include low

theorem noteLevels_asleep : (noteLevels asleep u).pwr.state = .sleep ∧ (noteLevels asleep u).pwr.entry = none ∧
    (noteLevels asleep u).pwr.pll = s.pwr.pll ∧ (noteLevels asleep u).pwr.railEn = s.pwr.railEn := by
  obtain ⟨-, -, pwr⟩ := State.supply_parts ((noteLevels_supply u asleep).trans (asleep_supply u))
  obtain ⟨-, -, power⟩ := State.supply_parts low
  exact ⟨(congrArg Pwr.state pwr :), (congrArg Pwr.entry pwr :), (congrArg Pwr.pll pwr :).trans (congrArg Pwr.pll power :),
    (congrArg Pwr.railEn pwr :).trans (congrArg Pwr.railEn power :)⟩

theorem noteLevels_deeplyAsleep : (noteLevels deeplyAsleep u).pwr.state = .deepSleep ∧
    (noteLevels deeplyAsleep u).pwr.entry = none ∧ (noteLevels deeplyAsleep u).pwr.pll = false ∧
    (noteLevels deeplyAsleep u).pwr.endpoint = false ∧ (noteLevels deeplyAsleep u).hif.accept = false ∧
    (noteLevels deeplyAsleep u).pwr.railEn = s.pwr.railEn.set 2 false := by
  obtain ⟨-, accepts, noted⟩ := State.supply_parts (noteLevels_supply u deeplyAsleep)
  obtain ⟨closed, deep⟩ := deeplyAsleep_pwr u
  obtain ⟨-, -, power⟩ := State.supply_parts low
  have cut := unpowered_pwr u
  have rails : u.pwr.railEn = s.pwr.railEn := (congrArg Pwr.railEn power :)
  rw [cut] at deep
  have pwr := noted.trans deep
  exact ⟨(congrArg Pwr.state pwr :), (congrArg Pwr.entry pwr :), (congrArg Pwr.pll pwr :), (congrArg Pwr.endpoint pwr :),
    accepts.trans closed, (congrArg Pwr.railEn pwr :).trans (congrArg (fun l => l.set 2 false) rails)⟩

theorem noteLevels_turnedOff : (noteLevels turnedOff u).pwr.state = .off ∧ (noteLevels turnedOff u).pwr.entry = none ∧
    (noteLevels turnedOff u).pwr.railEn = (dropNext 0 8 s.core.t s.pwr).railEn ∧
    (noteLevels turnedOff u).pwr.falling = (dropNext 0 8 s.core.t s.pwr).falling ∧
    (noteLevels turnedOff u).brk.valves = [] ∧ (noteLevels turnedOff u).brk.slots = [] := by
  obtain ⟨state, noEntry, railEn, falling, valves, slots⟩ := turnedOff_leaves u
  obtain ⟨doms, noted⟩ := noteLevels_eq turnedOff u
  obtain ⟨core, -, power⟩ := State.supply_parts low
  have rails := dropNext_congr (p := u.pwr) (q := s.pwr) (congrArg Pwr.railEn power :) 0 8 s.core.t
  rw [core] at railEn falling
  rw [noted]
  exact ⟨state, noEntry, railEn.trans rails.1, falling.trans rails.2, valves, slots⟩

end

/-- Settles O7: the steps change power and the Millwright's WFI alone; the end takes ports and domains down first, which leave
the rest of power as it was. -/
theorem entrySteps : Obligations.EntrySteps := by
  unfold Obligations.EntrySteps
  refine ⟨fun s e entry open_ fresh late target => ?_, fun s e entry open_ fresh late target => ?_, fun s running next => ?_,
    fun s running awake mode => ?_, fun s e n running awake mode target entry noticed => ?_,
    fun s e n entry open_ noticed late fresh => ?_, fun s e entry committed noWake target => ?_,
    fun s e entry committed noWake target => ?_, fun s e entry committed noWake target => ?_⟩
  · have told := raisePf_told 0xD001 0 DevState.entering.code (s.modPwr fun p => { p with state := .entering })
    rw [powerEntryFetchStop_runs entry open_ fresh late, if_pos target]
    refine ⟨_, rfl, ?_, told.replacePwr _⟩
    exact (congrArg (fun p => { p with entry := some { e with stopped := true, committed := true } }) told.pwr :)
  · have told : Told (s.modPwr fun p => { p with state := .entering }) (enterState .entering s) := raisePf_told ..
    rw [powerEntryFetchStop_runs entry open_ fresh late, if_neg target]
    generalize enterState .entering s = u at told
    have clock : u.core.t = s.core.t := (congrArg Core.t told.core :)
    have retained : mwRetained u = mwRetained s := (mwRetained_told told :)
    refine ⟨_, rfl, rfl, (congrArg Pwr.state told.pwr :), ?_, (congrArg Mwr.st told.mwr :)⟩
    show some { e with stopped := true, noticeAt := some u.core.t, committed := mwRetained u } = _
    rw [clock, retained]
    rfl
  · exact ⟨_, (onMw_holds running (decide_eq_true next) : execPowerNotice s = _), rfl, rfl⟩
  · obtain ⟨doms, noted⟩ := noteLevels_eq (·.modMwr fun m => { m with wfi := true, wfiMode := s.mwr.pwrmode }) s
    have not2 : s.mwr.pwrmode ≠ 2 := Nat.ne_of_lt mode
    rw [mwWfi_runs running awake (mode := s.mwr.pwrmode) (by rw [if_neg fun h => not2 h.1]), if_neg not2, noted]
    exact ⟨_, rfl, rfl, rfl⟩
  · obtain ⟨doms, noted⟩ := noteLevels_eq (·.modMwr fun m => { m with wfi := true, wfiMode := 2 }) s
    rw [mwWfi_runs running awake (mode := 2) (by rw [if_neg (by simp [target]), mode]), if_pos rfl, noted]
    refine ⟨_, rfl, rfl, ?_, rfl⟩
    show s.pwr.entry.map _ = _
    rw [entry, Option.map_some, noticed]
    rfl
  · obtain ⟨u, abandoned, noEntry, target, state, rest⟩ := abandonEntry_leaves (s := s) fun ⟨x, is, fromSleep, _⟩ => by
      cases Option.some.inj (entry.symm.trans is)
      exact absurd (fresh.symm.trans fromSleep) (by decide)
    refine ⟨u, (powerEntryMwTimeout_runs entry open_ noticed late).trans (congrArg _ abandoned), noEntry, target, ?_, rest⟩
    rw [state]
    split
    · decide
    · assumption
  · exact ⟨_, powerEntryEnd_sleep entry committed noWake target, noteLevels_asleep (lowered_supply s)⟩
  · exact ⟨_, powerEntryEnd_deepSleep entry committed noWake target, noteLevels_deeplyAsleep (lowered_supply s)⟩
  · exact ⟨_, powerEntryEnd_off entry committed noWake target, noteLevels_turnedOff (lowered_supply s)⟩

end Sys2Proof.Machine
end

section
/-! PROOFS. A MON_CLEAR of a monitor with samples that wait (17 R480, R483, R484). -/

namespace Sys2Proof.Machine

/-- A MON_CLEAR of monitor 0 (CONTEXT 0, MONITORS 0) by the PF. -/
def clearsMonitor : Cmd := { id := ⟨.pcie 0, 1⟩, op := .monClear, pkt := [] }

/-- A monitor of fetches that took a sample of 7 in this Wheelhouse cycle, so that one of 5 waits for the next (R480). -/
def sampling : Mon :=
  { fn := 0, source := 3, scale := 0, clearOnSnap := false, lo := 0, w := 1, edges := [], filtA := 0, filtB := 0
    count := 1, sum := 7, min := 7, max := 7, bins := [(8, 1)], busyUntil := 2, queued := [(1, 5)] }

/-- That command on that monitor. -/
def clearing : State := { State.reset with hif := { cmds := [clearsMonitor] }, evt := { mons := [(0, sampling)] } }

theorem clearing_runs : Runs clearing .monClear clearsMonitor.id clearsMonitor := rfl

/-- The clear resets what the monitor counted; the sample that waits stays in its queue. -/
theorem clearing_leaves : exec (.monClear clearsMonitor.id) clearing = .next (complete clearsMonitor .success 0 0
    { clearing with evt := { mons := [(0, sampling.first (stamp clearing))] } }) := rfl

/-- Refutes O47: of the clause on MON_CLEAR. The clause wants no sample left waiting, but MON_CLEAR absorbs only the samples whose
cycle has come and keeps the others, which count in what follows (R483, R484): in `clearing` one waits for the next cycle. -/
theorem not_trayAndMonitors : ¬ Obligations.TrayAndMonitors := by
  unfold Obligations.TrayAndMonitors
  intro h
  obtain ⟨-, -, -, -, -, -, -, -, -, -, -, -, -, -, -, -, -, -, clears, -⟩ := h
  obtain ⟨u, ⟨cleared, -⟩, runs⟩ :=
    clears clearing clearsMonitor.id clearsMonitor sampling clearing_runs (Nat.zero_le _) rfl rfl rfl
  have same := Host.Outcome.next.inj (runs.symm.trans clearing_leaves)
  have mons : u.evt.mons = [(0, sampling.first (stamp clearing))] :=
    (complete_told clearsMonitor .success 0 0 u).mons.symm.trans
      ((congrArg (fun t => t.evt.mons) same).trans (complete_told clearsMonitor .success 0 0 _).mons)
  have stays : u.evt.mons.get 0 = some (sampling.first (stamp clearing)) := by
    rw [mons]
    rfl
  have queued : [(1, 5)] = ([] : List (Nat × Nat)) := congrArg Mon.queued (Option.some.inj (stays.symm.trans cleared))
  exact absurd queued (by decide)

end Sys2Proof.Machine
end

section
/-! PROOFS. What reads of memory leave alone, and the check engines (06 R191, R196, 12 R341 to R351). -/

namespace Sys2Proof.Machine

/-! ### Reads of memory -/

/-- The clocks, the items, the stones, the granary but its hot lines, the tally and the check engines. -/
def State.worked (s : State) : Core × Trn × Stn × Grn × Tly × Chk :=
  (s.core, s.trn, s.stn, { s.grn with hot := [] }, s.tly, s.chk)

theorem State.worked_eq {s t : State} (h : t.worked = s.worked) : t.core = s.core ∧ t.trn = s.trn ∧ t.stn = s.stn ∧
    { t.grn with hot := [] } = { s.grn with hot := [] } ∧ t.tly = s.tly ∧ t.chk = s.chk := by
  simpa only [State.worked, Prod.mk.injEq] using h

theorem Told.worked {s t : State} (h : Told s t) : t.worked = s.worked := by
  unfold State.worked
  rw [h.core, h.trn, h.stn, h.grn, h.tly, h.chk]

section
variable (s : State)

@[simp] theorem noteWalks_worked (h : Held) : (noteWalks h s).worked = s.worked := by
  unfold noteWalks
  split <;> rfl

@[simp] theorem useRuns_worked (l : List Seg) : (useRuns l s).worked = s.worked := by
  unfold useRuns useDdr
  split
  · split <;> rfl
  · rfl

@[simp] theorem weaken_worked (bus : Bus) : (weaken bus s).worked = s.worked := by
  unfold weaken
  split <;> rfl

@[simp] theorem dramCe_worked (a : Nat) : (dramCe a s).worked = s.worked := by
  unfold dramCe
  dsimp only
  split <;> rfl

@[simp] theorem meetLine_worked (e : Nat × Bool) : (meetLine s e).worked = s.worked := by
  unfold meetLine
  dsimp only
  split
  · rfl
  · exact dramCe_worked ..

@[simp] theorem dramUe_worked (a : Nat) : (dramUe a s).worked = s.worked :=
  ((raisePf_told ..).worked.trans (logError_told ..).worked).trans (by rfl)

@[simp] theorem meetWeak_worked (l : List Seg) : (meetWeak l s).worked = s.worked := by
  refine foldl_keeps State.worked (fun s g => ?_) l s
  split
  · rfl
  · exact foldl_keeps State.worked meetLine_worked _ s

@[simp] theorem meetPoison_worked (l : List Seg) : (meetPoison l s).worked = s.worked := by
  unfold meetPoison
  split <;> simp

@[simp] theorem readRuns_worked (bus : Bus) (l : List Seg) : (readRuns bus l s).2.worked = s.worked := by
  unfold readRuns readMem
  dsimp only
  split <;> simp

end

variable {s : State} {id : CmdId} {c : Cmd}

/-! ### An engine changed -/

theorem engineOf_modEngine (n : Nat) (f : Engine → Engine) (s : State) (k : Nat) :
    engineOf (modEngine n f s) k = if k = n then f (engineOf s n) else engineOf s k := Tbl.getD_alter s.chk.engines n k {} f

theorem engineOf_modEngine_same (n : Nat) (f : Engine → Engine) (s : State) : engineOf (modEngine n f s) n = f (engineOf s n) :=
  (engineOf_modEngine ..).trans (if_pos rfl)

theorem engineOf_modEngine_other {n k : Nat} (other : k ≠ n) (f : Engine → Engine) (s : State) :
    engineOf (modEngine n f s) k = engineOf s k := (engineOf_modEngine ..).trans (if_neg other)

theorem engineOf_congr {t : State} (h : t.chk = s.chk) (n : Nat) : engineOf t n = engineOf s n :=
  congrArg (fun x => x.engines.getD n {}) h

theorem findCmd_accept (found : findCmd s id = some c) (t : State) (same : t.hif.cmds = s.hif.cmds) :
    findCmd (accept c t) id = some { c with phase := .waiting } := by
  have own := findCmd_id found
  subst own
  have foundThere : findCmd t c.id = some c := by
    unfold findCmd
    rw [same]
    exact found
  exact findCmd_updCmd foundThere fun _ => rfl

theorem engineBad_own (low : c.context ≤ 15) (own : (engineOf s c.context).owner = some c.fn) : engineBad s c = false := by
  simp [engineBad, low, own]

/-! ### Claims and configurations (R342, R345) -/

theorem chkClaim_own (run : Runs s .chkClaim id c) (up : s.core.datReset = false) (named : dw c.pkt 2 = 0) (low : c.context ≤ 15)
    (free : (engineOf s c.context).owner = none) :
    exec (.chkClaim id) s = .next (complete c .success 0 0 (modEngine c.context (claimed c.fn) s)) := by
  have one : fbit c.pkt 2 0 = false := by simp [fbit, bit, named]
  have formed : (fields c [rsv c.pkt 2 31 1]).1 = false := fields_pass (by simp [rsv, fld, named, bits]) c
  refine (onCmd_runs run : execChkClaim id s = _).trans (congrArg _ ?_)
  dsimp only
  rw [up, one, checks_pass (passes_one formed)]
  rw [if_neg (by decide), if_neg (by decide), if_neg (by omega), free]
  rfl

theorem numsWhere_head {m n : Nat} {p : Nat → Bool} (low : n < m) (holds : p n = true) (first : ∀ k, k < n → p k = false) :
    (numsWhere m p).head? = some n := by
  unfold numsWhere
  have split : List.range m = List.range n ++ n :: (List.range (m - n - 1)).map (n + 1 + ·) := by
    have whole : m = n + (1 + (m - n - 1)) := by omega
    conv_lhs => rw [whole, List.range_add, List.range_add]
    simp [Nat.add_assoc]
  have none : (List.range n).filter p = [] := List.filter_eq_nil_iff.2 fun k hk => by simp [first k (List.mem_range.1 hk)]
  rw [split, List.filter_append, none, List.filter_cons_of_pos holds]
  rfl

theorem chkClaim_any {n : Nat} (run : Runs s .chkClaim id c) (up : s.core.datReset = false) (named : dw c.pkt 2 = 1) (low : n ≤ 15)
    (free : (engineOf s n).owner = none) (taken : ∀ k, k < n → (engineOf s k).owner ≠ none) :
    exec (.chkClaim id) s = .next (complete c .success n 0 (modEngine n (claimed c.fn) s)) := by
  have one : fbit c.pkt 2 0 = true := by simp [fbit, bit, named]
  have formed : (fields c [rsv c.pkt 2 31 1]).1 = false := fields_pass (by simp [rsv, fld, named, bits]) c
  have first : (numsWhere 16 fun n => (engineOf s n).owner.isNone).head? = some n :=
    numsWhere_head (by omega) (by simp [free]) fun k below => by simpa using Option.isSome_iff_ne_none.2 (taken k below)
  refine (onCmd_runs run : execChkClaim id s = _).trans (congrArg _ ?_)
  dsimp only
  rw [up, one, checks_pass (passes_one formed)]
  rw [if_neg (by decide), if_pos rfl, first]
  rfl

theorem chkConfig_runs (run : Runs s .chkConfig id c) (low : c.context ≤ 15) (own : (engineOf s c.context).owner = some c.fn)
    (sound : ∀ e ∈ chkCfgBad c.pkt, e.1 = false) : exec (.chkConfig id) s = .next (succeed c (modEngine c.context (fun e =>
      { e with cfg := chkCfgOf c.pkt, seen := none, seq := if (chkCfgOf c.pkt).fold = 3 then qw c.pkt 9 else e.seq }) s)) := by
  refine (onCmd_runs run : execChkConfig id s = _).trans (congrArg _ (checks_pass ?_))
  simp [passes, engineBad_own low own, fields_pass sound c]

/-! ### Runs and releases (R343, R350, R351) -/

/-- The job of a CHK_RUN. -/
def runJob (id : CmdId) (c : Cmd) (held : Held) (s : State) : Job :=
  { id := some id, cfg := (engineOf s c.context).cfg, held, len := dw c.pkt 5, expected := qw c.pkt 6, compare := fbit c.pkt 8 0
    foldValue := qw c.pkt 9, num := 0 }

theorem chkRun_runs {h : Held} (run : Runs s .chkRun id c) (low : c.context ≤ 15) (own : (engineOf s c.context).owner = some c.fn)
    (canonical : qw c.pkt 2 < 2 ^ 57) (asid : asidBad s c.fn (fld c.pkt 4 9 0) = false) (res4 : fld c.pkt 4 31 10 = 0)
    (res8 : fld c.pkt 8 31 1 = 0) (some : dw c.pkt 5 = 0 → (engineOf s c.context).cfg.fold ≠ 0)
    (alive : (engineOf s c.context).cfg.alive ≠ 0 → (engineOf s c.context).cfg.ofs < dw c.pkt 5)
    (room : (engineOf s c.context).hostQ.length < 16) (translated : translate s {} (fld c.pkt 4 9 0) (qw c.pkt 2) (dw c.pkt 5) = .ok h) :
    exec (.chkRun id) s = .next (pushJob c.context false (runJob id c h s) (accept c (noteWalks h s))) := by
  have formed : (fields c [vaField c.pkt 2 1, (asidBad s c.fn (fld c.pkt 4 9 0), 16), rsv c.pkt 4 31 10,
      (decide (dw c.pkt 5 = 0) && decide ((engineOf s c.context).cfg.fold = 0) ||
        decide ((engineOf s c.context).cfg.alive ≠ 0) && decide (dw c.pkt 5 ≤ (engineOf s c.context).cfg.ofs), 20),
      rsv c.pkt 8 31 1]).1 = false := by
    refine fields_pass ?_ c
    have sized : (decide (dw c.pkt 5 = 0) && decide ((engineOf s c.context).cfg.fold = 0) ||
        decide ((engineOf s c.context).cfg.alive ≠ 0) && decide (dw c.pkt 5 ≤ (engineOf s c.context).cfg.ofs)) = false := by
      simp only [Bool.or_eq_false_iff, Bool.and_eq_false_iff, decide_eq_false_iff_not]
      refine ⟨?_, ?_⟩
      · by_cases empty : dw c.pkt 5 = 0
        · exact .inr (some empty)
        · exact .inl empty
      · by_cases counts : (engineOf s c.context).cfg.alive ≠ 0
        · exact .inr (Nat.not_le.2 (alive counts))
        · exact .inl counts
    rw [sized]
    simp [vaField_canonical canonical, asid, rsv_zero res4, rsv_zero res8]
  refine (onCmd_runs run : execChkRun id s = _).trans (congrArg _ ?_)
  dsimp only
  rw [checks_pass]
  · rw [translated]
    rfl
  · simp only [passes, List.all_cons, List.all_nil, engineBad_own low own, formed, busy]
    simp [room]

/-- An idle engine takes the job pushed on it. -/
theorem pushJob_idle {n : Nat} (j : Job) (free : (engineOf s n).run = none) (noHost : (engineOf s n).hostQ = [])
    (noInternal : (engineOf s n).intQ = []) :
    engineOf (pushJob n false j s) n = { engineOf s n with run := some { j with num := s.chk.next } } := by
  have pushed : engineOf (pushJob n false j s) n =
      ({ engineOf s n with hostQ := (engineOf s n).hostQ ++ [{ j with num := s.chk.next }] } : Engine).next :=
    engineOf_modEngine_same ..
  rw [pushed]
  unfold Engine.next
  dsimp only
  rw [free, noInternal, noHost]
  rfl

/-- The engine a CHK_RELEASE gives back. -/
def Engine.released (e : Engine) : Engine := { e with owner := none, release := none, cfg := {}, seq := 0, seen := none }

theorem settleRelease_free {n : Nat} (waits : (engineOf s n).release = some id) (idle : (engineOf s n).run = none)
    (noHost : (engineOf s n).hostQ = []) (noInternal : (engineOf s n).intQ = []) :
    settleRelease n s = completeId id .success 0 0 (modEngine n Engine.released s) := by
  unfold settleRelease
  dsimp only
  rw [waits, idle, noHost, noInternal]
  rfl

theorem settleRelease_none {n : Nat} (none : (engineOf s n).release = none) : settleRelease n s = s := by
  unfold settleRelease
  dsimp only
  rw [none]

/-- An engine whose release a command waits for. -/
def releasing (id : CmdId) (c : Cmd) (s : State) : State :=
  modEngine c.context (fun e => { e with hostQ := [], release := some id }) (accept c s)

theorem chkRelease_runs (run : Runs s .chkRelease id c) (low : c.context ≤ 15) (own : (engineOf s c.context).owner = some c.fn)
    (noRace : tcheckRace s c.context = none) (idle : (engineOf s c.context).run = none) (noHost : (engineOf s c.context).hostQ = [])
    (noInternal : (engineOf s c.context).intQ = []) : exec (.chkRelease id) s = .next
      (complete { c with phase := .waiting } .success 0 0 (modEngine c.context Engine.released (releasing id c s))) := by
  have noLoads : loadsOn (engineOf s c.context) = false := by simp [loadsOn, idle, noInternal]
  have engine : engineOf (releasing id c s) c.context = { engineOf s c.context with hostQ := [], release := some id } :=
    engineOf_modEngine_same ..
  have waiting : findCmd (modEngine c.context Engine.released (releasing id c s)) id = some { c with phase := .waiting } :=
    findCmd_accept (findCmd_of_runs run) s rfl
  have settled : settleRelease c.context (releasing id c s) =
      complete { c with phase := .waiting } .success 0 0 (modEngine c.context Engine.released (releasing id c s)) := by
    rw [settleRelease_free (by rw [engine]) (by rw [engine]; exact idle) (by rw [engine]) (by rw [engine]; exact noInternal)]
    exact completeId_found waiting ..
  refine (onCmd_runs run : execChkRelease id s = _).trans (congrArg _ ?_)
  dsimp only
  rw [checks_pass (by simp [passes, engineBad_own low own, deny, noRace, busy, noLoads]), noHost]
  exact settled

/-! ### The end of a job (R348 to R351) -/

/-- An engine after a host run that succeeds. -/
def Engine.ran (r : Nat) (j : Job) (e : Engine) : Engine :=
  { e with run := none, result := r, runs := sat 0xFFFFFFFF (e.runs + 1)
           seq := if j.cfg.fold = 3 then (e.seq + 1) % 2 ^ 64 else e.seq }

theorem endRun_succeeds {n : Nat} {j : Job} {bus : Bus} {d : List PByte × State} {r : Nat} (read : d = readRuns bus j.held.segs s)
    (clean : anyPoison d.1 = false) (dead : j.cfg.alive = 0) (crcIs : r = crc j.cfg.crc (foldBytes (engineOf s n) j ++ d.1.map (·.1)))
    (agrees : j.compare = true → r % 2 ^ j.cfg.crc.width = j.expected % 2 ^ j.cfg.crc.width) :
    endRun n j bus s = completeJob j .success (r % 2 ^ 32) (r / 2 ^ 32)
      (modEngine n (fun e => { e.ran r j with seen := (engineOf s n).seen }) d.2) := by
  have good : (j.compare && decide (r % 2 ^ j.cfg.crc.width ≠ j.expected % 2 ^ j.cfg.crc.width)) = false := by
    rw [Bool.and_eq_false_iff, decide_eq_false_iff_not, not_not]
    by_cases compared : j.compare = true
    · exact .inr (agrees compared)
    · exact .inl (Bool.eq_false_iff.2 compared)
  have noAlive (l : List Byte) : aliveOf j.cfg l = none := by
    unfold aliveOf
    rw [dead]
    rfl
  unfold endRun
  rw [← read]
  obtain ⟨data, u⟩ := d
  dsimp only at clean crcIs ⊢
  rw [clean, noAlive, ← crcIs, good]
  rfl

theorem chkJobEnd_runs {n : Nat} {bus : Bus} {j : Job} (up : s.core.datReset = false) (runs : (engineOf s n).run = some j)
    (noImage : j.image = none) (noFrame : j.frame = none) :
    exec (.chkJobEnd n bus) s = .next (settleRelease n (modEngine n Engine.next (endRun n j bus s))) := by
  show execChkJobEnd n bus s = _
  unfold execChkJobEnd
  rw [runs]
  dsimp only
  rw [if_neg (by simp [up]), noFrame, noImage]

theorem Engine.next_idle {e : Engine} (noHost : e.hostQ = []) (noInternal : e.intQ = []) : e.next = e := by
  unfold Engine.next
  split
  · rfl
  · rw [noHost, noInternal]

/-- Settles O35: each command changes its engine by `modEngine`; an idle engine takes a job at once, and a job that ends leaves it
with nothing to take. -/
theorem checkEngines : Obligations.CheckEngines := by
  unfold Obligations.CheckEngines
  refine ⟨fun s id c n run up named is low free => ?_, fun s id c n run up named low free taken => ?_,
    fun s id c run low own sound => ?_,
    fun s id c n len h e run is low engine own length canonical asid res4 res8 some alive idle noHost noInternal translated => ?_,
    fun s id c n run is low own noRace idle noHost noInternal => ?_,
    fun s n bus j id c r e d up engine runs noImage noFrame noHost noInternal noRelease dead named read found clean crcIs agrees => ?_⟩
  · subst is
    exact ⟨_, ⟨engineOf_modEngine_same .., fun k other => engineOf_modEngine_other other .., rfl⟩,
      chkClaim_own run up named low free⟩
  · exact ⟨_, congrArg Engine.owner (engineOf_modEngine_same ..), chkClaim_any run up named low free taken⟩
  · exact ⟨_, ⟨engineOf_modEngine_same .., rfl⟩, chkConfig_runs run low own sound⟩
  · subst is engine length
    have walked : (noteWalks h s).chk = s.chk := (State.worked_eq (noteWalks_worked s h)).2.2.2.2.2
    have same : (accept c (noteWalks h s)).chk = s.chk := walked
    have cmds : (noteWalks h s).hif.cmds = s.hif.cmds := by
      unfold noteWalks
      split <;> rfl
    refine ⟨_, chkRun_runs run low own canonical asid res4 res8 some alive (by simp [noHost]) translated,
      findCmd_accept (findCmd_of_runs run) _ cmds, ?_, noteWalks_cells s h⟩
    have engine := engineOf_congr same c.context
    rw [pushJob_idle _ (by rw [engine, idle]) (by rw [engine, noHost]) (by rw [engine, noInternal]), engine, same]
    rfl
  · subst is
    have engine : engineOf (releasing id c s) c.context = { engineOf s c.context with hostQ := [], release := some id } :=
      engineOf_modEngine_same ..
    refine ⟨_, ⟨?_, fun k other => ?_⟩, chkRelease_runs run low own noRace idle noHost noInternal⟩
    · rw [engineOf_modEngine_same, engine, ← noHost]
      rfl
    · rw [engineOf_modEngine_other other]
      exact engineOf_modEngine_other other ..
  · subst engine
    have same : engineOf d.2 n = engineOf s n := by
      rw [read]
      exact engineOf_congr (State.worked_eq (readRuns_worked ..)).2.2.2.2.2 n
    have ended := endRun_succeeds read clean dead crcIs agrees
    have completed : completeJob j .success (r % 2 ^ 32) (r / 2 ^ 32)
        (modEngine n (fun e => { e.ran r j with seen := (engineOf s n).seen }) d.2) =
        complete c .success (r % 2 ^ 32) (r / 2 ^ 32) (modEngine n (fun e => { e.ran r j with seen := (engineOf s n).seen }) d.2) := by
      unfold completeJob
      rw [named]
      exact completeId_found (s := modEngine n _ d.2) found ..
    have told := complete_told c .success (r % 2 ^ 32) (r / 2 ^ 32)
      (modEngine n (fun e => { e.ran r j with seen := (engineOf s n).seen }) d.2)
    have after : engineOf (endRun n j bus s) n = (engineOf s n).ran r j := by
      rw [ended, completed, engineOf_congr told.chk, engineOf_modEngine_same, same]
      rfl
    have next : engineOf (modEngine n Engine.next (endRun n j bus s)) n = (engineOf s n).ran r j := by
      rw [engineOf_modEngine_same, after]
      exact Engine.next_idle noHost noInternal
    refine ⟨_, modEngine n (fun e => { e.ran r j with seen := (engineOf s n).seen }) d.2,
      (chkJobEnd_runs up runs noImage noFrame).trans (congrArg _ (settleRelease_none (by rw [next]; exact noRelease))), ?_, next, ?_⟩
    · rw [ended, completed]
      rfl
    · rw [ended, completed]
      exact told.mem

end Sys2Proof.Machine
end

section
/-! PROOFS. The bin tally: its commands, heads, scans and sweeps (11 R325 to R328, R334 to R337). -/

namespace Sys2Proof.Machine

variable {s : State} {id : CmdId} {c : Cmd}

/-! ### A record changed -/

theorem tallyOf_modTally (i : Nat) (f : TRec → TRec) (s : State) : tallyOf (modTally i f s) i = f (tallyOf s i) :=
  (Tbl.getD_alter s.tly.recs i i {} f).trans (if_pos rfl)

theorem tallyOf_congr {t : State} (h : t.tly.recs = s.tly.recs) (i : Nat) : tallyOf t i = tallyOf s i :=
  congrArg (fun x => x.getD i {}) h

theorem tallyEvent_told (code i cause auth : Nat) (s : State) : Told s (tallyEvent code i cause auth s) := raisePf_told ..

/-- A change of the tally's records alone. -/
def OnlyRecs (s t : State) : Prop := ∃ recs, t = { s with tly := { s.tly with recs := recs } }

theorem OnlyRecs.refl (s : State) : OnlyRecs s s := ⟨s.tly.recs, rfl⟩

theorem OnlyRecs.modTally (i : Nat) (f : TRec → TRec) (s : State) : OnlyRecs s (modTally i f s) := ⟨_, rfl⟩

theorem OnlyRecs.trans {s t u : State} (h : OnlyRecs s t) (k : OnlyRecs t u) : OnlyRecs s u := by
  obtain ⟨a, rfl⟩ := h
  obtain ⟨b, rfl⟩ := k
  exact ⟨b, rfl⟩

/-! ### Disturbances (R331, R332) -/

/-- A record at its first disturbance. -/
def TRec.disturbed (cause : Nat) (r : TRec) : TRec :=
  { r with state := .disturbed, cause, swept := false, sweepAt := none, window := 0 }

/-- A change of the tally but its records. -/
theorem tallyOf_modTly {f : Tly → Tly} (kept : ∀ t, (f t).recs = t.recs := by intro _; rfl) (s : State) (i : Nat) :
    tallyOf (s.modTly f) i = tallyOf s i := tallyOf_congr (kept s.tly) i

/-- A first disturbance put down, before it is told. -/
def noteDisturbed (i cause : Nat) (s : State) : State :=
  (modTally i (TRec.disturbed cause) s).modTly fun t => { t with last := i + cause * 2 ^ 22, lastTime := s.core.time }

/-- The error that a disturbance logs. -/
def disturbance (i cause : Nat) : Err :=
  { sev := 2, source := 0x09, plane := 1, code := 0xA001, addr := i, obj := i, detail := cause }

theorem disturb_runs {i : Nat} (fresh : (tallyOf s i).state ≠ .disturbed) (cause : Nat) : disturb i cause s =
    tallyEvent 0xA001 i cause 0 (noteDisturbed i cause (logError (disturbance i cause) s)) := by
  unfold disturb
  dsimp only
  rw [if_neg fresh]
  unfold noteDisturbed disturbance TRec.disturbed
  rfl

theorem tallyOf_noteDisturbed (i cause : Nat) (s : State) : tallyOf (noteDisturbed i cause s) i = (tallyOf s i).disturbed cause :=
  (tallyOf_modTly ..).trans (tallyOf_modTally ..)

theorem noteDisturbed_grn (i cause : Nat) (s : State) : (noteDisturbed i cause s).grn = s.grn := rfl
theorem noteDisturbed_mem (i cause : Nat) (s : State) : (noteDisturbed i cause s).mem = s.mem := rfl

/-- A record that is not disturbed yet becomes so; the granary and memory stay. -/
theorem disturb_first {i : Nat} (fresh : (tallyOf s i).state ≠ .disturbed) (cause : Nat) :
    tallyOf (disturb i cause s) i = (tallyOf s i).disturbed cause ∧ (disturb i cause s).grn = s.grn ∧
      (disturb i cause s).mem = s.mem := by
  have logged := logError_told (disturbance i cause) s
  have event := tallyEvent_told 0xA001 i cause 0 (noteDisturbed i cause (logError (disturbance i cause) s))
  rw [disturb_runs fresh, event.grn, event.mem, noteDisturbed_grn, noteDisturbed_mem, tallyOf_congr (congrArg Tly.recs event.tly),
    tallyOf_noteDisturbed, tallyOf_congr (congrArg Tly.recs logged.tly)]
  exact ⟨rfl, logged.grn, logged.mem⟩

theorem lockedOut_disturbed {i : Nat} (h : (tallyOf s i).state = .disturbed) : lockedOut s i = true := by
  unfold lockedOut
  rw [h]

/-! ### Counts (R323, R327, R329) -/

/-- Channels that agree before a count agree after it, so nothing but the record changes. -/
theorem updTally_agrees {i : Nat} (f : Counts → Counts) (same : (tallyOf s i).a = (tallyOf s i).b) :
    OnlyRecs s (updTally i f s) ∧ tallyOf (updTally i f s) i = ((tallyOf s i).both f).rest := by
  have counted : tallyOf (modTally i (TRec.both f) s) i = (tallyOf s i).both f := tallyOf_modTally ..
  have agrees : compareRec i (modTally i (TRec.both f) s) = modTally i (TRec.both f) s := by
    unfold compareRec
    refine if_pos (.inl ?_)
    rw [counted]
    exact congrArg f same
  unfold updTally
  rw [agrees]
  exact ⟨(OnlyRecs.modTally ..).trans (.modTally ..), (tallyOf_modTally ..).trans (congrArg TRec.rest counted)⟩

theorem countOut_runs {i : Nat} (same : (tallyOf s i).a = (tallyOf s i).b) (open_ : (tallyOf s i).a.opsOut < (tallyOf s i).a.opsIn) :
    countOut i s = updTally i (fun c => { c with opsOut := c.opsOut + 1 }) s := by
  unfold countOut
  refine if_neg ?_
  rw [← same]
  omega

/-- A bin's record as its sweep counts it: k operations in and as many out on both channels (R335). -/
def TRec.passed (k : Nat) (r : TRec) : TRec := { r with a := { opsIn := k, opsOut := k }, b := { opsIn := k, opsOut := k } }

/-- While the bin is being swept an operation that enters and leaves moves all four counts. -/
theorem passOp_sweeping {i k : Nat} {r : TRec} (now : tallyOf s i = r.passed k) (sweeping : r.state = .sweeping)
    (room : k + 1 < 2 ^ 40) : OnlyRecs s (passOp i s) ∧ tallyOf (passOp i s) i = r.passed (k + 1) := by
  have keeps : tallyOf (modTally i (fun r => if r.state = .clear then { r with state := .occupied } else r) s) i = r.passed k := by
    have busy : (r.passed k).state ≠ .clear := fun clear => absurd (sweeping.symm.trans clear) (by decide)
    rw [tallyOf_modTally, now, if_neg busy]
  obtain ⟨enters, entered⟩ := updTally_agrees (i := i)
    (s := modTally i (fun r => if r.state = .clear then { r with state := .occupied } else r) s)
    (fun c => { c with opsIn := c.opsIn + 1 }) (by rw [keeps]; rfl)
  have rests (x : TRec) (h : x.state = .sweeping) : x.rest = x := by
    unfold TRec.rest
    rw [h]
  have isIn : countIn i s = updTally i (fun c => { c with opsIn := c.opsIn + 1 })
      (modTally i (fun r => if r.state = .clear then { r with state := .occupied } else r) s) := by
    unfold countIn
    refine if_neg ?_
    rw [now]
    dsimp only [TRec.passed]
    omega
  have inside : tallyOf (countIn i s) i = { r with a := { opsIn := k + 1, opsOut := k }, b := { opsIn := k + 1, opsOut := k } } := by
    rw [isIn, entered, keeps]
    exact rests _ sweeping
  obtain ⟨leaves, left⟩ := updTally_agrees (i := i) (s := countIn i s) (fun c => { c with opsOut := c.opsOut + 1 }) (by rw [inside])
  have isOut : passOp i s = updTally i (fun c => { c with opsOut := c.opsOut + 1 }) (countIn i s) :=
    countOut_runs (by rw [inside]) (by rw [inside]; exact Nat.lt_succ_self k)
  rw [isOut]
  refine ⟨((OnlyRecs.modTally ..).trans (isIn ▸ enters)).trans leaves, ?_⟩
  rw [left, inside]
  exact rests _ sweeping

theorem passOps_sweeping {i : Nat} {r : TRec} (sweeping : r.state = .sweeping) (l : List Nat) {k : Nat} {s : State}
    (now : tallyOf s i = r.passed k) (room : k + l.length < 2 ^ 40) :
    OnlyRecs s (forEach l (fun _ => passOp i) s) ∧ tallyOf (forEach l (fun _ => passOp i) s) i = r.passed (k + l.length) := by
  induction l generalizing k s with
  | nil => exact ⟨.refl s, now⟩
  | cons x l ih =>
    rw [List.length_cons] at room
    obtain ⟨passes, passed⟩ := passOp_sweeping now sweeping (by omega)
    obtain ⟨rest, all⟩ := ih passed (by omega)
    refine ⟨passes.trans rest, all.trans (congrArg r.passed ?_)⟩
    rw [List.length_cons]
    omega

/-! ### The tally commands (R334, R336, R337) -/

theorem grnCmd_awake {op : Opc} (run : Runs s op id c) (awake : s.dom.sleep.state = .awake) (f : Cmd → State → State) :
    grnCmd op id (fun _ => true) s f = .next (f c (quietAgain s)) := by
  have serves : sleepServes s = true := by
    unfold sleepServes
    rw [awake]
  have stays : sleepWake s = quietAgain s := by
    unfold sleepWake
    dsimp only
    rw [awake]
  unfold grnCmd
  rw [show runnable s op id = some c from run]
  dsimp only
  rw [if_neg (by decide), serves, stays]
  rfl

theorem tallyTarget_quietAgain (s : State) (h : Nat) : tallyTarget (quietAgain s) h = tallyTarget s h := rfl

/-- A tally command of an awake granary on the copy it names. -/
theorem tallyCmd_runs {op : Opc} {i : Nat} (run : Runs s op id c) (awake : s.dom.sleep.state = .awake)
    (read : readEntry false false (pktHandle c.pkt) (quietAgain s) = quietAgain s)
    (target : tallyTarget s (pktHandle c.pkt) = .ok i) (k : Cmd → Nat → State → State) :
    grnCmd op id (fun _ => true) s (fun c => withTally c (k c)) = .next (k c i (quietAgain s)) := by
  rw [grnCmd_awake run awake]
  unfold withTally
  rw [read]
  dsimp only
  rw [tallyTarget_quietAgain, target]

/-- What TALLY_QUERY reports of a copy with no maps. -/
theorem tallyQuery_completes {i : Nat} (run : Runs s .tallyQuery id c) (awake : s.dom.sleep.state = .awake)
    (read : readEntry false false (pktHandle c.pkt) (quietAgain s) = quietAgain s)
    (target : tallyTarget s (pktHandle c.pkt) = .ok i) (noMaps : (binEntry s i).maps = []) :
    exec (.tallyQuery id) s = .next (complete c .success
      ((tallyOf s i).state.code + 8 * flag (tallyOf s i).swept + 16 * (tallyOf s i).cause + 2 ^ 8 * (tallyOf s i).epoch +
        2 ^ 16 * sat 255 ((tallyOf s i).a.mapsIn - (tallyOf s i).a.mapsOut))
      (sat 0xFFFF (opsOpen s i) + 2 ^ 16 * sat 0xFFFF (windowLeft s (tallyOf s i))) (quietAgain s)) := by
  refine (tallyCmd_runs run awake read target _ : execTallyQuery id s = _).trans (congrArg _ ?_)
  have none : (binEntry (quietAgain s) i).maps = [] := noMaps
  dsimp only
  rw [none]
  rfl

end Sys2Proof.Machine
end

section
/-! PROOFS. Prepared and confirmed records, the exit head, and a bin's sweep (11 R325, R326, R334 to R336). -/

namespace Sys2Proof.Machine

variable {s : State} {id : CmdId} {c : Cmd}

/-! ### TALLY_PREP_RESET and TALLY_CONFIRM (R334, R336) -/

theorem binEntry_modBin (i : Nat) (f : Bin → Bin) (s : State) : binEntry (modBin i f s) i = f (binEntry s i) :=
  (Tbl.getD_alter s.grn.dir i i {} f).trans (if_pos rfl)

theorem binEntry_congr {t : State} (h : t.grn = s.grn) (i : Nat) : binEntry t i = binEntry s i := congrArg (fun g => g.dir.getD i {}) h

theorem modBin_tly (i : Nat) (f : Bin → Bin) (s : State) : (modBin i f s).tly = s.tly := rfl

theorem foldl_fixed_of {α : Type} {f : State → α → State} {l : List α} (fixed : ∀ a ∈ l, ∀ s, f s a = s) (s : State) :
    l.foldl f s = s := by
  induction l generalizing s with
  | nil => rfl
  | cons a l ih =>
    rw [List.foldl_cons, fixed a List.mem_cons_self]
    exact ih (fun x hx => fixed x (List.mem_cons_of_mem _ hx)) s

/-- The record a TALLY_PREP_RESET leaves. -/
def TRec.prepare (auth member now : Nat) (r : TRec) : TRec :=
  { r with a := {}, b := {}, state := .sweepPending, swept := false, epoch := (r.epoch + 1) % 256, prepared := true, prepAuth := auth
           prepMember := member, suspA := false, suspB := false, sweepAt := some now }

/-- A record prepared, and its bin's maps forgotten. -/
def prepare (c : Cmd) (i : Nat) (s : State) : State :=
  modBin i (fun b => { b with maps := [] }) (modTally i (TRec.prepare (pktAuth c.pkt) (requester s c) s.core.t) s)

theorem prepare_leaves (c : Cmd) (i : Nat) (s : State) : tallyOf (prepare c i s) i =
    (tallyOf s i).prepare (pktAuth c.pkt) (requester s c) s.core.t ∧ (binEntry (prepare c i s) i).maps = [] :=
  ⟨(tallyOf_congr (congrArg Tly.recs (modBin_tly ..)) i).trans (tallyOf_modTally ..), congrArg Bin.maps (binEntry_modBin ..)⟩

section
variable {i : Nat} (awake : s.dom.sleep.state = .awake)
  (read : readEntry false false (pktHandle c.pkt) (quietAgain s) = quietAgain s)
  (target : tallyTarget s (pktHandle c.pkt) = .ok i)
include awake read target

theorem tallyPrepReset_completes (run : Runs s .tallyPrepReset id c) (disturbed : (tallyOf s i).state = .disturbed)
    (idle : opsOpen s i = 0) (noUnmaps : ∀ m ∈ (binEntry s i).maps, m.unmap = none) :
    exec (.tallyPrepReset id) s = .next (complete c .success (((tallyOf s i).epoch + 1) % 256) 0
      (tallyEvent 0xA004 i (tallyOf s i).cause (pktAuth c.pkt) (prepare c i (quietAgain s)))) := by
  refine (tallyCmd_runs run awake read target _ : execTallyPrepReset id s = _).trans (congrArg _ ?_)
  have state : (tallyOf (quietAgain s) i).state = .disturbed := disturbed
  have none : opsOpen (quietAgain s) i = 0 := idle
  dsimp only
  rw [if_neg (fun h => h state), if_neg (fun h => h none), foldl_fixed_of (l := (binEntry (quietAgain s) i).maps)]
  · rfl
  · intro m hm s
    rw [noUnmaps m hm]

theorem tallyConfirm_refuses (run : Runs s .tallyConfirm id c) (prepared : (tallyOf s i).prepared = true)
    (same : pktAuth c.pkt = (tallyOf s i).prepAuth) : exec (.tallyConfirm id) s = .next (refuse c 9 0
      ((quietAgain s).modTly fun y => { y with arrived := y.arrived.filter fun a => a.1 ≠ id })) := by
  refine (tallyCmd_runs run awake read target _ : execTallyConfirm id s = _).trans (congrArg _ (checks_first ?_))
  have isPrepared : (tallyOf (quietAgain s) i).prepared = true := prepared
  have isSame : pktAuth c.pkt = (tallyOf (quietAgain s) i).prepAuth := same
  rw [isPrepared, Bool.true_and]
  exact decide_eq_true isSame

/-- A confirmed record, and its bin, which is no longer lost. -/
def confirm (i : Nat) (s : State) : State :=
  modBin i (fun b => { b with state := if b.state = .lost then .allocated else b.state })
    (modTally i (fun r => { r with a := {}, b := {}, state := .clear, swept := false, cause := 0, window := 0 }) s)

omit awake read target in
theorem confirm_leaves (i : Nat) (s : State) : tallyOf (confirm i s) i =
      { tallyOf s i with a := {}, b := {}, state := .clear, swept := false, cause := 0, window := 0 } ∧
    binEntry (confirm i s) i =
      { binEntry s i with state := if (binEntry s i).state = .lost then .allocated else (binEntry s i).state } :=
  ⟨(tallyOf_congr (congrArg Tly.recs (modBin_tly ..)) i).trans (tallyOf_modTally ..), binEntry_modBin ..⟩

/-- A TALLY_CONFIRM that passes is told to its bin's partner too. -/
theorem tallyConfirm_completes (run : Runs s .tallyConfirm id c) (sweeping : (tallyOf s i).state = .sweeping)
    (other : (tallyOf s i).prepared = true → pktAuth c.pkt ≠ (tallyOf s i).prepAuth) (swept : (tallyOf s i).swept = true)
    (epoch : fld c.pkt 3 7 0 = (tallyOf s i).epoch) (zero : fld c.pkt 3 31 8 = 0)
    (inTime : arrivedAt s id < (tallyOf s i).window) :
    ∃ u, exec (.tallyConfirm id) s = .next (complete c .success 0 0 u) ∧
      Told (confirm i ((quietAgain s).modTly fun y => { y with arrived := y.arrived.filter fun a => a.1 ≠ id })) u := by
  have formed : (fields c [(decide (fld c.pkt 3 7 0 ≠ (tallyOf s i).epoch), 12), rsv c.pkt 3 31 8]).1 = false :=
    fields_pass (by simp [epoch, rsv_zero zero]) c
  have twoHands : ((tallyOf s i).prepared && decide (pktAuth c.pkt = (tallyOf s i).prepAuth)) = false := by
    rw [Bool.and_eq_false_iff, decide_eq_false_iff_not]
    by_cases prepared : (tallyOf s i).prepared = true
    · exact .inr (other prepared)
    · exact .inl (Bool.eq_false_iff.2 prepared)
  have pass : passes [((tallyOf s i).prepared && decide (pktAuth c.pkt = (tallyOf s i).prepAuth), refuse c 9 0),
      deny (decide ((tallyOf s i).state ≠ .sweeping)) (tallyOf s i).state.code c, busy (decide ((tallyOf s i).swept = false)) 1000 c,
      fields c [(decide (fld c.pkt 3 7 0 ≠ (tallyOf s i).epoch), 12), rsv c.pkt 3 31 8],
      deny (decide ((tallyOf s i).window ≤ arrivedAt s id)) 2 c] = true := by
    simp only [passes, List.all_cons, List.all_nil, deny, busy, twoHands, formed]
    simp [sweeping, swept, inTime]
  have event := tallyEvent_told 0xA003 i (tallyOf s i).cause 0
    (confirm i ((quietAgain s).modTly fun y => { y with arrived := y.arrived.filter fun a => a.1 ≠ id }))
  refine ⟨_, (tallyCmd_runs run awake read target _ : execTallyConfirm id s = _).trans (congrArg _ (checks_pass pass)), ?_⟩
  split
  · exact event.trans (sendMsg_told ..)
  · exact event

end

/-! ### The exit head (R325, R326) -/

/-- A healthy range is read as it stands. -/
theorem readHealed_clean {i off n : Nat} (noWeak : s.mem.weak = []) (noBad : badCell s (binCell (binEntry s i) off) n = none)
    (clean : ∀ p ∈ readBin s (binEntry s i) off n, p.2 = false) :
    readHealed i off n none s = (readBin s (binEntry s i) off n, s) := by
  have met : meetRange (binCell (binEntry s i) off) n s = s := by
    have cells : meetCells (binCell (binEntry s i) off) n s = s := by
      unfold meetCells
      rw [noWeak]
      rfl
    unfold meetRange
    rw [cells]
    dsimp only
    rw [noBad]
  have sound : anyPoison (readBin s (binEntry s i) off n) = false := List.any_eq_false.2 fun p hp => by simp [clean p hp]
  unfold readHealed
  dsimp only
  rw [met, if_neg (by simp [sound])]

theorem readBin_length (s : State) (b : Bin) (off n : Nat) : (readBin s b off n).length = n := by
  simp [readBin, readP]

/-- A read of one part is answered by its data. -/
theorem answerRequest_data {k : Token} {data : List PByte} (reads : k.reads = true) (clean : ∀ p ∈ data, p.2 = false) :
    answerRequest k [(k.at_, k.offset, data)] 0 s =
      sendPacket k.qpn (.response (psnAdd k.first (packetsOf data.length - 1)) (data.map (·.1))) s := by
  have whole : [(k.at_, k.offset, data)].flatMap (fun g => g.2.2) = data := by simp
  have sound : data.findIdx? (fun b => b.2) = none := by
    rw [List.findIdx?_eq_none_iff]
    exact clean
  have noPoison : [(k.at_, k.offset, data)].findSome? (fun g => (g.2.2.findIdx? fun b => b.2).map fun k => (g.1 + k, (g.2.1 + k) / 64)) =
      none := by
    simp [sound]
  unfold answerRequest
  rw [if_neg (by decide), if_neg (by simp [reads])]
  dsimp only
  rw [noPoison, whole, List.take_length]
  rfl

/-- The one part of a READ that leaves is answered by what its range holds. -/
theorem answerToken_read {k : Token} (read : k.kind = .read) (own : k.who = none) (reads : k.reads = true) (first : k.got = [])
    (good : k.code = 0) (last : ∀ x ∈ s.tly.tokens, sameRequest k x.2 = false) (noWeak : s.mem.weak = [])
    (noBad : badCell s (binCell (binEntry s k.bin) k.offset) k.len = none)
    (clean : ∀ p ∈ readBin s (binEntry s k.bin) k.offset k.len, p.2 = false) :
    answerToken k 0 none s = sendPacket k.qpn (.response (psnAdd k.first (packetsOf k.len - 1))
      ((readBin s (binEntry s k.bin) k.offset k.len).map (·.1))) s := by
  have alone : (s.tly.tokens.any fun x => sameRequest k x.2) = false := List.any_eq_false.2 fun x hx => by simp [last x hx]
  unfold answerToken
  rw [if_neg (by simp [own]), read]
  dsimp only
  rw [if_neg (show ¬ k.reads = false by simp [reads]), if_neg (show ¬ OpKind.read = .proxy by decide),
    readHealed_clean noWeak noBad clean, if_neg (show ¬ k.code ≠ 0 from fun h => h good),
    if_neg (show ¬ OpKind.read = .proxy by decide), if_pos reads, first]
  dsimp only
  rw [alone, if_neg (show ¬ false = true by decide)]
  have answered := answerRequest_data (s := s) reads clean
  rw [readBin_length] at answered
  exact answered

theorem operationExit_counts {i n : Nat} {k : Token} (held : s.tly.tokens.get n = some k) (bin : k.bin = i) (read : k.kind = .read)
    (runs : k.waits = none) (epoch : k.epoch = (tallyOf s i).epoch) (code : Nat) (relay : Option (List Byte)) :
    exec (.operationExit i (some n) code relay) s = .next
      (answerToken k code relay (countOut i (s.modTly fun y => { y with tokens := y.tokens.erase n }))) := by
  have same : ¬ k.epoch ≠ (tallyOf (s.modTly fun y => { y with tokens := y.tokens.erase n }) i).epoch := fun h => h epoch
  show execOperationExit i (some n) code relay s = _
  unfold execOperationExit
  dsimp only
  rw [held]
  dsimp only
  rw [if_neg (fun h => h bin), if_neg (by simp [read, runs]), if_neg same]

/-- A count that comes to rest keeps channels that agree in agreement, and its operations while some are open. -/
theorem TRec.rest_open {r : TRec} (same : r.a = r.b) (open_ : r.a.opsOut < r.a.opsIn) :
    r.rest.a.opsOut = r.a.opsOut ∧ r.rest.b = r.rest.a := by
  have notEven : ¬ (r.a.opsIn = r.a.opsOut ∧ r.b.opsIn = r.b.opsOut) := fun h => by omega
  have settles : r.rest = r ∨ ∃ st, r.rest = { r with state := st } ∨
      r.rest = { r.both (fun c => { c with mapsIn := 0, mapsOut := 0 }) with state := st } := by
    unfold TRec.rest
    split
    · dsimp only
      rw [if_neg notEven]
      split
      · exact .inr ⟨_, .inr rfl⟩
      · exact .inr ⟨_, .inl rfl⟩
    · dsimp only
      rw [if_neg notEven]
      split
      · exact .inr ⟨_, .inr rfl⟩
      · exact .inr ⟨_, .inl rfl⟩
    · exact .inl rfl
  rcases settles with h | ⟨st, h | h⟩
  · rw [h]
    exact ⟨rfl, same.symm⟩
  · rw [h]
    exact ⟨rfl, same.symm⟩
  · rw [h]
    exact ⟨rfl, congrArg (fun c : Counts => { c with mapsIn := 0, mapsOut := 0 }) same.symm⟩

end Sys2Proof.Machine
end

section
/-! PROOFS. The sweep of a bin and the near-memory ring, and the tally's statement (10 R317, R318, 11 R335). -/

namespace Sys2Proof.Machine

variable {s : State} {id : CmdId} {c : Cmd}

/-! ### The sweep (R335) -/

/-- The item count and the room of the heads: a bin has at most 1,024 chunks. -/
theorem chunks_le {b : Bin} (small : b.size ≤ 30) : chunks b ≤ 1024 := by
  unfold chunks Bin.bytes
  have most : 2 ^ b.size ≤ 2 ^ 30 := Nat.pow_le_pow_right (by decide) small
  omega

theorem TRec.passed_zero {r : TRec} (a : r.a = {}) (b : r.b = {}) : r.passed 0 = r := by
  cases r
  cases a
  cases b
  rfl

/-- A sweep that meets no error leaves SWEPT and the window, with the bin's bytes 0. -/
theorem sweepPass_clean {i : Nat} (sweeping : (tallyOf s i).state = .sweeping) (fresh : (tallyOf s i).swept = false)
    (a : (tallyOf s i).a = {}) (b : (tallyOf s i).b = {}) (small : (binEntry s i).size ≤ 30)
    (up : (pairOf s (binEntry s i).pair).state = .up) :
    ∃ u, OnlyRecs (zeroBin (binEntry s i) s) u ∧ (tallyOf u i).state = .sweeping ∧
      sweepPass i s = tallyEvent 0xA002 i 0 0 (modTally i (fun r => { r with swept := true, window := u.core.time + sec 60 }) u) := by
  have start : tallyOf (zeroBin (binEntry s i) s) i = (tallyOf s i).passed 0 := (TRec.passed_zero a b).symm
  have few := chunks_le small
  obtain ⟨fills, filled⟩ := passOps_sweeping sweeping (List.range (chunks (binEntry s i))) start
    (by rw [List.length_range]; omega)
  obtain ⟨passes, passed⟩ := passOp_sweeping filled sweeping (by rw [List.length_range]; omega)
  have clean (k : Nat) : (decide (((tallyOf s i).passed k).state = .sweeping) &&
      decide (((tallyOf s i).passed k).a = ((tallyOf s i).passed k).b) &&
      decide (((tallyOf s i).passed k).a.opsIn = ((tallyOf s i).passed k).a.opsOut) &&
      decide (((tallyOf s i).passed k).a.mapsIn = ((tallyOf s i).passed k).a.mapsOut) &&
      decide (((tallyOf s i).passed k).a.mapsIn = 0)) = true := by
    simp [TRec.passed, sweeping]
  refine ⟨_, fills.trans passes, by rw [passed]; exact sweeping, ?_⟩
  unfold sweepPass
  dsimp only
  rw [if_neg (by simp [sweeping, fresh]), if_neg (fun h => h up), filled, if_pos (clean _), passed, if_pos (clean _)]

/-- The clocks, memory, the items and the tally. -/
def State.shelf (s : State) : Core × Mem × Trn × Tly := (s.core, s.mem, s.trn, s.tly)

theorem Told.shelf {t : State} (h : Told s t) : t.shelf = s.shelf := by
  unfold State.shelf
  rw [h.core, h.mem, h.trn, h.tly]

theorem State.shelf_eq {t : State} (h : t.shelf = s.shelf) : t.core = s.core ∧ t.mem = s.mem ∧ t.trn = s.trn ∧ t.tly = s.tly := by
  simpa only [State.shelf, Prod.mk.injEq] using h

theorem settleFences_shelf (s : State) : (settleFences s).shelf = s.shelf := by
  unfold settleFences
  extract_lets go s1 settled ended s2
  have fenced : s1.shelf = s.shelf := foldl_keeps State.shelf
    (fun s n => (raisePf_told 0x5003 n n (modStone n (fun x => { x with state := .fenced }) s)).shelf) _ s
  refine (foldl_keeps State.shelf (fun s w => ?_) _ s2).trans fenced
  split
  · exact (completeId_told ..).shelf
  · rfl

theorem releaseBlock_shelf (base floors : Nat) (s : State) : (releaseBlock base floors s).shelf = s.shelf := by
  have cleared : (clearBlock base floors s).shelf = s.shelf :=
    foldl_keeps State.shelf (fun s i => (rfl : (clearInst i s).shelf = s.shelf)) _ s
  obtain ⟨doms, settled⟩ := settleVotes_eq (settleFences (clearBlock base floors s))
  have voted : (releaseBlock base floors s).shelf = (settleFences (clearBlock base floors s)).shelf := by
    unfold releaseBlock
    rw [settled]
    rfl
  rw [voted, settleFences_shelf, cleared]

/-- An item dropped from its block is gone; the clocks, memory and the tally stay. -/
theorem dropItem_placed {n : Nat} {x : Item} (found : itemOf s n = some x) (placed : x.placed = true) :
    (dropItem n s).core = s.core ∧ (dropItem n s).mem = s.mem ∧ itemOf (dropItem n s) n = none ∧ (dropItem n s).tly = s.tly := by
  unfold dropItem
  rw [found]
  dsimp only
  rw [if_pos placed]
  obtain ⟨core, mem, trn, tly⟩ := State.shelf_eq (releaseBlock_shelf x.base x.floors (s.modTrn fun r =>
    { r with
      items := r.items.erase n
      saveUsed := r.saveUsed - x.saveBytes
      reserved := (match r.reserved with | some (k, b) => if k = n then none else some (k, b) | none => none) }))
  refine ⟨core, mem, (itemOf_trn trn n).trans ?_, tly⟩
  exact (Tbl.get_erase s.trn.items n n).trans (if_pos rfl)

/-- The sweep item whose token passes both heads ends with a clean pass. -/
theorem sweepTokenPass_runs {i n cv : Nat} {x : Item} (only : s.trn.items = [(n, x)]) (owner : x.owner = .sweep cv i)
    (running : x.state = .running) (awake : blockAwake s x.base 1 = true) :
    exec (.sweepTokenPass i) s = .next (dropItem n (sweepPass i s)) := by
  show execSweepTokenPass i s = _
  unfold execSweepTokenPass itemsWhere
  rw [only]
  simp [owner, running, awake]

theorem sweepTokenPass_leaves {i n cv : Nat} {x : Item} (only : s.trn.items = [(n, x)]) (owner : x.owner = .sweep cv i)
    (running : x.state = .running) (awake : blockAwake s x.base 1 = true) (sweeping : (tallyOf s i).state = .sweeping)
    (fresh : (tallyOf s i).swept = false) (a : (tallyOf s i).a = {}) (b : (tallyOf s i).b = {}) (small : (binEntry s i).size ≤ 30)
    (up : (pairOf s (binEntry s i).pair).state = .up) :
    ∃ t, exec (.sweepTokenPass i) s = .next t ∧ itemOf t n = none ∧ (tallyOf t i).swept = true ∧ (tallyOf t i).state = .sweeping ∧
      (tallyOf t i).window = s.core.time + sec 60 ∧ t.mem = zeroRange s.mem (binCell (binEntry s i) 0) (binEntry s i).bytes := by
  obtain ⟨u, ⟨recs, only'⟩, stays, passes⟩ := sweepPass_clean sweeping fresh a b small up
  have event := tallyEvent_told 0xA002 i 0 0 (modTally i (fun r => { r with swept := true, window := u.core.time + sec 60 }) u)
  rw [← passes] at event
  have core : u.core = s.core := by rw [only']; rfl
  have mem : u.mem = zeroRange s.mem (binCell (binEntry s i) 0) (binEntry s i).bytes := by rw [only']; rfl
  have trn : (sweepPass i s).trn = s.trn := event.trn.trans (by rw [only']; rfl)
  have found : itemOf (sweepPass i s) n = some x := by
    rw [itemOf_trn trn]
    unfold itemOf
    rw [only]
    exact if_pos rfl
  have placed : x.placed = true := by simp [Item.placed, running]
  obtain ⟨-, kept, gone, tly⟩ := dropItem_placed found placed
  have record : tallyOf (dropItem n (sweepPass i s)) i = { tallyOf u i with swept := true, window := s.core.time + sec 60 } := by
    rw [tallyOf_congr (congrArg Tly.recs tly), tallyOf_congr (congrArg Tly.recs event.tly), tallyOf_modTally, core]
  refine ⟨_, sweepTokenPass_runs only owner running awake, gone, ?_, ?_, ?_, kept.trans (event.mem.trans mem)⟩
  · rw [record]
  · rw [record]
    exact stays
  · rw [record]

/-! ### Items added (R317, R335) -/

theorem itemOf_addItem (x : Item) (s : State) : itemOf (addItem x s) s.trn.nextItem = some x :=
  (Tbl.get_set s.trn.items s.trn.nextItem s.trn.nextItem x).trans (if_pos rfl)

theorem sweepQueue_runs {i t0 : Nat} (pending : (tallyOf s i).state = .sweepPending) (due : (tallyOf s i).sweepAt = some t0) :
    exec (.sweepQueue i) s = .next (addItem
      { fn := 0, owner := .sweep (binEntry s i).carve i, image := 1024, gang := 0, due := s.core.t + sec 1, floors := 1 }
      (modTally i (fun r => { r with sweepAt := none }) s)) := by
  show execSweepQueue i s = _
  unfold execSweepQueue
  dsimp only
  exact onEvent_holds (by simp [pending, due])

/-- The item of a ring entry without a deadline (R318). -/
def ringItem (index image : Nat) (m : Image) (e : List Byte) (now : Nat) : Item :=
  { fn := 0, owner := .nearMem index, chain := some (num e 0 2), stage := num e 2 1, image, gang := num e 3 1, due := now + sec 1
    floors := m.floors, user := num e 8 8 }

theorem takeEntry_adds {index image : Nat} {l : List PByte} {e : List Byte} {k : Chain} {m : Image} (bytes : e = l.map (·.1))
    (clean : anyPoison l = false) (zero : num e 16 48 = 0) (noDeadline : num e 4 4 = 0) (chain : s.stn.chains.get (num e 0 2) = some k)
    (own : k.fn = 0) (stage : k.images[num e 2 1]? = some image) (held : imageOf s image = some m) (fits : gangFits (num e 3 1) m = true)
    (anyFloor : bit (num e 3 1) 3 = false) : takeEntry index l s = addItem (ringItem index image m e s.core.t) s := by
  unfold takeEntry
  dsimp only
  rw [← bytes, if_neg (by simp [clean]), if_neg (by simp [zero, noDeadline]), chain]
  dsimp only
  rw [if_neg (fun h => h own), stage]
  dsimp only [Option.bind_some]
  rw [held]
  dsimp only [Option.map_some]
  rw [if_neg (by simp [fits, anyFloor]), if_pos noDeadline]
  rfl

section
variable {val : Nat} (granary : isGranary s = true) (up : s.core.ctlReset = false) (run : s.pwr.state = .run)
include granary up run

theorem nmwTailWrite_runs (bus : Bus) {n : Nat} (ahead : (val % 2 ^ 16 + 2 ^ 16 - s.grn.nmwHead) % 2 ^ 16 = n) :
    exec (.nmwTailWrite val bus) s = .next (if n = 0 then s.modGrn fun g => { g with nmwTail := val % 2 ^ 16 }
      else fetchEntries bus (min n (nmwDepth s)) (sleepWake (s.modGrn fun g => { g with nmwTail := val % 2 ^ 16 }))) := by
  show execNmwTailWrite val bus s = _
  unfold execNmwTailWrite
  dsimp only
  rw [if_neg (by simp [granary, up]), idleExit_of_run (s := s.modGrn fun g => { g with nmwTail := val % 2 ^ 16 }) run, ← ahead]
  rfl

/-- One entry ahead of HEAD is fetched through the walk of its address (R317). -/
theorem nmwTailWrite_one {bus : Bus} {h : Held} {d : List PByte × State} (awake : s.dom.sleep.state = .awake)
    (low : s.grn.nmwHead < 2 ^ 16) (next : val % 2 ^ 16 = (s.grn.nmwHead + 1) % 2 ^ 16)
    (translated : translate s {} (bits s.grn.nmwCfg 25 16) (s.grn.nmwBase + 64 * (s.grn.nmwHead % nmwDepth s)) 64 = .ok h)
    (read : d = readRuns bus h.segs (noteWalks h (quietAgain { s with grn := { s.grn with nmwTail := val % 2 ^ 16 } }))) :
    exec (.nmwTailWrite val bus) s = .next (takeEntry (s.grn.nmwHead % nmwDepth s) d.1
      (d.2.modGrn fun g => { g with nmwHead := (g.nmwHead + 1) % 2 ^ 16 })) := by
  have one : (val % 2 ^ 16 + 2 ^ 16 - s.grn.nmwHead) % 2 ^ 16 = 1 := by omega
  have deep : min 1 (nmwDepth s) = 1 := Nat.min_eq_left Nat.one_le_two_pow
  have wakes : sleepWake (s.modGrn fun g => { g with nmwTail := val % 2 ^ 16 }) =
      quietAgain { s with grn := { s.grn with nmwTail := val % 2 ^ 16 } } := by
    have isAwake : (s.modGrn fun g => { g with nmwTail := val % 2 ^ 16 }).dom.sleep.state = .awake := awake
    unfold sleepWake
    dsimp only
    rw [isAwake]
    rfl
  have there : translate (quietAgain { s with grn := { s.grn with nmwTail := val % 2 ^ 16 } }) {} (bits s.grn.nmwCfg 25 16)
      (s.grn.nmwBase + 64 * (s.grn.nmwHead % nmwDepth s)) 64 = .ok h := translated
  rw [nmwTailWrite_runs granary up run bus one, if_neg (by decide), deep, wakes]
  refine congrArg _ ?_
  rw [read]
  show (match translate (quietAgain { s with grn := { s.grn with nmwTail := val % 2 ^ 16 } }) {} (bits s.grn.nmwCfg 25 16)
      (s.grn.nmwBase + 64 * (s.grn.nmwHead % nmwDepth s)) 64 with | .error f => _ | .ok h => _) = _
  rw [there]
  rfl

end

end Sys2Proof.Machine
end

section
/-! PROOFS. The statement of the tally and of near-memory work (10 R317, R318, 11 R325 to R328, R334 to R337). -/

namespace Sys2Proof.Machine

variable {s : State}

theorem confirmWindowExpiry_runs {i : Nat} (swept : (tallyOf s i).swept = true) (late : (tallyOf s i).window ≤ s.core.time)
    (none : s.tly.arrived = []) : exec (.confirmWindowExpiry i) s = .next (disturb i 8 s) := by
  show execConfirmWindowExpiry i s = _
  unfold execConfirmWindowExpiry
  dsimp only
  exact onEvent_holds (by simp [swept, late, none])

/-- A parity error of channel A marks it and disturbs the record (R328). -/
theorem tallyBackgroundScan_marks {i : Nat} (fresh : (tallyOf s i).state ≠ .disturbed) :
    ∃ t, exec (.tallyBackgroundScan i true false false none) s = .next t ∧
      tallyOf t i = ({ tallyOf s i with suspA := true } : TRec).disturbed 1 := by
  have marked : tallyOf (modTally i (fun r => { r with suspA := r.suspA || true || false, suspB := r.suspB || false || false }) s) i =
      { tallyOf s i with suspA := true } := by
    rw [tallyOf_modTally, Bool.or_true, Bool.true_or, Bool.or_false, Bool.or_false]
  obtain ⟨record, -, -⟩ := disturb_first (i := i)
    (s := modTally i (fun r => { r with suspA := r.suspA || true || false, suspB := r.suspB || false || false }) s)
    (by rw [marked]; exact fresh) 1
  rw [marked] at record
  exact ⟨_, rfl, record⟩

/-- A scan that finds the channels alike notes the lap alone. -/
theorem tallyBackgroundScan_laps {i n : Nat} (same : (tallyOf s i).a = (tallyOf s i).b) :
    exec (.tallyBackgroundScan i false false false (some n)) s = .next { s with tly := { s.tly with scan := sat 0xFFFF n } } :=
  congrArg Host.Outcome.next (if_pos (.inl same) : compareRec i (s.modTly fun y => { y with scan := sat 0xFFFF n }) = _)

theorem confirming_grn (id : CmdId) (s : State) :
    ((quietAgain s).modTly fun y => { y with arrived := y.arrived.filter fun a => a.1 ≠ id }).grn = s.grn := rfl

theorem confirming_recs (id : CmdId) (s : State) :
    ((quietAgain s).modTly fun y => { y with arrived := y.arrived.filter fun a => a.1 ≠ id }).tly.recs = s.tly.recs := rfl

/-- A clean READ leaves by its token: counted out, and answered by the data it read (R326). -/
theorem operationExit_read {i n : Nat} {k : Token} (held : s.tly.tokens.get n = some k) (bin : k.bin = i) (read : k.kind = .read)
    (runs : k.waits = none) (own : k.who = none) (reads : k.reads = true) (first : k.got = []) (good : k.code = 0)
    (last : ∀ x ∈ s.tly.tokens, x.1 ≠ n → sameRequest k x.2 = false) (noWeak : s.mem.weak = [])
    (noBad : badCell s (binCell (binEntry s i) k.offset) k.len = none) (epoch : k.epoch = (tallyOf s i).epoch)
    (same : (tallyOf s i).a = (tallyOf s i).b) (open_ : (tallyOf s i).a.opsOut + 1 < (tallyOf s i).a.opsIn)
    (clean : ∀ p ∈ readBin s (binEntry s i) k.offset k.len, p.2 = false) :
    ∃ recs, exec (.operationExit i (some n) 0 none) s = .next (sendPacket k.qpn (.response (psnAdd k.first (packetsOf k.len - 1))
        ((readBin s (binEntry s i) k.offset k.len).map (·.1)))
        { s with tly := { s.tly with tokens := s.tly.tokens.erase n, recs := recs } }) ∧
      (recs.getD i {}).a.opsOut = (tallyOf s i).a.opsOut + 1 ∧ (recs.getD i {}).b = (recs.getD i {}).a := by
  have record : tallyOf (s.modTly fun y => { y with tokens := y.tokens.erase n }) i = tallyOf s i := rfl
  have counts := countOut_runs (s := s.modTly fun y => { y with tokens := y.tokens.erase n }) (i := i) same
    (by rw [record]; omega)
  obtain ⟨⟨recs, only⟩, now⟩ := updTally_agrees (s := s.modTly fun y => { y with tokens := y.tokens.erase n }) (i := i)
    (fun c => { c with opsOut := c.opsOut + 1 }) same
  rw [only] at now
  have settled := TRec.rest_open (r := (tallyOf s i).both fun c => { c with opsOut := c.opsOut + 1 })
    (congrArg (fun c : Counts => { c with opsOut := c.opsOut + 1 }) same) open_
  have isRec : recs.getD i {} = ((tallyOf s i).both fun c => { c with opsOut := c.opsOut + 1 }).rest := now
  refine ⟨recs, ?_, by rw [isRec]; exact settled.1, by rw [isRec]; exact settled.2⟩
  rw [operationExit_counts held bin read runs epoch, counts, only]
  subst bin
  refine congrArg _ (answerToken_read read own reads first good (fun x hx => ?_) noWeak noBad clean)
  have left : x ∈ s.tly.tokens.erase n := hx
  rw [Tbl.erase_eq] at left
  obtain ⟨listed, other⟩ := List.mem_filter.1 left
  exact last x listed (of_decide_eq_true other)

/-- Settles O46: the commands by the copy they name, the heads and the sweep by what they count, the ring by the entry it fetches. -/
theorem tallyAndNearMemory : Obligations.TallyAndNearMemory := by
  unfold Obligations.TallyAndNearMemory
  refine ⟨fun s id c i r run awake read target is noMaps => ?_,
    fun s id c i r run awake read target is disturbed idle noUnmaps => ?_,
    fun s id c i r run awake read target is sweeping other swept epoch zero inTime => ?_,
    fun s id c i run awake read target prepared same => ?_,
    fun s i n k r pk held bin kind runs own reads first good last noWeak noBad is epoch same open_ clean pkIs => ?_,
    fun s i code relay r is fresh => ?_, fun s r rest waiting free => ?_, fun s i r is fresh => ?_, fun s i n same => ?_,
    fun s i t0 pending due => ?_,
    fun s i n cv x r b only owner running awake is sweeping fresh a b' bin small up => ?_,
    fun s i r is swept sweeping late none => ?_, fun s val bus granary up run head => ?_,
    fun s val image bus h d e k m granary up run awake low next translated read clean bytes zero noDeadline chain own stage held
      fits anyFloor => ?_⟩
  · subst is
    exact ⟨_, rfl, tallyQuery_completes run awake read target noMaps⟩
  · subst is
    have event := tallyEvent_told 0xA004 i (tallyOf s i).cause (pktAuth c.pkt) (prepare c i (quietAgain s))
    obtain ⟨record, maps⟩ := prepare_leaves c i (quietAgain s)
    refine ⟨_, ⟨?_, ?_⟩, tallyPrepReset_completes awake read target run disturbed idle noUnmaps⟩
    · rw [tallyOf_congr (congrArg Tly.recs event.tly), record]
      rfl
    · rw [binEntry_congr event.grn, maps]
  · subst is
    obtain ⟨u, runs, told⟩ := tallyConfirm_completes awake read target run sweeping other swept epoch zero inTime
    obtain ⟨record, bin⟩ := confirm_leaves i
      ((quietAgain s).modTly fun y => { y with arrived := y.arrived.filter fun a => a.1 ≠ id })
    refine ⟨u, ⟨?_, ?_⟩, runs⟩
    · rw [tallyOf_congr (congrArg Tly.recs told.tly), record, tallyOf_congr (confirming_recs id s)]
    · rw [binEntry_congr told.grn, bin, binEntry_congr (confirming_grn id s)]
  · exact ⟨_, ⟨confirming_recs id s, confirming_grn id s⟩, tallyConfirm_refuses awake read target run prepared same⟩
  · subst is pkIs
    obtain ⟨recs, exits, out, alike⟩ := operationExit_read held bin kind runs own reads first good last noWeak noBad epoch same open_
      clean
    refine ⟨_, exits, ?_, out, alike, ?_, rfl⟩
    · exact (Tbl.get_erase s.tly.tokens n n).trans (if_pos rfl)
    · exact List.mem_append_right _ List.mem_cons_self
  · subst is
    obtain ⟨record, grn, mem⟩ := disturb_first fresh 2
    exact ⟨_, rfl, lockedOut_disturbed (congrArg TRec.state record), record, grn, mem⟩
  · show execTokenFreeAdmit s = _
    unfold execTokenFreeAdmit
    rw [waiting]
    exact onEvent_holds free
  · subst is
    obtain ⟨t, runs, record⟩ := tallyBackgroundScan_marks fresh
    exact ⟨t, runs, lockedOut_disturbed (congrArg TRec.state record), congrArg TRec.suspA record, (congrArg TRec.suspB record :),
      congrArg TRec.cause record⟩
  · exact tallyBackgroundScan_laps same
  · have added := itemOf_addItem
      { fn := 0, owner := .sweep (binEntry s i).carve i, image := 1024, gang := 0, due := s.core.t + sec 1, floors := 1 }
      (modTally i (fun r => { r with sweepAt := Option.none }) s)
    exact ⟨_, _, sweepQueue_runs pending due, added, rfl, rfl, rfl, rfl, congrArg TRec.sweepAt (tallyOf_modTally ..)⟩
  · subst is bin
    obtain ⟨t, runs, gone, done, stays, window, mem⟩ := sweepTokenPass_leaves only owner running awake sweeping fresh a b' small up
    refine ⟨t, runs, gone, done, stays, window, fun k inside => ?_⟩
    rw [mem, readCell_zeroRange, if_neg]
    unfold binCell
    omega
  · subst is
    obtain ⟨record, -, -⟩ := disturb_first (s := s) (i := i) (fun h => absurd (h.symm.trans sweeping) (by decide)) 8
    exact ⟨_, confirmWindowExpiry_runs swept late none, lockedOut_disturbed (congrArg TRec.state record), congrArg TRec.state record,
      congrArg TRec.cause record, congrArg TRec.swept record⟩
  · have even : (val % 2 ^ 16 + 2 ^ 16 - s.grn.nmwHead) % 2 ^ 16 = 0 := by
      rw [head]
      omega
    exact (nmwTailWrite_runs granary up run bus even).trans (congrArg _ (if_pos rfl))
  · obtain ⟨core, trn, stn, grn, -, -⟩ := State.worked_eq ((congrArg (fun d => d.2.worked) read).trans ((readRuns_worked ..).trans
      (noteWalks_worked (quietAgain { s with grn := { s.grn with nmwTail := val % 2 ^ 16 } }) h)))
    have takes := takeEntry_adds (index := s.grn.nmwHead % nmwDepth s)
      (s := d.2.modGrn fun g => { g with nmwHead := (g.nmwHead + 1) % 2 ^ 16 }) bytes clean zero noDeadline
      ((congrArg (fun x => x.chains.get (num e 0 2)) stn).trans chain) own stage
      ((congrArg (fun x => x.images.get image) stn).trans held) fits anyFloor
    have runs := nmwTailWrite_one granary up run awake low next translated read
    rw [takes] at runs
    have added := itemOf_addItem (ringItem (s.grn.nmwHead % nmwDepth s) image m e d.2.core.t)
      (d.2.modGrn fun g => { g with nmwHead := (g.nmwHead + 1) % 2 ^ 16 })
    have place : (d.2.modGrn fun g => { g with nmwHead := (g.nmwHead + 1) % 2 ^ 16 }).trn.nextItem = s.trn.nextItem :=
      congrArg Trn.nextItem trn
    have head : d.2.grn.nmwHead = s.grn.nmwHead := (congrArg Grn.nmwHead grn :)
    rw [place] at added
    refine ⟨_, _, runs, ?_, added, rfl, rfl, rfl, rfl, rfl, ?_, rfl⟩
    · exact (congrArg (fun n => (n + 1) % 2 ^ 16) head).trans next.symm
    · exact congrArg (fun c => c.t + sec 1) core

end Sys2Proof.Machine
end
